-- ==== Sys2Proof/Word.lean ====
section
/-! DEFINITION. The word types of the VN700 model and their plainest arithmetic (spec 00: R1, R7, R9 to R11). -/

namespace Sys2Proof

abbrev Byte := BitVec 8
abbrev Word := BitVec 32
abbrev DWord := BitVec 64

/-- A 16-bit status: bits [15:12] name the unit, bits [11:0] the code (R7). -/
abbrev Status := BitVec 16

/-- Bits [hi:lo] of a natural number. -/
def natBits (v hi lo : Nat) : Nat := (v / 2 ^ lo) % 2 ^ (hi + 1 - lo)

/-- Bit `i` of a natural number. -/
def natBit (v i : Nat) : Bool := (v / 2 ^ i) % 2 == 1

/-- `v` with bits [hi:lo] replaced by `x` (reduced to the field's width). -/
def natSetBits (v hi lo x : Nat) : Nat :=
  v - natBits v hi lo * 2 ^ lo + (x % 2 ^ (hi + 1 - lo)) * 2 ^ lo

/-- A count of width `w` that saturates at its largest value. -/
def satAdd (w a b : Nat) : Nat := min (a + b) (2 ^ w - 1)

/-- Round `n` up to a multiple of `k`. -/
def roundUp (n k : Nat) : Nat := (n + k - 1) / k * k

def ceilDiv (n k : Nat) : Nat := (n + k - 1) / k

end Sys2Proof
end

