-- ==== Sys2Proof/Machine/Regs.lean ====
section
/-! DEFINITION. The memory-mapped registers of the VN700 that are not keep words: one name per register of the
spec's register tables (chapters 02 to 21), its width, reset value and fields with their access codes (R3). A register
that exists several times takes an index, whose meaning stands beside its name. Keep words (R525) stand in
Machine/KeepMap.lean. The write-only registers are commands of their own and hold nothing. -/

namespace Sys2Proof

/-- Access codes of R3 for the fields that hold a value outside the keep registers. -/
inductive Acc where
  | ro | rw | w1c
deriving DecidableEq, Repr

/-- Register names. The comment gives the meaning of the index. -/
inductive RegName where
  | dbgCtl
  | dbgAccessErr
  | dbgIgnored
  | hubFtStatus
  | hubFtErrbound
  | hubFtNow
  | hubEmuStatus
  | tcmpCtl  -- die * 64 + comparator
  | tcmpTarget  -- die * 64 + comparator
  | tcmpArg  -- die * 64 + comparator
  | tnsReach  -- core * 16 + window
  | tnsDmaStage  -- core * 16 + word
  | tnsDmaSubmits  -- core
  | tnsMeStage  -- core * 16 + word
  | tnsSrSeed  -- core
  | tnsOptHp  -- core * 8 + register 0 to 5
  | cadDomainCtl  -- domain
  | cadDomainStatus  -- domain
  | cadSteepCount  -- domain
  | cadDomainLr  -- domain
  | cadDomainGscale  -- domain
  | cadSteepStale  -- domain
  | cadIntakeStale  -- domain
  | cadDomainNonfinite  -- domain
  | cadScalarRefused  -- domain
  | cadCkptCtl  -- domain
  | cadCkptPeriod  -- domain
  | cadCkptDeadline  -- domain
  | cadDeepCtl  -- domain
  | cadCommittedSteep  -- domain
  | cadDeclaredSteep  -- domain
  | cadDeepSteep  -- domain
  | cadCkptStatus  -- domain
  | cadCowUsed  -- domain
  | cadCowPeak  -- domain
  | cadCowSaves  -- domain
  | cadCowStalls  -- domain
  | cadStallUs  -- domain
  | cadTrigDeferred  -- domain
  | cadGrainNaks  -- domain
  | cadWireBytes  -- domain
  | cadSnapGrains  -- domain
  | cadRecoveryCtl  -- domain
  | cadRecoveryStatus  -- domain
  | cadRecoveryInfo  -- domain
  | cadRecoveries  -- domain
  | cadRestoredGrains  -- domain
  | cadRecoveryUs  -- domain
  | hubBringupStatus
  | hubBringupIndex
  | hubReadyTime
  | pciRpActive
  | pciHostStatus
  | pciRpStatus  -- subport 4p + s
  | pciCtoCount  -- link: 0 host, 1 + p root port p
  | pciLateCpl  -- link
  | pciPoisonRx  -- link
  | pciQuarTags  -- link
  | slcStatus  -- slice
  | slcDbIgnored  -- slice
  | slcResets  -- slice
  | vrmCcCfg
  | vrmCcTime
  | vrmCcRate
  | vrmDropCheck
  | vrmDropHold
  | vrmDropMiss
  | vrmDropFreeze
  | vrmRetx
  | vrmPathsRemoved
  | vrmSnakSent
  | netPortCfg  -- logical port
  | netShaperPeriod
  | netRxErr  -- logical port
  | netCtlDrop  -- logical port
  | netMacsecDrop  -- logical port
  | pktCfg
  | pktDefault
  | pktShapeRate  -- 17 * logical port + queue
  | pktShapeHi  -- 17 * logical port + queue
  | pktShapeCredit  -- 17 * logical port + queue
  | pktWeight  -- 3 * logical port + word
  | pktPolicerRate  -- policer
  | pktPolicerBurst  -- policer
  | pktRuleStage  -- stage word 0 to 39
  | pktRuleStatus
  | pktRuleHits  -- rule entry
  | pktPoliceDrop  -- policer
  | pktPoliceMark  -- policer
  | pktRxCsum
  | pktRxNobuf
  | pktSlowDrop
  | pktPourDrop
  | pktQset  -- 256 * queue set + entry
  | stoArb
  | stoJournalUsed
  | stoUnjournaled
  | stoJournalWaits
  | stoBackingTimeouts
  | stoUnreadable
  | nvmeCc  -- controller
  | nvmeCsts  -- controller
  | nvmeAqa  -- controller
  | nvmeAsq  -- controller
  | nvmeAcq  -- controller
  | secStatus
  | secEngineFail
  | secEngineSpare
  | secShadowMismatch
  | secSerialMismatch
  | secSlotsSpent
  | secEntropyFails
  | secWrapAuthFails
  | mbxStatus  -- mailbox
  | mbxEvtStatus  -- mailbox
  | mbxIrq  -- mailbox
  | eicSrcCfg  -- 256 * cluster + source
  | eicVbase  -- 16 * cluster + core
  | eicMask  -- 8 * cluster + word
  | eicPending  -- 8 * cluster + word
  | eicActive  -- 8 * cluster + word
  | eicBadComplete  -- cluster
  | eicWatch  -- slot
  | msixEntry  -- (function * 2048 + vector) * 4 + word
  | eicAoTimer
  | strNextSeq
  | strStatus
  | strLost
  | strViewWrites
  | sivCtl  -- die: 0 hub, 1 T0, 2 T1
  | sivStatus  -- die
  | sivEn  -- 32 * die + word
  | sivTrigCause  -- die
  | sivTrigSrc  -- die
  | sivTrigVal  -- die
  | sivTrigVmask  -- die
  | sivSpill  -- die
  | sivView  -- die
  | sivDrops  -- die
  | sivGaps  -- die
  | sivTrigLate  -- die
  | sivPmcCfg  -- cluster * 16 + counter for clusters 0 to 15, 256 + counter for the hub
  | sivPmc  -- as sivPmcCfg
  | pwrStatus
  | pwrTj
  | pwrAlert
  | pwrHardpan
  | keepWinSel  -- function: 0 PF0, 1 PF1
  | keepWinStatus  -- function
  | keepWinFault  -- function
  | keepWorn
  | keepFrozenWords
deriving DecidableEq, Repr

/-- A register: its name and index (0 where there is one only). -/
structure Reg where
  name : RegName
  idx  : Nat := 0
deriving DecidableEq, Repr

/-- A register field: bits [hi:lo] and its access code. -/
structure Fld where
  hi  : Nat
  lo  : Nat
  acc : Acc
deriving DecidableEq, Repr

structure RegInfo where
  width  : Nat
  reset  : Nat
  fields : List Fld
deriving DecidableEq, Repr

/-- The register tables of the spec. Bits named by no field are RSV: they read zero and ignore writes (R3, R4). -/
def RegName.info : RegName → RegInfo
  | .dbgCtl => ⟨32, 0, [⟨7, 4, .rw⟩, ⟨3, 2, .rw⟩]⟩
  | .dbgAccessErr => ⟨32, 0, [⟨31, 0, .ro⟩]⟩
  | .dbgIgnored => ⟨32, 0, [⟨31, 0, .ro⟩]⟩
  | .hubFtStatus => ⟨32, 0, [⟨31, 24, .ro⟩, ⟨23, 16, .ro⟩, ⟨3, 3, .ro⟩, ⟨2, 2, .ro⟩, ⟨1, 0, .ro⟩]⟩
  | .hubFtErrbound => ⟨32, 0xFFFFFFFF, [⟨31, 0, .ro⟩]⟩
  | .hubFtNow => ⟨64, 0, [⟨63, 0, .ro⟩]⟩
  | .hubEmuStatus => ⟨32, 0x3FFF, [⟨13, 0, .ro⟩]⟩
  | .tcmpCtl => ⟨32, 0, [⟨31, 24, .ro⟩, ⟨23, 23, .w1c⟩, ⟨22, 22, .ro⟩, ⟨21, 16, .rw⟩, ⟨15, 12, .rw⟩, ⟨3, 3, .rw⟩, ⟨2, 1, .rw⟩, ⟨0, 0, .rw⟩]⟩
  | .tcmpTarget => ⟨64, 0, [⟨63, 0, .rw⟩]⟩
  | .tcmpArg => ⟨64, 0, [⟨63, 0, .rw⟩]⟩
  | .tnsReach => ⟨32, 0, [⟨31, 12, .rw⟩, ⟨2, 2, .ro⟩, ⟨1, 1, .rw⟩, ⟨0, 0, .rw⟩]⟩
  | .tnsDmaStage => ⟨32, 0, [⟨31, 0, .rw⟩]⟩
  | .tnsDmaSubmits => ⟨32, 0, [⟨31, 0, .ro⟩]⟩
  | .tnsMeStage => ⟨32, 0, [⟨31, 0, .rw⟩]⟩
  | .tnsSrSeed => ⟨64, 1, [⟨63, 0, .rw⟩]⟩
  | .tnsOptHp => ⟨32, 0, [⟨31, 0, .rw⟩]⟩
  | .cadDomainCtl => ⟨32, 0, [⟨3, 3, .rw⟩, ⟨2, 2, .rw⟩, ⟨1, 1, .rw⟩, ⟨0, 0, .rw⟩]⟩
  | .cadDomainStatus => ⟨32, 0, [⟨31, 16, .ro⟩, ⟨3, 3, .ro⟩, ⟨2, 2, .ro⟩, ⟨1, 0, .ro⟩]⟩
  | .cadSteepCount => ⟨64, 0, [⟨47, 0, .ro⟩]⟩
  | .cadDomainLr => ⟨32, 0, [⟨31, 0, .rw⟩]⟩
  | .cadDomainGscale => ⟨32, 0x3F800000, [⟨31, 0, .rw⟩]⟩
  | .cadSteepStale => ⟨32, 0, [⟨31, 0, .ro⟩]⟩
  | .cadIntakeStale => ⟨32, 0, [⟨31, 0, .ro⟩]⟩
  | .cadDomainNonfinite => ⟨32, 0, [⟨31, 0, .ro⟩]⟩
  | .cadScalarRefused => ⟨32, 0, [⟨31, 0, .ro⟩]⟩
  | .cadCkptCtl => ⟨32, 0x10, [⟨19, 4, .rw⟩, ⟨3, 3, .rw⟩, ⟨1, 0, .rw⟩]⟩
  | .cadCkptPeriod => ⟨64, 0x2540BE400, [⟨63, 0, .rw⟩]⟩
  | .cadCkptDeadline => ⟨32, 0x1388, [⟨31, 0, .rw⟩]⟩
  | .cadDeepCtl => ⟨32, 0, [⟨15, 0, .rw⟩]⟩
  | .cadCommittedSteep => ⟨64, 0x8000000000000000, [⟨63, 63, .ro⟩, ⟨47, 0, .ro⟩]⟩
  | .cadDeclaredSteep => ⟨64, 0x8000000000000000, [⟨63, 63, .ro⟩, ⟨47, 0, .ro⟩]⟩
  | .cadDeepSteep => ⟨64, 0x8000000000000000, [⟨63, 63, .ro⟩, ⟨47, 0, .ro⟩]⟩
  | .cadCkptStatus => ⟨32, 0, [⟨31, 16, .ro⟩, ⟨15, 8, .ro⟩, ⟨2, 2, .ro⟩, ⟨1, 0, .ro⟩]⟩
  | .cadCowUsed => ⟨32, 0, [⟨23, 0, .ro⟩]⟩
  | .cadCowPeak => ⟨32, 0, [⟨23, 0, .ro⟩]⟩
  | .cadCowSaves => ⟨32, 0, [⟨31, 0, .ro⟩]⟩
  | .cadCowStalls => ⟨32, 0, [⟨31, 0, .ro⟩]⟩
  | .cadStallUs => ⟨32, 0, [⟨31, 0, .ro⟩]⟩
  | .cadTrigDeferred => ⟨32, 0, [⟨31, 0, .ro⟩]⟩
  | .cadGrainNaks => ⟨32, 0, [⟨31, 0, .ro⟩]⟩
  | .cadWireBytes => ⟨64, 0, [⟨63, 0, .ro⟩]⟩
  | .cadSnapGrains => ⟨32, 0, [⟨31, 0, .ro⟩]⟩
  | .cadRecoveryCtl => ⟨32, 0x003C1E00, [⟨31, 16, .rw⟩, ⟨15, 8, .rw⟩, ⟨0, 0, .rw⟩]⟩
  | .cadRecoveryStatus => ⟨32, 0, [⟨31, 16, .ro⟩, ⟨13, 0, .ro⟩]⟩
  | .cadRecoveryInfo => ⟨32, 0xFFFF0000, [⟨31, 16, .ro⟩, ⟨15, 8, .ro⟩, ⟨3, 0, .ro⟩]⟩
  | .cadRecoveries => ⟨32, 0, [⟨31, 0, .ro⟩]⟩
  | .cadRestoredGrains => ⟨32, 0, [⟨31, 0, .ro⟩]⟩
  | .cadRecoveryUs => ⟨32, 0, [⟨31, 0, .ro⟩]⟩
  | .hubBringupStatus => ⟨32, 1, [⟨31, 16, .ro⟩, ⟨7, 6, .ro⟩, ⟨2, 0, .ro⟩]⟩
  | .hubBringupIndex => ⟨32, 0x3FFF3FFF, [⟨29, 16, .ro⟩, ⟨13, 0, .ro⟩]⟩
  | .hubReadyTime => ⟨64, 0, [⟨63, 0, .ro⟩]⟩
  | .pciRpActive => ⟨32, 0, [⟨31, 0, .ro⟩]⟩
  | .pciHostStatus => ⟨32, 0, [⟨11, 10, .ro⟩, ⟨9, 8, .ro⟩, ⟨7, 7, .ro⟩, ⟨6, 6, .ro⟩, ⟨5, 3, .ro⟩, ⟨2, 0, .ro⟩]⟩
  | .pciRpStatus => ⟨32, 0, [⟨11, 11, .w1c⟩, ⟨10, 10, .ro⟩, ⟨9, 9, .ro⟩, ⟨8, 8, .ro⟩, ⟨7, 7, .ro⟩, ⟨6, 6, .ro⟩, ⟨5, 3, .ro⟩, ⟨2, 0, .ro⟩]⟩
  | .pciCtoCount => ⟨32, 0, [⟨31, 0, .ro⟩]⟩
  | .pciLateCpl => ⟨32, 0, [⟨31, 0, .ro⟩]⟩
  | .pciPoisonRx => ⟨32, 0, [⟨31, 0, .ro⟩]⟩
  | .pciQuarTags => ⟨32, 0, [⟨13, 0, .ro⟩]⟩
  | .slcStatus => ⟨32, 0, [⟨31, 16, .ro⟩, ⟨3, 3, .ro⟩, ⟨2, 2, .ro⟩, ⟨1, 1, .ro⟩, ⟨0, 0, .ro⟩]⟩
  | .slcDbIgnored => ⟨32, 0, [⟨31, 0, .ro⟩]⟩
  | .slcResets => ⟨32, 0, [⟨31, 0, .ro⟩]⟩
  | .vrmCcCfg => ⟨32, 0x64004500, [⟨31, 24, .rw⟩, ⟨15, 12, .rw⟩, ⟨11, 8, .rw⟩]⟩
  | .vrmCcTime => ⟨32, 0x0014000A, [⟨31, 16, .rw⟩, ⟨15, 0, .rw⟩]⟩
  | .vrmCcRate => ⟨32, 0x0032000A, [⟨31, 16, .rw⟩, ⟨15, 0, .rw⟩]⟩
  | .vrmDropCheck => ⟨32, 0, [⟨31, 0, .ro⟩]⟩
  | .vrmDropHold => ⟨32, 0, [⟨31, 0, .ro⟩]⟩
  | .vrmDropMiss => ⟨32, 0, [⟨31, 0, .ro⟩]⟩
  | .vrmDropFreeze => ⟨32, 0, [⟨31, 0, .ro⟩]⟩
  | .vrmRetx => ⟨32, 0, [⟨31, 0, .ro⟩]⟩
  | .vrmPathsRemoved => ⟨32, 0, [⟨31, 0, .ro⟩]⟩
  | .vrmSnakSent => ⟨32, 0, [⟨31, 0, .ro⟩]⟩
  | .netPortCfg => ⟨32, 0x00340009, [⟨22, 16, .rw⟩, ⟨12, 8, .rw⟩, ⟨3, 3, .rw⟩, ⟨2, 2, .rw⟩, ⟨1, 1, .rw⟩, ⟨0, 0, .rw⟩]⟩
  | .netShaperPeriod => ⟨32, 0x3E8, [⟨31, 0, .rw⟩]⟩
  | .netRxErr => ⟨32, 0, [⟨31, 0, .ro⟩]⟩
  | .netCtlDrop => ⟨32, 0, [⟨31, 0, .ro⟩]⟩
  | .netMacsecDrop => ⟨32, 0, [⟨31, 0, .ro⟩]⟩
  | .pktCfg => ⟨32, 0x12B51144, [⟨31, 16, .rw⟩, ⟨15, 0, .rw⟩]⟩
  | .pktDefault => ⟨32, 0x100, [⟨9, 8, .rw⟩, ⟨3, 0, .rw⟩]⟩
  | .pktShapeRate => ⟨32, 0, [⟨16, 0, .rw⟩]⟩
  | .pktShapeHi => ⟨32, 0x40, [⟨15, 0, .rw⟩]⟩
  | .pktShapeCredit => ⟨32, 0, [⟨31, 0, .ro⟩]⟩
  | .pktWeight => ⟨32, 0x10101010, [⟨31, 24, .rw⟩, ⟨23, 16, .rw⟩, ⟨15, 8, .rw⟩, ⟨7, 0, .rw⟩]⟩
  | .pktPolicerRate => ⟨32, 0, [⟨16, 0, .rw⟩]⟩
  | .pktPolicerBurst => ⟨32, 0x40, [⟨16, 16, .rw⟩, ⟨15, 0, .rw⟩]⟩
  | .pktRuleStage => ⟨32, 0, [⟨31, 0, .rw⟩]⟩
  | .pktRuleStatus => ⟨32, 0, [⟨31, 16, .ro⟩, ⟨0, 0, .ro⟩]⟩
  | .pktRuleHits => ⟨32, 0, [⟨31, 0, .ro⟩]⟩
  | .pktPoliceDrop => ⟨32, 0, [⟨31, 0, .ro⟩]⟩
  | .pktPoliceMark => ⟨32, 0, [⟨31, 0, .ro⟩]⟩
  | .pktRxCsum => ⟨32, 0, [⟨31, 0, .ro⟩]⟩
  | .pktRxNobuf => ⟨32, 0, [⟨31, 0, .ro⟩]⟩
  | .pktSlowDrop => ⟨32, 0, [⟨31, 0, .ro⟩]⟩
  | .pktPourDrop => ⟨32, 0, [⟨31, 0, .ro⟩]⟩
  | .pktQset => ⟨32, 0, [⟨7, 0, .rw⟩]⟩
  | .stoArb => ⟨32, 0x08040101, [⟨31, 24, .rw⟩, ⟨23, 16, .rw⟩, ⟨15, 8, .rw⟩, ⟨1, 1, .rw⟩, ⟨0, 0, .ro⟩]⟩
  | .stoJournalUsed => ⟨32, 0, [⟨31, 0, .ro⟩]⟩
  | .stoUnjournaled => ⟨32, 0, [⟨31, 0, .ro⟩]⟩
  | .stoJournalWaits => ⟨32, 0, [⟨31, 0, .ro⟩]⟩
  | .stoBackingTimeouts => ⟨32, 0, [⟨31, 0, .ro⟩]⟩
  | .stoUnreadable => ⟨32, 0, [⟨31, 0, .ro⟩]⟩
  | .nvmeCc => ⟨32, 0, [⟨31, 0, .rw⟩]⟩
  | .nvmeCsts => ⟨32, 0, [⟨31, 0, .ro⟩]⟩
  | .nvmeAqa => ⟨32, 0, [⟨27, 16, .rw⟩, ⟨11, 0, .rw⟩]⟩
  | .nvmeAsq => ⟨64, 0, [⟨63, 0, .rw⟩]⟩
  | .nvmeAcq => ⟨64, 0, [⟨63, 0, .rw⟩]⟩
  | .secStatus => ⟨32, 0, [⟨31, 24, .ro⟩, ⟨15, 15, .ro⟩, ⟨14, 14, .ro⟩, ⟨13, 13, .ro⟩, ⟨12, 12, .ro⟩, ⟨1, 0, .ro⟩]⟩
  | .secEngineFail => ⟨32, 0, [⟨31, 0, .ro⟩]⟩
  | .secEngineSpare => ⟨32, 0, [⟨8, 8, .ro⟩, ⟨7, 7, .ro⟩, ⟨4, 0, .ro⟩]⟩
  | .secShadowMismatch => ⟨32, 0, [⟨31, 0, .ro⟩]⟩
  | .secSerialMismatch => ⟨32, 0, [⟨31, 0, .ro⟩]⟩
  | .secSlotsSpent => ⟨32, 0, [⟨31, 0, .ro⟩]⟩
  | .secEntropyFails => ⟨32, 0, [⟨31, 0, .ro⟩]⟩
  | .secWrapAuthFails => ⟨32, 0, [⟨31, 0, .ro⟩]⟩
  | .mbxStatus => ⟨32, 0, [⟨31, 16, .ro⟩, ⟨8, 8, .ro⟩, ⟨1, 1, .ro⟩, ⟨0, 0, .ro⟩]⟩
  | .mbxEvtStatus => ⟨32, 0, [⟨31, 31, .w1c⟩, ⟨6, 0, .ro⟩]⟩
  | .mbxIrq => ⟨32, 0, [⟨1, 1, .rw⟩, ⟨0, 0, .rw⟩]⟩
  | .eicSrcCfg => ⟨32, 0, [⟨31, 24, .rw⟩, ⟨23, 20, .rw⟩, ⟨19, 16, .rw⟩, ⟨13, 13, .rw⟩, ⟨12, 12, .rw⟩, ⟨11, 0, .rw⟩]⟩
  | .eicVbase => ⟨32, 0, [⟨31, 13, .rw⟩]⟩
  | .eicMask => ⟨32, 0, [⟨31, 0, .rw⟩]⟩
  | .eicPending => ⟨32, 0, [⟨31, 0, .rw⟩]⟩
  | .eicActive => ⟨32, 0, [⟨31, 0, .ro⟩]⟩
  | .eicBadComplete => ⟨32, 0, [⟨31, 0, .ro⟩]⟩
  | .eicWatch => ⟨32, 0, [⟨31, 31, .rw⟩, ⟨30, 30, .rw⟩, ⟨15, 0, .rw⟩]⟩
  | .msixEntry => ⟨32, 0, [⟨31, 0, .rw⟩]⟩
  | .eicAoTimer => ⟨64, 0xFFFFFFFFFFFFFFFF, [⟨63, 0, .rw⟩]⟩
  | .strNextSeq => ⟨64, 0, [⟨63, 0, .ro⟩]⟩
  | .strStatus => ⟨32, 0, [⟨31, 16, .ro⟩, ⟨10, 0, .ro⟩]⟩
  | .strLost => ⟨32, 0, [⟨31, 0, .ro⟩]⟩
  | .strViewWrites => ⟨32, 0, [⟨31, 0, .ro⟩]⟩
  | .sivCtl => ⟨32, 0x20000000, [⟨31, 31, .rw⟩, ⟨30, 30, .rw⟩, ⟨29, 26, .rw⟩, ⟨5, 4, .rw⟩, ⟨3, 3, .rw⟩, ⟨2, 1, .rw⟩, ⟨0, 0, .rw⟩]⟩
  | .sivStatus => ⟨32, 0, [⟨31, 30, .ro⟩, ⟨18, 0, .ro⟩]⟩
  | .sivEn => ⟨32, 0, [⟨31, 0, .rw⟩]⟩
  | .sivTrigCause => ⟨32, 0, [⟨4, 0, .rw⟩]⟩
  | .sivTrigSrc => ⟨32, 0, [⟨31, 16, .rw⟩, ⟨15, 0, .rw⟩]⟩
  | .sivTrigVal => ⟨32, 0, [⟨31, 0, .rw⟩]⟩
  | .sivTrigVmask => ⟨32, 0, [⟨31, 0, .rw⟩]⟩
  | .sivSpill => ⟨32, 0, [⟨31, 16, .rw⟩, ⟨15, 0, .rw⟩]⟩
  | .sivView => ⟨32, 0, [⟨31, 0, .rw⟩]⟩
  | .sivDrops => ⟨32, 0, [⟨31, 0, .ro⟩]⟩
  | .sivGaps => ⟨32, 0, [⟨31, 0, .ro⟩]⟩
  | .sivTrigLate => ⟨32, 0, [⟨31, 0, .ro⟩]⟩
  | .sivPmcCfg => ⟨32, 0, [⟨31, 31, .rw⟩, ⟨15, 0, .rw⟩]⟩
  | .sivPmc => ⟨64, 0, [⟨63, 0, .rw⟩]⟩
  | .pwrStatus => ⟨32, 0, [⟨31, 20, .ro⟩, ⟨19, 15, .ro⟩, ⟨14, 10, .ro⟩, ⟨3, 2, .ro⟩, ⟨1, 1, .ro⟩, ⟨0, 0, .ro⟩]⟩
  | .pwrTj => ⟨32, 0, [⟨31, 24, .ro⟩, ⟨23, 16, .ro⟩, ⟨15, 8, .ro⟩, ⟨7, 0, .ro⟩]⟩
  | .pwrAlert => ⟨32, 0, [⟨5, 5, .w1c⟩, ⟨4, 4, .w1c⟩, ⟨3, 3, .w1c⟩, ⟨2, 2, .w1c⟩, ⟨1, 1, .w1c⟩, ⟨0, 0, .w1c⟩]⟩
  | .pwrHardpan => ⟨32, 0, [⟨31, 16, .ro⟩, ⟨0, 0, .ro⟩]⟩
  | .keepWinSel => ⟨32, 0, [⟨3, 0, .rw⟩]⟩
  | .keepWinStatus => ⟨32, 0, [⟨31, 16, .ro⟩, ⟨15, 0, .ro⟩]⟩
  | .keepWinFault => ⟨32, 0, [⟨17, 0, .ro⟩]⟩
  | .keepWorn => ⟨32, 0, [⟨31, 0, .ro⟩]⟩
  | .keepFrozenWords => ⟨32, 0, [⟨31, 0, .ro⟩]⟩

/-- The value a register holds at reset. TNS_OPT_HP4 and HP5 reset to 1.0 (R195). The retry and ring fields of SLC_STATUS
of slice 0 read live (R319). -/
def Reg.reset (r : Reg) : Nat :=
  match r.name with
  | .tnsOptHp => if r.idx % 8 = 4 ∨ r.idx % 8 = 5 then 0x3F800000 else 0
  | .slcStatus => if r.idx = 0 then 1 else 0
  | n => n.info.reset

end Sys2Proof
end

