-- ==== Sys2Proof/Machine/Types.lean ====
section
/-! DEFINITION. The operand types of the VN700's commands: who acts, the requests of the mailbox, the messages and
packets that arrive, and the second short operation of a paired Tilth-32 word. Field names follow the spec's tables. -/

namespace Sys2Proof

/-- A physical function of the host port. -/
inductive Pf where
  | pf0 | pf1
deriving DecidableEq, Repr

/-- Whose mailbox or page a request comes from (R319, R437). -/
inductive Caller where
  | pf0 | pf1
  | slice (n : Nat)
deriving DecidableEq, Repr

/-- Who performs a register access or a write into memory. -/
inductive Agent where
  | pf0 | pf1
  | slice (n : Nat)
  | core (id : Nat)
  | me (id : Nat)
  | dma (cluster : Nat)
  | accel (subport : Nat)
  | hub
  | mgmt
  | firmware
  | bootRom
  | island
  | remapHw
  | spdm
deriving DecidableEq, Repr

/-- A PCIe link: the host port, or root port `p` with its subport. -/
inductive Link where
  | host
  | root (subport : Nat)
deriving DecidableEq, Repr

/-- Configuration-space targets of R290. -/
inductive CfgFn where
  | upstream | pf0 | pf1
  | downstream (subport : Nat)
  | other
deriving DecidableEq, Repr

/-- What a configuration write changes, of what the spec gives a meaning (R295, R296, R302, R310, R470). -/
inductive CfgWrite where
  | none
  | deviceControl2 (cto : BitVec 4)
  | memWindow (base limit : Nat)
  | acsRedirect (on : Bool)
  | msixControl (enable mask : Bool)
  | pmeEnable (on : Bool)
deriving DecidableEq, Repr

/-- Completion status of a PCIe completion. -/
inductive CplStatus where
  | success | ur | ca
deriving DecidableEq, Repr

/-- What a poisoned TLP was (R312). -/
inductive Poisoned where
  | posted
  | completion (tag : Nat)
deriving DecidableEq, Repr

/-- A memory request of a device: a read of `len` bytes, or a write. -/
inductive MemReq where
  | read (len : Nat)
  | write (data : List Byte)
deriving DecidableEq, Repr

/-- The causes of an immediate remap (R75). -/
inductive CoreFault where
  | residue | regfile | pipeline | meTimeout
deriving DecidableEq, Repr

/-- What the scrubber finds in a word (R53, R54). -/
inductive EccResult where
  | ok | corrected | uncorrectable
deriving DecidableEq, Repr

/-- Slots of a paired word (R118). -/
inductive Slot where
  | s0 | s1
deriving DecidableEq, Repr

/-- A short operation as the other half of a paired word (R120): its sop, ra, and the seven bits that hold rb and sub,
or imm7. -/
structure ShortOp where
  sop : BitVec 4
  ra  : BitVec 4
  low : BitVec 7
deriving DecidableEq, Repr

/-- A Silt range of a partition request, in 16 MiB units, count minus-one (R148). -/
structure SiltRange where
  die   : Bool
  start : BitVec 7
  count : BitVec 7
deriving DecidableEq, Repr

/-- A reach grant of a partition (R148). -/
structure Grant where
  addr  : Nat
  len   : Nat
  write : Bool
deriving DecidableEq, Repr

/-- A work ring of a partition: array addresses of the ring and its completion ring, log2 of the entries (R148). -/
structure RingReq where
  work : Nat
  cpl  : Nat
  log2 : Nat
deriving DecidableEq, Repr

/-- The partition request of R148. -/
structure PartitionReq where
  owner        : Nat       -- 0 for PF0, else the slice number whose PASID the request names
  clusterMask  : BitVec 16
  silt         : List SiltRange
  coreShare    : BitVec 4
  clusterShare : BitVec 4
  grants       : List Grant
  rings        : BitVec 3
  ring         : List RingReq
  streamCap    : BitVec 6
deriving DecidableEq, Repr

/-- An intake entry of a domain request (R172). -/
structure IntakeReq where
  silt     : Nat           -- array address of the ring's first byte in Silt
  depth    : BitVec 6
  slotLog2 : BitVec 5
  credit   : Nat
deriving DecidableEq, Repr

/-- The domain request of R172 and R286. -/
structure DomainReq where
  domain           : BitVec 6
  partition        : Nat
  pipelineClusters : BitVec 16
  lMax             : BitVec 32
  cowGib           : BitVec 8
  pauseDeadline    : BitVec 16
  t0               : BitVec 48
  intakeMask       : BitVec 32
  intake           : List IntakeReq
  jobId            : Nat
  digest           : List Byte
  standby          : Bool
deriving DecidableEq, Repr

/-- The region request of R175. -/
structure RegionReq where
  domain   : BitVec 6
  region   : BitVec 8
  kind     : BitVec 2
  base     : Nat
  length   : BitVec 48
  pageLog2 : BitVec 5
  shadow   : Nat
  notify   : Nat
deriving DecidableEq, Repr

/-- A push entry of a layer: where contributor `c` holds the weights and the push-done flag (R186). -/
structure PushReq where
  addr : Nat
  flag : Nat
deriving DecidableEq, Repr

/-- A layer entry (R186), with the hyperparameter set it names. Offsets: high plane, low plane, m, m scales, v, v scales. -/
structure LayerReq where
  layer        : BitVec 12
  op           : Byte
  hp           : BitVec 4
  params       : BitVec 40
  gradFmt      : Byte
  wireFmt      : Byte
  momentFmt    : Byte
  combineSum   : Bool
  contributors : BitVec 32
  region       : BitVec 8
  offHigh      : Nat
  offLow       : Nat
  offM         : Nat
  offMScale    : Nat
  offV         : Nat
  offVScale    : Nat
  push         : List PushReq
deriving DecidableEq, Repr

/-- The region and layer tables of an index, as a spare fetches them from its holder (R245, R251). -/
structure Tables where
  regions : List RegionReq
  layers  : List LayerReq
deriving DecidableEq, Repr

/-- A Caddy, recovery or bring-up message as it arrives (R215, R238, R274). `hop` is the device at the other end of the
last hop, `auth` says whether the GCM tag checks (R217), `payload` is the decrypted payload. -/
structure Msg where
  type    : Byte
  domain  : BitVec 6
  sender  : BitVec 16
  steep   : BitVec 48
  epoch   : BitVec 14
  region  : Byte
  flags   : Byte
  status  : Status
  a       : BitVec 32
  b       : BitVec 32
  c       : BitVec 64
  seq     : BitVec 64
  hop     : Nat
  auth    : Bool
  payload : List Byte
deriving DecidableEq, Repr

/-- The slice creation request of R316. -/
structure SliceReq where
  parent     : Pf
  pasid      : BitVec 20
  vrmtCached : Nat
  vrmtTotal  : Nat
  nvmeQpairs : Nat
  namespaces : Nat
  keySlots   : Nat
  irqEntries : Nat
  ddrBase    : Nat
  ddrLen     : Nat
  clusters   : Nat
  silt       : Nat
  domains    : Nat
  accelMask  : BitVec 32
deriving DecidableEq, Repr

/-- A source that IRQ_ENTRY_SET may bind (R471). -/
inductive IrqSource where
  | workRing (partition ring : Nat)
  | ckptDone (domain : Nat)
  | recoveryDone (domain : Nat)
  | keyLow
  | ftLock
  | vrmtCq (cq : Nat)
  | nvmeCq (vector : Nat)
  | pktQueue (q : Nat)
  | mailbox
deriving DecidableEq, Repr

/-- IRQ_ENTRY_SET (R471). -/
structure IrqEntryReq where
  owner    : Caller
  index    : Nat
  address  : Nat
  data     : BitVec 32
  interval : BitVec 16
  count    : Byte
  mask     : Bool
  valid    : Bool
  bindings : List IrqSource
deriving DecidableEq, Repr

/-- A host window request (R322): the array range and the host address it maps. -/
structure HostWindowReq where
  array : Nat
  host  : Nat
  len   : Nat
deriving DecidableEq, Repr

/-- VRMT_INIT (R335). -/
structure VrmtInitReq where
  ring      : Nat
  ringSpace : Nat
  cplRing   : Nat
  cplSpace  : Nat
  log2      : Nat
  spill     : Nat
  spillSpace : Nat
deriving DecidableEq, Repr

/-- CONN_CREATE (R335). The spaces are those of KEY_REGISTER. -/
structure ConnCreateReq where
  cq        : Nat
  sendRing  : Nat
  sendSpace : Nat
  sendLog2  : Nat
  recvRing  : Nat
  recvSpace : Nat
  recvLog2  : Nat
  doorbell  : Nat
  doorbellSpace : Nat
deriving DecidableEq, Repr

/-- CONN_CONNECT (R335). -/
structure ConnectReq where
  cn          : Nat
  peerIp      : Nat
  peerCn      : Nat
  sendPsn     : BitVec 32
  recvPsn     : BitVec 32
  mtu         : Nat
  paths       : Nat
  keySlot     : BitVec 32
  dir         : Bool
  timeoutMs   : Nat
  rnrDelay    : Nat
  rnrRetries  : Nat
deriving DecidableEq, Repr

/-- A VRMT packet as it arrives (R329, R330): base header, extension, payload, and whether its checksums or tag check. -/
structure Pkt where
  version   : BitVec 4
  encrypted : Bool
  ackReq    : Bool
  last      : Bool
  first     : Bool
  path      : BitVec 6
  dstCn     : BitVec 22
  srcIp     : Nat
  psn       : BitVec 32
  msn       : BitVec 32
  key       : BitVec 32     -- key, send sequence number, or msn answered
  msgLen    : BitVec 32
  base      : BitVec 64
  offset    : BitVec 32
  imm       : BitVec 32
  immPresent : Bool
  ce        : Bool
  checkOk   : Bool          -- UDP checksum, CRC-32C or GCM tag, and reserved bits zero
  payload   : List Byte
deriving DecidableEq, Repr

/-- An ACK packet's extension (R330). The bitmap is bit `n` for PSN bmpBase + n. -/
structure AckPkt where
  dstCn   : BitVec 22
  srcIp   : Nat
  checkOk : Bool
  encrypted : Bool
  cumPsn  : BitVec 32
  bmpBase : BitVec 32
  bitmap  : BitVec 256
  doneMsn : BitVec 32
  ceCount : BitVec 16
  ctlSeq  : BitVec 64
deriving DecidableEq, Repr

/-- A NAK packet's extension (R330). -/
structure NakPkt where
  dstCn   : BitVec 22
  srcIp   : Nat
  checkOk : Bool
  encrypted : Bool
  msn     : BitVec 32
  status  : Status
  kind    : Byte
  bmpBase : BitVec 32
  bitmap  : BitVec 256
  ctlSeq  : BitVec 64
deriving DecidableEq, Repr

/-- PKT_QUEUE_CREATE (R374). -/
structure PktQueueReq where
  tx        : Bool
  number    : Nat
  ring      : Nat
  cplRing   : Nat
  log2      : Nat
  irq       : Nat
  port      : Nat
  schedQ    : Nat
deriving DecidableEq, Repr

/-- A namespace's backing (R385): its kind, and what the backing is found to hold. -/
structure NsReq where
  nsid      : Nat
  lba512    : Bool
  capacity  : BitVec 48
  kind      : BitVec 2
  persistBacking : Bool
  ddrBase   : Nat          -- RAM: the DDR range drawn
  subport   : Nat          -- local SSD: its owned subport
  target    : Nat          -- NVMe/TCP: its target entry
  peer      : Nat          -- VRMT: peer address
  backingBytes   : Nat     -- what the backing reports
  backingBlock   : Nat
  reachable : Bool         -- it answered within 10 s
deriving DecidableEq, Repr

/-- A fetched NVMe command: queue, command identifier and the fields that this chapter reads (R384, R397). -/
structure NvmeCmd where
  cid    : BitVec 16
  opcode : Byte
  nsid   : Nat
  prp    : Nat             -- data pointer, in the controller's space
  dataLen : Nat            -- bytes that the PRPs or SGL describe
  cdw10  : BitVec 32
  cdw11  : BitVec 32
  cdw12  : BitVec 32
  cdw13  : BitVec 32
deriving DecidableEq, Repr

/-- The mode of a key slot (R421). -/
inductive KeyMode where
  | gcm | xts
deriving DecidableEq, Repr

/-- A wrapped key as KEY_IMPORT carries it: its bytes. -/
abbrev Blob := List Byte

/-- The island's units in its self-tests (R407, R408). -/
inductive SelfTest where
  | allPass
  | ownUnitFails (unit : Nat)
  | wideEngineFails (engine : Nat)
  | pufFails
deriving DecidableEq, Repr

/-- Outcome of the verification of one firmware component (R409, R410). -/
inductive VerifyResult where
  | ok | badSignature | badFormat | rollback
deriving DecidableEq, Repr

/-- A firmware component of a staged bundle, as its headers give it (R449). -/
structure Component where
  number   : Nat
  offset   : Nat            -- in the bundle
  version  : BitVec 32
  floor    : BitVec 32
  length   : Nat
  formatOk : Bool
  sigOk    : Bool
  ranges   : List (Nat × Nat)   -- lowest and highest version of components 1 to 4 it works with
  copyFails : Nat               -- mismatches met while it is copied (R456)
deriving DecidableEq, Repr

/-- Main rails (R490). -/
inductive Rail where
  | vio1v8 | vddhSds | vddSds | vddHub | vddKiln | vddqDdr | vddSilt | vddT0 | vddT1
deriving DecidableEq, Repr

/-- The reference clocks (R534). -/
inductive RefClk where
  | host | rp | eth
deriving DecidableEq, Repr

/-- Why a control core stopped (R266). -/
inductive CrashCause where
  | missedKick | doubleFault
deriving DecidableEq, Repr

/-- What a TLP through the embedded switch is (R23, R296, R297). -/
inductive SwitchTlp where
  | hostToDevice (subport : Nat)
  | deviceToHost (subport : Nat)
  | deviceToDevice (src dst : Nat)
deriving DecidableEq, Repr

/-- A debug-window request (R488). -/
inductive DebugOp where
  | read | write | other
deriving DecidableEq, Repr

/-- A PTP Announce as the best-master-clock algorithm reads it. -/
structure PtpAnnounce where
  port     : Nat
  master   : Nat            -- clock identity of the master
  priority : Nat            -- its data set as one ordered number, lower is better
  interval : Nat            -- its Sync interval in ns
deriving DecidableEq, Repr

/-- The fatal hardware causes of R504. -/
inductive HwFatal where
  | hubSram | fabricParity | kilnDead
deriving DecidableEq, Repr

end Sys2Proof
end

