-- ==== Sys2Proof/Syntax.lean ====
section
/-! DEFINITION. The commands of the VN700: one constructor for each row of spec/opcode_table.json, grouped as the table groups them,
with the row's operands. A Tilth-32 row's first operand is the core it executes on. -/

namespace Sys2Proof

inductive Instr where
  -- registers and keep words (R3 to R6, R516)
  | registerWrite (a : Agent) (r : Reg) (high : Bool) (v : Word)
  | misalignedRegisterAccess (a : Agent) (write : Bool)
  | reg64LowWordRead (a : Agent) (r : Reg)
  | keepWrite (a : Agent) (word : Nat) (v : Word)
  | keepPersist (word : Nat)
  -- power interval, PCIe resets and requests (R25, R289 to R312)
  | powerAverageInterval (average others : Nat)
  | perstNAssert (ns : Nat)
  | perstNDeassert
  | hostHotReset
  | hostLinkDown
  | secondaryBusReset (sub : Nat)
  | functionLevelReset (f : Pf)
  | flrComplete (f : Pf)
  | busMasterEnableClear (f : Pf)
  | busMasterEnableSet (f : Pf)
  | powerStateChange (f : Pf) (state : BitVec 2)
  | configRequest (f : CfgFn) (w : CfgWrite)
  | completionTimeout (l : Link) (tag : Nat)
  | readCompletionReceived (l : Link) (tag : Nat) (st : CplStatus) (last : Bool) (data : List Byte)
  | lateCompletion (l : Link) (tag : Nat)
  | tagQuarantineExpiry (l : Link) (tag : Nat)
  | poisonedTlpReceived (l : Link) (what : Poisoned)
  | apertureRequest (sub addr : Nat) (q : MemReq)
  | ownedDeviceHostRequest (sub addr : Nat) (q : MemReq)
  | rootPortLinkDown (sub : Nat)
  | devicePresent (sub : Nat) (speed width : BitVec 3) (flit : Bool)
  | linkLaneFault (l : Link) (lane : Nat)
  -- fabric time, steeps, comparators (R28 to R49)
  | ftSourceWrite (a : Agent) (v : Word)
  | ptpSyncMessage (offset : Int)
  | ppsInEdge
  | ftSyncLoss
  | ftSlewComplete
  | ppsOutSecond
  | ftSetSeconds (c : Caller) (seconds : Nat)
  | ftSetSecondsTimeout
  | steepDoorbell (origin : Agent) (domain : Nat) (v : Word)
  | steepDoorbellForward (domain : Nat) (v : Word)
  | steepBoundary (domain count tb : Nat) (flag : Bool)
  | steepCountSet (c : Caller) (domain : Nat) (count : BitVec 48)
  | tcmpCtlWrite (a : Agent) (die idx : Nat) (v : Word)
  | comparatorFire (die idx : Nat)
  | comparatorAlloc (c : Caller) (die count : Byte)
  | comparatorFree (c : Caller) (die idx : Byte)
  | recoveryStopTime (domain : Nat)
  | recoveryStopKernelAbort (domain : Nat)
  | debugFreezeStart (a : Agent)
  | debugFreezeEnd (a : Agent)
  -- the tensor array (R50 to R81)
  | eccScrubRead (addr : Nat) (res : EccResult)
  | tnsReachWrite (core : Nat) (n : BitVec 4) (v : Word)
  | routeHopTimeout (link : Nat) (who : Agent) (channel : Nat)
  | tnsDmaSubmit (core : Nat) (v : Word)
  | dmaCopy (cluster channel : Nat)
  | dmaFill (cluster channel : Nat)
  | dmaCopyConvert (cluster channel : Nat)
  | dmaTransferComplete (cluster channel : Nat)
  | coreFaultDetected (core : Nat) (cause : CoreFault)
  | coreRemapRestart (core : Nat)
  | coreRemapAtKernelEnd (core : Nat)
  | spareSelfTest (cluster : Nat) (pass : Bool)
  | tnsMeSubmit (a : Agent) (core : Nat)
  | tnsMePop (a : Agent) (core : Nat)
  -- the matrix engine (R82 to R115, R195, R540)
  | meTileOp (core : Nat)
  | laneFma (core : Nat)
  | laneAxpby (core : Nat)
  | laneScaleAdd (core : Nat)
  | laneMul (core : Nat)
  | laneMin (core : Nat)
  | laneMax (core : Nat)
  | laneAbs (core : Nat)
  | laneConvert (core : Nat)
  | laneSqrt (core : Nat)
  | laneRsqrt (core : Nat)
  | laneRecip (core : Nat)
  | laneExp (core : Nat)
  | laneLog (core : Nat)
  | laneSum (core : Nat)
  | laneSumsq (core : Nat)
  | laneRmax (core : Nat)
  | laneArgmax (core : Nat)
  | optAdamw (core : Nat)
  | optSgdm (core : Nat)
  | optLion (core : Nat)
  | meCompletionPosted (core : Nat)
  | meDescriptorTimeout (core : Nat)
  | srSeedLoad (core : Nat) (high : Word)
  -- Tilth-32 long operations (R116 to R143)
  | addi (c : Nat) (rd rs1 : BitVec 5) (imm : BitVec 15)
  | andi (c : Nat) (rd rs1 : BitVec 5) (imm : BitVec 15)
  | ori (c : Nat) (rd rs1 : BitVec 5) (imm : BitVec 15)
  | xori (c : Nat) (rd rs1 : BitVec 5) (imm : BitVec 15)
  | slti (c : Nat) (rd rs1 : BitVec 5) (imm : BitVec 15)
  | sltiu (c : Nat) (rd rs1 : BitVec 5) (imm : BitVec 15)
  | slli (c : Nat) (rd rs1 : BitVec 5) (zero : BitVec 8) (sh : BitVec 5)
  | srli (c : Nat) (rd rs1 : BitVec 5) (zero : BitVec 8) (sh : BitVec 5)
  | srai (c : Nat) (rd rs1 : BitVec 5) (zero : BitVec 8) (sh : BitVec 5)
  | lui (c : Nat) (rd : BitVec 5) (imm : BitVec 20)
  | auipc (c : Nat) (rd : BitVec 5) (imm : BitVec 20)
  | lb (c : Nat) (rd rs1 : BitVec 5) (imm : BitVec 15)
  | lbu (c : Nat) (rd rs1 : BitVec 5) (imm : BitVec 15)
  | lh (c : Nat) (rd rs1 : BitVec 5) (imm : BitVec 15)
  | lhu (c : Nat) (rd rs1 : BitVec 5) (imm : BitVec 15)
  | lw (c : Nat) (rd rs1 : BitVec 5) (imm : BitVec 15)
  | sb (c : Nat) (rs2 rs1 : BitVec 5) (imm : BitVec 15)
  | sh (c : Nat) (rs2 rs1 : BitVec 5) (imm : BitVec 15)
  | sw (c : Nat) (rs2 rs1 : BitVec 5) (imm : BitVec 15)
  | memxPostincReg (c : Nat) (rd rs1 rs2 : BitVec 5) (f : BitVec 8)
  | memxPostincImm (c : Nat) (rd rs1 : BitVec 5) (imm : BitVec 5) (f : BitVec 8)
  | memxModulo (c : Nat) (rd rs1 rs2 : BitVec 5) (f : BitVec 8)
  | memxBitrev (c : Nat) (rd rs1 rs2 : BitVec 5) (f : BitVec 8)
  | beq (c : Nat) (rs1 rs2 : BitVec 5) (off : BitVec 15)
  | bne (c : Nat) (rs1 rs2 : BitVec 5) (off : BitVec 15)
  | blt (c : Nat) (rs1 rs2 : BitVec 5) (off : BitVec 15)
  | bge (c : Nat) (rs1 rs2 : BitVec 5) (off : BitVec 15)
  | bltu (c : Nat) (rs1 rs2 : BitVec 5) (off : BitVec 15)
  | bgeu (c : Nat) (rs1 rs2 : BitVec 5) (off : BitVec 15)
  | j (c : Nat) (off : BitVec 25)
  | call (c : Nat) (off : BitVec 25)
  | jr (c : Nat) (rd rs1 rs2 : BitVec 5)
  | callr (c : Nat) (rd rs1 rs2 : BitVec 5)
  | ret (c : Nat) (rd rs1 rs2 : BitVec 5)
  | eret (c : Nat) (rd rs1 rs2 : BitVec 5)
  | lrW (c : Nat) (rd rs1 rs2 : BitVec 5)
  | scW (c : Nat) (rd rs1 rs2 : BitVec 5)
  | tasB (c : Nat) (rd rs1 rs2 : BitVec 5) (link : List Word)
  | fence (c : Nat)
  | fenceI (c : Nat)
  | ecall (c : Nat)
  | ebreak (c : Nat)
  | waite (c : Nat) (rd rs1 : BitVec 5)
  | waiteWake (c : Nat)
  | rspush (c : Nat) (rs1 : BitVec 5)
  | rspop (c : Nat) (rd : BitVec 5)
  | csrrw (c : Nat) (rd rs1 : BitVec 5) (imm : BitVec 15)
  | csrrs (c : Nat) (rd rs1 : BitVec 5) (imm : BitVec 15)
  | csrrc (c : Nat) (rd rs1 : BitVec 5) (imm : BitVec 15)
  | add (c : Nat) (rd rs1 rs2 : BitVec 5)
  | sub (c : Nat) (rd rs1 rs2 : BitVec 5)
  | and (c : Nat) (rd rs1 rs2 : BitVec 5)
  | or (c : Nat) (rd rs1 rs2 : BitVec 5)
  | xor (c : Nat) (rd rs1 rs2 : BitVec 5)
  | sll (c : Nat) (rd rs1 rs2 : BitVec 5)
  | srl (c : Nat) (rd rs1 rs2 : BitVec 5)
  | sra (c : Nat) (rd rs1 rs2 : BitVec 5)
  | slt (c : Nat) (rd rs1 rs2 : BitVec 5)
  | sltu (c : Nat) (rd rs1 rs2 : BitVec 5)
  | min (c : Nat) (rd rs1 rs2 : BitVec 5)
  | max (c : Nat) (rd rs1 rs2 : BitVec 5)
  | minu (c : Nat) (rd rs1 rs2 : BitVec 5)
  | maxu (c : Nat) (rd rs1 rs2 : BitVec 5)
  | mul (c : Nat) (rd rs1 rs2 : BitVec 5)
  | mulh (c : Nat) (rd rs1 rs2 : BitVec 5)
  | mulhu (c : Nat) (rd rs1 rs2 : BitVec 5)
  | mulhsu (c : Nat) (rd rs1 rs2 : BitVec 5)
  | div (c : Nat) (rd rs1 rs2 : BitVec 5)
  | divu (c : Nat) (rd rs1 rs2 : BitVec 5)
  | rem (c : Nat) (rd rs1 rs2 : BitVec 5)
  | remu (c : Nat) (rd rs1 rs2 : BitVec 5)
  | clz (c : Nat) (rd rs1 rs2 : BitVec 5)
  | ctz (c : Nat) (rd rs1 rs2 : BitVec 5)
  | popc (c : Nat) (rd rs1 rs2 : BitVec 5)
  | brev (c : Nat) (rd rs1 rs2 : BitVec 5)
  | bswap (c : Nat) (rd rs1 rs2 : BitVec 5)
  -- Tilth-32 short operations: this operation in slot `sl`, `o` in the other (R118 to R123)
  | movS (c : Nat) (sl : Slot) (ra rb : BitVec 4) (o : ShortOp)
  | addS (c : Nat) (sl : Slot) (ra rb : BitVec 4) (o : ShortOp)
  | subS (c : Nat) (sl : Slot) (ra rb : BitVec 4) (o : ShortOp)
  | andS (c : Nat) (sl : Slot) (ra rb : BitVec 4) (o : ShortOp)
  | orS (c : Nat) (sl : Slot) (ra rb : BitVec 4) (o : ShortOp)
  | xorS (c : Nat) (sl : Slot) (ra rb : BitVec 4) (o : ShortOp)
  | sllS (c : Nat) (sl : Slot) (ra rb : BitVec 4) (o : ShortOp)
  | srlS (c : Nat) (sl : Slot) (ra rb : BitVec 4) (o : ShortOp)
  | sraS (c : Nat) (sl : Slot) (ra rb : BitVec 4) (o : ShortOp)
  | mulS (c : Nat) (sl : Slot) (ra rb : BitVec 4) (o : ShortOp)
  | sltS (c : Nat) (sl : Slot) (ra rb : BitVec 4) (o : ShortOp)
  | sltuS (c : Nat) (sl : Slot) (ra rb : BitVec 4) (o : ShortOp)
  | negS (c : Nat) (sl : Slot) (ra rb : BitVec 4) (o : ShortOp)
  | notS (c : Nat) (sl : Slot) (ra rb : BitVec 4) (o : ShortOp)
  | minS (c : Nat) (sl : Slot) (ra rb : BitVec 4) (o : ShortOp)
  | maxS (c : Nat) (sl : Slot) (ra rb : BitVec 4) (o : ShortOp)
  | addiS (c : Nat) (sl : Slot) (ra : BitVec 4) (imm : BitVec 7) (o : ShortOp)
  | liS (c : Nat) (sl : Slot) (ra : BitVec 4) (imm : BitVec 7) (o : ShortOp)
  | slliS (c : Nat) (sl : Slot) (ra : BitVec 4) (sh : BitVec 5) (o : ShortOp)
  | srliS (c : Nat) (sl : Slot) (ra : BitVec 4) (sh : BitVec 5) (o : ShortOp)
  | sraiS (c : Nat) (sl : Slot) (ra : BitVec 4) (sh : BitVec 5) (o : ShortOp)
  | lwS (c : Nat) (sl : Slot) (ra rb : BitVec 4) (sub : BitVec 3) (o : ShortOp)
  | swS (c : Nat) (sl : Slot) (ra rb : BitVec 4) (sub : BitVec 3) (o : ShortOp)
  | lwpS (c : Nat) (sl : Slot) (ra rb : BitVec 4) (sub : BitVec 3) (o : ShortOp)
  | swpS (c : Nat) (sl : Slot) (ra rb : BitVec 4) (sub : BitVec 3) (o : ShortOp)
  | lbS (c : Nat) (sl : Slot) (ra rb : BitVec 4) (o : ShortOp)
  | lbuS (c : Nat) (sl : Slot) (ra rb : BitVec 4) (o : ShortOp)
  | lhS (c : Nat) (sl : Slot) (ra rb : BitVec 4) (o : ShortOp)
  | lhuS (c : Nat) (sl : Slot) (ra rb : BitVec 4) (o : ShortOp)
  | sbS (c : Nat) (sl : Slot) (ra rb : BitVec 4) (o : ShortOp)
  | shS (c : Nat) (sl : Slot) (ra rb : BitVec 4) (o : ShortOp)
  | lwmS (c : Nat) (sl : Slot) (ra rb : BitVec 4) (m : BitVec 2) (o : ShortOp)
  | swmS (c : Nat) (sl : Slot) (ra rb : BitVec 4) (m : BitVec 2) (o : ShortOp)
  | beqzS (c : Nat) (sl : Slot) (ra : BitVec 4) (imm : BitVec 7) (o : ShortOp)
  | bnezS (c : Nat) (sl : Slot) (ra : BitVec 4) (imm : BitVec 7) (o : ShortOp)
  | reservationTimeout (c : Nat)
  | interruptTake (c : Nat)
  | kernelEndStore (c : Nat) (code : BitVec 16)
  | tidyTraceStore (c : Nat) (v : Word)
  -- work for the array (R148 to R171)
  | partitionCreate (c : Caller) (q : PartitionReq)
  | partitionDestroy (c : Caller) (handle : Nat)
  | workRingTailDoorbell (slice handle ring : Nat) (v : Word)
  | workRingHeadDoorbell (slice handle ring : Nat) (v : Word)
  | dispatchDescriptor (part ring : Nat)
  | workKernel (id : Nat)
  | workDma (id : Nat)
  | workConvert (id : Nat)
  | workReside (id : Nat)
  | workRelease (id : Nat)
  | workSample (id : Nat)
  | workVerify (id : Nat)
  | workMarker (id : Nat)
  | workCompletionWrite (id : Nat)
  | kernelComplete (id : Nat)
  | kernelDeadline (id : Nat)
  | siltLineUncorrectable (die line : Nat)
  | siltLineRepaired (die line : Nat)
  -- state keeping (R172 to R201)
  | domainCreate (c : Caller) (q : DomainReq)
  | domainDestroy (c : Caller) (domain : Nat)
  | regionAdd (c : Caller) (q : RegionReq)
  | regionRemove (c : Caller) (domain region : Nat)
  | layerAdd (c : Caller) (domain : Nat) (q : LayerReq)
  | layerRemove (c : Caller) (domain layer : Nat)
  | deepTargetSet (c : Caller) (domain nsid offset : Nat)
  | evictMailbox (c : Caller) (domain index : Nat)
  | broadcast (c : Caller) (domain source addr len : Nat)
  | domainArm (a : Agent) (domain : Nat) (v : Word)
  | domainDisarm (a : Agent) (domain : Nat) (v : Word)
  | domainLrWrite (a : Agent) (domain : Nat) (v : Word)
  | domainGscaleWrite (a : Agent) (domain : Nat) (v : Word)
  | protectedWrite (a : Agent) (offset : Nat) (data : List Byte)
  | pageDoorbell (a : Agent) (domain region : Nat) (page : Word)
  | pageCopyComplete (domain region : Nat)
  | pauseDoorbell (a : Agent) (domain : Nat) (v : Word)
  | pauseCopyComplete (domain : Nat)
  | snapshotDeclare (domain : Nat)
  | boundaryPass (domain : Nat)
  | snapshotAbandon (domain : Nat)
  | intakeDoorbell (a : Agent) (domain contributor : Nat) (q : Word)
  | layerGradientCombine (domain layer : Nat)
  | collectiveChunkReceive (domain layer : Nat) (gather : Bool) (offset : Nat) (final : Bool) (data : List Byte)
  | collTimeout (domain layer : Nat)
  | layerUpdate (domain layer : Nat)
  | pushHighPlane (domain layer contributor : Nat)
  | pushFailed (domain layer contributor : Nat)
  -- the Caddy engine (R202 to R237)
  | copierSendGrain (domain : Nat)
  | grain (m : Msg)
  | grainAckBatch (domain : Nat)
  | grainAck (m : Msg)
  | grainNak (m : Msg)
  | sealMsg (m : Msg)
  | held (m : Msg)
  | abandon (m : Msg)
  | decideMsg (m : Msg)
  | decideAck (m : Msg)
  | decideResend (domain : Nat)
  | commitDeadline (domain : Nat)
  | commit (m : Msg)
  | abortMsg (m : Msg)
  | repairReq (m : Msg)
  | buddyCrcScrub (domain region grain : Nat)
  | deepWriteDone (domain : Nat) (ok : Bool)
  | deepDone (m : Msg)
  | deepTimeout (domain : Nat)
  | deepCancel (m : Msg)
  | relayFallback (domain hop : Nat)
  -- recovery (R238 to R269)
  | heartbeat (m : Msg)
  | spareHeartbeatRelay (domain : Nat)
  | silenceSuspect (domain index : Nat)
  | silenceSilent (domain index : Nat)
  | fenceTimeout (domain : Nat)
  | suspect (m : Msg)
  | silent (m : Msg)
  | evict (m : Msg)
  | prepare (m : Msg) (t : Tables)
  | prepareExpiry (domain : Nat)
  | stop (m : Msg)
  | stopped (m : Msg)
  | rollback (m : Msg) (t : Tables)
  | restoreReq (m : Msg)
  | restoreGrain (m : Msg)
  | restoreMissing (m : Msg)
  | ready (m : Msg)
  | resume (m : Msg)
  | resumeTime (domain : Nat)
  | recoveryFail (m : Msg)
  | coordinatorLostTimeout (domain : Nat)
  | spareWaitTimeout (domain : Nat)
  | recoveryLimitTimeout (domain : Nat)
  | watchdogFire (service : Nat) (cause : CrashCause) (pc : Word) (spareCore : Bool)
  | serviceRestartComplete (service : Nat)
  | ethPortDown (port : Nat)
  | ddrUncorrectable (offset : Nat)
  | cipherShadowMismatch (engine : Nat)
  -- bring-up (R270 to R287)
  | rosterGetReply (svc : Nat) (chunk total : Nat) (data : List Byte)
  | rosterChunkTimeout (chunk : Nat)
  | rosterRetryTimer
  | rosterRefetch
  | bringupPhaseDeadline
  | checkin (m : Msg)
  | rosterFinalDeadline
  | rosterFinalMissing
  | rosterFinal (m : Msg)
  | hello (m : Msg)
  | helloAck (m : Msg)
  | helloTimeout (index : Nat)
  | noAnswer (m : Msg)
  | barrier (m : Msg)
  | barrierChildDeadline (child : Nat)
  | bringupTimeout
  | jobReady (m : Msg)
  | jobReadyTime
  | bringupFail (m : Msg)
  | bringupRestart (c : Caller)
  -- host windows, ports, slices (R295 to R326, R471)
  | hostWindowMap (c : Caller) (q : HostWindowReq)
  | hostWindowUnmap (c : Caller) (array : Nat)
  | apertureSet (c : Caller) (sub base len : Nat)
  | ownedReset (c : Caller) (sub : Nat)
  | ownedEnumerate (c : Caller) (sub : Nat)
  | rpCtoSet (c : Caller) (port : Nat) (cto : BitVec 4)
  | sliceCreate (c : Caller) (q : SliceReq)
  | sliceDestroy (c : Caller) (n : Nat) (force : Bool)
  | sliceDestroyComplete (n : Nat)
  | sliceReset (c : Caller) (n : Nat)
  | slcReset (n : Nat) (v : Word)
  | sliceResetComplete (n : Nat)
  | irqEntrySet (c : Caller) (q : IrqEntryReq)
  | vrmtInit (c : Caller) (q : VrmtInitReq)
  | ownAddressSet (c : Caller) (addrs : List Nat)
  | sliceQueueSet (c : Caller) (slice queue : Nat)
  -- VRMT (R328 to R359)
  | vrmtCommandDoorbell (slice : Nat) (v : Word)
  | cqCreate (slice cq ring space log2 irq tag : Nat)
  | cqDestroy (slice cq tag : Nat)
  | connCreate (slice : Nat) (q : ConnCreateReq) (tag : Nat)
  | connConnect (slice : Nat) (q : ConnectReq) (tag : Nat)
  | connDestroy (slice cn tag : Nat)
  | keyRegister (slice space : Nat) (rights : BitVec 2) (tag : Nat)
  | keyRevoke (slice : Nat) (key : BitVec 32) (tag : Nat)
  | keyDrainLimit (key : BitVec 32)
  | keyDead (key : BitVec 32)
  | vrmtConnDoorbell (slice : Nat) (v : Word)
  | vrmtCqDoorbell (slice : Nat) (v : Word)
  | wrWrite (cn : Nat)
  | wrWriteImm (cn : Nat)
  | wrSend (cn : Nat)
  | wrSendImm (cn : Nat)
  | wrRead (cn : Nat)
  | vrmtWritePacket (p : Pkt)
  | vrmtSendPacket (p : Pkt)
  | vrmtReadReq (p : Pkt)
  | vrmtReadResp (p : Pkt)
  | vrmtAck (p : AckPkt)
  | vrmtNak (p : NakPkt)
  | vrmtMsgAbort (p : Pkt) (status : Status)
  | ackDelayTimer (cn : Nat)
  | retransmitTimeout (cn : Nat) (psn : BitVec 32)
  | pathRestore (cn path : Nat)
  | messageIncompleteNak (cn : Nat) (msn : BitVec 32)
  | connPeerTimeout (cn : Nat)
  | rnrRetry (cn : Nat) (msn : BitVec 32)
  | ccCutTimer (cn : Nat)
  | ccIncreaseTimer (cn : Nat)
  | contextFetchComplete (cn : Nat) (ok : Bool)
  -- the packet path (R360 to R381)
  | frameReceive (port : Nat) (bytes : List Byte) (phyError fcsOk : Bool) (secured : Option (Nat × Nat × Bool))
  | secondPour
  | slowPathFrame
  | ruleWrite (idx : BitVec 12)
  | ruleInvalidate (idx : BitVec 12)
  | ruleRead (idx : BitVec 12)
  | pktQueueCreate (c : Caller) (q : PktQueueReq)
  | pktQueueDestroy (c : Caller) (tx : Bool) (n : Nat)
  | portRestart (c : Caller) (port : Nat)
  | pktRxqDoorbell (n : Nat) (head : Bool) (v : Word)
  | pktTxqDoorbell (n : Nat) (head : Bool) (v : Word)
  | txScheduleStart (port : Nat)
  | txFrameComplete (port : Nat)
  | shaperRefill
  -- storage (R382 to R402)
  | nvmeSqTailDoorbell (ctrl y : Nat) (v : Word)
  | nvmeCqHeadDoorbell (ctrl y : Nat) (v : Word)
  | nvmeCcEnable (ctrl : Nat) (cc : Word)
  | nvmeCcDisable (ctrl : Nat) (cc : Word)
  | nvmeCcShutdown (ctrl : Nat) (cc : Word)
  | nvmeCreateIoSq (ctrl : Nat) (cmd : NvmeCmd)
  | nvmeDeleteIoSq (ctrl : Nat) (cmd : NvmeCmd)
  | nvmeCreateIoCq (ctrl : Nat) (cmd : NvmeCmd)
  | nvmeDeleteIoCq (ctrl : Nat) (cmd : NvmeCmd)
  | nvmeGetLogPage (ctrl : Nat) (cmd : NvmeCmd)
  | nvmeIdentify (ctrl : Nat) (cmd : NvmeCmd)
  | nvmeAbort (ctrl : Nat) (cmd : NvmeCmd)
  | nvmeSetFeatures (ctrl : Nat) (cmd : NvmeCmd)
  | nvmeGetFeatures (ctrl : Nat) (cmd : NvmeCmd)
  | nvmeAsyncEventRequest (ctrl : Nat) (cmd : NvmeCmd)
  | nvmeRead (ctrl sq : Nat) (cmd : NvmeCmd)
  | nvmeWrite (ctrl sq : Nat) (cmd : NvmeCmd)
  | nvmeWriteZeroes (ctrl sq : Nat) (cmd : NvmeCmd)
  | nvmeDatasetManagement (ctrl sq : Nat) (cmd : NvmeCmd)
  | nvmeFlush (ctrl sq : Nat) (cmd : NvmeCmd)
  | journalEntrySealed (entry : Nat)
  | destageComplete (entry : Nat)
  | backingTimeout (nsid : Nat)
  | backingRecovered (nsid : Nat)
  | journalReplay
  | nsCreate (c : Caller) (q : NsReq)
  | nsDestroy (c : Caller) (nsid : Nat)
  | nsAttach (c : Caller) (nsid ctrl : Nat)
  | nsDetach (c : Caller) (nsid ctrl : Nat)
  | targetRegister (c : Caller) (entry addr : Nat)
  | nsExport (c : Caller) (nsid : Nat) (peers : List Nat)
  | accelCtrlCreate (c : Caller) (sub cplAddr cplData qpairs : Nat)
  -- security (R403 to R436)
  | islandSelftestComplete (r : SelfTest)
  | firmwareVerify (results : List VerifyResult) (bundle : Option (List Component))
  | keyAlloc (c : Caller) (count : Nat)
  | keyGenerate (c : Caller) (slot : Nat) (mode : KeyMode) (limit : BitVec 48) (exportable persistent : Bool)
  | keyAgree (c : Caller) (pub : List Byte)
  | keyImport (c : Caller) (slot : Nat) (mode : KeyMode) (limit : BitVec 48) (transport : Nat) (blob : Blob)
  | keyExport (c : Caller) (slot transport : Nat)
  | keyZeroize (c : Caller) (slot : Nat)
  | keyQuery (c : Caller) (slot : Nat)
  | keyFree (c : Caller) (slot count : Nat)
  | zeroize (a : Agent) (force : Bool)
  | lifecycleRetire (a : Agent)
  | spdmGetVersion
  | spdmGetCapabilities
  | spdmNegotiateAlgorithms (supported : Bool)
  | spdmGetDigests
  | spdmGetCertificate (slot off len : Nat)
  | spdmChallenge (slot : Nat) (nonce : List Byte)
  | spdmGetMeasurements (index : Nat) (signed : Bool) (nonce : List Byte)
  | spdmKeyExchange (slot : Nat) (pub : List Byte)
  | spdmFinish (session : Nat) (ok : Bool)
  | spdmHeartbeat (session : Nat)
  | spdmKeyUpdate (session : Nat)
  | spdmEndSession (session : Nat)
  | spdmSetCertificate (session slot : Nat) (chain : List Byte)
  | spdmVendorDefinedRequest (session : Nat) (retire force : Bool)
  | drbgReseed
  | entropyHealthFail
  | pairKeyExchange (peer : Nat) (jobId : Nat) (peerPub ephPub : List Byte) (sigOk : Bool)
  | contextRestore (serial generation : Nat) (macOk : Bool)
  -- firmware and mailbox (R437 to R459)
  | mbxDoorbell (c : Caller) (v : Word) (opcode seq length : BitVec 16) (flags : Byte)
  | mailboxHeldRequest (c : Caller)
  | mbxEvtPop (c : Caller)
  | negotiate (c : Caller) (major minor : Byte) (features : BitVec 256)
  | fwStatus (c : Caller)
  | fwStageOpen (c : Caller)
  | fwStageWrite (c : Caller) (offset length : Nat) (source : Nat)
  | fwStageClose (c : Caller) (total : Nat)
  | fwActivate (c : Caller)
  | fwDisarm (c : Caller)
  | fwDiscard (c : Caller)
  | logRead (c : Caller) (start count buffer : Nat)
  | serviceRestart (c : Caller) (service : Nat)
  | shutdown (c : Caller)
  | deviceRestart (c : Caller) (force : Bool)
  -- interrupts (R460 to R472)
  | eicComplete (cluster : Nat) (v : Word)
  | eicSwi (cluster : Nat) (v : Word)
  | eicModerationExpiry (cluster source : Nat)
  | watcherSource (source : BitVec 16)
  | aoTimerReached
  | i3cTransfer (addr : BitVec 7)
  | irqModerationInterval (owner : Caller) (entry : Nat)
  -- Strata and Sieve (R473 to R489)
  | strataRecordWrite
  | strataLossRecord
  | timeMark
  | sivTrigNow (die : Nat) (v : Word)
  | crossTrigger (die from_ : Nat)
  | debugUdpRequest (op : DebugOp) (offset : Nat) (v : Word)
  -- power, thermal, pins (R490 to R508, R526 to R537)
  | auxPgRise (straps : Byte)
  | auxPgFall (ns : Nat)
  | mainPgRise
  | mainPgFall (ns : Nat)
  | railFault (r : Rail) (us : Nat)
  | thermalSample (hub t0 t1 silt0 silt1 : List (Option Nat))
  | throttleStep
  | overtempTimeout
  | brakeNAssert (ns : Nat)
  | brakeNDeassert
  | brakeLong
  | accPwrEnTimer (port : Nat)
  | perstOutRelease (port : Nat)
  | clockLost (clk : RefClk)
  | clockStable (clk : RefClk)
  | ethPortUp (port : Nat)
  | hostLinkUp (speed width : BitVec 3) (flit : Bool)
  | bootPhaseComplete
  | embeddedSwitchForward (t : SwitchTlp) (addr : Nat)
  | hwFatal (cause : HwFatal)
  | ptpAnnounce (m : PtpAnnounce)
  | ptpDelayMessage (delay : Nat)
  | tapTckEdge (tms tdi : Bool)
  | connectionNumberFree (cn : Nat)
  | entropyStartupTestDone (pass : Bool)
  | backingReadComplete (nsid : Nat)
deriving DecidableEq, Repr

end Sys2Proof
end

