-- ==== Sys2Proof/Decode.lean ====
section
/-! DEFINITION. The commands that words spell by the opcode table's bits: no row of the table gives bits. -/

namespace Sys2Proof

/-- The command that the word `w` of `nbits` bits spells: none, since every row of the opcode table is without an encoding. -/
def decodeTableWord (_nbits _w : Nat) : Option Instr := none

end Sys2Proof
end

