-- ==== Sys2Proof/Machine/Tab.lean ====
section
/-! DEFINITION. Sparse tables: a list of keyed entries, at most one per key. Every numbered object of the VN700 that exists many times
(registers, cores, domains, connections, key slots) is held in one, an unlisted number reading as that object's reset value. -/

namespace Sys2Proof

abbrev Tab (κ α : Type) := List (κ × α)

variable {κ α : Type} [DecidableEq κ]

/-- The entry of key `k`, if listed. -/
def Tab.find (k : κ) : Tab κ α → Option α
  | [] => none
  | (k', a) :: t => if k = k' then some a else Tab.find k t

/-- The entry of key `k`, or `d`. -/
def Tab.get (t : Tab κ α) (k : κ) (d : α) : α := (Tab.find k t).getD d

/-- Without the entry of key `k`. -/
def Tab.del (t : Tab κ α) (k : κ) : Tab κ α := t.filter (fun p => !decide (k = p.1))

/-- With entry `a` at key `k`, in the place of any earlier one. -/
def Tab.set (t : Tab κ α) (k : κ) (a : α) : Tab κ α :=
  match t with
  | [] => [(k, a)]
  | (k', a') :: r => if k = k' then (k, a) :: Tab.del r k else (k', a') :: Tab.set r k a

def Tab.has (t : Tab κ α) (k : κ) : Bool := (Tab.find k t).isSome

/-- Every entry changed by `f`. -/
def Tab.map (t : Tab κ α) (f : κ → α → α) : Tab κ α := List.map (fun p => (p.1, f p.1 p.2)) t

/-- Only the entries of which `p` holds. -/
def Tab.keep (t : Tab κ α) (p : κ → α → Bool) : Tab κ α := t.filter (fun e => p e.1 e.2)

/-- The first of `0 .. n - 1`, from `i`, of which `p` holds. -/
def firstFrom (p : Nat → Bool) : Nat → Nat → Option Nat
  | _, 0 => none
  | i, n + 1 => if p i then some i else firstFrom p (i + 1) n

/-- The lowest number below `n` of which `p` holds. -/
def firstBelow (n : Nat) (p : Nat → Bool) : Option Nat := firstFrom p 0 n

/-- The bytes of `v`, least significant first (R1). -/
def leBytes : Nat → Nat → List Byte
  | 0, _ => []
  | n + 1, v => BitVec.ofNat 8 v :: leBytes n (v / 256)

/-- The bytes of `v`, most significant first: network byte order (R1). -/
def beBytes (n v : Nat) : List Byte := (leBytes n v).reverse

/-- The number that bytes spell, least significant first (R1). -/
def leNat : List Byte → Nat
  | [] => 0
  | b :: r => b.toNat + 256 * leNat r

/-- The number that bytes spell, most significant first. -/
def beNat (l : List Byte) : Nat := l.foldl (fun n b => n * 256 + b.toNat) 0

/-- `n` bytes of `l` from place `i`. -/
def slice (l : List Byte) (i n : Nat) : List Byte := (l.drop i).take n

/-- The little-endian number in `n` bytes of `l` from place `i`. -/
def fieldLE (l : List Byte) (i n : Nat) : Nat := leNat (slice l i n)

/-- The big-endian number in `n` bytes of `l` from place `i`. -/
def fieldBE (l : List Byte) (i n : Nat) : Nat := beNat (slice l i n)

/-- One step of a bit-reflected CRC with polynomial `p`. -/
def crcBit (p c : Nat) : Nat := if c % 2 = 1 then Nat.xor (c / 2) p else c / 2

def crcByte (p c : Nat) (b : Byte) : Nat :=
  (List.range 8).foldl (fun c _ => crcBit p c) (Nat.xor c b.toNat)

/-- CRC-64/XZ (R183): reflected polynomial, all-ones initial value and final exclusive or. -/
def crc64 (l : List Byte) : Nat :=
  Nat.xor (l.foldl (crcByte 0xC96C5795D7870F42) (2 ^ 64 - 1)) (2 ^ 64 - 1)

/-- CRC-32C (R372): reflected polynomial, all-ones initial value and final exclusive or. -/
def crc32c (l : List Byte) : Nat :=
  Nat.xor (l.foldl (crcByte 0x82F63B78) (2 ^ 32 - 1)) (2 ^ 32 - 1)

end Sys2Proof
end

