-- ==== Sys2Proof/Machine/Codec.lean ====
section
/-! DEFINITION. The plane codec (R212 to R214): run-length tokens over byte planes, the encoder's fixed choice, and the decoder's refusals. -/

namespace Sys2Proof.Machine

open Sys2Proof

/-- Leading bytes equal to `b`, at most `n`. -/
def runOf (b : Byte) : Nat → List Byte → Nat
  | 0, _ => 0
  | _, [] => 0
  | n + 1, x :: r => if x = b then 1 + runOf b n r else 0

/-- The run at the head of a list, at most 130 (R213). -/
def runAt (l : List Byte) : Nat :=
  match l with
  | [] => 0
  | b :: r => 1 + runOf b 129 r

/-- Bytes before the next run of three, at most `n` (R213). -/
def literals : Nat → List Byte → Nat
  | 0, _ => 0
  | _, [] => 0
  | n + 1, b :: r => if 3 ≤ runAt (b :: r) then 0 else 1 + literals n r

/-- The tokens of one plane; the first argument bounds their number (R213). -/
def encodePlane : Nat → List Byte → List Byte
  | 0, _ => []
  | _, [] => []
  | n + 1, b :: r =>
    let l := b :: r
    let run := runAt l
    if 3 ≤ run then BitVec.ofNat 8 (0x7D + run) :: b :: encodePlane n (l.drop run)
    else
      let j := literals 128 l
      BitVec.ofNat 8 (j - 1) :: l.take j ++ encodePlane n (l.drop j)

/-- Byte `p` of every element of `w` bytes (R212). -/
def plane (w p : Nat) (l : List Byte) : List Byte :=
  (List.range (l.length / w)).map (fun e => l.getD (w * e + p) 0)

def encodeWidth (w : Nat) (l : List Byte) : List Byte :=
  (List.range w).flatMap (fun p => encodePlane l.length (plane w p l))

/-- The codec header and payload of an encoded grain (R212, R213). -/
def encodeGrain (l : List Byte) : List Byte :=
  let e1 := encodeWidth 1 l
  let e2 := encodeWidth 2 l
  let e4 := encodeWidth 4 l
  let (w, e) := if e1.length ≤ e2.length ∧ e1.length ≤ e4.length then (1, e1)
    else if e2.length ≤ e4.length then (2, e2) else (4, e4)
  if 65536 ≤ e.length then [0, 0, 0, 0] ++ leBytes 4 65536 ++ l
  else [1, BitVec.ofNat 8 w, 0, 0] ++ leBytes 4 e.length ++ e

/-- A grain in stored mode (R239). -/
def storedGrain (l : List Byte) : List Byte := [0, 0, 0, 0] ++ leBytes 4 65536 ++ l

/-- `n` bytes of one plane from its tokens, and the tokens behind them; `none` where a token crosses the plane's end or the payload ends. -/
def decodePlane : Nat → Nat → List Byte → Option (List Byte × List Byte)
  | _, 0, l => some ([], l)
  | 0, _, _ => none
  | _, _, [] => none
  | f + 1, n, c :: r =>
    if c.toNat < 128 then
      let k := c.toNat + 1
      if n < k ∨ r.length < k then none
      else match decodePlane f (n - k) (r.drop k) with
        | some (o, t) => some (r.take k ++ o, t)
        | none => none
    else
      let k := c.toNat - 0x7D
      match r with
      | [] => none
      | b :: r =>
        if n < k then none
        else match decodePlane f (n - k) r with
          | some (o, t) => some (List.replicate k b ++ o, t)
          | none => none

/-- `w` planes of `n` bytes each, with nothing behind the last. -/
def decodePlanes (n : Nat) : Nat → List Byte → Option (List (List Byte))
  | 0, l => if l.isEmpty then some [] else none
  | w + 1, l =>
    match decodePlane n n l with
    | some (p, t) => (decodePlanes n w t).map (p :: ·)
    | none => none

/-- The grain an encoding spells, or `none`, GRAIN_DECODE (R214). -/
def decodeGrain (l : List Byte) : Option (List Byte) :=
  let mode := fieldLE l 0 1
  let w := fieldLE l 1 1
  let n := fieldLE l 4 4
  let p := l.drop 8
  if p.length ≠ n then none
  else if mode = 0 then (if w = 0 ∧ n = 65536 then some p else none)
  else if mode = 1 ∧ (w = 1 ∨ w = 2 ∨ w = 4) ∧ n < 65536 then
    match decodePlanes (65536 / w) w p with
    | some ps => some ((List.range 65536).map (fun i => (ps.getD (i % w) []).getD (i / w) 0))
    | none => none
  else none

end Sys2Proof.Machine
end

