-- ==== Sys2Proof/Config.lean ====
section
/-! DEFINITION. What one VN700 fixes for itself, and the values that the spec leaves open. An opaque constant has no body: no
proof can see a value of it, so a statement about it holds for every value. -/

namespace Sys2Proof.Config

open Sys2Proof

/-- Populated DDR: 768 GiB, the full size of R58's map (assumption 6, DESIGN CHOICE: a smaller fit is allowed). -/
def ddrBytes : Nat := 768 * 2 ^ 30

/-- The n-th free value that the machine draws; users take the bits they need. -/
opaque freeValue : Nat → Nat

/-- The byte offset of a mailbox request's n-th field in its payload, by opcode: R437 gives the payload no layout. -/
opaque payloadOffset : Nat → Nat → Nat

/-- The n-th output of the device DRBG (R419). -/
opaque drbg : Nat → Nat

/-- SHA-512 (R405). -/
opaque sha512 : List Byte → List Byte

/-- The identity public key, and the device_id that it gives (R272, R411). -/
opaque identityKey : List Byte
def deviceId : List Byte := (sha512 identityKey).take 16

/-- The island's signature over a message (R416). -/
opaque sign : List Byte → List Byte

/-- Whether a P-521 signature over a message checks under a public key (R272). -/
opaque verify : List Byte → List Byte → List Byte → Bool

/-- Key agreement on P-521 with the n-th private key drawn, and the public key that goes with it (R422, R426). -/
opaque ecdh : Nat → List Byte → List Byte
opaque publicKey : Nat → List Byte

/-- KWP wrapping of bytes under a key, and unwrapping, `none` where the integrity check fails (R422, R433). -/
opaque kwpWrap : List Byte → List Byte → List Byte
opaque kwpUnwrap : List Byte → List Byte → Option (List Byte)

/-- HKDF-SHA-512 of a salt, keying material and info (R426). -/
opaque hkdf : List Byte → List Byte → List Byte → List Byte

/-- The certificate chain of SPDM slot 0 (R411). -/
opaque factoryChain : List Byte

/-- Of the FP32 values that R110 allows for 1/sqrt(x), 1/x, e^x and ln(x), which one the engine gives: an offset in units of
the last place, reduced by its user to the bound of R110. -/
opaque ulpPick : Nat → Nat → Nat

/-- The grains of region `r` in the region table that a neighbour sends at its n-th arming, 0 where it has none (R223), and each region's kind. -/
opaque neighbourGrains : Nat → Nat → Nat
opaque neighbourKind : Nat → Nat → Nat

/-- The rounding of the master in the pipeline's updates (R88, R201 names none). -/
opaque pipelineRound : Nat

/-- Whether a link or its completer supports 32-bit AtomicOps (R136). -/
opaque atomicOps : Nat → Bool

/-- Where a domain's steep doorbell and a region's page doorbell lie in a subport's root-port window, which firmware maps (R37, R178): by domain, or
domain * 256 + region, and subport. -/
opaque steepDoor : Nat → Nat → Nat
opaque pageDoor : Nat → Nat → Nat

/-- The bus address at which an owned device finds its subport's root-port window (R298). -/
opaque ownedBase : Nat → Nat

/-- The array clock, in 100 MHz units, with which the power manager holds an array allowance in watts (R25, R496). -/
opaque clockFor : Nat → Nat

/-- The TAP (R529): the length of its instruction register, the instruction that a register value selects (1 IDCODE, 2 SAMPLE/PRELOAD, 3 EXTEST, 4 CLAMP, 5
HIGHZ, others BYPASS), the identification code and the number of boundary cells. -/
opaque tapIrLen : Nat
opaque tapOp : Nat → Nat
opaque tapId : Nat
opaque tapCells : Nat

/-- The byte offsets of the Sieve registers in a die's block, and of the STR registers in theirs (R514), in the order in which Machine/Debug.lean lists them. -/
opaque sivOffset : Nat → Nat
opaque strOffset : Nat → Nat

/-- The factory image: each component's version, floor, the range of versions of another component that it works with, and bytes (R449); the boot ROM's
bytes stand at 0. -/
opaque fwVersion : Nat → Nat
opaque fwFloor : Nat → Nat
opaque fwRange : Nat → Nat → Nat × Nat
opaque fwImage : Nat → List Byte

end Sys2Proof.Config
end

