-- ==== Sys2Proof/Machine/Emit.lean ====
section
/-! DEFINITION. What the VN700 sends out of itself: messages to the host, packets and messages to other devices, requests on its
PCIe links, replies of its management interfaces. The list of them in State is the model's own field: it holds, newest first,
everything that a command made the part send. -/

namespace Sys2Proof.Machine

open Sys2Proof

inductive Emit where
  /-- An interrupt message of an entry (R472). -/
  | msi (owner : Caller) (entry : Nat)
  /-- A Caddy, recovery or bring-up message toward device `dest` (R215, R238, R274). -/
  | msg (dest : Nat) (m : Msg)
  /-- A boundary spread down the tree, and a doorbell forwarded to the coordinator (R38). -/
  | boundary (dest domain count tb : Nat) (flag : Bool)
  | doorbell (dest domain : Nat) (v : Word)
  /-- A write that the part makes to a device's memory or a host address. -/
  | busWrite (space : Nat) (addr : Nat) (data : List Byte)
  /-- A read request on a link, with its tag. -/
  | busRead (l : Link) (tag addr len : Nat)
  | configReply (f : CfgFn) (retry : Bool)
  | completion (sub : Nat) (st : CplStatus) (data : List Byte)
  | tlp (t : SwitchTlp) (addr : Nat)
  | hotReset (sub : Nat)
  | pmePme (f : Pf)
  /-- VRMT packets (R329, R330). -/
  | vrmt (port : Nat) (kind : Nat) (p : Pkt)
  | vrmtAck (port path : Nat) (a : AckPkt)
  | vrmtNak (port path : Nat) (n : NakPkt)
  | vrmtAbort (port : Nat) (p : Pkt) (st : Status)
  | frame (port : Nat) (bytes : List Byte)
  /-- ROSTER_GET for a chunk toward a roster service (R270, R271). -/
  | rosterGet (svc chunk : Nat)
  /-- A command to a namespace's backing. -/
  | backingCmd (nsid : Nat) (write : Bool) (lba count : Nat)
  | debugReply (op : DebugOp) (offset value : Nat) (st : Status)
  | spdm (code : Nat) (fields : List Nat) (data : List Byte)
  /-- A collective chunk toward member `dest`: the first parameter's number and its bytes (R192, R193). -/
  | chunk (dest domain layer : Nat) (gather : Bool) (offset : Nat) (data : List Byte)
  | pairKey (peer : Nat) (data : List Byte)
deriving DecidableEq, Repr

end Sys2Proof.Machine
end

