-- ==== Sys2Proof/Machine/Memory.lean ====
section
/-! DEFINITION. Memory: one list of cells for every byte-addressed store of the VN700, kept in one canonical form, with a key range for
each address space. A byte that nothing has written reads zero: R148 and R179 give zeroed memories at creation; elsewhere the
spec gives none (assumption 5, DESIGN CHOICE). -/

namespace Sys2Proof.Machine

open Sys2Proof

/-- The byte-addressed stores: the 48-bit array address map (R58), the host's memory as PF0 (0), a slice (its number) or PF1 (4,096) addresses it, the durable
content of a namespace's backing and the content its cache holds, the Kiln staging and active areas (R449, R450), and the
storage of a COW slot or checkpoint generation by number; a domain's node gradients in FP32 and gathered high planes, by layer * 2^44 and the
parameter's bytes; the control cores' private memory (R147). -/
inductive Space where
  | array
  | host (who : Nat)
  | backing (ns : Nat)
  | cache (ns : Nat)
  | staging
  | active (component : Nat)
  | cow (domain : Nat)
  | buddy (domain gen : Nat)
  | shadow (domain : Nat)
  | grad (domain : Nat)
  | high (domain : Nat)
  | ctl
deriving DecidableEq, Repr

/-- Where a space's addresses begin among the memory's keys. -/
def Space.base : Space → Nat
  | .array => 0
  | .host p => 2 ^ 72 * (1 + 16 * p)
  | .backing n => 2 ^ 72 * (2 + 16 * n)
  | .cache n => 2 ^ 72 * (3 + 16 * n)
  | .staging => 2 ^ 72 * 4
  | .active c => 2 ^ 72 * (5 + 16 * c)
  | .cow d => 2 ^ 72 * (6 + 16 * d)
  | .buddy d g => 2 ^ 72 * (7 + 16 * (2 * d + g))
  | .shadow d => 2 ^ 72 * (8 + 16 * d)
  | .grad d => 2 ^ 72 * (9 + 16 * d)
  | .high d => 2 ^ 72 * (10 + 16 * d)
  | .ctl => 2 ^ 72 * 11

def Space.key (sp : Space) (a : Nat) : Nat := sp.base + a

abbrev Memory := List Host.Cell

/-- What a byte that no entry lists reads as. -/
def Memory.blank : Byte := 0

/-- The byte at key `a`. -/
def Memory.read (m : Memory) (a : Nat) : Byte :=
  match m with
  | [] => Memory.blank
  | (k, b) :: r => if a < k then Memory.blank else if a = k then b else Memory.read r a

/-- Byte `b` stored at key `a`, the list staying in its canonical form. -/
def Memory.write (m : Memory) (a : Nat) (b : Byte) : Memory :=
  match m with
  | [] => if b = Memory.blank then [] else [(a, b)]
  | (k, c) :: r =>
    if a < k then (if b = Memory.blank then (k, c) :: r else (a, b) :: (k, c) :: r)
    else if a = k then (if b = Memory.blank then r else (a, b) :: r)
    else (k, c) :: Memory.write r a b

/-- `n` bytes from key `a`. -/
def Memory.readN (m : Memory) (a : Nat) : Nat → List Byte
  | 0 => []
  | n + 1 => Memory.read m a :: Memory.readN m (a + 1) n

/-- The bytes `l` stored from key `a`, in rising address. -/
def Memory.writeN (m : Memory) (a : Nat) : List Byte → Memory
  | [] => m
  | b :: l => Memory.writeN (Memory.write m a b) (a + 1) l

/-- Every byte of keys `a` to `a + n - 1` zeroed. -/
def Memory.clear (m : Memory) (a n : Nat) : Memory :=
  m.filter (fun c => decide (c.1 < a ∨ a + n ≤ c.1))

/-- The content of `n` keys from `src` copied to `dst`, as a read of the whole before any write. -/
def Memory.copy (m : Memory) (dst src n : Nat) : Memory :=
  (m.filter (fun c => decide (src ≤ c.1 ∧ c.1 < src + n))).foldl
    (fun m c => Memory.write m (c.1 - src + dst) c.2) (Memory.clear m dst n)

/-- The canonical form: keys strictly rising, no entry that reads as an unlisted byte. -/
def Memory.wf : Memory → Bool
  | [] => true
  | [(_, b)] => decide (b ≠ Memory.blank)
  | (k, b) :: (k', b') :: r => decide (b ≠ Memory.blank) && decide (k < k') && Memory.wf ((k', b') :: r)

end Sys2Proof.Machine
end

