-- ==== Sys2Proof/Machine/Status.lean ====
section
/-! DEFINITION. The statuses of the VN700 by their names (R7, R8 and the status tables of each chapter). -/

namespace Sys2Proof.St

abbrev success : Status := 0x0000
abbrev retry : Status := 0x0001
abbrev lenTooLarge : Status := 0x0002
abbrev lenExceedsBuffer : Status := 0x0003
abbrev invalidField : Status := 0x0004
abbrev addrRange : Status := 0x0005
abbrev unsupported : Status := 0x0006
abbrev fwBusy : Status := 0x1001
abbrev fwState : Status := 0x1002
abbrev fwFormat : Status := 0x1003
abbrev fwRollback : Status := 0x1004
abbrev fwIncompatible : Status := 0x1005
abbrev fwCopyFailed : Status := 0x1006
abbrev noComparator : Status := 0x1010
abbrev strapReserved : Status := 0x1011
abbrev ftHoldover : Status := 0x1012
abbrev ftLocked : Status := 0x1013
abbrev ftStepped : Status := 0x1014
abbrev serviceCrash : Status := 0x1015
abbrev clockLost : Status := 0x1016
abbrev serviceDown : Status := 0x1020
abbrev coreAbsent : Status := 0x2001
abbrev coreRemapped : Status := 0x2002
abbrev dataUncorrectable : Status := 0x2003
abbrev routeTimeout : Status := 0x2004
abbrev dmaOverlap : Status := 0x2005
abbrev kernelAbortedFault : Status := 0x2006
abbrev reachDenied : Status := 0x2007
abbrev operandOverlap : Status := 0x2008
abbrev tidyDoubleFault : Status := 0x2009
abbrev kernelDeadline : Status := 0x200A
abbrev kernelFailed : Status := 0x200B
abbrev kernelAbortedReset : Status := 0x200C
abbrev residencyCapacity : Status := 0x200D
abbrev sampleInvalidRow : Status := 0x200E
abbrev residentLost : Status := 0x200F
abbrev partitionConflict : Status := 0x2010
abbrev meshLinkFailed : Status := 0x2011
abbrev spareFailed : Status := 0x2012
abbrev spareUnavailable : Status := 0x2013
abbrev domainArmed : Status := 0x3001
abbrev regionOverlap : Status := 0x3002
abbrev stateBudget : Status := 0x3003
abbrev tableFull : Status := 0x3004
abbrev notGranted : Status := 0x3005
abbrev collTimeout : Status := 0x3006
abbrev collAbortedStop : Status := 0x3007
abbrev pushFailed : Status := 0x3008
abbrev snapshotAbandoned : Status := 0x3009
abbrev grainCrc : Status := 0x300A
abbrev grainAuth : Status := 0x300B
abbrev grainDecode : Status := 0x300C
abbrev grainRange : Status := 0x300D
abbrev commitDeadline : Status := 0x300E
abbrev ckptAbortedStop : Status := 0x300F
abbrev steepCountLimit : Status := 0x3010
abbrev sealMismatch : Status := 0x3011
abbrev deepFailed : Status := 0x3012
abbrev memberDead : Status := 0x3013
abbrev memberEvicted : Status := 0x3014
abbrev restoreImpossible : Status := 0x3015
abbrev restoreCrc : Status := 0x3016
abbrev noSpare : Status := 0x3017
abbrev shapeMismatch : Status := 0x3018
abbrev coordinatorLost : Status := 0x3019
abbrev recoveryTimeout : Status := 0x301A
abbrev rosterUnreachable : Status := 0x301B
abbrev rosterInvalid : Status := 0x301C
abbrev notInRoster : Status := 0x301D
abbrev bringupDeadline : Status := 0x301E
abbrev rosterMismatch : Status := 0x301F
abbrev bringupTimeout : Status := 0x3020
abbrev buddySamePower : Status := 0x3021
abbrev ckptAbortRun : Status := 0x3022
abbrev keyRevoked : Status := 0x4001
abbrev keyInvalid : Status := 0x4002
abbrev remoteAccess : Status := 0x4003
abbrev noRecvBuffer : Status := 0x4004
abbrev peerTimeout : Status := 0x4005
abbrev connFlushed : Status := 0x4006
abbrev connState : Status := 0x4007
abbrev msgAborted : Status := 0x4008
abbrev cipherSpent : Status := 0x4009
abbrev sourceDataError : Status := 0x400A
abbrev linkDown : Status := 0x5001
abbrev macsecNoSa : Status := 0x5002
abbrev nsExists : Status := 0x6001
abbrev targetUnreachable : Status := 0x6002
abbrev backingTimeout : Status := 0x6003
abbrev dataUnreadable : Status := 0x6004
abbrev nsFailed : Status := 0x6005
abbrev backingMismatch : Status := 0x6006
abbrev hostAccessDisabled : Status := 0x7001
abbrev completionTimeout : Status := 0x7002
abbrev completionError : Status := 0x7003
abbrev poisonedReceived : Status := 0x7004
abbrev portDown : Status := 0x7005
abbrev linkLimited : Status := 0x7006
abbrev lateCompletion : Status := 0x7007
abbrev sliceExists : Status := 0x8001
abbrev poolExhausted : Status := 0x8002
abbrev grantExceeded : Status := 0x8003
abbrev sliceBusy : Status := 0x8004
abbrev rangeNotGranted : Status := 0x8005
abbrev keySpent : Status := 0x9001
abbrev keyEmpty : Status := 0x9002
abbrev keyNotOwned : Status := 0x9003
abbrev drbgFailed : Status := 0x9004
abbrev selftestFailed : Status := 0x9005
abbrev keyZeroized : Status := 0x9006
abbrev wrapAuth : Status := 0x9007
abbrev contextReplay : Status := 0x9008
abbrev keyWeak : Status := 0x9009
abbrev locked : Status := 0x900A
abbrev notExportable : Status := 0x900B
abbrev cipherMismatch : Status := 0x900C
abbrev signatureInvalid : Status := 0x900D
abbrev tagFail : Status := 0x900E
abbrev notNegotiated : Status := 0xA001
abbrev versionMismatch : Status := 0xA002
abbrev recordsLost : Status := 0xC001
abbrev hwFatal : Status := 0xD001
abbrev overtemp : Status := 0xD002
abbrev powerFault : Status := 0xD003
abbrev sensorExcluded : Status := 0xD004
abbrev keepWorn : Status := 0xE001
abbrev keepFrozen : Status := 0xE002
abbrev keepMonotonic : Status := 0xE003
abbrev keepProtected : Status := 0xE004

end Sys2Proof.St
end

