-- ==== Sys2Proof/Machine/StateBase.lean ====
section
/-! DEFINITION. The state of the parts that serve the whole device: keep words (21), Strata and Sieve (19), mailboxes and firmware
(17, R266 to R269), interrupts (18), power, pins and clocks (20, 22), fabric time and comparators (02). -/

namespace Sys2Proof.Machine

open Sys2Proof

/-- A keep word: its value at the front end, its value in the Kiln, whether a write waits, and the count of R519. -/
structure KeepWord where
  value   : Nat
  kiln    : Nat
  queued  : Bool := false
  changes : Nat := 0
deriving DecidableEq, Repr

/-- Severity of a Strata record (R473). -/
inductive Sev where
  | fatal | error | warning | advisory
deriving DecidableEq, Repr

inductive RecKind where
  | event | timeMark | boot | loss
deriving DecidableEq, Repr

/-- A Strata record (R473). -/
structure StrataRec where
  kind     : RecKind := .event
  code     : Status
  sev      : Sev
  origin   : Nat := 0
  inst     : Nat := 0
  a32      : Nat := 0
  a0       : Nat := 0
  a1       : Nat := 0
  a2       : Nat := 0
  a3       : Nat := 0
  seq      : Nat := 0
  boot     : Nat := 0
  repeats  : Nat := 0
deriving DecidableEq, Repr

/-- Strata (R474 to R478). `kiln` is by slot: 0 to 8,191 bedrock, 8,192 on topsoil. -/
structure Strata where
  kiln      : Tab Nat StrataRec := []
  queue     : List StrataRec := []
  nextSeq   : Nat := 0
  last      : Option StrataRec := none
  second    : Nat := 0
  used      : Nat := 0
  lostNow   : Nat := 0
  lostFirst : Status := 0
  lost      : Nat := 0
  torn      : Nat := 0
deriving DecidableEq, Repr

/-- What a Sieve record carries after its header (R482). -/
inductive SievePayload where
  | event (data : List Byte)
  | gap (count first last : Nat)
  | trigger (cause die time : Nat)
  | sample (counter value : Nat)
  | windowStart
  | windowStop
deriving DecidableEq, Repr

structure SieveRec where
  time    : Nat
  source  : Nat
  loc     : Bool
  payload : SievePayload
deriving DecidableEq, Repr

/-- Drops of one group since its last gap record (R484). -/
structure SieveGap where
  count : Nat := 0
  first : Nat := 0
  last  : Nat := 0
deriving DecidableEq, Repr

/-- Sieve's records: FIFOs and gaps by die * 1024 + group, buffers and spill rings by die, newest first; `pmcRem` what a counter of R487 has
gathered below its unit. -/
structure Sieve where
  fifo  : Tab Nat (List SieveRec) := []
  gap   : Tab Nat SieveGap := []
  buf   : Tab Nat (List SieveRec) := []
  pre   : Tab Nat (List SieveRec) := []
  trig  : Tab Nat SieveRec := []
  spill : Tab Nat (List SieveRec) := []
  pmcRem : Tab Nat Nat := []
deriving DecidableEq, Repr

/-- The header of a request frame (R437). -/
structure Frame where
  opcode : Nat
  seq    : Nat
  length : Nat
  flags  : Nat
deriving DecidableEq, Repr

/-- A reply frame (R438): `field` is 0xFFFF where no field is at fault; `results` the reply's payload, field by field. -/
structure Reply where
  status   : Status := St.success
  field    : Nat := 0xFFFF
  deferred : Bool := false
  results  : List Nat := []
  opcode   : Nat := 0
  seq      : Nat := 0
deriving DecidableEq, Repr

/-- A mailbox event: the status or bit it reports, and what it names (R443). -/
structure MbxEvent where
  code : Nat
  arg  : Nat
deriving DecidableEq, Repr

/-- A Napor mailbox (R437 to R443). `negotiated` holds the minor served and the negotiated map; `committed`: the request is past its commit
point and its reply comes later (R267). -/
structure Mailbox where
  frame      : Option Frame := none
  taken      : Bool := false
  committed  : Bool := false
  busy       : Bool := false
  done       : Bool := false
  overrun    : Nat := 0
  reply      : Option Reply := none
  events     : List MbxEvent := []
  overflow   : Bool := false
  negotiated : Option (Nat × BitVec 256) := none
deriving DecidableEq, Repr

inductive SvcState where
  | stopped | running | restarting | heldDown
deriving DecidableEq, Repr

/-- A firmware service (R266, R269): its state, its core and the local times of its recent crashes. -/
structure Service where
  state   : SvcState := .stopped
  core    : Nat
  crashes : List Nat := []
deriving DecidableEq, Repr

/-- A firmware log record (R447). -/
structure LogRec where
  seq     : Nat
  time    : Nat
  service : Nat
  level   : Nat
  message : Nat
  core    : Nat := 0
  pc      : Nat := 0
  args    : List Nat := []
deriving DecidableEq, Repr

/-- The firmware (R266 to R269, R446 to R457). `active` gives each component of the active image that a bundle has
brought; `released`: the control cores have left reset. -/
structure Firmware where
  services    : Tab Nat Service := []
  standbyUsed : List Nat := []
  log         : List LogRec := []
  logSeq      : Nat := 0
  active      : Tab Nat Component := []
  stagedLen   : Nat := 0
  released    : Bool := false
  shutDown    : Bool := false
deriving DecidableEq, Repr

/-- A slice interrupt table entry or an MSI-X vector's own fields (R471), and the events accumulated (R472). -/
structure IrqEntry where
  address  : Nat := 0
  data     : Nat := 0
  interval : Nat := 0
  count    : Nat := 0
  mask     : Bool := false
  pending  : Bool := false
  valid    : Bool := false
  bindings : List IrqSource := []
  acc      : Nat := 0
deriving DecidableEq, Repr

/-- Interrupts: host entries, MSI-X enables and function masks, EIC moderation (last take cycle by cluster * 256 + source)
and the always-on count. -/
structure Irq where
  entries  : Tab (Caller × Nat) IrqEntry := []
  enable   : Tab Nat Bool := []
  fmask    : Tab Nat Bool := []
  lastTake : Tab Nat Nat := []
  aoCount  : Nat := 0
deriving DecidableEq, Repr

/-- Device power states (R494) and the two from which only power-off leads out (R493, R499). -/
inductive PwrState where
  | off | aux | on | hardpan | heldInReset | tripped
deriving DecidableEq, Repr

/-- Power, temperature, supplies, pins and reference clocks (20, 22). Clocks are in 100 MHz units, sensors in degrees C. `brakeEnd` is when BRAKE_N rose, `hot115` since when Tj
has stood at 115 or more, `throttleDown` whether the throttle still lowers the clock, `tdpNow` the setting of the running averaging interval; of `perstOut` and `accEn` each port's PERST_OUT_N is asserted and ACC_PWR_EN is, since
`accSince`; `tapPins` is the TAP's boundary update latch. -/
structure Power where
  state      : PwrState := .on
  auxPg      : Bool := true
  mainPg     : Bool := true
  straps     : Nat := 0
  strapNote  : Bool := false
  localNs    : Nat := 0
  allowance  : Nat := 230
  allowClk   : Nat := 20
  average    : Nat := 0
  peakMs     : Nat := 0
  quietMs    : Nat := 100
  throttleClk : Option Nat := none
  throttleDown : Bool := false
  floor115   : Bool := false
  floorSvc   : Bool := false
  brake      : Bool := false
  brakeEnd   : Option Nat := none
  tdpNow     : Nat := 600
  hot115     : Option Nat := none
  thermtrip  : Bool := false
  tjMark     : Bool := false
  excluded   : List (Nat × Nat) := []
  perstN     : Bool := false
  perstOut   : List Bool := List.replicate 8 true
  accEn      : List Bool := List.replicate 8 false
  accSince   : List Nat := List.replicate 8 0
  wake       : Bool := false
  ppsOut     : Nat := 0
  clkLost    : List RefClk := []
  tapState   : Nat := 0
  tapIr      : Nat := 0
  tapShift   : List Bool := []
  tdo        : Bool := false
  tapPins    : List Bool := []
deriving DecidableEq, Repr

inductive FtState where
  | free | acquiring | locked | holdover
deriving DecidableEq, Repr

/-- Fabric time (R28 to R35). `slew` is the correction still to absorb, in ns; `good` the consecutive good intervals,
`holdAcc` what the error bound has grown in HOLDOVER, in units of 1/2,000,000 ns, `acq` how far the acquired value is ahead of the count before the first lock. -/
structure FabricTime where
  now       : Nat := 0
  state     : FtState := .free
  valid     : Bool := false
  steps     : Nat := 0
  port      : Nat := 0
  slew      : Int := 0
  slewAcc   : Nat := 0
  good      : Nat := 0
  errBound  : Nat := 0xFFFFFFFF
  holdAcc   : Nat := 0
  todHeld   : Bool := false
  setSecs   : Option (Caller × Nat) := none
  master    : Option PtpAnnounce := none
  pathDelay : Option Nat := none
  acq       : Option Int := none
deriving DecidableEq, Repr

inductive CmpMode where
  | time | steep | phase
deriving DecidableEq, Repr

/-- What a comparator was armed with (R41) and where it stands. `target` is its next target; in phase mode `due` is the
time it waits for once its boundary is applied; `owed` a fire that is due at once and late (R43); `armer` the core that armed it, if one did. -/
structure Armed where
  mode     : CmpMode
  periodic : Bool
  domain   : Nat
  action   : Nat
  written  : Nat
  target   : Nat
  arg      : Nat
  due      : Option Nat := none
  fired    : Bool := false
  owed     : Bool := false
  armer    : Option Nat := none
deriving DecidableEq, Repr

/-- Who holds a comparator (R46). -/
inductive CmpOwner where
  | free | firmware | caller (c : Caller) | runtime (partition : Nat)
deriving DecidableEq, Repr

/-- The comparators by die * 64 + index. -/
structure Comparators where
  armed : Tab Nat Armed := []
  owner : Tab Nat CmpOwner := []
  frozen : Bool := false
deriving DecidableEq, Repr

end Sys2Proof.Machine
end

