-- ==== Sys2Proof/Machine/StateArray.lean ====
section
/-! DEFINITION. The state of the tensor array: tidy cores and control cores (05), matrix engines (04), cluster DMA, routers, spares
and uncorrectable words (03), partitions, work rings, kernels and resident sets (06). -/

namespace Sys2Proof.Machine

open Sys2Proof

/-- How a Tilth-32 core stands: clock-gated under R148, running, idle in WAITE (R143) with its mask and its registers, waiting for the
completion of a load through a host or accelerator window, or stopped after its part of a kernel, an abort or a double fault. -/
inductive RunState where
  | gated
  | running
  | waiting (mask : Word) (rd rs1 : BitVec 5)
  | loading (l : Link) (tag : Nat)
  | stopped
deriving DecidableEq, Repr

/-- A reservation (R133): the first array address of its granule. -/
structure Reservation where
  granule : Nat
  since   : Nat
deriving DecidableEq, Repr

/-- A completion of the matrix engine (R105, R145). -/
structure MeCpl where
  tag    : Nat
  flags  : Nat := 0
  status : Status := 0
  offset : Nat := 0xFFFF
deriving DecidableEq, Repr

/-- The matrix engine of a core (R104, R144, R145, R90). `queue` holds submitted descriptors not yet executed, oldest first;
`executed` completions not yet posted; `ready` completions waiting to be popped. `acc` is the kept accumulators with their
format. `gens` are the lane generators, once loaded. -/
structure Me where
  queue    : List (List Word) := []
  executed : List MeCpl := []
  ready    : List MeCpl := []
  acc      : Option (Nat × List Word) := none
  gens     : List Nat := []
  reload   : Bool := true
deriving DecidableEq, Repr

/-- A Tilth-32 core (R116, R130, R133, R143). -/
structure Core where
  gpr      : Vector Word 32 := Vector.replicate 32 0
  pc       : Word := 0
  thr      : BitVec 4 := 0
  inx      : Bool := false
  pie      : Bool := false
  ie       : Bool := false
  epc      : Word := 0
  cause    : Word := 0
  xval     : Word := 0
  vbase    : Word := 0
  split    : Bool := false
  ovfTrap  : Bool := false
  rstack   : List Word := []
  rsp      : Word := 0
  rslo     : Word := 0
  rshi     : Word := 0
  amb      : Vector Word 4 := Vector.replicate 4 0
  amc      : Vector Word 4 := Vector.replicate 4 0
  cycles   : BitVec 64 := 0
  words    : BitVec 64 := 0
  cycHi    : Option Word := none
  wordsHi  : Option Word := none
  wake     : Bool := false
  resv     : Option Reservation := none
  run      : RunState := .gated
  me       : Me := {}
deriving DecidableEq, Repr

/-- Where a queued cluster DMA descriptor came from (R73, R156). -/
inductive DmaFrom where
  | core (id : Nat)
  | work (item : Nat)
deriving DecidableEq, Repr

/-- A cluster DMA descriptor in its channel, and its result once it has moved (R70). -/
structure DmaEntry where
  desc   : List Byte
  origin : DmaFrom
  result : Option (Status × Nat × Nat) := none
deriving DecidableEq, Repr

/-- A channel of a cluster DMA engine. `failed`: a transfer ended under R72 and descriptors with flag [1] behind it are not started. -/
structure DmaChannel where
  queue  : List DmaEntry := []
  failed : Bool := false
deriving DecidableEq, Repr

/-- A spare remap under way (R76). -/
structure Remap where
  logical : Nat
  oldSlot : Nat
  newSlot : Option Nat
  cause   : CoreFault
deriving DecidableEq, Repr

/-- The array beside its cores. Uncorrectable words are named by the array address of their first byte. Corrected errors are by
physical core, cluster * 17 + slot, with their local times. `tenths` counts tenths of array cycles by die. -/
structure TensorArray where
  dma        : Tab Nat DmaChannel := []
  eccBad     : List Nat := []
  corrected  : Tab Nat (List Nat) := []
  memErrors  : Tab Nat Nat := []
  linkFailed : List Nat := []
  linkTimes  : Tab Nat (List Nat) := []
  remaps     : List Remap := []
  remapDue   : List Nat := []
  tenths     : Tab Nat Nat := []
  gated      : Bool := false
deriving DecidableEq, Repr

/-- A work ring with its completion ring (R152 to R155). `busy` counts descriptors started and not yet completed. -/
structure WorkRing where
  work    : Nat
  cpl     : Nat
  log2    : Nat
  head    : Nat := 0
  tail    : Nat := 0
  cplHead : Nat := 0
  cplTail : Nat := 0
  phase   : Bool := true
deriving DecidableEq, Repr

/-- A manifest entry as placed (R161, R162). -/
structure Placed where
  src      : Nat
  len      : Nat
  level    : Nat
  loc      : Nat
  placed   : Nat
  streamed : Bool
deriving DecidableEq, Repr

structure ResidentSet where
  id         : Nat
  sourceKept : Bool
  entries    : List Placed
  lost       : Bool := false
deriving DecidableEq, Repr

/-- A partition (R148): its request, rings and resident sets. `owner` is 0 for PF0, else a slice number. -/
structure Partition where
  owner        : Nat
  mask         : BitVec 16
  silt         : List SiltRange
  coreShare    : Nat
  clusterShare : Nat
  grants       : List Grant
  rings        : List WorkRing
  streamCap    : Nat
  sets         : List ResidentSet := []
deriving DecidableEq, Repr

/-- How a started work descriptor stands: it waits to be run, runs, or has finished with its status, field and index (R155). -/
inductive ItemStage where
  | started
  | running
  | finished (st : Status) (field who : Nat)
deriving DecidableEq, Repr

/-- A work descriptor that the dispatcher has started. -/
structure WorkItem where
  part  : Nat
  ring  : Nat
  order : Nat
  desc  : List Byte
  stage : ItemStage := .started
deriving DecidableEq, Repr

/-- A running kernel (R157 to R160), by its work item. -/
structure Kernel where
  part    : Nat
  cores   : List Nat
  ended   : List (Nat × Nat) := []
  restart : Bool
  started : Nat
  deadline : Nat
  desc    : List Byte
deriving DecidableEq, Repr

/-- Work given to the array (06). -/
structure Work where
  parts   : Tab Nat Partition := []
  items   : Tab Nat WorkItem := []
  kernels : Tab Nat Kernel := []
  nextId  : Nat := 0
  lastRing : Tab Nat Nat := []
deriving DecidableEq, Repr

end Sys2Proof.Machine
end

