-- ==== Sys2Proof/Machine/StateDomain.lean ====
section
/-! DEFINITION. The state of the protection domains (07, 08, 09) and of the job that the roster names (10). Registers of a domain's CAD
block are in the register table. -/

namespace Sys2Proof.Machine

open Sys2Proof

/-- The four states of a live grain (R183). -/
inductive GrainState where
  | clean | dirty | pending | pendingCow
deriving DecidableEq, Repr

/-- A live grain's side record (R181): its tag, last write, CRC where valid, COW slot; and whether the copier has sent it. -/
structure Grain where
  st        : GrainState := .clean
  tag       : Nat := 0
  lastWrite : Nat := 0
  crc       : Option Nat := none
  cow       : Option Nat := none
  sent      : Bool := false
deriving DecidableEq, Repr

/-- A slot of a generation that this member holds of its neighbour (R224). -/
structure GenSlot where
  valid    : Bool := false
  tag      : Nat := 0
  crc      : Nat := 0
  crcValid : Bool := false
deriving DecidableEq, Repr

inductive RegionKind where
  | ddr | appendOnly | quiesced
deriving DecidableEq, Repr

/-- A protected region (R175). `protBase` is where its protected bytes lie in DDR: the region itself or its shadow.
`pages` are the pages to copy, each with the steep count at its doorbell. -/
structure Region where
  kind     : RegionKind
  base     : Nat
  protBase : Nat
  length   : Nat
  pageLog2 : Nat
  notify   : Nat
  pages    : List (Nat × Nat) := []
  copied   : Nat := 0
  restored : Bool := false
deriving DecidableEq, Repr

/-- An intake ring (R172, R188 to R190). `ringAt` and `doorAt` are the offsets of its aperture and doorbell in the contributor's root-port window. -/
structure Intake where
  silt     : Nat
  depth    : Nat
  slotLog2 : Nat
  credit   : Nat
  ringAt   : Nat := 0
  doorAt   : Nat := 0
  expect   : Nat := 0
  consumed : Nat := 0
deriving DecidableEq, Repr

/-- A hyperparameter set (R197), FP32 words. -/
structure HpSet where
  beta1 : Word := 0
  beta2 : Word := 0
  eps   : Word := 0
  wd    : Word := 0
  bias  : Bool := false
deriving DecidableEq, Repr

/-- How far a layer of the current steep has come (R201). `rsDone` counts the parameters of its own shard that the reduce-scatter
has brought home, `agDone` those that the all-gather has delivered. -/
structure LayerStage where
  combined : Bool := false
  reduced  : Bool := false
  updated  : Bool := false
  gathered : Bool := false
  pushed   : List Nat := []
  rsDone   : Nat := 0
  agDone   : Nat := 0
deriving DecidableEq, Repr

/-- A boundary applied and not yet declared, passed or abandoned (R184, R185, R202). -/
structure Boundary where
  steep    : Nat
  tb       : Nat
  flagged  : Bool
  captured : Bool := false
  copying  : Bool := false
deriving DecidableEq, Repr

/-- The copier's work on a declared snapshot (R207 to R210). -/
structure Snap where
  steep   : Nat
  grains  : Nat := 0
  crcs    : Nat := 0
  sealed  : Bool := false
  quit    : Bool := false
  resend  : List Nat := []
  tries   : Tab Nat Nat := []
deriving DecidableEq, Repr

/-- A write held by a stall (R221). -/
structure Stalled where
  who   : Agent
  grain : Nat
  addr  : Nat
  data  : List Byte
  since : Nat
deriving DecidableEq, Repr

/-- What a buddy has of an arriving snapshot (R218, R226). -/
structure Arrival where
  steep  : Nat
  claim  : Option (Nat × Nat) := none
  acks   : List Nat := []
  naks   : List (Nat × Status) := []
  done   : Bool := false
deriving DecidableEq, Repr

/-- The coordinator's snapshot in flight (R204, R228 to R230). -/
structure Flight where
  steep   : Nat
  tb      : Nat
  held    : List Nat := []
  decided : Option (Status × Nat) := none
deriving DecidableEq, Repr

/-- A recovery as the coordinator runs it (R248 to R260). Departed indices with their kinds and spares. -/
structure Departed where
  index   : Nat
  evicted : Bool
  spare   : Option Nat := none
deriving DecidableEq, Repr

inductive RecPhase where
  | none | stopping | restoring | reloading | waitSpare | failed
deriving DecidableEq, Repr

/-- A recovery at this member: departed indices, T_s, those covered by STOPPED and READY so far by child, the target steep, the grains
still asked for with their failures, T_r. `taken` are the spares whose index the hops of this device name already. -/
structure Recovery where
  departed  : List Departed := []
  stopTime  : Option Nat := none
  stopped   : Bool := false
  stoppedBy : List (Nat × Nat) := []
  sentStopped : Bool := false
  target    : Option Nat := none
  wanted    : List Nat := []
  failures  : Tab Nat Nat := []
  pushedLater : Bool := false
  reload    : Bool := false
  readyBy   : List (Nat × Nat) := []
  due       : Bool := false
  sentReady : Bool := false
  resumeAt  : Option Nat := none
  started   : Nat := 0
  rolledAt  : Nat := 0
  taken     : List Nat := []
deriving DecidableEq, Repr

/-- A Caddy protection domain (R172). `heard` and `beats` are the last heartbeat of each device watched, `prepSent` the spares prepared with the
index each is for, `nbArm` the number of the neighbour's arming, `fenced` that the member has fenced itself, `lastPush` the last steep it pushed, `bcast` the
broadcast that this member takes part in: its source, address, length, the bytes that have come, and who asked. Grains are keyed region * 2^24 + index; an unlisted grain is `grain0`. Stages are keyed
steep * 4096 + layer; `lastTb` gives T_b of the boundary that ended each steep. -/
structure Domain where
  owner      : Nat
  partition  : Nat
  clusters   : BitVec 16
  lMax       : Nat
  cowGib     : Nat
  pauseMs    : Nat
  t0         : Nat
  standby    : Bool
  regions    : Tab Nat Region := []
  layers     : Tab Nat LayerReq := []
  hp         : Tab Nat HpSet := []
  intake     : Tab Nat Intake := []
  grains     : Tab Nat Grain := []
  grain0     : Grain := {}
  cow        : List Nat := []
  stalled    : List Stalled := []
  boundaries : List Boundary := []
  snap       : Option Snap := none
  pipeSteep  : Nat := 0
  lastTb     : Tab Nat Nat := []
  stages     : Tab Nat LayerStage := []
  scalars    : Option (Word × Word) := none
  gens       : Tab Nat GenSlot := []
  nbRegions  : List (Nat × Nat) := []
  nbArm      : Nat := 0
  arrival    : Option Arrival := none
  scrubbed   : Nat := 0
  flight     : Option Flight := none
  trigDue    : Bool := false
  deferred   : Bool := false
  trigCmp    : Option Nat := none
  deputy     : Option (Nat × Status × Nat) := none
  deepTarget : Option (Nat × Nat) := none
  lastDeep   : Nat := 0
  deep       : Option (Nat × List Nat) := none
  deepWrite  : Option (Nat × Nat) := none
  afterDeep  : Nat := 0
  heard      : Tab Nat Nat := []
  told       : List (Nat × Bool) := []
  silents    : List (Nat × Nat × Nat) := []
  prepared   : Option (Nat × Nat × Nat) := none
  prepTables : Option Tables := none
  prepSent   : List (Nat × Nat) := []
  beats      : Tab Nat Msg := []
  fenced     : Bool := false
  lastPush   : Option Nat := none
  recov      : Recovery := {}
  gone       : List Nat := []
  bcast      : Option (Nat × Nat × Nat × Nat × Caller) := none
deriving DecidableEq, Repr

/-- An entry of the roster (R272). -/
structure RosterEntry where
  devId : List Byte
  addr  : Nat
  power : Nat
deriving DecidableEq, Repr

structure Roster where
  jobId   : Nat
  tpg     : Nat
  members : List RosterEntry
  spares  : List RosterEntry
  digest  : List Byte
deriving DecidableEq, Repr

/-- The control-message sequences of a hop (R217, R218). -/
structure Hop where
  tx : Nat := 0
  rx : Nat := 0
deriving DecidableEq, Repr

/-- Bring-up and the job (R270 to R286). Devices are numbered by roster index, spares by 0x8000 + position. -/
structure Job where
  roster    : Option Roster := none
  fetching  : Bool := false
  svc       : Nat := 0
  chunks    : Tab Nat (List Byte) := []
  total     : Nat := 0
  asked     : Tab Nat Nat := []
  late      : Bool := false
  phase1    : Bool := false
  phase2    : Bool := false
  index     : Option Nat := none
  sparePos  : Option Nat := none
  checkins  : List (Nat × Bool) := []
  final     : Option (List (Nat × Nat × Nat)) := none
  finalTail : List Byte := []
  positions : Nat := 0
  used      : List Nat := []
  acked     : List Nat := []
  hellos    : Tab Nat Nat := []
  noAnswer  : List (Nat × Nat) := []
  covered   : Tab Nat Nat := []
  sentBar   : Bool := false
  ready     : Option Nat := none
  hops      : Tab Nat Hop := []
  bypass    : List Nat := []
  discarded : Nat := 0
deriving DecidableEq, Repr

end Sys2Proof.Machine
end

