-- ==== Sys2Proof/Machine/StateIo.lean ====
section
/-! DEFINITION. The state of the PCI Express links (11) and of the slices (12). -/

namespace Sys2Proof.Machine

open Sys2Proof

/-- What a load of a core does when its data comes: the destination, none for the pc of a RET, its bytes and sign extension; the general registers,
next pc and TNS_RSP that its word leaves beside it, and its own address. -/
structure LoadCont where
  dest   : Option (BitVec 5)
  bytes  : Nat
  signed : Bool
  gpr    : Vector Word 32
  pc     : Word
  rsp    : Word
  ea     : Word
deriving DecidableEq, Repr

/-- What an outstanding read is for: a load of a core, or a cluster DMA transfer. -/
inductive BusUse where
  | core (id : Nat) (cont : LoadCont)
  | dma (cluster channel : Nat)
deriving DecidableEq, Repr

/-- An outstanding read request on a link (R302 to R305). `owner` is the caller for whom it was issued. -/
structure BusRead where
  link    : Link
  tag     : Nat
  owner   : Caller
  len     : Nat
  got     : List Byte := []
  discard : Bool := false
  use     : BusUse
deriving DecidableEq, Repr

/-- The PCI Express side. Functions are numbered 0 PF0, 1 PF1; completion timeouts 0 for the host port, 1 + p for root port p, by their
encoding (R302). `aer` holds per function the error bits logged: [0] completion timeout, [1] unexpected completion, [2] poisoned. `linkAt` is when the host link first reached L0. `waiting` are
records held by a clear Bus Master Enable (R305). -/
structure Pci where
  reads     : List BusRead := []
  quarant   : List (Link × Nat) := []
  bme       : Tab Nat Bool := []
  cto       : Tab Nat Nat := []
  flr       : List Pf := []
  pmeEn     : List Pf := []
  pmeStatus : List Pf := []
  memWin    : Tab Nat (Nat × Nat) := []
  apertures : Tab Nat (Nat × Nat) := []
  acs       : List Nat := []
  hostUp    : Bool := false
  ready     : Bool := false
  linkAt    : Option Nat := none
  enumerated : List Nat := []
  aer       : Tab Nat Nat := []
  postedDropped : Nat := 0
  held      : List (Caller × Nat × List Byte) := []
deriving DecidableEq, Repr

/-- A slice (R313 to R326). Handles are local: partitions and domains by handle. `waiters` are the mailboxes to answer when its reset or
destruction completes, with whether they asked for the destruction. -/
structure Slice where
  parent     : Pf := .pf0
  pasid      : Nat := 0
  grant      : Option SliceReq := none
  busy       : Bool := false
  destroying : Bool := false
  waiters    : List Caller := []
  parts      : Tab Nat Nat := []
  doms       : Tab Nat Nat := []
deriving DecidableEq, Repr

end Sys2Proof.Machine
end

