-- ==== Sys2Proof/Machine/StateNet.lean ====
section
/-! DEFINITION. The state of the Ethernet ports, the parser's rules and the schedulers (14). -/

namespace Sys2Proof.Machine

open Sys2Proof

/-- A packet queue of PF0 (R374). `head` counts entries taken, `fetched` those whose completion is still to come, `cplTail` completions written. -/
structure PktQ where
  ring    : Nat
  cplRing : Nat
  log2    : Nat
  irq     : Nat
  port    : Nat := 0
  schedQ  : Nat := 0
  head    : Nat := 0
  tail    : Nat := 0
  fetched : Nat := 0
  cplHead : Nat := 0
  cplTail : Nat := 0
deriving DecidableEq, Repr

/-- A frame in a scheduler queue: its bytes from the destination address through the FCS, what leaves, and the transmit queue it came from with its
tag and flags (R376). -/
structure TxFrame where
  len  : Nat
  what : Emit
  src  : Option (Nat × Nat × Nat) := none
deriving DecidableEq, Repr

/-- A shaper's credit in 1/256 byte, the remainder it carries in 1/100 of that, and the rate and hi in force (R380). -/
structure Shaper where
  credit : Int := 0
  carry  : Nat := 0
  rate   : Nat := 0
  hi     : Nat := 0x40
deriving DecidableEq, Repr

/-- A policer's tokens in 1/256 byte and what it carries; `fresh` until its first refill or use, when it stands at its burst (R381). -/
structure Policer where
  tokens : Nat
  carry  : Nat := 0
deriving DecidableEq, Repr

/-- A frame inside the part: its logical port, bytes without FCS, counted wire length, stamp, whether on its second pour, the tag popped, and the VNI removed. -/
structure RxFrame where
  port   : Nat
  bytes  : List Byte
  wire   : Nat
  stamp  : Nat
  second : Bool := false
  popped : Bool := false
  vni    : Nat := 0
  rule   : Nat := 0xFFFF
deriving DecidableEq, Repr

/-- The packet path. Shapers are keyed 17 * port + queue, scheduler queues 16 * port + queue; `sending` is the frame that a port sends now; `txSa` a
port's usable transmit association with its packet number and `rxSc` its receive channels, each with the lowest acceptable packet number (R364, R365). -/
structure Net where
  up        : Tab Nat Bool := []
  mode      : Tab Nat Nat := []
  rxq       : Tab Nat PktQ := []
  txq       : Tab Nat PktQ := []
  sched     : Tab Nat (List TxFrame) := []
  deficit   : Tab Nat Nat := []
  turn      : Tab Nat (Nat × Bool) := []
  sending   : Tab Nat TxFrame := []
  shapers   : Tab Nat Shaper := []
  period    : Nat := 1000
  policers  : Tab Nat Policer := []
  rules     : Tab Nat (List Byte) := []
  slow      : List (Nat × RxFrame) := []
  pour      : List RxFrame := []
  sliceQ    : Tab Nat Nat := []
  flows     : List (Nat × Nat × Nat × Nat) := []
  txSa      : Tab Nat Nat := []
  rxSc      : Tab Nat (Tab Nat Nat) := []
deriving DecidableEq, Repr

end Sys2Proof.Machine
end

