-- ==== Sys2Proof/Machine/StateSec.lean ====
section
/-! DEFINITION. The state of the security island and of the cipher engines' key slots (16). -/

namespace Sys2Proof.Machine

open Sys2Proof

/-- The states of a key slot (R421). -/
inductive SlotState where
  | empty | loaded | spent
deriving DecidableEq, Repr

/-- A key slot (R421, R423): its owner's slice number, `limit` invocations allowed, and those counted. `low` says that KEY_LOW has been raised. -/
structure KeySlot where
  owner      : Nat
  state      : SlotState := .empty
  mode       : KeyMode := .gcm
  limit      : Nat := 2 ^ 32
  used       : Nat := 0
  key        : List Byte := []
  exportable : Bool := false
  persistent : Bool := false
  low        : Bool := false
deriving DecidableEq, Repr

/-- A pair key (R426): its generation count, and the firmware slot that holds it. -/
structure PairKey where
  gen  : Nat
  slot : Nat
deriving DecidableEq, Repr

/-- An SPDM session (R416): whether FINISH has come. -/
structure SpdmSession where
  id          : Nat
  established : Bool := false
deriving DecidableEq, Repr

/-- The island (16). `testFailed` is when the entropy source's start-up tests last failed (R420), `ctxResult` the status of the last restore of a wrapped
context (R431), `restored` the serials restored since the context key of number `contextGen` was made. Slots not listed are EMPTY and, from 2,048
on, free. `transport` holds per slice its transport keys with their index, the oldest first. `measured` holds blocks 1 to 5 (R418). -/
structure Security where
  slots      : Tab Nat KeySlot := []
  store      : Tab Nat KeySlot := []
  transport  : Tab Nat (List (Nat × List Byte)) := []
  pairs      : Tab Nat PairKey := []
  identity   : Bool := true
  puf        : Bool := true
  drbgUsed   : Nat := 0
  retesting  : Bool := false
  testFailed : Option Nat := none
  restored   : List Nat := []
  contextGen : Nat := 0
  measured   : Tab Nat (List Byte) := []
  sessions   : List SpdmSession := []
  nextSession : Nat := 0
  spdmStage  : Nat := 0
  ownerChain : Option (List Byte) := none
  ctxResult  : Status := 0
deriving DecidableEq, Repr

end Sys2Proof.Machine
end

