-- ==== Sys2Proof/Machine/StateSto.lean ====
section
/-! DEFINITION. The state of the NVMe storage service (15). -/

namespace Sys2Proof.Machine

open Sys2Proof

inductive NsHealth where
  | ok | degraded | failed
deriving DecidableEq, Repr

/-- A namespace (R385, R399, R400): the controllers it is attached to, its unreadable ranges, and the VRMT peers it is exported to. -/
structure Nspace where
  lba512   : Bool
  capacity : Nat
  kind     : Nat
  persist  : Bool
  ddrBase  : Nat := 0
  subport  : Nat := 0
  target   : Nat := 0
  peer     : Nat := 0
  ctrls    : List Nat := []
  health   : NsHealth := .ok
  lost     : List (Nat × Nat) := []
  peers    : List Nat := []
deriving DecidableEq, Repr

/-- A range of blocks in the cache, the newest first; it is dirty while a journal entry or an incomplete write names one of its blocks. -/
structure Extent where
  ns    : Nat
  lba   : Nat
  n     : Nat
deriving DecidableEq, Repr

/-- A journal entry (R388 to R390), numbered in the order in which the destager takes them: its controller and command, whether it is
sealed, and whether its wait for space is counted. No data stands for zeros. -/
structure JEntry where
  ns     : Nat
  lba    : Nat
  n      : Nat
  data   : List Byte
  ctrl   : Nat
  cmd    : Nat
  sealed : Bool := false
  counted : Bool := false
deriving DecidableEq, Repr

/-- What a fetched I/O command is. -/
inductive IoKind where
  | read | write | flush
deriving DecidableEq, Repr

/-- A fetched I/O command (R394): its controller, submission queue and identifier, the ranges of blocks it names, and where it stands. `asked`: a read waits for
the backing; `applied`: a write's data is in the cache or in DDR; `entries`: its journal entries exist; `counted`: its wait under R389 is counted; `before`: the journal
entries that a Flush waits for; `dropped`: its completion is discarded (R393). -/
structure IoCmd where
  ctrl    : Nat
  sq      : Nat
  cid     : Nat
  kind    : IoKind
  ns      : Nat
  ranges  : List (Nat × Nat)
  prp     : Nat := 0
  zeroes  : Bool := false
  data    : List Byte := []
  fua     : Bool := false
  applied : Bool := false
  asked   : Bool := false
  entries : Bool := false
  before  : List Nat := []
  dropped : Bool := false
  counted : Bool := false
deriving DecidableEq, Repr

/-- A submission queue of a controller. -/
structure Sq where
  base : Nat
  size : Nat
  cq   : Nat
  prio : Nat
  head : Nat := 0
  tail : Nat := 0
deriving DecidableEq, Repr

/-- A completion queue: completions that wait for room or for the link, and those that Interrupt Coalescing gathers, with the time of the first. -/
structure Cq where
  base  : Nat
  size  : Nat
  irq   : Option Nat
  head  : Nat := 0
  tail  : Nat := 0
  phase : Bool := true
  held  : List (Nat × List Byte) := []
  acc   : Nat := 0
  since : Nat := 0
deriving DecidableEq, Repr

/-- An NVMe controller (R382, R383): the slice that created it, its subport, its page's offset in the aperture and its completion signal where it is an accelerator's, its queues (0 the
admin pair), its features, error log (newest first), changed namespaces, waiting asynchronous event requests and events; the queues asked for
by Number of Queues, where it has been set. -/
structure Nvme where
  slice    : Nat
  sub      : Option Nat := none
  cplAddr  : Nat := 0
  cplData  : Nat := 0
  page     : Nat := 0
  qpairs   : Nat
  sqs      : Tab Nat Sq := []
  cqs      : Tab Nat Cq := []
  wce      : Bool := true
  burst    : Nat := 0
  coalesce : Nat := 0
  asyncCfg : Nat := 0
  errors   : List (List Byte) := []
  errCount : Nat := 0
  changed  : List Nat := []
  aers     : List Nat := []
  events   : List Nat := []
  shut     : Bool := false
  askedSq  : Option Nat := none
  askedCq  : Option Nat := none
deriving DecidableEq, Repr

/-- The storage service. Controllers are numbered by their slice, an accelerator's 4,096 + its subport. `served` are the commands fetched from each queue in the
arbiter's present round (R396). `replayed`: the journal has been
read back since the start. `prio` is the mode in force and `prioNext` the mode that takes effect at a local
time (R395); `restoring`: from a disarm after a failed recovery until a domain is armed (R287). -/
structure Storage where
  nss      : Tab Nat Nspace := []
  extents  : List Extent := []
  journal  : Tab Nat JEntry := []
  nextJ    : Nat := 0
  cmds     : Tab Nat IoCmd := []
  nextCmd  : Nat := 0
  ctrls    : Tab Nat Nvme := []
  targets  : Tab Nat Nat := []
  served   : Tab (Nat × Nat) Nat := []
  prio     : Bool := true
  prioNext : Option (Bool × Nat) := none
  restoring : Bool := false
  replayed : Bool := false
deriving DecidableEq, Repr

end Sys2Proof.Machine
end

