-- ==== Sys2Proof/Machine/StateVrm.lean ====
section
/-! DEFINITION. The state of VRMT (13): command rings, completion queues, keys and connections. PSNs and msns are held as whole counts; the wire carries
them modulo 2^32 (R330). -/

namespace Sys2Proof.Machine

open Sys2Proof

/-- A slice's command ring, its completion ring and its spill store (R335, R336). -/
structure VrmtRing where
  ring     : Nat
  ringSp   : Nat
  cpl      : Nat
  cplSp    : Nat
  log2     : Nat
  spill    : Nat
  spillSp  : Nat
  head     : Nat := 0
  tail     : Nat := 0
deriving DecidableEq, Repr

/-- A completion queue (R335, R341). `count` is the records written so far. -/
structure VrmtCq where
  ring   : Nat
  space  : Nat
  log2   : Nat
  irq    : Nat
  head   : Nat := 0
  count  : Nat := 0
  armed  : Bool := false
deriving DecidableEq, Repr

inductive VKeyState where
  | live | draining | dead
deriving DecidableEq, Repr

/-- A key (R344, R346). `revoke` holds the tag of the KEY_REVOKE under way, the messages aborted and the bytes they had placed. -/
structure VKey where
  tag    : Nat
  slice  : Nat
  space  : Nat
  rights : BitVec 2
  state  : VKeyState := .live
  revoke : Option (Nat × Nat × Nat) := none
deriving DecidableEq, Repr

inductive ConnState where
  | init | live | error
deriving DecidableEq, Repr

/-- A completion record before its phase is known (R341). -/
structure VCpl where
  tag    : Nat
  status : Status
  kind   : Nat
  flags  : Nat := 0
  bytes  : Nat := 0
  imm    : Option (BitVec 32) := none
  index  : Nat := 0
deriving DecidableEq, Repr

/-- A work request taken from the send ring and not yet completed (R338). `msn` is its message, `result` its completion once known. -/
structure Wr where
  tag     : Nat
  signal  : Bool
  isRead  : Bool
  msn     : Nat
  len     : Nat
  space   : Nat
  loc     : Nat
  selector : Option (Nat × Nat) := none
  flags   : Nat := 0
  got     : List (Nat × List Byte) := []
  result  : Option (Status × Nat × Nat) := none
deriving DecidableEq, Repr

/-- A message of this end (R331). `kind` is its packet type; packets `sent` of `count` have left for the first time. -/
structure TxMsg where
  msn     : Nat
  kind    : Nat
  first   : Nat
  count   : Nat
  data    : List Byte
  key     : BitVec 32 := 0
  base    : Nat := 0
  len     : Nat
  imm     : Option (BitVec 32) := none
  status  : Status := 0
  sent    : Nat := 0
  rnr     : Nat := 0
  rnrWait : Bool := false
deriving DecidableEq, Repr

/-- A packet sent and not acknowledged: its PSN, the path of its latest transmission, and what it carries. -/
structure Flying where
  psn  : Nat
  msn  : Nat
  path : Nat
  kind : Nat
  pkt  : Pkt
deriving DecidableEq, Repr

/-- What became of a message that arrives (R340 to R348). -/
inductive RxState where
  | open
  | refused (st : Status)
  | aborted (st : Status)
deriving DecidableEq, Repr

/-- A message as this end receives it. `base` and `space` say where its bytes go and `room` how many may; `entry` is the receive-ring index and `answers` the
msn of the READ_REQ that a READ_RESP answers. `got` bytes and `packets` packets of it have been placed or discarded, `placed` bytes placed; its PSNs are
`first` to `first + count - 1`. -/
structure RxMsg where
  msn     : Nat
  kind    : Nat
  state   : RxState := .open
  base    : Nat := 0
  space   : Nat := 0
  len     : Nat
  room    : Nat := 0
  key     : Option Nat := none
  entry   : Option Nat := none
  answers : Nat := 0
  got     : Nat := 0
  packets : Nat := 0
  placed  : Nat := 0
  imm     : Option (BitVec 32) := none
  first   : Nat := 0
  count   : Nat := 1
deriving DecidableEq, Repr

/-- A held packet (R348): the abs message, the offset in it and its bytes. -/
structure HeldPkt where
  msn    : Nat
  offset : Nat
  data   : List Byte
deriving DecidableEq, Repr

/-- A path of the spray (R351). -/
structure VPath where
  timeouts : Nat := 0
  removed  : Bool := false
deriving DecidableEq, Repr

/-- What waits for a context that is not cached (R355). -/
inductive CtxWait where
  | packet (kind : Nat) (p : Pkt)
  | ack (p : AckPkt)
  | nak (p : NakPkt)
  | abort (p : Pkt) (st : Status)
  | doorbell (send recv : Bool)
deriving DecidableEq, Repr

/-- A connection (R333 to R359). Receive entries below `recvLow` and those in `taken` have been taken by SENDs. `rate` is in units of 10 MB/s; alpha and rate are kept exact. -/
structure Conn where
  slice     : Nat
  state     : ConnState := .init
  cq        : Nat
  sendRing  : Nat
  sendSp    : Nat
  sendLog2  : Nat
  recvRing  : Nat
  recvSp    : Nat
  recvLog2  : Nat
  doorbell  : Nat
  dbSp      : Nat
  peerIp    : Nat := 0
  peerCn    : Nat := 0
  mtu       : Nat := 4096
  peerMtu   : Nat := 4096
  slot      : Option Nat := none
  dir       : Bool := false
  timeoutMs : Nat := 200
  rnrDelay  : Nat := 1
  rnrTries  : Nat := 0
  paths     : List VPath := []
  rotate    : Nat := 0
  sendHead  : Nat := 0
  sendTail  : Nat := 0
  sendSsn   : Nat := 0
  nextMsn   : Nat := 0
  nextPsn   : Nat := 0
  txCum     : Nat := 0
  txDone    : Nat := 0
  wrs       : List Wr := []
  tx        : List TxMsg := []
  flying    : List Flying := []
  posted    : Nat := 0
  recvLow   : Nat := 0
  rxNext    : Nat := 0
  rxGot     : List Nat := []
  rxDone    : Nat := 0
  rx        : Tab Nat RxMsg := []
  taken     : List Nat := []
  held      : List HeldPkt := []
  sinceAck  : Nat := 0
  ackOwed   : Bool := false
  ackPath   : Nat := 0
  ceCount   : Nat := 0
  ctlSeq    : Nat := 0
  heldCpl   : List VCpl := []
  alpha     : Rat := 0
  rate      : Rat := 0
  gLog2     : Nat := 4
  steps     : Nat := 0
  markCut   : Bool := false
  markInc   : Bool := false
  cached    : Bool := true
  lastUse   : Nat := 0
  waiting   : List CtxWait := []
deriving DecidableEq, Repr

/-- VRMT. `closing` are connection numbers not yet given out again (R333); `own` the VN700's IP addresses (R368). -/
structure Vrmt where
  rings   : Tab Nat VrmtRing := []
  cqs     : Tab (Nat × Nat) VrmtCq := []
  keys    : Tab Nat VKey := []
  conns   : Tab Nat Conn := []
  closing : List Nat := []
  clock   : Nat := 0
  own     : List Nat := []
deriving DecidableEq, Repr

end Sys2Proof.Machine
end

