-- ==== Sys2Proof/Machine/State.lean ====
section
/-! DEFINITION. The state of one VN700 as plain data, and the state right after power-on reset. -/

namespace Sys2Proof.Machine

open Sys2Proof

/-- The only stop of the model with a reason of its own. -/
inductive Fault where
  /-- Raised by a command that names a core, die, cluster, channel or port that the VN700 does not have (R50, R116): no such unit
  exists to act. Safe: the machine stops where the hardware has nothing that could go on. -/
  | noSuchUnit
deriving DecidableEq, Repr

/-- Commands without a meaning. -/
inductive Refusal where
  /-- Raised by the dispatcher for a command whose meaning has not been written. Safe: the machine stops. -/
  | notModelled (mnemonic : String)
deriving DecidableEq, Repr

structure State where
  /-- Commands waiting, the oldest first. -/
  pending : List Instr := []
  /-- Memory-mapped registers that have been written; the others hold their reset values (Machine/Regs.lean). -/
  regs    : Tab Reg Nat := []
  /-- The latched high word of a 64-bit register per reader (R6). -/
  latch   : Tab Agent (Reg × Nat) := []
  /-- The value that the last register read returned. -/
  readVal : Nat := 0
  mem     : Memory := []
  keep    : Tab Nat KeepWord := []
  strata  : Strata := {}
  sieve   : Sieve := {}
  mbx     : Tab Caller Mailbox := []
  fw      : Firmware := {}
  irq     : Irq := {}
  pwr     : Power := {}
  ft      : FabricTime := {}
  cmp     : Comparators := {}
  frozen  : Bool := false
  cores   : Tab Nat Core := []
  arr     : TensorArray := {}
  work    : Work := {}
  doms    : Tab Nat Domain := []
  job     : Job := {}
  pci     : Pci := {}
  /-- Slices 1 to 4,095 that exist, and slice 0 once it holds a handle (R313). -/
  slices  : Tab Nat Slice := []
  /-- Mapped host windows (R322): owner, array address, host address, length. -/
  windows : List (Nat × Nat × Nat × Nat) := []
  /-- Bytes of each subport's accelerator window that are mapped (R295, R298). -/
  accel   : Tab Nat Nat := []
  sec     : Security := {}
  vrm     : Vrmt := {}
  net     : Net := {}
  sto     : Storage := {}
  /-- What the part has sent, newest first: the model's own field. -/
  out     : List Emit := []
  /-- How many free values have been drawn: the model's own field. -/
  fresh   : Nat := 0
deriving DecidableEq, Repr

/-- Right after power-on reset: MAIN_PG has risen, every register at the reset value of its table, no keep word written since the
factory, nothing in memory, firmware not yet started. -/
def State.reset : State := {}

end Sys2Proof.Machine
end

