-- ==== Sys2Proof/Machine/Ops.lean ====
section
/-! DEFINITION. The named operations on State that every family uses: registers by their access codes (R3, R5, R6), free values, what
the part sends, memory by address space, and who may act in which power state (R494). -/

namespace Sys2Proof.Machine

open Sys2Proof

/-- The outcome of every command: a next state, a fault or a refusal. -/
abbrev Out := Host.Outcome State Fault Refusal

/-- The command's effect happens while the device is ON and changes nothing otherwise: in OFF, AUX, reset or Hardpan the unit that would
perform it does not run (R494, R507). -/
def whenOn (s : State) (f : State → State) : Out :=
  .next (if s.pwr.state = .on then f s else s)

/-- As whenOn, for a function that remains in Hardpan (R507). -/
def whenMain (s : State) (f : State → State) : Out :=
  .next (if s.pwr.state = .on ∨ s.pwr.state = .hardpan then f s else s)

/-- The value a register holds. -/
def State.reg (s : State) (n : RegName) (i : Nat := 0) : Nat :=
  s.regs.get ⟨n, i⟩ (Reg.reset ⟨n, i⟩)

/-- A register's value replaced by hardware, reduced to the register's width. -/
def State.setReg (s : State) (n : RegName) (v : Nat) (i : Nat := 0) : State :=
  { s with regs := s.regs.set ⟨n, i⟩ (v % 2 ^ n.info.width) }

/-- Field [hi:lo] of a register. -/
def State.fld (s : State) (n : RegName) (hi lo : Nat) (i : Nat := 0) : Nat := natBits (s.reg n i) hi lo

def State.setFld (s : State) (n : RegName) (hi lo v : Nat) (i : Nat := 0) : State :=
  s.setReg n (natSetBits (s.reg n i) hi lo v) i

/-- A counter that rises by `k` and saturates at its register's width. -/
def State.bump (s : State) (n : RegName) (i : Nat := 0) (k : Nat := 1) : State :=
  s.setReg n (satAdd n.info.width (s.reg n i) k) i

/-- As bump, for a count held in bits [hi:lo]. -/
def State.bumpFld (s : State) (n : RegName) (hi lo : Nat) (i : Nat := 0) : State :=
  s.setFld n hi lo (satAdd (hi + 1 - lo) (s.fld n hi lo i) 1) i

/-- A register back at its reset value. -/
def State.clearReg (s : State) (n : RegName) (i : Nat := 0) : State :=
  { s with regs := s.regs.del ⟨n, i⟩ }

/-- Writes ignored where a rule counts them in the debug window (R514). -/
def State.ignored (s : State) : State := s.bump .dbgIgnored

/-- A value written over the fields of a register by their access codes: RW takes the written bits, W1C clears where 1 is
written, RO and RSV keep what they hold (R3, R4). -/
def applyFields (old v : Nat) : List Fld → Nat
  | [] => old
  | f :: r =>
    let o := natBits old f.hi f.lo
    let w := natBits v f.hi f.lo
    let x := match f.acc with
      | .ro => o
      | .rw => w
      | .w1c => Nat.sub o (Nat.land o w)
    applyFields (natSetBits old f.hi f.lo x) v r

/-- Something sent. -/
def State.emit (s : State) (e : Emit) : State := { s with out := e :: s.out }

/-- A free value of `w` bits, and the state in which it has been drawn. -/
def State.draw (s : State) (w : Nat) : Nat × State :=
  (Config.freeValue s.fresh % 2 ^ w, { s with fresh := s.fresh + 1 })

/-- The DRBG can serve a request: its reseed counter is not exhausted, or the entropy source can reseed it (R419, R420). -/
def State.drbgOk (s : State) : Bool := decide (s.sec.drbgUsed < 2 ^ 20) || s.fld .secStatus 12 12 == 1

/-- A value of `w` bits from the device DRBG, one generate request (R419). The reseed that the counter calls for comes first where the entropy source
passes its tests; drbg_ok falls with the last request that the counter allows otherwise (R420). -/
def State.drbg (s : State) (w : Nat) : Nat × State :=
  let ok := s.fld .secStatus 12 12 = 1
  let n := if 2 ^ 20 ≤ s.sec.drbgUsed ∧ ok then 1 else s.sec.drbgUsed + 1
  let t := { s with fresh := s.fresh + 1, sec := { s.sec with drbgUsed := n } }
  (Config.drbg s.fresh % 2 ^ w, if 2 ^ 20 ≤ n ∧ ¬ ok then t.setFld .secStatus 13 13 0 else t)

/-- `n` bytes of a space. -/
def State.bytes (s : State) (sp : Space) (a n : Nat) : List Byte := Memory.readN s.mem (sp.key a) n

def State.store (s : State) (sp : Space) (a : Nat) (l : List Byte) : State :=
  { s with mem := Memory.writeN s.mem (sp.key a) l }

def State.zero (s : State) (sp : Space) (a n : Nat) : State :=
  { s with mem := Memory.clear s.mem (sp.key a) n }

/-- `n` bytes copied between spaces. -/
def State.copy (s : State) (dst : Space) (d : Nat) (src : Space) (a n : Nat) : State :=
  { s with mem := Memory.copy s.mem (dst.key d) (src.key a) n }

/-- A little-endian number of `n` bytes (R1). -/
def State.num (s : State) (sp : Space) (a n : Nat) : Nat := leNat (s.bytes sp a n)

/-- Local time since power-on, in whole seconds. -/
def State.localSec (s : State) : Nat := s.pwr.localNs / 1000000000

def State.core (s : State) (id : Nat) : Core := s.cores.get id {}

def State.setCore (s : State) (id : Nat) (c : Core) : State := { s with cores := s.cores.set id c }

def State.modCore (s : State) (id : Nat) (f : Core → Core) : State := s.setCore id (f (s.core id))

/-- The value of a function's number among the two: 0 PF0, 1 PF1. -/
def pfIdx : Pf → Nat
  | .pf0 => 0
  | .pf1 => 1

def pfAgent : Pf → Agent
  | .pf0 => .pf0
  | .pf1 => .pf1

def pfCaller : Pf → Caller
  | .pf0 => .pf0
  | .pf1 => .pf1

/-- The slice number of a caller: PF0 is slice 0 (R313). -/
def callerNum : Caller → Nat
  | .pf0 => 0
  | .pf1 => 0
  | .slice n => n

end Sys2Proof.Machine
end

