-- ==== Sys2Proof/Machine/Record.lean ====
section
/-! DEFINITION. Sieve trace (R482 to R487) and Strata records (R473 to R481, R539). -/

namespace Sys2Proof.Machine

open Sys2Proof

/-- A record entering its die's buffer (R485, R486). -/
def sieveStore (die : Nat) (r : SieveRec) (s : State) : State :=
  let buf := s.sieve.buf.get die []
  let put (l : List SieveRec) (s : State) : State := { s with sieve := { s.sieve with buf := s.sieve.buf.set die l } }
  let adv (cap : Nat) (s : State) : State := s.setFld .sivStatus 18 0 ((s.fld .sivStatus 18 0 die + 1) % cap) die
  let pre := s.fld .sivCtl 29 26 die * 32768
  match s.fld .sivCtl 2 1 die, s.fld .sivStatus 31 30 die with
  | 1, 1 =>
    let l := (r :: s.sieve.pre.get die []).take pre
    adv 524288 { s with sieve := { s.sieve with pre := s.sieve.pre.set die l } }
  | 1, 2 =>
    let s := adv 524288 (put (r :: buf) s)
    if buf.length + 1 ≥ 524288 - pre - 1 then s.setFld .sivStatus 31 30 3 die else s
  | 0, _ =>
    if s.fld .sivCtl 3 3 die = 1 then
      let cap := s.fld .sivSpill 15 0 die * 32768
      let sp := s.sieve.spill.get die []
      if sp.length < cap then { s with sieve := { s.sieve with spill := s.sieve.spill.set die (r :: sp) } }
      else if s.fld .sivCtl 5 4 die = 1 then
        { s with sieve := { s.sieve with spill := s.sieve.spill.set die ((r :: sp).take cap) } }
      else s.bump .sivDrops die
    else if buf.length < 524288 then adv 524288 (put (r :: buf) s)
    else if s.fld .sivCtl 5 4 die = 1 then adv 524288 (put ((r :: buf).take 524288) s)
    else s.bump .sivDrops die
  | _, _ => s

/-- The die's buffer takes records: enabled, not DONE, and not in Hardpan (R486, R505). -/
def sieveOn (s : State) (die : Nat) : Bool :=
  s.fld .sivCtl 0 0 die == 1 && s.fld .sivStatus 31 30 die != 3 && s.pwr.state == .on

/-- The first trigger while arm is 1 takes its reserved slot; a later one counts as late (R486). `orig` is the die where the trigger arose. -/
def sieveTrigger (die bit : Nat) (s : State) (orig : Nat := die) : State :=
  if natBit (s.reg .sivTrigCause die) bit ∧ s.fld .sivCtl 2 1 die = 1 then
    if s.fld .sivCtl 31 31 die = 1 ∧ s.fld .sivStatus 31 30 die = 1 ∧ s.pwr.state = .on then
      let r : SieveRec := { time := s.ft.now, source := 0, loc := !s.ft.valid, payload := .trigger (bit + 1) orig s.ft.now }
      let s := { s with sieve := { s.sieve with trig := s.sieve.trig.set die r } }
      let s := s.setFld .sivStatus 31 30 2 die
      if s.fld .sivCtl 30 30 die = 1 then { s with frozen := true } else s
    else if s.fld .sivStatus 31 30 die = 2 ∨ s.fld .sivStatus 31 30 die = 3 then s.bump .sivTrigLate die
    else s
  else s

/-- A trace record of source `src` reaches its group's FIFO, or is dropped where the FIFO is full (R483, R484); cause [0] of the
trigger compares it. -/
def sieveRecord (die src : Nat) (p : SievePayload) (s : State) : State :=
  let group := src / 64
  if sieveOn s die = true ∧ natBit (s.reg .sivEn (32 * die + group / 32)) (group % 32) = true then
    let k := die * 1024 + group
    let q := s.sieve.fifo.get k []
    let word := match p with
      | .event d => fieldLE d 0 4
      | _ => 0
    let s :=
      if q.length < 16 then
        let r : SieveRec := { time := s.ft.now, source := src, loc := !s.ft.valid, payload := p }
        { s with sieve := { s.sieve with fifo := s.sieve.fifo.set k (q ++ [r]) } }
      else
        let g := s.sieve.gap.get k {}
        let g : SieveGap := { count := satAdd 32 g.count 1, first := if g.count = 0 then s.ft.now else g.first, last := s.ft.now }
        { s.bump .sivDrops die with sieve := { s.sieve with gap := s.sieve.gap.set k g } }
    let m := s.fld .sivTrigSrc 31 16 die
    if Nat.land src m = Nat.land (s.fld .sivTrigSrc 15 0 die) m ∧
        Nat.land word (s.reg .sivTrigVmask die) = Nat.land (s.reg .sivTrigVal die) (s.reg .sivTrigVmask die) then
      sieveTrigger die 0 s
    else s
  else s

/-- One FIFO drains its oldest record, then its gap record (R484). -/
def sieveDrainOne (k : Nat) (s : State) : State :=
  match s.sieve.fifo.get k [] with
  | r :: q => sieveStore (k / 1024) r { s with sieve := { s.sieve with fifo := s.sieve.fifo.set k q } }
  | [] =>
    match s.sieve.gap.find k with
    | some g =>
      let r : SieveRec := { time := s.ft.now, source := (k % 1024) * 64, loc := !s.ft.valid, payload := .gap g.count g.first g.last }
      (sieveStore (k / 1024) r { s with sieve := { s.sieve with gap := s.sieve.gap.del k } }).bump .sivGaps (k / 1024)
    | none => s

/-- One pass of the round robin: every group that holds something drains one record. -/
def sieveDrain (s : State) : State :=
  (s.sieve.fifo.unzip.1).foldl (fun s k => sieveDrainOne k s) s

/-- `n` occurrences of performance event `ev` in cluster `cl` (R487): each counter that selects it gains one for each `unit` of them. -/
def pmcAdd (cl ev n : Nat) (s : State) (unit : Nat := 1) : State :=
  (List.range 16).foldl (fun s i =>
    let k := cl * 16 + i
    if s.fld .sivPmcCfg 31 31 k = 1 ∧ s.fld .sivPmcCfg 15 0 k = ev then
      let t := s.sieve.pmcRem.get k 0 + n
      let s := if unit = 1 then s else { s with sieve := { s.sieve with pmcRem := s.sieve.pmcRem.set k (t % unit) } }
      s.bump .sivPmc k (if unit = 1 then n else t / unit)
    else s) s

/-- A record identical to another in the sense of R477. -/
def StrataRec.same (a b : StrataRec) : Bool :=
  a.kind == b.kind && a.code == b.code && a.sev == b.sev && a.origin == b.origin && a.inst == b.inst && a.a32 == b.a32 &&
    a.a0 == b.a0 && a.a1 == b.a1 && a.a2 == b.a2 && a.a3 == b.a3

/-- The slot of record number `n` (R475): bedrock below 8,192, then the topsoil ring. -/
def strataSlot (n : Nat) : Nat := if n < 8192 then n else 8192 + (n - 8192) % 131072

/-- The boot count, keep word 1 (R473). -/
def State.bootCount (s : State) : Nat := (s.keep.get 1 { value := 0, kiln := 0 }).value

/-- The Kiln copy of the last record brought up to date in place (R477, R479). -/
def strataSync (s : State) : State :=
  match s.strata.last with
  | none => s
  | some r =>
    let k := strataSlot r.seq
    match s.strata.kiln.find k with
    | some o =>
      if o.seq = r.seq then { s with strata := { s.strata with kiln := s.strata.kiln.set k r } } else s
    | none => s

/-- A new record enters the intake queue with its number (R474, R476). -/
def strataIntake (r : StrataRec) (s : State) : State :=
  let s := strataSync s
  let r := { r with seq := s.strata.nextSeq, boot := s.bootCount % 65536 }
  { s with strata := { s.strata with
      queue := s.strata.queue ++ [r], last := some r, nextSeq := s.strata.nextSeq + 1, used := s.strata.used + 1 } }

/-- The loss record of a new whole second comes before any other record of that second (R476). -/
def strataLoss (s : State) : State :=
  if s.strata.second = s.localSec then s
  else
    let s := { s with strata := { s.strata with second := s.localSec, used := 0 } }
    if s.strata.lostNow = 0 then s
    else
      let n := min s.strata.lostNow (2 ^ 32 - 1)
      let c := s.strata.lostFirst
      let s := { s with strata := { s.strata with lostNow := 0 } }
      strataIntake { kind := .loss, code := St.recordsLost, sev := .warning, a32 := n, a0 := c.toNat } s

/-- An event is recorded: it repeats the last record where identical, takes a new one where the second's allowance and the queue have
room, and is counted as lost otherwise (R476, R477). A record of severity error or fatal is Sieve cause [3]. -/
def logRec (r : StrataRec) (s : State) : State :=
  let s := strataLoss s
  let repeats := match s.strata.last with
    | some l => decide (r.kind = .event) && l.same r && decide (l.repeats < 16777215)
    | none => false
  let s :=
    if repeats = true then
      { s with strata := { s.strata with last := s.strata.last.map (fun l => { l with repeats := l.repeats + 1 }) } }
    else if s.strata.used < (if r.sev = .fatal ∨ r.sev = .error then 16384 else 16320) ∧ s.strata.queue.length < 1024 then
      strataIntake r s
    else
      { s with strata := { s.strata with
          lostNow := s.strata.lostNow + 1, lost := satAdd 32 s.strata.lost 1,
          lostFirst := if s.strata.lostNow = 0 then r.code else s.strata.lostFirst } }
  if r.sev = .fatal ∨ r.sev = .error then sieveTrigger 2 3 (sieveTrigger 1 3 (sieveTrigger 0 3 s)) else s

/-- An event record with its code, severity and arguments. -/
def log (code : Status) (sev : Sev) (s : State) (a32 : Nat := 0) (a0 : Nat := 0) (a1 : Nat := 0) (inst : Nat := 0)
    (origin : Nat := 0) : State :=
  logRec { code := code, sev := sev, a32 := a32, a0 := a0, a1 := a1, inst := inst, origin := origin } s

/-- The oldest record of the intake queue enters the Kiln, with the repeats it has gathered (R476, R477). -/
def strataWrite (s : State) : State :=
  match s.strata.queue with
  | [] => s
  | r :: q =>
    let r := match s.strata.last with
      | some l => if l.seq = r.seq then l else r
      | none => r
    { s with strata := { s.strata with queue := q, kiln := s.strata.kiln.set (strataSlot r.seq) r } }

/-- HUB_FT_STATUS (R33, R35). -/
def ftStatus (s : State) : Nat :=
  s.ft.steps * 2 ^ 24 + s.ft.port * 2 ^ 16 + (if s.ft.slew ≠ 0 then 8 else 0) + (if s.ft.valid then 4 else 0) +
    (match s.ft.state with
      | .free => 0
      | .acquiring => 1
      | .locked => 2
      | .holdover => 3)

/-- A time mark is written, or merged into the mark it would directly follow (R478); the last record's repeats are brought up
to date. -/
def timeMark (s : State) : State :=
  let s := strataLoss s
  let r : StrataRec := {
    kind := .timeMark, code := 0, sev := .advisory, a32 := ftStatus s, a0 := s.ft.now, a1 := s.ft.now
    a2 := s.ft.errBound, a3 := s.localSec }
  let mergeable := match s.strata.last with
    | some l => decide (l.kind = .timeMark) && decide (l.repeats < 16777215)
    | none => false
  if mergeable = true then
    strataSync { s with strata := { s.strata with
      last := s.strata.last.map (fun l => { l with a1 := s.ft.now, a3 := s.localSec, repeats := l.repeats + 1 }) } }
  else logRec r s

/-- The boot record, the first of its boot and never merged, and the time mark that follows it at once (R478). -/
def bootRecord (s : State) : State :=
  let s := { s with strata := { s.strata with last := none } }
  timeMark (logRec {
    kind := .boot, code := 0, sev := .advisory, origin := 1, a0 := s.ft.now, a1 := s.bootCount, a2 := s.strata.torn } s)

end Sys2Proof.Machine
end

