-- ==== Sys2Proof/Machine/Keep.lean ====
section
/-! DEFINITION. Keep words: the keep map (R525), what a write of one is checked for (R414, R415, R519 to R521), and its result (R516 to R518,
R524). -/

namespace Sys2Proof.Machine

open Sys2Proof

/-- Writer classes of R521. -/
inductive KeepClass where
  | h | f | i
deriving DecidableEq, Repr

/-- Which lock of SEC_LIFECYCLE guards a word (R414). -/
inductive KeepLock where
  | none | roster | rp
deriving DecidableEq, Repr

structure KeepInfo where
  cls   : KeepClass
  dflt  : Nat
  mask  : Nat
  lock  : KeepLock := .none
deriving DecidableEq, Repr

/-- The keep map by word index, offset / 4 (R525): class, factory value, the bits that are no RSV field, and lock. -/
def keepInfo (w : Nat) : Option KeepInfo :=
  if w = 0 then some ⟨.i, 1, 0x000F0303, .none⟩
  else if w = 1 then some ⟨.f, 0, 0xFFFFFFFF, .none⟩
  else if w = 2 then some ⟨.f, 0, 0xFFFFFFF3, .none⟩
  else if w = 3 then some ⟨.f, 0, 1, .none⟩
  else if w = 4 then some ⟨.f, 0, 0xF, .none⟩
  else if w < 9 then some ⟨.f, Config.fwFloor (w - 4), 0xFFFFFFFF, .none⟩
  else if w = 16 then some ⟨.h, 0, 0xFFFFFFFF, .rp⟩
  else if w = 17 then some ⟨.h, 0, 0xFFFF, .rp⟩
  else if w = 18 then some ⟨.h, 0x1C860000, 0xFFFF0300, .none⟩
  else if w = 19 then some ⟨.h, 16, 0xFF, .none⟩
  else if w = 20 then some ⟨.h, 600, 0x3FF, .none⟩
  else if w = 21 then some ⟨.h, 0, 3, .none⟩
  else if 64 ≤ w ∧ w < 130 then some ⟨.h, 0, if w % 2 = 1 then 0xFFFF else 0xFFFFFFFF, .none⟩
  else if 256 ≤ w ∧ w < 288 ∧ w % 8 < 5 then some ⟨.h, 0, if w % 8 = 0 then 0xFFFF0003 else 0xFFFFFFFF, .roster⟩
  else if 288 ≤ w ∧ w < 304 then some ⟨.h, 0, 0xFFFFFFFF, .roster⟩
  else if 1024 ≤ w ∧ w < 1088 then
    some ⟨.f, 0x83828180 + 0x04040404 * (w % 4), 0x9F9F9F9F, .none⟩
  else if 1088 ≤ w ∧ w < 1104 then some ⟨.f, 0x30, 0x7FFFFF, .none⟩
  else if 2048 ≤ w ∧ w < 4096 then some ⟨.f, 0, 0x8007FFFF, .none⟩
  else if 4096 ≤ w ∧ w < 4104 ∧ w % 4 < 3 then some ⟨.f, 0, 0xFFFFFFFF, .none⟩
  else if 16384 ≤ w ∧ w < 49152 then some ⟨.f, 0, 0xFFFFFFFF, .none⟩
  else if 49152 ≤ w ∧ w < 53248 then some ⟨.h, 0, 0xFFFFFFFF, .none⟩
  else none

/-- A word with its present state; a word never written holds its factory value. -/
def State.keepWord (s : State) (w : Nat) : KeepWord :=
  let d := match keepInfo w with
    | some i => i.dflt
    | none => 0
  s.keep.get w { value := d, kiln := d }

def State.kw (s : State) (w : Nat) : Nat := (s.keepWord w).value

/-- KEEP word indices used by other chapters. -/
abbrev kLifecycle : Nat := 0
abbrev kBootCount : Nat := 1
abbrev kFwState : Nat := 2
abbrev kShutdown : Nat := 3
abbrev kEmerg : Nat := 4
abbrev kRpCfg : Nat := 16
abbrev kPortMode : Nat := 17
abbrev kVrmCfg : Nat := 18
abbrev kStoCache : Nat := 19
abbrev kTdp : Nat := 20
abbrev kFtCtl : Nat := 21
def kArb (n : Nat) : Nat := 4 + n
def kMac (n : Nat) : Nat := 64 + 2 * n
def kSvc (n : Nat) : Nat := 256 + 8 * n
def kRosterKey : Nat := 288
def kMap (cluster m : Nat) : Nat := 1024 + 4 * cluster + m
def kSpare (cluster : Nat) : Nat := 1088 + cluster
def kRetired (die i : Nat) : Nat := 2048 + 1024 * die + i
def kRetiredUnit (die w : Nat) : Nat := 4096 + 4 * die + w

/-- Four two-bit fields of root-port bifurcation would hold the reserved 0b11. -/
def rpCfgReserved (v : Nat) : Bool := (List.range 8).any (fun p => natBits v (4 * p + 1) (4 * p) == 3)

/-- A value puts a reserved encoding into a field of word `w` (R4, R415, R524). -/
def keepReserved (w old v : Nat) : Bool :=
  if w = kLifecycle then natBits v 19 16 == 15 && natBits old 19 16 != 15
  else if w = kFwState then decide (5 < natBits v 7 4)
  else if w = kRpCfg then rpCfgReserved v
  else if w = kVrmCfg then natBits v 9 8 == 3
  else if w = kStoCache then natBits v 7 0 == 0 || decide (32 < natBits v 7 0)
  else if w = kTdp then decide (natBits v 9 0 < 450) || decide (600 < natBits v 9 0)
  else if 2048 ≤ w ∧ w < 4096 then decide (393215 < natBits v 18 0)
  else false

/-- Bits of `old` that `v` would clear. -/
def clears (old v : Nat) : Bool := Nat.land old v != old

/-- A KM field of word `w` would move against its direction (R520): lifecycle bits only set and its state only rises, rollback floors only
rise, bad slots and retired units are only set. -/
def keepMonotonic (w old v : Nat) : Bool :=
  if w = kLifecycle then
    clears (natBits old 19 16) (natBits v 19 16) || clears (natBits old 9 8) (natBits v 9 8) || decide (natBits v 1 0 < natBits old 1 0)
  else if 5 ≤ w ∧ w < 9 then decide (v < old)
  else if 1088 ≤ w ∧ w < 1104 then clears (natBits old 22 6) (natBits v 22 6)
  else if 4096 ≤ w ∧ w < 4104 then clears old v
  else false

/-- The agents of each writer class (R521). A word named by a rule of its own has only that rule's writers (R74). -/
def keepMayWrite (a : Agent) (w : Nat) (i : KeepInfo) : Bool :=
  match i.cls with
  | .h => a == .pf0 || a == .firmware || (a == .spdm && i.lock != .none)
  | .f => a == .bootRom || a == .firmware || (a == .remapHw && decide (1024 ≤ w ∧ w < 1104)) || (a == .island && w == kEmerg)
  | .i => a == .island

/-- The lock bit that guards a word is set, and the write does not come through an SPDM session (R414). -/
def keepLocked (s : State) (a : Agent) (i : KeepInfo) : Bool :=
  match i.lock with
  | .none => false
  | .roster => natBit (s.kw kLifecycle) 8 && a != .spdm && a != .firmware
  | .rp => natBit (s.kw kLifecycle) 9 && a != .spdm && a != .firmware

/-- The rated number of writes and the number at which a word is reported worn (R519). -/
def keepRated : Nat := 200000000
def keepWornAt : Nat := 180000000

/-- The status with which a write of value `v` to word `w` fails, or none (R414, R515 to R521, R524). RSV bits are ignored (R4). -/
def keepRefusal (s : State) (a : Agent) (w v : Nat) : Option Status :=
  match keepInfo w with
  | none => some St.keepProtected
  | some i =>
    let old := s.kw w
    let v := Nat.land v i.mask
    if keepMayWrite a w i = false then some St.keepProtected
    else if keepLocked s a i = true then some St.locked
    else if keepReserved w old v = true then some St.invalidField
    else if v = old then none
    else if keepMonotonic w old v = true then some St.keepMonotonic
    else if keepRated ≤ (s.keepWord w).changes then some St.keepFrozen
    else none

/-- A word takes a value that changes it: it is read at once, waits for the Kiln in the place of any earlier waiting write, and
counts (R516, R518, R519). -/
def keepAccept (w v : Nat) (s : State) : State :=
  let k := s.keepWord w
  if v = k.value then s
  else
    let n := k.changes + 1
    let s := { s with keep := s.keep.set w { k with value := v, queued := true, changes := n } }
    if n = keepWornAt then (log St.keepWorn .warning s (a32 := w)).bump .keepWorn
    else if n = keepRated then (log St.keepFrozen .error s (a32 := w)).bump .keepFrozenWords
    else s

/-- The result of a function's keep write (R524). -/
def keepWinResult (f : Nat) (w : Nat) (st : Option Status) (s : State) : State :=
  match st with
  | none => s.setFld .keepWinStatus 31 16 0 f
  | some e =>
    let s := s.setFld .keepWinStatus 31 16 e.toNat f
    (s.bumpFld .keepWinStatus 15 0 f).setReg .keepWinFault w f

/-- A write to keep word `w` by agent `a`. -/
def keepWrite (a : Agent) (w v : Nat) (s : State) : State :=
  let r := keepRefusal s a w v
  let s := match r with
    | none => keepAccept w (Nat.land v (match keepInfo w with
        | some i => i.mask
        | none => 0)) s
    | some e =>
      if e = St.keepProtected ∧ (keepInfo w).isSome ∨ a = .pf1 then s.ignored else s
  match a with
  | .pf0 => keepWinResult 0 w r s
  | .pf1 => keepWinResult 1 w r s
  | _ => s

/-- A field of a keep word written by hardware or firmware that its register's own rule names; a frozen word stays (R519). -/
def State.setKw (s : State) (w v : Nat) : State := if keepRated ≤ (s.keepWord w).changes then s else keepAccept w v s

/-- A queued word reaches the Kiln (R516). -/
def keepPersist (w : Nat) (s : State) : State :=
  let k := s.keepWord w
  if k.queued then { s with keep := s.keep.set w { k with kiln := k.value, queued := false } } else s

end Sys2Proof.Machine
end

