-- ==== Sys2Proof/Machine/Irq.lean ====
section
/-! DEFINITION. Events on their way to a core or the host: the cluster interrupt controllers (R460 to R468), messages to the host (R470 to
R472) and mailbox events (R443). -/

namespace Sys2Proof.Machine

open Sys2Proof

/-- Array cycles of a die so far (R51). -/
def State.arrayCycles (s : State) (die : Nat) : Nat := s.arr.tenths.get die 0 / 10

/-- Bit `src` of a per-source word array of cluster `cl`. -/
def State.eicBit (s : State) (n : RegName) (cl src : Nat) : Bool := natBit (s.reg n (8 * cl + src / 32)) (src % 32)

def State.setEicBit (s : State) (n : RegName) (cl src : Nat) (v : Bool) : State :=
  s.setFld n (src % 32) (src % 32) (if v then 1 else 0) (8 * cl + src / 32)

/-- A source's hold-off after its last take still runs (R466). -/
def eicHeldOff (s : State) (cl src : Nat) : Bool :=
  let modr := s.fld .eicSrcCfg 11 0 (256 * cl + src)
  match s.irq.lastTake.find (256 * cl + src) with
  | some t => modr != 0 && decide (s.arrayCycles (cl / 8) < t + modr * 64)
  | none => false

/-- A source is offered to its target: pending, unmasked, inactive, with a priority above 0 (R461), and no hold-off runs (R466). -/
def eicOffered (s : State) (cl src : Nat) : Bool :=
  s.eicBit .eicPending cl src && !s.eicBit .eicMask cl src && !s.eicBit .eicActive cl src &&
    s.fld .eicSrcCfg 23 20 (256 * cl + src) != 0 && !eicHeldOff s cl src

/-- Whether source `b` is presented before `a`: a higher priority, ties to the lower number (R461). -/
def eicBetter (s : State) (cl : Nat) (a b : Nat) : Bool :=
  decide (s.fld .eicSrcCfg 23 20 (256 * cl + a) < s.fld .eicSrcCfg 23 20 (256 * cl + b))

/-- The source the cluster's EIC presents to its core `c`, if any (R461). -/
def eicPresented (s : State) (cl c : Nat) : Option Nat :=
  (List.range 256).foldl (fun best src =>
    if eicOffered s cl src && s.fld .eicSrcCfg 19 16 (256 * cl + src) == c then
      match best with
      | none => some src
      | some b => if eicBetter s cl b src then some src else some b
    else best) none

/-- The event of a source: it becomes pending, an edge that finds it pending merging with it (R461). A source whose target idles in WAITE
escapes its hold-off (R466). -/
def eicEvent (cl src : Nat) (s : State) : State :=
  let s := s.setEicBit .eicPending cl src true
  let target := cl * 16 + s.fld .eicSrcCfg 19 16 (256 * cl + src)
  match (s.core target).run with
  | .waiting _ _ _ => { s with irq := { s.irq with lastTake := s.irq.lastTake.del (256 * cl + src) } }
  | _ => s

/-- A write of EIC_COMPLETE (R463). -/
def eicComplete (cl src : Nat) (s : State) : State :=
  if src < 256 ∧ s.eicBit .eicActive cl src = true then s.setEicBit .eicActive cl src false
  else s.bump .eicBadComplete cl

/-- Every source of a cluster that targets logical core `c` made inactive, pending kept (R465). -/
def eicRelease (cl c : Nat) (s : State) : State :=
  (List.range 256).foldl (fun s src =>
    if s.fld .eicSrcCfg 19 16 (256 * cl + src) = c then s.setEicBit .eicActive cl src false else s) s

/-- The EIC of a cluster at its reset values (R465). -/
def eicReset (cl : Nat) (s : State) : State :=
  { s with
    regs := s.regs.keep (fun r _ => match r.name with
      | .eicSrcCfg => r.idx / 256 != cl
      | .eicVbase => r.idx / 16 != cl
      | .eicMask | .eicPending | .eicActive => r.idx / 8 != cl
      | .eicBadComplete => r.idx != cl
      | _ => true)
    irq := { s.irq with lastTake := s.irq.lastTake.keep (fun k _ => k / 256 != cl) } }

/-- The number of the function whose requests carry a caller's messages. -/
def msiPf (s : State) : Caller → Nat
  | .pf0 => 0
  | .pf1 => 1
  | .slice n => pfIdx (s.slices.get n {}).parent

/-- An entry of the slice interrupt table, or an MSI-X vector, which PCI Express resets to masked. -/
def State.irqEntry (s : State) (o : Caller) (i : Nat) : IrqEntry :=
  s.irq.entries.get (o, i) (match o with
    | .slice _ => {}
    | _ => { mask := true })

/-- An entry's messages wait: it is masked, its function's MSI-X is masked or disabled, its function may issue nothing, or the
host link serves none (R289, R300, R305, R309, R470). -/
def msiBlocked (s : State) (o : Caller) (e : IrqEntry) : Bool :=
  let f := msiPf s o
  e.mask || !s.pci.bme.get f false || s.fld .pciHostStatus (9 + 2 * f) (8 + 2 * f) == 3 || s.pci.flr.contains (if f = 0 then .pf0 else .pf1) ||
    !s.pci.hostUp || s.fld .pciHostStatus 7 7 == 1 ||
    (match o with
      | .slice _ => false
      | _ => s.irq.fmask.get f false || !s.irq.enable.get f false)

/-- One message of an entry, or its pending bit (R470, R472). -/
def irqSend (o : Caller) (i : Nat) (s : State) : State :=
  let e := s.irqEntry o i
  if msiBlocked s o e then
    { s with irq := { s.irq with entries := s.irq.entries.set (o, i) { e with pending := true } } }
  else
    ({ s with irq := { s.irq with entries := s.irq.entries.set (o, i) { e with pending := false, acc := 0 } } }).emit (.msi o i)

/-- An event that names entry `i` of `o`: a message once `count` events have gathered, a count of 0 or 1 standing for every event (R471, R472). The
end of an entry's interval is IRQ_MODERATION_INTERVAL. -/
def irqEvent (o : Caller) (i : Nat) (s : State) : State :=
  let e := s.irqEntry o i
  let valid := match o with
    | .slice _ => e.valid
    | _ => true
  if valid then
    let e := { e with acc := e.acc + 1 }
    let s := { s with irq := { s.irq with entries := s.irq.entries.set (o, i) e } }
    if e.count ≤ e.acc then irqSend o i s
    else if e.mask then { s with irq := { s.irq with entries := s.irq.entries.set (o, i) { e with pending := true } } }
    else s
  else s

/-- A source that names no entry of its own reaches the entries that bind it (R471). -/
def irqSource (src : IrqSource) (s : State) : State :=
  s.irq.entries.foldl (fun s p => if p.2.bindings.contains src then irqEvent p.1.1 p.1.2 s else s) s

def State.mailbox (s : State) (c : Caller) : Mailbox := s.mbx.get c {}

def State.setMailbox (s : State) (c : Caller) (m : Mailbox) : State := { s with mbx := s.mbx.set c m }

/-- The mailbox interrupt of a function or slice (R470, R321). -/
def mbxInterrupt (c : Caller) (s : State) : State :=
  match c with
  | .slice n =>
    s.irq.entries.foldl (fun s p =>
      if p.1.1 = .slice n ∧ p.2.bindings.contains .mailbox then irqEvent p.1.1 p.1.2 s else s) s
  | c => irqEvent c 0 s

/-- The number of a mailbox among the registers: 0 PF0, 1 PF1, 2 + n slice n. -/
def mbxIdx : Caller → Nat
  | .pf0 => 0
  | .pf1 => 1
  | .slice n => 2 + n

/-- An event for a mailbox that has negotiated events; the 65th is dropped and sets overflow (R443). -/
def mbxEvent (c : Caller) (code arg : Nat) (s : State) : State :=
  let m := s.mailbox c
  match m.negotiated with
  | some (_, map) =>
    if map.getLsbD 0 then
      if m.events.length < 64 then
        let s := s.setMailbox c { m with events := m.events ++ [⟨code, arg⟩] }
        if natBit (s.reg .mbxIrq (mbxIdx c)) 1 then mbxInterrupt c s else s
      else s.setMailbox c { m with overflow := true }
    else s
  | none => s

end Sys2Proof.Machine
end

