-- ==== Sys2Proof/Machine/Mailbox.lean ====
section
/-! DEFINITION. The Napor mailbox: doorbells, which requests are served, replies (R437 to R445, R459). -/

namespace Sys2Proof.Machine

open Sys2Proof

/-- The firmware services by the number of their first core (the services table of chapter 17). -/
abbrev svcMailbox : Nat := 0
abbrev svcPower : Nat := 1
abbrev svcSecurity : Nat := 2
abbrev svcRemap : Nat := 3
abbrev svcTime : Nat := 4
abbrev svcBringup : Nat := 5
abbrev svcArray : Nat := 6
abbrev svcDomain : Nat := 8
abbrev svcSlice : Nat := 9
abbrev svcNet : Nat := 10
abbrev svcUpdate : Nat := 12
abbrev svcTelemetry : Nat := 13

def State.service (s : State) (n : Nat) : Service := s.fw.services.get n { core := n }

def svcRuns (s : State) (n : Nat) : Bool := (s.service n).state == .running

/-- A row of the opcode table (R445): who may send it, the feature bit it needs (R443), the service that serves it. -/
structure OpInfo where
  pf0     : Bool := true
  pf1     : Bool := false
  slice   : Bool := false
  feature : Option Nat := none
  svc     : Nat
deriving DecidableEq, Repr

/-- The opcodes of R445. R298 gives OWNED_RESET to the owner of a partition too. -/
def opInfo (op : Nat) : Option OpInfo :=
  if op = 0x1001 then some { pf1 := true, slice := true, feature := some 11, svc := svcUpdate }
  else if 0x1002 ≤ op ∧ op ≤ 0x1007 then some { pf1 := true, feature := some 11, svc := svcUpdate }
  else if op = 0x1008 then some { pf1 := true, feature := some 12, svc := svcUpdate }
  else if op = 0x1009 then some { svc := svcMailbox }
  else if op = 0x100A ∨ op = 0x100B then some { svc := svcMailbox }
  else if op = 0x100C then some { svc := svcTime }
  else if op = 0x100E then some { svc := svcBringup }
  else if op = 0x100D ∨ op = 0x100F then some { pf1 := true, slice := true, svc := svcTime }
  else if op = 0x2001 ∨ op = 0x2002 then some { slice := true, feature := some 3, svc := svcArray }
  else if op = 0x3007 then some { slice := true, feature := some 14, svc := svcDomain }
  else if op = 0x3009 then some { slice := true, feature := some 5, svc := svcDomain }
  else if 0x3001 ≤ op ∧ op ≤ 0x300A then some { slice := true, feature := some 4, svc := svcDomain }
  else if op = 0x4001 then some { slice := true, feature := some 6, svc := svcNet }
  else if op = 0x4002 ∨ op = 0x4003 then some { feature := some 6, svc := svcNet }
  else if op = 0x5001 ∨ op = 0x5002 then some { feature := some 7, svc := svcNet }
  else if op = 0x5003 then some { svc := svcNet }
  else if 0x6001 ≤ op ∧ op ≤ 0x6006 then some { feature := some 8, svc := svcNet }
  else if op = 0x6007 then some { slice := true, feature := some 9, svc := svcNet }
  else if op = 0x7001 ∨ op = 0x7002 then some { slice := true, svc := svcSlice }
  else if op = 0x7003 ∨ op = 0x7006 then some { svc := svcSlice }
  else if op = 0x7004 then some { slice := true, feature := some 10, svc := svcSlice }
  else if op = 0x7005 then some { feature := some 10, svc := svcSlice }
  else if 0x8001 ≤ op ∧ op ≤ 0x8004 then some { feature := some 2, svc := svcSlice }
  else if 0x9001 ≤ op ∧ op ≤ 0x9008 then some { slice := true, feature := some 13, svc := svcSecurity }
  else if op = 0x9010 ∨ op = 0x9011 then some { feature := some 13, svc := svcSecurity }
  else if op = 0xA001 then some { pf1 := true, slice := true, svc := svcMailbox }
  else none

/-- The requests that the recovery handler serves in Hardpan (R459). -/
def hardpanServes (op : Nat) : Bool := decide (0x1001 ≤ op ∧ op ≤ 0x1007) || op == 0x100A

/-- The mailbox takes requests: its service runs, or the recovery handler serves PF0 (R439, R459). -/
def mbxReady (s : State) (c : Caller) : Bool :=
  if s.pwr.state = .hardpan then c == .pf0 else s.pwr.state == .on && svcRuns s svcMailbox

/-- The status with which a request is refused before its own checks, with the field at fault (R437, R443 to R445, R453, R459, R269). -/
def mbxRefusal (s : State) (c : Caller) (f : Frame) : Option Reply :=
  if 1776 < f.length then some { status := St.lenTooLarge, field := 4 }
  else match opInfo f.opcode with
  | none => some { status := if s.pwr.state = .hardpan then St.serviceDown else St.unsupported }
  | some i =>
    if s.pwr.state = .hardpan then
      if hardpanServes f.opcode then none else some { status := St.serviceDown }
    else if (match c with
        | .pf0 => i.pf0
        | .pf1 => i.pf1
        | .slice _ => i.slice) = false then some { status := St.unsupported }
    else if s.fw.shutDown then some { status := St.retry }
    else
      let free := f.opcode == 0xA001 || f.opcode == 0x1001 || f.opcode == 0x1008
      match (s.mailbox c).negotiated with
      | none => if free then none else some { status := St.notNegotiated }
      | some (_, map) =>
        match i.feature with
        | some b => if map.getLsbD b then none else some { status := St.unsupported }
        | none => none

/-- The reply is in the reply frame: done 1, busy 0, and the mailbox interrupt where MBX_IRQ asks for it (R438, R439). -/
def mbxReply (c : Caller) (r : Reply) (s : State) : State :=
  let m := s.mailbox c
  let (op, sq) := match m.frame with
    | some f => (f.opcode, f.seq)
    | none => (0, 0)
  let r := { r with opcode := op, seq := sq }
  if m.busy = false then s
  else
  let s := s.setMailbox c { m with reply := some r, done := true, busy := false, taken := false, committed := false, frame := none }
  if natBit (s.reg .mbxIrq (mbxIdx c)) 0 then mbxInterrupt c s else s

/-- A write of MBX_DOORBELL (R439): it submits the frame, is counted as overrun while busy, and is held while ready is 0. -/
def mbxDoorbell (c : Caller) (v : Word) (f : Frame) (s : State) : State :=
  let m := s.mailbox c
  if v ≠ 1 then s
  else if m.busy then s.setMailbox c { m with overrun := satAdd 16 m.overrun 1 }
  else s.setMailbox c { m with frame := some f, busy := true, done := false, taken := mbxReady s c }

/-- A held request is taken when the service starts (R439). -/
def mbxTakeHeld (c : Caller) (s : State) : State :=
  let m := s.mailbox c
  if m.busy ∧ !m.taken ∧ mbxReady s c then s.setMailbox c { m with taken := true } else s

/-- The state of the service that serves an opcode: a class 0x9 request needs no control core (R440). -/
def opSvcState (s : State) (op : Nat) : SvcState :=
  if s.pwr.state = .hardpan ∨ op / 4096 = 9 then .running
  else match opInfo op with
  | some i => (s.service i.svc).state
  | none => .running

/-- Mailbox `c` holds a request of opcode `op` that a service has taken. -/
def mbxHolds (s : State) (c : Caller) (op : Nat) : Option Frame :=
  let m := s.mailbox c
  match m.frame with
  | some f => if m.busy && m.taken && !m.committed && f.opcode == op then some f else none
  | none => none

/-- The service performs the request of opcode `op` that mailbox `c` holds, and replies; a reply that comes later is `none`, the request being past its commit point (R267). Without such
a request, nothing happens. A held-down service answers SERVICE_DOWN (R269); a restarting one lets it wait. -/
def mbxServe (c : Caller) (op : Nat) (s : State) (body : Frame → State → Option Reply × State) : State :=
  match mbxHolds s c op with
  | none => s
  | some f =>
    match mbxRefusal s c f with
    | some r => mbxReply c r s
    | none =>
      match opSvcState s op with
      | .heldDown => mbxReply c { status := St.serviceDown } s
      | .running =>
        match body f s with
        | (some r, t) => mbxReply c r t
        | (none, t) => t.setMailbox c { t.mailbox c with committed := true }
      | _ => s

/-- A refusal by a request's own checks: nothing is done. -/
def refuse (st : Status) (s : State) (field : Nat := 0xFFFF) : Option Reply × State :=
  (some { status := st, field := field }, s)

/-- A refusal that names the request's field number `i`. -/
def refuseAt (op i : Nat) (st : Status) (s : State) : Option Reply × State :=
  refuse st s (Config.payloadOffset op i % 65536)

def accept (s : State) (results : List Nat := []) : Option Reply × State := (some { results := results }, s)

/-- Where a caller's buffer address lies: its DDR allocation in the array map, or its own space (R314, R437). -/
def callerSpace (c : Caller) (a : Nat) : Space :=
  if 0x010000000000 ≤ a ∧ a < 0x01C000000000 then .array
  else match c with
  | .pf0 => .host 0
  | .pf1 => .host 4096
  | .slice n => .host n

/-- The firmware's feature map (R443). -/
def firmwareMap : BitVec 256 := BitVec.ofNat 256 0x1FFFF

/-- NEGOTIATE (R442). -/
def negotiateReq (c : Caller) (major minor : Byte) (features : BitVec 256) (s : State) : Option Reply × State :=
  let reply := [1, 0]
  if major ≠ 1 then (some { status := St.versionMismatch, results := reply }, s)
  else
    let map := features &&& firmwareMap
    accept (s.setMailbox c { s.mailbox c with negotiated := some (min minor.toNat 0, map) }) (reply ++ [map.toNat])

/-- A write of MBX_EVT_POP removes the oldest event (R443). -/
def mbxEvtPop (c : Caller) (s : State) : State :=
  s.setMailbox c { s.mailbox c with events := (s.mailbox c).events.tail }

/-- A mailbox loses its negotiation (R443). -/
def mbxForget (c : Caller) (s : State) : State := s.setMailbox c { s.mailbox c with negotiated := none }

end Sys2Proof.Machine
end

