-- ==== Sys2Proof/Machine/Protect.lean ====
section
/-! DEFINITION. The array address map (R58 to R60), and every store into it: reservations (R134), uncorrectable words (R53, R265), the watch over
protected grains with its copy-on-write saves and stalls (R177, R183, R220 to R222). -/

namespace Sys2Proof.Machine

open Sys2Proof

/-- What an array address names (R58, R515). -/
inductive ArrKind where
  | core (id : Nat)
  | cluster (cl : Nat)
  | tns (off : Nat)
  | silt (die off : Nat)
  | ddr (off : Nat)
  | host (owner addr : Nat)
  | accel (sub off : Nat)
  | nowhere
deriving DecidableEq, Repr

abbrev ddrBase : Nat := 0x010000000000
abbrev tnsBase : Nat := 0x000200000000
def coreBase (id : Nat) : Nat := 0x000100000000 + id * 0x100000
def clusterBase (cl : Nat) : Nat := 0x000110000000 + cl * 0x800000
def siltBase (die : Nat) : Nat := 0x000400000000 + die * 0x80000000

/-- The spare map's entry of a logical core (R74): whether present, and its physical slot. -/
def coreSlot (s : State) (id : Nat) : Option Nat :=
  let e := natBits (s.kw (kMap (id / 16) (id % 16 / 4))) (8 * (id % 4) + 7) (8 * (id % 4))
  if e / 128 = 1 then some (e % 32) else none

def corePresent (s : State) (id : Nat) : Bool := (coreSlot s id).isSome

/-- The number of subports of a root port (R293, R294). -/
def subportCount (s : State) (p : Nat) : Nat :=
  match natBits (s.reg .pciRpActive) (4 * p + 1) (4 * p) with
  | 0 => 1
  | 1 => 2
  | _ => 4

/-- What array address `a` names, and nothing where it is unpopulated (R58, R59). -/
def arrKind (s : State) (a : Nat) : ArrKind :=
  if 0x000100000000 ≤ a ∧ a < 0x000110000000 then
    let id := (a - 0x000100000000) / 0x100000
    if corePresent s id then .core id else .nowhere
  else if 0x000110000000 ≤ a ∧ a < 0x000118000000 then .cluster ((a - 0x000110000000) / 0x800000)
  else if tnsBase ≤ a ∧ a < 0x000210000000 then .tns (a - tnsBase)
  else if 0x000400000000 ≤ a ∧ a < 0x000460000000 then .silt 0 (a - 0x000400000000)
  else if 0x000480000000 ≤ a ∧ a < 0x0004E0000000 then .silt 1 (a - 0x000480000000)
  else if ddrBase ≤ a ∧ a < ddrBase + Config.ddrBytes then .ddr (a - ddrBase)
  else if 0x040000000000 ≤ a ∧ a < 0x050000000000 then
    match s.windows.find? (fun w => decide (w.2.1 ≤ a ∧ a < w.2.1 + w.2.2.2)) with
    | some w => .host w.1 (a - w.2.1 + w.2.2.1)
    | none => .nowhere
  else if 0x800000000000 ≤ a ∧ a < 0x1000000000000 then
    let o := a - 0x800000000000
    let p := o / 0x100000000000
    let n := subportCount s p
    let len := 0x100000000000 / n
    let sub := 4 * p + (o % 0x100000000000) / len
    let off := o % len
    if off < s.accel.get sub 0 then .accel sub off else .nowhere
  else .nowhere

/-- Every byte of a span is populated. Spans are checked at each 64 KiB step and at their end, the granularity of every populated range's
bounds but a window's, whose end is checked by its own length. -/
def spanPopulated (s : State) (a len : Nat) : Bool :=
  len == 0 || ((List.range (len / 65536 + 1)).all (fun i => arrKind s (a + i * 65536) != .nowhere) &&
    arrKind s (a + len - 1) != .nowhere)

/-- Where an array address's bytes are held: a host window's in the host's memory. -/
def State.loc (s : State) (a : Nat) : Space × Nat :=
  match arrKind s a with
  | .host o h => (.host o, h)
  | _ => (.array, a)

/-- `n` bytes read from array address `a`. -/
def State.load (s : State) (a n : Nat) : List Byte := let l := s.loc a; s.bytes l.1 l.2 n

def State.loadNum (s : State) (a n : Nat) : Nat := leNat (s.load a n)

/-- The size of the ECC word that holds address `a` (R53, R265). -/
def eccSize (a : Nat) : Nat :=
  if a < 0x000118000000 then 8 else if a < ddrBase then 32 else 64

/-- An uncorrectable word lies in a span. -/
def eccHit (s : State) (a len : Nat) : Option Nat :=
  s.arr.eccBad.find? (fun w => decide (w < a + len ∧ a < w + eccSize w))

/-- A store would cover only part of an uncorrectable word (R53). -/
def eccPartial (s : State) (a len : Nat) : Option Nat :=
  s.arr.eccBad.find? (fun w => decide (w < a + len ∧ a < w + eccSize w ∧ ¬ (a ≤ w ∧ w + eccSize w ≤ a + len)))

def State.dom (s : State) (d : Nat) : Option Domain := s.doms.find d

def State.setDom (s : State) (d : Nat) (D : Domain) : State := { s with doms := s.doms.set d D }

def State.modDom (s : State) (d : Nat) (f : Domain → Domain) : State :=
  match s.dom d with
  | some D => s.setDom d (f D)
  | none => s

def Domain.grain (D : Domain) (k : Nat) : Grain := D.grains.get k D.grain0

def State.setGrain (s : State) (d k : Nat) (g : Grain) : State :=
  s.modDom d (fun D => { D with grains := D.grains.set k g })

def grainKey (region i : Nat) : Nat := region * 2 ^ 24 + i

/-- The domain and grain whose protected bytes hold DDR offset `o` (R177). -/
def grainAt (s : State) (o : Nat) : Option (Nat × Nat) :=
  s.doms.findSome? (fun p =>
    p.2.regions.findSome? (fun r =>
      if r.2.protBase ≤ o ∧ o < r.2.protBase + r.2.length then some (p.1, grainKey r.1 ((o - r.2.protBase) / 65536)) else none))

/-- The DDR offset of a grain's first byte. -/
def Domain.grainOff (D : Domain) (k : Nat) : Nat :=
  match D.regions.find (k / 2 ^ 24) with
  | some r => r.protBase + k % 2 ^ 24 * 65536
  | none => 0

/-- The number of the next snapshot to be declared at this member (R183; assumption 20). -/
def nextSnapshot (s : State) (d : Nat) : Nat :=
  let decl := s.reg .cadDeclaredSteep d
  let k := match s.dom d with
    | some D => match D.boundaries with
      | b :: _ => b.steep
      | [] => s.reg .cadSteepCount d
    | none => 0
  if natBit decl 63 then k else max k (decl % 2 ^ 48 + 1)

/-- The lowest free slot of the COW reserve (R220). -/
def cowFree (D : Domain) : Option Nat := firstBelow (D.cow.length + 1) (fun i => !D.cow.contains i && decide (i < D.cowGib * 16384))

/-- A write reaches a grain: its state moves, saving the declared content of a PENDING grain first; `none` where no COW slot is free and
the write stalls (R183, R220, R221). -/
def grainWrite (d k : Nat) (s : State) : Option State :=
  match s.dom d with
  | none => some s
  | some D =>
    let g := D.grain k
    let dirty : Grain := { st := .dirty, tag := nextSnapshot s d, lastWrite := s.ft.now }
    match g.st with
    | .clean => some (s.setGrain d k dirty)
    | .dirty => some (s.setGrain d k { g with lastWrite := s.ft.now, crc := none, tag := nextSnapshot s d })
    | .pendingCow => some (s.setGrain d k { g with lastWrite := s.ft.now, crc := none })
    | .pending =>
      match cowFree D with
      | none => none
      | some slot =>
        let s := s.copy (.cow d) (slot * 65536) .array (ddrBase + D.grainOff k) 65536
        let s := s.setGrain d k { g with st := .pendingCow, cow := some slot, lastWrite := s.ft.now, crc := none }
        let s := s.modDom d (fun D => { D with cow := slot :: D.cow })
        let used := D.cow.length + 1
        let s := s.setReg .cadCowUsed used d
        let s := s.setReg .cadCowPeak (max used (s.reg .cadCowPeak d)) d
        some (s.bump .cadCowSaves d)

/-- Reservations on the granules of a span end (R134). -/
def endReservations (a len : Nat) (s : State) : State :=
  { s with cores := s.cores.map (fun _ c =>
      match c.resv with
      | some r => if r.granule < a + len ∧ a < r.granule + 64 then { c with resv := none } else c
      | none => c) }

/-- Bytes stored at array address `a`, whole ECC words taking fresh ECC. -/
def rawStore (a : Nat) (l : List Byte) (s : State) : State :=
  let s := endReservations a l.length s
  let s := { s with arr := { s.arr with
    eccBad := s.arr.eccBad.filter (fun w => !decide (a ≤ w ∧ w + eccSize w ≤ a + l.length)) } }
  let p := s.loc a
  s.store p.1 p.2 l

/-- A store that lies within one grain or in none. A write to a halted domain's state after a failed recovery changes nothing (R261); a
write that finds no COW slot, or a grain on which the same requester is stalled, is held (R221). -/
def storeIn (who : Agent) (a : Nat) (l : List Byte) (s : State) : State :=
  match arrKind s a with
  | .nowhere => s
  | .accel sub off => s.emit (.busWrite (sub + 1) off l)
  | .ddr o =>
    match grainAt s o with
    | none => rawStore a l s
    | some (d, k) =>
      match s.dom d with
      | none => rawStore a l s
      | some D =>
        if s.fld .cadRecoveryInfo 3 0 d = 5 then s
        else
          let hold (s : State) : State :=
            s.modDom d (fun D => { D with stalled := D.stalled ++ [⟨who, k, a, l, s.pwr.localNs⟩] })
          if D.stalled.any (fun w => w.grain == k && w.who == who) then hold s
          else match grainWrite d k s with
          | some t => rawStore a l t
          | none => (hold s).bump .cadCowStalls d
  | _ => rawStore a l s

/-- A store of any length, 64 KiB block by block, since a grain is a 64 KiB-aligned block of DDR (R175). -/
def storeBlocks (who : Agent) : Nat → Nat → List Byte → State → State
  | 0, _, _, s => s
  | n + 1, a, l, s =>
    if l.isEmpty then s
    else
      let k := 65536 - a % 65536
      storeBlocks who n (a + k) (l.drop k) (storeIn who a (l.take k) s)

/-- Every store into the array address map. -/
def memStore (who : Agent) (a : Nat) (l : List Byte) (s : State) : State :=
  storeBlocks who (l.length / 65536 + 2) a l s

/-- A zeroing of a whole range, as R148, R150 and R163 require, with fresh ECC. -/
def zeroRange (a len : Nat) (s : State) : State :=
  let s := endReservations a len s
  { s.zero .array a len with arr := { s.arr with
    eccBad := s.arr.eccBad.filter (fun w => !decide (a ≤ w ∧ w + eccSize w ≤ a + len)) } }

/-- A stall on grain `k` ends: its writes proceed in order, and its length is added to CAD_STALL_US (R221). -/
def endStalls (d k : Nat) (s : State) : State :=
  match s.dom d with
  | none => s
  | some D =>
    let mine := D.stalled.filter (fun w => w.grain == k)
    let us := match mine with
      | w :: _ => (s.pwr.localNs - w.since) / 1000
      | [] => 0
    let s := s.setDom d { D with stalled := D.stalled.filter (fun w => w.grain != k) }
    mine.foldl (fun s w => storeIn w.who w.addr w.data s) (s.bump .cadStallUs d us)

/-- Bytes of a namespace written by the part's own deep checkpoints (R236): in DDR for a RAM namespace; else in the backing and in any cached copy. -/
def nsPut (ns off : Nat) (l : List Byte) (s : State) : State :=
  match s.sto.nss.find ns with
  | some n => if n.kind = 0 then rawStore (ddrBase + n.ddrBase + off) l s else (s.store (.backing ns) off l).store (.cache ns) off l
  | none => s.store (.backing ns) off l

/-- The cache holds a block of a namespace. -/
def blockCached (s : State) (ns b : Nat) : Bool := s.sto.extents.any (fun e => e.ns == ns && decide (e.lba ≤ b ∧ b < e.lba + e.n))

def blockSize (n : Nspace) : Nat := if n.lba512 then 512 else 4096

/-- Bytes of a namespace as its latest writes left them. -/
def nsGet (s : State) (ns off len : Nat) : List Byte :=
  match s.sto.nss.find ns with
  | some n =>
    if n.kind = 0 then s.bytes .array (ddrBase + n.ddrBase + off) len
    else (List.range len).flatMap (fun i =>
      s.bytes (if blockCached s ns ((off + i) / blockSize n) then .cache ns else .backing ns) (off + i) 1)
  | none => s.bytes (.backing ns) off len

end Sys2Proof.Machine
end

