-- ==== Sys2Proof/Machine/Message.lean ====
section
/-! DEFINITION. Caddy, recovery and bring-up messages between the devices of a job: who is who in the roster (R238, R246, R281), routes (R219),
sending with a hop's own sequence (R217) and the receive checks (R218). -/

namespace Sys2Proof.Machine

open Sys2Proof

/-- This device's number in the job: its roster index, or 0x8000 plus its spare position (R273). -/
def selfId (s : State) : Nat :=
  match s.job.index with
  | some i => i
  | none => match s.job.sparePos with
    | some q => 0x8000 + q
    | none => 0xFFFF

/-- Roster size. -/
def rosterSize (s : State) : Nat :=
  match s.job.roster with
  | some r => r.members.length
  | none => 0

def spareCount (s : State) : Nat :=
  match s.job.roster with
  | some r => max r.spares.length s.job.positions
  | none => 0

def buddyOf (n i : Nat) : Nat := (i + 1) % n
def neighbourOf (n i : Nat) : Nat := (i + n - 1) % n

/-- The tree parent of a device (R219, R281). -/
def parentOf (i : Nat) : Nat :=
  if i < 0x8000 then (i - 1) / 32
  else
    let q := i - 0x8000
    if q < 32 then 0 else 0x8000 + (q / 32 - 1)

/-- Tree and spare-tree children (R219, R281). -/
def childrenOf (s : State) (i : Nat) : List Nat :=
  let spare (l : List Nat) := (l.filter (fun q => decide (q < spareCount s))).map (· + 0x8000)
  if i < 0x8000 then
    ((List.range 32).map (fun j => 32 * i + 1 + j)).filter (fun c => decide (c < rosterSize s)) ++
      (if i = 0 then spare (List.range 32) else [])
  else spare ((List.range 32).map (fun j => 32 * (i - 0x8000 + 1) + j))

/-- The child of `i` on the path down to `j`; the bound is the tree's depth. -/
def childToward (i : Nat) : Nat → Nat → Nat
  | 0, j => j
  | n + 1, j => if parentOf j = i then j else childToward i n (parentOf j)

/-- The next hop from this device toward `dest` (R219), past a hop that gave no completion. -/
def nextHop (s : State) (dest : Nat) : Nat :=
  let me := selfId s
  let n := rosterSize s
  let direct := me < 0x8000 ∧ (dest = buddyOf n me ∨ dest = neighbourOf n me ∨ me + dest = 1) ∨ dest = parentOf me ∧ me ≠ 0 ∨
    dest ∈ childrenOf s me
  let hop :=
    if direct then dest
    else if me = 0 then childToward 0 4 dest
    else if dest ≤ 1 then parentOf me
    else childToward me 4 dest
  if s.job.bypass.contains hop then (if hop = 0 then (if me = 1 then childToward 0 4 dest else 1) else if hop = parentOf me then parentOf hop else dest) else hop

/-- A control message sent to the next hop toward `dest`, with that hop's next sequence number (R217). -/
def sendMsg (dest : Nat) (m : Msg) (s : State) : State :=
  let hop := nextHop s dest
  let h := s.job.hops.get hop {}
  let s := { s with job := { s.job with hops := s.job.hops.set hop { h with tx := h.tx + 1 } } }
  s.emit (.msg hop { m with seq := BitVec.ofNat 64 (h.tx + 1), hop := hop, auth := true })

/-- A message passed down the tree to every child (R219). Index 1 reaches the children of index 0 too once index 0 has departed (R246). -/
def sendDown (m : Msg) (s : State) : State :=
  let me := selfId s
  let orphan : Bool := me == 1 && (match s.dom m.domain.toNat with
    | some D => D.gone.contains 0
    | none => false)
  let l := childrenOf s me ++ (if orphan then (childrenOf s 0).filter (· != 1) else [])
  l.foldl (fun s c => sendMsg c m s) s

/-- The domain's recovery epoch (R217, R248). -/
def State.epoch (s : State) (d : Nat) : Nat := s.fld .cadRecoveryStatus 13 0 d

/-- A message of this device for domain `d`, every field not named zero (R215). -/
def mkMsg (s : State) (d type : Nat) (steep : Nat := 0) (status : Status := 0) (region : Nat := 0) (a : Nat := 0) (b : Nat := 0)
    (c : Nat := 0) (flags : Nat := 0) (payload : List Byte := []) : Msg :=
  { type := BitVec.ofNat 8 type
    domain := BitVec.ofNat 6 d
    sender := BitVec.ofNat 16 (selfId s)
    steep := BitVec.ofNat 48 steep
    epoch := BitVec.ofNat 14 (s.epoch d)
    region := BitVec.ofNat 8 region
    flags := BitVec.ofNat 8 flags
    status := status
    a := BitVec.ofNat 32 a
    b := BitVec.ofNat 32 b
    c := BitVec.ofNat 64 c
    seq := 0
    hop := 0
    auth := true
    payload := payload }

/-- The coordinator of the domain is this device: index 0, or index 1 once index 0 has departed (R246). -/
def isCoord (s : State) (D : Domain) : Bool :=
  s.job.index == some 0 || (s.job.index == some 1 && D.gone.contains 0)

/-- The number of the coordinator and of the deputy as this device sees them. -/
def coordId (D : Domain) : Nat := if D.gone.contains 0 then 1 else 0

/-- A message toward the coordinator. Where it is for the deputy too, index 0 passes a copy on (R219, R238). -/
def sendCoord (D : Domain) (m : Msg) (both : Bool) (s : State) : State :=
  if D.gone.contains 0 then (if selfId s = 1 then s else sendMsg 1 m s)
  else if selfId s ≠ 0 then sendMsg 0 m s
  else if both && decide (1 < rosterSize s) && !D.gone.contains 1 then sendMsg 1 m s else s

/-- Spare position `q` has taken index `i`: the hop to that index is now the hop to that device, with its pair's sequences (R217). -/
def moveHop (i q : Nat) (s : State) : State :=
  let t := (s.job.hops.del i).del (0x8000 + q)
  { s with job := { s.job with hops := match s.job.hops.find (0x8000 + q) with
    | some h => t.set i h
    | none => t } }

/-- Spare position `q` has not taken index `i` after all: what was sent to it stays counted. -/
def moveBack (i q : Nat) (s : State) : State :=
  let h := s.job.hops.get (0x8000 + q) {}
  { s with job := { s.job with hops := (s.job.hops.set (0x8000 + q) { h with tx := (s.job.hops.get i {}).tx }).del i } }

def discard (s : State) : State := { s with job := { s.job with discarded := s.job.discarded + 1 } }

/-- The receive checks of a control message (R218): epoch, sequence and tag; then `f` acts on it. -/
def receive (m : Msg) (s : State) (f : Domain → State → State) : State :=
  let d := m.domain.toNat
  match s.dom d with
  | none => discard s
  | some D =>
    let h := s.job.hops.get m.hop {}
    if D.fenced then s
    else if m.epoch.toNat < s.epoch d then discard s
    else if m.seq.toNat ≤ h.rx then discard s
    else if m.auth = false then discard s
    else f D { s with job := { s.job with hops := s.job.hops.set m.hop { h with rx := m.seq.toNat } } }

/-- A message toward the coordinator that this device only relays: index 0 also passes a deputy's copy on (R219). -/
def relayUp (m : Msg) (s : State) : State := if selfId s = 0 then s else sendMsg (parentOf (selfId s)) m s

end Sys2Proof.Machine
end

