-- ==== Sys2Proof/Machine/Time.lean ====
section
/-! DEFINITION. Fabric time: lock states, corrections, the first lock (R28 to R35); comparators: arming, targets, passed targets
(R41 to R46). What a fire does stands in Machine/Comparator.lean. -/

namespace Sys2Proof.Machine

open Sys2Proof

/-- The fabric-time source, HUB_FT_CTL.source. -/
def State.ftSource (s : State) : Nat := natBits (s.kw kFtCtl) 1 0

def State.modFt (s : State) (f : FabricTime → FabricTime) : State := { s with ft := f s.ft }

/-- A comparator's number over all dies. -/
def cmpKey (die idx : Nat) : Nat := die * 64 + idx

/-- Periods of a grid passed when `now` has reached `target`, at least one. -/
def periodsPassed (target period now : Nat) : Nat := (now - target) / period + 1

/-- The first point above `now` of the grid that holds `written` (R45): written plus any whole multiple of the period. -/
def gridAbove (written period now : Nat) : Nat :=
  if now < written then written - (written - now - 1) / period * period
  else written + ((now - written) / period + 1) * period

def State.setArmed (s : State) (k : Nat) (a : Armed) : State :=
  { s with cmp := { s.cmp with armed := s.cmp.armed.set k a } }

/-- A comparator whose target has passed at one of the moments of R43: it owes one late fire, its overrun rises by the periods passed
less one, and a periodic one takes the next point of its grid. -/
def cmpPassed (k : Nat) (a : Armed) (now : Nat) (s : State) : State :=
  if a.periodic ∧ a.arg ≠ 0 then
    let n := periodsPassed a.target a.arg now
    let s := s.setFld .tcmpCtl 31 24 (satAdd 8 (s.fld .tcmpCtl 31 24 k) (n - 1)) k
    s.setArmed k { a with owed := true, target := a.target + n * a.arg }
  else s.setArmed k { a with owed := true }

/-- Comparators in fabric-time mode whose target a step or the first lock has passed (R34, R43). -/
def cmpTimePassed (s : State) : State :=
  s.cmp.armed.foldl (fun s p =>
    if p.2.mode = .time ∧ p.2.fired = false ∧ p.2.owed = false ∧ p.2.target ≤ s.ft.now then cmpPassed p.1 p.2 s.ft.now s else s) s

/-- A correction of fabric time by `delta` ns, forward positive (R35). It replaces a running slew. -/
def ftCorrect (delta : Int) (s : State) : State :=
  if 10000 < delta then
    let s := s.modFt (fun f => { f with now := f.now + delta.toNat, slew := 0, steps := satAdd 8 f.steps 1 })
    cmpTimePassed (log St.ftStepped .warning s)
  else s.modFt (fun f => { f with slew := delta })

/-- Entry into LOCKED (R33), with the first lock's own step or slew (R34). -/
def ftLock (s : State) : State :=
  let s :=
    if s.ft.valid then s.modFt (fun f => { f with state := .locked, good := 0 })
    else
      let d := s.ft.acq.getD 0
      let s := s.modFt (fun f =>
        { f with
          state := .locked
          good := 0
          valid := true
          acq := none
          now := f.now + d.toNat
          slew := if d < 0 then d else 0 })
      cmpTimePassed s
  let s := s.modFt (fun f => { f with errBound := 50 + f.slew.natAbs })
  irqSource .ftLock (log St.ftLocked .advisory s)

/-- Entry into HOLDOVER (R33). -/
def ftHoldover (s : State) : State :=
  let s := s.modFt (fun f => { f with state := .holdover, good := 0, holdAcc := 0 })
  irqSource .ftLock (log St.ftHoldover .warning s)

/-- One valid sync interval with its measured offset, local less source (R33). A measured offset above 1 µs in LOCKED is not
applied, since the device then holds over. -/
def ftInterval (off : Int) (s : State) : State :=
  match s.ft.state with
  | .free => s
  | .locked =>
    if 1000 < off.natAbs then ftHoldover s
    else
      let s := if off = 0 then s else ftCorrect (-off) s
      s.modFt (fun f => { f with errBound := 50 + f.slew.natAbs })
  | _ =>
    let s := s.modFt (fun f =>
      { f with state := .acquiring, good := if off.natAbs < 25 then (if f.state = .acquiring then f.good + 1 else 1) else 0 })
    let s := if s.ft.valid ∧ off ≠ 0 then ftCorrect (-off) s else s
    if 8 ≤ s.ft.good ∧ (s.ftSource = 2 → s.ft.todHeld = true) then ftLock s else s

/-- A valid Sync of the selected master with its offset (R33). Before the first lock the offset is measured against the acquired value, which
it then corrects. In PPS with PTP it supplies the time of day only. -/
def ptpSync (off : Int) (s : State) : State :=
  match s.ftSource with
  | 1 =>
    if s.ft.valid then ftInterval off s
    else
      let measured := match s.ft.acq with
        | some a => off + a
        | none => 1000000000
      ftInterval measured (s.modFt (fun f => { f with acq := some (-off) }))
  | 2 =>
    s.modFt (fun f => { f with todHeld := true, acq := if f.valid then f.acq else some (-off) })
  | _ => s

/-- The offset of a time from its nearest whole second (R33). -/
def secondOffset (t : Int) : Int := t - (t + 500000000) / 1000000000 * 1000000000

/-- A rising edge of PPS_IN (R29, R33). Set seconds are applied as a correction at the edge, and the request is answered. -/
def ppsEdge (s : State) : State :=
  if s.ftSource = 2 ∨ s.ftSource = 3 then
    match (if s.ftSource = 3 then s.ft.setSecs else none) with
    | some (c, secs) =>
      let d : Int := (secs * 1000000000 : Nat) - (s.ft.now : Int)
      let s := s.modFt (fun f => { f with setSecs := none })
      let s :=
        if s.ft.valid then ftInterval 0 (ftCorrect d s)
        else ftInterval 0 (s.modFt (fun f => { f with acq := some d }))
      mbxReply c {} s
    | none =>
      if s.ft.valid then ftInterval (secondOffset s.ft.now) s
      else
        let t : Int := s.ft.now + s.ft.acq.getD 0
        let off := secondOffset t
        let measured := if s.ft.acq.isSome then off else 0
        ftInterval measured (s.modFt (fun f => { f with acq := some (f.acq.getD 0 - off) }))
  else s

/-- Loss of the sync source while LOCKED (R33). -/
def ftLoss (s : State) : State := if s.ft.state = .locked then ftHoldover s else s

/-- HUB_FT_CTL.source has changed from `old` (R33). -/
def ftSourceChanged (old : Nat) (s : State) : State :=
  let new := s.ftSource
  if new = old then s
  else
    let s := s.modFt (fun f => { f with good := 0, todHeld := false })
    if new = 0 then s.modFt (fun f => { f with state := .free })
    else match s.ft.state with
    | .free => s.modFt (fun f => { f with state := .acquiring })
    | .locked => ftHoldover s
    | _ => s

/-- One nanosecond of local time passes for fabric time: a slew runs it faster or slower by 500 ppm until absorbed (R35); the error
bound grows by 0.5 ppm in HOLDOVER (R32). -/
def ftTick (s : State) : State :=
  s.modFt (fun f =>
    let acc := (f.slewAcc + 1) % 2000
    if f.slew = 0 then { f with now := f.now + 1 }
    else if acc ≠ 0 then { f with now := f.now + 1, slewAcc := acc }
    else if 0 < f.slew then { f with now := f.now + 2, slewAcc := acc, slew := f.slew - 1 }
    else { f with slewAcc := acc, slew := f.slew + 1 })

/-- HUB_FT_ERRBOUND: all ones before the first lock, and growing by 0.5 ppm in HOLDOVER (R32, R34). -/
def ftErrBound (s : State) : Nat :=
  if s.ft.valid = false then 0xFFFFFFFF
  else if s.ft.state = .holdover then min 0xFFFFFFFF (50 + s.ft.holdAcc / 2000000)
  else min 0xFFFFFFFF (50 + s.ft.slew.natAbs)

/-- Fabric time has reached `t`: it never runs backward (R35). -/
def ftReach (t : Nat) (s : State) : State := s.modFt (fun f => { f with now := max f.now t })

/-- The boundary that ended steep `k` of a domain, if this device applied it: kept by the domain's last boundary time. -/
def cmpBoundary (d count tb : Nat) (s : State) : State :=
  s.cmp.armed.foldl (fun s p =>
    let k := p.1
    let a := p.2
    if a.domain ≠ d ∨ a.fired then s
    else match a.mode with
    | .phase =>
      if a.periodic ∨ a.target + 1 = count then
        let due := tb + a.arg
        if due < s.ft.now then s.setArmed k { a with due := some due, owed := true } else s.setArmed k { a with due := some due }
      else s
    | .steep => s
    | .time => s) s

/-- STEEP_COUNT_SET or a rollback sets the count (R45). A one-shot target that the new count has reached owes a late fire. -/
def cmpCountSet (d count : Nat) (s : State) : State :=
  s.cmp.armed.foldl (fun s p =>
    let a := p.2
    if a.domain = d ∧ a.mode = .steep then
      if a.periodic ∧ a.arg ≠ 0 then s.setArmed p.1 { a with target := gridAbove a.written a.arg count }
      else if a.fired = false ∧ a.target ≤ count then s.setArmed p.1 { a with owed := true }
      else s
    else s) s

/-- An agent may write a comparator: firmware its own, the holder named by COMPARATOR_ALLOC its own, a core those that its partition's
kernels were given or that their slice holds (R46). -/
def cmpMayWrite (s : State) (a : Agent) (k : Nat) : Bool :=
  let part (id : Nat) : Option (Nat × Partition) :=
    s.work.parts.find? (fun p => p.2.mask.getLsbD (id / 16))
  match s.cmp.owner.get k (if k < 16 then .firmware else .free), a with
  | .firmware, .firmware => true
  | .firmware, .core id => decide (256 ≤ id)
  | .caller .pf0, .pf0 => true
  | .caller .pf1, .pf1 => true
  | .caller (.slice n), .core id => match part id with
    | some p => p.2.owner == n
    | none => false
  | .caller .pf0, .core id => match part id with
    | some p => p.2.owner == 0
    | none => false
  | .runtime p, .core id => match part id with
    | some q => q.1 == p
    | none => false
  | _, _ => false

/-- The number of comparators of a die that COMPARATOR_ALLOC may give out starts here (R46). -/
def cmpFirst (die : Nat) : Nat := if die = 0 then 16 else 0

/-- The `n` lowest free comparators of a die, or none (R46). -/
def cmpLowest (die n : Nat) (s : State) : Option (List Nat) :=
  let l := ((List.range 64).filter (fun i =>
    decide (cmpFirst die ≤ i) && s.cmp.owner.get (cmpKey die i) .free == .free)).take n
  if l.length = n then some l else none

def cmpTake (die : Nat) (l : List Nat) (o : CmpOwner) (s : State) : State :=
  { s with cmp := { s.cmp with owner := l.foldl (fun t i => t.set (cmpKey die i) o) s.cmp.owner } }

/-- A comparator disarmed, with its pending fire discarded (R46). -/
def cmpDisarm (k : Nat) (s : State) : State :=
  let s := (s.setFld .tcmpCtl 0 0 0 k).setFld .tcmpCtl 22 22 0 k
  { s with cmp := { s.cmp with armed := s.cmp.armed.del k } }

/-- Every comparator of an owner disarmed; freed too where `free` (R46). -/
def cmpRelease (o : CmpOwner) (free : Bool) (s : State) : State :=
  s.cmp.owner.foldl (fun s p =>
    if p.2 = o then
      let s := cmpDisarm p.1 s
      if free then { s with cmp := { s.cmp with owner := s.cmp.owner.del p.1 } } else s
    else s) s

/-- A write of TCMP_CTL (R4, R41, R43), `who` the core that makes it, if one does. -/
def tcmpWrite (k : Nat) (v : Nat) (s : State) (who : Option Nat := none) : State :=
  let mode := natBits v 2 1
  if mode = 3 ∨ 8 < natBits v 15 12 then s
  else if natBit v 0 = false then
    let s := s.setReg .tcmpCtl (applyFields (s.reg .tcmpCtl k) v RegName.tcmpCtl.info.fields) k
    { s with cmp := { s.cmp with armed := s.cmp.armed.del k } }
  else
    let t := s.reg .tcmpTarget k
    let arg := s.reg .tcmpArg k
    if mode ≠ 0 ∧ t / 2 ^ 48 ≠ 0 then s
    else
      let s := s.setReg .tcmpCtl (applyFields (s.reg .tcmpCtl k) v RegName.tcmpCtl.info.fields) k
      let s := s.setFld .tcmpCtl 31 24 0 k
      let d := natBits v 21 16
      let a : Armed := {
        mode := if mode = 0 then .time else if mode = 1 then .steep else .phase
        periodic := natBit v 3
        domain := d
        action := natBits v 15 12
        written := t
        target := t
        arg := arg
        armer := who }
      let s := s.setArmed k a
      let count := s.reg .cadSteepCount d
      match a.mode with
      | .time => if s.ft.valid ∧ t < s.ft.now then cmpPassed k a s.ft.now s else s
      | .steep => if t < count then cmpPassed k a count s else s
      | .phase =>
        if a.periodic then s
        else match (match s.dom d with
          | some D => D.lastTb.find t
          | none => none) with
        | some tb =>
          let a := { a with due := some (tb + arg), owed := decide (tb + arg < s.ft.now) }
          s.setArmed k a
        | none => s

end Sys2Proof.Machine
end

