-- ==== Sys2Proof/Machine/Caddy.lean ====
section
/-! DEFINITION. The Caddy engine: boundaries and their snapshot flags (R38, R202 to R206), declarations (R184, R207), the copier (R208 to R210),
the buddy's generations (R218, R223 to R227), the commit (R228 to R232), deep checkpoints (R233 to R237). -/

namespace Sys2Proof.Machine

open Sys2Proof

/-- CAD_DOMAIN_STATUS.state. -/
abbrev domDisarmed : Nat := 0
abbrev domArmed : Nat := 1
abbrev domHalted : Nat := 2
abbrev domStopped : Nat := 3
def domState (s : State) (d : Nat) : Nat := s.fld .cadDomainStatus 1 0 d
def isArmed (s : State) (d : Nat) : Bool := s.fld .cadDomainCtl 0 0 d == 1

/-- A steep held in a register of the form of CAD_COMMITTED_STEEP, if any. -/
def steepReg (s : State) (n : RegName) (d : Nat) : Option Nat :=
  let v := s.reg n d
  if natBit v 63 then none else some (v % 2 ^ 48)

def stageKey (steep layer : Nat) : Nat := steep * 4096 + layer

/-- The update of every layer of steep `k` is complete (R184). -/
def layersDone (D : Domain) (k : Nat) : Bool :=
  D.clusters == 0 || decide (k < D.pipeSteep) ||
    (D.pipeSteep == k && D.layers.all (fun p => (D.stages.get (stageKey k p.1) {}).updated))

def hasQuiesced (D : Domain) : Bool := D.regions.any (fun r => r.2.kind == .quiesced)

/-- The conditions of R184 for the oldest boundary, the pause aside. -/
def boundaryReady (D : Domain) (b : Boundary) : Bool :=
  layersDone D b.steep && D.regions.all (fun r => r.2.pages.all (fun p => decide (b.steep < p.2)))

/-- CAD_DOMAIN_STATUS.pause_wait: a declaration waits for a quiesced capture. -/
def pauseWait (d : Nat) (s : State) : State :=
  match s.dom d with
  | none => s
  | some D =>
    let w := match D.boundaries with
      | b :: _ => b.flagged && hasQuiesced D && !b.captured
      | [] => false
    s.setFld .cadDomainStatus 3 3 (if w then 1 else 0) d

/-- The oldest boundary is done with: the layers of the next steep enter the pipeline (R201). -/
def popBoundary (d : Nat) (s : State) : State :=
  pauseWait d (s.modDom d (fun D =>
    match D.boundaries with
    | b :: r =>
      { D with
        boundaries := r
        pipeSteep := b.steep + 1
        stages := D.stages.keep (fun k _ => decide (b.steep ≤ k / 4096))
        scalars := none }
    | [] => D))

/-- A member applies a boundary: count and T_b, the comparators that wait for it (R38, R41, R43), and what R202 ties to its flag. -/
def applyBoundary (d count tb : Nat) (flag : Bool) (s : State) : State :=
  let s := s.setReg .cadSteepCount count d
  let s := s.setReg .cadDomainNonfinite 0 d
  let s := s.modDom d (fun D =>
    { D with
      lastTb := D.lastTb.set (count - 1) tb
      boundaries := if isArmed s d then D.boundaries ++ [{ steep := count - 1, tb := tb, flagged := flag }] else D.boundaries
      arrival := if flag then some { steep := count - 1 } else D.arrival })
  cmpBoundary d count tb (pauseWait d s)

/-- A trigger is held back: a snapshot is in flight, or R234 holds the next one (R204). -/
def triggerHeld (D : Domain) : Bool := D.flight.isSome || (D.deep.isSome && decide (1 ≤ D.afterDeep))

/-- A trigger that arises while triggers are held back is deferred (R204). -/
def deferTrigger (d : Nat) (s : State) : State :=
  (s.bump .cadTrigDeferred d).modDom d (fun D => { D with deferred := true })

/-- The Caddy comparator has fired at the coordinator (R203, R204). -/
def caddyTrigger (d : Nat) (s : State) : State :=
  match s.dom d with
  | some D =>
    if isCoord s D ∧ s.fld .cadCkptCtl 1 0 d = 1 then
      if triggerHeld D then deferTrigger d s else s.setDom d { D with trigDue := true }
    else s
  | none => s

/-- The coordinator advances the count and stamps the boundary with its fabric time, the snapshot flag set where R203 to R205 allow it; then spreads it
(R38). At the count's maximum the doorbell is not accepted (R39). -/
def stampBoundary (d : Nat) (s : State) : State :=
  match s.dom d with
  | none => s
  | some D =>
    let k := s.reg .cadSteepCount d
    if k = 2 ^ 48 - 1 then mbxEvent (if D.owner = 0 then .pf0 else .slice D.owner) St.steepCountLimit.toNat d (log St.steepCountLimit .error s)
    else
      let trig := s.fld .cadCkptCtl 1 0 d
      let n := s.fld .cadCkptCtl 19 4 d
      let regular := isArmed s d && ((trig == 0 && k % n == 0) || (trig == 1 && D.trigDue))
      let held := triggerHeld D
      let s := if held ∧ regular then deferTrigger d s else s
      let flag := !held && isArmed s d && (regular || D.deferred)
      let tb := s.ft.now
      let s := s.modDom d (fun D =>
        { D with
          trigDue := if flag then false else D.trigDue
          deferred := if flag then false else D.deferred
          flight := if flag then some { steep := k, tb := tb } else D.flight })
      let s := applyBoundary d (k + 1) tb flag s
      (childrenOf s (selfId s)).foldl (fun s c => s.emit (.boundary c d (k + 1) tb flag)) s

/-- A doorbell at the coordinator, or one forwarded to it (R36, R38, R40). -/
def matchDoorbell (d v : Nat) (s : State) : State :=
  if domState s d = domStopped ∨ v ≠ s.reg .cadSteepCount d % 2 ^ 32 then s.bump .cadSteepStale d else stampBoundary d s

/-- A steep doorbell written at this member (R36 to R40). -/
def ringDoorbell (d v : Nat) (s : State) : State :=
  match s.dom d with
  | none => s
  | some D =>
    if isCoord s D ∨ s.job.index = none then matchDoorbell d v s
    else if domState s d = domStopped ∨ v ≠ s.reg .cadSteepCount d % 2 ^ 32 then s.bump .cadSteepStale d
    else s.emit (.doorbell (nextHop s (coordId D)) d (BitVec.ofNat 32 v))

/-- Grains of a domain that region table and index ranges name, in copier order: ascending region, ascending index (R208). -/
def allGrains (D : Domain) : List Nat :=
  (List.range 256).flatMap (fun r =>
    match D.regions.find r with
    | some R => (List.range (R.length / 65536)).map (grainKey r)
    | none => [])

def Grain.pends (g : Grain) : Bool := g.st == .pending || g.st == .pendingCow

/-- The declaration of the oldest boundary's snapshot (R184, R207). -/
def declare (d : Nat) (s : State) : State :=
  match s.dom d with
  | none => s
  | some D =>
    match D.boundaries with
    | [] => s
    | b :: _ =>
      let k := b.steep
      let f (g : Grain) : Grain := if g.st = .dirty then { g with st := .pending, tag := k, sent := false } else g
      let D := { D with
        grains := D.grains.map (fun _ g => f g)
        grain0 := f D.grain0
        snap := some { steep := k } }
      let n := ((allGrains D).filter (fun g => (D.grain g).pends)).length
      let s := s.setDom d D
      let s := s.setReg .cadDeclaredSteep k d
      let s := s.setReg .cadSnapGrains n d
      let s := s.setReg .cadWireBytes 0 d
      let s := s.setFld .cadCkptStatus 1 0 1 d
      popBoundary d s

/-- ABANDON for this member's part of a snapshot, or for its neighbour's (R210, R226). -/
def abandonMsg (s : State) (d k owner : Nat) (st : Status) : Msg := mkMsg s d 6 (steep := k) (status := st) (a := owner)

/-- The generation slot of grain `k` that holds its committed content (R225). -/
def committedGen (D : Domain) (c k : Nat) : Option Nat :=
  let a := D.gens.get k {}
  let b := D.gens.get (2 ^ 32 + k) {}
  let okA := a.valid && decide (a.tag ≤ c)
  let okB := b.valid && decide (b.tag ≤ c)
  if okA ∧ (¬ okB ∨ b.tag ≤ a.tag) then some 0 else if okB then some 1 else none

/-- The slot that an arriving grain is written to (R224). -/
def arrivingGen (D : Domain) (c : Option Nat) (k : Nat) : Nat :=
  match c with
  | none => 0
  | some c => match committedGen D c k with
    | some 0 => 1
    | _ => 0

def genKey (gen k : Nat) : Nat := gen * 2 ^ 32 + k

/-- Every COW slot of the domain freed (R222). -/
def freeCow (d : Nat) (s : State) : State :=
  (s.modDom d (fun D => { D with cow := [] })).setReg .cadCowUsed 0 d

/-- Every stall of the domain ends (R221). -/
def endAllStalls (d : Nat) (s : State) : State :=
  match s.dom d with
  | some D => (D.stalled.map (·.grain)).foldl (fun s k => endStalls d k s) s
  | none => s

/-- The size of a deep area and the offset of slot `sl` of roster index `i` (R235). -/
def deepSize (D : Domain) : Nat := 8192 + roundUp (D.lMax * 32) 4096 + D.lMax * 65536
def deepOff (s : State) (D : Domain) (off i sl : Nat) : Nat := off + (sl * rosterSize s + i) * deepSize D

/-- The deep area that this buddy writes for its neighbour: the one not complete, else the one with the lower steep (R236). -/
def deepSlot (s : State) (D : Domain) (nsid off i : Nat) : Nat :=
  let h (sl : Nat) := nsGet s nsid (deepOff s D off i sl) 64
  let complete (sl : Nat) := natBit (fieldLE (h sl) 15 1) 0
  if !complete 0 then 0 else if !complete 1 then 1
  else if fieldLE (h 0) 4 6 ≤ fieldLE (h 1) 4 6 then 0 else 1

/-- The neighbour whose generations this member holds. -/
def myNeighbour (s : State) : Nat := neighbourOf (rosterSize s) (selfId s)

/-- A buddy begins its neighbour's deep area of S(k): the header with complete 0 (R236). -/
def startDeep (d k : Nat) (s : State) : State :=
  match s.dom d with
  | none => s
  | some D =>
    match D.deepTarget with
    | none => s
    | some (nsid, off) =>
      let i := myNeighbour s
      let sl := deepSlot s D nsid off i
      let h := leBytes 4 1 ++ leBytes 6 k ++ leBytes 2 i ++ leBytes 2 (rosterSize s) ++ leBytes 1 d ++ leBytes 1 0 ++
        List.replicate 48 0
      let s := nsPut nsid (deepOff s D off i sl) h s
      (s.setDom d { D with deepWrite := some (k, sl) }).setFld .cadCkptStatus 2 2 1 d

/-- A member applies COMMIT(k) as owner and as buddy (R225, R231). -/
def applyCommit (d k : Nat) (deep : Bool) (s : State) : State :=
  let f (g : Grain) : Grain :=
    match g.st with
    | .pending => { g with st := .clean, sent := false }
    | .pendingCow => { g with st := .dirty, cow := none, sent := false }
    | _ => g
  let s := s.modDom d (fun D =>
    { D with
      grains := D.grains.map (fun _ g => f g)
      grain0 := f D.grain0
      snap := none
      arrival := none
      deputy := none })
  let s := endAllStalls d (freeCow d s)
  let s := s.setReg .cadCommittedSteep k d
  let s := s.setFld .cadCkptStatus 1 0 0 d
  let s := s.setFld .cadCkptStatus 31 16 0 d
  let s := s.setFld .cadCkptStatus 15 8 0 d
  let s := irqSource (.ckptDone d) s
  if deep then startDeep d k s else s

/-- Valid is cleared on every generation slot of which `p` holds. -/
def dropGens (d : Nat) (p : GenSlot → Bool) (s : State) : State :=
  s.modDom d (fun D => { D with gens := D.gens.map (fun _ g => if p g then { g with valid := false } else g) })

/-- A member applies ABORT(k) with its status (R225, R231). A boundary of k not yet declared here passes without its snapshot. -/
def applyAbort (d k : Nat) (st : Status) (s : State) : State :=
  let f (g : Grain) : Grain :=
    if g.tag = k ∧ (g.st ≠ .dirty ∨ g.cow.isSome) then { g with st := .dirty, cow := none, sent := false } else g
  let s := s.modDom d (fun D =>
    { D with
      grains := D.grains.map (fun _ g => f g)
      grain0 := f D.grain0
      snap := none
      arrival := none
      deputy := none
      boundaries := D.boundaries.map (fun b => if b.steep = k then { b with flagged := false } else b) })
  let s := dropGens d (fun g => g.tag == k) (freeCow d s)
  let s := pauseWait d (endAllStalls d s)
  let s := log st .warning s
  let s := s.setFld .cadCkptStatus 1 0 0 d
  let s := s.setFld .cadCkptStatus 31 16 st.toNat d
  let s := s.bumpFld .cadCkptStatus 15 8 d
  let s := if s.fld .cadCkptStatus 15 8 d = 3 then log St.ckptAbortRun .error s else s
  irqSource (.ckptDone d) s

/-- The deep flag is due on COMMIT(k) (R233). -/
def deepDue (s : State) (D : Domain) (d k : Nat) : Bool :=
  let n := s.fld .cadDeepCtl 15 0 d
  n != 0 && D.deep.isNone && decide (D.lastDeep + n ≤ k)

/-- The coordinator's decision is acknowledged: COMMIT or ABORT goes down the tree and is applied here (R228, R229, R231). -/
def resolve (d : Nat) (s : State) : State :=
  match s.dom d with
  | none => s
  | some D =>
    match D.flight with
    | some { steep := k, decided := some (st, who), .. } =>
      if st = St.success then
        let deep := deepDue s D d k
        let s := s.setDom d { D with
          flight := none
          deep := if deep then some (k, []) else D.deep
          afterDeep := if deep then 0 else D.afterDeep + 1
          lastDeep := if deep then k else D.lastDeep }
        let s := sendDown (mkMsg s d 9 (steep := k) (flags := if deep then 1 else 0)) s
        applyCommit d k deep s
      else
        let s := s.setDom d { D with flight := none }
        let s := sendDown (mkMsg s d 10 (steep := k) (status := st) (a := who)) s
        applyAbort d k st s
    | _ => s

/-- There is a deputy to hold decisions: index 1, present and not departed, while index 0 coordinates. -/
def hasDeputy (s : State) (D : Domain) : Bool :=
  decide (2 ≤ rosterSize s) && !D.gone.contains 1 && !D.gone.contains 0

/-- The coordinator decides the snapshot in flight: DECIDE to the deputy (R228, R229). Without a deputy the decision stands at once
(assumption 24). -/
def decideSnap (d : Nat) (st : Status) (who : Nat) (s : State) : State :=
  match s.dom d with
  | none => s
  | some D =>
    match D.flight with
    | some f =>
      if f.decided.isSome then s
      else
        let s := s.setDom d { D with flight := some { f with decided := some (st, who) } }
        if hasDeputy s D then sendMsg 1 (mkMsg s d 7 (steep := f.steep) (status := st) (a := who)) s
        else resolve d s
    | none => s

/-- HELD(k) for `owner` reaches the coordinator (R228). -/
def heldAt (d k owner : Nat) (s : State) : State :=
  match s.dom d with
  | none => s
  | some D =>
    match D.flight with
    | some f =>
      if f.steep ≠ k ∨ f.decided.isSome then s
      else
        let held := if f.held.contains owner then f.held else owner :: f.held
        let s := s.setDom d { D with flight := some { f with held := held } }
        if (List.range (rosterSize s)).all (fun i => held.contains i) then decideSnap d St.success 0xFFFFFFFF s else s
    | none => s

/-- ABANDON(k) reaches the coordinator (R229). -/
def abandonAt (d k owner : Nat) (st : Status) (s : State) : State :=
  match s.dom d with
  | some D =>
    match D.flight with
    | some f => if f.steep = k then decideSnap d st owner s else s
    | none => s
  | none => s

/-- ABANDON sent toward the coordinator, or taken here. -/
def sendAbandon (d k owner : Nat) (st : Status) (s : State) : State :=
  match s.dom d with
  | some D => if isCoord s D then abandonAt d k owner st s else sendCoord D (abandonMsg s d k owner st) false s
  | none => s

/-- S(k) is abandoned at this member for want of its pause (R185, R210). -/
def abandonSnapshot (d : Nat) (s : State) : State :=
  match s.dom d with
  | none => s
  | some D =>
    match D.boundaries with
    | b :: _ =>
      let s := log St.snapshotAbandoned .warning (popBoundary d s)
      sendAbandon d b.steep (selfId s) St.snapshotAbandoned s
    | [] => s

/-- The grain's declared content (R208). -/
def declaredBytes (s : State) (d : Nat) (D : Domain) (k : Nat) : List Byte :=
  match (D.grain k).cow with
  | some slot => s.bytes (.cow d) (slot * 65536) 65536
  | none => s.bytes .array (ddrBase + D.grainOff k) 65536

/-- The next grain that the copier sends for the first time: a stalled one first, then in copier order (R208). -/
def nextPending (D : Domain) : Option Nat :=
  let unsent (k : Nat) := (D.grain k).pends && !(D.grain k).sent
  match D.stalled.find? (fun w => unsent w.grain) with
  | some w => some w.grain
  | none =>
    (List.range 256).findSome? (fun r =>
      match D.regions.find r with
      | some R => (firstBelow (R.length / 65536) (fun i => unsent (grainKey r i))).map (grainKey r)
      | none => none)

/-- One GRAIN message of the snapshot (R208, R209). -/
def sendGrain (d k : Nat) (first : Bool) (s : State) : State :=
  match s.dom d with
  | none => s
  | some D =>
    match D.snap with
    | none => s
    | some sn =>
      let l := declaredBytes s d D k
      let c := crc64 l
      let e := encodeGrain l
      let g := D.grain k
      let s := s.setDom d { D with
        grains := D.grains.set k { g with sent := true, crc := if g.st = .pending then some c else g.crc }
        snap := some (if first then { sn with grains := sn.grains + 1, crcs := Nat.xor sn.crcs c } else sn) }
      let s := if first then s.setReg .cadWireBytes (s.reg .cadWireBytes d + e.length) d else s
      let m := mkMsg s d 1 (steep := sn.steep) (region := k / 2 ^ 24) (a := k % 2 ^ 24) (b := e.length) (c := c) (payload := e)
      s.emit (.msg (nextHop s (buddyOf (rosterSize s) (selfId s)))
        { m with hop := nextHop s (buddyOf (rosterSize s) (selfId s)) })

/-- SEAL after the last GRAIN (R209). -/
def sendSeal (d : Nat) (s : State) : State :=
  match s.dom d with
  | none => s
  | some D =>
    match D.snap with
    | some sn =>
      if sn.sealed ∨ sn.quit ∨ (nextPending D).isSome then s
      else
        let s := s.setDom d { D with snap := some { sn with sealed := true } }
        let s := s.setFld .cadCkptStatus 1 0 2 d
        sendMsg (buddyOf (rosterSize s) (selfId s)) (mkMsg s d 4 (steep := sn.steep) (b := sn.grains) (c := sn.crcs)) s
    | none => s

/-- The copier's next action on a domain: a stalled grain, a grain to send again, or the next pending one; SEAL after the last (R208 to
R210). -/
def copierSend (d : Nat) (s : State) : State :=
  match s.dom d with
  | none => s
  | some D =>
    match D.snap with
    | none => s
    | some sn =>
      if sn.quit ∨ s.frozen then s
      else
        match D.stalled.find? (fun w => (D.grain w.grain).pends && !(D.grain w.grain).sent), sn.resend with
        | some w, _ => sendSeal d (sendGrain d w.grain true s)
        | none, k :: r =>
          sendGrain d k false (s.setDom d { D with snap := some { sn with resend := r } })
        | none, [] =>
          match nextPending D with
          | some k => sendSeal d (sendGrain d k true s)
          | none => sendSeal d s

/-- The grain keys in the entries of a GRAIN_ACK or GRAIN_NAK (R216). -/
def ackEntries (m : Msg) : List Nat :=
  (List.range (min m.a.toNat 64)).map (fun i => fieldLE m.payload (4 * i) 4)

/-- An acknowledged grain: PENDING to CLEAN, PENDING_COW to DIRTY with its slot freed; the stall on it ends (R210, R221, R222). -/
def ackGrain (d : Nat) (s : State) (k : Nat) : State :=
  match s.dom d with
  | none => s
  | some D =>
    let g := D.grain k
    let s := match g.st with
      | .pending => s.setGrain d k { g with st := .clean, sent := false }
      | .pendingCow =>
        let s := s.setGrain d k { g with st := .dirty, cow := none, sent := false }
        let cow := match g.cow with
          | some c => D.cow.filter (· != c)
          | none => D.cow
        (s.modDom d (fun D => { D with cow := cow })).setReg .cadCowUsed cow.length d
      | _ => s
    if g.pends then endStalls d k s else s

/-- A NAK entry: the grain is sent again, a fourth NAK ends the member's part (R210). -/
def nakGrain (d : Nat) (st : Status) (s : State) (k : Nat) : State :=
  let s := s.bump .cadGrainNaks d
  match s.dom d with
  | none => s
  | some D =>
    match D.snap with
    | none => s
    | some sn =>
      let n := sn.tries.get k 0 + 1
      if sn.quit then s
      else if 4 ≤ n then
        let s := s.setDom d { D with snap := some { sn with quit := true } }
        sendAbandon d sn.steep (selfId s) st s
      else s.setDom d { D with snap := some { sn with tries := sn.tries.set k n, resend := sn.resend ++ [k] } }

/-- The buddy compares what it holds with SEAL once every announced grain is written (R226). -/
def compareSeal (d : Nat) (s : State) : State :=
  match s.dom d with
  | none => s
  | some D =>
    match D.arrival with
    | some ar =>
      match ar.claim with
      | some (n, x) =>
        let mine := D.gens.filter (fun p => p.2.valid && p.2.tag == ar.steep)
        if ar.done ∨ mine.length < n then s
        else
          let s := s.setDom d { D with arrival := some { ar with done := true } }
          let owner := myNeighbour s
          if mine.length = n ∧ mine.foldl (fun c p => Nat.xor c p.2.crc) 0 = x then
            if isCoord s D then heldAt d ar.steep owner s
            else sendCoord D (mkMsg s d 5 (steep := ar.steep) (a := owner) (b := n) (c := x)) false s
          else sendAbandon d ar.steep owner St.sealMismatch s
      | none => s
    | none => s

/-- Acknowledgements and NAKs that wait, at most 64 entries a message (R218). -/
def ackBatch (d : Nat) (s : State) : State :=
  match s.dom d with
  | none => s
  | some D =>
    match D.arrival with
    | none => s
    | some ar =>
      let own := myNeighbour s
      let acks := ar.acks.take 64
      let st := match ar.naks with
        | n :: _ => n.2
        | [] => 0
      let naks := (ar.naks.filter (fun n => n.2 == st)).take 64
      let s := s.setDom d { D with
        arrival := some { ar with acks := ar.acks.drop 64, naks := ar.naks.filter (fun n => !naks.contains n) } }
      let s := if acks.isEmpty then s
        else sendMsg own (mkMsg s d 2 (steep := ar.steep) (a := acks.length) (payload := acks.flatMap (leBytes 4))) s
      if naks.isEmpty then s
      else sendMsg own (mkMsg s d 3 (steep := ar.steep) (status := st) (a := naks.length)
        (payload := naks.flatMap (fun n => leBytes 4 n.1))) s

/-- A NAK waits to be sent. -/
def addNak (d k : Nat) (st : Status) (s : State) : State :=
  let s := s.modDom d (fun D => { D with arrival := D.arrival.map (fun a => { a with naks := a.naks ++ [(k, st)] }) })
  match s.dom d with
  | some D => match D.arrival with
    | some a => if 64 ≤ a.naks.length then ackBatch d s else s
    | none => s
  | none => s

/-- A grain lies in the neighbour's region table (R218, R223). -/
def inNeighbour (D : Domain) (k : Nat) : Bool :=
  D.nbRegions.any (fun r => r.1 == k / 2 ^ 24 && decide (k % 2 ^ 24 < r.2))

/-- A GRAIN reaches the buddy: the checks of R218 in order, then its arriving slot (R224) and an acknowledgement. -/
def recvGrain (m : Msg) (s : State) : State :=
  let d := m.domain.toNat
  match s.dom d with
  | none => discard s
  | some D =>
    let k := grainKey m.region.toNat (m.a.toNat % 2 ^ 24)
    if m.epoch.toNat < s.epoch d then discard s
    else
      match D.arrival with
      | none => discard s
      | some ar =>
        if m.steep.toNat ≠ ar.steep ∨ m.sender.toNat ≠ myNeighbour s then discard s
        else if m.auth = false then addNak d k St.grainAuth s
        else if inNeighbour D k = false then addNak d k St.grainRange s
        else match decodeGrain m.payload with
        | none => addNak d k St.grainDecode s
        | some l =>
          if crc64 l ≠ m.c.toNat then addNak d k St.grainCrc s
          else
            let gen := arrivingGen D (steepReg s .cadCommittedSteep d) k
            let s := s.store (.buddy d gen) (k * 65536) l
            let ar := { ar with acks := ar.acks ++ [k] }
            let s := s.setDom d { D with
              gens := D.gens.set (genKey gen k) { valid := true, tag := ar.steep, crc := m.c.toNat, crcValid := true }
              arrival := some ar }
            let s := if 64 ≤ ar.acks.length then ackBatch d s else s
            compareSeal d s

/-- A domain message for the coordinator that reaches this device: taken there, relayed up elsewhere (R219). -/
def atCoord (m : Msg) (D : Domain) (s : State) (f : State → State) : State :=
  if isCoord s D then f s else relayUp m s

/-- A message for every device: taken here and passed down the tree (R219). -/
def spread (m : Msg) (f : State → State) (s : State) : State := f (sendDown m s)

/-- A scrub of a committed slot of the neighbour (R227). -/
def scrubBuddy (d region grain : Nat) (s : State) : State :=
  let k := grainKey region grain
  match s.dom d with
  | none => s
  | some D =>
    match steepReg s .cadCommittedSteep d with
    | none => s
    | some c =>
      match committedGen D c k with
      | none => s
      | some gen =>
        let g := D.gens.get (genKey gen k) {}
        if crc64 (s.bytes (.buddy d gen) (k * 65536) 65536) = g.crc then s
        else
          let s := s.setDom d { D with gens := D.gens.set (genKey gen k) { g with crcValid := false } }
          let s := log St.restoreCrc .warning s
          sendMsg (myNeighbour s) (mkMsg s d 11 (steep := g.tag) (region := region) (a := grain)) s

/-- A side record as the buddy holds it (R181): when the owner wrote the grain last reaches no buddy, and is a free value. -/
def sideRecord (d k gen : Nat) (g : GenSlot) (s : State) : List Byte × State :=
  let (w, s) := s.draw 64
  (leBytes 6 g.tag ++ leBytes 1 d ++ leBytes 1 (k / 2 ^ 24) ++ leBytes 4 (k % 2 ^ 24) ++ leBytes 1 (gen + 1) ++
    leBytes 1 ((if g.valid then 1 else 0) + if g.crcValid then 16 else 0) ++ leBytes 2 0 ++ leBytes 8 w ++ leBytes 8 g.crc, s)

/-- The neighbour's grains in ordinal order: regions ascending, grains ascending. -/
def nbGrains (D : Domain) : List Nat :=
  (List.range 256).flatMap (fun r =>
    match D.nbRegions.find? (fun p => p.1 == r) with
    | some p => (List.range p.2).map (grainKey r)
    | none => [])

/-- The region table of a deep area: 256 entries of 16 bytes (R235). A region's kind is of the table that the neighbour sent. -/
def deepTable (D : Domain) : List Byte :=
  ((List.range 256).foldl (fun (t : List Byte × Nat) r =>
    match D.nbRegions.find? (fun p => p.1 == r) with
    | some p =>
      (t.1 ++ leBytes 1 r ++ leBytes 1 (Config.neighbourKind D.nbArm r % 3) ++ leBytes 2 0 ++
        leBytes 4 t.2 ++ leBytes 4 p.2 ++ leBytes 4 0, t.2 + p.2)
    | none => (t.1 ++ List.replicate 16 0, t.2)) ([], 0)).1

/-- A buddy ends its deep write: the area is whole where it succeeded (R235, R236), and DEEP_DONE goes to the coordinator. -/
def deepArea (d k sl : Nat) (D : Domain) (nsid off : Nat) (s : State) : State :=
  let i := myNeighbour s
  let base := deepOff s D off i sl
  let c := (steepReg s .cadCommittedSteep d).getD k
  let g := nbGrains D
  let s := nsPut nsid (base + 4096) (deepTable D) s
  let (side, s) := g.foldl (fun (t : List Byte × State) key =>
    let gen := (committedGen D (min k c) key).getD 0
    let (r, s) := sideRecord d key gen (D.gens.get (genKey gen key) {}) t.2
    (t.1 ++ r, s)) ([], s)
  let s := nsPut nsid (base + 8192) side s
  let body := base + 8192 + roundUp (D.lMax * 32) 4096
  let s := (g.zip (List.range g.length)).foldl (fun s p =>
    let gen := (committedGen D (min k c) p.1).getD 0
    nsPut nsid (body + p.2 * 65536) (s.bytes (.buddy d gen) (p.1 * 65536) 65536) s) s
  let h := leBytes 4 1 ++ leBytes 6 k ++ leBytes 2 i ++ leBytes 2 (rosterSize s) ++ leBytes 1 d ++ leBytes 1 1 ++
    leBytes 4 g.length ++ leBytes 8 (D.lastTb.get k 0) ++ leBytes 8 (crc64 side) ++ List.replicate 28 0
  nsPut nsid base h s

/-- The deep checkpoint's end at the coordinator: CAD_DEEP_STEEP at every member, sent down the tree as a DEEP_DONE for every index
(assumption 25). -/
def deepComplete (d k : Nat) (s : State) : State :=
  let s := sendDown (mkMsg s d 12 (steep := k) (a := 0xFFFFFFFF)) s
  (s.modDom d (fun D => { D with deep := none, afterDeep := 0 })).setReg .cadDeepSteep k d

/-- Deep writes stop; their headers stay incomplete (R237). -/
def deepStop (d : Nat) (s : State) : State :=
  (s.modDom d (fun D => { D with deepWrite := none })).setFld .cadCkptStatus 2 2 0 d

/-- The coordinator cancels the deep checkpoint; the next is due at the next committed snapshot (R237). -/
def deepCancelAll (d : Nat) (s : State) : State :=
  match s.dom d with
  | some D =>
    match D.deep with
    | some (k, _) =>
      let s := sendDown (mkMsg s d 13 (steep := k)) s
      let s := s.modDom d (fun D => { D with deep := none, afterDeep := 0, lastDeep := k - s.fld .cadDeepCtl 15 0 d })
      deepStop d (log St.deepFailed .error s)
    | none => s
  | none => s

/-- DEEP_DONE for `owner` reaches the coordinator (R237). -/
def deepDoneAt (d k owner : Nat) (st : Status) (s : State) : State :=
  match s.dom d with
  | some D =>
    match D.deep with
    | some (k', l) =>
      if k' ≠ k then s
      else if st ≠ St.success then deepCancelAll d s
      else
        let l := if l.contains owner then l else owner :: l
        let s := s.setDom d { D with deep := some (k, l) }
        if (List.range (rosterSize s)).all (fun i => l.contains i) then deepComplete d k s else s
    | none => s
  | none => s

/-- The end of this buddy's deep write, whole or failed (R236). -/
def deepWriteEnd (d : Nat) (ok : Bool) (s : State) : State :=
  match s.dom d with
  | none => s
  | some D =>
    match D.deepWrite, D.deepTarget with
    | some (k, sl), some (nsid, off) =>
      let owner := myNeighbour s
      let st := if ok then St.success else St.deepFailed
      let s := deepStop d (if ok then deepArea d k sl D nsid off s else s)
      if isCoord s D then deepDoneAt d k owner st s
      else sendCoord D (mkMsg s d 12 (steep := k) (status := st) (a := owner)) false s
    | _, _ => s

/-- A command's effect on an engine of the hub: it happens while the device is ON and no debug freeze holds it (R49). -/
def whenEngine (s : State) (f : State → State) : Out := whenOn s (fun s => if s.frozen then s else f s)

/-- A domain command with its domain. -/
def withDom (d : Nat) (s : State) (f : Domain → State → State) : State :=
  match s.dom d with
  | some D => f D s
  | none => s



/-- A forwarded doorbell is matched at the coordinator (R38); another device on its way passes it on. -/
def execSteepDoorbellForward (d : Nat) (v : Word) (s : State) : Out :=
  whenOn s (fun s => withDom d s (fun D s =>
    if isCoord s D then matchDoorbell d v.toNat s
    else s.emit (.doorbell (nextHop s (coordId D)) d v)))

/-- A spread boundary is applied and passed on (R38). One that does not advance the count changes nothing. -/
def execSteepBoundary (d count tb : Nat) (flag : Bool) (s : State) : Out :=
  whenOn s (fun s => withDom d s (fun D s =>
    if isCoord s D ∨ count ≤ s.reg .cadSteepCount d ∨ 2 ^ 48 ≤ count ∨ domState s d = domStopped then s
    else
      let s := (childrenOf s (selfId s)).foldl (fun s c => s.emit (.boundary c d count tb flag)) s
      applyBoundary d count tb flag s))

def execSnapshotDeclare (d : Nat) (s : State) : Out :=
  whenEngine s (fun s => withDom d s (fun D s =>
    match D.boundaries with
    | b :: _ => if b.flagged ∧ D.snap = none ∧ boundaryReady D b ∧ (hasQuiesced D → b.captured) then declare d s else s
    | [] => s))

def execBoundaryPass (d : Nat) (s : State) : Out :=
  whenEngine s (fun s => withDom d s (fun D s =>
    match D.boundaries with
    | b :: _ => if ¬ b.flagged ∧ boundaryReady D b then popBoundary d s else s
    | [] => s))

def execSnapshotAbandon (d : Nat) (s : State) : Out :=
  whenOn s (fun s => withDom d s (fun D s =>
    match D.boundaries with
    | b :: _ => if b.flagged ∧ hasQuiesced D ∧ ¬ b.captured then abandonSnapshot d s else s
    | [] => s))

def execCopierSendGrain (d : Nat) (s : State) : Out := whenEngine s (copierSend d)

def execGrain (m : Msg) (s : State) : Out := whenEngine s (recvGrain m)

def execGrainAckBatch (d : Nat) (s : State) : Out := whenEngine s (ackBatch d)

def execGrainAck (m : Msg) (s : State) : Out :=
  whenEngine s (fun s => receive m s (fun D s =>
    match D.snap with
    | some sn => if sn.steep = m.steep.toNat then (ackEntries m).foldl (ackGrain m.domain.toNat) s else s
    | none => s))

def execGrainNak (m : Msg) (s : State) : Out :=
  whenEngine s (fun s => receive m s (fun D s =>
    match D.snap with
    | some sn => if sn.steep = m.steep.toNat then (ackEntries m).foldl (nakGrain m.domain.toNat m.status) s else s
    | none => s))

def execSealMsg (m : Msg) (s : State) : Out :=
  whenEngine s (fun s => receive m s (fun D s =>
    match D.arrival with
    | some ar =>
      if ar.steep = m.steep.toNat ∧ m.sender.toNat = myNeighbour s then
        compareSeal m.domain.toNat (s.setDom m.domain.toNat { D with arrival := some { ar with claim := some (m.b.toNat, m.c.toNat) } })
      else s
    | none => s))

def execHeld (m : Msg) (s : State) : Out :=
  whenEngine s (fun s => receive m s (fun D s => atCoord m D s (heldAt m.domain.toNat m.steep.toNat m.a.toNat)))

def execAbandon (m : Msg) (s : State) : Out :=
  whenEngine s (fun s => receive m s (fun D s => atCoord m D s (abandonAt m.domain.toNat m.steep.toNat m.a.toNat m.status)))

/-- DECIDE at the deputy: it holds the decision, and acknowledges it (R228). -/
def execDecideMsg (m : Msg) (s : State) : Out :=
  whenEngine s (fun s => receive m s (fun D s =>
    let d := m.domain.toNat
    let s := s.setDom d { D with deputy := some (m.steep.toNat, m.status, m.a.toNat) }
    sendMsg 0 (mkMsg s d 8 (steep := m.steep.toNat)) s))

def execDecideAck (m : Msg) (s : State) : Out :=
  whenEngine s (fun s => receive m s (fun D s =>
    match D.flight with
    | some f => if f.steep = m.steep.toNat ∧ f.decided.isSome then resolve m.domain.toNat s else s
    | none => s))

/-- DECIDE again, every 1 ms until its acknowledgement (R230). -/
def execDecideResend (d : Nat) (s : State) : Out :=
  whenEngine s (fun s => withDom d s (fun D s =>
    match D.flight with
    | some f =>
      match f.decided with
      | some (st, who) => if hasDeputy s D then sendMsg 1 (mkMsg s d 7 (steep := f.steep) (status := st) (a := who)) s else s
      | none => s
    | none => s))

/-- The commit deadline: the lowest index without HELD is at fault (R229). -/
def execCommitDeadline (d : Nat) (s : State) : Out :=
  whenEngine s (fun s => withDom d s (fun D s =>
    match D.flight with
    | some f =>
      match f.decided, firstBelow (rosterSize s) (fun i => !f.held.contains i) with
      | none, some i => decideSnap d St.commitDeadline i (ftReach (f.tb + s.reg .cadCkptDeadline d * 1000000) s)
      | _, _ => s
    | none => s))

def execCommit (m : Msg) (s : State) : Out :=
  whenEngine s (fun s => receive m s (fun _ s =>
    spread m (applyCommit m.domain.toNat m.steep.toNat (m.flags.getLsbD 0)) s))

def execAbortMsg (m : Msg) (s : State) : Out :=
  whenEngine s (fun s => receive m s (fun _ s => spread m (applyAbort m.domain.toNat m.steep.toNat m.status) s))

/-- REPAIR_REQ at the owner: a CLEAN grain becomes DIRTY, so that the next snapshot carries it (R227). -/
def execRepairReq (m : Msg) (s : State) : Out :=
  whenEngine s (fun s => receive m s (fun D s =>
    let d := m.domain.toNat
    let k := grainKey m.region.toNat (m.a.toNat % 2 ^ 24)
    let g := D.grain k
    if g.st = .clean ∧ (allGrains D).contains k then s.setGrain d k { g with st := .dirty, tag := nextSnapshot s d } else s))

def execBuddyCrcScrub (d region grain : Nat) (s : State) : Out := whenEngine s (scrubBuddy d region grain)

def execDeepWriteDone (d : Nat) (ok : Bool) (s : State) : Out := whenEngine s (deepWriteEnd d ok)

/-- DEEP_DONE: taken by the coordinator; one that names every index sets CAD_DEEP_STEEP and goes on down the tree (R237). -/
def execDeepDone (m : Msg) (s : State) : Out :=
  whenEngine s (fun s => receive m s (fun D s =>
    let d := m.domain.toNat
    if m.a = 0xFFFFFFFF then spread m (fun s => s.setReg .cadDeepSteep m.steep.toNat d) s
    else atCoord m D s (deepDoneAt d m.steep.toNat m.a.toNat m.status)))

def execDeepTimeout (d : Nat) (s : State) : Out :=
  whenEngine s (fun s => withDom d s (fun _ s => deepCancelAll d s))

def execDeepCancel (m : Msg) (s : State) : Out :=
  whenEngine s (fun s => receive m s (fun _ s => spread m (deepStop m.domain.toNat) s))

/-- A next hop that gave no completion is passed over (R219). -/
def execRelayFallback (_domain hop : Nat) (s : State) : Out :=
  whenOn s (fun s => { s with job := { s.job with bypass := if s.job.bypass.contains hop then s.job.bypass else hop :: s.job.bypass } })

end Sys2Proof.Machine
end

