-- ==== Sys2Proof/Machine/Fp.lean ====
section
/-! DEFINITION. Number formats and their exact arithmetic (R82 to R95, R110): values, decoding, rounding, conversion into a format, MX block
scaling, FP32 steps, and the functions of R110. -/

namespace Sys2Proof.Machine

open Sys2Proof

/-- A value: a NaN, an infinity, a signed zero, or ± m · 2^e with m above zero. -/
inductive Val where
  | nan
  | inf (neg : Bool)
  | zero (neg : Bool)
  | fin (neg : Bool) (m : Nat) (e : Int)
deriving DecidableEq, Repr

/-- Completion flags (R105) by their bit. -/
abbrev fInvalid : Nat := 1
abbrev fOverflow : Nat := 2
abbrev fUnderflow : Nat := 4
abbrev fIntSat : Nat := 8
abbrev fScaleClamp : Nat := 16
abbrev fNanIn : Nat := 32

/-- A floating-point element format: exponent and mantissa widths, bias, largest finite value as m · 2^e, and whether its all-ones exponent
holds infinities (R83). -/
structure FpFmt where
  eb   : Nat
  mb   : Nat
  bias : Nat
  maxM : Nat
  maxE : Int
  nan  : Nat
deriving DecidableEq, Repr

/-- What a format code names (R83): an element format and, for MX, its block scaling. -/
inductive Elem where
  | fp (f : FpFmt)
  | int (bits : Nat)
  | mxInt8
deriving DecidableEq, Repr

structure Fmt where
  bits : Nat
  elem : Elem
  mx   : Bool := false
  /-- emax of R94. -/
  emax : Int := 0
deriving DecidableEq, Repr

def fp32 : FpFmt := ⟨8, 23, 127, 2 ^ 24 - 1, 104, 0x7FC00000⟩

/-- The formats of R83. -/
def fmtInfo (code : Nat) : Option Fmt :=
  match code with
  | 0x00 => some { bits := 32, elem := .fp fp32 }
  | 0x01 => some { bits := 16, elem := .fp ⟨8, 7, 127, 255, 120, 0x7FC0⟩ }
  | 0x02 => some { bits := 16, elem := .fp ⟨5, 10, 15, 2047, 5, 0x7E00⟩ }
  | 0x03 => some { bits := 8, elem := .fp ⟨4, 3, 7, 7, 6, 0x7F⟩ }
  | 0x04 => some { bits := 8, elem := .fp ⟨5, 2, 15, 7, 13, 0x7E⟩ }
  | 0x05 => some { bits := 8, elem := .int 8 }
  | 0x06 => some { bits := 4, elem := .int 4 }
  | 0x08 => some { bits := 8, elem := .fp ⟨4, 3, 7, 7, 6, 0x7F⟩, mx := true, emax := 8 }
  | 0x09 => some { bits := 8, elem := .fp ⟨5, 2, 15, 7, 13, 0x7E⟩, mx := true, emax := 15 }
  | 0x0A => some { bits := 6, elem := .fp ⟨3, 2, 3, 7, 2, 0⟩, mx := true, emax := 4 }
  | 0x0B => some { bits := 6, elem := .fp ⟨2, 3, 1, 15, -1, 0⟩, mx := true, emax := 2 }
  | 0x0C => some { bits := 4, elem := .fp ⟨2, 1, 1, 3, 1, 0⟩, mx := true, emax := 2 }
  | 0x0D => some { bits := 8, elem := .mxInt8, mx := true, emax := 0 }
  | 0x0E => some { bits := 32, elem := .int 32 }
  | 0x0F => some { bits := 16, elem := .fp fp32 }
  | _ => none

def isMx (code : Nat) : Bool := decide (8 ≤ code ∧ code ≤ 13)

/-- ± m · 2^e, a zero where m is zero. -/
def mkVal (neg : Bool) (m : Nat) (e : Int) : Val := if m = 0 then .zero neg else .fin neg m e

/-- An integer as a value. -/
def ofInt (i : Int) : Val := mkVal (decide (i < 0)) i.natAbs 0

/-- A two's complement code of `w` bits. -/
def signedOf (w v : Nat) : Int := if v < 2 ^ (w - 1) then (v : Int) else (v : Int) - (2 ^ w : Nat)

/-- The value a floating-point code spells (R83). E4M3 has one NaN code; the formats without NaN code `0` spell numbers only. -/
def decodeFp (f : FpFmt) (c : Nat) : Val :=
  let neg := natBit c (f.eb + f.mb)
  let e := natBits c (f.eb + f.mb - 1) f.mb
  let m := natBits c (f.mb - 1) 0
  let top := e = 2 ^ f.eb - 1
  if f.nan = 0x7F ∧ f.mb = 3 ∧ top ∧ m = 7 then .nan
  else if f.nan ≠ 0 ∧ ¬ (f.mb = 3) ∧ top then (if m = 0 then .inf neg else .nan)
  else if e = 0 then mkVal neg m (1 - (f.bias : Int) - f.mb)
  else .fin neg (2 ^ f.mb + m) ((e : Int) - f.bias - f.mb)

/-- The value an element code spells, its block scale aside. -/
def decodeElem (f : Fmt) (c : Nat) : Val :=
  match f.elem with
  | .fp g => decodeFp g c
  | .int w => ofInt (signedOf w c)
  | .mxInt8 => match ofInt (signedOf 8 c) with
    | .fin n m _ => .fin n m (-6)
    | v => v

/-- A value times 2^k. -/
def Val.scale (v : Val) (k : Int) : Val :=
  match v with
  | .fin n m e => .fin n m (e + k)
  | v => v

/-- An element with its block scale byte: scale 0xFF makes it NaN (R84). -/
def decodeScaled (f : Fmt) (c scale : Nat) : Val :=
  if f.mx = false then decodeElem f c
  else if scale = 0xFF then .nan
  else (decodeElem f c).scale ((scale : Int) - 127)

/-- The FP32 value of a word. -/
def val32 (w : Nat) : Val := decodeFp fp32 w

def Val.isNan : Val → Bool
  | .nan => true
  | _ => false

def Val.isFinite : Val → Bool
  | .zero _ | .fin _ _ _ => true
  | _ => false

/-- floor(log2 |v|) of a finite nonzero value ± m · 2^e. -/
def expOf (m : Nat) (e : Int) : Int := (Nat.log2 m : Int) + e

/-- m · 2^k for an integer k of either sign, rounded down. -/
def shiftBy (m : Nat) (k : Int) : Nat := if 0 ≤ k then m * 2 ^ k.toNat else m / 2 ^ (-k).toNat

/-- Rounding of |x| = m · 2^e to a multiple of 2^q (R88, R89); mode 0 RNE, 1 SR with draw r, 2 RTZ. -/
def roundTo (mode r m : Nat) (e q : Int) : Nat :=
  if q ≤ e then m * 2 ^ (e - q).toNat
  else
    let k := (q - e).toNat
    let lo := m / 2 ^ k
    let rem := m % 2 ^ k
    if mode = 0 then
      if 2 ^ k < 2 * rem ∨ 2 * rem = 2 ^ k ∧ lo % 2 = 1 then lo + 1 else lo
    else if mode = 1 then
      if rem ≠ 0 ∧ 65536 ≤ rem * 65536 / 2 ^ k + r then lo + 1 else lo
    else lo

/-- The code of ± n · 2^q in a floating-point format, n · 2^q representable. -/
def encodeFp (f : FpFmt) (neg : Bool) (n : Nat) (q : Int) : Nat :=
  let s := if neg then 2 ^ (f.eb + f.mb) else 0
  if n = 0 then s
  else
    let x := expOf n q
    if x < 1 - (f.bias : Int) then s + shiftBy n (q - (1 - (f.bias : Int) - f.mb))
    else s + (x + f.bias).toNat * 2 ^ f.mb + (shiftBy n (q - (x - f.mb)) - 2 ^ f.mb)

/-- The exponent of the rounding step at |x| = m · 2^e (R89). -/
def stepOf (f : FpFmt) (m : Nat) (e : Int) : Int := max (expOf m e) (1 - (f.bias : Int)) - f.mb

/-- m · 2^e exceeds n · 2^q. -/
def exceeds (m : Nat) (e : Int) (n : Nat) (q : Int) : Bool :=
  let k := min e q
  decide (n * 2 ^ (q - k).toNat < m * 2 ^ (e - k).toNat)

/-- The infinity code of a format that has one. -/
def infCode (f : FpFmt) (neg : Bool) : Nat := (if neg then 2 ^ (f.eb + f.mb) else 0) + (2 ^ f.eb - 1) * 2 ^ f.mb

/-- Conversion of a value into a floating-point format outside MX (R88 to R93): code and flags. -/
def toFp (f : FpFmt) (mode : Nat) (sat : Bool) (r : Nat) (v : Val) : Nat × Nat :=
  let e4m3 := f.mb = 3
  let sgn (neg : Bool) := if neg then 2 ^ (f.eb + f.mb) else 0
  match v with
  | .nan => (f.nan, 0)
  | .inf neg =>
    if e4m3 then (if sat then encodeFp f neg f.maxM f.maxE else f.nan, fInvalid) else (infCode f neg, 0)
  | .zero neg => (sgn neg, 0)
  | .fin neg m e =>
    let q := stepOf f m e
    let n := roundTo mode r m e q
    if n = 0 then (sgn neg, fUnderflow)
    else if exceeds n q f.maxM f.maxE then
      if mode = 0 ∧ sat = false then (if e4m3 then f.nan else infCode f neg, fOverflow)
      else (encodeFp f neg f.maxM f.maxE, fOverflow)
    else (encodeFp f neg n q, 0)

/-- Conversion into a two's complement integer of `w` bits (R92, R93): code and flags. -/
def toInt (w mode r : Nat) (v : Val) : Nat × Nat :=
  let code (neg : Bool) (n : Nat) : Nat := if neg then (2 ^ w - n) % 2 ^ w else n
  match v with
  | .nan => (0, fInvalid)
  | .inf neg => (if neg then 2 ^ (w - 1) else 2 ^ (w - 1) - 1, Nat.lor fInvalid fIntSat)
  | .zero _ => (0, 0)
  | .fin neg m e =>
    let n := roundTo mode r m e 0
    let lim := if neg then 2 ^ (w - 1) else 2 ^ (w - 1) - 1
    if n = 0 then (0, fUnderflow)
    else if lim < n then (if neg then 2 ^ (w - 1) else 2 ^ (w - 1) - 1, Nat.lor fOverflow fIntSat)
    else (code neg n, 0)

/-- Conversion into a format outside MX. -/
def convert (f : Fmt) (mode : Nat) (sat : Bool) (r : Nat) (v : Val) : Nat × Nat :=
  match f.elem with
  | .fp g => toFp g mode sat r v
  | .int w => toInt w mode r v
  | .mxInt8 => (0, 0)

/-- An element of an MX block at scale exponent `x` (R94): code, and whether it was clamped to the element maximum or became zero. -/
def mxElem (f : Fmt) (mode r : Nat) (x : Int) (v : Val) : Nat × Bool × Bool :=
  match f.elem, v with
  | .fp g, .zero neg => (if neg then 2 ^ (g.eb + g.mb) else 0, false, false)
  | .fp g, .fin neg m e =>
    let e := e - x
    let q := stepOf g m e
    let n := roundTo mode r m e q
    if n = 0 then (if neg then 2 ^ (g.eb + g.mb) else 0, false, true)
    else if exceeds n q g.maxM g.maxE then (encodeFp g neg g.maxM g.maxE, true, false)
    else (encodeFp g neg n q, false, false)
  | .mxInt8, .fin neg m e =>
    let n := roundTo mode r m (e - x) (-6)
    let k := min n 127
    (if k = 0 then 0 else if neg then 256 - k else k, decide (127 < n), decide (n = 0))
  | _, _ => (0, false, false)

/-- The larger magnitude of two values ± m · 2^e, as (m, e). -/
def largerMag (a : Option (Nat × Int)) (v : Val) : Option (Nat × Int) :=
  match a, v with
  | none, .fin _ m e => some (m, e)
  | some (n, q), .fin _ m e => if exceeds m e n q then some (m, e) else some (n, q)
  | a, _ => a

/-- An MX output block (R94): scale byte, element codes, flags. `rs` are the elements' draws. -/
def mxBlock (f : Fmt) (mode : Nat) (rs : List Nat) (vs : List Val) : Nat × List Nat × Nat :=
  if vs.any (fun v => !v.isFinite) then
    let infIn := vs.any (fun v => match v with
      | .inf _ => true
      | _ => false)
    (0xFF, vs.map (fun _ => 0), if infIn then fInvalid else 0)
  else
    match vs.foldl largerMag none with
    | none => (0, vs.map (fun v => (mxElem f mode 0 0 v).1), 0)
    | some (m, e) =>
      let x := expOf m e - f.emax
      let y := if x < -127 then -127 else if 127 < x then 127 else x
      let es := (vs.zip (List.range vs.length)).map (fun p => mxElem f mode (rs.getD p.2 0) y p.1)
      let fl := if x = y then 0 else fScaleClamp
      let fl := if 127 < x ∧ es.any (fun p => p.2.1) then Nat.lor fl fOverflow else fl
      let fl := if es.any (fun p => p.2.2) then Nat.lor fl fUnderflow else fl
      ((y + 127).toNat, es.map (·.1), fl)

/-- Exact product (R98, R108); NaN from zero times infinity. -/
def Val.mul (a b : Val) : Val :=
  match a, b with
  | .nan, _ | _, .nan => .nan
  | .inf _, .zero _ | .zero _, .inf _ => .nan
  | .inf s, .inf t | .inf s, .fin t _ _ | .fin s _ _, .inf t => .inf (s != t)
  | .zero s, .zero t | .zero s, .fin t _ _ | .fin s _ _, .zero t => .zero (s != t)
  | .fin s m e, .fin t n q => .fin (s != t) (m * n) (e + q)

/-- A finite value as a signed multiple of 2^k, k not above its exponent. -/
def Val.units (k : Int) (v : Val) : Int :=
  match v with
  | .fin neg m e => if neg then -((m * 2 ^ (e - k).toNat : Nat) : Int) else ((m * 2 ^ (e - k).toNat : Nat) : Int)
  | _ => 0

/-- Exact sum, signs of zero under IEEE 754 (R98). -/
def Val.add (a b : Val) : Val :=
  match a, b with
  | .nan, _ | _, .nan => .nan
  | .inf s, .inf t => if s = t then .inf s else .nan
  | .inf s, _ | _, .inf s => .inf s
  | .zero s, .zero t => .zero (s && t)
  | .zero _, v | v, .zero _ => v
  | .fin s m e, .fin t n q =>
    let k := min e q
    let x := Val.units k (.fin s m e) + Val.units k (.fin t n q)
    if x = 0 then .zero false else .fin (decide (x < 0)) x.natAbs k

def Val.neg : Val → Val
  | .nan => .nan
  | .inf s => .inf !s
  | .zero s => .zero !s
  | .fin s m e => .fin (!s) m e

def Val.abs : Val → Val
  | .inf _ => .inf false
  | .zero _ => .zero false
  | .fin _ m e => .fin false m e
  | v => v

/-- a is below b in the order of MIN and MAX (R108): -0 below +0; neither a NaN. -/
def Val.lt (a b : Val) : Bool :=
  match a, b with
  | .zero s, .zero t => s && !t
  | .inf s, .inf t => s && !t
  | .inf s, _ => s
  | _, .inf t => !t
  | a, b =>
    match a.add b.neg with
    | .fin neg _ _ => neg
    | _ => false

def Val.maximum (a b : Val) : Val := if a.isNan ∨ b.isNan then .nan else if a.lt b then b else a
def Val.minimum (a b : Val) : Val := if a.isNan ∨ b.isNan then .nan else if b.lt a then b else a

/-- A value rounded to FP32, RNE, with its flags: one arithmetic step (R88). -/
def toF32 (v : Val) : Nat × Nat := toFp fp32 0 false 0 v

def f32 (v : Val) : Val × Nat := let r := toF32 v; (val32 r.1, r.2)

/-- floor(sqrt n): the bits of the root from bit `k` downward. -/
def isqrtFrom (n : Nat) : Nat → Nat → Nat
  | 0, acc => acc
  | k + 1, acc =>
    let t := acc + 2 ^ k
    isqrtFrom n k (if t * t ≤ n then t else acc)

def isqrt (n : Nat) : Nat := isqrtFrom n (Nat.log2 n / 2 + 1) 0

/-- The exact square root of a positive value to 80 bits and a sticky bit, as a value that rounds as the exact root does. -/
def sqrtFin (m : Nat) (e : Int) : Val :=
  let odd := e % 2 ≠ 0
  let m := if odd then 2 * m else m
  let e := if odd then e - 1 else e
  let n := m * 2 ^ 160
  let r := isqrt n
  .fin false (2 * r + (if r * r = n then 0 else 1)) (e / 2 - 81)

/-- sqrt (R110): the value, and the invalid flag. -/
def Val.sqrt (v : Val) : Val × Nat :=
  match v with
  | .nan => (.nan, 0)
  | .zero s => (.zero s, 0)
  | .inf false => (.inf false, 0)
  | .fin false m e => (sqrtFin m e, 0)
  | _ => (.nan, fInvalid)

/-- A result within a bound of an exact positive magnitude m · 2^e (a sticky bit below it where it is not exact): `off` steps of FP32 above the
value rounded toward zero, with overflow and underflow flags (R110). -/
def nearF32 (neg : Bool) (m : Nat) (e : Int) (off : Int) : Val × Nat :=
  let q := stepOf fp32 m e
  let n : Int := (roundTo 2 0 m e q : Int) + off
  if n ≤ 0 then (.zero neg, fUnderflow)
  else if exceeds n.toNat q fp32.maxM fp32.maxE then (.inf neg, fOverflow)
  else (.fin neg n.toNat q, 0)

/-- The quotient a / b of positive magnitudes to 64 bits and a sticky bit. -/
def quotient (m : Nat) (e : Int) (n : Nat) (q : Int) : Nat × Int :=
  let k := Nat.log2 n + 80
  let x := m * 2 ^ k
  (2 * (x / n) + (if x % n = 0 then 0 else 1), e - q - k - 1)

/-- The free choice within 1 ulp (R110): the exact value lies at or above the value rounded toward zero and below the next one; where it is
exact the values one step either side are allowed too. -/
def pick1 (kind key : Nat) (exact : Bool) : Int :=
  let p := Config.ulpPick kind key
  if exact then (p % 3 : Nat) - 1 else (p % 2 : Nat)

/-- The free choice within 2 ulp. -/
def pick2 (kind key : Nat) : Int := ((Config.ulpPick kind key % 4 : Nat) : Int) - 1

/-- A positive magnitude rounded toward zero in FP32 loses nothing. -/
def exactF32 (m : Nat) (e : Int) : Bool :=
  let q := stepOf fp32 m e
  !exceeds m e (roundTo 2 0 m e q) q

/-- 1 / x within 1 ulp (R110). -/
def Val.recip (v : Val) : Val × Nat :=
  match v with
  | .nan => (.nan, 0)
  | .zero s => (.inf s, 0)
  | .inf s => (.zero s, 0)
  | .fin s m e =>
    let (n, q) := quotient 1 0 m e
    nearF32 s n q (pick1 1 (toF32 v).1 (exactF32 n q))

/-- 1 / sqrt(x) within 1 ulp (R110). -/
def Val.rsqrt (v : Val) : Val × Nat :=
  match v with
  | .nan => (.nan, 0)
  | .zero s => (.inf s, 0)
  | .inf false => (.zero false, 0)
  | .fin false m e =>
    match sqrtFin m e with
    | .fin _ r x =>
      let (n, q) := quotient 1 0 r x
      nearF32 false n q (pick1 0 (toF32 v).1 (exactF32 n q))
    | v => (v, 0)
  | _ => (.nan, fInvalid)

/-- Fixed-point unit of the series below: 2^-192. -/
def fixBits : Nat := 192

/-- The sum of z^(2i+1) / (2i+1) over `n` terms, z in fixed point: the area hyperbolic tangent. -/
def atanhSum (z2 : Nat) : Nat → Nat → Nat → Nat
  | 0, _, _ => 0
  | n + 1, i, p => p / (2 * i + 1) + atanhSum z2 n (i + 1) (p * z2 / 2 ^ fixBits)

def atanh (z : Nat) : Nat := atanhSum (z * z / 2 ^ fixBits) 64 0 z

/-- ln 2 in fixed point. -/
def ln2Fix : Nat := 2 * atanh (2 ^ fixBits / 3)

/-- The sum of r^i / i! over `n` terms, r in fixed point. -/
def expSum (r : Nat) : Nat → Nat → Nat → Nat
  | 0, _, _ => 0
  | n + 1, i, p => p + expSum r n (i + 1) (p * r / 2 ^ fixBits / (i + 1))

/-- e^x within 2 ulp (R110). -/
def Val.exp (v : Val) : Val × Nat :=
  match v with
  | .nan => (.nan, 0)
  | .inf neg => (if neg then .zero false else .inf false, 0)
  | .zero _ => (.fin false 1 0, 0)
  | .fin neg m e =>
    if 8 ≤ expOf m e then (if neg then (.zero false, fUnderflow) else (.inf false, fOverflow))
    else
      let x : Int := (shiftBy m (e + fixBits) : Nat)
      let x := if neg then -x else x
      let k := x / (ln2Fix : Int)
      let r := (x - k * ln2Fix).toNat
      nearF32 false (expSum r 64 0 (2 ^ fixBits)) (k - fixBits) (pick2 2 (toF32 v).1)

/-- ln(x) within 2 ulp (R110). -/
def Val.log (v : Val) : Val × Nat :=
  match v with
  | .nan => (.nan, 0)
  | .zero _ => (.inf true, 0)
  | .inf false => (.inf false, 0)
  | .fin false m e =>
    let k := expOf m e
    let y := shiftBy m (e - k + fixBits)
    let one := 2 ^ fixBits
    let z := (y - one) * one / (y + one)
    let l : Int := k * ln2Fix + (2 * atanh z : Nat)
    if l = 0 then (.zero false, 0)
    else nearF32 (decide (l < 0)) l.natAbs (-(fixBits : Int)) (pick2 3 (toF32 v).1)
  | _ => (.nan, fInvalid)

/-- a / b within 1 ulp (R196). -/
def Val.div (a b : Val) : Val × Nat :=
  match a, b with
  | .nan, _ | _, .nan => (.nan, 0)
  | .inf _, .inf _ | .zero _, .zero _ => (.nan, fInvalid)
  | .inf s, .zero t | .inf s, .fin t _ _ | .fin s _ _, .zero t => (.inf (s != t), 0)
  | .zero s, .inf t | .zero s, .fin t _ _ | .fin s _ _, .inf t => (.zero (s != t), 0)
  | .fin s m e, .fin t n q =>
    let (x, y) := quotient m e n q
    nearF32 (s != t) x y (pick1 4 ((toF32 a).1 * 2 ^ 32 + (toF32 b).1) (exactF32 x y))

/-- Codes of `w` bits packed from the lowest bit up (R87). -/
def packNat (w : Nat) : List Nat → Nat
  | [] => 0
  | c :: r => c % 2 ^ w + 2 ^ w * packNat w r

/-- A packed row (R87). -/
def packRow (w : Nat) (l : List Nat) : List Byte := leBytes (ceilDiv (l.length * w) 8) (packNat w l)

/-- Element `i` of a packed row. -/
def unpack (w : Nat) (row : List Byte) (i : Nat) : Nat :=
  let b := w * i / 8
  natBits (fieldLE row b 5) (w * i % 8 + w - 1) (w * i % 8)

/-- One draw of a generator (R90): its next state, whose bits [63:48] are the value. -/
def lfsrStep (s : Nat) : Nat :=
  let m := 2 ^ 64
  let s := Nat.xor s (s * 2 ^ 13 % m)
  let s := Nat.xor s (s / 2 ^ 7)
  Nat.xor s (s * 2 ^ 17 % m)

/-- A zero generator state becomes 1 (R90, R168). -/
def nonzeroSeed (s : Nat) : Nat := if s = 0 then 1 else s

/-- The 32 lane generators loaded from a seed (R90). -/
def laneGens (seed : Nat) : List Nat :=
  (List.range 32).map (fun l => nonzeroSeed (Nat.xor seed (l * 0x9E3779B97F4A7C15 % 2 ^ 64)))

/-- Lane `l` draws: the 16-bit value and the generators after it. -/
def drawLane (g : List Nat) (l : Nat) : Nat × List Nat :=
  let s := lfsrStep (g.getD l 1)
  (s / 2 ^ 48, g.set l s)

end Sys2Proof.Machine
end

