-- ==== Sys2Proof/Machine/Array.lean ====
section
/-! DEFINITION. The tensor array's common operations: partitions and what they reach (R60), the registers of the TNS range (R515), reads that meet
uncorrectable data (R53), a core's reset values (R146), the ends of kernels (R159, R160). -/

namespace Sys2Proof.Machine

open Sys2Proof

/-- The die of a logical core. -/
def coreDie (id : Nat) : Nat := id / 128
def coreCluster (id : Nat) : Nat := id / 16

/-- The partition that holds cluster `cl`, with its number (R148). -/
def partOf (s : State) (cl : Nat) : Option (Nat × Partition) :=
  s.work.parts.find? (fun p => p.2.mask.getLsbD cl)

def State.part (s : State) (p : Nat) : Option Partition := s.work.parts.find p

def State.setPart (s : State) (p : Nat) (P : Partition) : State :=
  { s with work := { s.work with parts := s.work.parts.set p P } }

/-- A Silt range's first byte and length on its die (R148). -/
def siltLo (r : SiltRange) : Nat := r.start.toNat * 2 ^ 24
def siltLen (r : SiltRange) : Nat := (r.count.toNat + 1) * 2 ^ 24

def inSilt (P : Partition) (die off : Nat) : Bool :=
  P.silt.any (fun r => (if r.die then 1 else 0) == die && decide (siltLo r ≤ off ∧ off < siltLo r + siltLen r))

/-- A grant covers an address, for a write only with its write bit (R148). -/
def granted (P : Partition) (a : Nat) (write : Bool) : Bool :=
  P.grants.any (fun g => decide (g.addr ≤ a ∧ a < g.addr + g.len) && (!write || g.write))

/-- The comparator whose registers lie at an offset of the die blocks (R515; their spacing is assumption 26): its number over all dies, and the
byte within its 32. -/
def tcmpAt (off : Nat) : Option (Nat × Nat) :=
  let o := off - 0x2000000
  let die := o / 0x1000000
  let b := o % 0x1000000
  if 0x2000000 ≤ off ∧ off < 0x4000000 ∧ b < 2048 then some (cmpKey (die + 1) (b / 32), b % 32) else none

/-- A partition may reach an array address (R60), and the interrupt controllers and DMA status of its own clusters, which R463 and R468 have its cores write
(assumption 34, DEDUCED). An absent core is told apart before this (R78). -/
def mayReach (s : State) (pn : Nat) (P : Partition) (a : Nat) (write : Bool) : Bool :=
  if 0x000100000000 ≤ a ∧ a < 0x000110000000 then P.mask.getLsbD ((a - 0x000100000000) / 0x1000000)
  else match arrKind s a with
  | .core id => P.mask.getLsbD (id / 16)
  | .cluster cl => P.mask.getLsbD cl
  | .silt die off => inSilt P die off
  | .ddr _ | .host _ _ | .accel _ _ => granted P a write
  | .tns off =>
    if 0x4000000 ≤ off ∧ off < 0x4004000 then
      match s.dom ((off - 0x4000000) / 0x100) with
      | some D => D.owner == P.owner
      | none => false
    else if 0x1000000 ≤ off ∧ off < 0x2000000 ∧ off % 0x100000 < 0x20000 then P.mask.getLsbD ((off - 0x1000000) / 0x100000)
    else match tcmpAt off with
    | some (k, _) => match s.cmp.owner.get k .free with
      | .caller (.slice n) => n == P.owner
      | .caller .pf0 => P.owner == 0
      | .runtime p => p == pn
      | _ => false
    | none => false
  | .nowhere => true

/-- Every byte of a span is reached, checked at each 64 KiB step and at its end. -/
def spanReached (s : State) (pn : Nat) (P : Partition) (a len : Nat) (write : Bool) : Bool :=
  len == 0 || ((List.range (len / 65536 + 1)).all (fun i =>
      decide (len ≤ i * 65536) || mayReach s pn P (a + i * 65536) write) && mayReach s pn P (a + len - 1) write)

/-- The Strata record and the cluster event of an uncorrectable error met by a read of cluster `cl` (R53, R460, R539): the level or logical id, and the
word's address. -/
def eccReport (cl word : Nat) (s : State) : State :=
  let level := if word < 0x000110000000 then 0 else if word < 0x000118000000 then 1 else if word < ddrBase then 2 else 3
  let a0 := if word < 0x000110000000 then (word - 0x000100000000) / 0x100000
    else if word < ddrBase then word % 0x80000000 else word - ddrBase
  let s := log St.dataUncorrectable .error s (a32 := level) (a0 := a0) (a1 := word)
  if level = 0 then eicEvent ((word - 0x000100000000) / 0x1000000) (128 + (word - 0x000100000000) / 0x100000 % 16) s
  else if level = 1 then eicEvent ((word - 0x000110000000) / 0x800000) 144 s
  else if level = 2 ∧ cl < 16 then eicEvent cl 145 s
  else s

/-- The command port's and local registers of a core back at their reset values (R146). -/
def resetLocal (id : Nat) (s : State) : State :=
  { s with regs := s.regs.keep (fun r _ => match r.name with
      | .tnsReach | .tnsDmaStage | .tnsMeStage => r.idx / 16 != id
      | .tnsOptHp => r.idx / 8 != id
      | .tnsSrSeed | .tnsDmaSubmits => r.idx != id
      | _ => true) }

/-- A core after a remap: every register at its reset value, its engine empty (R146). -/
def resetCore (id : Nat) (s : State) : State := resetLocal id (s.setCore id {})

/-- The kernel that a core runs, by its work item. -/
def kernelOf (s : State) (id : Nat) : Option (Nat × Kernel) :=
  s.work.kernels.find? (fun k => k.2.cores.contains id)

/-- A core's part of its kernel has not ended. -/
def runsKernel (s : State) (id : Nat) : Bool :=
  match kernelOf s id with
  | some k => !k.2.ended.any (fun e => e.1 == id)
  | none => false

def State.setItem (s : State) (i : Nat) (w : WorkItem) : State :=
  { s with work := { s.work with items := s.work.items.set i w } }

/-- A started descriptor finishes with its status, field and index (R155). -/
def finishItem (i : Nat) (st : Status) (field who : Nat) (s : State) : State :=
  match s.work.items.find i with
  | some w => s.setItem i { w with stage := .finished st field who }
  | none => s

/-- The ME command port emptied as at a remap: staged words, queue, completions, accumulators (R146, R160). -/
def emptyPort (id : Nat) (s : State) : State :=
  let s := { s with regs := s.regs.keep (fun r _ => match r.name with
      | .tnsMeStage => r.idx / 16 != id
      | _ => true) }
  s.modCore id (fun c => { c with me := { gens := c.me.gens, reload := c.me.reload } })

/-- The descriptors of some cores that wait in a cluster's channels complete with RETRY; those that have moved stay (R160). -/
def dmaDrop (cores : List Nat) (s : State) : State :=
  { s with arr := { s.arr with dma := s.arr.dma.map (fun _ ch =>
      { ch with queue := ch.queue.map (fun e =>
        match e.origin, e.result with
        | .core id, none => if cores.contains id then { e with result := some (St.retry, 0xFFFF, 0) } else e
        | _, _ => e) }) } }

/-- A loaded read of a core no longer matters: its completion's data is discarded. -/
def dropLoads (cores : List Nat) (s : State) : State :=
  { s with pci := { s.pci with reads := s.pci.reads.map (fun r =>
      match r.use with
      | .core id _ => if cores.contains id then { r with discard := true } else r
      | _ => r) } }

/-- A kernel is aborted (R160): its cores stop issue, their ports are emptied, their queued DMA descriptors complete with RETRY, and its descriptor
finishes with the status and the core named. -/
def abortKernel (item : Nat) (st : Status) (who : Nat) (s : State) : State :=
  match s.work.kernels.find item with
  | none => s
  | some k =>
    let s := k.cores.foldl (fun s id => emptyPort id (s.modCore id (fun c => { c with run := .stopped }))) s
    let s := dropLoads k.cores (dmaDrop k.cores s)
    let s := { s with work := { s.work with kernels := s.work.kernels.del item } }
    finishItem item st 0xFFFF who s

/-- Exception entry (R139), or the double fault of R140, which stops the core and ends a tidy core's kernel. -/
def excEnter (id code sub : Nat) (xval epc : Word) (s : State) : State :=
  let c := s.core id
  if c.inx then
    let s := s.setCore id { c with run := .stopped }
    match kernelOf s id with
    | some (item, _) => abortKernel item St.tidyDoubleFault id s
    | none => s
  else
    s.setCore id { c with
      epc := epc
      cause := BitVec.ofNat 32 (sub * 256 + code)
      xval := xval
      pie := c.ie
      ie := false
      inx := true
      resv := none
      run := .running
      pc := c.vbase + BitVec.ofNat 32 (32 * code) }

/-- A register write by its access codes, 64-bit registers word by word (R3, R6). -/
def regPut (r : Reg) (high : Bool) (v : Nat) (s : State) : State :=
  let i := r.name.info
  let old := s.reg r.name r.idx
  let v := v % 2 ^ 32
  if i.width = 32 then (if high then s else s.setReg r.name (applyFields old v i.fields) r.idx)
  else
    let w := if high then old % 2 ^ 32 + v * 2 ^ 32 else old - old % 2 ^ 32 + v
    s.setReg r.name (applyFields old w i.fields) r.idx

/-- The values of RO registers that hardware keeps elsewhere. -/
def regView (s : State) (r : Reg) : Nat :=
  match r.name with
  | .hubFtStatus => ftStatus s
  | .hubFtErrbound => ftErrBound s
  | .strNextSeq => s.strata.nextSeq
  | .strLost => s.strata.lost
  | .strStatus => min s.strata.torn 65535 * 65536 + s.strata.queue.length
  | .mbxStatus =>
    let c : Caller := if r.idx = 0 then .pf0 else if r.idx = 1 then .pf1 else .slice (r.idx - 2)
    let m := s.mailbox c
    m.overrun * 65536 + (if mbxReady s c then 256 else 0) + (if m.done then 2 else 0) + (if m.busy then 1 else 0)
  | .mbxEvtStatus =>
    let c : Caller := if r.idx = 0 then .pf0 else if r.idx = 1 then .pf1 else .slice (r.idx - 2)
    let m := s.mailbox c
    (if m.overflow then 2 ^ 31 else 0) + m.events.length
  | .pciQuarTags => (s.pci.quarant.filter (fun q => match q.1 with
      | .host => r.idx == 0
      | .root sub => r.idx == 1 + sub / 4)).length
  | _ => s.reg r.name r.idx

/-- The channel of cluster `cl`. -/
def State.chan (s : State) (cl ch : Nat) : DmaChannel := s.arr.dma.get (cl * 8 + ch) {}
def State.setChan (s : State) (cl ch : Nat) (c : DmaChannel) : State :=
  { s with arr := { s.arr with dma := s.arr.dma.set (cl * 8 + ch) c } }

/-- Free entries of four channels as TNS_DMA_FREE shows them (R73). -/
def dmaFreeWord (s : State) (cl first : Nat) : Nat :=
  (List.range 4).foldl (fun v i => v + (64 - (s.chan cl (first + i)).queue.length) * 2 ^ (8 * i)) 0

/-- The free slots of an ME command port (R144). -/
def meFree (c : Core) : Nat := 8 - c.me.queue.length - c.me.executed.length - c.me.ready.length

/-- The oldest completion as the completion registers show it (R145): tag, info, offset. -/
def meCplRegs (c : Core) : Nat × Nat × Nat :=
  match c.me.ready with
  | m :: _ => (m.tag, 2 ^ 31 + m.flags * 65536 + m.status.toNat, m.offset)
  | [] => (0, 0, 0xFFFF)

/-- A word of the local register block of core `id` or of its ME command port (R73, R515). -/
def localRead (s : State) (id off : Nat) : Nat :=
  let c := s.core id
  if off = 0 then ((coreSlot s id).getD 0) * 65536 + id
  else if off < 0x40 then s.reg .tnsReach (id * 16 + off / 4)
  else if off = 0x80 then s.reg .tnsSrSeed id % 2 ^ 32
  else if off = 0x84 then s.reg .tnsSrSeed id / 2 ^ 32
  else if 0x100 ≤ off ∧ off < 0x118 then s.reg .tnsOptHp (id * 8 + (off - 0x100) / 4)
  else if 0x200 ≤ off ∧ off < 0x240 then s.reg .tnsDmaStage (id * 16 + (off - 0x200) / 4)
  else if off = 0x244 then dmaFreeWord s (coreCluster id) 0
  else if off = 0x248 then dmaFreeWord s (coreCluster id) 4
  else if off = 0x24C then s.reg .tnsDmaSubmits id
  else if 0x1000 ≤ off ∧ off < 0x1040 then s.reg .tnsMeStage (id * 16 + (off - 0x1000) / 4)
  else if off = 0x1044 then meFree c * 256 + c.me.ready.length * 16 + (c.me.queue.length + c.me.executed.length)
  else if off = 0x1050 then (meCplRegs c).1 % 2 ^ 32
  else if off = 0x1054 then (meCplRegs c).1 / 2 ^ 32
  else if off = 0x1058 then (meCplRegs c).2.1
  else if off = 0x1060 then (meCplRegs c).2.2
  else 0

/-- The register at an offset of a domain's CAD block, and whether it is the high word. -/
def cadReg (off : Nat) : Option (RegName × Bool) :=
  match off with
  | 0x00 => some (.cadDomainCtl, false)
  | 0x04 => some (.cadDomainStatus, false)
  | 0x08 => some (.cadSteepCount, false)
  | 0x0C => some (.cadSteepCount, true)
  | 0x10 => some (.cadDomainLr, false)
  | 0x14 => some (.cadDomainGscale, false)
  | 0x18 => some (.cadSteepStale, false)
  | 0x1C => some (.cadIntakeStale, false)
  | 0x20 => some (.cadDomainNonfinite, false)
  | 0x24 => some (.cadScalarRefused, false)
  | 0x40 => some (.cadCkptCtl, false)
  | 0x48 => some (.cadCkptPeriod, false)
  | 0x4C => some (.cadCkptPeriod, true)
  | 0x50 => some (.cadCkptDeadline, false)
  | 0x54 => some (.cadDeepCtl, false)
  | 0x58 => some (.cadCommittedSteep, false)
  | 0x5C => some (.cadCommittedSteep, true)
  | 0x60 => some (.cadDeclaredSteep, false)
  | 0x64 => some (.cadDeclaredSteep, true)
  | 0x68 => some (.cadDeepSteep, false)
  | 0x6C => some (.cadDeepSteep, true)
  | 0x70 => some (.cadCkptStatus, false)
  | 0x74 => some (.cadCowUsed, false)
  | 0x78 => some (.cadCowPeak, false)
  | 0x7C => some (.cadCowSaves, false)
  | 0x80 => some (.cadCowStalls, false)
  | 0x84 => some (.cadStallUs, false)
  | 0x88 => some (.cadTrigDeferred, false)
  | 0x8C => some (.cadGrainNaks, false)
  | 0x90 => some (.cadWireBytes, false)
  | 0x94 => some (.cadWireBytes, true)
  | 0x98 => some (.cadSnapGrains, false)
  | 0xA0 => some (.cadRecoveryCtl, false)
  | 0xA4 => some (.cadRecoveryStatus, false)
  | 0xA8 => some (.cadRecoveryInfo, false)
  | 0xAC => some (.cadRecoveries, false)
  | 0xB0 => some (.cadRestoredGrains, false)
  | 0xB4 => some (.cadRecoveryUs, false)
  | _ => none

/-- The register at an offset of a cluster's EIC (18). -/
def eicReg (cl off : Nat) : Option Reg :=
  if off < 0x400 then some ⟨.eicSrcCfg, 256 * cl + off / 4⟩
  else if off < 0x440 then some ⟨.eicVbase, 16 * cl + (off - 0x400) / 4⟩
  else if off < 0x460 then some ⟨.eicMask, 8 * cl + (off - 0x440) / 4⟩
  else if off < 0x480 then some ⟨.eicPending, 8 * cl + (off - 0x460) / 4⟩
  else if off < 0x4A0 then some ⟨.eicActive, 8 * cl + (off - 0x480) / 4⟩
  else if off = 0x4A8 then some ⟨.eicBadComplete, cl⟩
  else none

/-- A word of the TNS range; `none` where it is unpopulated (R515). -/
def tnsRead (s : State) (off : Nat) : Option Nat :=
  if off < 0x1000000 then
    if off % 0x10000 < 0x2000 ∧ corePresent s (off / 0x10000) then some (localRead s (off / 0x10000) (off % 0x10000)) else none
  else if off < 0x2000000 then
    let cl := (off - 0x1000000) / 0x100000
    let o := off % 0x100000
    if o < 0x10000 then
      some (match eicReg cl o with
        | some r => s.reg r.name r.idx
        | none => 0)
    else if o < 0x20000 then some 0
    else if o < 0x20010 then some (s.kw (kMap cl ((o - 0x20000) / 4)))
    else if o = 0x20010 then some (s.kw (kSpare cl))
    else none
  else if off < 0x4000000 then
    let die := (off - 0x2000000) / 0x1000000
    let o := off % 0x1000000
    match tcmpAt off with
    | some (k, b) =>
      some (if b = 0 then s.reg .tcmpCtl k else if b = 8 then s.reg .tcmpTarget k % 2 ^ 32
        else if b = 12 then s.reg .tcmpTarget k / 2 ^ 32 else if b = 16 then s.reg .tcmpArg k % 2 ^ 32
        else if b = 20 then s.reg .tcmpArg k / 2 ^ 32 else 0)
    | none =>
      if 0x10000 ≤ o ∧ o < 0x20000 then some 0
      else if 0x20000 ≤ o ∧ o < 0x21000 then some (s.kw (kRetired die ((o - 0x20000) / 4)))
      else none
  else if 0x4000000 ≤ off ∧ off < 0x4004000 then
    let d := (off - 0x4000000) / 0x100
    some (match cadReg (off % 0x100) with
      | some (n, hi) => if hi then s.reg n d / 2 ^ 32 else s.reg n d % 2 ^ 32
      | none => 0)
  else none

/-- The base of a reach window names the partition's own ranges somewhere in its 256 MiB (R62). -/
def windowInside (s : State) (id base : Nat) : Bool :=
  match partOf s (coreCluster id) with
  | none => false
  | some (pn, P) =>
    let lo := base * 2 ^ 28
    let hi := lo + 2 ^ 28
    (List.range 256).any (fun i => match arrKind s (lo + i * 0x100000) with
      | .nowhere => false
      | _ => mayReach s pn P (lo + i * 0x100000) false) ||
    P.grants.any (fun g => decide (g.addr < hi ∧ lo < g.addr + g.len)) ||
    (decide (lo = tnsBase) && (s.doms.any (fun d => d.2.owner == P.owner) || s.cmp.owner.any (fun o => o.2 == .runtime pn ||
      o.2 == .caller (if P.owner = 0 then .pf0 else .slice P.owner))))

/-- A write of TNS_REACH_n (R62). -/
def reachWrite (id n v : Nat) (s : State) : State :=
  let i := id * 16 + n
  let s := s.setReg .tnsReach (applyFields (s.reg .tnsReach i) v RegName.tnsReach.info.fields) i
  if windowInside s id (natBits v 31 12) then s.setFld .tnsReach 2 2 0 i
  else (s.setFld .tnsReach 2 2 1 i).setFld .tnsReach 0 0 0 i

/-- A submit of the staged cluster DMA descriptor; `none` where the channel is full (R73). -/
def dmaSubmit (id v : Nat) (s : State) : Option State :=
  if 8 ≤ v then some s
  else
    let cl := coreCluster id
    let ch := s.chan cl v
    if 64 ≤ ch.queue.length then none
    else
      let desc := (List.range 16).flatMap (fun i => leBytes 4 (s.reg .tnsDmaStage (id * 16 + i)))
      let s := s.setChan cl v { ch with queue := ch.queue ++ [{ desc := desc, origin := .core id }] }
      some (s.bump .tnsDmaSubmits id)

/-- A submit of the staged ME descriptor, with TNS_OPT_HP as part of it; `none` where no slot is free (R144, R195). -/
def meSubmit (id : Nat) (s : State) : Option State :=
  let c := s.core id
  if meFree c = 0 then none
  else
    let w := (List.range 16).map (fun i => BitVec.ofNat 32 (s.reg .tnsMeStage (id * 16 + i))) ++
      (List.range 6).map (fun i => BitVec.ofNat 32 (s.reg .tnsOptHp (id * 8 + i)))
    some (s.setCore id { c with me := { c.me with queue := c.me.queue ++ [w] } })

/-- A write of TNS_ME_POP (R145). -/
def mePop (id : Nat) (s : State) : State := s.modCore id (fun c => { c with me := { c.me with ready := c.me.ready.tail } })

/-- A store to TNS_KERNEL_END (R159). -/
def kernelEnd (id code : Nat) (s : State) : State :=
  match kernelOf s id with
  | some (item, k) =>
    if k.ended.any (fun e => e.1 == id) then s.ignored
    else
      let s := { s with work := { s.work with kernels := s.work.kernels.set item { k with ended := k.ended ++ [(id, code)] } } }
      s.modCore id (fun c => { c with run := .stopped, me := { c.me with ready := [] } })
  | none => s.ignored

/-- A store to TNS_TRACE makes an event record of the core's group (R483): the value in bytes 12 to 15, the rest of the payload a free value. -/
def traceStore (id v : Nat) (s : State) : State :=
  let (f, s) := s.draw 128
  let die := coreDie id
  let group := 128 + die * 32 + coreCluster id % 8 * 4
  sieveRecord (die + 1) (group * 64 + id % 16) (.event (leBytes 4 v ++ leBytes 16 f)) s

def whenArray (s : State) (f : State → State) : Out := whenOn s (fun s => if s.frozen then s else f s)

/-- A corrected error in core memory counts for its core over 24 hours, and calls for a remap at the end of its kernel beyond 64 (R75). -/
def correctedError (id : Nat) (s : State) : State :=
  let slot := coreCluster id * 17 + (coreSlot s id).getD 0
  let now := s.pwr.localNs
  let t := now :: (s.arr.corrected.get slot []).filter (fun (t : Nat) => decide (now < t + 86400000000000))
  let s := { s with arr := { s.arr with corrected := s.arr.corrected.set slot t } }
  if 64 < t.length ∧ ¬ s.arr.remapDue.contains id then
    if natBit (s.kw (kSpare (coreCluster id))) 5 then { s with arr := { s.arr with remapDue := id :: s.arr.remapDue } }
    else log St.spareUnavailable .warning s (a32 := id)
  else s

def execTnsReachWrite (core : Nat) (n : BitVec 4) (v : Word) (s : State) : Out :=
  if 256 ≤ core then .fault .noSuchUnit
  else whenArray s (fun s => if n = 0 then s else reachWrite core n.toNat v.toNat s)

/-- A hop timeout (R67): the third on one link within 1 ms marks it failed; the request that waited ends. -/
def execRouteHopTimeout (link : Nat) (who : Agent) (channel : Nat) (s : State) : Out :=
  whenOn s (fun s =>
    let t := s.pwr.localNs :: (s.arr.linkTimes.get link []).filter (fun t => decide (s.pwr.localNs < t + 1000000))
    let s := { s with arr := { s.arr with linkTimes := s.arr.linkTimes.set link t } }
    let s :=
      if 3 ≤ t.length ∧ ¬ s.arr.linkFailed.contains link then
        log St.meshLinkFailed .warning { s with arr := { s.arr with linkFailed := link :: s.arr.linkFailed } } (a32 := link)
      else s
    match who with
    | .dma cl =>
      let ch := s.chan cl channel
      match ch.queue with
      | e :: q =>
        if e.result.isNone then
          eicEvent cl 146 (s.setChan cl channel { queue := { e with result := some (St.routeTimeout, 0xFFFF, 0) } :: q, failed := true })
        else s
      | [] => s
    | .core id =>
      let c := s.core id
      match c.run with
      | .running | .loading _ _ => eicEvent (id / 16 % 16) 146 (excEnter id 7 5 0 c.pc s)
      | _ => s
    | _ => s)

/-- A submit from outside the core that finds no slot is counted in the debug window (R144). -/
def execTnsMeSubmit (_a : Agent) (core : Nat) (s : State) : Out :=
  if 256 ≤ core then .fault .noSuchUnit
  else whenArray s (fun s => match meSubmit core s with
    | some t => t
    | none => s.ignored)

def execTnsMePop (_a : Agent) (core : Nat) (s : State) : Out :=
  if 256 ≤ core then .fault .noSuchUnit else whenArray s (mePop core)

/-- A submit by a core's store; one that finds the channel full raises the command-port-full exception in the store itself (R73). -/
def execTnsDmaSubmit (core : Nat) (v : Word) (s : State) : Out :=
  if 256 ≤ core then .fault .noSuchUnit else whenArray s (fun s => (dmaSubmit core v.toNat s).getD s)

/-- A write of TNS_SR_SEED's high word: the generators load at the next descriptor (R90, R91). -/
def srSeedLoad (core : Nat) (high : Nat) (s : State) : State :=
  (s.setReg .tnsSrSeed (s.reg .tnsSrSeed core % 2 ^ 32 + high * 2 ^ 32) core).modCore core (fun c =>
    { c with me := { c.me with reload := true } })

def execSrSeedLoad (core : Nat) (high : Word) (s : State) : Out :=
  if 256 ≤ core then .fault .noSuchUnit else whenArray s (srSeedLoad core high.toNat)

end Sys2Proof.Machine
end

