-- ==== Sys2Proof/Machine/Bus.lean ====
section
/-! DEFINITION. Requests that the part issues on its PCI Express links: who may issue them (R289, R300, R305, R309), tags (R288, R304), and where an array
address leads outside the part. -/

namespace Sys2Proof.Machine

open Sys2Proof

/-- The caller that an owner number names: 0 PF0, else a slice. -/
def ownerCaller (n : Nat) : Caller := if n = 0 then .pf0 else .slice n

/-- The function of a caller. -/
def callerPf (s : State) : Caller → Pf
  | .pf0 => .pf0
  | .pf1 => .pf1
  | .slice n => (s.slices.get n {}).parent

/-- D-state of a function, 0 for D0 and 3 for D3hot (R309). -/
def dState (s : State) (f : Pf) : Nat :=
  match f with
  | .pf0 => s.fld .pciHostStatus 9 8
  | .pf1 => s.fld .pciHostStatus 11 10

/-- The status with which a transfer that needs the host link ends at once, if any: the link is down or limited, or no request may be issued for the
function. -/
def hostRefusal (s : State) (c : Caller) : Option Status :=
  let f := callerPf s c
  if s.pci.hostUp = false ∨ s.fld .pciHostStatus 7 7 = 1 then some St.portDown
  else if s.pci.bme.get (pfIdx f) false = false ∨ dState s f = 3 ∨ s.pci.flr.contains f = true then some St.hostAccessDisabled
  else none

/-- The link that an access to array address `a` needs, if it leaves the part, and the address there. -/
def linkFor (s : State) (a : Nat) : Option (Link × Nat) :=
  match arrKind s a with
  | .host _ h => some (.host, h)
  | .accel sub off => some (.root sub, off)
  | _ => none

/-- A request may be issued on a link for a caller; otherwise the status it ends with. -/
def linkRefusal (s : State) (l : Link) (c : Caller) : Option Status :=
  match l with
  | .host => hostRefusal s c
  | .root sub => if s.fld .pciRpStatus 8 8 sub = 1 then none else some St.portDown

def samePort (a b : Link) : Bool :=
  match a, b with
  | .host, .host => true
  | .root x, .root y => x / 4 == y / 4
  | _, _ => false

/-- The lowest tag of a link neither in use nor quarantined, within the limit of outstanding requests (R288, R304). -/
def freeTag (s : State) (l : Link) : Option Nat :=
  let limit := match l with
    | .host => 8192
    | .root _ => 2048
  if limit ≤ (s.pci.reads.filter (fun r => samePort r.link l)).length then none
  else firstBelow 16384 (fun t => !s.pci.reads.any (fun r => r.link == l && r.tag == t) && !s.pci.quarant.contains (l, t))

/-- A read request issued on a link, with its tag; `none` where no tag is free and the request waits. -/
def issueRead (l : Link) (o : Caller) (addr len : Nat) (use : BusUse) (s : State) : Option (Nat × State) :=
  match freeTag s l with
  | none => none
  | some t =>
    let r : BusRead := { link := l, tag := t, owner := o, len := len, use := use }
    some (t, ({ s with pci := { s.pci with reads := s.pci.reads ++ [r] } }).emit (.busRead l t addr len))

end Sys2Proof.Machine
end

