-- ==== Sys2Proof/Machine/Me.lean ====
section
/-! DEFINITION. The matrix engine: descriptor checks (R102, R103, R107), tile operations (R96 to R101), lane mode (R108 to R112), the optimizer operations
(R195, R196), completions (R105, R145, R540). -/

namespace Sys2Proof.Machine

open Sys2Proof

/-- Byte field of a descriptor held as bytes. -/
def dByte (d : List Byte) (i : Nat) : Nat := fieldLE d i 1
def dHalf (d : List Byte) (i : Nat) : Nat := fieldLE d i 2
def dWord (d : List Byte) (i : Nat) : Nat := fieldLE d i 4

/-- A span of core memory: the descriptor byte that names it, first byte, length. -/
structure Span where
  field : Nat
  lo    : Nat
  len   : Nat
deriving DecidableEq, Repr

def Span.past (p : Span) : Bool := p.len != 0 && decide (2 ^ 20 < p.lo + p.len)
def Span.meets (p q : Span) : Bool := p.len != 0 && q.len != 0 && decide (p.lo < q.lo + q.len ∧ q.lo < p.lo + p.len)

/-- The lowest field of which a check fails. -/
def firstBad (l : List (Bool × Nat)) : Option Nat := (l.find? (·.1)).map (·.2)

/-- The lowest-numbered field among some. -/
def lowest : List Nat → Option Nat
  | [] => none
  | a :: r => match lowest r with
    | some b => some (min a b)
    | none => some a

/-- The operand class of a tile format (R97): 1 16-bit, 2 FP8, 3 MX, 4 integer. -/
def tileClass (f : Nat) : Nat :=
  if f = 1 ∨ f = 2 then 1 else if f = 3 ∨ f = 4 then 2 else if isMx f then 3 else if f = 5 ∨ f = 6 then 4 else 0

def fmtBits (f : Nat) : Nat := match fmtInfo f with
  | some i => i.bits
  | none => 0

/-- Bytes of `n` packed elements of format `f`. -/
def packedLen (f n : Nat) : Nat := ceilDiv (n * fmtBits f) 8

/-- The result of running a descriptor: completion status, field, flags, accumulators, generators, and bytes to write by core-memory offset. -/
structure MeOut where
  status : Status := St.success
  field  : Nat := 0xFFFF
  flags  : Nat := 0
  acc    : Option (Nat × List Word)
  gens   : List Nat
  writes : List (Nat × List Byte) := []
deriving DecidableEq, Repr

/-- The checks of a tile descriptor (R103): none, or the status and field. -/
def tileCheck (d : List Byte) (acc : Option (Nat × List Word)) : Option (Status × Nat) × List Span × List Span :=
  let fa := dByte d 1
  let fb := dByte d 2
  let fc := dByte d 3
  let k := dHalf d 4 + 1
  let rnd := dByte d 6
  let ab := dByte d 7
  let m := dByte d 8 % 32 + 1
  let n := dByte d 9 % 32 + 1
  let ca := tileClass fa
  let int := ca = 4
  let init := ab % 4
  let store := natBit ab 2
  let mx := ca = 3
  let w16 (f a : Nat) : Bool := (f == 1 || f == 2) && a % 2 != 0
  let wc := fmtBits fc
  let kept := match acc with
    | some (t, _) => t == (if int then 1 else 0)
    | none => false
  let bad := firstBad [
    (dByte d 0 != 1, 0), (ca == 0, 1), (tileClass fb != ca, 2),
    (wc == 0 || fc == 15 || (fc == 14 && !int), 3),
    (mx && k % 32 != 0, 4),
    (decide (8 ≤ rnd) || rnd % 4 == 3, 6),
    (decide (8 ≤ ab) || init == 3 || (init == 2 && !kept), 7),
    (decide (32 ≤ dByte d 8), 8), (decide (32 ≤ dByte d 9), 9), (dHalf d 10 != 0, 10),
    (w16 fa (dWord d 12), 12), (w16 fb (dWord d 16), 16),
    (store && ((wc == 16 && dWord d 20 % 2 != 0) || (wc == 32 && dWord d 20 % 4 != 0)), 20),
    (init == 1 && dWord d 24 % 4 != 0, 24),
    (w16 fa (dHalf d 28), 28), (w16 fb (dHalf d 30), 30),
    (store && ((wc == 16 && dHalf d 32 % 2 != 0) || (wc == 32 && dHalf d 32 % 4 != 0)), 32),
    (dHalf d 34 != 0, 34), (fc == 14 && dWord d 48 != 0x3F800000, 48), (dWord d 52 != 0, 52)]
  let ins := [⟨12, dWord d 12, (k - 1) * dHalf d 28 + packedLen fa 32⟩, ⟨16, dWord d 16, (k - 1) * dHalf d 30 + packedLen fb 32⟩] ++
    (if init = 1 then [⟨24, dWord d 24, 4096⟩] else []) ++
    (if mx then [⟨36, dWord d 36, k⟩, ⟨40, dWord d 40, k⟩] else [])
  let outs : List Span := if store then
      [⟨20, dWord d 20, (m - 1) * dHalf d 32 + packedLen fc n⟩] ++ (if isMx fc then [⟨44, dWord d 44, m⟩] else [])
    else []
  match bad with
  | some f => (some (St.invalidField, f), ins, outs)
  | none =>
    match lowest (((ins ++ outs).filter Span.past).map (·.field)) with
    | some f => (some (St.addrRange, f), ins, outs)
    | none =>
      match lowest ((outs.filter (fun o => ins.any (o.meets ·))).map (·.field)) with
      | some f => (some (St.operandOverlap, f), ins, outs)
      | none => (none, ins, outs)

/-- One product of a group with its block scales (R98), and whether an input is a NaN. -/
def tileProduct (d mem : List Byte) (fa fb : Fmt) (mx : Bool) (i j k : Nat) : Val × Bool :=
  let ea := unpack fa.bits (mem.drop (dWord d 12 + k * dHalf d 28)) i
  let eb := unpack fb.bits (mem.drop (dWord d 16 + k * dHalf d 30)) j
  let sa := if mx then fieldLE mem (dWord d 36 + k / 32 * 32 + i) 1 else 127
  let sb := if mx then fieldLE mem (dWord d 40 + k / 32 * 32 + j) 1 else 127
  let a := decodeScaled fa ea sa
  let b := decodeScaled fb eb sb
  (a.mul b, a.isNan || b.isNan)

/-- A value truncated where its exponent lies below 2^q: roundTo's result counts steps of 2^q when q exceeds the exponent. -/
def truncVal (q : Int) (v : Val) : Val :=
  match v with
  | .fin s m e => if q ≤ e then .fin s m e else mkVal s (roundTo 2 0 m e q) q
  | v => v

/-- The group sum and its flags (R98, R100). -/
def groupSum (sixteen : Bool) (l : List (Val × Bool)) : Val × Nat :=
  let vs := l.map (·.1)
  let nanIn := l.any (·.2)
  let e := match vs.foldl largerMag none with
    | some (m, e) => expOf m e
    | none => 0
  let vs := if sixteen then vs.map (truncVal (e - 50)) else vs
  let sum := match vs with
    | [] => .zero false
    | v :: r => r.foldl Val.add v
  let fl := if nanIn then fNanIn else 0
  let fl := if sum.isNan ∧ ¬ nanIn then Nat.lor fl fInvalid else fl
  let infs := vs.any (fun v => match v with
    | .inf _ => true
    | _ => false)
  (sum, if infs ∧ ¬ sum.isNan then Nat.lor fl fOverflow else fl)

/-- One accumulator over every group of the descriptor (R98 to R100). -/
def accumulate (d mem : List Byte) (fa fb : Fmt) (cls i j : Nat) : Nat → Nat → Nat → Nat → Nat × Nat
  | 0, _, acc, fl => (acc, fl)
  | g + 1, k0, acc, fl =>
    let k := min 32 (dHalf d 4 + 1 - k0)
    let (sum, f) := groupSum (cls == 1) ((List.range k).map (fun x => tileProduct d mem fa fb (cls == 3) i j (k0 + x)))
    if cls = 4 then
      let x : Int := signedOf 32 acc + sum.units 0
      let y : Int := max (-(2 ^ 31 : Int)) (min x (2 ^ 31 - 1))
      accumulate d mem fa fb cls i j g (k0 + 32) (BitVec.ofInt 32 y).toNat (if x = y then fl else Nat.lor fl fIntSat)
    else
      let a := val32 acc
      let r := a.add sum
      let (w, rf) := toF32 r
      let inv := if r.isNan ∧ ¬ a.isNan ∧ ¬ sum.isNan then fInvalid else 0
      accumulate d mem fa fb cls i j g (k0 + 32) w (Nat.lor (Nat.lor fl f) (Nat.lor rf inv))

/-- A row of outputs converted into format `code` (R88 to R95): bytes, scales, flags and the generators after it. `lane` gives an element's lane. -/
def writeRow (code mode : Nat) (sat : Bool) (lane : Nat → Nat) (gens : List Nat) (vs : List Val) :
    List Nat × List Nat × Nat × List Nat :=
  match fmtInfo code with
  | none => ([], [], 0, gens)
  | some f =>
    let (rs, gens) := if mode = 1 then
        (List.range vs.length).foldl (fun (p : List Nat × List Nat) e =>
          let (r, g) := drawLane p.2 (lane e)
          (p.1 ++ [r], g)) ([], gens)
      else ([], gens)
    if f.mx then
      let blocks := (List.range (ceilDiv vs.length 32)).map (fun b =>
        mxBlock f mode ((rs.drop (32 * b)).take 32) ((vs.drop (32 * b)).take 32))
      (blocks.flatMap (·.2.1), blocks.map (·.1), blocks.foldl (fun a b => Nat.lor a b.2.2) 0, gens)
    else
      let cs := (vs.zip (List.range vs.length)).map (fun p => convert f mode sat (rs.getD p.2 0) p.1)
      (cs.map (·.1), [], cs.foldl (fun a c => Nat.lor a c.2) 0, gens)

/-- A tile descriptor that passed its checks (R96 to R101). -/
def runTile (d mem : List Byte) (acc : Option (Nat × List Word)) (gens : List Nat) : MeOut :=
  match fmtInfo (dByte d 1), fmtInfo (dByte d 2) with
  | some fa, some fb =>
    let cls := tileClass (dByte d 1)
    let int := cls = 4
    let m := dByte d 8 % 32 + 1
    let n := dByte d 9 % 32 + 1
    let init := dByte d 7 % 4
    let groups := ceilDiv (dHalf d 4 + 1) 32
    let start (i j : Nat) : Nat :=
      if init = 1 then fieldLE mem (dWord d 24 + i * 128 + 4 * j) 4
      else if init = 2 then (match acc with
        | some (_, l) => (l.getD (32 * i + j) 0).toNat
        | none => 0)
      else 0
    let cells := (List.range 1024).map (fun c =>
      let i := c / 32
      let j := c % 32
      let a0 := start i j
      if m ≤ i ∨ n ≤ j then (a0, 0)
      else
        let nan0 := if init = 1 ∧ ¬ int ∧ (val32 a0).isNan then fNanIn else 0
        accumulate d mem fa fb cls i j groups 0 a0 nan0)
    let words := cells.map (fun c => BitVec.ofNat 32 c.1)
    let os := val32 (dWord d 48)
    let fl := cells.foldl (fun a c => Nat.lor a c.2) (if os.isNan then fNanIn else 0)
    let out : MeOut := { acc := some (if int then 1 else 0, words), gens := gens, flags := fl }
    if natBit (dByte d 7) 2 then
      let rnd := dByte d 6
      let code := dByte d 3
      (List.range m).foldl (fun (o : MeOut) i =>
        let as := (List.range n).map (fun j =>
          let w := (cells.getD (32 * i + j) (0, 0)).1
          if int then ofInt (signedOf 32 w) else val32 w)
        let vs := as.map (fun a => a.mul os)
        let inv := if (as.zip vs).any (fun p => p.2.isNan && !p.1.isNan && !os.isNan) then fInvalid else 0
        let (cs, sc, f, g) := writeRow code (rnd % 4) (natBit rnd 2) id o.gens vs
        { o with
          gens := g
          flags := Nat.lor o.flags (Nat.lor f inv)
          writes := o.writes ++ [(dWord d 20 + i * dHalf d 32, packRow (fmtBits code) cs)] ++
            (if isMx code then [(dWord d 44 + i, sc.map (BitVec.ofNat 8))] else []) }) out
    else out
  | _, _ => { status := St.invalidField, acc := acc, gens := gens }

/-- The operands a lane operation uses: y, z (R108, R195). -/
def laneUses (op : Nat) : Option (Bool × Bool) :=
  if op = 1 then some (true, true)
  else if op = 2 ∨ op = 4 ∨ op = 5 ∨ op = 6 then some (true, false)
  else if op = 3 ∨ (7 ≤ op ∧ op ≤ 13) ∨ (0x10 ≤ op ∧ op ≤ 0x13) then some (false, false)
  else if 0x20 ≤ op ∧ op ≤ 0x22 then some (true, true)
  else none

/-- The spans of one lane operand: its elements or high plane, and its scales or low plane (R107). -/
def laneSpans (code n fa faux addr aux : Nat) : List Span :=
  [⟨fa, addr, packedLen code n⟩] ++
    (if isMx code then [⟨faux, aux, ceilDiv n 32⟩] else if code = 15 then [⟨faux, aux, 2 * n⟩] else [])

/-- Alignment of a span of format `code` (R103). -/
def misaligned (code a : Nat) : Bool := a % (if fmtBits code = 16 then 2 else if fmtBits code = 32 then 4 else 1) != 0

/-- The formats of an optimizer operation (R195): moments in 0x0D, 0x00 or 0x01, gradient 0x00 or 0x01, master in split planes. -/
def optFormats (d : List Byte) : Option Nat :=
  let mom (f : Nat) : Bool := f == 13 || f == 0 || f == 1
  firstBad [(dByte d 2 != 15, 2), (dByte d 3 != 0 && dByte d 3 != 1, 3), (!mom (dByte d 4), 4), (dByte d 5 != dByte d 4, 5)]

/-- The checks of a lane-mode descriptor (R103, R107, R109, R112, R195): none, or the status and field; input and output spans. -/
def laneCheck (d : List Byte) : Option (Status × Nat) × List Span × List Span :=
  let op := dByte d 1
  let n := dWord d 8
  let uses := (laneUses op).getD (false, false)
  let opt := 0x20 ≤ op
  let red := 0x10 ≤ op ∧ op < 0x20
  let inOk (f : Nat) : Bool := fmtBits f != 0 && f != 14
  let fo := dByte d 5
  let outOk := if op = 0x13 then fo == 14 else if red then fo == 0 else inOk fo
  let second := op = 0x20
  let aligns := [(misaligned (dByte d 2) (dWord d 12), 12), (uses.1 && misaligned (dByte d 3) (dWord d 16), 16),
    (uses.2 && misaligned (dByte d 4) (dWord d 20), 20), ((!opt || second) && misaligned fo (dWord d 24), 24),
    (dByte d 2 == 15 && dWord d 36 % 2 != 0, 36), (uses.1 && dByte d 3 == 15 && dWord d 40 % 2 != 0, 40),
    (uses.2 && dByte d 4 == 15 && dWord d 44 % 2 != 0, 44), (!red && !opt && fo == 15 && dWord d 48 % 2 != 0, 48)]
  let fmts := if opt then (match optFormats d with
      | some f => [(true, f)]
      | none => [])
    else [(!inOk (dByte d 2), 2), (uses.1 && !inOk (dByte d 3), 3), (uses.2 && !inOk (dByte d 4), 4), (!outOk, 5)]
  let bad := firstBad ([(dByte d 0 != 2, 0), ((laneUses op).isNone, 1)] ++ fmts ++
    [(decide (8 ≤ dByte d 6) || dByte d 6 % 4 == 3, 6), (dByte d 7 != 0, 7)] ++ aligns ++ [(dWord d 52 != 0, 52)])
  let x := laneSpans (dByte d 2) n 12 36 (dWord d 12) (dWord d 36)
  let y := if uses.1 then laneSpans (dByte d 3) n 16 40 (dWord d 16) (dWord d 40) else []
  let z := if uses.2 then laneSpans (dByte d 4) n 20 44 (dWord d 20) (dWord d 44) else []
  let o := if red then [⟨24, dWord d 24, 4⟩] else if opt then (if second then laneSpans fo n 24 48 (dWord d 24) (dWord d 48) else [])
    else laneSpans fo n 24 48 (dWord d 24) (dWord d 48)
  let ins := x ++ y ++ z
  let outs := if opt then x ++ z ++ o else o
  let ins := if opt then ins ++ o else ins
  -- An optimizer array coincides with itself only; an ordinary output may coincide with an input of the same start and element width.
  let clash (p : Span) : Bool := ins.any (fun q => p.meets q &&
    !(if opt then p.field == q.field
      else p.lo == q.lo && p.len == q.len && (decide (p.field = 24) == decide (q.field < 24))))
  match bad with
  | some f => (some (St.invalidField, f), ins, outs)
  | none =>
    if 2097152 < n then (some (St.lenTooLarge, 8), ins, outs)
    else if n = 0 then (none, [], [])
    else match lowest (((ins ++ outs).filter Span.past).map (·.field)) with
    | some f => (some (St.addrRange, f), ins, outs)
    | none => match lowest ((outs.filter clash).map (·.field)) with
      | some f => (some (St.operandOverlap, f), ins, outs)
      | none => (none, ins, outs)

/-- A lane-mode operand vector, converted exactly to FP32, and its flags (R109). -/
def laneRead (mem : List Byte) (code n addr aux : Nat) : List Val × Nat :=
  match fmtInfo code with
  | none => ([], 0)
  | some f =>
    let l := (List.range n).map (fun e =>
      if code = 15 then val32 (fieldLE mem (aux + 2 * e) 2 + 65536 * fieldLE mem (addr + 2 * e) 2)
      else decodeScaled f (unpack f.bits (mem.drop addr) e) (fieldLE mem (aux + e / 32) 1))
    let r := l.map (fun v => match v with
      | .fin s m e => if exceeds m e fp32.maxM fp32.maxE then (Val.inf s, fOverflow) else (v, 0)
      | .nan => (v, fNanIn)
      | v => (v, 0))
    (r.map (·.1), r.foldl (fun a p => Nat.lor a p.2) 0)

/-- The exact result of one element of operations 0x01 to 0x0D, with the flags of R110. -/
def laneElem (op : Nat) (x y z a b : Val) : Val × Nat :=
  match op with
  | 1 => ((x.mul y).add z, 0)
  | 2 => ((a.mul x).add (b.mul y), 0)
  | 3 => ((a.mul x).add b, 0)
  | 4 => (x.mul y, 0)
  | 5 => (x.minimum y, 0)
  | 6 => (x.maximum y, 0)
  | 7 => (x.abs, 0)
  | 8 => (x, 0)
  | 9 => x.sqrt
  | 10 => x.rsqrt
  | 11 => x.recip
  | 12 => x.exp
  | 13 => x.log
  | _ => (x, 0)

/-- Pairwise combination of one level of the reduction tree; an empty lane passes its partner (R111). -/
def joinPairs (f : Val → Val → Val × Nat) : List (Option Val) → List (Option Val) × Nat
  | [] => ([], 0)
  | [a] => ([a], 0)
  | a :: b :: r =>
    let (t, fl) := joinPairs f r
    match a, b with
    | some x, some y => let (v, g) := f x y; (some v :: t, Nat.lor fl g)
    | some x, none => (some x :: t, fl)
    | none, y => (y :: t, fl)

def joinTree (f : Val → Val → Val × Nat) : Nat → List (Option Val) × Nat → List (Option Val) × Nat
  | 0, p => p
  | n + 1, p => let q := joinPairs f p.1; joinTree f n (q.1, Nat.lor p.2 q.2)

/-- FP32 steps of the reductions and the optimizer, flags included: NaN from numbers sets invalid. -/
def step32 (ins : List Val) (v : Val) : Val × Nat :=
  let (r, fl) := f32 v
  (r, if v.isNan ∧ ¬ ins.any Val.isNan then Nat.lor fl fInvalid else fl)

def add32 (a b : Val) : Val × Nat := step32 [a, b] (a.add b)
def mul32 (a b : Val) : Val × Nat := step32 [a, b] (a.mul b)

/-- SUM, SUMSQ and RMAX over 256 lanes (R111). -/
def laneReduce (op : Nat) (xs : List Val) : Val × Nat :=
  let comb : Val → Val → Val × Nat := if op = 0x12 then (fun a b => (a.maximum b, 0)) else add32
  let lanes := (List.range 256).map (fun l =>
    let mine := (List.range (ceilDiv (xs.length - l) 256)).map (fun i => xs.getD (256 * i + l) .nan)
    match (if l < xs.length then mine else []) with
    | [] => (none, 0)
    | x :: r =>
      let first := if op = 0x11 then mul32 x x else (x, 0)
      let p := r.foldl (fun (p : Val × Nat) x =>
        let q := if op = 0x11 then step32 [x, p.1] ((x.mul x).add p.1) else comb p.1 x
        (q.1, Nat.lor p.2 q.2)) first
      (some p.1, p.2))
  let t := joinTree comb 8 (lanes.map (·.1), lanes.foldl (fun a l => Nat.lor a l.2) 0)
  match t.1 with
  | some v :: _ => (v, t.2)
  | _ => (.zero false, t.2)

/-- ARGMAX (R111): the lowest index of the largest value, or of the first NaN. -/
def argmax (xs : List Val) : Nat × Nat :=
  match firstBelow xs.length (fun i => (xs.getD i .nan).isNan) with
  | some i => (i, fInvalid)
  | none =>
    ((List.range xs.length).foldl (fun best i => if (xs.getD best .nan).lt (xs.getD i .nan) then i else best) 0, 0)

/-- Chained FP32 arithmetic that gathers flags. -/
structure Acc32 where
  v  : Val
  fl : Nat := 0
deriving DecidableEq, Repr

def Acc32.un (f : Val → Val × Nat) (a : Acc32) : Acc32 := let r := f a.v; ⟨r.1, Nat.lor a.fl r.2⟩
def Acc32.bin (f : Val → Val → Val × Nat) (a b : Acc32) : Acc32 := let r := f a.v b.v; ⟨r.1, Nat.lor (Nat.lor a.fl b.fl) r.2⟩
def Acc32.add (a b : Acc32) : Acc32 := Acc32.bin add32 a b
def Acc32.mul (a b : Acc32) : Acc32 := Acc32.bin mul32 a b
def Acc32.sub (a b : Acc32) : Acc32 := Acc32.bin (fun x y => add32 x y.neg) a b

/-- Hyperparameters of an update (R195). -/
structure OptHp where
  beta1 : Val
  beta2 : Val
  eps   : Val
  wd    : Val
  c1    : Val
  c2    : Val
deriving DecidableEq, Repr

/-- One parameter's update (R196): the exact value of w', m', v' in FP32, or none where the gradient is NaN or infinite; and flags. -/
def optParam (op : Nat) (h : OptHp) (lr gs y w m v : Val) : Option (Val × Val × Val) × Nat :=
  let k (x : Val) : Acc32 := ⟨x, 0⟩
  let one := ofInt 1
  let g := (k y).mul (k gs)
  if g.v.isFinite = false then (none, Nat.lor g.fl fInvalid)
  else
    let b1 := (k one).sub (k h.beta1)
    let b2 := (k one).sub (k h.beta2)
    let ema := ((k h.beta1).mul (k m)).add (b1.mul g)
    let dec := (k h.wd).mul (k w)
    let finish (u : Acc32) (m' v' : Acc32) : Option (Val × Val × Val) × Nat :=
      let s := (k lr).mul (u.add dec)
      (some (w.add s.v.neg, m'.v, v'.v), Nat.lor g.fl (Nat.lor s.fl (Nat.lor m'.fl v'.fl)))
    if op = 0x20 then
      let v' := ((k h.beta2).mul (k v)).add (b2.mul (g.mul g))
      let sq := (v'.mul (k h.c2)).un (fun x => let r := x.sqrt; let q := f32 r.1; (q.1, Nat.lor r.2 q.2))
      finish (Acc32.bin Val.div (ema.mul (k h.c1)) (sq.add (k h.eps))) ema v'
    else if op = 0x21 then
      let m' := ((k h.beta1).mul (k m)).add g
      finish m' m' (k v)
    else
      let sign : Val := match ema.v with
        | .zero _ => .zero false
        | .nan => .nan
        | .inf s | .fin s _ _ => if s then ofInt (-1) else one
      finish ⟨sign, ema.fl⟩ (((k h.beta2).mul (k m)).add (b2.mul g)) (k v)

/-- The arrays of an update: master words, moments, the generators, the count left unchanged and the flags. -/
structure OptOut where
  w       : List Nat
  m       : List Val
  v       : List Val
  gens    : List Nat
  skipped : Nat
  flags   : Nat
  rm      : List Nat := []
  rv      : List Nat := []
deriving DecidableEq, Repr

/-- Updates of every parameter in ascending order, with the draws of R196: `dw`, `dm` say whether w' and the moments draw. -/
def optAll (op : Nat) (h : OptHp) (lr gs : Val) (mode : Nat) (dm : Bool) (gens : List Nat)
    (ys ws ms vs : List Val) : OptOut :=
  (List.range ws.length).foldl (fun (o : OptOut) e =>
    let w := ws.getD e .nan
    let m := ms.getD e (.zero false)
    let v := vs.getD e (.zero false)
    let (rw, g) := if mode = 1 then drawLane o.gens (e % 32) else (0, o.gens)
    let (rm, g) := if dm then drawLane g (e % 32) else (0, g)
    let (rv, g) := if dm ∧ op = 0x20 then drawLane g (e % 32) else (0, g)
    let o := { o with gens := g, rm := o.rm ++ [rm], rv := o.rv ++ [rv] }
    match optParam op h lr gs (ys.getD e .nan) w m v with
    | (none, fl) =>
      { o with w := o.w ++ [(toF32 w).1], m := o.m ++ [m], v := o.v ++ [v], skipped := o.skipped + 1, flags := Nat.lor o.flags fl }
    | (some (w', m', v'), fl) =>
      let (c, f) := toFp fp32 mode false rw w'
      let used := if op = 0x20 then [v, h.beta1, h.beta2, h.eps, h.wd, h.c1, h.c2] else if op = 0x21 then [h.beta1, h.wd] else [h.beta1, h.beta2, h.wd]
      let inv := if [w', m', v'].any Val.isNan ∧ ¬ ([w, m, lr, gs] ++ used).any Val.isNan then fInvalid else 0
      { o with w := o.w ++ [c], m := o.m ++ [m'], v := o.v ++ [v'], flags := Nat.lor o.flags (Nat.lor fl (Nat.lor f inv)) })
    { w := [], m := [], v := [], gens := gens, skipped := 0, flags := 0 }

/-- Moments encoded: 0x0D with SR under R114, 0x01 with the descriptor's rounding, 0x00 as they are. -/
def encodeMoments (code mode : Nat) (rs : List Nat) (vs : List Val) : List Byte × List Byte × Nat :=
  match fmtInfo code with
  | none => ([], [], 0)
  | some f =>
    if f.mx then
      let bl := (List.range (ceilDiv vs.length 32)).map (fun b => mxBlock f 1 ((rs.drop (32 * b)).take 32) ((vs.drop (32 * b)).take 32))
      (packRow f.bits (bl.flatMap (·.2.1)), bl.map (fun b => BitVec.ofNat 8 b.1), bl.foldl (fun a b => Nat.lor a b.2.2) 0)
    else
      let cs := (vs.zip (List.range vs.length)).map (fun p => convert f (if code = 0 then 0 else mode) false (rs.getD p.2 0) p.1)
      (packRow f.bits (cs.map (·.1)), [], cs.foldl (fun a c => Nat.lor a c.2) 0)

/-- The planes of split master weights (R113): high, low. -/
def splitPlanes (l : List Nat) : List Byte × List Byte :=
  (l.flatMap (fun w => leBytes 2 (w / 65536)), l.flatMap (fun w => leBytes 2 (w % 65536)))

/-- Moments draw in an update: always in 0x0D, in 0x01 with an SR descriptor (R196). -/
def momentDraws (code mode : Nat) : Bool := code == 13 || (code == 1 && mode == 1)

/-- An optimizer descriptor that passed its checks (R195, R196). -/
def runOpt (d mem : List Byte) (hp : List Word) (gens : List Nat) : MeOut :=
  let op := dByte d 1
  let n := dWord d 8
  let f := dByte d 4
  let mode := dByte d 6 % 4
  let (xs, fx) := laneRead mem 15 n (dWord d 12) (dWord d 36)
  let (ys, fy) := laneRead mem (dByte d 3) n (dWord d 16) 0
  let (ms, fm) := laneRead mem f n (dWord d 20) (dWord d 44)
  let (vs, fv) := if op = 0x20 then laneRead mem f n (dWord d 24) (dWord d 48) else ([], 0)
  let w (i : Nat) : Val := val32 (hp.getD i 0).toNat
  let h : OptHp := ⟨w 0, w 1, w 2, w 3, w 4, w 5⟩
  let lr := val32 (dWord d 28)
  let gs := val32 (dWord d 32)
  let o := optAll op h lr gs mode (momentDraws f mode) gens ys xs ms vs
  let (hi, lo) := splitPlanes o.w
  let (mb, msc, f1) := encodeMoments f mode o.rm o.m
  let (vb, vsc, f2) := if op = 0x20 then encodeMoments f mode o.rv o.v else ([], [], 0)
  let nanS := if lr.isNan ∨ gs.isNan then fNanIn else 0
  { acc := none, gens := o.gens
    flags := Nat.lor (Nat.lor (Nat.lor fx fy) (Nat.lor fm fv)) (Nat.lor (Nat.lor o.flags nanS) (Nat.lor f1 f2))
    writes := [(dWord d 12, hi), (dWord d 36, lo), (dWord d 20, mb), (dWord d 44, msc), (dWord d 24, vb), (dWord d 48, vsc)] }

/-- A lane-mode descriptor that passed its checks (R108 to R111). -/
def runLane (d mem : List Byte) (hp : List Word) (gens : List Nat) : MeOut :=
  let op := dByte d 1
  let n := dWord d 8
  if n = 0 then { acc := none, gens := gens }
  else if 0x20 ≤ op then runOpt d mem hp gens
  else
    let uses := (laneUses op).getD (false, false)
    let (xs, fx) := laneRead mem (dByte d 2) n (dWord d 12) (dWord d 36)
    let (ys, fy) := if uses.1 then laneRead mem (dByte d 3) n (dWord d 16) (dWord d 40) else ([], 0)
    let (zs, fz) := if uses.2 then laneRead mem (dByte d 4) n (dWord d 20) (dWord d 44) else ([], 0)
    let fl := Nat.lor fx (Nat.lor fy fz)
    if op = 0x13 then
      let (i, f) := argmax xs
      { acc := none, gens := gens, flags := Nat.lor fl f, writes := [(dWord d 24, leBytes 4 i)] }
    else if 0x10 ≤ op then
      let (v, f) := laneReduce op xs
      let (w, f2) := toF32 v
      { acc := none, gens := gens, flags := Nat.lor fl (Nat.lor f f2), writes := [(dWord d 24, leBytes 4 w)] }
    else
      let a := val32 (dWord d 28)
      let b := val32 (dWord d 32)
      let scal := if op = 2 ∨ op = 3 then [a, b] else []
      let fl := if scal.any Val.isNan then Nat.lor fl fNanIn else fl
      let rs := (List.range n).map (fun e =>
        let x := xs.getD e .nan
        let y := ys.getD e (.zero false)
        let z := zs.getD e (.zero false)
        let (v, f) := laneElem op x y z a b
        (v, if v.isNan ∧ ¬ ([x, y, z] ++ scal).any Val.isNan then Nat.lor f fInvalid else f))
      let fl := rs.foldl (fun f r => Nat.lor f r.2) fl
      let code := dByte d 5
      let rnd := dByte d 6
      let (cs, sc, f, g) := writeRow code (rnd % 4) (natBit rnd 2) (· % 32) gens (rs.map (·.1))
      let fl := Nat.lor fl f
      if code = 15 then
        let (hi, lo) := splitPlanes cs
        { acc := none, gens := g, flags := fl, writes := [(dWord d 24, hi), (dWord d 48, lo)] }
      else
        { acc := none, gens := g, flags := fl
          writes := [(dWord d 24, packRow (fmtBits code) cs)] ++ (if isMx code then [(dWord d 48, sc.map (BitVec.ofNat 8))] else []) }

/-- The engine's generators as the next descriptor finds them (R90, R91). -/
def meGens (s : State) (id : Nat) : List Nat :=
  let m := (s.core id).me
  if m.reload ∨ m.gens = [] then laneGens (s.reg .tnsSrSeed id) else m.gens

/-- Output bytes stored up to the first uncorrectable word that a store would cover in part (R53); whether all were stored. -/
def meStore (id : Nat) : List (Nat × List Byte) → State → Bool × State
  | [], s => (true, s)
  | (o, l) :: r, s =>
    let a := coreBase id + o
    match eccPartial s a l.length with
    | some w => (false, eccReport 16 w s)
    | none => meStore id r (memStore (.me id) a l s)

/-- The engine takes the descriptor at the head of its queue, checks it and runs it; its completion waits to be posted (R103 to R106, R145). -/
def meRun (id : Nat) (s : State) : State :=
  let c := s.core id
  match c.me.queue with
  | [] => s
  | q :: rest =>
    let d := (q.take 16).flatMap (fun w => leBytes 4 w.toNat)
    let tag := fieldLE d 56 8
    let finish (status : Status) (field flags : Nat) (acc : Option (Nat × List Word)) (gens : List Nat) (reload : Bool) (s : State) : State :=
      s.modCore id (fun c => { c with me := { c.me with
        queue := rest
        executed := c.me.executed ++ [{ tag := tag, flags := flags, status := status, offset := field }]
        acc := acc
        gens := gens
        reload := reload } })
    let lane := dByte d 0 = 2
    let (bad, ins, _) := if lane then laneCheck d else tileCheck d c.me.acc
    match bad with
    | some (st, f) => finish st f 0 c.me.acc c.me.gens c.me.reload s
    | none =>
      let gens := meGens s id
      match ins.findSome? (fun p => eccHit s (coreBase id + p.lo) p.len) with
      | some w => finish St.dataUncorrectable 0xFFFF 0 none gens false (eccReport 16 w s)
      | none =>
        let mem := s.bytes .array (coreBase id) 0x100000
        let o := if lane then runLane d mem (q.drop 16) gens else runTile d mem c.me.acc gens
        let (ok, s) := meStore id o.writes s
        let s := if lane then pmcAdd (coreCluster id) 3 (dWord d 8) s
          else pmcAdd (coreCluster id) 2 ((dByte d 8 % 32 + 1) * (dByte d 9 % 32 + 1) * (dHalf d 4 + 1)) s (unit := 1024)
        finish (if ok then o.status else St.dataUncorrectable) o.field o.flags o.acc o.gens false s

/-- The op and lane_op of the descriptor at the head of an engine's queue. -/
def meHead (s : State) (id : Nat) : Option (Nat × Nat) :=
  match (s.core id).me.queue with
  | q :: _ => some ((q.getD 0 0).toNat % 256, (q.getD 0 0).toNat / 256 % 256)
  | [] => none

/-- An engine runs its next descriptor where it is a lane-mode operation `op`. -/
def laneRow (id op : Nat) (s : State) : Out :=
  if 256 ≤ id then .fault .noSuchUnit
  else whenArray s (fun s => if meHead s id = some (2, op) then meRun id s else s)

/-- A tile descriptor, and every descriptor whose operation is reserved, which is refused (R103). -/
def execMeTileOp (id : Nat) (s : State) : Out :=
  if 256 ≤ id then .fault .noSuchUnit
  else whenArray s (fun s => match meHead s id with
    | some (op, lane) => if op ≠ 2 ∨ (laneUses lane).isNone then meRun id s else s
    | none => s)

def execLaneFma (id : Nat) (s : State) : Out := laneRow id 0x01 s
def execLaneAxpby (id : Nat) (s : State) : Out := laneRow id 0x02 s
def execLaneScaleAdd (id : Nat) (s : State) : Out := laneRow id 0x03 s
def execLaneMul (id : Nat) (s : State) : Out := laneRow id 0x04 s
def execLaneMin (id : Nat) (s : State) : Out := laneRow id 0x05 s
def execLaneMax (id : Nat) (s : State) : Out := laneRow id 0x06 s
def execLaneAbs (id : Nat) (s : State) : Out := laneRow id 0x07 s
def execLaneConvert (id : Nat) (s : State) : Out := laneRow id 0x08 s
def execLaneSqrt (id : Nat) (s : State) : Out := laneRow id 0x09 s
def execLaneRsqrt (id : Nat) (s : State) : Out := laneRow id 0x0A s
def execLaneRecip (id : Nat) (s : State) : Out := laneRow id 0x0B s
def execLaneExp (id : Nat) (s : State) : Out := laneRow id 0x0C s
def execLaneLog (id : Nat) (s : State) : Out := laneRow id 0x0D s
def execLaneSum (id : Nat) (s : State) : Out := laneRow id 0x10 s
def execLaneSumsq (id : Nat) (s : State) : Out := laneRow id 0x11 s
def execLaneRmax (id : Nat) (s : State) : Out := laneRow id 0x12 s
def execLaneArgmax (id : Nat) (s : State) : Out := laneRow id 0x13 s
def execOptAdamw (id : Nat) (s : State) : Out := laneRow id 0x20 s
def execOptSgdm (id : Nat) (s : State) : Out := laneRow id 0x21 s
def execOptLion (id : Nat) (s : State) : Out := laneRow id 0x22 s

/-- The engine's oldest executed descriptor completes: its completion may be popped, unless the core has ended its part of a kernel, which removes
it as it arrives (R145, R159). -/
def execMeCompletionPosted (id : Nat) (s : State) : Out :=
  if 256 ≤ id then .fault .noSuchUnit
  else whenArray s (fun s =>
    let c := s.core id
    match c.me.executed with
    | [] => s
    | m :: r =>
      let gone := (kernelOf s id).isSome && !runsKernel s id
      s.setCore id { c with me := { c.me with executed := r, ready := if gone then c.me.ready else c.me.ready ++ [m] } })

end Sys2Proof.Machine
end

