-- ==== Sys2Proof/Machine/Dma.lean ====
section
/-! DEFINITION. Cluster DMA (R69 to R73), and the conversion that a selector names (R165, R166). -/

namespace Sys2Proof.Machine

open Sys2Proof

/-- The conversion selector's fields are legal: no reserved bit, format or rounding mode (R4, R165). -/
def selectorOk (sel : Nat) : Bool :=
  let ok (c : Nat) := (fmtInfo c).isSome && c != 0x0E && c != 0x0F
  natBits sel 31 19 == 0 && natBits sel 17 16 != 3 && ok (natBits sel 15 8) && ok (natBits sel 7 0)

/-- `n` values for stochastic rounding outside a matrix engine: the spec names no generator for them. -/
def drawList : Nat → State → List Nat × State
  | 0, s => ([], s)
  | n + 1, s =>
    let (r, s) := s.draw 16
    let (l, s) := drawList n s
    (r :: l, s)

/-- `n` elements converted under a selector: packed elements, scales and ME flag bits of the result (R88 to R95, R165). -/
def convertElems (sel n : Nat) (elems scales : List Byte) (s : State) : List Byte × List Byte × Nat × State :=
  let src := natBits sel 7 0
  let dst := natBits sel 15 8
  let mode := natBits sel 17 16
  let (vs, f0) := laneRead (elems ++ scales) src n 0 elems.length
  match fmtInfo dst with
  | none => ([], [], 0, s)
  | some f =>
    let (rs, s) := if mode = 1 then drawList n s else ([], s)
    if f.mx then
      let blocks := (List.range (ceilDiv n 32)).map (fun b =>
        mxBlock f mode ((rs.drop (32 * b)).take 32) ((vs.drop (32 * b)).take 32))
      (packRow f.bits (blocks.flatMap (·.2.1)), blocks.map (fun b => BitVec.ofNat 8 b.1),
        blocks.foldl (fun a b => Nat.lor a b.2.2) f0, s)
    else
      let cs := (vs.zip (List.range n)).map (fun p => convert f mode (natBit sel 18) (rs.getD p.2 0) p.1)
      (packRow f.bits (cs.map (·.1)), [], cs.foldl (fun a c => Nat.lor a c.2) f0, s)

/-- A cluster DMA descriptor's fields (R69). -/
structure DmaDesc where
  src     : Nat
  dst     : Nat
  rowLen  : Nat
  rows    : Nat
  op      : Nat
  flags   : Nat
  srcStep : Nat
  dstStep : Nat
  pattern : Nat
  cpl     : Nat
deriving DecidableEq, Repr

def dmaDesc (d : List Byte) : DmaDesc :=
  { src := fieldLE d 0 8
    dst := fieldLE d 8 8
    rowLen := fieldLE d 16 4
    rows := fieldLE d 20 2 + 1
    op := fieldLE d 22 1
    flags := fieldLE d 23 1
    srcStep := fieldLE d 24 4
    dstStep := fieldLE d 28 4
    pattern := fieldLE d 32 4
    cpl := fieldLE d 40 8 }

/-- Elements of a row of a copy with conversion. -/
def dmaElems (q : DmaDesc) : Nat := q.rowLen * 8 / fmtBits (natBits q.pattern 7 0)

/-- Scale bytes behind `n` elements of a format (R166). -/
def scaleLen (code n : Nat) : Nat := if isMx code then ceilDiv n 32 else 0

/-- Bytes of a source and of a destination row, scales included (R166). -/
def srcRow (q : DmaDesc) : Nat := if q.op = 2 then q.rowLen + scaleLen (natBits q.pattern 7 0) (dmaElems q) else q.rowLen
def dstRow (q : DmaDesc) : Nat :=
  if q.op = 2 then
    let f := natBits q.pattern 15 8
    packedLen f (dmaElems q) + scaleLen f (dmaElems q)
  else q.rowLen

def spanLen (rows step row : Nat) : Nat := if row = 0 then 0 else (rows - 1) * step + row

/-- A breach of R166 by row lengths or strides. -/
def convertBreach (q : DmaDesc) : Bool :=
  let sf := natBits q.pattern 7 0
  let df := natBits q.pattern 15 8
  q.rowLen * 8 % fmtBits sf != 0 || ((isMx sf || isMx df) && dmaElems q % 32 != 0)

def strideBreach (row step rows : Nat) (mx : Bool) : Bool := mx && decide (1 < rows ∧ 0 < step ∧ step < row)

/-- The first check that a descriptor fails, with its status and field (R12, R69, R71, R166). -/
def dmaCheck (s : State) (cl : Nat) (d : List Byte) : Option (Status × Nat) :=
  let q := dmaDesc d
  let fill := q.op = 1
  let conv := q.op = 2
  let bad := firstBad [
    (decide (q.op ≠ 1) && decide (2 ^ 48 ≤ q.src), 0),
    (decide (2 ^ 48 ≤ q.dst), 8),
    (conv && selectorOk q.pattern && convertBreach q, 16),
    (decide (2 < q.op), 22),
    (decide (3 < q.flags), 23),
    (conv && selectorOk q.pattern && strideBreach (srcRow q) q.srcStep q.rows (isMx (natBits q.pattern 7 0)), 24),
    (decide (1 < q.rows ∧ q.dstStep = 0) || (conv && selectorOk q.pattern &&
      strideBreach (dstRow q) q.dstStep q.rows (isMx (natBits q.pattern 15 8))), 28),
    (conv && !selectorOk q.pattern, 32),
    (fieldLE d 36 4 != 0, 36),
    (decide (2 ^ 48 ≤ q.cpl ∨ q.cpl % 8 ≠ 0), 40),
    (fieldLE d 48 16 != 0, 48)]
  match bad with
  | some f => some (St.invalidField, f)
  | none =>
    let sl := if fill then 0 else spanLen q.rows q.srcStep (srcRow q)
    let dl := spanLen q.rows q.dstStep (dstRow q)
    let pass (a len : Nat) : Bool := len != 0 && decide (2 ^ 48 < a + len)
    match firstBad [(pass q.src sl || (!pass q.src sl && !spanPopulated s q.src sl), 0),
        (pass q.dst dl || (!pass q.dst dl && !spanPopulated s q.dst dl), 8)] with
    | some f => some (St.addrRange, f)
    | none =>
      let reach := match partOf s cl with
        | none => some 0
        | some (pn, P) => firstBad [(!spanReached s pn P q.src sl false, 0), (!spanReached s pn P q.dst dl true, 8)]
      match reach with
      | some f => some (St.reachDenied, f)
      | none => if sl ≠ 0 ∧ dl ≠ 0 ∧ q.src < q.dst + dl ∧ q.dst < q.src + sl then some (St.dmaOverlap, 0) else none

/-- Pattern bytes from place `o` behind the fill's first byte. -/
def patternBytes (pattern o n : Nat) : List Byte :=
  (List.range n).map (fun i => BitVec.ofNat 8 (pattern / 2 ^ (8 * ((o + i) % 4))))

/-- The status of a transfer that touches a core block whose remap runs (R76). -/
def remapHits (s : State) (a len : Nat) : Bool :=
  s.arr.remaps.any (fun r => decide (a < coreBase (r.logical % 256) + 0x100000 ∧ coreBase (r.logical % 256) < a + len))

/-- Rows moved in ascending order, each from its source bytes given by `get`; stops at an uncorrectable word (R53, R71, R72). -/
def dmaRows (cl : Nat) (q : DmaDesc) (get : State → Nat → Nat → List Byte) (check : Bool) : Nat → Nat → Nat → State → Status × Nat × State
  | 0, _, done, s => (St.success, done, s)
  | n + 1, r, done, s =>
    let a := q.src + r * q.srcStep
    let b := q.dst + r * q.dstStep
    let sl := if q.op = 1 then 0 else srcRow q
    let hit := if check then eccHit s a sl else none
    let good := match hit with
      | some w => w / 64 * 64 - a
      | none => sl
    let (l, s) :=
      if q.op = 1 then (patternBytes q.pattern (r * q.dstStep) q.rowLen, s)
      else if q.op = 2 then
        if hit.isSome then ([], s)
        else
          let row := get s a sl
          let (e, x, _, s) := convertElems q.pattern (dmaElems q) (row.take q.rowLen) (row.drop q.rowLen) s
          (e ++ x, s)
      else (get s a good, s)
    match eccPartial s b l.length with
    | some w => (St.dataUncorrectable, done, eccReport cl w s)
    | none =>
      let s := memStore (.dma cl) b l s
      let done := done + l.length
      match hit with
      | some w => (St.dataUncorrectable, done, eccReport cl w s)
      | none => dmaRows cl q get check n (r + 1) done s

/-- The place in a channel's queue of the next descriptor to move, if one may start: every descriptor before it has moved, and with flag [1]
has completed. -/
def dmaNext (ch : DmaChannel) : Option Nat :=
  match firstBelow ch.queue.length (fun i => (ch.queue.getD i ⟨[], .work 0, none⟩).result.isNone) with
  | some i => if natBit (dmaDesc (ch.queue.getD i ⟨[], .work 0, none⟩).desc).flags 1 ∧ i ≠ 0 then none else some i
  | none => none

/-- A descriptor's result set; a failed transfer keeps later descriptors with flag [1] from starting (R72). -/
def dmaResult (cl k i : Nat) (st : Status) (field bytes : Nat) (s : State) : State :=
  let ch := s.chan cl k
  let q := (ch.queue.zip (List.range ch.queue.length)).map (fun e =>
    if e.2 = i then { e.1 with result := some (st, field, min bytes (2 ^ 32 - 1)) } else e.1)
  s.setChan cl k { queue := q, failed := ch.failed || st == St.dataUncorrectable || st == St.routeTimeout }

/-- The transfer's destination needs a link on which the owner may not issue. -/
def dmaLinkRefusal (s : State) (cl a len : Nat) : Option Status :=
  if len = 0 then none
  else match linkFor s a with
  | some (l, _) => linkRefusal s l (match partOf s cl with
      | some (_, P) => ownerCaller P.owner
      | none => .pf0)
  | none => none

/-- A descriptor is admitted and moved, or its read is issued where the source lies behind a link (R71, R303). -/
def dmaStart (cl k i : Nat) (e : DmaEntry) (s : State) : State :=
  let q := dmaDesc e.desc
  let ch := s.chan cl k
  if ch.failed ∧ natBit q.flags 1 then dmaResult cl k i St.retry 0xFFFF 0 s
  else match dmaCheck s cl e.desc with
  | some (st, f) => dmaResult cl k i st f 0 s
  | none =>
    let sl := if q.op = 1 then 0 else spanLen q.rows q.srcStep (srcRow q)
    let dl := spanLen q.rows q.dstStep (dstRow q)
    if remapHits s q.src sl ∨ remapHits s q.dst dl then dmaResult cl k i St.coreRemapped 0xFFFF 0 s
    else match dmaLinkRefusal s cl q.dst dl, dmaLinkRefusal s cl q.src sl with
    | some st, _ => dmaResult cl k i st 0xFFFF 0 s
    | none, some st => dmaResult cl k i st 0xFFFF 0 s
    | none, none =>
      match (if sl = 0 then none else linkFor s q.src) with
      | some (l, addr) =>
        let o := match partOf s cl with
          | some (_, P) => ownerCaller P.owner
          | none => .pf0
        match issueRead l o addr sl (.dma cl k) s with
        | some (_, t) => t
        | none => s
      | none =>
        let rows := if dl = 0 then 0 else q.rows
        let (st, n, s) := dmaRows cl q (fun s a n => s.load a n) true rows 0 0 s
        dmaResult cl k i st 0xFFFF n s

/-- The read of a transfer has come back whole with its bytes, or has ended with a status (R303). -/
def dmaFinishRead (cl k : Nat) (st : Status) (data : List Byte) (s : State) : State :=
  match dmaNext (s.chan cl k) with
  | none => s
  | some i =>
    let q := dmaDesc ((s.chan cl k).queue.getD i ⟨[], .work 0, none⟩).desc
    if st ≠ St.success then dmaResult cl k i st 0xFFFF 0 s
    else
      let (st, n, s) := dmaRows cl q (fun _ a n => slice data (a - q.src) n) false q.rows 0 0 s
      dmaResult cl k i st 0xFFFF n s

/-- A channel waits for the read of its transfer. -/
def dmaReading (s : State) (cl k : Nat) : Bool :=
  s.pci.reads.any (fun r => r.use == .dma cl k && !r.discard)

/-- A channel starts its next descriptor where its operation is one of `ops`. -/
def dmaRow (cl k : Nat) (ops : Nat → Bool) (s : State) : Out :=
  if 16 ≤ cl ∨ 8 ≤ k then .fault .noSuchUnit
  else whenArray s (fun s =>
    let ch := s.chan cl k
    match dmaNext ch with
    | some i =>
      let e := ch.queue.getD i ⟨[], .work 0, none⟩
      if ops (dmaDesc e.desc).op ∧ dmaReading s cl k = false then dmaStart cl k i e s else s
    | none => s)

/-- A copy, and every descriptor of a reserved operation, which is refused. -/
def execDmaCopy (cl k : Nat) (s : State) : Out := dmaRow cl k (fun o => o != 1 && o != 2) s
def execDmaFill (cl k : Nat) (s : State) : Out := dmaRow cl k (fun o => o == 1) s
def execDmaCopyConvert (cl k : Nat) (s : State) : Out := dmaRow cl k (fun o => o == 2) s

/-- The completion record's address is aligned and within the partition; otherwise no record is written. -/
def dmaCplOk (s : State) (cl a : Nat) : Bool :=
  a % 8 == 0 && decide (a < 2 ^ 48) && arrKind s a != .nowhere &&
    (match partOf s cl with
      | some (pn, P) => mayReach s pn P a true
      | none => false)

/-- A descriptor of the work dispatcher ends: its completion goes to its ring (R156). The field's place in the work descriptor is 32 further on. -/
def dmaWorkEnd (item : Nat) (st : Status) (field : Nat) (s : State) : State :=
  finishItem item st (if field = 0xFFFF then field else field + 32) 0xFFFF s

/-- The channel's oldest descriptor, moved, completes: its record, and the events of its cluster (R70, R73, R460). -/
def dmaComplete (cl k : Nat) (s : State) : State :=
  let ch := s.chan cl k
  match ch.queue with
  | [] => s
  | e :: r =>
    match e.result with
    | none => s
    | some (st, f, n) =>
      let q := dmaDesc e.desc
      let s := pmcAdd cl 9 n (s.setChan cl k { queue := r, failed := ch.failed && !r.isEmpty }) (unit := 64)
      let s := match e.origin with
        | .work i => dmaWorkEnd i st f s
        | .core _ =>
          if dmaCplOk s cl q.cpl then memStore (.dma cl) q.cpl (leBytes 2 st.toNat ++ leBytes 2 f ++ leBytes 4 n) s else s
      let s := if natBit q.flags 0 then eicEvent cl k s else s
      if st = St.success then s else eicEvent cl 8 s

def execDmaTransferComplete (cl k : Nat) (s : State) : Out :=
  if 16 ≤ cl ∨ 8 ≤ k then .fault .noSuchUnit else whenOn s (dmaComplete cl k)

end Sys2Proof.Machine
end

