-- ==== Sys2Proof/Machine/Slices.lean ====
section
/-! DEFINITION. Slices: what they hold of the pools (R313 to R318), their doorbell pages (R319, R320), and the checks of a mediated request (R322). -/

namespace Sys2Proof.Machine

open Sys2Proof

/-- A slice exists: slice 0 always does (R313). -/
def sliceLive (s : State) (n : Nat) : Bool := n == 0 || s.slices.has n

def State.slice (s : State) (n : Nat) : Slice := s.slices.get n {}

def State.setSlice (s : State) (n : Nat) (S : Slice) : State := { s with slices := s.slices.set n S }

/-- A write in a slice's page that is ignored and counted (R320). -/
def pageIgnored (n : Nat) (s : State) : State := if sliceLive s n then s.bump .slcDbIgnored n else s.ignored

/-- A doorbell of a slice's page takes effect: the slice exists and does not reset, and the D-states and FLRs of its parent and of PF0, whose BAR2 holds it, allow it (R309, R320). -/
def pageOpen (s : State) (n : Nat) : Bool :=
  let S := s.slice n
  let serves (f : Pf) : Bool := dState s f == 0 && !s.pci.flr.contains f
  sliceLive s n && !S.busy && serves S.parent && serves .pf0

/-- A write of a slice's page: as whenOn, and in Hardpan ignored and counted (R507). -/
def whenPage (n : Nat) (s : State) (f : State → State) : Out :=
  .next (if s.pwr.state = .on then f s else if s.pwr.state = .hardpan then pageIgnored n s else s)

def sumOf (l : List Nat) : Nat := l.foldl (· + ·) 0

/-- Clusters of a mask. -/
def popCount16 (m : BitVec 16) : Nat := sumOf ((List.range 16).map (fun i => if m.getLsbD i then 1 else 0))

def siltUnits (l : List SiltRange) : Nat := sumOf (l.map (fun r => r.count.toNat + 1))

/-- Clusters, Silt units and domains that an owner holds. -/
def heldClusters (s : State) (n : Nat) : Nat :=
  sumOf (List.map (fun p => if p.2.owner = n then popCount16 p.2.mask else 0) s.work.parts)
def heldSilt (s : State) (n : Nat) : Nat :=
  sumOf (List.map (fun p => if p.2.owner = n then siltUnits p.2.silt else 0) s.work.parts)
def heldDomains (s : State) (n : Nat) : Nat :=
  (s.doms.filter (fun p => p.2.owner == n)).length

/-- The sum of a grant over the slices that have one. -/
def grantSum (s : State) (f : SliceReq → Nat) : Nat :=
  sumOf (List.map (fun p => match p.2.grant with
    | some g => f g
    | none => 0) s.slices)

/-- The general reserve at the top of DDR (R173), in GiB, and the DDR that slices and domains may take. -/
abbrev reserveGib : Nat := 80
def poolGib : Nat := Config.ddrBytes / 2 ^ 30 - reserveGib

/-- The most that an owner may hold of clusters, Silt units and domains: its grant, or for slice 0 what the grants leave of the pool (R317). -/
def limitOf (s : State) (n : Nat) (f : SliceReq → Nat) (total : Nat) : Nat :=
  if n = 0 then total - grantSum s f
  else match (s.slice n).grant with
  | some g => f g
  | none => 0

/-- The status of a set-up that would exceed it: slice 0 draws on pools, another slice on its grant (R317, R322). -/
def overLimit (n : Nat) : Status := if n = 0 then St.poolExhausted else St.grantExceeded

/-- An array range is one that a slice may name: in its DDR allocation, in a host window mapped for it, or in the accelerator window of a subport in its
mask (R322). Slice 0 may name any. -/
def rangeGranted (s : State) (n a len : Nat) : Bool :=
  if n = 0 ∨ len = 0 then true
  else match (s.slice n).grant with
  | none => false
  | some g =>
    decide (ddrBase + g.ddrBase * 2 ^ 30 ≤ a ∧ a + len ≤ ddrBase + (g.ddrBase + g.ddrLen) * 2 ^ 30) ||
      s.windows.any (fun w => w.1 == n && decide (w.2.1 ≤ a ∧ a + len ≤ w.2.1 + w.2.2.2)) ||
      (match arrKind s a, arrKind s (a + len - 1) with
        | .accel x _, .accel y _ => x == y && g.accelMask.getLsbD x
        | _, _ => false)

/-- The owner that a mailbox's requests act for (R313): PF0 acts for slice 0. -/
def ownerOf (c : Caller) : Nat := callerNum c

/-- The lowest free handle, 0 to 15 (R319). -/
def freeHandle (t : Tab Nat Nat) : Option Nat := firstBelow 16 (fun h => !t.has h)

end Sys2Proof.Machine
end

