-- ==== Sys2Proof/Machine/Cipher.lean ====
section
/-! DEFINITION. Key slots as the cipher engines use them: ownership, counting and spending (R421, R423), zeroization (R435). -/

namespace Sys2Proof.Machine

open Sys2Proof

def State.modSec (s : State) (f : Security → Security) : State := { s with sec := f s.sec }

/-- Slots 0 to 2,047 are the firmware's (R421). -/
abbrev firmwareSlots : Nat := 2048

/-- A source's event for the entries of one caller that bind it (R471). -/
def irqSourceOf (c : Caller) (src : IrqSource) (s : State) : State :=
  s.irq.entries.foldl (fun s p => if p.1.1 = c ∧ p.2.bindings.contains src then irqEvent p.1.1 p.1.2 s else s) s

/-- The slice that holds a slot from 2,048 on, or none where it is free or the firmware's. -/
def slotHeld (s : State) (k n : Nat) : Bool :=
  decide (firmwareSlots ≤ k) && (match s.sec.slots.find k with
    | some t => t.owner == n
    | none => false)

def State.setSlot (s : State) (k : Nat) (t : KeySlot) : State := s.modSec (fun x => { x with slots := x.slots.set k t })

/-- One invocation on slot `k` for slice `n`: the status that refuses it, if any (R421, R423). A slot that an invocation would take past its limit becomes SPENT; with
1/16 of the limit left KEY_LOW is raised, once. -/
def slotInvoke (k n : Nat) (s : State) : Option Status × State :=
  if slotHeld s k n = false then (some St.keyNotOwned, s)
  else match s.sec.slots.find k with
  | none => (some St.keyNotOwned, s)
  | some t =>
    match t.state with
    | .empty => (some St.keyEmpty, s)
    | .spent => (some St.keySpent, s)
    | .loaded =>
      if t.limit ≤ t.used then (some St.keySpent, (s.setSlot k { t with state := .spent }).bump .secSlotsSpent)
      else
        let used := t.used + 1
        let low : Bool := decide ((t.limit - used) * 16 ≤ t.limit) && !t.low
        let s := s.setSlot k { t with used := used, low := t.low || low }
        (none, if low then irqSourceOf (ownerCaller n) .keyLow s else s)

/-- Each zeroization writes a record naming its scope (0 slot, 1 slice, 2 device, 3 retirement) and requester: a mailbox's number, or 0x10000 for an SPDM
session (R436). -/
def zeroRecord (scope who : Nat) (s : State) : State := log St.keyZeroized .error s (a32 := scope) (a0 := who) (origin := 2)

/-- A slot left EMPTY, its owner unchanged (R435). -/
def slotZeroize (k : Nat) (s : State) : State :=
  match s.sec.slots.find k with
  | some t => s.setSlot k { owner := t.owner }
  | none => s

/-- A slot loaded with a key: its count starts again (R424). -/
def slotLoad (k : Nat) (mode : KeyMode) (limit : Nat) (key : List Byte) (exportable persistent : Bool) (s : State) : State :=
  match s.sec.slots.find k with
  | some t => s.setSlot k { owner := t.owner, state := .loaded, mode := mode, limit := limit, key := key, exportable := exportable, persistent := persistent }
  | none => s

/-- The slots of a slice. -/
def slotsOf (s : State) (n : Nat) : List Nat :=
  (s.sec.slots.keep (fun k t => decide (firmwareSlots ≤ k) && t.owner == n)).unzip.1

/-- A slice's keys zeroized and given back, its transport keys destroyed (R422, R435). -/
def secSliceClear (n : Nat) (free : Bool) (s : State) : State :=
  let l := slotsOf s n
  let s := l.foldl (fun s k => slotZeroize k s) s
  s.modSec (fun x => { x with
    slots := if free then x.slots.keep (fun k _ => !l.contains k) else x.slots
    transport := x.transport.del n }) |> zeroRecord 1 (mbxIdx (ownerCaller n))

/-- Key bytes from the DRBG: 32 for GCM, 64 for XTS (R421). -/
def newKey (mode : KeyMode) (s : State) : List Byte × State :=
  let n := match mode with
    | .gcm => 32
    | .xts => 64
  let (v, s) := s.drbg (8 * n)
  (leBytes n v, s)

end Sys2Proof.Machine
end

