-- ==== Sys2Proof/Machine/Ports.lean ====
section
/-! DEFINITION. The Ethernet ports as senders see them: modes and subports (R360, R362), and the scheduler queues that frames wait in (R377). -/

namespace Sys2Proof.Machine

open Sys2Proof

def State.modNet (s : State) (f : Net → Net) : State := { s with net := f s.net }

/-- Subports of physical port `p` in its running mode (R360). -/
def portSubs (s : State) (p : Nat) : Nat :=
  match s.net.mode.get p 0 with
  | 0 => 1
  | 1 => 2
  | 2 => 4
  | _ => 0

/-- A logical port sends and receives: its link is up and it is enabled. -/
def portLive (s : State) (lp : Nat) : Bool := s.net.up.get lp false && s.fld .netPortCfg 0 0 lp == 1

/-- The logical port on which path `p` leaves: physical port p mod 8 or the next one up, at subport floor(p / 8) mod n (R351, R362). -/
def portOf (s : State) (p : Nat) : Option Nat :=
  let lp (i : Nat) : Nat := let pp := (p + i) % 8; 4 * pp + p / 8 % max 1 (portSubs s pp)
  (firstBelow 8 (fun i => decide (0 < portSubs s ((p + i) % 8)) && portLive s (lp i))).map lp

/-- A frame joins the tail of a scheduler queue. -/
def netQueue (lp q : Nat) (f : TxFrame) (s : State) : State :=
  let k := 16 * lp + q
  s.modNet (fun n => { n with sched := n.sched.set k (n.sched.get k [] ++ [f]) })

/-- The VN700's own IP address of a peer's family: the first registered, or zero (R368). -/
def ownIp (s : State) (peer : Nat) : Nat :=
  let v4 (a : Nat) : Bool := a / 2 ^ 32 == 0xFFFF
  (s.vrm.own.find? (fun a => v4 a == v4 peer)).getD 0

end Sys2Proof.Machine
end

