-- ==== Sys2Proof/Machine/Parser.lean ====
section
/-! DEFINITION. The parser (R367), the classification key (R369), the symmetric hash (R372) and the Internet checksum. Fields of headers are in network byte
order. -/

namespace Sys2Proof.Machine

open Sys2Proof

/-- What the parser reads of a frame (R367). IPv4 addresses are IPv4-mapped. `ip` is 0, 4 or 6 and `l4` 0, 6 or 17; the offsets name where the IP header,
the L4 header and an inner frame begin. -/
structure Parsed where
  dst      : Nat := 0
  src      : Nat := 0
  tags     : Nat := 0
  vid      : Nat := 0
  vid2     : Nat := 0
  etype    : Nat := 0
  ip       : Nat := 0
  srcIp    : Nat := 0
  dstIp    : Nat := 0
  proto    : Nat := 0
  tos      : Nat := 0
  l4       : Nat := 0
  sport    : Nat := 0
  dport    : Nat := 0
  flags    : Nat := 0
  vni      : Option Nat := none
  ipOff    : Nat := 0
  l4Off    : Nat := 0
  innerOff : Nat := 0
  slow     : Option Nat := none
  bad      : Bool := false
deriving DecidableEq, Repr

/-- The folded sum of 16-bit big-endian words. -/
def onesSum (l : List Byte) (start : Nat := 0) : Nat :=
  let words : List Nat := (List.range ((l.length + 1) / 2)).map (fun i => (l.getD (2 * i) 0).toNat * 256 + (l.getD (2 * i + 1) 0).toNat)
  let v := words.foldl (· + ·) start
  let v := v % 65536 + v / 65536
  let v := v % 65536 + v / 65536
  v % 65536 + v / 65536

/-- IPv4-mapped form of an IPv4 address. -/
def mapped4 (a : Nat) : Nat := 0xFFFF * 2 ^ 32 + a

/-- The sum over an L4 segment with its pseudo-header. -/
def l4Sum (p : Parsed) (seg : List Byte) : Nat :=
  onesSum seg (onesSum (beBytes 16 (if p.ip = 4 then p.srcIp % 2 ^ 32 else p.srcIp) ++ beBytes 16 (if p.ip = 4 then p.dstIp % 2 ^ 32 else p.dstIp) ++
    beBytes 4 seg.length ++ beBytes 4 p.proto))

/-- The header that ends at `e` ends beyond the first 256 bytes (R367). -/
def pastEnd (e : Nat) (p : Parsed) : Parsed := if 256 < e then { p with slow := p.slow.or (some 9) } else p

/-- The UDP and TCP headers, and VXLAN behind UDP (R367). `len` is the length of the L4 segment. -/
def parseL4 (vxlan : Nat) (b : List Byte) (o len : Nat) (p : Parsed) : Parsed :=
  if p.proto = 17 then
    let q := pastEnd (o + 8) { p with l4 := 17, l4Off := o, sport := fieldBE b o 2, dport := fieldBE b (o + 2) 2 }
    if q.slow.isSome then q
    else
      let sum := fieldBE b (o + 6) 2
      let seg := slice b o (min len (fieldBE b (o + 4) 2))
      let bad := if sum = 0 then p.ip == 6 else l4Sum q seg != 0xFFFF
      let q := { q with bad := bad }
      if q.dport = vxlan ∧ natBit (fieldBE b (o + 8) 1) 3 then
        pastEnd (o + 16) { q with vni := some (fieldBE b (o + 12) 3), innerOff := o + 16 }
      else q
  else if p.proto = 6 then
    let d := fieldBE b (o + 12) 1 / 16
    let q := pastEnd (o + 4 * d) { p with l4 := 6, l4Off := o, sport := fieldBE b o 2, dport := fieldBE b (o + 2) 2, flags := fieldBE b (o + 13) 1 }
    if q.slow.isSome ∨ d < 5 then q else { q with bad := l4Sum q (slice b o len) != 0xFFFF }
  else p

/-- IPv6 extension headers, at most two of those that are parsed (R367): the last next-header and the offset behind it. -/
def parseExt (b : List Byte) : Nat → Nat → Nat → Parsed → Parsed × Nat
  | fuel, nh, o, p =>
    let p := { p with proto := nh }
    if nh = 44 then ({ p with slow := some 1 }, o)
    else if nh = 50 ∨ nh = 51 ∨ nh = 135 ∨ nh = 139 ∨ nh = 140 then ({ p with slow := some 8 }, o)
    else if nh = 0 ∨ nh = 43 ∨ nh = 60 then
      match fuel with
      | 0 => ({ p with slow := some 8 }, o)
      | n + 1 =>
        let e := o + (fieldBE b (o + 1) 1 + 1) * 8
        let q := pastEnd e p
        if q.slow.isSome then (q, o) else parseExt b n (fieldBE b o 1) e q
    else (p, o)

/-- The network header behind the tags (R367). -/
def parseIp (vxlan : Nat) (b : List Byte) (o : Nat) (p : Parsed) : Parsed :=
  let ver := fieldBE b o 1 / 16
  if p.etype = 0x0800 ∧ ver = 4 then
    let h := (fieldBE b o 1 % 16) * 4
    let q := pastEnd (o + h) { p with
      ip := 4
      ipOff := o
      tos := fieldBE b (o + 1) 1
      proto := fieldBE b (o + 9) 1
      srcIp := mapped4 (fieldBE b (o + 12) 4)
      dstIp := mapped4 (fieldBE b (o + 16) 4) }
    if q.slow.isSome ∨ h < 20 then q
    else if onesSum (slice b o h) ≠ 0xFFFF then { q with bad := true }
    else if fieldBE b (o + 6) 2 % 16384 ≠ 0 then { q with slow := some 1 }
    else parseL4 vxlan b (o + h) (fieldBE b (o + 2) 2 - h) q
  else if p.etype = 0x86DD then
    let q := pastEnd (o + 40) { p with
      ip := 6
      ipOff := o
      tos := fieldBE b o 2 / 16 % 256
      srcIp := fieldBE b (o + 8) 16
      dstIp := fieldBE b (o + 24) 16 }
    if q.slow.isSome then q
    else
      let (q, e) := parseExt b 2 (fieldBE b (o + 6) 1) (o + 40) q
      if q.slow.isSome then q else parseL4 vxlan b e (fieldBE b (o + 4) 2 - (e - o - 40)) q
  else p

/-- At most two tags; a third goes to the slow path (R367). -/
def parseTags (b : List Byte) : Nat → Nat → Parsed → Parsed × Nat
  | fuel, o, p =>
    let t := fieldBE b o 2
    if t = 0x8100 ∨ t = 0x88A8 then
      match fuel with
      | 0 => ({ p with slow := some 7 }, o)
      | n + 1 =>
        let v := fieldBE b (o + 2) 2 % 4096
        parseTags b n (o + 4) (if p.tags = 0 then { p with tags := 1, vid := v } else { p with tags := 2, vid2 := v })
    else ({ p with etype := t }, o + 2)

/-- The parser over a frame without its FCS (R367). -/
def parseFrame (vxlan : Nat) (b : List Byte) : Parsed :=
  let p : Parsed := { dst := fieldBE b 0 6, src := fieldBE b 6 6 }
  let (p, o) := parseTags b 2 12 p
  let p := pastEnd o p
  if p.slow.isSome then p
  else if p.etype < 0x0600 then { p with slow := some 6 }
  else if p.etype = 0x0806 then { p with slow := some 2 }
  else if p.etype = 0x88CC then { p with slow := some 4 }
  else if p.etype = 0x888E then { p with slow := some 5 }
  else parseIp vxlan b o p

/-- The 64-byte key of a frame (R369). -/
def ruleKey (port : Nat) (second : Bool) (p : Parsed) : List Byte :=
  let bits := (if second then 1 else 0) + (if p.tags = 1 then 2 else 0) + (if p.tags = 2 then 4 else 0) + (if p.ip = 4 then 8 else 0) +
    (if p.ip = 6 then 16 else 0) + (if p.l4 = 6 then 32 else 0) + (if p.l4 = 17 then 64 else 0) + (if p.vni.isSome then 128 else 0)
  beBytes 1 port ++ beBytes 1 bits ++ beBytes 2 p.vid ++ beBytes 2 p.vid2 ++ beBytes 2 p.etype ++ beBytes 16 p.srcIp ++ beBytes 16 p.dstIp ++
    beBytes 1 p.proto ++ beBytes 1 p.tos ++ beBytes 2 p.sport ++ beBytes 2 p.dport ++ beBytes 3 (p.vni.getD 0) ++ beBytes 1 p.flags ++
    beBytes 6 p.dst ++ List.replicate 8 0

/-- A frame's key matches an entry: equal under the mask in every field (R369). -/
def ruleMatches (key entry : List Byte) : Bool :=
  (List.range 64).all (fun i =>
    let m := entry.getD (64 + i) 0
    (key.getD i 0) &&& m == (entry.getD i 0) &&& m)

/-- The symmetric hash (R372). `vni` is that of a VXLAN header, or of the one that a second pour removed. -/
def frameHash (p : Parsed) (vni : Nat) : Nat :=
  let (x, y) :=
    if p.ip ≠ 0 ∧ p.l4 ≠ 0 then (p.srcIp * 65536 + p.sport, p.dstIp * 65536 + p.dport)
    else if p.ip ≠ 0 then (p.srcIp * 65536, p.dstIp * 65536)
    else (p.src * 2 ^ 96, p.dst * 2 ^ 96)
  let lo := min x y
  let hi := max x y
  crc32c (beBytes 18 lo ++ beBytes 18 hi ++ beBytes 1 (if p.ip = 0 then 0 else p.proto) ++ beBytes 3 vni)

/-- Bytes `v` put at place `i` of a list. -/
def putAt (l : List Byte) (i : Nat) (v : List Byte) : List Byte := l.take i ++ v ++ l.drop (i + v.length)

/-- The IPv4 header checksum filled in. -/
def fillIp (b : List Byte) (o : Nat) : List Byte :=
  let h := (fieldBE b o 1 % 16) * 4
  let z := putAt b (o + 10) [0, 0]
  putAt z (o + 10) (beBytes 2 (0xFFFF - onesSum (slice z o h)))

/-- The checksums of R376's flag [2] filled in: IPv4 header, and TCP or UDP. A UDP sum that comes out zero is sent as all ones. -/
def fillSums (vxlan : Nat) (b : List Byte) : List Byte :=
  let p := parseFrame vxlan b
  let b := if p.ip = 4 then fillIp b p.ipOff else b
  let p := parseFrame vxlan b
  let at_ := if p.l4 = 17 then 6 else 16
  if p.l4 = 0 then b
  else
    let z := putAt b (p.l4Off + at_) [0, 0]
    let len := if p.l4 = 17 then fieldBE z (p.l4Off + 4) 2
      else if p.ip = 4 then fieldBE z (p.ipOff + 2) 2 - (p.l4Off - p.ipOff) else fieldBE z (p.ipOff + 4) 2 + 40 - (p.l4Off - p.ipOff)
    let c := 0xFFFF - l4Sum p (slice z p.l4Off len)
    putAt z (p.l4Off + at_) (beBytes 2 (if p.l4 = 17 ∧ c = 0 then 0xFFFF else c))

/-- CE set in the ECN field of an IP header (R381). -/
def markCe (b : List Byte) (p : Parsed) : List Byte :=
  if p.ip = 4 then fillIp (putAt b (p.ipOff + 1) (beBytes 1 (Nat.lor p.tos 3))) p.ipOff
  else
    let w := fieldBE b p.ipOff 2
    putAt b p.ipOff (beBytes 2 (Nat.lor w 0x30))

end Sys2Proof.Machine
end

