-- ==== Sys2Proof/Machine/Work.lean ====
section
/-! DEFINITION. Work for the array: partitions (R148 to R151), work rings and completions (R152 to R156), kernels (R157 to R160), resident models (R161
to R164), CONVERT (R165 to R167). -/

namespace Sys2Proof.Machine

open Sys2Proof

/-- The clusters of a mask. -/
def maskList (m : BitVec 16) : List Nat := (List.range 16).filter (fun i => m.getLsbD i)

/-- Bytes that a hub engine reads from an array address. What an accelerator's memory holds is no state of the part, and reads as free values. -/
def fetchBytes (a n : Nat) (s : State) : List Byte × State :=
  match arrKind s a with
  | .accel _ _ => let (v, s) := s.draw (8 * n); (leBytes n v, s)
  | _ => (s.load a n, s)

/-- The status with which an access of a partition's owner through a link ends at once, if any. -/
def ownerLinkRefusal (s : State) (P : Partition) (a len : Nat) : Option Status :=
  if len = 0 then none
  else match linkFor s a with
  | some (l, _) => linkRefusal s l (ownerCaller P.owner)
  | none => none

/-- The first of the checks of R156 that a list of spans fails: (address, length, write, field). -/
def spanCheck (s : State) (pn : Nat) (P : Partition) (l : List (Nat × Nat × Bool × Nat)) : Option (Status × Nat) :=
  let bad (a len : Nat) : Bool := len != 0 && (decide (2 ^ 48 < a + len) || !spanPopulated s a len)
  match l.find? (fun x => bad x.1 x.2.1) with
  | some x => some (St.addrRange, x.2.2.2)
  | none =>
    match l.find? (fun x => !spanReached s pn P x.1 x.2.1 x.2.2.1) with
    | some x => some (St.reachDenied, x.2.2.2)
    | none => (l.findSome? (fun x => ownerLinkRefusal s P x.1 x.2.1)).map (fun st => (st, 0xFFFF))

/-- A work descriptor's header and reserved bytes (R154): the first field at fault. `fl` are the flags that its type allows. -/
def headerBad (d : List Byte) (fl : Nat) : List (Bool × Nat) :=
  [(Nat.land (fieldLE d 1 1) fl != fieldLE d 1 1, 1), (fieldLE d 2 6 != 0, 2)]

/-- The clusters and cores of a kernel's group, in ascending logical id (R157). -/
def kernelGroup (d : List Byte) : List Nat :=
  (List.range 256).filter (fun id => natBit (fieldLE d 16 2) (id / 16) && natBit (fieldLE d 18 2) (id % 16))

/-- A tidy address in the core memory or cluster memory of region 0 (R64). -/
def inRegion0 (a : Nat) : Bool := decide (a < 0x100000 ∨ (0x800000 ≤ a ∧ a < 0x1000000))

/-- The checks of a KERNEL descriptor: status, field, and the core at fault (R156, R157). -/
def kernelCheck (s : State) (pn : Nat) (P : Partition) (d : List Byte) : Option (Status × Nat × Nat) :=
  let entry := fieldLE d 20 4
  let vb := fieldLE d 24 4
  let len := fieldLE d 28 4
  let g := kernelGroup d
  match firstBad (headerBad d 15 ++ [
      (fieldLE d 16 2 == 0, 16),
      (fieldLE d 18 2 == 0, 18),
      (entry % 4 != 0 || !inRegion0 entry, 20),
      (vb % 512 != 0 || !inRegion0 vb, 24),
      ((d.drop 64).any (· != 0), 64)]) with
  | some f => some (St.invalidField, f, 0xFFFF)
  | none =>
    if 0x800000 < len then some (St.lenTooLarge, 28, 0xFFFF)
    else if 0x800000 < fieldLE d 40 4 + len then some (St.addrRange, 40, 0xFFFF)
    else if len ≠ 0 ∧ (2 ^ 48 < fieldLE d 32 8 + len ∨ spanPopulated s (fieldLE d 32 8) len = false) then some (St.addrRange, 32, 0xFFFF)
    else match g.find? (fun id => !P.mask.getLsbD (id / 16)) with
    | some _ => some (St.reachDenied, 16, 0xFFFF)
    | none =>
      if spanReached s pn P (fieldLE d 32 8) len false = false then some (St.reachDenied, 32, 0xFFFF)
      else match g.find? (fun id => !corePresent s id) with
      | some id => some (St.coreAbsent, 18, id)
      | none => (ownerLinkRefusal s P (fieldLE d 32 8) len).map (fun st => (st, 0xFFFF, 0xFFFF))

/-- One core of a group at a kernel's start (R158). The core leaves its clock gate. -/
def startCore (d : List Byte) (idx n id : Nat) (s : State) : State :=
  let args := fieldLE d 48 8
  let gpr : Vector Word 32 := ((((Vector.replicate 32 (0 : Word)).set! 10 (BitVec.ofNat 32 args)).set! 11
    (BitVec.ofNat 32 (args / 2 ^ 32 % 65536))).set! 12 (BitVec.ofNat 32 idx)).set! 13 (BitVec.ofNat 32 n)
  let (seed, s) := if natBit (fieldLE d 1 1) 3 then (Nat.xor (fieldLE d 56 8) id, s) else s.drbg 64
  let s := { s with regs := s.regs.keep (fun r _ => match r.name with
      | .tnsReach => r.idx / 16 != id
      | .tnsOptHp => r.idx / 8 != id
      | _ => true) }
  let s := emptyPort id (s.setReg .tnsSrSeed seed id)
  let s := s.modCore id (fun c => { c with
    gpr := gpr
    pc := BitVec.ofNat 32 (fieldLE d 20 4)
    vbase := BitVec.ofNat 32 (fieldLE d 24 4)
    thr := 0
    inx := false
    pie := false
    ie := false
    split := false
    ovfTrap := false
    rstack := []
    amb := Vector.replicate 4 0
    amc := Vector.replicate 4 0
    run := .running
    me := { c.me with reload := true } })
  eicRelease (coreCluster id) (id % 16) s

/-- A kernel's start, or its run from the start again: the image, then every core of the group (R158). -/
def startGroup (d : List Byte) (s : State) : State :=
  let g := kernelGroup d
  let (img, s) := fetchBytes (fieldLE d 32 8) (fieldLE d 28 4) s
  let s := (List.range 16).foldl (fun s cl =>
    if natBit (fieldLE d 16 2) cl then memStore .hub (clusterBase cl + fieldLE d 40 4) img s else s) s
  (g.zip (List.range g.length)).foldl (fun s p => startCore d p.2 g.length p.1 s) s

/-- A cluster memory's or core memory's zeroing at a partition's creation and destruction, and its Silt's (R149, R150). -/
def zeroPart (P : Partition) (s : State) : State :=
  let s := (maskList P.mask).foldl (fun s cl =>
    zeroRange (clusterBase cl) 0x800000 (zeroRange (coreBase (16 * cl)) 0x1000000 s)) s
  P.silt.foldl (fun s r => zeroRange (siltBase (if r.die then 1 else 0) + siltLo r) (siltLen r) s) s

/-- Every core of a partition at rest. -/
def restCores (P : Partition) (r : RunState) (s : State) : State :=
  (maskList P.mask).foldl (fun s cl => (List.range 16).foldl (fun s c => s.modCore (16 * cl + c) (fun x => { x with run := r })) s) s

/-- The record of a finished descriptor, and the owner's interrupt (R155). A lost set marks every kernel completion (R164). -/
def completionRecord (P : Partition) (ring : Nat) (R : WorkRing) (w : WorkItem) (st : Status) (field who : Nat) : List Byte :=
  let lost := fieldLE w.desc 0 1 == 1 && P.sets.any (·.lost)
  leBytes 8 (fieldLE w.desc 8 8) ++ leBytes 2 (if lost then St.residentLost else st).toNat ++ leBytes 2 field ++ leBytes 2 who ++
    leBytes 1 ring ++ leBytes 1 (if R.phase then 1 else 0)

/-- A completion record written into its completion ring, or held while the host link may not be used (R155, R305). -/
def writeCompletion (id : Nat) (s : State) : State :=
  match s.work.items.find id with
  | none => s
  | some w =>
    match w.stage, s.part w.part with
    | .finished st field who, some P =>
      match P.rings[w.ring]? with
      | none => s
      | some R =>
        let n := 2 ^ R.log2
        let data := completionRecord P w.ring R w st field who
        let a := R.cpl + 16 * R.cplTail
        let t := (R.cplTail + 1) % n
        let R := { R with cplTail := t, phase := if t = 0 then !R.phase else R.phase }
        let s := s.setPart w.part { P with rings := P.rings.set w.ring R }
        let s := { s with work := { s.work with items := s.work.items.del id } }
        let o := ownerCaller P.owner
        let s := match callerSpace o a with
          | .array => memStore .hub a data s
          | sp =>
            if (hostRefusal s o).isSome then { s with pci := { s.pci with held := s.pci.held ++ [(o, a, data)] } }
            else s.store sp a data
        if natBit (fieldLE w.desc 1 1) 0 then irqSource (.workRing w.part w.ring) s else s
    | _, _ => s

/-- The squash of an owner's rings in one partition: running kernels are aborted and their completions written, queued descriptors discarded, ring
indexes back to 0 (R151). -/
def squashPart (pn : Nat) (s : State) : State :=
  let ks := (s.work.kernels.filter (fun k => k.2.part == pn)).unzip.1
  let s := ks.foldl (fun s i => abortKernel i St.kernelAbortedReset 0xFFFF s) s
  let fin := (s.work.items.filter (fun i => i.2.part == pn)).unzip.1
  let s := fin.foldl (fun s i => writeCompletion i s) s
  let s := { s with
    work := { s.work with items := s.work.items.keep (fun _ w => w.part != pn) }
    arr := { s.arr with dma := s.arr.dma.map (fun _ ch =>
      { ch with queue := ch.queue.filter (fun e => match e.origin with
        | .work i => s.work.items.any (fun w => w.1 == i && w.2.part != pn)
        | .core _ => true) }) } }
  match s.part pn with
  | some P => s.setPart pn { P with rings := P.rings.map (fun R =>
      { R with head := 0, tail := 0, cplHead := 0, cplTail := 0, phase := true }) }
  | none => s

/-- A partition is destroyed (R150, R465, R46). -/
def destroyPart (pn : Nat) (s : State) : State :=
  match s.part pn with
  | none => s
  | some P =>
    let s := squashPart pn s
    let cls := maskList P.mask
    let s := dmaDrop ((List.range 256).filter (fun id => P.mask.getLsbD (id / 16))) s
    let s := { s with
      arr := { s.arr with dma := s.arr.dma.keep (fun k _ => !P.mask.getLsbD (k / 8)) }
      pci := { s.pci with reads := s.pci.reads.map (fun r => match r.use with
        | .dma cl _ => if P.mask.getLsbD cl then { r with discard := true } else r
        | .core id _ => if P.mask.getLsbD (id / 16) then { r with discard := true } else r) } }
    let s := restCores P .gated (zeroPart P s)
    let s := cls.foldl (fun s cl => eicReset cl s) s
    let s := cmpRelease (.runtime pn) true s
    let s := { s with work := { s.work with parts := s.work.parts.del pn, lastRing := s.work.lastRing.del pn } }
    s.setSlice P.owner { s.slice P.owner with parts := (s.slice P.owner).parts.keep (fun _ p => p != pn) }

/-- The checks of a partition request in the order of R148, R149 and R322: field number and status. -/
def partCheck (s : State) (c : Caller) (q : PartitionReq) : Option (Nat × Status) :=
  let o := q.owner
  let laps (die : Bool) (lo len : Nat) (r : SiltRange) : Bool := r.die == die && decide (siltLo r < lo + len ∧ lo < siltLo r + siltLen r)
  let inWindow (g : Grant) : Bool := g.len == 0 || (decide (g.addr + g.len ≤ 2 ^ 48) &&
    (decide (ddrBase ≤ g.addr ∧ g.addr + g.len ≤ ddrBase + Config.ddrBytes) ||
      decide (0x040000000000 ≤ g.addr ∧ g.addr + g.len ≤ 0x050000000000) || decide (0x800000000000 ≤ g.addr)))
  let n := q.rings.toNat
  if 4 < q.silt.length then some (2, St.lenTooLarge)
  else if 8 < q.grants.length then some (5, St.lenTooLarge)
  else if sliceLive s o = false then some (0, St.invalidField)
  else if q.clusterMask = 0 then some (1, St.invalidField)
  else if q.grants.any (fun g => g.addr % 4096 != 0 || g.len % 4096 != 0) then some (5, St.invalidField)
  else if n = 0 ∨ 4 < n then some (6, St.invalidField)
  else if q.ring.length ≠ n ∨ q.ring.any (fun r => decide (r.log2 < 6 ∨ 16 < r.log2)) = true then some (7, St.invalidField)
  else if q.silt.any (fun r => decide (0x60000000 < siltLo r + siltLen r)) then some (2, St.addrRange)
  else if q.grants.any (fun g => !inWindow g) then some (5, St.addrRange)
  else if s.work.parts.any (fun p => p.2.mask &&& q.clusterMask != 0) then some (1, St.partitionConflict)
  else if s.work.parts.any (fun p => p.2.silt.any (fun r => q.silt.any (laps r.die (siltLo r) (siltLen r)))) then
    some (2, St.partitionConflict)
  else if (List.range 256).all (fun id => !q.clusterMask.getLsbD (id / 16) || !corePresent s id) then some (1, St.coreAbsent)
  else if c ≠ .pf0 ∧ o ≠ ownerOf c then some (0, St.invalidField)
  else if limitOf s o (·.clusters) 16 < heldClusters s o + popCount16 q.clusterMask then some (1, overLimit o)
  else if limitOf s o (·.silt) 192 < heldSilt s o + siltUnits q.silt then some (2, overLimit o)
  else if q.grants.any (fun g => !rangeGranted s o g.addr g.len) then some (5, St.rangeNotGranted)
  else if (freeHandle (s.slice o).parts).isNone then some (0, St.tableFull)
  else none

/-- PARTITION_CREATE (R148, R149). The reply carries the lowest free handle. -/
def partitionReq (c : Caller) (q : PartitionReq) (s : State) : Option Reply × State :=
  if (s.slice q.owner).busy then refuse St.retry s
  else match partCheck s c q with
  | some (i, st) => refuseAt 0x2001 i st s
  | none =>
    match firstBelow 16 (fun p => !s.work.parts.has p), freeHandle (s.slice q.owner).parts with
    | some pn, some h =>
      let P : Partition := {
        owner := q.owner
        mask := q.clusterMask
        silt := q.silt
        coreShare := q.coreShare.toNat
        clusterShare := q.clusterShare.toNat
        grants := q.grants
        rings := q.ring.map (fun r => { work := r.work, cpl := r.cpl, log2 := r.log2 })
        streamCap := q.streamCap.toNat }
      let s := restCores P .stopped (zeroPart P (s.setPart pn P))
      let S := s.slice q.owner
      accept (s.setSlice q.owner { S with parts := S.parts.set h pn }) [h]
    | _, _ => refuse St.partitionConflict s

def execPartitionCreate (c : Caller) (q : PartitionReq) (s : State) : Out :=
  whenOn s (fun s => mbxServe c 0x2001 s (fun _ s => partitionReq c q s))

/-- PARTITION_DESTROY (R150): the owner names its handle. -/
def execPartitionDestroy (c : Caller) (handle : Nat) (s : State) : Out :=
  whenOn s (fun s => mbxServe c 0x2002 s (fun _ s =>
    match (s.slice (ownerOf c)).parts.find handle with
    | some pn => accept (destroyPart pn s)
    | none => refuseAt 0x2002 0 St.invalidField s))

/-- A doorbell of ring `j` of partition handle `h` in a slice's page (R152, R320). One of a partition that the slice does not hold is counted in both places
that R150 and R320 name. -/
def ringDoor (n h j v : Nat) (s : State) (f : WorkRing → WorkRing) : State :=
  if pageOpen s n = false then pageIgnored n s
  else match (s.slice n).parts.find h with
  | none => (pageIgnored n s).ignored
  | some pn =>
    match s.part pn with
    | none => (pageIgnored n s).ignored
    | some P =>
      match P.rings[j]? with
      | none => pageIgnored n s
      | some R => if 2 ^ R.log2 ≤ v then pageIgnored n s else s.setPart pn { P with rings := P.rings.set j (f R) }

def execWorkRingTailDoorbell (n h j : Nat) (v : Word) (s : State) : Out :=
  whenPage n s (fun s => ringDoor n h j v.toNat s (fun R => { R with tail := v.toNat }))

def execWorkRingHeadDoorbell (n h j : Nat) (v : Word) (s : State) : Out :=
  whenPage n s (fun s => ringDoor n h j v.toNat s (fun R => { R with cplHead := v.toNat }))

/-- The items of a ring, and of a partition, that have started and whose completion is not written. -/
def ringItems (s : State) (pn j : Nat) : List (Nat × WorkItem) :=
  s.work.items.filter (fun i => i.2.part == pn && i.2.ring == j)

def busyCores (s : State) (id : Nat) : Bool :=
  (kernelOf s id).isSome || s.work.items.any (fun i => i.2.stage == .started && fieldLE i.2.desc 0 1 == 1 && (kernelGroup i.2.desc).contains id)

/-- A record of the ring is held for the host (R305). -/
def ringHeld (s : State) (R : WorkRing) : Bool :=
  s.pci.held.any (fun h => decide (R.cpl ≤ h.2.1 ∧ h.2.1 < R.cpl + 16 * 2 ^ R.log2))

/-- The descriptor at the head of a ring. -/
def headDesc (s : State) (P : Partition) (R : WorkRing) : List Byte :=
  let a := R.work + 128 * R.head
  s.bytes (callerSpace (ownerCaller P.owner) a) a 128

/-- Ring `j` of a partition can start its next descriptor (R153, R163, R305). -/
def canStart (s : State) (pn : Nat) (P : Partition) (j : Nat) : Bool :=
  match P.rings[j]? with
  | none => false
  | some R =>
    let n := 2 ^ R.log2
    let d := headDesc s P R
    let mine := ringItems s pn j
    let used := (R.cplTail + n - R.cplHead) % n
    let inHost (a : Nat) : Bool := callerSpace (ownerCaller P.owner) a != .array
    !s.doms.any (fun p => p.2.partition == pn && domState s p.1 == domStopped) && R.head != R.tail && decide (mine.length + used + 1 < n) && !ringHeld s R &&
      (!inHost R.work || (hostRefusal s (ownerCaller P.owner)).isNone) &&
      (!natBit (fieldLE d 1 1) 1 || mine.isEmpty) &&
      (fieldLE d 0 1 != 1 || !(kernelGroup d).any (busyCores s)) &&
      (fieldLE d 0 1 != 5 || !s.work.items.any (fun i => i.2.part == pn))

/-- The ring that the round robin serves next (R153). -/
def nextRing (s : State) (pn : Nat) (P : Partition) : Option Nat :=
  let k := P.rings.length
  let last := s.work.lastRing.get pn (k - 1)
  ((List.range k).map (fun i => (last + 1 + i) % k)).find? (canStart s pn P)

/-- The dispatcher starts the next descriptor of a ring; an unknown type ends at once (R153, R154). -/
def execDispatchDescriptor (pn j : Nat) (s : State) : Out :=
  whenArray s (fun s =>
    match s.part pn with
    | none => s
    | some P =>
      if nextRing s pn P ≠ some j then s
      else match P.rings[j]? with
      | none => s
      | some R =>
        let d := headDesc s P R
        let id := s.work.nextId
        let known := decide (1 ≤ fieldLE d 0 1 ∧ fieldLE d 0 1 ≤ 8)
        let w : WorkItem := {
          part := pn, ring := j, order := id, desc := d
          stage := if known then .started else .finished St.invalidField 0 0xFFFF }
        let s := s.setPart pn { P with rings := P.rings.set j { R with head := (R.head + 1) % 2 ^ R.log2 } }
        { s with work := { s.work with
          items := s.work.items.set id w, nextId := id + 1, lastRing := s.work.lastRing.set pn j } })

/-- A started descriptor of type `ty`, with its partition: `f` runs it. -/
def withItem (id ty : Nat) (s : State) (f : WorkItem → Partition → State → State) : Out :=
  whenArray s (fun s =>
    match s.work.items.find id with
    | some w =>
      match s.part w.part with
      | some P => if w.stage = .started ∧ fieldLE w.desc 0 1 = ty then f w P s else s
      | none => s
    | none => s)

/-- A kernel starts once its checks pass (R156 to R158). -/
def execWorkKernel (id : Nat) (s : State) : Out :=
  withItem id 1 s (fun w P s =>
    match kernelCheck s w.part P w.desc with
    | some (st, f, who) => finishItem id st f who s
    | none => if natBit (fieldLE w.desc 1 1) 3 = false ∧ s.drbgOk = false then finishItem id St.drbgFailed 0xFFFF 0xFFFF s else
      let k : Kernel := {
        part := w.part
        cores := kernelGroup w.desc
        restart := natBit (fieldLE w.desc 1 1) 2
        started := s.pwr.localNs
        deadline := fieldLE w.desc 44 4
        desc := w.desc }
      let s := s.setItem id { w with stage := .running }
      startGroup w.desc { s with work := { s.work with kernels := s.work.kernels.set id k } })

/-- A DMA descriptor goes to the end of its channel, or waits for room (R156). -/
def execWorkDma (id : Nat) (s : State) : Out :=
  withItem id 2 s (fun w P s =>
    let cl := fieldLE w.desc 16 1
    let k := fieldLE w.desc 17 1
    match firstBad (headerBad w.desc 3 ++ [
        (decide (15 < cl), 16), (decide (7 < k), 17), (fieldLE w.desc 18 14 != 0, 18), (fieldLE w.desc 96 32 != 0, 96)]) with
    | some f => finishItem id St.invalidField f 0xFFFF s
    | none =>
      if P.mask.getLsbD cl = false then finishItem id St.reachDenied 16 0xFFFF s
      else
        let ch := s.chan cl k
        if 64 ≤ ch.queue.length then s
        else
          let s := s.setItem id { w with stage := .running }
          s.setChan cl k { ch with queue := ch.queue ++ [{ desc := slice w.desc 32 64, origin := .work id }] })

/-- CONVERT (R165 to R167). The completion's bytes 12 and 13 carry the flag bits. -/
def execWorkConvert (id : Nat) (s : State) : Out :=
  withItem id 3 s (fun w P s =>
    let d := w.desc
    let n := fieldLE d 48 4
    let sel := fieldLE d 52 4
    let sf := natBits sel 7 0
    let df := natBits sel 15 8
    match firstBad (headerBad d 3 ++ [(!selectorOk sel, 52), ((d.drop 56).any (· != 0), 56)]) with
    | some f => finishItem id St.invalidField f 0xFFFF s
    | none =>
      let src := fieldLE d 16 8
      let dst := fieldLE d 24 8
      let ss := fieldLE d 32 8
      let ds := fieldLE d 40 8
      let sl := packedLen sf n
      let dl := packedLen df n
      let sx := scaleLen sf n
      let dx := scaleLen df n
      match spanCheck s w.part P [(src, sl, false, 16), (dst, dl, true, 24), (ss, sx, false, 32), (ds, dx, true, 40)] with
      | some (st, f) => finishItem id st f 0xFFFF s
      | none =>
        let meets (a b : Nat × Nat) : Bool := (Span.mk a.1 a.2 0).meets ⟨b.1, b.2, 0⟩
        if [(src, sl), (ss, sx)].any (fun a => [(dst, dl), (ds, dx)].any (meets a)) then finishItem id St.dmaOverlap 16 0xFFFF s
        else match (eccHit s src sl).or (eccHit s ss sx) with
        | some word => finishItem id St.dataUncorrectable 0xFFFF 0xFFFF (eccReport 16 word s)
        | none =>
          let (a, s) := fetchBytes src sl s
          let (x, s) := fetchBytes ss sx s
          let (e, y, fl, s) := convertElems sel n a x s
          finishItem id St.success 0xFFFF fl (memStore .hub ds y (memStore .hub dst e s)))

/-- A line retired on a die, or inside a retired unit (R164). -/
def lineRetired (s : State) (die line : Nat) : Bool :=
  (List.range 1024).any (fun i => s.kw (kRetired die i) == 2 ^ 31 + line) ||
    natBit (s.kw (kRetiredUnit die (line / 4096 / 32))) (line / 4096 % 32)

/-- The first line of a span of a die's Silt that is retired, as its offset's end. -/
def retiredIn (s : State) (die lo len : Nat) : Option Nat :=
  ((List.range ((len + lo % 4096 + 4095) / 4096)).map (fun i => lo / 4096 + i)).find? (lineRetired s die)

/-- What an entry's level offers, as ranges of array addresses (R161). -/
def levelRanges (P : Partition) (level where_ : Nat) : List (Nat × Nat) :=
  let silt (die : Bool) := (P.silt.filter (fun r => r.die == die)).map (fun r =>
    (siltBase (if die then 1 else 0) + siltLo r, siltLen r))
  match level with
  | 0 => [(coreBase where_, P.coreShare * 65536)]
  | 1 => [(clusterBase where_, P.clusterShare * 524288)]
  | 2 => silt false
  | 3 => silt true
  | _ => silt false ++ silt true

/-- What a place already holds that a span meets: the address at which it ends. -/
def placeBlock (s : State) (P : Partition) (extra : List Placed) (a len : Nat) : Option Nat :=
  let sets := P.sets.flatMap (·.entries) ++ extra
  match sets.find? (fun p => !p.streamed && decide (p.loc < a + len ∧ a < p.loc + roundUp p.len 4096)) with
  | some p => some (p.loc + roundUp p.len 4096)
  | none =>
    if siltBase 0 ≤ a then
      let die := (a - siltBase 0) / 0x80000000
      (retiredIn s die ((a - siltBase 0) % 0x80000000) len).map (fun l => siltBase die + l * 4096 + 4096)
    else none

/-- The lowest free 4 KiB-aligned place of `len` bytes in a range, moving past whatever blocks it; the bound is the number of lines. -/
def placeIn (s : State) (P : Partition) (extra : List Placed) (len hi : Nat) : Nat → Nat → Option Nat
  | 0, _ => none
  | n + 1, a =>
    if hi < a + len then none
    else match placeBlock s P extra a len with
    | none => some a
    | some b => placeIn s P extra len hi n (roundUp b 4096)

/-- The lowest place of an entry in its level's ranges (R161). -/
def placeEntry (s : State) (P : Partition) (extra : List Placed) (level where_ len : Nat) : Option Nat :=
  ((levelRanges P level where_).filterMap (fun r => placeIn s P extra len (r.1 + r.2) (r.2 / 4096 + 1) r.1)).foldl
    (fun b a => match b with
      | none => some a
      | some b => some (min a b)) none

/-- The manifest's entries placed in order (R161, R162): the entry at fault and its status, or all of them. -/
def placeAll (s : State) (pn : Nat) (P : Partition) (stream : Bool) (mf : List Byte) : Nat → Nat → List Placed → Status × Nat × List Placed
  | 0, _, l => (St.success, 0, l)
  | n + 1, i, l =>
    let e := slice mf (32 * i) 32
    let src := fieldLE e 0 8
    let len := fieldLE e 8 8
    let level := fieldLE e 16 1
    let at_ := fieldLE e 18 2
    let bad (st : Status) : Status × Nat × List Placed := (st, i, [])
    if 4 < level ∨ fieldLE e 17 1 ≠ 0 ∨ fieldLE e 20 4 ≠ 0 ∨ len = 0 ∨ (1 < level ∧ at_ ≠ 0) ∨ (level = 0 ∧ 255 < at_) ∨ (level = 1 ∧ 15 < at_) then
      bad St.invalidField
    else if 2 ^ 32 < len then bad St.lenTooLarge
    else if 2 ^ 48 < src + len ∨ spanPopulated s src len = false then bad St.addrRange
    else if spanReached s pn P src len false = false ∨ (level = 0 ∧ P.mask.getLsbD (at_ / 16) = false) ∨ (level = 1 ∧ P.mask.getLsbD at_ = false) then
      bad St.reachDenied
    else if level = 0 ∧ corePresent s at_ = false then bad St.coreAbsent
    else match ownerLinkRefusal s P src len with
    | some st => bad st
    | none =>
      match placeEntry s P l level at_ len with
      | some a => placeAll s pn P stream mf n (i + 1) (l ++ [{ src := src, len := len, level := level, loc := a, placed := a, streamed := false }])
      | none =>
        let inDdr : Bool := match arrKind s src with
          | .ddr _ => true
          | _ => false
        if stream ∧ inDdr ∧ P.streamCap ≠ 0 then
          placeAll s pn P stream mf n (i + 1) (l ++ [{ src := src, len := len, level := level, loc := src, placed := src, streamed := true }])
        else bad St.residencyCapacity

/-- RESIDE: every entry or none (R161 to R163). -/
def execWorkReside (id : Nat) (s : State) : Out :=
  withItem id 4 s (fun w P s =>
    let d := w.desc
    let set := fieldLE d 16 2
    let n := fieldLE d 18 2
    let mf := fieldLE d 20 8
    match firstBad (headerBad d 3 ++ [
        (decide (4095 < set) || P.sets.any (fun x => x.id == set), 16), (n == 0, 18), (decide (3 < fieldLE d 28 1), 28),
        ((d.drop 29).any (· != 0), 29)]) with
    | some f => finishItem id St.invalidField f 0xFFFF s
    | none =>
      if 4096 < n then finishItem id St.lenTooLarge 18 0xFFFF s
      else match spanCheck s w.part P [(mf, 32 * n, true, 20)] with
      | some (st, f) => finishItem id st f 0xFFFF s
      | none =>
        let (bytes, s) := fetchBytes mf (32 * n) s
        let (st, i, l) := placeAll s w.part P (natBit (fieldLE d 28 1) 0) bytes n 0 []
        if st ≠ St.success then finishItem id st 20 i s
        else match l.findSome? (fun p => if p.streamed then none else eccHit s p.src p.len) with
        | some word => finishItem id St.dataUncorrectable 0xFFFF 0xFFFF (eccReport 16 word s)
        | none =>
          let s := (l.zip (List.range n)).foldl (fun s p =>
            let s := if p.1.streamed then s
              else
                let (b, s) := fetchBytes p.1.src p.1.len s
                memStore .hub p.1.loc b s
            memStore .hub (mf + 32 * p.2 + 24) (leBytes 8 p.1.placed) s) s
          let P := { P with sets := P.sets ++ [{ id := set, sourceKept := natBit (fieldLE d 28 1) 1, entries := l }] }
          finishItem id St.success 0xFFFF 0xFFFF (s.setPart w.part P))

/-- RELEASE zeroes a set's on-package bytes and frees them (R163). -/
def execWorkRelease (id : Nat) (s : State) : Out :=
  withItem id 5 s (fun w P s =>
    let set := fieldLE w.desc 16 2
    match firstBad (headerBad w.desc 3 ++ [((w.desc.drop 18).any (· != 0), 18)]) with
    | some f => finishItem id St.invalidField f 0xFFFF s
    | none =>
      match P.sets.find? (fun x => x.id == set) with
      | none => finishItem id St.invalidField 16 0xFFFF s
      | some x =>
        let s := x.entries.foldl (fun s p => if p.streamed then s else zeroRange p.loc p.len s) s
        finishItem id St.success 0xFFFF 0xFFFF (s.setPart w.part { P with sets := P.sets.filter (fun y => y.id != set) }))

/-- A MARKER completes when it is started (R154). -/
def execWorkMarker (id : Nat) (s : State) : Out :=
  withItem id 8 s (fun w _ s =>
    match firstBad (headerBad w.desc 3) with
    | some f => finishItem id St.invalidField f 0xFFFF s
    | none => finishItem id St.success 0xFFFF 0xFFFF s)

def execWorkCompletionWrite (id : Nat) (s : State) : Out := whenOn s (writeCompletion id)

/-- A cluster DMA descriptor that a core of a group queued has not completed. -/
def groupDma (s : State) (cores : List Nat) : Bool :=
  s.arr.dma.any (fun p => p.2.queue.any (fun e => match e.origin with
    | .core id => cores.contains id
    | .work _ => false))

/-- The lowest-numbered core with a nonzero user code (R159). -/
def firstFailed (ended : List (Nat × Nat)) : Option (Nat × Nat) :=
  (ended.filter (fun e => e.2 != 0)).foldl (fun b e => match b with
    | none => some e
    | some b => some (if e.1 < b.1 then e else b)) none

/-- A kernel completes when every core of its group has ended and its DMA has completed (R159). -/
def execKernelComplete (id : Nat) (s : State) : Out :=
  whenArray s (fun s =>
    match s.work.kernels.find id with
    | none => s
    | some k =>
      if k.cores.all (fun c => k.ended.any (fun e => e.1 == c)) ∧ groupDma s k.cores = false then
        let s := { s with work := { s.work with kernels := s.work.kernels.del id } }
        match firstFailed k.ended with
        | none => finishItem id St.success 0xFFFF 0xFFFF s
        | some (c, code) => finishItem id St.kernelFailed code c s
      else s)

/-- A kernel's deadline: it is aborted (R160). -/
def execKernelDeadline (id : Nat) (s : State) : Out :=
  whenArray s (fun s =>
    match s.work.kernels.find id with
    | some k => if k.deadline = 0 then s else abortKernel id St.kernelDeadline 0xFFFF s
    | none => s)

/-- A set's entries that hold a line. -/
def holdsLine (x : ResidentSet) (a : Nat) : Bool :=
  x.entries.any (fun p => !p.streamed && decide (p.loc < a + 4096 ∧ a < p.loc + p.len))

/-- A free line in a partition's Silt ranges. -/
def freeLine (s : State) (P : Partition) : Option Nat := placeEntry s P [] 4 0 4096

/-- An uncorrectable Silt line is retired; a set that held it and cannot be repaired is lost (R164). -/
def execSiltLineUncorrectable (die line : Nat) (s : State) : Out :=
  if 2 ≤ die ∨ 393216 ≤ line then .fault .noSuchUnit
  else whenOn s (fun s =>
    if lineRetired s die line then s
    else
      let s := match firstBelow 1024 (fun i => natBit (s.kw (kRetired die i)) 31 == false) with
        | some i => s.setKw (kRetired die i) (2 ^ 31 + line)
        | none =>
          let u := line / 4096
          let w := kRetiredUnit die (u / 32)
          s.setKw w (Nat.lor (s.kw w) (2 ^ (u % 32)))
      let a := siltBase die + line * 4096
      { s with work := { s.work with parts := s.work.parts.map (fun _ P =>
        { P with sets := P.sets.map (fun x =>
          if holdsLine x a ∧ (x.sourceKept = false ∨ (freeLine s P).isNone) then { x with lost := true } else x) }) } })

/-- The repair of the retired line at `a` for resident set `x`: the line's content from its kept source into line `f`, mapped in its place. -/
def repairLine (a f : Nat) (x : ResidentSet) (e : Placed) (pn : Nat) (P : Partition) (s : State) : State :=
  let n := min 4096 (e.loc + e.len - a)
  let (b, s) := fetchBytes (e.src + (a - e.loc)) n s
  let s := rawStore a (b ++ List.replicate (4096 - n) 0) s
  let e' : Placed := { src := e.src + (a - e.loc), len := 4096, level := 4, loc := f, placed := a, streamed := false }
  let x' := { x with entries := x.entries ++ [e'] }
  s.setPart pn { P with sets := P.sets.map (fun y => if y.id = x.id then x' else y) }

/-- The runtime copies a retired line again from its source to a free line, and the set's mapping leads its old address there (R164). -/
def execSiltLineRepaired (die line : Nat) (s : State) : Out :=
  if 2 ≤ die ∨ 393216 ≤ line then .fault .noSuchUnit
  else whenOn s (fun s =>
    let a := siltBase die + line * 4096
    if lineRetired s die line = false then s
    else s.work.parts.foldl (fun s p =>
      match p.2.sets.find? (fun x => x.sourceKept && !x.lost && holdsLine x a), freeLine s p.2 with
      | some x, some f =>
        match x.entries.find? (fun e => !e.streamed && decide (e.loc < a + 4096 ∧ a < e.loc + e.len)) with
        | none => s
        | some e => repairLine a f x e p.1 p.2 s
      | _, _ => s) s)

end Sys2Proof.Machine
end

