-- ==== Sys2Proof/Machine/Vrmt.lean ====
section
/-! DEFINITION. VRMT: how packets are formed, sent, placed, acknowledged and completed (R328 to R359). The commands stand in Machine/VrmtCommands.lean. -/

namespace Sys2Proof.Machine

open Sys2Proof

def State.modVrm (s : State) (f : Vrmt → Vrmt) : State := { s with vrm := f s.vrm }
def State.conn (s : State) (cn : Nat) : Option Conn := s.vrm.conns.find cn
def State.setConn (s : State) (cn : Nat) (c : Conn) : State := s.modVrm (fun v => { v with conns := v.conns.set cn c })

def State.modConn (s : State) (cn : Nat) (f : Conn → Conn) : State :=
  match s.conn cn with
  | some c => s.setConn cn (f c)
  | none => s

/-- `f` where the connection exists. -/
def withConn (cn : Nat) (s : State) (f : Conn → State → State) : State :=
  match s.conn cn with
  | some c => f c s
  | none => s

/-- A slice's DDR allocation, base and length; slice 0, which has none of its own, names populated DDR (R313, R344). -/
def allocOf (s : State) (n : Nat) : Nat × Nat :=
  if n = 0 then (ddrBase, Config.ddrBytes)
  else match (s.slice n).grant with
  | some g => (ddrBase + g.ddrBase * 2 ^ 30, g.ddrLen * 2 ^ 30)
  | none => (ddrBase, 0)

/-- An address of a slice's spaces: 0 its PASID address space, 1 its DDR allocation from offset 0, 2 accelerator windows (R335). -/
def vAddr (s : State) (n sp a : Nat) : Space × Nat :=
  match sp with
  | 0 => (.host n, a)
  | 1 => (.array, (allocOf s n).1 + a)
  | _ => (.array, a)

/-- A span lies within a space. -/
def vInside (s : State) (n sp a len : Nat) : Bool :=
  match sp with
  | 0 => decide (a + len ≤ 2 ^ 64)
  | 1 => decide (a + len ≤ (allocOf s n).2)
  | _ => match arrKind s a, arrKind s (a + len - 1) with
    | .accel x _, .accel y _ => x == y && rangeGranted s n a len
    | _, _ => len == 0

/-- The status with which an access to a space ends at once, if any. -/
def vLink (s : State) (n sp a : Nat) : Option Status :=
  match sp with
  | 0 => hostRefusal s (ownerCaller n)
  | 1 => none
  | _ => match linkFor s a with
    | some (l, _) => linkRefusal s l (ownerCaller n)
    | none => none

def vRead (n sp a len : Nat) (s : State) : List Byte × State :=
  match vAddr s n sp a with
  | (.array, x) => fetchBytes x len s
  | (h, x) => (s.bytes h x len, s)

def vWrite (n sp a : Nat) (data : List Byte) (s : State) : State :=
  match vAddr s n sp a with
  | (.array, x) => memStore .hub x data s
  | (h, x) => s.store h x data

/-- A record written for a slice, or held while the host link may not be used (R305). -/
def vRecord (n sp a : Nat) (data : List Byte) (s : State) : State :=
  if sp = 0 ∧ (vLink s n sp a).isSome then { s with pci := { s.pci with held := s.pci.held ++ [(ownerCaller n, a, data)] } }
  else vWrite n sp a data s

/-- `a - b` modulo 2^32 (R330). -/
def diff32 (a b : Nat) : Nat := (a % 2 ^ 32 + 2 ^ 32 - b % 2 ^ 32) % 2 ^ 32

/-- Payload MTU by VRM_CFG.mtu. -/
def mtuOf (s : State) : Nat :=
  match natBits (s.kw kVrmCfg) 9 8 with
  | 0 => 4096
  | 1 => 2048
  | _ => 1024

/-- The completion of a queue's next place (R341). -/
def cqRecord (q : VrmtCq) (cn : Nat) (v : VCpl) : List Byte :=
  leBytes 8 v.tag ++ leBytes 2 v.status.toNat ++ leBytes 1 v.kind ++ leBytes 1 v.flags ++ leBytes 4 v.bytes ++
    leBytes 4 (match v.imm with
      | some i => i.toNat
      | none => 0) ++ leBytes 4 cn ++ leBytes 4 v.index ++ [0, 0, 0] ++
    leBytes 1 (if q.count / 2 ^ q.log2 % 2 = 0 then 1 else 0)

def cqFull (q : VrmtCq) : Bool := (q.count + 1) % 2 ^ q.log2 == q.head

/-- A completion is written to the connection's queue, which raises its interrupt where armed; a full queue holds it in the context (R337, R341). -/
def deliver (cn : Nat) (v : VCpl) (s : State) : State :=
  withConn cn s (fun c s =>
    match s.vrm.cqs.find (c.slice, c.cq) with
    | none => s
    | some q =>
      if !c.heldCpl.isEmpty || cqFull q then s.setConn cn { c with heldCpl := c.heldCpl ++ [v] }
      else
        let s := vRecord c.slice q.space (q.ring + 32 * (q.count % 2 ^ q.log2)) (cqRecord q cn v) s
        let s := s.modVrm (fun x => { x with cqs := x.cqs.set (c.slice, c.cq) { q with count := q.count + 1, armed := false } })
        if q.armed then irqEvent (ownerCaller c.slice) q.irq s else s)

/-- The held completions of a connection go to its queue while it has room. -/
def drainHeld (cn : Nat) (s : State) : State :=
  withConn cn s (fun c s =>
    c.heldCpl.foldl (fun s v => deliver cn v s) (s.setConn cn { c with heldCpl := [] }))

/-- Completions of work requests are written in ring order (R342); one that succeeds only where its flag [0] asks (R341). -/
def wrAdvance (cn : Nat) : Nat → State → State
  | 0, s => s
  | n + 1, s =>
    match s.conn cn with
    | none => s
    | some c =>
      match c.wrs with
      | [] => s
      | w :: r =>
        match w.result with
        | none => s
        | some (st, bytes, fl) =>
          if !c.heldCpl.isEmpty then s
          else
            let s := s.setConn cn { c with wrs := r }
            let s := if st ≠ St.success ∨ w.signal then deliver cn { tag := w.tag, status := st, kind := 1, flags := fl, bytes := bytes } s else s
            wrAdvance cn n s

def wrDone (cn : Nat) (s : State) : State :=
  match s.conn cn with
  | some c => wrAdvance cn (c.wrs.length + 1) s
  | none => s

/-- The result of the work request of message `msn`, where it has none yet. -/
def wrResult (c : Conn) (msn : Nat) (st : Status) (bytes fl : Nat) : Conn :=
  { c with wrs := c.wrs.map (fun (w : Wr) => if w.msn = msn ∧ w.result.isNone then { w with result := some (st, bytes, fl) } else w) }

/-- The bytes of an IP packet's frame from the destination address through the FCS (R328): `body` is base header, extension and payload. -/
def vFrameLen (c : Conn) (body : Nat) : Nat :=
  (if c.peerIp / 2 ^ 32 = 0xFFFF then 20 else 40) + 8 + body + (if c.slot.isSome then 16 else 4) + 18

/-- Receive entries posted, not taken by any SEND. -/
def openEntries (c : Conn) : List Nat :=
  (List.range (c.posted - c.recvLow)).map (· + c.recvLow) |>.filter (fun i => !c.taken.contains i)

/-- The work requests from the head of the send ring to its tail. -/
def flushRing (cn : Nat) : Nat → State → State
  | 0, s => s
  | n + 1, s =>
    match s.conn cn with
    | none => s
    | some c =>
      if c.sendTail ≤ c.sendHead then s
      else
        let (b, s) := vRead c.slice c.sendSp (c.sendRing + 64 * (c.sendHead % 2 ^ c.sendLog2)) 64 s
        let w : Wr := {
          tag := fieldLE b 56 8, signal := true, isRead := false, msn := 2 ^ 64, len := 0, space := 0, loc := 0
          result := some (St.connFlushed, 0, 0) }
        flushRing cn n (s.modConn cn (fun c => { c with sendHead := c.sendHead + 1, wrs := c.wrs ++ [w] }))

/-- What a connection in ERROR owes: every work request not yet completed, and then every receive buffer, completes with CONN_FLUSHED (R334). -/
def flushConn (cn : Nat) (s : State) : State :=
  withConn cn s (fun c s =>
    let s := s.setConn cn { c with wrs := c.wrs.map (fun (w : Wr) => if w.result.isNone then { w with result := some (St.connFlushed, 0, 0) } else w) }
    let s := wrDone cn (flushRing cn (c.sendTail - c.sendHead + 1) s)
    let l := openEntries c
    let s := s.modConn cn (fun c => { c with recvLow := c.posted, taken := [] })
    l.foldl (fun s i => deliver cn { tag := 0, status := St.connFlushed, kind := 2, index := i % 2 ^ c.recvLog2 } s) s)

/-- A connection enters ERROR (R334). The request that caused it has its own status already. -/
def connError (cn : Nat) (s : State) : State :=
  withConn cn s (fun c s =>
    if c.state = .live then
      flushConn cn (s.setConn cn { c with state := .error, tx := [], flying := [], rx := [], held := [], waiting := [], ackOwed := false })
    else s)

/-- One invocation of a connection's cipher slot; a slot that refuses it takes the connection to ERROR, the work request of `msn` with CIPHER_SPENT (R356, R436). -/
def vCipher (cn : Nat) (msn : Option Nat) (s : State) : Bool × State :=
  match s.conn cn with
  | none => (false, s)
  | some c =>
    match c.slot with
    | none => (true, s)
    | some k =>
      match slotInvoke k c.slice s with
      | (none, s) => (true, s)
      | (some _, s) =>
        let s := match msn with
          | some m => s.modConn cn (fun c => wrResult c m St.cipherSpent 0 0)
          | none => s
        (false, connError cn s)

/-- A slice's scheduler queue, 6 unless PF0 set another (R377). -/
def sliceQueue (s : State) (n : Nat) : Nat := s.net.sliceQ.get n 6

/-- The path after `p` in the rotation that is not removed (R351). -/
def nextPath (c : Conn) : Nat :=
  let n := max 1 c.paths.length
  match firstBelow n (fun i => !(c.paths.getD ((c.rotate + i) % n) {}).removed) with
  | some i => (c.rotate + i) % n
  | none => c.rotate % n

/-- A packet leaves on a path: it waits in its port's scheduler queue; with no port up it is lost, and is sent again by R351. -/
def launch (cn : Nat) (path len : Nat) (what : Nat → Emit) (s : State) : State :=
  withConn cn s (fun c s =>
    match portOf s path with
    | some lp => netQueue lp (sliceQueue s c.slice) { len := vFrameLen c len, what := what lp } s
    | none => s)

/-- A data packet is sent, or sent again, on the next path of the rotation (R351, R356). -/
def sendData (cn : Nat) (f : Flying) (s : State) : State :=
  match vCipher cn (some f.msn) s with
  | (false, s) => s
  | (true, s) =>
    withConn cn s (fun c s =>
      let p := nextPath c
      let pk := { f.pkt with path := BitVec.ofNat 6 p }
      let f := { f with path := p, pkt := pk }
      let s := s.setConn cn { c with
        rotate := (p + 1) % max 1 c.paths.length
        flying := c.flying.filter (fun (g : Flying) => g.psn != f.psn) ++ [f] }
      launch cn p (48 + pk.payload.length) (fun lp => .vrmt lp f.kind pk) s)

/-- A packet that names the base header's fields of this end. -/
def basePkt (s : State) (c : Conn) : Pkt :=
  { version := 1, encrypted := c.slot.isSome, ackReq := false, last := false, first := false, path := 0
    dstCn := BitVec.ofNat 22 c.peerCn, srcIp := ownIp s c.peerIp, psn := 0, msn := 0, key := 0, msgLen := 0, base := 0, offset := 0
    imm := 0, immPresent := false, ce := false, checkOk := true, payload := [] }

/-- Packet `j` of a message (R329 to R331). -/
def packetOf (s : State) (c : Conn) (t : TxMsg) (j : Nat) : Pkt :=
  let lastOne : Bool := j + 1 == t.count
  let imm := if lastOne then t.imm else none
  { basePkt s c with
    ackReq := lastOne
    last := lastOne
    first := j == 0
    psn := BitVec.ofNat 32 (t.first + j)
    msn := BitVec.ofNat 32 t.msn
    key := t.key
    msgLen := BitVec.ofNat 32 t.len
    base := if t.kind = 1 ∨ t.kind = 3 then BitVec.ofNat 64 t.base else 0
    offset := BitVec.ofNat 32 (if t.kind = 3 ∨ t.kind = 7 then 0 else j * c.mtu)
    imm := imm.getD 0
    immPresent := imm.isSome
    payload := slice t.data (j * c.mtu) c.mtu }

/-- The next packet to send for the first time: the oldest of the first eight messages not acknowledged complete that has one, within the window (R349). -/
def nextPacket (c : Conn) : Option TxMsg :=
  (c.tx.take 8).find? (fun (t : TxMsg) => decide (t.sent < t.count) && !t.rnrWait && decide (t.first + t.sent < c.txCum + 1024))

/-- Packets go out while the window and the limit of eight messages allow (R349). -/
def pump (cn : Nat) : Nat → State → State
  | 0, s => s
  | n + 1, s =>
    match s.conn cn with
    | none => s
    | some c =>
      if c.state ≠ .live then s
      else match nextPacket c with
      | none => s
      | some t =>
        let p := packetOf s c t t.sent
        let s := s.setConn cn { c with tx := c.tx.map (fun (x : TxMsg) => if x.msn = t.msn then { x with sent := x.sent + 1 } else x) }
        let f : Flying := { psn := t.first + t.sent, msn := t.msn, path := 0, kind := t.kind, pkt := p }
        pump cn n (if t.kind = 7 then
          -- a MSG_ABORT carries its status in its extension
          (match vCipher cn none s with
            | (false, s) => s
            | (true, s) =>
              withConn cn s (fun c s =>
                let q := nextPath c
                let s := s.setConn cn { c with rotate := (q + 1) % max 1 c.paths.length, flying := c.flying ++ [{ f with path := q }] }
                launch cn q 48 (fun lp => .vrmtAbort lp p t.status) s))
          else sendData cn f s)

def pumpAll (cn : Nat) (s : State) : State := pump cn 2048 s

/-- A message joins the connection's order: consecutive PSNs, and a MSG_ABORT one of its own (R331). -/
def startMsg (cn : Nat) (t : TxMsg) (s : State) : State :=
  withConn cn s (fun c s =>
    let n := if t.kind = 3 ∨ t.kind = 7 then 1 else max 1 (ceilDiv t.data.length c.mtu)
    pumpAll cn (s.setConn cn { c with
      tx := c.tx ++ [{ t with first := c.nextPsn, count := n }]
      nextPsn := c.nextPsn + n }))

/-- Bits of a 256-bit map from a base: bit n for PSN base + n. -/
def psnMap (base : Nat) (l : List Nat) : BitVec 256 :=
  BitVec.ofNat 256 (l.foldl (fun v p => if base ≤ p ∧ p < base + 256 then Nat.lor v (2 ^ (p - base)) else v) 0)

/-- An ACK leaves on a path; `answers` is the PSN that prompted it (R350). -/
def sendAck (cn path : Nat) (answers : Option Nat) (s : State) : State :=
  match vCipher cn none s with
  | (false, s) => s
  | (true, s) =>
    withConn cn s (fun c s =>
      let base := match answers with
        | some p => max c.rxNext (p - 255)
        | none => c.rxNext
      let a : AckPkt := {
        dstCn := BitVec.ofNat 22 c.peerCn
        srcIp := ownIp s c.peerIp
        checkOk := true
        encrypted := c.slot.isSome
        cumPsn := BitVec.ofNat 32 c.rxNext
        bmpBase := BitVec.ofNat 32 base
        bitmap := psnMap base c.rxGot
        doneMsn := BitVec.ofNat 32 c.rxDone
        ceCount := BitVec.ofNat 16 (min c.ceCount 0xFFFF)
        ctlSeq := BitVec.ofNat 64 c.ctlSeq }
      let s := s.setConn cn { c with ctlSeq := c.ctlSeq + 1, ceCount := 0, sinceAck := 0, ackOwed := false }
      launch cn path 72 (fun lp => .vrmtAck lp path a) s)

/-- A NAK leaves on a path (R330). -/
def sendNak (cn path msn : Nat) (st : Status) (kind : Nat) (missing : List Nat) (s : State) : State :=
  match vCipher cn none s with
  | (false, s) => s
  | (true, s) =>
    withConn cn s (fun c s =>
      let base := missing.headD 0
      let n : NakPkt := {
        dstCn := BitVec.ofNat 22 c.peerCn
        srcIp := ownIp s c.peerIp
        checkOk := true
        encrypted := c.slot.isSome
        msn := BitVec.ofNat 32 msn
        status := st
        kind := BitVec.ofNat 8 kind
        bmpBase := BitVec.ofNat 32 base
        bitmap := psnMap base missing
        ctlSeq := BitVec.ofNat 64 c.ctlSeq }
      launch cn path 72 (fun lp => .vrmtNak lp path n) (s.setConn cn { c with ctlSeq := c.ctlSeq + 1 }))

/-- The check of a message under a key (R345): the key's index and space, or the status. -/
def keyCheck (s : State) (n : Nat) (key : Nat) (right : Nat) (base len : Nat) : Except Status (Nat × Nat) :=
  match s.vrm.keys.find (key / 65536) with
  | none => .error St.keyInvalid
  | some k =>
    if k.tag ≠ key % 65536 ∨ k.slice ≠ n then .error St.keyInvalid
    else if k.state ≠ .live then .error St.keyRevoked
    else if k.rights.getLsbD right = false ∨ vInside s n k.space base len = false then .error St.remoteAccess
    else .ok (key / 65536, k.space)

/-- The checks of a receive entry (R339, R340): its address, length and space, or the status. -/
def entryCheck (s : State) (n : Nat) (b : List Byte) : Except Status (Nat × Nat × Nat) :=
  let a := fieldLE b 0 8
  let len := fieldLE b 8 4
  let sp := fieldLE b 12 1
  if 2 < sp ∨ fieldLE b 13 3 ≠ 0 then .error St.invalidField
  else if 2 ^ 31 < len then .error St.lenTooLarge
  else if a + len ≤ 2 ^ 64 ∧ vInside s n sp a len = false then .error St.rangeNotGranted
  else if 2 ^ 64 < a + len then .error St.addrRange
  else .ok (a, len, sp)

/-- Where a message's bytes go overlaps those of another (R348). -/
def rangesMeet (sp a len sp' a' len' : Nat) : Bool := sp == sp' && decide (0 < len ∧ 0 < len' ∧ a < a' + len' ∧ a' < a + len)

def RxMsg.range (r : RxMsg) : Nat × Nat × Nat := (r.space, r.base, if r.kind = 2 then r.room else r.len)

/-- A packet's bytes must wait: an earlier message of the connection that overlaps them is not complete, or one has not been seen yet (R348). -/
def mustHold (c : Conn) (r : RxMsg) (offset len : Nat) : Bool :=
  (r.kind == 1 || r.kind == 2) && (List.range (r.msn - c.rxDone)).any (fun i =>
    match c.rx.find (c.rxDone + i) with
    | none => true
    | some e =>
      let g := e.range
      e.state == .open && (e.kind == 1 || e.kind == 2) && rangesMeet r.space (r.base + offset) len g.1 g.2.1 g.2.2)

/-- A message ends with a status and counts as complete; its later packets are discarded (R340, R345). -/
def refuseMsg (cn : Nat) (r : RxMsg) (st : Status) (path : Nat) (s : State) : State :=
  let s := s.modConn cn (fun c => { c with
    rx := c.rx.set r.msn { r with state := .refused st }
    held := c.held.filter (fun (h : HeldPkt) => h.msn != r.msn) })
  sendNak cn path r.msn st 3 [] s

/-- Bytes of a packet placed (R347): those beyond a receive entry's room are discarded. The bytes of a READ's response that converts are gathered first. -/
def placeBytes (cn : Nat) (m offset : Nat) (data : List Byte) (s : State) : State :=
  withConn cn s (fun c s =>
    match c.rx.find m with
    | none => s
    | some r =>
      let fit := data.take (r.room - offset)
      match vLink s c.slice r.space (r.base + offset) with
      | some st => if r.kind = 4 then s else refuseMsg cn r st 0 s
      | none =>
        let s := s.setConn cn { c with rx := c.rx.set m { r with
          got := r.got + data.length, packets := r.packets + 1, placed := r.placed + fit.length } }
        if r.kind = 4 then
          match c.wrs.find? (fun (w : Wr) => w.isRead && w.msn == r.answers) with
          | some w =>
            if w.selector.isSome then
              s.modConn cn (fun c => { c with wrs := c.wrs.map (fun (x : Wr) => if x.msn = w.msn then { x with got := x.got ++ [(offset, data)] } else x) })
            else vWrite c.slice w.space (w.loc + offset) (data.take (w.len - offset)) s
          | none => s
        else vWrite c.slice r.space (r.base + offset) fit s)

/-- Held packets whose earlier messages no longer overlap are placed, in the order they arrived (R348). -/
def releaseHeld (cn : Nat) (s : State) : State :=
  match s.conn cn with
  | none => s
  | some c =>
    c.held.foldl (fun s h =>
      withConn cn s (fun c s =>
        match c.rx.find h.msn with
        | some r =>
          if mustHold c r h.offset h.data.length then s
          else placeBytes cn h.msn h.offset h.data (s.setConn cn { c with held := c.held.erase h })
        | none => s.setConn cn { c with held := c.held.erase h })) s

/-- Every packet of a message has been placed (R342). -/
def RxMsg.whole (r : RxMsg) : Bool := decide (0 < r.packets ∧ r.len ≤ r.got)

/-- Elements and scales of a format's buffer (R357). -/
def fmtBytes (code n : Nat) : Nat := packedLen code n + scaleLen code n

def convertBuf (sel n : Nat) (buf : List Byte) (s : State) : List Byte × Nat × State :=
  let src := natBits sel 7 0
  let (e, x, fl, s) := convertElems sel n (buf.take (packedLen src n)) (buf.drop (packedLen src n)) s
  (e ++ x, fl, s)

/-- The gathered bytes of a converting READ in the order of their offsets. -/
def gathered (w : Wr) (len : Nat) : List Byte :=
  w.got.foldl (fun l p => l.take p.1 ++ p.2 ++ l.drop (p.1 + p.2.length)) (List.replicate len 0)

/-- A READ completes at its requester (R343, R357). -/
def readDone (cn : Nat) (r : RxMsg) (s : State) : State :=
  withConn cn s (fun c s =>
    match c.wrs.find? (fun (w : Wr) => w.isRead && w.msn == r.answers && w.result.isNone) with
    | none => s
    | some w =>
      match w.selector with
      | none => s.setConn cn (wrResult c w.msn St.success r.got 0)
      | some (sel, n) =>
        let (d, fl, s) := convertBuf sel n (gathered w r.len) s
        let s := vWrite c.slice w.space w.loc d s
        s.modConn cn (fun c => wrResult c w.msn St.success r.got fl))

/-- A READ_REQ is served: its range is read at this moment and leaves as a READ_RESP message, or as a MSG_ABORT where its source is uncorrectable
(R343, R358). -/
def serveRead (cn : Nat) (r : RxMsg) (s : State) : State :=
  withConn cn s (fun c s =>
    let bad := match vAddr s c.slice r.space r.base with
      | (.array, x) => (eccHit s x r.len).isSome
      | _ => false
    let msn := c.nextMsn
    let s := s.setConn cn { c with nextMsn := msn + 1 }
    if bad then startMsg cn { msn := msn, kind := 7, first := 0, count := 1, data := [], len := 0, status := St.sourceDataError } s
    else
      let (d, s) := vRead c.slice r.space r.base r.len s
      startMsg cn { msn := msn, kind := 4, first := 0, count := 1, data := d, len := r.len, key := BitVec.ofNat 32 r.msn } s)

/-- The receive completion of a message, where it writes one (R340, R341, R358). -/
def rxCompletion (r : RxMsg) (ring : Nat) : Option VCpl :=
  let idx := (r.entry.getD 0) % 2 ^ ring
  match r.state with
  | .refused st => if r.entry.isSome then some { tag := 0, status := st, kind := 2, index := idx } else none
  | .aborted st =>
    if r.entry.isSome then some { tag := 0, status := st, kind := 2, bytes := r.placed, imm := r.imm, index := idx }
    else if r.imm.isSome then some { tag := 0, status := st, kind := 3, bytes := r.placed, imm := r.imm } else none
  | .open =>
    if r.kind = 2 then
      some { tag := 0, status := if r.room < r.len then St.lenExceedsBuffer else St.success, kind := 2, bytes := r.placed, imm := r.imm, index := idx }
    else if r.kind = 1 ∧ r.imm.isSome then some { tag := 0, status := St.success, kind := 3, bytes := r.placed, imm := r.imm }
    else none

/-- Messages complete in order, each making its completion visible and freeing what waited for it (R342). The flag says whether any did. -/
def rxAdvance (cn : Nat) : Nat → Bool × State → Bool × State
  | 0, x => x
  | n + 1, (done, s) =>
    match s.conn cn with
    | none => (done, s)
    | some c =>
      match c.rx.find c.rxDone with
      | none => (done, s)
      | some r =>
        let ended : Bool := match r.state with
          | .open => r.kind == 3 || r.whole
          | _ => true
        if !ended || !c.heldCpl.isEmpty || c.state != .live then (done, s)
        else
          let s := s.setConn cn { c with rx := c.rx.del r.msn, rxDone := c.rxDone + 1 }
          let s := match rxCompletion r c.recvLog2 with
            | some v => deliver cn v s
            | none => s
          let s := if r.state = .open ∧ r.kind = 3 then serveRead cn r s
            else if r.state = .open ∧ r.kind = 4 then wrDone cn (readDone cn r s) else s
          -- a SEND longer than its entry is reported to its sender too
          let s := if r.state = .open ∧ r.kind = 2 ∧ r.room < r.len then sendNak cn 0 r.msn St.lenExceedsBuffer 3 [] s else s
          rxAdvance cn n (true, releaseHeld cn s)

/-- Completions, and the ACK that each completion of a message brings (R350). -/
def rxSettle (cn path : Nat) (answers : Option Nat) (ack : Bool) (s : State) : State :=
  match s.conn cn with
  | none => s
  | some c =>
    let (done, s) := rxAdvance cn (c.rx.length + 1) (false, s)
    if done || ack then
      match s.conn cn with
      | some c => if c.state = .live then sendAck cn path answers s else s
      | none => s
    else s

/-- The PSN of an arriving packet as a count, or none where it lies outside the window and is no duplicate (R332, R349, R350). -/
def rxPsn (c : Conn) (p : BitVec 32) : Option Nat :=
  let ahead := diff32 p.toNat c.rxNext
  if ahead < 1024 then some (c.rxNext + ahead)
  else
    let back := diff32 c.rxNext p.toNat
    if back ≤ 1024 ∧ back ≤ c.rxNext then some (c.rxNext - back) else none

/-- A PSN has been received; the first not received moves on. -/
def gotPsn (c : Conn) (psn : Nat) : Conn :=
  let l := psn :: c.rxGot
  let next := match firstBelow 1025 (fun i => !l.contains (c.rxNext + i)) with
    | some i => c.rxNext + i
    | none => c.rxNext
  { c with rxGot := l.filter (fun q => decide (next ≤ q)), rxNext := next }

/-- An entry has been taken by SEND `i`. -/
def takeEntry (c : Conn) (i : Nat) : Conn :=
  let l := i :: c.taken
  let low := match firstBelow (l.length + 1) (fun j => !l.contains (c.recvLow + j)) with
    | some j => c.recvLow + j
    | none => c.recvLow
  { c with taken := l.filter (fun q => decide (low ≤ q)), recvLow := low }

/-- The message of an arriving packet as it is admitted (R340, R343, R345): the message to record with the NAK to answer, or none where no receive entry is
posted. -/
def admitMsg (c : Conn) (kind : Nat) (p : Pkt) (psn msn : Nat) (s : State) : Option (RxMsg × Option Status) × State :=
  let len := p.msgLen.toNat
  let n := if kind = 3 then 1 else max 1 (ceilDiv len c.peerMtu)
  let r : RxMsg := { msn := msn, kind := kind, len := len, room := len, first := psn - p.offset.toNat / c.peerMtu, count := n }
  let no (st : Status) (r : RxMsg) : Option (RxMsg × Option Status) := some ({ r with state := .refused st }, some st)
  match kind with
  | 1 =>
    match keyCheck s c.slice p.key.toNat 0 p.base.toNat len with
    | .error st => (no st r, s)
    | .ok (k, sp) =>
      match vLink s c.slice sp p.base.toNat with
      | some st => (no st r, s)
      | none => (some ({ r with base := p.base.toNat, space := sp, key := some k }, none), s)
  | 2 =>
    let low := c.recvLow
    -- a send sequence number counts modulo 2^32
    let i := low + diff32 p.key.toNat low
    if 2 ^ 31 ≤ diff32 p.key.toNat low then (no St.invalidField r, s)
    else if c.posted ≤ i then (none, s)
    else
      let (b, s) := vRead c.slice c.recvSp (c.recvRing + 16 * (i % 2 ^ c.recvLog2)) 16 s
      let r := { r with entry := some i }
      match entryCheck s c.slice b with
      | .error st => (no st r, s)
      | .ok (a, room, sp) => (some ({ r with base := a, space := sp, room := room }, none), s)
  | 3 =>
    match keyCheck s c.slice p.key.toNat 1 p.base.toNat len with
    | .error st => (no st r, s)
    | .ok (k, sp) =>
      match vLink s c.slice sp p.base.toNat with
      | some st => (no st r, s)
      | none => (some ({ r with base := p.base.toNat, space := sp, key := some k }, none), s)
  | _ =>
    match c.wrs.find? (fun (w : Wr) => w.isRead && w.result.isNone && diff32 w.msn p.key.toNat == 0) with
    | some w => (some ({ r with answers := w.msn }, none), s)
    | none => (some ({ r with state := .refused St.connState }, none), s)

/-- Bytes held for all connections (R348). -/
def heldBytes (s : State) : Nat := sumOf (List.map (fun x => sumOf (x.2.held.map (fun (h : HeldPkt) => h.data.length))) s.vrm.conns)

/-- A packet of a known message takes its place, is held, or is discarded (R347, R348). The result is whether it was accepted. -/
def placePacket (cn : Nat) (m : Nat) (p : Pkt) (s : State) : Bool × State :=
  match s.conn cn with
  | none => (false, s)
  | some c =>
    match c.rx.find m with
    | none => (true, s)
    | some r =>
      if r.state ≠ .open then (true, s)
      else
        let off := p.offset.toNat
        let r := if p.immPresent then { r with imm := some p.imm } else r
        if mustHold c r off p.payload.length then
          if 16 * 2 ^ 20 < heldBytes s + p.payload.length then (false, s.bump .vrmDropHold)
          else (true, s.setConn cn { c with rx := c.rx.set m r, held := c.held ++ [{ msn := m, offset := off, data := p.payload }] })
        else (true, placeBytes cn m off p.payload (s.setConn cn { c with rx := c.rx.set m r }))

/-- What follows a packet's acceptance: its PSN counts, and an ACK leaves where R350 calls for one. -/
def accepted (cn : Nat) (p : Pkt) (psn : Nat) (s : State) : State :=
  match s.conn cn with
  | none => s
  | some c =>
    let c := gotPsn c psn
    let s := s.setConn cn { c with
      sinceAck := c.sinceAck + 1, ackOwed := true, ackPath := if c.ackOwed then c.ackPath else p.path.toNat }
    rxSettle cn p.path.toNat (some psn) (p.ackReq || decide (16 ≤ c.sinceAck + 1)) s

/-- A data packet of a LIVE connection whose context is at hand (R340 to R350). -/
def takeData (cn kind : Nat) (p : Pkt) (s : State) : State :=
  match vCipher cn none s with
  | (false, s) => s
  | (true, s) =>
    withConn cn s (fun c s =>
      match rxPsn c p.psn with
      | none => s.bump .vrmDropCheck
      | some psn =>
        let s := s.setConn cn { c with ceCount := if p.ce then min 0xFFFF (c.ceCount + 1) else c.ceCount }
        if psn < c.rxNext ∨ c.rxGot.contains psn then sendAck cn p.path.toNat (some psn) s
        else
          let d := diff32 p.msn.toNat c.rxDone
          let msn := c.rxDone + d
          if 2 ^ 31 ≤ d then accepted cn p psn s
          else match c.rx.find msn with
          | some _ =>
            (match placePacket cn msn p s with
              | (true, s) => accepted cn p psn s
              | (false, s) => s)
          | none =>
            match admitMsg c kind p psn msn s with
            | (none, s) => sendNak cn p.path.toNat msn St.noRecvBuffer 2 [] s
            | (some (r, nak), s) =>
              let s := s.modConn cn (fun c =>
                let c := match r.entry with
                  | some i => takeEntry c i
                  | none => c
                { c with rx := c.rx.set msn r })
              let s := match nak with
                | some st => sendNak cn p.path.toNat msn st 3 [] s
                | none => s
              if kind = 3 then accepted cn p psn s
              else match placePacket cn msn p s with
              | (true, s) => accepted cn p psn s
              | (false, s) => s)

/-- The oldest READ whose response has not begun. -/
def oldestRead (c : Conn) : Option Wr :=
  c.wrs.find? (fun (w : Wr) => w.isRead && w.result.isNone && !c.rx.any (fun x => x.2.kind == 4 && x.2.answers == w.msn))

/-- A MSG_ABORT ends its message (R358). -/
def takeAbort (cn : Nat) (p : Pkt) (st : Status) (s : State) : State :=
  match vCipher cn none s with
  | (false, s) => s
  | (true, s) =>
    withConn cn s (fun c s =>
      match rxPsn c p.psn with
      | none => s.bump .vrmDropCheck
      | some psn =>
        let s := s.setConn cn { c with ceCount := if p.ce then min 0xFFFF (c.ceCount + 1) else c.ceCount }
        if psn < c.rxNext ∨ c.rxGot.contains psn then sendAck cn p.path.toNat (some psn) s
        else
          let d := diff32 p.msn.toNat c.rxDone
          let msn := c.rxDone + d
          if 2 ^ 31 ≤ d then accepted cn p psn s
          else
            let r := (c.rx.find msn).getD { msn := msn, kind := 7, len := 0 }
            let reading : Option Wr := if r.kind = 4 then c.wrs.find? (fun (w : Wr) => w.isRead && w.msn == r.answers)
              else if r.kind = 7 ∧ st = St.sourceDataError then oldestRead c else none
            let s := s.modConn cn (fun c =>
              let c := match reading with
                | some w => wrResult c w.msn st 0 0
                | none => c
              { c with
                rx := c.rx.set msn (if r.state = .open then { r with state := .aborted St.msgAborted } else r)
                held := c.held.filter (fun (h : HeldPkt) => h.msn != msn) })
            accepted cn p psn (wrDone cn s))

/-- A received ACK (R349, R350, R354). -/
def takeAck (cn : Nat) (a : AckPkt) (s : State) : State :=
  match vCipher cn none s with
  | (false, s) => s
  | (true, s) =>
    withConn cn s (fun c s =>
      let fwd := diff32 a.cumPsn.toNat c.txCum
      let cum := if fwd < 2 ^ 31 ∧ c.txCum + fwd ≤ c.nextPsn then c.txCum + fwd else c.txCum
      let covered (q : Nat) : Bool :=
        decide (q < cum) || (decide (diff32 q a.bmpBase.toNat < 256) && a.bitmap.getLsbD (diff32 q a.bmpBase.toNat))
      let hit := c.flying.filter (fun (f : Flying) => covered f.psn)
      let n := hit.length
      let marks := a.ceCount.toNat
      let alpha := if n = 0 then c.alpha else c.alpha + ((marks : Rat) / (n : Rat) - c.alpha) / ((2 ^ c.gLog2 : Nat) : Rat)
      let dd := diff32 a.doneMsn.toNat c.txDone
      let done := if dd < 2 ^ 31 ∧ c.txDone + dd ≤ c.nextMsn then c.txDone + dd else c.txDone
      let paths := hit.foldl (fun (l : List VPath) f => l.set f.path { l.getD f.path {} with timeouts := 0 }) c.paths
      let c := { c with
        txCum := cum
        txDone := done
        flying := c.flying.filter (fun (f : Flying) => !covered f.psn)
        paths := paths
        alpha := alpha
        markCut := c.markCut || decide (0 < marks)
        markInc := c.markInc || decide (0 < marks)
        tx := c.tx.filter (fun (t : TxMsg) => decide (done ≤ t.msn))
        wrs := c.wrs.map (fun (w : Wr) => if !w.isRead ∧ w.result.isNone ∧ w.msn < done then { w with result := some (St.success, w.len, w.flags) } else w) }
      pumpAll cn (wrDone cn (s.setConn cn c)))

/-- A message's packets in flight that are to be sent again (R340, R352). -/
def resend (cn : Nat) (which : Flying → Bool) (s : State) : State :=
  withConn cn s (fun c s =>
    (c.flying.filter which).foldl (fun s f =>
      match s.conn cn with
      | some c => if c.state = .live ∧ f.kind ≠ 7 then sendData cn f (s.bump .vrmRetx)
        else if c.state = .live then launch cn (nextPath c) 48 (fun lp => .vrmtAbort lp f.pkt St.sourceDataError) (s.bump .vrmRetx)
        else s
      | none => s) s)

/-- A received NAK (R340, R345, R352). -/
def takeNak (cn : Nat) (n : NakPkt) (s : State) : State :=
  match vCipher cn none s with
  | (false, s) => s
  | (true, s) =>
    withConn cn s (fun c s =>
      let msn := c.txDone + diff32 n.msn.toNat c.txDone
      if n.kind = 1 then
        resend cn (fun f => decide (diff32 f.psn n.bmpBase.toNat < 256) && n.bitmap.getLsbD (diff32 f.psn n.bmpBase.toNat)) s
      else if n.kind = 2 then
        match c.tx.find? (fun (t : TxMsg) => t.msn == msn && !t.rnrWait) with
        | none => s
        | some t =>
          let k := t.rnr + 1
          if c.rnrTries ≠ 7 ∧ c.rnrTries ≤ k then connError cn (s.setConn cn (wrResult c msn St.noRecvBuffer 0 0))
          else s.setConn cn { c with tx := c.tx.map (fun (x : TxMsg) => if x.msn = msn then { x with rnr := k, rnrWait := true } else x) }
      else if n.kind = 3 then
        -- the bytes placed under LEN_EXCEEDS_BUFFER are not among the NAK's fields
        let (b, s) := if n.status = St.lenExceedsBuffer then s.draw 32 else (0, s)
        wrDone cn (s.modConn cn (fun c => wrResult c msn n.status b 0))
      else s)

/-- The checks of R332 that need no payload; ERROR answers data packets (R334). -/
def vReceive (dst : BitVec 22) (srcIp : Nat) (checkOk encrypted : Bool) (path : Nat) (dataMsn : Option Nat) (s : State)
    (f : Nat → Conn → State → State) : State :=
  if s.frozen then s.bump .vrmDropFreeze
  else
    let cn := dst.toNat
    match s.conn cn with
    | none => s.bump .vrmDropCheck
    | some c =>
      if checkOk = false ∨ srcIp ≠ c.peerIp ∨ encrypted ≠ c.slot.isSome ∨ c.state = .init then s.bump .vrmDropCheck
      else if c.state = .error then
        match dataMsn with
        | some m => sendNak cn path m St.connState 3 [] (s.bump .vrmDropCheck)
        | none => s.bump .vrmDropCheck
      else f cn c s

/-- A context that may be replaced: no incomplete message, held or unacknowledged packet (R355). -/
def replaceable (c : Conn) : Bool := c.cached && c.rx.isEmpty && c.held.isEmpty && c.flying.isEmpty

def cachedOf (s : State) (n : Nat) : Nat := (s.vrm.conns.filter (fun p => p.2.slice == n && p.2.cached)).length

/-- A place in the cache for a context of slice `n`: a free one of its own, or that of its least recently used replaceable context (R355). -/
def cacheRoom (n : Nat) (s : State) : Bool × State :=
  if cachedOf s n < limitOf s n (·.vrmtCached) 65536 then (true, s)
  else
    let old := s.vrm.conns.foldl (fun (b : Option (Nat × Nat)) p =>
      if p.2.slice = n ∧ replaceable p.2 = true then
        match b with
        | some (_, t) => if p.2.lastUse < t then some (p.1, p.2.lastUse) else b
        | none => some (p.1, p.2.lastUse)
      else b) none
    match old with
    | some (cn, _) => (true, s.modConn cn (fun c => { c with cached := false }))
    | none => (false, s)

/-- A doorbell takes effect: the engine reads the doorbell record (R337). -/
def takeDoorbell (cn : Nat) (snd rcv : Bool) (s : State) : State :=
  withConn cn s (fun c s =>
    if (vLink s c.slice c.dbSp c.doorbell).isSome then s
    else
      let (b, s) := vRead c.slice c.dbSp c.doorbell 8 s
      let st := fieldLE b 0 4
      let rt := fieldLE b 4 4
      let sn := 2 ^ c.sendLog2
      let rn := 2 ^ c.recvLog2
      let s := s.setConn cn { c with
        sendTail := if snd = true ∧ st < sn then c.sendHead + (st + sn - c.sendHead % sn) % sn else c.sendTail
        posted := if rcv = true ∧ rt < rn then c.posted + (rt + rn - c.posted % rn) % rn else c.posted }
      if c.state = .error then flushConn cn s else s)

def vHandle (cn : Nat) (w : CtxWait) (s : State) : State :=
  let live : Bool := match s.conn cn with
    | some c => c.state == .live
    | none => false
  match w with
  | .doorbell a b => takeDoorbell cn a b s
  | .packet k p => if live then takeData cn k p s else s
  | .ack a => if live then takeAck cn a s else s
  | .nak n => if live then takeNak cn n s else s
  | .abort p st => if live then takeAbort cn p st s else s

/-- Bytes of the packets that wait for contexts (R355). -/
def waitBytes : CtxWait → Nat
  | .packet _ p => 48 + p.payload.length
  | .ack _ => 72
  | .nak _ => 72
  | .abort _ _ => 48
  | .doorbell _ _ => 0

def isPacket (w : CtxWait) : Bool := decide (0 < waitBytes w)

def missBytes (s : State) : Nat := sumOf (List.map (fun x => sumOf (x.2.waiting.map waitBytes)) s.vrm.conns)

/-- Something needs a context: it acts at once where the context is cached, and otherwise waits for its fetch (R355). -/
def withCtx (cn : Nat) (w : CtxWait) (s : State) : State :=
  withConn cn s (fun c s =>
    if c.cached then
      let t := s.vrm.clock + 1
      vHandle cn w ((s.setConn cn { c with lastUse := t }).modVrm (fun v => { v with clock := t }))
    else if (hostRefusal s (ownerCaller c.slice)).isSome then connError cn s
    else if isPacket w ∧ (64 ≤ (c.waiting.filter isPacket).length ∨ 4 * 2 ^ 20 < missBytes s + waitBytes w) then s.bump .vrmDropMiss
    else s.setConn cn { c with waiting := c.waiting ++ [w] })

/-- A fetched context takes its place in the cache and what waited for it proceeds; where no context of the slice can give way, it waits on. -/
def ctxFetched (cn : Nat) (ok : Bool) (s : State) : State :=
  withConn cn s (fun c s =>
    if c.cached ∨ c.waiting.isEmpty then s
    else if ok = false then connError cn s
    else match cacheRoom c.slice s with
    | (false, s) => s
    | (true, s) =>
      let s := s.modConn cn (fun c => { c with cached := true, waiting := [] })
      c.waiting.foldl (fun s w => withCtx cn w s) s)

/-- A connection's end: it is CLOSED, its uncompleted requests and buffers flushed, and its number stays out of use (R333, R334). -/
def closeConn (cn : Nat) (flush : Bool) (s : State) : State :=
  withConn cn s (fun c s =>
    let s := if flush then flushConn cn (s.setConn cn { c with state := .error, tx := [], flying := [], rx := [], held := [], waiting := [] }) else s
    s.modVrm (fun v => { v with conns := v.conns.del cn, closing := cn :: v.closing }))

/-- Every path on a physical port is removed, and what was in flight on it is sent again on the others (R264, R351, R361). The last path of a
connection stays. -/
def portPathsDown (up : Nat → Bool) (s : State) : State :=
  s.vrm.conns.foldl (fun s p =>
    let cn := p.1
    let gone (i : Nat) : Bool := !up i
    let live := (List.range p.2.paths.length).filter (fun i => !(p.2.paths.getD i {}).removed)
    let drop := live.filter gone
    let drop := if drop.length = live.length then drop.drop 1 else drop
    if drop.isEmpty then s
    else
      let s := s.modConn cn (fun c => { c with paths := drop.foldl (fun l i => l.set i { l.getD i {} with removed := true }) c.paths })
      resend cn (fun f => drop.contains f.path) (s.bump .vrmPathsRemoved 0 drop.length)) s

end Sys2Proof.Machine
end

