-- ==== Sys2Proof/Machine/Net.lean ====
section
/-! DEFINITION. Ethernet: receiving, classification, delivery and the slow path (R363 to R375), transmission (R376 to R380), policers (R381), and the
commands of chapter 14. -/

namespace Sys2Proof.Machine

open Sys2Proof

/-- A frame's counted length from its wire length (R379). -/
def countedLen (s : State) (lp wire : Nat) : Nat := wire + s.fld .netPortCfg 22 16 lp - 32

/-- Bytes of a list of frames. -/
def frameBytes (l : List RxFrame) : Nat := sumOf (l.map (fun (f : RxFrame) => f.bytes.length))

/-- A frame waits for firmware with its reason, or finds the 4 MiB buffer full (R373). -/
def slowFrame (reason : Nat) (f : RxFrame) (s : State) : State :=
  if 4 * 2 ^ 20 < frameBytes (s.net.slow.map (·.2)) + f.bytes.length then s.bump .pktSlowDrop
  else s.modNet (fun n => { n with slow := n.slow ++ [(reason, f)] })

/-- The completion ring of a packet queue has a free entry, `n` of its entries being spoken for. -/
def cplFree (q : PktQ) (n : Nat) : Bool := (q.cplTail + n + 1) % 2 ^ q.log2 != q.cplHead && decide (n + 1 < 2 ^ q.log2)

/-- The memory that a packet queue's address names (R374). -/
def pktStore (a : Nat) (data : List Byte) (s : State) : State :=
  match callerSpace .pf0 a with
  | .array => memStore .hub a data s
  | sp => s.store sp a data

def pktRead (s : State) (a n : Nat) : List Byte :=
  match callerSpace .pf0 a with
  | .array => s.load a n
  | sp => s.bytes sp a n

/-- An address that PF0 named may be reached: it lies in DDR, or the host link may be used. -/
def pktReach (s : State) (a : Nat) : Bool := callerSpace .pf0 a == .array || (hostRefusal s .pf0).isNone

def phaseOf (count log2 : Nat) : List Byte := leBytes 1 (if count / 2 ^ log2 % 2 = 0 then 1 else 0)

/-- A receive completion (R375). `cplTail` counts completions. -/
def rxComplete (n : Nat) (body : List Byte) (s : State) : State :=
  match s.net.rxq.find n with
  | none => s
  | some q =>
    let s := pktStore (q.cplRing + 32 * (q.cplTail % 2 ^ q.log2)) (body ++ List.replicate 4 0 ++ phaseOf q.cplTail q.log2) s
    let s := s.modNet (fun x => { x with rxq := x.rxq.set n { q with cplTail := q.cplTail + 1 } })
    irqEvent .pf0 q.irq s

def rxBody (len placed stamp hash : Nat) (st : Status) (port reason rule flags : Nat) : List Byte :=
  leBytes 4 len ++ leBytes 4 placed ++ leBytes 8 stamp ++ leBytes 4 hash ++ leBytes 2 st.toNat ++ leBytes 1 port ++ leBytes 1 reason ++
    leBytes 2 rule ++ leBytes 1 flags

/-- A frame goes to receive queue `n`: the next buffer entry takes it; an entry outside its range completes and takes none (R375). The first argument
bounds the entries. -/
def rxDeliver (n hash reason : Nat) (f : RxFrame) : Nat → State → State
  | 0, s => s.bump .pktRxNobuf
  | fuel + 1, s =>
    match s.net.rxq.find n with
    | none => s.bump .pktRxNobuf
    | some q =>
      let full : Bool := (q.cplTail + 1) % 2 ^ q.log2 == q.cplHead
      if q.tail ≤ q.head ∨ full = true ∨ pktReach s q.ring = false ∨ pktReach s q.cplRing = false then s.bump .pktRxNobuf
      else
        let e := pktRead s (q.ring + 16 * (q.head % 2 ^ q.log2)) 16
        let a := fieldLE e 0 8
        let room := fieldLE e 8 4
        let s := s.modNet (fun x => { x with rxq := x.rxq.set n { q with head := q.head + 1 } })
        let flags := (if f.second then 1 else 0) + (if f.popped then 2 else 0)
        if room < 64 ∨ 65536 < room then
          let st := if room < 64 then St.invalidField else St.lenTooLarge
          rxDeliver n hash reason f fuel (rxComplete n (rxBody 0 0 0 0 st f.port 0 0xFFFF 0) s)
        else if pktReach s a = false then s.bump .pktRxNobuf
        else
          let d := f.bytes.take room
          let st := if room < f.bytes.length then St.lenExceedsBuffer else St.success
          rxComplete n (rxBody f.bytes.length d.length f.stamp hash st f.port reason f.rule flags) (pktStore a d s)

/-- The hash's VNI: of the frame's VXLAN header, or of the one removed (R372). -/
def hashVni (f : RxFrame) (p : Parsed) : Nat := p.vni.getD f.vni

/-- A frame is delivered by queue set `qset` (R372). -/
def deliverFrame (qset : Nat) (f : RxFrame) (p : Parsed) (s : State) : State :=
  let h := frameHash p (hashVni f p)
  rxDeliver (s.fld .pktQset 7 0 (256 * qset + h % 256)) h 0 f 16384 s

/-- The outer tag taken off a frame. -/
def popTag (f : RxFrame) (p : Parsed) : RxFrame :=
  if p.tags = 0 then f else { f with bytes := f.bytes.take 12 ++ f.bytes.drop 16, popped := true }

/-- Policer `n` passes a frame, marks it or drops it (R381). -/
def police (n : Nat) (f : RxFrame) (p : Parsed) (s : State) : Option RxFrame × State :=
  if n = 0xFFFF then (some f, s)
  else
    let burst := s.fld .pktPolicerBurst 15 0 n * 65536
    let t := s.net.policers.get n { tokens := burst }
    let len := countedLen s f.port f.wire * 256
    if len ≤ t.tokens ∧ s.fld .pktPolicerRate 16 0 n ≠ 0 then
      (some f, s.modNet (fun x => { x with policers := x.policers.set n { t with tokens := t.tokens - len } }))
    else
      let ecn := p.tos % 4
      if s.fld .pktPolicerBurst 16 16 n = 1 ∧ p.ip ≠ 0 ∧ (ecn = 1 ∨ ecn = 2) then
        (some { f with bytes := markCe f.bytes p }, s.bump .pktPoliceMark n)
      else (none, s.bump .pktPoliceDrop n)

/-- The recirculation loop's content at 400 GB/s and 400 ns (R371). -/
def pourBytes : Nat := 160000

/-- A frame joins the second pour with its entry's edits made, or goes to the slow path where R371 sends it. -/
def pourFrame (edits : Nat) (f : RxFrame) (p : Parsed) (s : State) : State :=
  if f.second ∨ (natBit edits 0 = true ∧ p.vni.isNone) then slowFrame 0x0B f s
  else
    let g := if natBit edits 0 then { f with bytes := f.bytes.drop p.innerOff, vni := p.vni.getD 0 }
      else if natBit edits 1 then popTag f p else f
    if pourBytes < frameBytes s.net.pour + g.bytes.length then s.bump .pktPourDrop
    else s.modNet (fun n => { n with pour := n.pour ++ [{ g with second := true }] })

/-- The lowest matching rule entry. -/
def ruleFor (s : State) (key : List Byte) : Option (Nat × List Byte) :=
  s.net.rules.foldl (fun (b : Option (Nat × List Byte)) e =>
    if ruleMatches key e.2 then
      match b with
      | some x => if e.1 < x.1 then some e else b
      | none => some e
    else b) none

/-- Classification (R369): the entry's policer, edits and disposition, or PKT_DEFAULT. -/
def classify (f : RxFrame) (p : Parsed) (s : State) : State :=
  match ruleFor s (ruleKey f.port f.second p) with
  | some (i, e) =>
    let s := s.bump .pktRuleHits i
    let f := { f with rule := i }
    match police (fieldLE e 132 2) f p s with
    | (none, s) => s
    | (some f, s) =>
      let edits := fieldLE e 129 1
      match fieldLE e 128 1 with
      | 0 => deliverFrame (fieldLE e 130 1) (if natBit edits 1 then popTag f p else f) p s
      | 1 => s
      | 2 => slowFrame 0x0A f s
      | _ => pourFrame edits f p s
  | none =>
    match s.fld .pktDefault 9 8 with
    | 0 => deliverFrame (s.fld .pktDefault 3 0) f p s
    | 2 => slowFrame 0x0A f s
    | _ => s

/-- A frame is parsed and dispatched (R367, R368, R373). PTP, VRMT and NVMe/TCP that fixed dispatch takes act through commands of their own. -/
def parseDispatch (f : RxFrame) (s : State) : State :=
  let p := parseFrame (s.fld .pktCfg 31 16) f.bytes
  let nvme := s.fld .pktCfg 15 0
  let own : Bool := s.vrm.own.contains p.dstIp
  if p.bad then s.bump .pktRxCsum
  else if (p.etype = 0x88F7 ∨ (p.l4 = 17 ∧ (p.dport = 319 ∨ p.dport = 320))) ∧ s.fld .netPortCfg 3 3 f.port = 1 then s
  else if p.l4 = 17 ∧ p.dport = natBits (s.kw kVrmCfg) 31 16 ∧ own then s
  else if p.l4 = 6 ∧ (p.sport = nvme ∨ p.dport = nvme) ∧ s.net.flows.contains (p.srcIp, p.sport, p.dstIp, p.dport) then s
  else match p.slow with
  | some r => slowFrame r f s
  | none => if (p.proto = 1 ∨ p.proto = 58) ∧ p.ip ≠ 0 ∧ own then slowFrame 3 f s else classify f p s

/-- A received frame under MACsec: whether it is accepted, and the replay state after it (R364, R365). -/
def macsecAccept (lp : Nat) (eapol : Bool) (secured : Option (Nat × Nat × Bool)) (s : State) : Bool × State :=
  if s.fld .netPortCfg 2 2 lp = 0 then (true, s)
  else match secured with
  | none => if eapol then (true, s) else (false, s.bump .netMacsecDrop lp)
  | some (sci, pn, ok) =>
    match (s.net.rxSc.get lp []).find sci with
    | none => (false, s.bump .netMacsecDrop lp)
    | some next =>
      let r := s.fld .netPortCfg 12 8 lp
      let window := if r = 0 then 0 else 2 ^ r - 1
      if ok = false ∨ pn + window < next then (false, s.bump .netMacsecDrop lp)
      else (true, s.modNet (fun n => { n with rxSc := n.rxSc.set lp ((n.rxSc.get lp []).set sci (max next (pn + 1))) }))

/-- A frame arrives at a logical port. `bytes` run from the destination address and hold neither FCS nor MACsec fields (R363 to R366). -/
def receiveFrame (lp : Nat) (bytes : List Byte) (phyError fcsOk : Bool) (secured : Option (Nat × Nat × Bool)) (s : State) : State :=
  let wire := bytes.length + 4 + (if secured.isSome then 32 else 0)
  let dst := fieldBE bytes 0 6
  let et := fieldBE bytes 12 2
  if portLive s lp = false then s
  else if wire < 64 ∨ 9216 < wire ∨ phyError ∨ fcsOk = false then s.bump .netRxErr lp
  else if et = 0x8808 ∧ (fieldBE bytes 14 2 = 1 ∨ fieldBE bytes 14 2 = 0x0101) then s.bump .netCtlDrop lp
  else if natBit (dst / 2 ^ 40) 0 = false ∧ dst ≠ s.kw (kMac lp) + 2 ^ 32 * s.kw (kMac lp + 1) ∧ s.fld .netPortCfg 1 1 lp = 0 then s
  else match macsecAccept lp (et == 0x888E) secured s with
  | (false, s) => s
  | (true, s) => parseDispatch { port := lp, bytes := bytes, wire := wire, stamp := s.ft.now } s

def execFrameReceive (port : Nat) (bytes : List Byte) (phyError fcsOk : Bool) (secured : Option (Nat × Nat × Bool)) (s : State) : Out :=
  if 32 < port then .fault .noSuchUnit else whenOn s (receiveFrame port bytes phyError fcsOk secured)

/-- The oldest recirculated frame passes fixed dispatch and the rules again (R371). -/
def execSecondPour (s : State) : Out :=
  whenOn s (fun s =>
    match s.net.pour with
    | [] => s
    | f :: r => parseDispatch f (s.modNet (fun n => { n with pour := r })))

/-- A frame that firmware sends, on scheduler queue 0 (R373). -/
def sendReply (lp : Nat) (bytes : List Byte) (s : State) : State :=
  let b := if bytes.length < 60 then bytes ++ List.replicate (60 - bytes.length) 0 else bytes
  netQueue lp 0 { len := b.length + 4, what := .frame lp b } s

/-- The port's own address. -/
def ownMac (s : State) (lp : Nat) : Nat := s.kw (kMac lp) + 2 ^ 32 * s.kw (kMac lp + 1)

/-- The answer to an ARP request for one of the VN700's own addresses, where the frame is one. -/
def arpReply (s : State) (f : RxFrame) : Option (List Byte) :=
  let b := f.bytes
  let o := if fieldBE b 12 2 = 0x0806 then 14 else if fieldBE b 16 2 = 0x0806 then 18 else 22
  let tpa := fieldBE b (o + 24) 4
  if fieldBE b (o + 6) 2 = 1 ∧ s.vrm.own.contains (mapped4 tpa) then
    let sha := slice b (o + 8) 6
    let mac := beBytes 6 (ownMac s f.port)
    some (sha ++ mac ++ slice b 12 (o - 12) ++ slice b o 6 ++ [0, 2] ++ mac ++ beBytes 4 tpa ++ sha ++ slice b (o + 14) 4)
  else none

/-- The answer to an ICMP or ICMPv6 echo request, or to a neighbour solicitation, for one of the VN700's own addresses. -/
def icmpReply (s : State) (f : RxFrame) (p : Parsed) : Option (List Byte) :=
  let b := f.bytes
  let o := if p.ip = 4 then p.ipOff + (fieldBE b p.ipOff 1 % 16) * 4 else p.ipOff + 40
  let ty := fieldBE b o 1
  let mac := beBytes 6 (ownMac s f.port)
  let head := slice b 6 6 ++ mac ++ slice b 12 (p.ipOff - 12)
  let seg := b.drop o
  if p.ip = 4 ∧ p.proto = 1 ∧ ty = 8 then
    let seg := seg.take (fieldBE b (p.ipOff + 2) 2 - (o - p.ipOff))
    let z := [0, 0, 0, 0] ++ seg.drop 4
    let seg := [0, 0] ++ beBytes 2 (0xFFFF - onesSum z) ++ seg.drop 4
    let ip := slice b p.ipOff (o - p.ipOff)
    let ip := ip.take 12 ++ slice b (p.ipOff + 16) 4 ++ slice b (p.ipOff + 12) 4 ++ ip.drop 20
    some (fillIp (head ++ ip ++ seg) head.length)
  else if p.ip = 6 ∧ p.proto = 58 ∧ (ty = 128 ∨ ty = 135) then
    let seg := seg.take (fieldBE b (p.ipOff + 4) 2)
    let body := if ty = 128 then [129, 0, 0, 0] ++ seg.drop 4
      else [136, 0, 0, 0, 0x60, 0, 0, 0] ++ slice seg 8 16 ++ [2, 1] ++ mac
    let own := if ty = 128 then slice b (p.ipOff + 24) 16 else slice seg 8 16
    let ip := slice b p.ipOff 4 ++ beBytes 2 body.length ++ [58, 255] ++ own ++ slice b (p.ipOff + 8) 16
    let sum := onesSum body (onesSum (own ++ slice b (p.ipOff + 8) 16 ++ beBytes 4 body.length ++ beBytes 4 58))
    some (head ++ ip ++ body.take 2 ++ beBytes 2 (0xFFFF - sum) ++ body.drop 4)
  else none

/-- MKA reaches an agreement on a port or not, by a free value: with one, a transmit association becomes usable and a receive channel is known (R364). -/
def mkaStep (lp : Nat) (s : State) : State :=
  let (v, s) := s.draw 64
  let (agreed, s) := s.draw 1
  if agreed = 1 ∧ s.drbgOk = true then
    let (_, s) := s.drbg 256
    let t := s.net.rxSc.get lp []
    s.modNet (fun n => { n with txSa := n.txSa.set lp 1, rxSc := n.rxSc.set lp ((if 16 ≤ t.length then t.drop 1 else t).set v 1) })
  else s

/-- Firmware takes the oldest slow-path frame: it answers for the VN700's own addresses, runs LLDP and MKA, and forwards every other frame with its reason to
PF0's receive queue 0 (R373). While its service is down, frames wait (R268). -/
def execSlowPathFrame (s : State) : Out :=
  whenOn s (fun s =>
    match s.net.slow with
    | [] => s
    | (r, f) :: rest =>
      if svcRuns s svcNet = false then s
      else
        let s := s.modNet (fun n => { n with slow := rest })
        let p := parseFrame (s.fld .pktCfg 31 16) f.bytes
        let answer := if r = 2 then arpReply s f else if r = 3 then icmpReply s f p else none
        match answer with
        | some b => sendReply f.port b s
        | none =>
          if r = 4 then s
          else if r = 5 then mkaStep f.port s
          else rxDeliver 0 (frameHash p (hashVni f p)) r f 16384 s)

/-- The rule stage as an entry's 160 bytes (R370). -/
def stageBytes (s : State) : List Byte := (List.range 40).flatMap (fun i => leBytes 4 (s.reg .pktRuleStage i))

/-- A staged entry holds a reserved value (R369, R370). -/
def stageBad (e : List Byte) : Bool :=
  let z (i n : Nat) : Bool := fieldLE e i n != 0
  let disp := fieldLE e 128 1
  let edits := fieldLE e 129 1
  let pol := fieldLE e 132 2
  z 56 8 || z 120 8 || decide (15 < (e.getD 2 0).toNat) || decide (15 < (e.getD 4 0).toNat) || decide (15 < (e.getD 66 0).toNat) ||
    decide (15 < (e.getD 68 0).toNat) || decide (3 < disp) || decide (3 < edits) || decide (15 < fieldLE e 130 1) || z 131 1 ||
    (decide (1023 < pol) && pol != 0xFFFF) || z 134 26 || (natBit edits 0 && disp != 3)

def ruleStatus (st : Status) (s : State) : State := s.setFld .pktRuleStatus 31 16 st.toNat

def execRuleWrite (idx : BitVec 12) (s : State) : Out :=
  whenOn s (fun s =>
    let e := stageBytes s
    if stageBad e then ruleStatus St.invalidField s
    else ruleStatus St.success (s.modNet (fun n => { n with rules := n.rules.set idx.toNat e })))

def execRuleInvalidate (idx : BitVec 12) (s : State) : Out :=
  whenOn s (fun s => ruleStatus St.success (s.modNet (fun n => { n with rules := n.rules.del idx.toNat })))

/-- An entry is read into the stage; an invalid one reads as zeros. -/
def execRuleRead (idx : BitVec 12) (s : State) : Out :=
  whenOn s (fun s =>
    let e := s.net.rules.get idx.toNat (List.replicate 160 0)
    ruleStatus St.success ((List.range 40).foldl (fun s i => s.setReg .pktRuleStage (fieldLE e (4 * i) 4) i) s))

/-- PKT_QUEUE_CREATE (R374). A number in use is refused with INVALID_FIELD. -/
def pktQueueReq (q : PktQueueReq) (s : State) : Option Reply × State :=
  let t := if q.tx then s.net.txq else s.net.rxq
  let inRange (a len : Nat) : Bool := match callerSpace .pf0 a with
    | .array => spanPopulated s a len
    | _ => decide (a + len ≤ 2 ^ 64)
  if 255 < q.number ∨ t.has q.number = true then refuseAt 0x5001 0 St.invalidField s
  else if q.log2 < 6 ∨ 14 < q.log2 then refuseAt 0x5001 3 St.invalidField s
  else if 2047 < q.irq then refuseAt 0x5001 4 St.invalidField s
  else if q.tx = true ∧ 32 < q.port then refuseAt 0x5001 5 St.invalidField s
  else if q.tx = true ∧ (q.schedQ < 2 ∨ q.schedQ = 4 ∨ q.schedQ = 5 ∨ 15 < q.schedQ) then refuseAt 0x5001 6 St.invalidField s
  else if inRange q.ring ((if q.tx then 32 else 16) * 2 ^ q.log2) = false then refuseAt 0x5001 1 St.addrRange s
  else if inRange q.cplRing (32 * 2 ^ q.log2) = false then refuseAt 0x5001 2 St.addrRange s
  else
    let p : PktQ := { ring := q.ring, cplRing := q.cplRing, log2 := q.log2, irq := q.irq, port := q.port, schedQ := q.schedQ }
    accept (s.modNet (fun n => if q.tx then { n with txq := n.txq.set q.number p } else { n with rxq := n.rxq.set q.number p }))

def execPktQueueCreate (c : Caller) (q : PktQueueReq) (s : State) : Out :=
  whenOn s (fun s => mbxServe c 0x5001 s (fun _ s => pktQueueReq q s))

/-- A transmit queue's frames leave every scheduler queue. -/
def dropTxOf (p : Nat → Bool) (s : State) : State :=
  s.modNet (fun n => { n with sched := n.sched.map (fun _ l => l.filter (fun (f : TxFrame) => match f.src with
    | some (q, _, _) => !p q
    | none => true)) })

def execPktQueueDestroy (c : Caller) (tx : Bool) (n : Nat) (s : State) : Out :=
  whenOn s (fun s => mbxServe c 0x5002 s (fun _ s =>
    if (if tx then s.net.txq else s.net.rxq).has n = false then refuseAt 0x5002 0 St.invalidField s
    else if tx then accept ((dropTxOf (· == n) s).modNet (fun x => { x with txq := x.txq.del n }))
    else accept (s.modNet (fun x => { x with rxq := x.rxq.del n }))))

/-- Every packet queue of PF0 destroyed with its frames (R374). -/
def dropPktQueues (s : State) : State := (dropTxOf (fun _ => true) s).modNet (fun n => { n with rxq := [], txq := [] })

/-- A new ring index as a count, or none where it is not one (R152). -/
def ringCount (log2 base v : Nat) : Option Nat :=
  let n := 2 ^ log2
  if n ≤ v then none else some (base + (v + n - base % n) % n)

def execPktRxqDoorbell (n : Nat) (head : Bool) (v : Word) (s : State) : Out :=
  whenOn s (fun s =>
    match s.net.rxq.find n with
    | none => s.ignored
    | some q =>
      match ringCount q.log2 q.head v.toNat with
      | none => s.ignored
      | some t => s.modNet (fun x => { x with rxq := x.rxq.set n (if head then { q with cplHead := v.toNat } else { q with tail := t }) }))

/-- A transmit completion (R376). -/
def txComplete (n tag stamp : Nat) (st : Status) (s : State) : State :=
  match s.net.txq.find n with
  | none => s
  | some q =>
    let body := leBytes 8 tag ++ leBytes 8 stamp ++ leBytes 2 st.toNat ++ List.replicate 13 0 ++ phaseOf q.cplTail q.log2
    let s := if pktReach s q.cplRing then pktStore (q.cplRing + 32 * (q.cplTail % 2 ^ q.log2)) body s
      else { s with pci := { s.pci with held := s.pci.held ++ [(.pf0, q.cplRing + 32 * (q.cplTail % 2 ^ q.log2), body)] } }
    irqEvent .pf0 q.irq (s.modNet (fun x => { x with txq := x.txq.set n { q with cplTail := q.cplTail + 1 } }))

/-- A frame of a transmit queue is over: its entry is no longer outstanding, and its completion is written where it asks for one or did not succeed. -/
def txDone (src : Nat × Nat × Nat) (stamp : Nat) (st : Status) (s : State) : State :=
  let (n, tag, fl) := src
  let s := s.modNet (fun x => { x with txq := x.txq.map (fun k q => if k = n then { q with fetched := q.fetched - 1 } else q) })
  if st ≠ St.success ∨ natBit fl 0 then txComplete n tag (if natBit fl 1 then stamp else 0) st s else s

/-- Posted descriptors are fetched while their completions would find room (R376). -/
def txFetch (n : Nat) : Nat → State → State
  | 0, s => s
  | fuel + 1, s =>
    match s.net.txq.find n with
    | none => s
    | some q =>
      if q.tail ≤ q.head ∨ cplFree q q.fetched = false ∨ pktReach s q.ring = false then s
      else
        let d := pktRead s (q.ring + 32 * (q.head % 2 ^ q.log2)) 32
        let a := fieldLE d 0 8
        let len := fieldLE d 8 4
        let fl := fieldLE d 12 1
        let tag := fieldLE d 24 8
        let s := s.modNet (fun x => { x with txq := x.txq.set n { q with head := q.head + 1, fetched := q.fetched + 1 } })
        let fail (st : Status) : State := txDone (n, tag, fl) 0 st s
        txFetch n fuel (
          if len = 0 ∨ 7 < fl ∨ fieldLE d 13 11 ≠ 0 then fail St.invalidField
          else if 9212 < len then fail St.lenTooLarge
          else if pktReach s a = false then fail ((hostRefusal s .pf0).getD St.hostAccessDisabled)
          else if callerSpace .pf0 a = .array ∧ (eccHit s a len).isSome = true then fail St.dataUncorrectable
          else if portLive s q.port = false then fail St.linkDown
          else
            let b := pktRead s a len
            let b := b ++ List.replicate (60 - b.length) 0
            let b := if natBit fl 2 then fillSums (s.fld .pktCfg 31 16) b else b
            netQueue q.port q.schedQ { len := b.length + 4, what := .frame q.port b, src := some (n, tag, fl) } s)

def execPktTxqDoorbell (n : Nat) (head : Bool) (v : Word) (s : State) : Out :=
  whenOn s (fun s =>
    match s.net.txq.find n with
    | none => s.ignored
    | some q =>
      match ringCount q.log2 q.head v.toNat with
      | none => s.ignored
      | some t => txFetch n 16384 (s.modNet (fun x => { x with
          txq := x.txq.set n (if head then { q with cplHead := v.toNat } else { q with tail := t }) })))

/-- A shaper, 17 * port + queue, with 16 the port's own. -/
def shaperOf (s : State) (k : Nat) : Shaper := s.net.shapers.get k {}

def setShaper (k : Nat) (h : Shaper) (s : State) : State :=
  (s.modNet (fun n => { n with shapers := n.shapers.set k h })).setReg .pktShapeCredit (((h.credit / 256) % 4294967296).toNat) k

/-- A shaper permits a start (R380). -/
def permits (s : State) (k : Nat) : Bool := let h := shaperOf s k; h.rate == 0 || decide (0 ≤ h.credit)

def schedOf (s : State) (lp q : Nat) : List TxFrame := s.net.sched.get (16 * lp + q) []

def eligible (s : State) (lp q : Nat) : Bool := !(schedOf s lp q).isEmpty && permits s (17 * lp + q)

/-- The frame is protected by MACsec on its port: every frame but EAPOL (R365). -/
def protectedTx (s : State) (lp : Nat) (f : TxFrame) : Bool :=
  s.fld .netPortCfg 2 2 lp == 1 && (match f.what with
    | .frame _ b => fieldBE b 12 2 != 0x888E
    | _ => true)

def txCounted (s : State) (lp : Nat) (f : TxFrame) : Nat := countedLen s lp (f.len + (if protectedTx s lp f then 32 else 0))

/-- The head frame of a queue starts: it leaves the port, and its counted length is taken from both shapers (R379, R380). Without a usable
transmit association it is discarded (R365). -/
def startFrame (lp q : Nat) (s : State) : State :=
  match schedOf s lp q with
  | [] => s
  | f :: r =>
    let s := s.modNet (fun n => { n with sched := n.sched.set (16 * lp + q) r })
    let sec := protectedTx s lp f
    if sec = true ∧ s.net.txSa.has lp = false then
      match f.src with
      | some src => txDone src 0 St.macsecNoSa s
      | none => s
    else
      let len : Int := (txCounted s lp f * 256 : Nat)
      let charge (k : Nat) (s : State) : State := let h := shaperOf s k; setShaper k { h with credit := h.credit - len } s
      let s := charge (17 * lp + 16) (charge (17 * lp + q) s)
      let s := if sec then s.modNet (fun n => { n with txSa := n.txSa.set lp (n.txSa.get lp 0 + 1) }) else s
      (s.modNet (fun n => { n with sending := n.sending.set lp f })).emit f.what

/-- Weight of queue 4 to 15 (PKT_WEIGHT). -/
def weightOf (s : State) (lp q : Nat) : Nat := s.fld .pktWeight (8 * (q % 4) + 7) (8 * (q % 4)) (3 * lp + (q - 4) / 4)

/-- The next eligible queue of the weighted group behind `i`, wrapping from 15 to 4. -/
def nextWeighted (s : State) (lp i : Nat) : Option Nat :=
  (firstBelow 12 (fun j => eligible s lp (4 + (i - 4 + 1 + j) % 12))).map (fun j => 4 + (i - 4 + 1 + j) % 12)

/-- Deficit round robin over queues 4 to 15 (R378). `turn` holds the queue at which it stands and whether it has arrived there. -/
def weighted (lp : Nat) : Nat → State → State
  | 0, s => s
  | fuel + 1, s =>
    let (i, there) := s.net.turn.get lp (15, false)
    let def_ := s.net.deficit.get (16 * lp + i) 0
    let head := match schedOf s lp i with
      | f :: _ => txCounted s lp f
      | [] => 0
    if there = true ∧ eligible s lp i = true ∧ head ≤ def_ then
      startFrame lp i (s.modNet (fun n => { n with deficit := n.deficit.set (16 * lp + i) (def_ - head) }))
    else
      let s := if (schedOf s lp i).isEmpty then s.modNet (fun n => { n with deficit := n.deficit.set (16 * lp + i) 0 }) else s
      match nextWeighted s lp i with
      | none => s.modNet (fun n => { n with turn := n.turn.set lp (i, false) })
      | some j =>
        let s := s.modNet (fun n => { n with
          turn := n.turn.set lp (j, true)
          deficit := n.deficit.set (16 * lp + j) (n.deficit.get (16 * lp + j) 0 + 256 * weightOf s lp j) })
        weighted lp fuel s

/-- The port can start a frame (R378). -/
def execTxScheduleStart (port : Nat) (s : State) : Out :=
  if 32 < port then .fault .noSuchUnit
  else whenOn s (fun s =>
    if (s.net.sending.find port).isSome ∨ portLive s port = false ∨ permits s (17 * port + 16) = false then s
    else match firstBelow 4 (fun q => eligible s port q) with
    | some q => startFrame port q s
    | none => weighted port 1024 s)

/-- The frame that a port sends has left (R376). -/
def execTxFrameComplete (port : Nat) (s : State) : Out :=
  if 32 < port then .fault .noSuchUnit
  else whenOn s (fun s =>
    match s.net.sending.find port with
    | none => s
    | some f =>
      let s := s.modNet (fun n => { n with sending := n.sending.del port })
      match f.src with
      | some src => txFetch src.1 16384 (txDone src s.ft.now St.success s)
      | none => s)

/-- One shaper's refill (R380): 10 Mb/s for one ns is 8/25 of 1/256 byte. -/
def refillOne (lp q k : Nat) (s : State) : State :=
  let h := { shaperOf s k with rate := s.fld .pktShapeRate 16 0 k, hi := s.fld .pktShapeHi 15 0 k }
  let waits : Bool := if q = 16 then (List.range 16).any (fun i => !(schedOf s lp i).isEmpty) else !(schedOf s lp q).isEmpty
  if h.rate = 0 then setShaper k { h with credit := 0, carry := 0 } s
  else if waits = true ∨ h.credit < 0 then
    let n := h.rate * s.net.period * 8 + h.carry
    let c : Int := h.credit + ((n / 25 : Nat) : Int)
    setShaper k { h with credit := min ((h.hi * 65536 : Nat) : Int) c, carry := n % 25 } s
  else setShaper k { h with credit := min h.credit 0 } s

/-- Every shaper and policer refills; what was written to their registers takes effect (R380, R381). -/
def refillAll (s : State) : State :=
  let s := s.modNet (fun n => { n with period := s.reg .netShaperPeriod })
  let keys := s.net.shapers.unzip.1 ++ s.regs.filterMap (fun r => if r.1.name = .pktShapeRate then some r.1.idx else none)
  let s := keys.foldl (fun s k => refillOne (k / 17) (k % 17) k s) (s.modNet (fun n => { n with shapers := n.shapers }))
  let t := s.net.policers
  t.foldl (fun s p =>
    let burst := s.fld .pktPolicerBurst 15 0 p.1 * 65536
    let n := s.fld .pktPolicerRate 16 0 p.1 * s.net.period * 8 + p.2.carry
    s.modNet (fun x => { x with policers := x.policers.set p.1 { tokens := min burst (p.2.tokens + n / 25), carry := n % 25 } })) s

def execShaperRefill (s : State) : Out := whenOn s (fun s => if s.frozen then s else refillAll s)

/-- A logical port goes down: its queued frames are discarded, VRMT leaves it (R264, R351, R376). -/
def portDown (lp : Nat) (s : State) : State :=
  if s.net.up.get lp false = false then s
  else
    let before := s
    let frames := (List.range 16).flatMap (fun q => schedOf s lp q) ++ (match s.net.sending.find lp with
      | some f => [f]
      | none => [])
    let s := s.modNet (fun n => { n with
      up := n.up.set lp false
      sched := n.sched.keep (fun k _ => k / 16 != lp)
      sending := n.sending.del lp })
    let s := frames.foldl (fun s (f : TxFrame) => match f.src with
      | some src => txDone src 0 St.linkDown s
      | none => s) s
    portPathsDown (fun i => portOf before i != some lp) s

def execEthPortDown (port : Nat) (s : State) : Out :=
  if 32 < port then .fault .noSuchUnit
  else whenOn s (fun s => if s.net.up.get port false then portDown port (log St.linkDown .error s (a32 := port)) else s)

/-- A logical port's link comes up, where its port's mode has it and its clock runs (R351, R360, R535). -/
def portUp (port : Nat) (s : State) : State :=
  if s.pwr.clkLost.contains .eth = false ∧ (port = 32 ∨ port % 4 < portSubs s (port / 4)) then s.modNet (fun n => { n with up := n.up.set port true }) else s

/-- PORT_RESTART: a physical port goes down and takes the mode of NET_PORT_MODE (R361). -/
def execPortRestart (c : Caller) (port : Nat) (s : State) : Out :=
  whenOn s (fun s => mbxServe c 0x5003 s (fun _ s =>
    if 7 < port then refuseAt 0x5003 0 St.invalidField s
    else
      let s := (List.range 4).foldl (fun s i => portDown (4 * port + i) s) s
      accept (s.modNet (fun n => { n with mode := n.mode.set port (natBits (s.kw kPortMode) (2 * port + 1) (2 * port)) }))))

end Sys2Proof.Machine
end

