-- ==== Sys2Proof/Machine/StateKeeping.lean ====
section
/-! DEFINITION. State keeping: domains and their budget (R172 to R174, R286, R322), regions and their doorbells (R175 to R180), layer tables (R186,
R187), the domain control registers (R174, R197, R206). -/

namespace Sys2Proof.Machine

open Sys2Proof

/-- A doorbell of domain `d`: from an accelerator through its root-port window, the pipeline itself, or the page of the slice that holds the domain (R37,
R178, R179, R320). -/
def doorGate (a : Agent) (d : Nat) (s : State) (f : Domain → State → State) : State :=
  let page (n : Nat) : State :=
    match s.dom d with
    | some D => if D.owner = n ∧ pageOpen s n = true then f D s else pageIgnored n s
    | none => pageIgnored n s
  match a with
  | .slice n => page n
  | .pf0 => page 0
  | .accel _ | .hub => withDom d s f
  | _ => s

/-- A doorbell write of a page, or of an accelerator. -/
def whenDoor (a : Agent) (s : State) (f : State → State) : Out :=
  match a with
  | .slice n => whenPage n s f
  | .pf0 => whenPage 0 s f
  | _ => whenOn s f

def execSteepDoorbell (origin : Agent) (d : Nat) (v : Word) (s : State) : Out :=
  whenDoor origin s (fun s => doorGate origin d s (fun _ s => ringDoorbell d v.toNat s))

/-- A write of a register of domain `d`'s CAD block by `a` (R510, R511): PF0 and firmware reach every block, the cores of a partition of its owner
reach it, PF1's writes are ignored and counted. -/
def cadGate (a : Agent) (d : Nat) (s : State) (f : State → State) : State :=
  match a with
  | .pf0 | .firmware => f s
  | .pf1 => s.ignored
  | .core id =>
    match s.dom d, partOf s (coreCluster id) with
    | some D, some (_, P) => if D.owner = P.owner then f s else s
    | _, _ => s
  | _ => s

/-- The state budget and the charge of domains, in 64 KiB units (R173). -/
def domCharge (lMax cow : Nat) : Nat := 3 * lMax + cow * 16384
def domCharged (s : State) : Nat := sumOf (List.map (fun p => domCharge p.2.lMax p.2.cowGib) s.doms)

def chargedTo (s : State) (o : Nat) : Nat := sumOf (List.map (fun p => if p.2.owner = o then domCharge p.2.lMax p.2.cowGib else 0) s.doms)

/-- The contributors of a mask in ascending order. -/
def subports (m : BitVec 32) : List Nat := (List.range 32).filter (fun c => m.getLsbD c)

/-- The Silt die and offset of a Silt offset given as an array address. -/
def siltAt (a : Nat) : Nat × Nat := if a < siltBase 1 then (0, a - siltBase 0) else (1, a - siltBase 1)

/-- A ring of an intake request lies in the partition's Silt ranges (R172). -/
def ringInSilt (P : Partition) (q : IntakeReq) : Bool :=
  let len := q.depth.toNat * 2 ^ q.slotLog2.toNat
  let p := siltAt q.silt
  decide (siltBase 0 ≤ q.silt) && P.silt.any (fun r => (if r.die then 1 else 0) == p.1 &&
    decide (siltLo r ≤ p.2 ∧ p.2 + len ≤ siltLo r + siltLen r))

def intakeLen (q : IntakeReq) : Nat := q.depth.toNat * 2 ^ q.slotLog2.toNat

/-- Two rings of a list overlap. -/
def ringsOverlap : List IntakeReq → Bool
  | [] => false
  | q :: r => r.any (fun x => decide (x.silt < q.silt + intakeLen q ∧ q.silt < x.silt + intakeLen x)) || ringsOverlap r

/-- This device holds the role of a request in the final roster (R286). -/
def roleHeld (s : State) (standby : Bool) : Bool :=
  if standby then s.job.sparePos.isSome && s.job.index.isNone else s.job.index.isSome

/-- The checks of a domain request in the order of its fields and then of R322: its field and its status. -/
def domainCheck (s : State) (c : Caller) (q : DomainReq) : Option (Nat × Status) :=
  let o := ownerOf c
  let n := rosterSize s
  match s.job.roster with
  | none => some (9, St.retry)
  | some R =>
    if s.fld .hubBringupStatus 2 0 ≠ 6 then some (9, St.retry)
    else if s.doms.has q.domain.toNat then some (0, St.tableFull)
    else match (s.slice o).parts.find q.partition with
    | none => some (1, St.invalidField)
    | some pn =>
      match s.part pn with
      | none => some (1, St.invalidField)
      | some P =>
        if q.pipelineClusters &&& ~~~P.mask ≠ 0 then some (2, St.reachDenied)
        else if q.lMax = 0 then some (3, St.invalidField)
        else if q.cowGib = 0 ∨ 64 < q.cowGib.toNat then some (4, St.invalidField)
        else if 10000 < q.pauseDeadline.toNat then some (5, St.lenTooLarge)
        else if q.pipelineClusters = 0 ∧ q.intakeMask ≠ 0 then some (7, St.invalidField)
        else if q.intake.length ≠ (subports q.intakeMask).length ∨ q.intake.any (fun i =>
            decide (i.depth.toNat < 2 ∨ i.slotLog2.toNat < 20 ∨ 26 < i.slotLog2.toNat) || i.silt % 2 ^ 20 != 0 || i.credit % 8 != 0) = true then
          some (8, St.invalidField)
        else if q.intake.any (fun i => !ringInSilt P i) then some (8, St.reachDenied)
        else if ringsOverlap q.intake then some (8, St.regionOverlap)
        else if q.jobId ≠ R.jobId then some (9, St.rosterMismatch)
        else if q.digest ≠ R.digest then some (10, St.rosterMismatch)
        else if roleHeld s q.standby = false then some (11, St.notInRoster)
        else if 512 < n ∧ n % 64 ≠ 0 then some (9, St.invalidField)
        else if poolGib * 16384 < domCharged s + domCharge q.lMax.toNat q.cowGib.toNat then some (3, St.stateBudget)
        else if o = 0 ∧ poolGib * 16384 < grantSum s (·.ddrLen) * 16384 + chargedTo s 0 + domCharge q.lMax.toNat q.cowGib.toNat then
          some (3, St.poolExhausted)
        else if limitOf s o (·.domains) 64 < heldDomains s o + 1 then some (0, overLimit o)
        else if (q.intake.zip (subports q.intakeMask)).any (fun p => match arrKind s p.1.credit with
            | .accel sub _ => sub != p.2
            | _ => true) then some (8, St.rangeNotGranted)
        else if o ≠ 0 ∧ (match (s.slice o).grant with
            | some g => decide (g.ddrLen * 16384 < chargedTo s o + domCharge q.lMax.toNat q.cowGib.toNat)
            | none => true) = true then some (3, St.stateBudget)
        else if (freeHandle (s.slice o).doms).isNone then some (0, St.tableFull)
        else none

/-- The registers of a domain's CAD block. -/
def cadNames : List RegName :=
  [.cadDomainCtl, .cadDomainStatus, .cadSteepCount, .cadDomainLr, .cadDomainGscale, .cadSteepStale, .cadIntakeStale, .cadDomainNonfinite,
    .cadScalarRefused, .cadCkptCtl, .cadCkptPeriod, .cadCkptDeadline, .cadDeepCtl, .cadCommittedSteep, .cadDeclaredSteep, .cadDeepSteep,
    .cadCkptStatus, .cadCowUsed, .cadCowPeak, .cadCowSaves, .cadCowStalls, .cadStallUs, .cadTrigDeferred, .cadGrainNaks, .cadWireBytes,
    .cadSnapGrains, .cadRecoveryCtl, .cadRecoveryStatus, .cadRecoveryInfo, .cadRecoveries, .cadRestoredGrains, .cadRecoveryUs]

def clearCad (d : Nat) (s : State) : State := cadNames.foldl (fun s n => s.clearReg n d) s

/-- The firmware's heartbeat comparator (R240; its number is assumption 27): every 1 ms of fabric time. -/
def armHeartbeat (s : State) : State :=
  let k := cmpKey 0 0
  if s.cmp.armed.has k then s
  else
    let s := s.setReg .tcmpTarget (s.ft.now + 1000000) k
    let s := s.setReg .tcmpArg 1000000 k
    tcmpWrite k (4 * 4096 + 8 + 1) s

/-- DOMAIN_CREATE. The reply carries the handle, and for each contributor the two offsets of R190, which the spec leaves to firmware. -/
def domainReq (c : Caller) (q : DomainReq) (s : State) : Option Reply × State :=
  let o := ownerOf c
  if (s.slice o).busy then refuse St.retry s
  else match domainCheck s c q with
  | some (i, st) => refuseAt 0x3001 i st s
  | none =>
    match (s.slice o).parts.find q.partition, freeHandle (s.slice o).doms with
    | some pn, some h =>
      let d := q.domain.toNat
      let D : Domain := {
        owner := o
        partition := pn
        clusters := q.pipelineClusters
        lMax := q.lMax.toNat
        cowGib := q.cowGib.toNat
        pauseMs := if q.pauseDeadline = 0 then 1000 else q.pauseDeadline.toNat
        t0 := q.t0.toNat
        standby := q.standby
        intake := (q.intake.zip (subports q.intakeMask)).map (fun p =>
          (p.2, { silt := p.1.silt, depth := p.1.depth.toNat, slotLog2 := p.1.slotLog2.toNat, credit := p.1.credit })) }
      let (ring, s) := D.intake.foldl (fun (t : Tab Nat Intake × State) p =>
        let (x, s) := t.2.draw 64
        let (y, s) := s.draw 64
        (t.1 ++ [(p.1, { p.2 with ringAt := x, doorAt := y })], s)) ([], s)
      let D := { D with intake := ring }
      let s := clearCad d (s.setDom d D)
      let S := s.slice o
      let s := s.setSlice o { S with doms := S.doms.set h d }
      let s := if q.standby then armHeartbeat s else s
      accept s (h :: ring.flatMap (fun p => [p.2.ringAt, p.2.doorAt]))
    | _, _ => refuse St.invalidField s

def execDomainCreate (c : Caller) (q : DomainReq) (s : State) : Out :=
  whenOn s (fun s => mbxServe c 0x3001 s (fun _ s => domainReq c q s))

/-- A request about a domain that its owner sends, refused while the domain is armed (R174). -/
def withOwnDom (c : Caller) (op d : Nat) (s : State) (f : Domain → State → Option Reply × State) : Option Reply × State :=
  match s.dom d with
  | none => refuseAt op 0 St.invalidField s
  | some D =>
    if D.owner ≠ ownerOf c then refuseAt op 0 St.invalidField s
    else if isArmed s d then refuse St.domainArmed s
    else f D s

/-- A domain is gone, with its charge, its handle and its registers. -/
def domainDrop (d : Nat) (s : State) : State :=
  match s.dom d with
  | none => s
  | some D =>
    let s := { s with doms := s.doms.del d }
    let S := s.slice D.owner
    clearCad d (s.setSlice D.owner { S with doms := S.doms.keep (fun _ x => x != d) })

def execDomainDestroy (c : Caller) (d : Nat) (s : State) : Out :=
  whenOn s (fun s => mbxServe c 0x3002 s (fun _ s => withOwnDom c 0x3002 d s (fun _ s => accept (domainDrop d s))))

/-- The protected range of a region in DDR, and its range in accelerator memory. -/
def Region.meetsDdr (r : Region) (lo len : Nat) : Bool := decide (r.protBase < lo + len ∧ lo < r.protBase + r.length)
def Region.meetsAcc (r : Region) (lo len : Nat) : Bool := r.kind != .ddr && decide (r.base < lo + len ∧ lo < r.base + r.length)

/-- An accelerator range lies in one mapped window. -/
def inAccel (s : State) (a len : Nat) : Option Nat :=
  match arrKind s a, arrKind s (a + len - 1) with
  | .accel x _, .accel y _ => if x = y then some x else none
  | _, _ => none

def quiescedTotal (D : Domain) : Nat := sumOf (List.map (fun p => if p.2.kind = .quiesced then p.2.length else 0) D.regions)
def liveTotal (D : Domain) : Nat := sumOf (List.map (fun p => p.2.length) D.regions)

/-- The checks of a region request in the order of R176, with its field. -/
def regionCheck (s : State) (D : Domain) (q : RegionReq) : Option (Nat × Status) :=
  let acc : Bool := q.kind != 0
  let len := q.length.toNat
  let prot := if acc then q.shadow else q.base
  let inDdr (a : Nat) : Bool := decide (a + len ≤ Config.ddrBytes)
  let append : Bool := q.kind == 1
  let pl := q.pageLog2.toNat
  if D.regions.has q.region.toNat then some (1, St.tableFull)
  else if q.kind = 3 then some (2, St.invalidField)
  else if q.base % 65536 ≠ 0 then some (3, St.invalidField)
  else if len = 0 ∨ len % 65536 ≠ 0 then some (4, St.invalidField)
  else if (append = true ∧ (pl < 16 ∨ 22 < pl ∨ len % 2 ^ pl ≠ 0)) ∨ (append = false ∧ pl ≠ 0) then some (5, St.invalidField)
  else if acc = true ∧ q.shadow % 65536 ≠ 0 then some (6, St.invalidField)
  else if acc = true ∧ q.notify % 8 ≠ 0 then some (7, St.invalidField)
  else if inDdr prot = false then some (if acc then 6 else 3, St.addrRange)
  else if acc = true ∧ (inAccel s q.base len).isNone = true then some (3, St.addrRange)
  else if acc = true ∧ inAccel s q.notify 8 ≠ inAccel s q.base len then some (7, St.addrRange)
  else if rangeGranted s D.owner (ddrBase + prot) len = false then some (if acc then 6 else 3, St.notGranted)
  else if acc = true ∧ rangeGranted s D.owner q.base len = false then some (3, St.notGranted)
  else if s.doms.any (fun p => p.2.regions.any (fun r => r.2.meetsDdr prot len)) then some (if acc then 6 else 3, St.regionOverlap)
  else if acc = true ∧ s.doms.any (fun p => p.2.regions.any (fun r => r.2.meetsAcc q.base len)) = true then some (3, St.regionOverlap)
  else if D.lMax * 65536 < liveTotal D + len then some (4, St.stateBudget)
  else if q.kind = 2 ∧ 2 ^ 34 < quiescedTotal D + len then some (4, St.lenTooLarge)
  else none

def regionReq (q : RegionReq) (D : Domain) (s : State) : Option Reply × State :=
  match regionCheck s D q with
  | some (i, st) => refuseAt 0x3003 i st s
  | none =>
    let acc : Bool := q.kind != 0
    let r : Region := {
      kind := if q.kind = 0 then .ddr else if q.kind = 1 then .appendOnly else .quiesced
      base := q.base
      protBase := if acc then q.shadow else q.base
      length := q.length.toNat
      pageLog2 := q.pageLog2.toNat
      notify := q.notify }
    accept (s.setDom q.domain.toNat { D with regions := D.regions.set q.region.toNat r })

def execRegionAdd (c : Caller) (q : RegionReq) (s : State) : Out :=
  whenOn s (fun s => mbxServe c 0x3003 s (fun _ s => withOwnDom c 0x3003 q.domain.toNat s (regionReq q)))

/-- A region leaves the domain, with its grains. -/
def execRegionRemove (c : Caller) (d region : Nat) (s : State) : Out :=
  whenOn s (fun s => mbxServe c 0x3004 s (fun _ s => withOwnDom c 0x3004 d s (fun D s =>
    if D.regions.has region then
      accept (s.setDom d { D with
        regions := D.regions.del region
        grains := D.grains.keep (fun k _ => k / 2 ^ 24 != region) })
    else refuseAt 0x3004 1 St.invalidField s)))

/-- The first parameter and the number of parameters of party `j` of a block split (R187). -/
def blockSplit (params n j : Nat) : Nat × Nat :=
  let u := ceilDiv params 32
  let lo := min params (32 * (j * u / n))
  let hi := min params (32 * ((j + 1) * u / n))
  (lo, hi - lo)

/-- This member's shard of a layer (R187). -/
def ownShard (s : State) (q : LayerReq) : Nat × Nat := blockSplit q.params.toNat (rosterSize s) (selfId s)

/-- A layer's arrays with their lengths for a shard of `n` parameters: offset in the region, bytes (R186, R195). -/
def layerArrays (q : LayerReq) (n : Nat) : List (Nat × Nat) :=
  let mx := q.momentFmt = 0x0D
  let mom := packedLen q.momentFmt.toNat n
  let sc := if mx then ceilDiv n 32 else 0
  [(q.offHigh, 2 * n), (q.offLow, 2 * n), (q.offM, mom), (q.offMScale, sc)] ++
    (if q.op = 0x20 then [(q.offV, mom), (q.offVScale, sc)] else [])

def spansOverlap : List (Nat × Nat) → Bool
  | [] => false
  | p :: r => r.any (fun x => p.2 != 0 && x.2 != 0 && decide (x.1 < p.1 + p.2 ∧ p.1 < x.1 + x.2)) || spansOverlap r

/-- The checks of a layer entry (R172, R186), with its field. -/
def layerCheck (s : State) (D : Domain) (q : LayerReq) : Option (Nat × Status) :=
  let n := (ownShard s q).2
  let outside (c : Nat) : Bool := q.contributors.getLsbD c && !D.intake.has c
  if D.layers.has q.layer.toNat then some (0, St.invalidField)
  else if q.op ≠ 0x20 ∧ q.op ≠ 0x21 ∧ q.op ≠ 0x22 then some (1, St.invalidField)
  else if q.params = 0 then some (3, St.invalidField)
  else if q.gradFmt ≠ 0 ∧ q.gradFmt ≠ 1 then some (4, St.invalidField)
  else if q.wireFmt ≠ 0 ∧ q.wireFmt ≠ 1 ∧ q.wireFmt ≠ 9 then some (5, St.invalidField)
  else if q.momentFmt ≠ 0x0D ∧ q.momentFmt ≠ 0 ∧ q.momentFmt ≠ 1 then some (6, St.invalidField)
  else if q.contributors = 0 ∨ (List.range 32).any outside = true then some (8, St.invalidField)
  else match D.regions.find q.region.toNat with
  | none => some (9, St.addrRange)
  | some r =>
    let a := layerArrays q n
    if a.any (fun x => decide (r.length < x.1 + x.2)) then some (9, St.addrRange)
    else if spansOverlap a then some (9, St.regionOverlap)
    else if D.layers.any (fun p => p.2.region == q.region &&
        spansOverlap (a ++ layerArrays p.2 (ownShard s p.2).2)) then some (9, St.regionOverlap)
    else if q.push.length ≠ (subports q.contributors).length then some (10, St.invalidField)
    else none

def execLayerAdd (c : Caller) (d : Nat) (q : LayerReq) (s : State) : Out :=
  whenOn s (fun s => mbxServe c 0x3005 s (fun _ s => withOwnDom c 0x3005 d s (fun D s =>
    match layerCheck s D q with
    | some (i, st) => refuseAt 0x3005 i st s
    | none => accept (s.setDom d { D with layers := D.layers.set q.layer.toNat q }))))

def execLayerRemove (c : Caller) (d layer : Nat) (s : State) : Out :=
  whenOn s (fun s => mbxServe c 0x3006 s (fun _ s => withOwnDom c 0x3006 d s (fun D s =>
    if D.layers.has layer then accept (s.setDom d { D with layers := D.layers.del layer })
    else refuseAt 0x3006 1 St.invalidField s)))

/-- Zero is written to every intake ring's credit address (R190). -/
def zeroCredits (D : Domain) (s : State) : State :=
  D.intake.foldl (fun s p => memStore .hub p.2.credit (leBytes 4 0) s) s

/-- The coordinator's Caddy comparator in fabric-time mode (R203): a hub comparator armed with one period from now. -/
def armCaddyCmp (d : Nat) (s : State) : State :=
  match cmpLowest 0 1 s with
  | some [i] =>
    let p := s.reg .cadCkptPeriod d
    let k := cmpKey 0 i
    let s := cmpTake 0 [i] .firmware s
    let s := s.setReg .tcmpTarget (s.ft.now + p) k
    let s := s.setReg .tcmpArg p k
    let s := tcmpWrite k (d * 65536 + 1 * 4096 + 8 + 1) s
    s.modDom d (fun D => { D with trigCmp := some k })
  | _ => s

def releaseCaddyCmp (d : Nat) (s : State) : State :=
  match s.dom d with
  | some D =>
    match D.trigCmp with
    | some k =>
      let s := cmpDisarm k s
      { s with cmp := { s.cmp with owner := s.cmp.owner.del k } }.modDom d (fun D => { D with trigCmp := none })
    | none => s
  | none => s

/-- The region table that the neighbour sends at arming (R223): regions with their grains, at most l_max in each. No command carries it, and it is a
free value. -/
def neighbourTable (n lMax : Nat) : List (Nat × Nat) :=
  (List.range 256).filterMap (fun r =>
    let g := Config.neighbourGrains n r % (lMax + 1)
    if g = 0 then none else some (r, g))

/-- Arming (R174, R178, R190, R203, R240): every grain dirty, counters and sequences at their start. -/
def armDomain (d : Nat) (D : Domain) (s : State) : State :=
  let count := s.reg .cadSteepCount d
  let s := s.setDom d { D with
    grains := []
    grain0 := { st := .dirty, tag := count, lastWrite := s.ft.now }
    cow := []
    stalled := []
    boundaries := []
    snap := none
    pipeSteep := count
    stages := []
    scalars := none
    gens := []
    nbRegions := neighbourTable s.fresh D.lMax
    nbArm := s.fresh
    arrival := none
    flight := none
    trigDue := false
    deferred := false
    deputy := none
    deep := none
    deepWrite := none
    afterDeep := 0
    lastDeep := count
    heard := []
    told := []
    silents := []
    prepared := none
    prepSent := []
    prepTables := none
    beats := []
    fenced := false
    lastPush := none
    recov := {}
    gone := []
    intake := D.intake.map (fun _ r => { r with expect := 0, consumed := 0 })
    regions := D.regions.map (fun _ r => { r with pages := [], copied := 0, restored := false }) }
  let s := { s with fresh := s.fresh + 1 }
  let s := s.setReg .cadDomainStatus domArmed d
  let s := s.setReg .cadCommittedSteep (2 ^ 63) d
  let s := s.setReg .cadDeclaredSteep (2 ^ 63) d
  let s := s.setReg .cadCkptStatus 0 d
  let s := s.setReg .cadCowUsed 0 d
  let s := s.setReg .cadRecoveryStatus 0 d
  let s := { s with job := { s.job with bypass := [] }, sto := { s.sto with restoring := false } }
  let s := zeroCredits D s
  let s := if s.fld .cadCkptCtl 1 0 d = 1 ∧ isCoord s D = true then armCaddyCmp d s else s
  armHeartbeat s

/-- Disarming (R174, R194): the pipeline is reset, both members' generations are dropped. -/
def disarmDomain (d : Nat) (s : State) : State :=
  let s := releaseCaddyCmp d s
  let s := s.modDom d (fun D => { D with
    gens := []
    nbRegions := []
    arrival := none
    snap := none
    flight := none
    boundaries := []
    stages := []
    scalars := none
    cow := []
    deep := none
    deepWrite := none
    fenced := false
    gone := []
    recov := {} })
  let s := endAllStalls d s
  let s := s.setReg .cadCowUsed 0 d
  let s := s.setReg .cadCkptStatus 0 d
  let s := s.setReg .cadDomainStatus 0 d
  let s := if s.fld .cadRecoveryInfo 3 0 d = 5 then { s with sto := { s.sto with restoring := true } } else s
  s.setFld .cadRecoveryInfo 3 0 0 d

/-- The pipeline works on a layer (CAD_DOMAIN_STATUS.busy). -/
def pipeBusy (d : Nat) (s : State) : State :=
  match s.dom d with
  | none => s
  | some D =>
    let at_work (p : Nat × LayerReq) : Bool :=
      let g := D.stages.get (stageKey D.pipeSteep p.1) {}
      g.combined && !(g.gathered && (s.fld .cadDomainCtl 3 3 d == 0 || (subports p.2.contributors).all (fun c => g.pushed.contains c)))
    s.setFld .cadDomainStatus 2 2 (if domState s d = domArmed ∧ D.layers.any at_work = true then 1 else 0) d

/-- A write of CAD_DOMAIN_CTL (R174): arm succeeds only with a region registered and the roster loaded. -/
def cadCtlWrite (d v : Nat) (s : State) : State :=
  let old := isArmed s d
  let s := s.setReg .cadDomainCtl (v % 16 / 2 * 2 + (if old then 1 else 0)) d
  if natBit v 0 = old then pipeBusy d s
  else if old then disarmDomain d (s.setFld .cadDomainCtl 0 0 0 d)
  else
    match s.dom d with
    | some D =>
      if D.regions ≠ [] ∧ s.job.roster.isSome = true then armDomain d D (s.setFld .cadDomainCtl 0 0 1 d)
      else s.setFld .cadDomainStatus 31 16 St.invalidField.toNat d
    | none => s.setFld .cadDomainStatus 31 16 St.invalidField.toNat d

def execDomainArm (a : Agent) (d : Nat) (v : Word) (s : State) : Out :=
  whenOn s (fun s => if natBit v.toNat 0 = true then cadGate a d s (cadCtlWrite d v.toNat) else s)

def execDomainDisarm (a : Agent) (d : Nat) (v : Word) (s : State) : Out :=
  whenOn s (fun s => if natBit v.toNat 0 = false then cadGate a d s (cadCtlWrite d v.toNat) else s)

/-- A write of the learning rate or the gradient scale: NaN and infinity are refused (R197). -/
def scalarWrite (n : RegName) (d v : Nat) (s : State) : State :=
  if (val32 v).isFinite then s.setReg n v d else s.bump .cadScalarRefused d

def execDomainLrWrite (a : Agent) (d : Nat) (v : Word) (s : State) : Out :=
  whenOn s (fun s => cadGate a d s (scalarWrite .cadDomainLr d v.toNat))

def execDomainGscaleWrite (a : Agent) (d : Nat) (v : Word) (s : State) : Out :=
  whenOn s (fun s => cadGate a d s (scalarWrite .cadDomainGscale d v.toNat))

/-- A write that would put a reserved value into a checkpoint or recovery register (R4), as the whole register's new value. -/
def cadReserved (n : RegName) (v : Nat) : Bool :=
  match n with
  | .cadCkptCtl => natBits v 1 0 == 3 || natBits v 19 4 == 0
  | .cadCkptDeadline => decide (natBits v 31 0 < 100 ∨ 600000 < natBits v 31 0)
  | .cadRecoveryCtl => natBits v 15 8 == 0
  | _ => false

/-- A write of a word of a domain's CAD block (R174, R197, R206, R257). -/
def cadWrite (d : Nat) (n : RegName) (high : Bool) (v : Nat) (s : State) : State :=
  match n with
  | .cadDomainCtl => cadCtlWrite d v s
  | .cadDomainLr | .cadDomainGscale => scalarWrite n d v s
  | .cadCkptCtl | .cadCkptPeriod | .cadCkptDeadline | .cadDeepCtl | .cadRecoveryCtl =>
    if isArmed s d then s.ignored
    else if cadReserved n v then s
    else if n = .cadRecoveryCtl ∧ natBit v 0 = true ∧ (match s.dom d with
        | some D => D.clusters != 0
        | none => false) = true then s.ignored
    else
      let t := regPut ⟨n, d⟩ high v s
      if n = .cadCkptPeriod ∧ t.reg .cadCkptPeriod d < 1000000 then s else t
  | _ => regPut ⟨n, d⟩ high v s

/-- A write into DDR that meets protected state, whoever makes it (R177, R183). -/
def execProtectedWrite (a : Agent) (off : Nat) (data : List Byte) (s : State) : Out :=
  whenOn s (fun s => if off + data.length ≤ Config.ddrBytes then memStore a (ddrBase + off) data s else s)

/-- A page doorbell (R178, R248). -/
def execPageDoorbell (a : Agent) (d region : Nat) (page : Word) (s : State) : Out :=
  whenDoor a s (fun s => doorGate a d s (fun D s =>
    match D.regions.find region with
    | some r =>
      if r.kind ≠ .appendOnly then s
      else if r.length / 2 ^ r.pageLog2 ≤ page.toNat ∨ domState s d = domStopped then s.bump .cadIntakeStale d
      else
        s.setDom d { D with regions := D.regions.set region { r with pages := r.pages ++ [(page.toNat, s.reg .cadSteepCount d)] } }
    | none => s))

/-- The oldest page copy of a region lands in the shadow, and then the count goes to notify (R178). -/
def execPageCopyComplete (d region : Nat) (s : State) : Out :=
  whenEngine s (fun s => withDom d s (fun D s =>
    match D.regions.find region with
    | some r =>
      match r.pages with
      | (p, _) :: q =>
        let n := 2 ^ r.pageLog2
        let s := s.setDom d { D with regions := D.regions.set region { r with pages := q, copied := r.copied + 1 } }
        let (b, s) := fetchBytes (r.base + p * n) n s
        let s := memStore .hub (ddrBase + r.protBase + p * n) b s
        memStore .hub r.notify (leBytes 8 (r.copied + 1)) s
      | [] => s
    | none => s))

/-- A pause doorbell (R179, R185, R202, R248): accepted only for the capture that the oldest boundary's snapshot waits for. -/
def execPauseDoorbell (a : Agent) (d : Nat) (v : Word) (s : State) : Out :=
  whenDoor a s (fun s => doorGate a d s (fun D s =>
    match D.boundaries with
    | b :: r =>
      if b.flagged ∧ hasQuiesced D = true ∧ ¬ b.captured ∧ ¬ b.copying ∧ domState s d ≠ domStopped ∧ v.toNat = b.steep % 2 ^ 32 then
        s.setDom d { D with boundaries := { b with copying := true } :: r }
      else s.bump .cadIntakeStale d
    | [] => s.bump .cadIntakeStale d))

/-- Every quiesced region is in its shadow, and the steep number goes to each notify address (R179). -/
def execPauseCopyComplete (d : Nat) (s : State) : Out :=
  whenEngine s (fun s => withDom d s (fun D s =>
    match D.boundaries with
    | b :: r =>
      if b.copying then
        let q := D.regions.filter (fun p => p.2.kind == .quiesced)
        let s := s.setDom d { D with boundaries := { b with captured := true, copying := false } :: r }
        let s := q.foldl (fun s p =>
          let (x, s) := fetchBytes p.2.base p.2.length s
          memStore .hub (ddrBase + p.2.protBase) x s) s
        let s := q.foldl (fun s p => memStore .hub p.2.notify (leBytes 8 b.steep) s) s
        pauseWait d s
      else s
    | [] => s))

end Sys2Proof.Machine
end

