-- ==== Sys2Proof/Machine/Pipeline.lean ====
section
/-! DEFINITION. The optimizer pipeline: intake (R188 to R191), collectives (R192 to R194), the update (R196, R197, R201), the push (R199, R200). -/

namespace Sys2Proof.Machine

open Sys2Proof

/-- The pipeline of a domain works: armed, neither halted nor stopped, with pipeline clusters. -/
def pipeRuns (s : State) (d : Nat) (D : Domain) : Bool := isArmed s d && domState s d == domArmed && D.clusters != 0

/-- The pipeline halts with a status (R194). -/
def haltPipe (d : Nat) (st : Status) (s : State) : State :=
  pipeBusy d ((s.setFld .cadDomainStatus 1 0 domHalted d).setFld .cadDomainStatus 31 16 st.toNat d)

/-- An intake doorbell (R189, R248). -/
def execIntakeDoorbell (a : Agent) (d c : Nat) (q : Word) (s : State) : Out :=
  whenOn s (fun s => withDom d s (fun D s =>
    match a, D.intake.find c with
    | .accel sub, some r =>
      if sub ≠ c then s
      else if q.toNat = r.expect ∧ s.fld .cadDomainCtl 2 2 d = 1 ∧ domState s d ≠ domStopped then
        s.setDom d { D with intake := D.intake.set c { r with expect := r.expect + 1 } }
      else s.bump .cadIntakeStale d
    | _, _ => s))

/-- The part of a layer's gradient that contributor `c` writes: first parameter and count (R187). -/
def contribPart (q : LayerReq) (c : Nat) : Nat × Nat :=
  if q.combineSum then (0, q.params.toNat)
  else
    let l := subports q.contributors
    blockSplit q.params.toNat l.length ((List.range l.length).find? (fun j => l.getD j 32 == c) |>.getD 0)

/-- Slots that a contributor's part takes (R188). -/
def partSlots (q : LayerReq) (r : Intake) (c : Nat) : Nat :=
  ceilDiv ((contribPart q c).2 * (fmtBits q.gradFmt.toNat / 8)) (2 ^ r.slotLog2)

/-- Every contributor's part of the layer has arrived (R191). -/
def partsArrived (D : Domain) (q : LayerReq) : Bool :=
  (subports q.contributors).all (fun c => match D.intake.find c with
    | some r => decide (r.consumed + partSlots q r c ≤ r.expect)
    | none => false)

/-- The bytes of a contributor's part, slot by slot from the ring (R190). -/
def partBytes (s : State) (q : LayerReq) (r : Intake) (c : Nat) : List Byte :=
  let size := 2 ^ r.slotLog2
  let n := (contribPart q c).2 * (fmtBits q.gradFmt.toNat / 8)
  ((List.range (partSlots q r c)).flatMap (fun i =>
    s.load (r.silt + (r.consumed + i) % r.depth * size) size)).take n

/-- The FP32 codes of a packed row of `n` gradients in format 0x00 or 0x01. -/
def gradCodes (code n : Nat) (b : List Byte) : List Nat :=
  (List.range n).map (fun i => if code = 0 then fieldLE b (4 * i) 4 else fieldLE b (2 * i) 2 * 65536)

/-- The node's gradient of a layer as FP32 codes (R191): under SUM, contributions added in ascending contributor order. -/
def nodeGradient (s : State) (D : Domain) (q : LayerReq) : List Nat :=
  let parts := (subports q.contributors).filterMap (fun c => (D.intake.find c).map (fun r =>
    gradCodes q.gradFmt.toNat (contribPart q c).2 (partBytes s q r c)))
  if q.combineSum then
    match parts with
    | [] => []
    | p :: rest => rest.foldl (fun a b => List.zipWith (fun x y => (toF32 ((val32 x).add (val32 y))).1) a b) p
  else parts.flatten

/-- Layer numbers in ascending order, and the last. -/
def layerNumbers (D : Domain) : List Nat := (List.range 4096).filter (fun l => D.layers.has l)
def lastLayer (D : Domain) : Option Nat := (layerNumbers D).getLast?

/-- Every layer before `l` has passed a stage. -/
def earlierDone (D : Domain) (l : Nat) (p : LayerStage → Bool) : Bool :=
  (layerNumbers D).all (fun x => decide (l ≤ x) || p (D.stages.get (stageKey D.pipeSteep x) {}))

def Domain.stage (D : Domain) (l : Nat) : LayerStage := D.stages.get (stageKey D.pipeSteep l) {}
def setStage (d l : Nat) (f : LayerStage → LayerStage) (s : State) : State :=
  s.modDom d (fun D => { D with stages := D.stages.set (stageKey D.pipeSteep l) (f (D.stage l)) })

/-- The slots of a part are read, and the count of slots consumed goes to the credit address after each (R189, R190). -/
def consumeSlots (d c : Nat) (q : LayerReq) (s : State) : State :=
  match s.dom d with
  | none => s
  | some D =>
    match D.intake.find c with
    | none => s
    | some r =>
      let n := partSlots q r c
      let s := (List.range n).foldl (fun s i => memStore .hub r.credit (leBytes 4 (r.consumed + i + 1)) s) s
      s.modDom d (fun D => { D with intake := D.intake.set c { r with consumed := r.consumed + n } })

/-- The sequence numbers start again once the last slot of the steep's last layer is read (R189, R190). -/
def restartIntake (d : Nat) (s : State) : State :=
  match s.dom d with
  | none => s
  | some D =>
    zeroCredits D (s.setDom d { D with intake := D.intake.map (fun _ r => { r with expect := 0, consumed := 0 }) })

/-- Where a layer's node gradient and its gathered high plane are held, by parameter. -/
def gradAddr (layer p : Nat) : Nat := layer * 2 ^ 44 + 4 * p
def highAddr (layer p : Nat) : Nat := layer * 2 ^ 44 + 2 * p

/-- Values in a wire format: codes packed, and for 0x09 the scale bytes after them (R88, R193). -/
def toWire (fmt : Nat) (codes : List Nat) : List Byte :=
  match fmtInfo fmt with
  | none => []
  | some f =>
    let vs := codes.map val32
    if f.mx then
      let bl := (List.range (ceilDiv vs.length 32)).map (fun b => mxBlock f 0 [] ((vs.drop (32 * b)).take 32))
      packRow f.bits (bl.flatMap (·.2.1)) ++ bl.map (fun b => BitVec.ofNat 8 b.1)
    else packRow f.bits (vs.map (fun v => (convert f 0 false 0 v).1))

/-- Parameters that a chunk of `n` bytes carries. -/
def wireCount (fmt n : Nat) : Nat := if fmt = 0 then n / 4 else if fmt = 1 then n / 2 else n - ceilDiv n 33

/-- A chunk's values. -/
def fromWire (fmt : Nat) (b : List Byte) : List Val :=
  let n := wireCount fmt b.length
  match fmtInfo fmt with
  | none => []
  | some f => (List.range n).map (fun i =>
      decodeScaled f (unpack f.bits b i) (if f.mx then fieldLE b (packedLen fmt n + i / 32) 1 else 127))

/-- FP32 codes of the gradient held for `n` parameters from `p`. -/
def gradHeld (s : State) (d layer p n : Nat) : List Nat :=
  (List.range n).map (fun i => s.num (.grad d) (gradAddr layer (p + i)) 4)

/-- A span of parameters sent in chunks of 1 MiB (R192); `fuel` bounds their number. -/
def sendChunks (dest d layer : Nat) (gather : Bool) (per : Nat) (data : Nat → Nat → List Byte) : Nat → Nat → Nat → State → State
  | 0, _, _, s => s
  | fuel + 1, p, n, s =>
    if n = 0 then s
    else
      let k := min per n
      let s := s.emit (.chunk dest d layer gather p (data p k))
      sendChunks dest d layer gather per data fuel (p + k) (n - k) s

/-- A partial sum's span sent to the next member of the ring (R193). -/
def sendPartial (dest d layer : Nat) (q : LayerReq) (p n : Nat) (s : State) : State :=
  let w := q.wireFmt.toNat
  let per := 2 ^ 23 / fmtBits w
  sendChunks dest d layer false per (fun p k => toWire w (gradHeld s d layer p k)) (n / per + 1) p n s

/-- High-plane codes of a span, sent as they are (R193). -/
def sendHigh (dest d layer p n : Nat) (s : State) : State :=
  sendChunks dest d layer true (2 ^ 19) (fun p k => s.bytes (.high d) (highAddr layer p) (2 * k)) (n / 2 ^ 19 + 1) p n s

/-- The next member of a group's ring, and of the ring across groups (R192). -/
def groupNext (i : Nat) : Nat := i / 64 * 64 + (i % 64 + 1) % 64
def acrossNext (n i : Nat) : Nat := (i + 64) % n

/-- The member whose shard holds parameter `p`. -/
def shardOwner (params n p : Nat) : Nat :=
  (firstBelow n (fun j => let b := blockSplit params n j; decide (b.1 ≤ p ∧ p < b.1 + b.2))).getD 0

/-- A layer's reduce-scatter is complete here once its shard has come home, in two rings where groups are used. -/
def rsNeed (n own : Nat) : Nat := if n ≤ 1 then 0 else if n ≤ 512 then own else 2 * own

/-- The chunks that this member sends first, once its node gradient is formed: the shard whose ring starts here (R192). -/
def startRing (d layer : Nat) (q : LayerReq) (s : State) : State :=
  let n := rosterSize s
  let me := selfId s
  let send (dest j : Nat) (s : State) : State :=
    let b := blockSplit q.params.toNat n j
    sendPartial dest d layer q b.1 b.2 s
  if n ≤ 1 then s
  else if n ≤ 512 then send (buddyOf n me) (neighbourOf n me) s
  else
    let pos := (me % 64 + 63) % 64
    ((List.range n).filter (fun j => j % 64 == pos)).foldl (fun s j => send (groupNext me) j s) s

/-- The layer's node gradient is formed (R191, R201), its slots are consumed, and the reduce-scatter starts. LR and GSCALE are taken with the
first layer of a steep (R197). -/
def combineLayer (d l : Nat) (q : LayerReq) (s : State) : State :=
  match s.dom d with
  | none => s
  | some D =>
    let g := nodeGradient s D q
    let s := s.store (.grad d) (gradAddr l 0) (g.flatMap (leBytes 4))
    let s := s.modDom d (fun D => { D with
      scalars := match D.scalars with
        | some x => some x
        | none => some (BitVec.ofNat 32 (s.reg .cadDomainLr d), BitVec.ofNat 32 (s.reg .cadDomainGscale d)) })
    let s := (subports q.contributors).foldl (fun s c => consumeSlots d c q s) s
    let s := setStage d l (fun x => { x with combined := true, reduced := rsNeed (rosterSize s) (ownShard s q).2 == 0 }) s
    let s := if lastLayer D = some l then restartIntake d s else s
    pipeBusy d (startRing d l q s)

def execLayerGradientCombine (d l : Nat) (s : State) : Out :=
  whenEngine s (fun s => withDom d s (fun D s =>
    match D.layers.find l with
    | some q =>
      if pipeRuns s d D = true ∧ (D.stage l).combined = false ∧ earlierDone D l (·.combined) = true ∧ partsArrived D q = true then
        combineLayer d l q s
      else s
    | none => s))

/-- An arriving reduce-scatter chunk: own partial sum added RNE; at its ring's end it stays in FP32, otherwise it goes on in the wire format
(R192, R193). With groups, `final` says whether a chunk for another group's shard at this position ends its group's ring. -/
def reduceChunk (d l : Nat) (q : LayerReq) (off : Nat) (final : Bool) (data : List Byte) (s : State) : State :=
  let n := rosterSize s
  let me := selfId s
  let vs := fromWire q.wireFmt.toNat data
  let k := vs.length
  let own := gradHeld s d l off k
  let sum := List.zipWith (fun v o => (toF32 (v.add (val32 o))).1) vs own
  let j := shardOwner q.params.toNat n off
  let home := if n ≤ 512 then decide (j = me) else j % 64 == me % 64 && (decide (j = me) || final)
  let s := s.store (.grad d) (gradAddr l off) (sum.flatMap (leBytes 4))
  let pass (dest : Nat) (s : State) : State := s.emit (.chunk dest d l false off (toWire q.wireFmt.toNat sum))
  if home then
    if j = me then
      setStage d l (fun x =>
        let r := x.rsDone + k
        { x with rsDone := r, reduced := decide (rsNeed n (ownShard s q).2 ≤ r) }) s
    else if me / 64 = (j / 64 + 1) % (n / 64) then pass (acrossNext n me) s else s
  else if n ≤ 512 then pass (buddyOf n me) s
  else if j % 64 = me % 64 then pass (acrossNext n me) s
  else pass (groupNext me) s

/-- Where the bytes that member `j` gives to all go on from here, until their ring ends (R192). -/
def gatherPass (j : Nat) (pass : Nat → State → State) (s : State) : State :=
  let n := rosterSize s
  let me := selfId s
  if n ≤ 512 then (if buddyOf n me = j then s else pass (buddyOf n me) s)
  else if j % 64 = me % 64 then
    let s := if acrossNext n me = j then s else pass (acrossNext n me) s
    pass (groupNext me) s
  else if groupNext me % 64 = j % 64 then s else pass (groupNext me) s

/-- An arriving all-gather chunk is kept and goes on until its ring ends (R192, R193). -/
def gatherChunk (d l : Nat) (q : LayerReq) (off : Nat) (data : List Byte) (s : State) : State :=
  let n := rosterSize s
  let j := shardOwner q.params.toNat n off
  let s := s.store (.high d) (highAddr l off) data
  let s := setStage d l (fun x =>
    let g := x.agDone + data.length / 2
    { x with agDone := g, gathered := x.updated && decide (q.params.toNat ≤ g + (ownShard s q).2) }) s
  pipeBusy d (gatherPass j (fun dest s => s.emit (.chunk dest d l true off data)) s)

/-- The layer number that marks the chunks of a broadcast (assumption 30). -/
abbrev bcastLayer : Nat := 65535

/-- A broadcast's chunk, at its byte offset: stored, and passed on; with the last the request is answered. -/
def bcastChunk (d off : Nat) (data : List Byte) (s : State) : State :=
  match s.dom d with
  | none => s
  | some D =>
    match D.bcast with
    | none => s
    | some (src, addr, len, got, c) =>
      if len < off + data.length then s
      else
        let s := memStore .hub (addr + off) data s
        let s := gatherPass src (fun dest s => s.emit (.chunk dest d bcastLayer true off data)) s
        let got := got + data.length
        if len ≤ got then mbxReply c {} (s.modDom d (fun D => { D with bcast := none }))
        else s.modDom d (fun D => { D with bcast := some (src, addr, len, got, c) })

/-- BROADCAST: the source sends its range to every member of an armed domain's job; every other member takes it at the range that its own request names. -/
def bcastReq (c : Caller) (d src addr len : Nat) (s : State) : Option Reply × State :=
  match s.dom d with
  | none => refuseAt 0x300A 0 St.invalidField s
  | some D =>
    if D.owner ≠ ownerOf c ∨ isArmed s d = false then refuseAt 0x300A 0 St.invalidField s
    else if rosterSize s ≤ src then refuseAt 0x300A 1 St.invalidField s
    else if spanPopulated s addr len = false then refuseAt 0x300A 2 St.addrRange s
    else if rangeGranted s (ownerOf c) addr len = false then refuseAt 0x300A 2 St.rangeNotGranted s
    else if D.bcast.isSome then refuse St.retry s
    else if rosterSize s < 2 ∨ len = 0 then accept s
    else if src = selfId s then
      let chunk (dest : Nat) (s : State) : State :=
        sendChunks dest d bcastLayer true (2 ^ 20) (fun p k => s.load (addr + p) k) (len / 2 ^ 20 + 1) 0 len s
      accept (gatherPass src chunk s)
    else (none, s.modDom d (fun D => { D with bcast := some (src, addr, len, 0, c) }))

def execBroadcast (c : Caller) (d src addr len : Nat) (s : State) : Out :=
  whenOn s (fun s => mbxServe c 0x300A s (fun _ s => bcastReq c d src addr len s))

/-- A chunk reaches this member (R193). A reduce-scatter chunk waits at its sender until this member's own gradient is formed; a chunk of a reload (R258)
is a gather chunk. -/
def execCollectiveChunkReceive (d l : Nat) (gather : Bool) (off : Nat) (final : Bool) (data : List Byte) (s : State) : Out :=
  whenEngine s (fun s => withDom d s (fun D s =>
    match D.layers.find l with
    | some q =>
      let n := if gather then data.length / 2 else wireCount q.wireFmt.toNat data.length
      if q.params.toNat < off + n ∨ rosterSize s < 2 ∨ n = 0 then s
      else if gather then
        (if pipeRuns s d D = true ∨ D.recov.target.isSome = true then gatherChunk d l q off data s else s)
      else if pipeRuns s d D = true ∧ (D.stage l).combined = true then reduceChunk d l q off final data s
      else s
    | none => if l = bcastLayer then bcastChunk d off data s else s))

/-- A hop has waited 100 ms for a chunk (R194). -/
def execCollTimeout (d l : Nat) (s : State) : Out :=
  whenEngine s (fun s => withDom d s (fun D s =>
    let g := D.stage l
    if pipeRuns s d D = true ∧ D.layers.has l = true ∧ g.combined = true ∧ g.gathered = false then
      haltPipe d St.collTimeout (log St.collTimeout .error s (a32 := d) (a0 := l))
    else s))

/-- The hyperparameters of a layer's update in steep k (R197). -/
def pipeHp (D : Domain) (q : LayerReq) (k : Nat) : OptHp :=
  let h := D.hp.get q.hp.toNat {}
  let v (w : Word) : Val := val32 w.toNat
  let one := ofInt 1
  let corr (b : Word) : Val :=
    if h.bias ∧ D.t0 ≤ k then
      let p := ((f32 (ofInt (k - D.t0 + 1 : Nat))).1.mul (v b).log.1)
      let e := (f32 p).1.exp.1
      (f32 (one.add e.neg)).1.recip.1
    else one
  ⟨v h.beta1, v h.beta2, v h.eps, v h.wd, corr h.beta1, corr h.beta2⟩

/-- The update of a layer's shard (R196, R201). The layer entry gives no rounding of the master: it is an implementation's own, and so are the
generators behind it. -/
def updateLayer (d l : Nat) (q : LayerReq) (s : State) : State :=
  match s.dom d with
  | none => s
  | some D =>
    match D.regions.find q.region.toNat with
    | none => s
    | some r =>
      let (p, n) := ownShard s q
      let base := ddrBase + r.protBase
      let mode := Config.pipelineRound % 3
      let mf := q.momentFmt.toNat
      let v := q.op = 0x20
      let hi := s.load (base + q.offHigh) (2 * n)
      let lo := s.load (base + q.offLow) (2 * n)
      let ws := (List.range n).map (fun i => val32 (fieldLE hi (2 * i) 2 * 65536 + fieldLE lo (2 * i) 2))
      let moment (off sc : Nat) : List Val :=
        match fmtInfo mf with
        | some f =>
          let b := s.load (base + off) (packedLen mf n)
          let t := s.load (base + sc) (if f.mx then ceilDiv n 32 else 0)
          (List.range n).map (fun i => decodeScaled f (unpack f.bits b i) (fieldLE t (i / 32) 1))
        | none => []
      let ms := moment q.offM q.offMScale
      let vs := if v then moment q.offV q.offVScale else []
      let ys := (gradHeld s d l p n).map val32
      let (lr, gs) := D.scalars.getD (0, 0x3F800000)
      let (seed, s) := s.draw 64
      let o := optAll q.op.toNat (pipeHp D q D.pipeSteep) (val32 lr.toNat) (val32 gs.toNat) mode (momentDraws mf mode) (laneGens seed) ys ws ms vs
      let (h', l') := splitPlanes o.w
      let (mb, msc, _) := encodeMoments mf mode o.rm o.m
      let s := memStore .hub (base + q.offHigh) h' s
      let s := memStore .hub (base + q.offLow) l' s
      let s := memStore .hub (base + q.offM) mb s
      let s := memStore .hub (base + q.offMScale) msc s
      let s := if v then
          let (vb, vsc, _) := encodeMoments mf mode o.rv o.v
          memStore .hub (base + q.offVScale) vsc (memStore .hub (base + q.offV) vb s)
        else s
      let s := s.bump .cadDomainNonfinite d o.skipped
      let s := s.store (.high d) (highAddr l p) h'
      setStage d l (fun x => { x with updated := true, gathered := decide (q.params.toNat ≤ x.agDone + n) }) s

/-- This member's shard of the high plane goes out to the others (R192). -/
def startGather (d l : Nat) (q : LayerReq) (s : State) : State :=
  let n := rosterSize s
  let me := selfId s
  let (p, k) := ownShard s q
  if n ≤ 1 then s
  else if n ≤ 512 then sendHigh (buddyOf n me) d l p k s
  else sendHigh (groupNext me) d l p k (sendHigh (acrossNext n me) d l p k s)

/-- A layer's update; after the last layer the pipeline rings the steep doorbell where pipeline_ring is 1 (R37, R201). -/
def execLayerUpdate (d l : Nat) (s : State) : Out :=
  whenEngine s (fun s => withDom d s (fun D s =>
    match D.layers.find l with
    | some q =>
      let g := D.stage l
      if pipeRuns s d D = true ∧ g.reduced = true ∧ g.updated = false ∧ earlierDone D l (·.updated) = true then
        let s := pipeBusy d (startGather d l q (updateLayer d l q s))
        if lastLayer D = some l ∧ s.fld .cadDomainCtl 1 1 d = 1 then ringDoorbell d (D.pipeSteep % 2 ^ 32) s else s
      else s
    | none => s))

/-- The push of a contributor's part of the high plane, then its flag with the low 32 bits of `k` (R199). -/
def pushPart (d l c : Nat) (q : LayerReq) (k : Nat) (s : State) : State :=
  let (p, n) := contribPart q c
  let i := ((List.range 32).filter (fun x => q.contributors.getLsbD x && decide (x < c))).length
  match q.push[i]? with
  | some t =>
    let s := memStore .hub t.addr (s.bytes (.high d) (highAddr l p) (2 * n)) s
    memStore .hub t.flag (leBytes 4 (k % 2 ^ 32)) s
  | none => s

/-- The port that a push needs is up. -/
def pushOpen (s : State) (c : Nat) : Bool := (linkRefusal s (.root c) .pf0).isNone

def execPushHighPlane (d l c : Nat) (s : State) : Out :=
  whenEngine s (fun s => withDom d s (fun D s =>
    match D.layers.find l with
    | some q =>
      let g := D.stage l
      if D.recov.reload = true ∧ q.contributors.getLsbD c = true ∧ g.gathered = true ∧ g.pushed.contains c = false ∧ pushOpen s c = true then
        setStage d l (fun x => { x with pushed := c :: x.pushed }) (pushPart d l c q (D.recov.target.getD 0) s)
      else if pipeRuns s d D = true ∧ s.fld .cadDomainCtl 3 3 d = 1 ∧ q.contributors.getLsbD c = true ∧ g.gathered = true ∧
          g.pushed.contains c = false ∧ pushOpen s c = true then
        let s := pushPart d l c q D.pipeSteep s
        let s := s.modDom d (fun D => { D with lastPush := some D.pipeSteep })
        pipeBusy d (setStage d l (fun x => { x with pushed := c :: x.pushed }) s)
      else s
    | none => s))

end Sys2Proof.Machine
end

