-- ==== Sys2Proof/Machine/Storage.lean ====
section
/-! DEFINITION. The NVMe storage service: completions and errors (R398 to R402), fetching and arbitration (R394 to R396), the cache, the journal and
persistence (R388 to R392). The commands stand in Machine/StorageCommands.lean. -/

namespace Sys2Proof.Machine

open Sys2Proof

def State.modSto (s : State) (f : Storage → Storage) : State := { s with sto := f s.sto }

/-- An accelerator's controller is numbered 4,096 + its subport. -/
abbrev accelCtrl : Nat := 4096

/-- A controller: a slice's exists with the slice, an accelerator's once created (R382). -/
def State.nvme (s : State) (k : Nat) : Option Nvme :=
  match s.sto.ctrls.find k with
  | some c => some c
  | none => if k < accelCtrl ∧ sliceLive s k then some { slice := k, qpairs := 0 } else none

def State.setNvme (s : State) (k : Nat) (c : Nvme) : State := s.modSto (fun x => { x with ctrls := x.ctrls.set k c })

def State.modNvme (s : State) (k : Nat) (f : Nvme → Nvme) : State :=
  match s.nvme k with
  | some c => s.setNvme k (f c)
  | none => s

/-- The I/O queue pairs granted to a controller (R382, R317). -/
def nvmeGrant (s : State) (k : Nat) (c : Nvme) : Nat :=
  if c.sub.isSome then c.qpairs
  else
    let mine := sumOf (List.map (fun (p : Nat × Nvme) => if p.2.sub.isSome ∧ p.2.slice = c.slice then p.2.qpairs else 0) s.sto.ctrls)
    limitOf s k (·.nvmeQpairs) 4096 - mine

/-- The namespaces that a controller may hold (R385). -/
def nvmeCap (s : State) (c : Nvme) : Nat := limitOf s c.slice (fun g => if c.slice = 0 then 0 else g.namespaces) 1024

/-- The status with which a transfer of a controller's queues and buffers ends at once, if any. -/
def nvmeLink (s : State) (c : Nvme) : Option Status :=
  match c.sub with
  | some sub => linkRefusal s (.root sub) (ownerCaller c.slice)
  | none => hostRefusal s (ownerCaller c.slice)

/-- Bytes of a controller's buffer. An accelerator's own memory is no state of the part: what it holds is a free value. -/
def nvmeRead (c : Nvme) (a n : Nat) (s : State) : List Byte × State :=
  match c.sub with
  | some _ => let (v, s) := s.draw (8 * n); (leBytes n v, s)
  | none => (s.bytes (.host c.slice) a n, s)

def nvmeStore (c : Nvme) (a : Nat) (l : List Byte) (s : State) : State :=
  match c.sub with
  | some sub => s.emit (.busWrite (sub + 1) a l)
  | none => s.store (.host c.slice) a l

/-- The NVMe status of a VN700 condition (R402): SCT, SC and DNR. -/
def nvmeStatus (st : Status) : Nat × Nat × Bool :=
  if st = St.success then (0, 0, false)
  else if st = St.unsupported then (0, 1, true)
  else if st = St.addrRange then (0, 0x80, true)
  else if st = St.retry then (0, 0x82, false)
  else if st = St.backingTimeout then (0, 0x21, false)
  else if st = St.nsFailed then (0, 6, true)
  else if st = St.dataUnreadable ∨ st = St.dataUncorrectable then (2, 0x81, true)
  else if st = St.hostAccessDisabled ∨ st = St.completionTimeout ∨ st = St.completionError ∨ st = St.poisonedReceived ∨ st = St.portDown then (0, 4, false)
  else (0, 2, true)

/-- The completion status word without its phase tag. -/
def statusWord (e : Nat × Nat × Bool) : Nat := e.2.1 + e.1 * 256 + (if e.2.2 then 2 ^ 14 else 0)

/-- One signal of a completion queue: a posted write to the accelerator, or an event of its entry (R382, R471). -/
def cqSignal (c : Nvme) (irq : Option Nat) (s : State) : State :=
  match c.sub with
  | some sub => s.emit (.busWrite (sub + 1) c.cplAddr (leBytes 4 c.cplData))
  | none => match irq with
    | some v => irqEvent (ownerCaller c.slice) v s
    | none => s

/-- The events of a queue reach its entry, gathered as Interrupt Coalescing says (R384, R472): bits [7:0] the completions, minus one, and [15:8] the time in 100 µs. -/
def cqEvent (k qid : Nat) (s : State) : State :=
  match s.nvme k with
  | none => s
  | some c =>
    match c.cqs.find qid with
    | none => s
    | some q =>
      let set (q : Cq) (s : State) : State := s.setNvme k { c with cqs := c.cqs.set qid q }
      if qid = 0 ∨ c.coalesce / 256 % 256 = 0 ∨ c.coalesce % 256 = 0 ∨ c.coalesce % 256 ≤ q.acc then cqSignal c q.irq (set { q with acc := 0 } s)
      else set { q with acc := q.acc + 1, since := if q.acc = 0 then s.pwr.localNs else q.since } s

/-- A completion entry written at a queue's tail: 14 bytes and the status word with its phase tag. -/
def cqWrite (k qid word : Nat) (body : List Byte) (s : State) : State :=
  match s.nvme k with
  | none => s
  | some c =>
    match c.cqs.find qid with
    | none => s
    | some q =>
      let s := nvmeStore c (q.base + 16 * q.tail) (body ++ leBytes 2 (word * 2 + (if q.phase then 1 else 0))) s
      let last : Bool := q.tail + 1 == q.size
      let s := s.setNvme k { c with cqs := c.cqs.set qid { q with
        tail := if last then 0 else q.tail + 1
        phase := if last then !q.phase else q.phase } }
      cqEvent k qid s

/-- Completions that waited for room or for the link are written while they can be. -/
def cqFlush (k qid : Nat) : Nat → State → State
  | 0, s => s
  | n + 1, s =>
    match s.nvme k with
    | none => s
    | some c =>
      match c.cqs.find qid with
      | none => s
      | some q =>
        match q.held with
        | [] => s
        | (w, b) :: r =>
          if (q.tail + 1) % q.size = q.head ∨ (nvmeLink s c).isSome then s
          else cqFlush k qid n (cqWrite k qid w b (s.setNvme k { c with cqs := c.cqs.set qid { q with held := r } }))

/-- A command of submission queue `sq` completes; its completion waits where the queue is full or the link may not be used. -/
def nvmePost (k sq cid dw0 : Nat) (e : Nat × Nat × Bool) (s : State) : State :=
  match s.nvme k with
  | none => s
  | some c =>
    let (cq, head) := match c.sqs.find sq with
      | some q => (q.cq, q.head)
      | none => (0, 0)
    match c.cqs.find cq with
    | none => s
    | some q =>
      let body := leBytes 4 dw0 ++ leBytes 4 0 ++ leBytes 2 head ++ leBytes 2 sq ++ leBytes 2 cid
      cqFlush k cq 4096 (s.setNvme k { c with cqs := c.cqs.set cq { q with held := q.held ++ [(statusWord e, body)] } })

/-- An asynchronous event is reported by the oldest waiting request, or waits for one. -/
def nvmeEvent (k dw0 : Nat) (s : State) : State :=
  match s.nvme k with
  | none => s
  | some c =>
    match c.aers with
    | cid :: r => nvmePost k 0 cid dw0 (0, 0, false) (s.setNvme k { c with aers := r })
    | [] => s.setNvme k { c with events := c.events ++ [dw0] }

/-- A namespace has changed: the log and the event tell every attached controller (R384). -/
def nsChanged (ns : Nat) (s : State) : State :=
  match s.sto.nss.find ns with
  | none => s
  | some n => n.ctrls.foldl (fun s k =>
      match s.nvme k with
      | some c =>
        let s := s.setNvme k { c with changed := if c.changed.contains ns then c.changed else c.changed ++ [ns] }
        if natBit c.asyncCfg 8 then nvmeEvent k 0x040002 s else s
      | none => s) s

/-- A command ends with an error: its log entry, with the VN700 code and the byte offset of the field at fault, and its completion (R397, R402). -/
def nvmeError (k sq cid : Nat) (e : Nat × Nat × Bool) (code : Status) (s : State) (loc : Nat := 0xFFFF) (lba : Nat := 0) (ns : Nat := 0) : State :=
  let s := s.modNvme k (fun c =>
    let n := c.errCount + 1
    let r := leBytes 8 n ++ leBytes 2 sq ++ leBytes 2 cid ++ leBytes 2 (statusWord e * 2) ++ leBytes 2 loc ++ leBytes 8 lba ++ leBytes 4 ns ++
      leBytes 4 0 ++ leBytes 8 code.toNat ++ leBytes 24 0
    { c with errCount := n, errors := (r :: c.errors).take 64 })
  nvmePost k sq cid 0 e s

def nvmeFail (k sq cid : Nat) (st : Status) (s : State) (loc : Nat := 0xFFFF) (lba : Nat := 0) (ns : Nat := 0) : State :=
  nvmeError k sq cid (nvmeStatus st) st s loc lba ns

/-- The condition for priority-class mode holds now (R287, R395). -/
def prioWanted (s : State) : Bool :=
  s.fld .hubBringupStatus 2 0 != 6 || s.sto.restoring || s.fld .stoArb 1 1 == 1 || s.doms.any (fun d => domState s d.1 == domStopped)

/-- The mode follows its condition 10 µs behind (R395). -/
def stoMode (s : State) : State :=
  let s := match s.sto.prioNext with
    | some (m, t) => if t ≤ s.pwr.localNs then (s.modSto (fun x => { x with prio := m, prioNext := none })).setFld .stoArb 0 0 (if m then 1 else 0) else s
    | none => s
  let want := prioWanted s
  if want = s.sto.prio then s.modSto (fun x => { x with prioNext := none })
  else match s.sto.prioNext with
  | some _ => s
  | none => s.modSto (fun x => { x with prioNext := some (want, s.pwr.localNs + 10000) })

/-- The class of a submission queue under priority-class mode: 0 urgent, then high, medium, low (R396). -/
def sqClass (sq : Nat) (q : Sq) : Nat := if sq = 0 then 0 else q.prio

/-- A controller may be fetched from: enabled, ready, not shut down, its link usable. -/
def nvmeLive (s : State) (k : Nat) (c : Nvme) : Bool :=
  s.fld .nvmeCsts 1 0 k == 1 && !c.shut && (nvmeLink s c).isNone

/-- The commands that a queue is served in one round (R396). -/
def sqQuota (s : State) (c : Nvme) (sq : Nat) (q : Sq) : Nat :=
  let burst := if c.burst = 7 then 4096 else 2 ^ c.burst
  if sq = 0 then 1
  else if s.sto.prio = false then burst
  else match q.prio with
  | 1 => s.fld .stoArb 31 24 * burst
  | 2 => s.fld .stoArb 23 16 * burst
  | 3 => s.fld .stoArb 15 8 * burst
  | _ => burst

/-- Every queue with waiting commands: controller, queue number, class, and whether its part of the round is used up. -/
def sqWaiting (s : State) : List (Nat × Nat × Nat × Bool) :=
  let keys := (if s.sto.ctrls.has 0 then [] else [0]) ++ s.sto.ctrls.unzip.1
  keys.flatMap (fun k =>
    match s.nvme k with
    | none => []
    | some c =>
      if nvmeLive s k c then
        c.sqs.filterMap (fun p => if p.2.head = p.2.tail then none
          else some (k, p.1, sqClass p.1 p.2, decide (sqQuota s c p.1 p.2 ≤ s.sto.served.get (k, p.1) 0)))
      else [])

/-- The arbiter may fetch from a queue now: in normal service admin queues go first, one command a turn, then every I/O queue its burst; in
priority-class mode the urgent class goes strictly first, and the others share the round (R396). A round in which nobody is left begins anew. -/
def arbiter (k sq : Nat) (s : State) : Option State :=
  let l := sqWaiting s
  match l.find? (fun x => x.1 == k && x.2.1 == sq) with
  | none => none
  | some (_, _, cls, used) =>
    let others (p : Nat → Nat → Bool) : Bool := l.any (fun x => p x.2.1 x.2.2.1 && !x.2.2.2)
    let fresh : Bool := l.all (fun x => x.2.2.2)
    if s.sto.prio then
      let urgent : Bool := l.any (fun x => x.2.2.1 == 0)
      if cls = 0 then some s
      else if urgent then none
      else if used = false then some s
      else if fresh then some (s.modSto (fun x => { x with served := [] })) else none
    else if used then (if fresh then some (s.modSto (fun x => { x with served := [] })) else none)
    else if sq ≠ 0 ∧ others (fun q _ => q == 0) = true then none
    else some s

/-- The command at the head of a queue is fetched. -/
def nvmeFetch (k sq : Nat) (s : State) : Option State :=
  match arbiter k sq s with
  | none => none
  | some s =>
    match s.nvme k with
    | none => none
    | some c =>
      match c.sqs.find sq with
      | none => none
      | some q =>
        let s := s.setNvme k { c with sqs := c.sqs.set sq { q with head := (q.head + 1) % q.size } }
        some (s.modSto (fun x => { x with served := x.served.set (k, sq) (x.served.get (k, sq) 0 + 1) }))

/-- Two lists of block ranges share a block. -/
def blocksMeet (a b : List (Nat × Nat)) : Bool :=
  a.any (fun x => b.any (fun y => decide (x.1 < y.1 + y.2 ∧ y.1 < x.1 + x.2)))

/-- What remains of ranges without the blocks of another. -/
def blocksWithout (l : List (Nat × Nat)) (lo n : Nat) : List (Nat × Nat) :=
  l.flatMap (fun x =>
    if x.1 < lo + n ∧ lo < x.1 + x.2 then
      (if x.1 < lo then [(x.1, lo - x.1)] else []) ++ (if lo + n < x.1 + x.2 then [(lo + n, x.1 + x.2 - (lo + n))] else [])
    else [x])

/-- A range as the journal takes it: whole up to 1 MiB, else divided at every 1 MiB-aligned byte offset (R390). The first argument bounds the pieces. -/
def journalPieces (bs : Nat) : Nat → Nat → Nat → List (Nat × Nat)
  | 0, _, _ => []
  | fuel + 1, lba, n =>
    let step := 2 ^ 20 / bs
    let first := step - lba % step
    if n ≤ first then (if n = 0 then [] else [(lba, n)]) else (lba, first) :: journalPieces bs fuel (lba + first) (n - first)

def piecesOf (bs lba n : Nat) : List (Nat × Nat) := if n * bs ≤ 2 ^ 20 then [(lba, n)] else journalPieces bs (n * bs / 2 ^ 20 + 2) lba n

/-- Journal space in 4 KiB units. -/
def journalUnits (bs n : Nat) : Nat := ceilDiv (n * bs) 4096

def nsBlock (s : State) (ns : Nat) : Nat :=
  match s.sto.nss.find ns with
  | some n => blockSize n
  | none => 4096

def entryUnits (s : State) (e : JEntry) : Nat := journalUnits (nsBlock s e.ns) e.n

/-- Completed writes not yet journaled, and journal space in use (R389). -/
def unjournaled (s : State) : Nat := sumOf (List.map (fun p => if p.2.sealed ∨ s.sto.cmds.has p.2.cmd then 0 else entryUnits s p.2) s.sto.journal)
def journalUsed (s : State) : Nat := sumOf (List.map (fun p => if p.2.sealed then entryUnits s p.2 else 0) s.sto.journal)

/-- The blocks of a command's ranges that a journal entry or an incomplete write still names: dirty ones are never dropped from the cache. -/
def extentDirty (s : State) (e : Extent) : Bool :=
  s.sto.journal.any (fun p => p.2.ns == e.ns && blocksMeet [(p.2.lba, p.2.n)] [(e.lba, e.n)]) ||
    s.sto.cmds.any (fun p => p.2.ns == e.ns && p.2.applied && p.2.kind == .write && blocksMeet p.2.ranges [(e.lba, e.n)])

/-- The oldest clean extents leave a cache that is over its size. The first argument bounds them. -/
def cacheTrim : Nat → State → State
  | 0, s => s
  | fuel + 1, s =>
    let total := sumOf (s.sto.extents.map (fun e => e.n * nsBlock s e.ns))
    if total ≤ natBits (s.kw kStoCache) 7 0 * 2 ^ 30 then s
    else match s.sto.extents.reverse.find? (fun e => !extentDirty s e) with
    | some e => cacheTrim fuel (s.modSto (fun x => { x with extents := x.extents.erase e }))
    | none => s

/-- Blocks enter the cache. -/
def cachePut (ns lba n : Nat) (s : State) : State :=
  cacheTrim 1024 (s.modSto (fun x => { x with extents := { ns := ns, lba := lba, n := n } :: x.extents }))

/-- A range becomes unreadable (R399). -/
def markUnreadable (ns lba n : Nat) (s : State) : State :=
  match s.sto.nss.find ns with
  | none => s
  | some N =>
    let lost := blocksWithout N.lost lba n ++ [(lba, n)]
    let s := s.modSto (fun x => { x with nss := x.nss.set ns { N with lost := lost, health := if 256 < lost.length then .failed else N.health } })
    nsChanged ns ((log St.dataUnreadable .error s (a32 := ns) (a0 := lba) (a1 := n)).bump .stoUnreadable)

/-- The first unreadable block of a range. -/
def firstLost (N : Nspace) (lba n : Nat) : Option Nat :=
  N.lost.foldl (fun (b : Option Nat) r =>
    if r.1 < lba + n ∧ lba < r.1 + r.2 then
      let x := max r.1 lba
      some (match b with
        | some y => min x y
        | none => x)
    else b) none

/-- A fetched command leaves the service with its completion. -/
def ioEnd (id : Nat) (st : Status) (s : State) (lba : Nat := 0) : State :=
  match s.sto.cmds.find id with
  | none => s
  | some c =>
    let s := s.modSto (fun x => { x with cmds := x.cmds.del id })
    if c.dropped then s
    else if st = St.success then nvmePost c.ctrl c.sq c.cid 0 (0, 0, false) s
    else nvmeFail c.ctrl c.sq c.cid st s (lba := lba) (ns := c.ns)

/-- The first block of a range that the backing must supply. -/
def missingBlock (s : State) (ns lba n : Nat) : Option Nat := (firstBelow n (fun i => !blockCached s ns (lba + i))).map (lba + ·)

/-- The first bad block of a read, with its status: unreadable (R399), or its word in DDR uncorrectable for a RAM namespace (R398). -/
def badBlock (s : State) (N : Nspace) (lba n : Nat) : Option (Nat × Status) :=
  match firstLost N lba n with
  | some b => some (b, St.dataUnreadable)
  | none =>
    if N.kind = 0 then
      (eccHit s (ddrBase + N.ddrBase + lba * blockSize N) (n * blockSize N)).map (fun w =>
        (max lba ((w - ddrBase - N.ddrBase) / blockSize N), St.dataUncorrectable))
    else none

/-- A read whose blocks are all at hand takes its data and completes (R398). Bytes before a bad block are written or not: a free value. -/
def serveNvmeRead (id : Nat) (s : State) : State :=
  match s.sto.cmds.find id with
  | none => s
  | some c =>
    match s.nvme c.ctrl, s.sto.nss.find c.ns, c.ranges with
    | some k, some N, (lba, n) :: _ =>
      match nvmeLink s k with
      | some st => ioEnd id st s
      | none =>
        let bs := blockSize N
        match badBlock s N lba n with
        | some (b, st) =>
          let (v, s) := s.draw 1
          let s := if v = 1 then nvmeStore k c.prp (nsGet s c.ns (lba * bs) ((b - lba) * bs)) s else s
          ioEnd id st s (lba := b)
        | none => ioEnd id St.success (nvmeStore k c.prp (nsGet s c.ns (lba * bs) (n * bs)) s)
    | _, _, _ => ioEnd id St.invalidField s

/-- The data of a write's range enters DDR or the cache; whole blocks written are readable again (R388, R399). -/
def applyRange (ns : Nat) (N : Nspace) (lba n : Nat) (data : List Byte) (s : State) : State :=
  let bs := blockSize N
  let s := s.modSto (fun x => { x with nss := x.nss.set ns { N with lost := blocksWithout N.lost lba n } })
  if N.kind = 0 then
    let a := ddrBase + N.ddrBase + lba * bs
    if data.isEmpty then zeroRange a (n * bs) s else rawStore a data s
  else
    let s := if data.isEmpty then s.zero (.cache ns) (lba * bs) (n * bs) else s.store (.cache ns) (lba * bs) data
    cachePut ns lba n s

/-- The journal entries of a write join the queue of the destager. -/
def makeEntries (id : Nat) (s : State) : State :=
  match s.sto.cmds.find id with
  | none => s
  | some c =>
    let bs := nsBlock s c.ns
    let s := s.modSto (fun x => { x with cmds := x.cmds.set id { c with entries := true } })
    c.ranges.foldl (fun s r =>
      (piecesOf bs r.1 r.2).foldl (fun s p =>
        let data := if c.zeroes then [] else (c.data.drop ((p.1 - r.1) * bs)).take (p.2 * bs)
        s.modSto (fun x => { x with
          nextJ := x.nextJ + 1
          journal := x.journal.set x.nextJ { ns := c.ns, lba := p.1, n := p.2, data := data, ctrl := c.ctrl, cmd := id } })) s) s

/-- A write that its ranges' overlaps no longer hold back is applied, its data fetched whole (R394, R398). -/
def applyWrite (id : Nat) (s : State) : State :=
  match s.sto.cmds.find id with
  | none => s
  | some c =>
    match s.nvme c.ctrl, s.sto.nss.find c.ns with
    | some k, some N =>
      match (if c.zeroes then none else nvmeLink s k) with
      | some st => ioEnd id st s
      | none =>
        let len := sumOf (c.ranges.map (·.2)) * blockSize N
        let (data, s) := if c.zeroes then ([], s) else nvmeRead k c.prp len s
        let s := s.modSto (fun x => { x with cmds := x.cmds.set id { c with data := data, applied := true } })
        let s := c.ranges.foldl (fun s r =>
          match s.sto.nss.find c.ns with
          | some N => applyRange c.ns N r.1 r.2 data s
          | none => s) s
        if N.kind ≠ 0 ∧ c.fua = true then makeEntries id s else s
    | _, _ => ioEnd id St.invalidField s

/-- An applied write completes at its persistence point (R388, R389). -/
def finishWrite (id : Nat) (s : State) : State :=
  match s.sto.cmds.find id with
  | none => s
  | some c =>
    match s.sto.nss.find c.ns with
    | none => ioEnd id St.invalidField s
    | some N =>
      if N.kind = 0 then ioEnd id St.success s
      else if c.fua then
        if s.sto.journal.any (fun p => p.2.cmd == id && (N.persist || !p.2.sealed)) then s else ioEnd id St.success s
      else
        let size := sumOf (c.ranges.map (fun r => journalUnits (blockSize N) r.2))
        let u := unjournaled s
        if u = 0 ∨ u + size ≤ 65536 then ioEnd id St.success (makeEntries id s)
        else if c.counted then s
        else (s.modSto (fun x => { x with cmds := x.cmds.set id { c with counted := true } })).bump .stoJournalWaits

/-- An earlier-fetched command that a command must wait for (R394). -/
def mustWait (s : State) (id : Nat) (c : IoCmd) : Bool :=
  s.sto.cmds.any (fun p => decide (p.1 < id) && p.2.ns == c.ns && blocksMeet p.2.ranges c.ranges &&
    (match c.kind, p.2.kind with
      | .read, .write => true
      | .write, .write => !p.2.applied
      | .write, .read => true
      | _, _ => false))

/-- One fetched command goes as far as it can. -/
def ioAdvance (id : Nat) (s : State) : State :=
  match s.sto.cmds.find id with
  | none => s
  | some c =>
    match s.sto.nss.find c.ns, c.kind with
    | none, _ => ioEnd id St.invalidField s
    | some N, .flush =>
      if c.before.any (fun e => match s.sto.journal.find e with
        | some j => N.persist || !j.sealed
        | none => false) then s else ioEnd id St.success s
    | some N, .read =>
      if N.health = .failed then ioEnd id St.nsFailed s
      else if mustWait s id c then s
      else match c.ranges with
      | (lba, n) :: _ =>
        if N.kind = 0 ∨ (missingBlock s c.ns lba n).isNone ∨ (firstLost N lba n).isSome then serveNvmeRead id s
        else if N.health = .degraded then ioEnd id St.backingTimeout s
        else if c.asked then s
        else (s.modSto (fun x => { x with cmds := x.cmds.set id { c with asked := true } })).emit (.backingCmd c.ns false lba n)
      | [] => ioEnd id St.success s
    | some N, .write =>
      if N.health = .failed then ioEnd id St.nsFailed s
      else if c.applied then finishWrite id s
      else if mustWait s id c then s
      else finishWrite id (applyWrite id s)

/-- A shutdown is complete once no completed write of the controller awaits journaling (R393). -/
def shutAdvance (s : State) : State :=
  s.sto.ctrls.foldl (fun s p =>
    if p.2.shut ∧ s.fld .nvmeCsts 3 2 p.1 = 1 ∧ ¬ s.sto.journal.any (fun j => j.2.ctrl == p.1 && !j.2.sealed) then
      s.setFld .nvmeCsts 3 2 2 p.1
    else s) s

/-- Every fetched command goes as far as it can, in the order of fetch; the registers follow. -/
def stoAdvance (s : State) : State :=
  let s := (s.sto.cmds.unzip.1).foldl (fun s id => ioAdvance id s) s
  let s := s.setReg .stoUnjournaled (unjournaled s)
  shutAdvance (s.setReg .stoJournalUsed (journalUsed s))

/-- A fetched I/O command joins the others. -/
def ioStart (c : IoCmd) (s : State) : State :=
  stoAdvance (s.modSto (fun x => { x with nextCmd := x.nextCmd + 1, cmds := x.cmds.set x.nextCmd c }))

/-- A controller's commands that have not begun moving data leave; writes already applied go on without their completions (R393). -/
def ioDiscard (p : IoCmd → Bool) (s : State) : State :=
  s.modSto (fun x => { x with
    cmds := (x.cmds.keep (fun _ c => !p c || c.applied)).map (fun _ c => if p c then { c with dropped := true } else c) })

/-- CC.EN goes to 0, or a reset of the controller: queues and fetched commands go (R393, R401). -/
def nvmeStop (k : Nat) (s : State) : State :=
  let s := ioDiscard (fun c => c.ctrl == k) s
  let s := (s.clearReg .nvmeCsts k).setFld .nvmeCc 0 0 0 k
  match s.sto.ctrls.find k with
  | some c => s.setNvme k { slice := c.slice, sub := c.sub, cplAddr := c.cplAddr, cplData := c.cplData, qpairs := c.qpairs, page := c.page }
  | none => s

/-- As part of a reset of its function or slice, a controller's registers return to their reset values (R401). -/
def nvmeReset (k : Nat) (s : State) : State :=
  let s := nvmeStop k s
  stoAdvance (((((s.clearReg .nvmeCc k).clearReg .nvmeCsts k).clearReg .nvmeAqa k).clearReg .nvmeAsq k).clearReg .nvmeAcq k)

/-- A namespace leaves a controller, which hears of it. -/
def nsLeave (ns k : Nat) (s : State) : State :=
  match s.sto.nss.find ns with
  | some N =>
    let s := nsChanged ns s
    s.modSto (fun x => { x with nss := x.nss.set ns { N with ctrls := N.ctrls.filter (· != k) } })
  | none => s

/-- A controller is gone with its slice. -/
def nvmeGone (k : Nat) (s : State) : State :=
  let s := nvmeReset k s
  let s := (s.sto.nss.unzip.1).foldl (fun s ns =>
    match s.sto.nss.find ns with
    | some N => s.modSto (fun x => { x with nss := x.nss.set ns { N with ctrls := N.ctrls.filter (· != k) } })
    | none => s) s
  s.modSto (fun x => { x with ctrls := x.ctrls.del k })

/-- A sealed entry's blocks reach the backing with FUA, all but those lost since (R387, R399). -/
def destage (e : JEntry) (s : State) : State :=
  match s.sto.nss.find e.ns with
  | none => s
  | some N =>
    let bs := blockSize N
    (blocksWithout [(e.lba, e.n)] 0 0).foldl (fun s r =>
      let keep := N.lost.foldl (fun l x => blocksWithout l x.1 x.2) [r]
      keep.foldl (fun s y =>
        if e.data.isEmpty then s.zero (.backing e.ns) (y.1 * bs) (y.2 * bs)
        else s.store (.backing e.ns) (y.1 * bs) ((e.data.drop ((y.1 - e.lba) * bs)).take (y.2 * bs))) s) s

/-- Main power goes: the cache, RAM namespaces and what was not sealed are lost (R388, R392). -/
def stoPowerLoss (s : State) : State :=
  let s := s.sto.nss.foldl (fun s p =>
    if p.2.kind = 0 then s.zero .array (ddrBase + p.2.ddrBase) (p.2.capacity * blockSize p.2) else s.zero (.cache p.1) 0 (2 ^ 64)) s
  s.modSto (fun x => { x with
    extents := []
    journal := x.journal.keep (fun _ e => e.sealed)
    cmds := []
    ctrls := []
    served := []
    prio := true
    prioNext := none
    restoring := false
    replayed := false })

/-- An uncorrectable word at offset `o` of DDR may lie in the cache, the first STO_CACHE.gib of the general reserve. Which block it holds is a free value: a
clean one is read again from the backing, a dirty one becomes unreadable (R398, R399). -/
def cacheUncorrectable (o : Nat) (s : State) : State :=
  let lo := poolGib * 2 ^ 30
  if o < lo ∨ lo + natBits (s.kw kStoCache) 7 0 * 2 ^ 30 ≤ o ∨ s.sto.extents.isEmpty then s
  else
    let (v, s) := s.draw 64
    let (w, s) := s.draw 64
    match s.sto.extents[v % s.sto.extents.length]? with
    | none => s
    | some e =>
      let b := e.lba + w % (max 1 e.n)
      if extentDirty s { e with lba := b, n := 1 } then stoAdvance (markUnreadable e.ns b 1 s)
      else s.modSto (fun x => { x with extents := x.extents.flatMap (fun y =>
        if y.ns = e.ns then (blocksWithout [(y.lba, y.n)] b 1).map (fun r => { ns := y.ns, lba := r.1, n := r.2 }) else [y]) })

end Sys2Proof.Machine
end

