-- ==== Sys2Proof/Machine/StorageCommands.lean ====
section
/-! DEFINITION. The commands of chapter 15: controller registers and doorbells, admin commands, I/O commands, the journal and the backings, and the
namespace requests of the mailbox. Field places of NVMe commands and data follow NVM Express 2.0, which R382 names. -/

namespace Sys2Proof.Machine

open Sys2Proof

/-- A controller page's write takes effect: the controller exists and, on a slice's page, the page is open (R320). -/
def nvmeGate (k : Nat) (s : State) (f : Nvme → State → State) : State :=
  match s.nvme k with
  | none => pageIgnored k s
  | some c => if c.sub.isNone ∧ pageOpen s k = false then pageIgnored k s else f c s

/-- An Invalid Doorbell Write event (R397): error event 01h of log page 01h, or 00h for a doorbell of no queue. -/
def badDoorbell (k : Nat) (value : Bool) (s : State) : State := nvmeEvent k (if value then 0x010100 else 0x010000) s

/-- A queue doorbell: a host controller's lies in its slice's page. -/
def whenQueue (ctrl : Nat) (s : State) (f : State → State) : Out := if ctrl < 4096 then whenPage ctrl s f else whenOn s f

def execNvmeSqTailDoorbell (ctrl y : Nat) (v : Word) (s : State) : Out :=
  whenQueue ctrl s (fun s => nvmeGate ctrl s (fun c s =>
    match c.sqs.find y with
    | none => badDoorbell ctrl false s
    | some q =>
      if q.size ≤ v.toNat then badDoorbell ctrl true s
      else s.setNvme ctrl { c with sqs := c.sqs.set y { q with tail := v.toNat } }))

def execNvmeCqHeadDoorbell (ctrl y : Nat) (v : Word) (s : State) : Out :=
  whenQueue ctrl s (fun s => nvmeGate ctrl s (fun c s =>
    match c.cqs.find y with
    | none => badDoorbell ctrl false s
    | some q =>
      if q.size ≤ v.toNat then badDoorbell ctrl true s
      else cqFlush ctrl y 4096 (s.setNvme ctrl { c with cqs := c.cqs.set y { q with head := v.toNat } })))

/-- CC.EN from 0 to 1: the admin queues of AQA, ASQ and ACQ exist, and the controller is ready (R383). -/
def execNvmeCcEnable (ctrl : Nat) (cc : Word) (s : State) : Out :=
  whenOn s (fun s => nvmeGate ctrl s (fun c s =>
    if natBit cc.toNat 0 = false ∨ s.fld .nvmeCc 0 0 ctrl = 1 then s.setReg .nvmeCc cc.toNat ctrl
    else
      let s := (s.setReg .nvmeCc cc.toNat ctrl).setReg .nvmeCsts 1 ctrl
      s.setNvme ctrl { c with
        sqs := [(0, { base := s.reg .nvmeAsq ctrl, size := s.fld .nvmeAqa 11 0 ctrl + 1, cq := 0, prio := 0 })]
        cqs := [(0, { base := s.reg .nvmeAcq ctrl, size := s.fld .nvmeAqa 27 16 ctrl + 1, irq := some 0 })] }))

def execNvmeCcDisable (ctrl : Nat) (cc : Word) (s : State) : Out :=
  whenOn s (fun s => nvmeGate ctrl s (fun _ s =>
    if natBit cc.toNat 0 ∨ s.fld .nvmeCc 0 0 ctrl = 0 then s.setReg .nvmeCc cc.toNat ctrl
    else stoAdvance ((nvmeStop ctrl s).setReg .nvmeCc cc.toNat ctrl)))

/-- A shutdown notification: fetching stops, and CSTS.SHST is complete once completed writes are journaled (R393). -/
def execNvmeCcShutdown (ctrl : Nat) (cc : Word) (s : State) : Out :=
  whenOn s (fun s => nvmeGate ctrl s (fun c s =>
    let s := s.setReg .nvmeCc cc.toNat ctrl
    if natBits cc.toNat 15 14 = 0 ∨ natBits cc.toNat 15 14 = 3 then s
    else stoAdvance ((s.setNvme ctrl { c with shut := true }).setFld .nvmeCsts 3 2 1 ctrl)))

/-- A command taken from a queue, where the arbiter lets it be: an opcode other than the row's is unsupported (R384). -/
def nvmeTake (k sq : Nat) (cmd : NvmeCmd) (op : Nat) (s : State) (f : Nvme → State → State) : State :=
  match nvmeFetch k sq s with
  | none => s
  | some s =>
    match s.nvme k with
    | none => s
    | some c =>
      if cmd.opcode.toNat ≠ op then nvmeFail k sq cmd.cid.toNat St.unsupported s (loc := 0)
      else f c s

def nvmeAdmin (k : Nat) (cmd : NvmeCmd) (op : Nat) (s : State) (f : Nvme → State → State) : Out :=
  whenEngine s (fun s => nvmeTake k 0 cmd op s f)

/-- An admin command's success, with its result. -/
def adminOk (k : Nat) (cmd : NvmeCmd) (s : State) (dw0 : Nat := 0) : State := nvmePost k 0 cmd.cid.toNat dw0 (0, 0, false) s

/-- An admin command's error, at byte `loc` of the command. -/
def adminBad (k : Nat) (cmd : NvmeCmd) (st : Status) (s : State) (loc : Nat := 0xFFFF) : State := nvmeFail k 0 cmd.cid.toNat st s (loc := loc)

/-- A command-specific error (SCT 1h) of NVM Express. -/
def adminSpecific (k : Nat) (cmd : NvmeCmd) (sc : Nat) (code : Status) (s : State) (loc : Nat := 0xFFFF) : State :=
  nvmeError k 0 cmd.cid.toNat (1, sc, true) code s (loc := loc)

/-- Queues allocated: what Number of Queues asked for, within the grant (R397). -/
def allocated (s : State) (k : Nat) (c : Nvme) (asked : Option Nat) : Nat :=
  match asked with
  | some n => min n (nvmeGrant s k c)
  | none => nvmeGrant s k c

/-- QID and QSIZE of a queue creation (R397). -/
def queueCheck (s : State) (k : Nat) (c : Nvme) (cmd : NvmeCmd) (asked : Option Nat) (has : Bool) : Option (Nat × Status × Nat) :=
  let qid := natBits cmd.cdw10.toNat 15 0
  let size := natBits cmd.cdw10.toNat 31 16 + 1
  if qid = 0 ∨ allocated s k c asked < qid ∨ has = true then some (1, if c.slice = 0 then St.poolExhausted else St.grantExceeded, 40)
  else if size < 2 ∨ 4096 < size then some (2, St.lenTooLarge, 42)
  else none

def execNvmeCreateIoSq (ctrl : Nat) (cmd : NvmeCmd) (s : State) : Out :=
  nvmeAdmin ctrl cmd 0x01 s (fun c s =>
    let qid := natBits cmd.cdw10.toNat 15 0
    let cq := natBits cmd.cdw11.toNat 31 16
    match queueCheck s ctrl c cmd c.askedSq (c.sqs.has qid) with
    | some (sc, st, loc) => adminSpecific ctrl cmd sc st s loc
    | none =>
      if natBit cmd.cdw11.toNat 0 = false then adminBad ctrl cmd St.invalidField s 44
      else if cq = 0 ∨ c.cqs.has cq = false then adminSpecific ctrl cmd 0 St.invalidField s 46
      else adminOk ctrl cmd (s.setNvme ctrl { c with sqs := c.sqs.set qid {
        base := cmd.prp, size := natBits cmd.cdw10.toNat 31 16 + 1, cq := cq, prio := natBits cmd.cdw11.toNat 2 1 } }))

/-- The fetched commands of a deleted queue end, those of a write already applied going on without their completion (PRESUMED: NVM Express's Command Aborted due
to SQ Deletion). -/
def execNvmeDeleteIoSq (ctrl : Nat) (cmd : NvmeCmd) (s : State) : Out :=
  nvmeAdmin ctrl cmd 0x00 s (fun c s =>
    let qid := natBits cmd.cdw10.toNat 15 0
    if qid = 0 ∨ c.sqs.has qid = false then adminSpecific ctrl cmd 1 St.invalidField s 40
    else
      let mine := s.sto.cmds.keep (fun _ x => x.ctrl == ctrl && x.sq == qid && !x.dropped)
      let s := ioDiscard (fun x => x.ctrl == ctrl && x.sq == qid) s
      let s := mine.foldl (fun s p => nvmePost ctrl qid p.2.cid 0 (0, 8, false) s) s
      stoAdvance (adminOk ctrl cmd (s.modNvme ctrl (fun c => { c with sqs := c.sqs.del qid }))))

def execNvmeCreateIoCq (ctrl : Nat) (cmd : NvmeCmd) (s : State) : Out :=
  nvmeAdmin ctrl cmd 0x05 s (fun c s =>
    let qid := natBits cmd.cdw10.toNat 15 0
    let iv := natBits cmd.cdw11.toNat 31 16
    let entries := if c.slice = 0 then 2048 else match (s.slice c.slice).grant with
      | some g => g.irqEntries
      | none => 0
    match queueCheck s ctrl c cmd c.askedCq (c.cqs.has qid) with
    | some (sc, st, loc) => adminSpecific ctrl cmd sc st s loc
    | none =>
      if natBit cmd.cdw11.toNat 0 = false then adminBad ctrl cmd St.invalidField s 44
      else if c.sub.isNone ∧ natBit cmd.cdw11.toNat 1 = true ∧ entries ≤ iv then adminSpecific ctrl cmd 8 St.grantExceeded s 46
      else adminOk ctrl cmd (s.setNvme ctrl { c with cqs := c.cqs.set qid {
        base := cmd.prp, size := natBits cmd.cdw10.toNat 31 16 + 1, irq := if natBit cmd.cdw11.toNat 1 then some iv else none } }))

def execNvmeDeleteIoCq (ctrl : Nat) (cmd : NvmeCmd) (s : State) : Out :=
  nvmeAdmin ctrl cmd 0x04 s (fun c s =>
    let qid := natBits cmd.cdw10.toNat 15 0
    if qid = 0 ∨ c.cqs.has qid = false then adminSpecific ctrl cmd 1 St.invalidField s 40
    else if c.sqs.any (fun p => p.2.cq == qid) then adminSpecific ctrl cmd 0x0C St.invalidField s 40
    else adminOk ctrl cmd (s.setNvme ctrl { c with cqs := c.cqs.del qid }))

/-- `l` with its bytes from `i` replaced. -/
def patch (l : List Byte) (i : Nat) (x : List Byte) : List Byte := l.take i ++ x ++ l.drop (i + x.length)

/-- `n` bytes that the spec leaves open. -/
def freeBytes (n : Nat) (s : State) : List Byte × State := let (v, s) := s.draw (8 * n); (leBytes n v, s)

/-- Log page 05h: the supported admin and I/O commands (R384). -/
def effectsLog : List Byte :=
  let row (ops : List Nat) : List Byte := (List.range 256).flatMap (fun i => leBytes 4 (if ops.contains i then 1 else 0))
  row [0, 1, 2, 4, 5, 6, 8, 9, 10, 12] ++ row [0, 1, 2, 8, 9] ++ List.replicate 2048 0

/-- A supported log page, whole (R384). The SMART page's values are open. -/
def logPage (lid : Nat) (c : Nvme) (s : State) : Option (List Byte × State) :=
  match lid with
  | 1 => some ((c.errors.flatten ++ List.replicate 4096 0).take 4096, s)
  | 2 => some (freeBytes 512 s)
  | 4 => some ((c.changed.flatMap (leBytes 4) ++ List.replicate 4096 0).take 4096, s)
  | 5 => some (effectsLog, s)
  | _ => none

/-- Data of an admin command to its buffer, and the completion (R397, R402). -/
def adminData (k : Nat) (cmd : NvmeCmd) (l : List Byte) (s : State) : State :=
  match s.nvme k with
  | none => s
  | some c =>
    if cmd.dataLen < l.length then nvmeError k 0 cmd.cid.toNat (0, 0x0F, true) St.lenTooLarge s (loc := 24)
    else match nvmeLink s c with
    | some st => adminBad k cmd st s
    | none => adminOk k cmd (nvmeStore c cmd.prp l s)

def execNvmeGetLogPage (ctrl : Nat) (cmd : NvmeCmd) (s : State) : Out :=
  nvmeAdmin ctrl cmd 0x02 s (fun c s =>
    let lid := natBits cmd.cdw10.toNat 7 0
    let n := 4 * (natBits cmd.cdw10.toNat 31 16 + 65536 * natBits cmd.cdw11.toNat 15 0 + 1)
    let off := cmd.cdw12.toNat + 2 ^ 32 * cmd.cdw13.toNat
    match logPage lid c s with
    | none => adminBad ctrl cmd St.invalidField s 40
    | some (l, s) =>
      if 2 ^ 21 < n ∨ l.length < off + n then adminBad ctrl cmd (if 2 ^ 21 < n then St.lenTooLarge else St.invalidField) s 42
      else
        let s := adminData ctrl cmd ((l.drop off).take n) s
        if lid = 4 then s.modNvme ctrl (fun c => { c with changed := [] }) else s)

/-- Identify data (R384, R385, R390, R397): the fields that the spec gives, all others open. -/
def identifyData (cns nsid k : Nat) (c : Nvme) (s : State) : Option (List Byte × State) :=
  let mine (n : Nat) : Bool := match s.sto.nss.find n with
    | some N => N.ctrls.contains k
    | none => false
  match cns with
  | 0 =>
    match s.sto.nss.find nsid with
    | some N =>
      if mine nsid then
        let (l, s) := freeBytes 4096 s
        let bs := blockSize N
        let l := patch l 0 (leBytes 8 N.capacity ++ leBytes 8 N.capacity)
        let l := patch l 24 [BitVec.ofNat 8 (natSetBits (fieldLE l 24 1) 1 1 0)]
        let l := patch l 25 [0, 0]
        let l := patch l 36 (leBytes 2 (2 ^ 20 / bs - 1))
        some (patch l 128 (leBytes 2 0 ++ leBytes 1 (if N.lba512 then 9 else 12)), s)
      else some (List.replicate 4096 0, s)
    | none => some (List.replicate 4096 0, s)
  | 1 =>
    let (l, s) := freeBytes 4096 s
    let l := patch l 77 [9]
    let l := patch l 80 (leBytes 4 0x00020000)
    let l := patch l 262 [63]
    let l := patch l 516 (leBytes 4 1024)
    let l := patch l 525 [BitVec.ofNat 8 (natSetBits (fieldLE l 525 1) 0 0 1)]
    let _ := c
    some (l, s)
  | 2 => some (((((List.range 1025).filter (fun n => decide (nsid < n) && mine n)).flatMap (leBytes 4)) ++ List.replicate 4096 0).take 4096, s)
  | 3 => some (freeBytes 4096 s)
  | _ => none

def execNvmeIdentify (ctrl : Nat) (cmd : NvmeCmd) (s : State) : Out :=
  nvmeAdmin ctrl cmd 0x06 s (fun c s =>
    match identifyData (natBits cmd.cdw10.toNat 7 0) cmd.nsid ctrl c s with
    | none => adminBad ctrl cmd St.invalidField s 40
    | some (l, s) => adminData ctrl cmd l s)

/-- Abort: a command that waits and has moved nothing ends; result bit 0 says that none did (R402). -/
def execNvmeAbort (ctrl : Nat) (cmd : NvmeCmd) (s : State) : Out :=
  nvmeAdmin ctrl cmd 0x08 s (fun c s =>
    let sq := natBits cmd.cdw10.toNat 15 0
    let cid := natBits cmd.cdw10.toNat 31 16
    match s.sto.cmds.find? (fun p => p.2.ctrl == ctrl && p.2.sq == sq && p.2.cid == cid && !p.2.applied && !p.2.dropped) with
    | some (id, _) =>
      let s := s.modSto (fun x => { x with cmds := x.cmds.del id })
      stoAdvance (adminOk ctrl cmd (nvmePost ctrl sq cid 0 (0, 7, true) s))
    | none =>
      if sq = 0 ∧ c.aers.contains cid = true then
        adminOk ctrl cmd (nvmePost ctrl 0 cid 0 (0, 7, true) (s.setNvme ctrl { c with aers := c.aers.filter (· != cid) }))
      else adminOk ctrl cmd s 1)

/-- The value of a feature (R384, R396, R397). -/
def featureValue (s : State) (k : Nat) (c : Nvme) (fid : Nat) : Option Nat :=
  match fid with
  | 1 => some (c.burst + s.fld .stoArb 15 8 * 2 ^ 8 + s.fld .stoArb 23 16 * 2 ^ 16 + s.fld .stoArb 31 24 * 2 ^ 24)
  | 2 => some 0
  | 6 => some (if c.wce then 1 else 0)
  | 7 => some ((allocated s k c c.askedSq + 65535) % 65536 + (allocated s k c c.askedCq + 65535) % 65536 * 65536)
  | 8 => some c.coalesce
  | 0x0B => some c.asyncCfg
  | _ => none

def execNvmeSetFeatures (ctrl : Nat) (cmd : NvmeCmd) (s : State) : Out :=
  nvmeAdmin ctrl cmd 0x09 s (fun c s =>
    let v := cmd.cdw11.toNat
    let put (c : Nvme) : State := adminOk ctrl cmd (s.setNvme ctrl c)
    match natBits cmd.cdw10.toNat 7 0 with
    | 1 => put { c with burst := natBits v 2 0 }
    | 2 => if natBits v 4 0 = 0 then adminOk ctrl cmd s else adminBad ctrl cmd St.invalidField s 44
    | 6 => put { c with wce := natBit v 0 }
    | 7 =>
      if natBits v 15 0 = 0xFFFF ∨ natBits v 31 16 = 0xFFFF then adminBad ctrl cmd St.invalidField s 44
      else
        let c := { c with askedSq := some (natBits v 15 0 + 1), askedCq := some (natBits v 31 16 + 1) }
        let s := s.setNvme ctrl c
        adminOk ctrl cmd s ((featureValue s ctrl c 7).getD 0)
    | 8 => put { c with coalesce := natBits v 15 0 }
    | 0x0B => put { c with asyncCfg := v }
    | _ => adminBad ctrl cmd St.invalidField s 40)

def execNvmeGetFeatures (ctrl : Nat) (cmd : NvmeCmd) (s : State) : Out :=
  nvmeAdmin ctrl cmd 0x0A s (fun c s =>
    match featureValue s ctrl c (natBits cmd.cdw10.toNat 7 0) with
    | some v => adminOk ctrl cmd s v
    | none => adminBad ctrl cmd St.invalidField s 40)

def execNvmeAsyncEventRequest (ctrl : Nat) (cmd : NvmeCmd) (s : State) : Out :=
  nvmeAdmin ctrl cmd 0x0C s (fun c s =>
    match c.events with
    | e :: r => adminOk ctrl cmd (s.setNvme ctrl { c with events := r }) e
    | [] => s.setNvme ctrl { c with aers := c.aers ++ [cmd.cid.toNat] })

/-- An I/O command taken from its queue, for a namespace that its controller holds. A namespace whose journal entries are not yet read back is not ready (R392). -/
def nvmeIo (ctrl sq : Nat) (cmd : NvmeCmd) (op : Nat) (s : State) (f : Nvme → Nspace → State → State) : Out :=
  whenEngine s (fun s => if sq = 0 then s else nvmeTake ctrl sq cmd op s (fun c s =>
    match s.sto.nss.find cmd.nsid with
    | none => nvmeError ctrl sq cmd.cid.toNat (0, 0x0B, true) St.invalidField s (loc := 4) (ns := cmd.nsid)
    | some N =>
      if N.ctrls.contains ctrl = false then nvmeError ctrl sq cmd.cid.toNat (0, 0x0B, true) St.invalidField s (loc := 4) (ns := cmd.nsid)
      else if N.health = .failed then nvmeFail ctrl sq cmd.cid.toNat St.nsFailed s (ns := cmd.nsid)
      else if s.sto.replayed = false ∧ s.sto.journal.any (fun p => p.2.ns == cmd.nsid && p.2.sealed) = true then
        nvmeFail ctrl sq cmd.cid.toNat St.retry s (ns := cmd.nsid)
      else f c N s))

/-- SLBA and the number of blocks of a Read, Write or Write Zeroes. -/
def slba (cmd : NvmeCmd) : Nat := cmd.cdw10.toNat + 2 ^ 32 * cmd.cdw11.toNat
def nlb (cmd : NvmeCmd) : Nat := natBits cmd.cdw12.toNat 15 0 + 1

/-- The checks of a transfer (R397): MDTS, the namespace's end, the buffer. -/
def ioCheck (ctrl sq : Nat) (cmd : NvmeCmd) (N : Nspace) (moves : Bool) (s : State) : Option State :=
  let bs := blockSize N
  if moves = true ∧ 2 ^ 21 < nlb cmd * bs then some (nvmeFail ctrl sq cmd.cid.toNat St.lenTooLarge s (loc := 48) (lba := slba cmd) (ns := cmd.nsid))
  else if N.capacity < slba cmd + nlb cmd then some (nvmeFail ctrl sq cmd.cid.toNat St.addrRange s (loc := 40) (lba := slba cmd) (ns := cmd.nsid))
  else if moves = true ∧ cmd.dataLen < nlb cmd * bs then
    some (nvmeError ctrl sq cmd.cid.toNat (0, 0x0F, true) St.lenTooLarge s (loc := 24) (lba := slba cmd) (ns := cmd.nsid))
  else none

def execNvmeRead (ctrl sq : Nat) (cmd : NvmeCmd) (s : State) : Out :=
  nvmeIo ctrl sq cmd 0x02 s (fun _ N s =>
    match ioCheck ctrl sq cmd N true s with
    | some t => t
    | none => ioStart { ctrl := ctrl, sq := sq, cid := cmd.cid.toNat, kind := .read, ns := cmd.nsid, ranges := [(slba cmd, nlb cmd)], prp := cmd.prp } s)

/-- The command behaves as one with FUA: it asks for it, or its controller's write cache is off (R388, R391). -/
def actsFua (c : Nvme) (cmd : NvmeCmd) : Bool := natBit cmd.cdw12.toNat 30 || !c.wce

def execNvmeWrite (ctrl sq : Nat) (cmd : NvmeCmd) (s : State) : Out :=
  nvmeIo ctrl sq cmd 0x01 s (fun c N s =>
    match ioCheck ctrl sq cmd N true s with
    | some t => t
    | none => ioStart { ctrl := ctrl, sq := sq, cid := cmd.cid.toNat, kind := .write, ns := cmd.nsid, ranges := [(slba cmd, nlb cmd)], prp := cmd.prp,
                        fua := actsFua c cmd } s)

def execNvmeWriteZeroes (ctrl sq : Nat) (cmd : NvmeCmd) (s : State) : Out :=
  nvmeIo ctrl sq cmd 0x08 s (fun c N s =>
    match ioCheck ctrl sq cmd N false s with
    | some t => t
    | none => ioStart { ctrl := ctrl, sq := sq, cid := cmd.cid.toNat, kind := .write, ns := cmd.nsid, ranges := [(slba cmd, nlb cmd)], zeroes := true,
                        fua := actsFua c cmd } s)

/-- Dataset Management: its ranges of 16 bytes, those of 0 blocks ignored; without the deallocate attribute nothing is done (R384, R397). -/
def execNvmeDatasetManagement (ctrl sq : Nat) (cmd : NvmeCmd) (s : State) : Out :=
  nvmeIo ctrl sq cmd 0x09 s (fun c N s =>
    let n := natBits cmd.cdw10.toNat 7 0 + 1
    match nvmeLink s c with
    | some st => nvmeFail ctrl sq cmd.cid.toNat st s (ns := cmd.nsid)
    | none =>
      if cmd.dataLen < 16 * n then nvmeError ctrl sq cmd.cid.toNat (0, 0x0F, true) St.lenTooLarge s (loc := 24) (ns := cmd.nsid)
      else
        let (l, s) := nvmeRead c cmd.prp (16 * n) s
        let ranges := ((List.range n).map (fun i => (fieldLE l (16 * i + 8) 8, fieldLE l (16 * i + 4) 4))).filter (fun r => decide (0 < r.2))
        if ranges.any (fun r => decide (N.capacity < r.1 + r.2)) then nvmeFail ctrl sq cmd.cid.toNat St.addrRange s (loc := 40) (ns := cmd.nsid)
        else
          ioStart { ctrl := ctrl, sq := sq, cid := cmd.cid.toNat, kind := .write, ns := cmd.nsid
                    ranges := if natBit cmd.cdw11.toNat 2 then ranges else [], zeroes := true, fua := !c.wce } s)

/-- Flush: it waits for the entries of every write to its namespace that has completed (R391). -/
def execNvmeFlush (ctrl sq : Nat) (cmd : NvmeCmd) (s : State) : Out :=
  nvmeIo ctrl sq cmd 0x00 s (fun _ _ s =>
    let before := (s.sto.journal.keep (fun _ e => e.ns == cmd.nsid && !s.sto.cmds.has e.cmd)).unzip.1
    ioStart { ctrl := ctrl, sq := sq, cid := cmd.cid.toNat, kind := .flush, ns := cmd.nsid, ranges := [], before := before } s)

/-- The entry that the destager journals next. -/
def nextUnsealed (s : State) : Option Nat := (s.sto.journal.find? (fun p => !p.2.sealed)).map (·.1)

/-- An entry's data and header are in the Kiln, in the destager's order, where the journal has room (R389, R390); its write to the backing follows. -/
def execJournalEntrySealed (entry : Nat) (s : State) : Out :=
  whenEngine s (fun s =>
    match s.sto.journal.find entry with
    | none => s
    | some e =>
      if nextUnsealed s ≠ some entry then s
      else if 262144 < journalUsed s + entryUnits s e then
        if e.counted then s
        else (s.modSto (fun x => { x with journal := x.journal.set entry { e with counted := true } })).bump .stoJournalWaits
      else
        let s := s.modSto (fun x => { x with journal := x.journal.set entry { e with sealed := true } })
        stoAdvance (s.emit (.backingCmd e.ns true e.lba e.n)))

/-- The backing has completed a destaged write with FUA: the entry is freed (R387, R388). An earlier entry that names one of its blocks goes first. -/
def execDestageComplete (entry : Nat) (s : State) : Out :=
  whenEngine s (fun s =>
    match s.sto.journal.find entry with
    | none => s
    | some e =>
      let first : Bool := !s.sto.journal.any (fun p => decide (p.1 < entry) && p.2.ns == e.ns && blocksMeet [(p.2.lba, p.2.n)] [(e.lba, e.n)])
      if e.sealed ∧ first = true then
        let s := destage e s
        stoAdvance (s.modSto (fun x => { x with journal := x.journal.del entry }))
      else s)

/-- A namespace's health changes, and its controllers hear of it (R400). -/
def setHealth (ns : Nat) (h : NsHealth) (s : State) : State :=
  match s.sto.nss.find ns with
  | some N => nsChanged ns (s.modSto (fun x => { x with nss := x.nss.set ns { N with health := h } }))
  | none => s

/-- A backing command is outstanding: a read asked of it, or a sealed entry's write. -/
def backingBusy (s : State) (ns : Nat) : Bool :=
  s.sto.cmds.any (fun p => p.2.ns == ns && p.2.asked) || s.sto.journal.any (fun p => p.2.ns == ns && p.2.sealed)

/-- A backing command has been outstanding for 10 s (R400): the namespace is DEGRADED, and reads that need the backing end. -/
def execBackingTimeout (nsid : Nat) (s : State) : Out :=
  whenEngine s (fun s =>
    match s.sto.nss.find nsid with
    | none => s
    | some N =>
      if backingBusy s nsid = false then s
      else
        let s := s.bump .stoBackingTimeouts
        let s := if N.health = .ok then setHealth nsid .degraded s else s
        stoAdvance ((s.sto.cmds.keep (fun _ c => c.ns == nsid && c.asked)).foldl (fun s p => ioEnd p.1 St.backingTimeout s) s))

def execBackingRecovered (nsid : Nat) (s : State) : Out :=
  whenEngine s (fun s =>
    match s.sto.nss.find nsid with
    | some N => if N.health = .degraded then stoAdvance (setHealth nsid .ok s) else s
    | none => s)

/-- The oldest read asked of a backing gets its blocks, which enter the cache (R398, R400). -/
def execBackingReadComplete (nsid : Nat) (s : State) : Out :=
  whenEngine s (fun s =>
    match s.sto.cmds.find? (fun p => p.2.ns == nsid && p.2.asked) with
    | some (id, c) =>
      match s.sto.nss.find nsid, c.ranges with
      | some N, (lba, n) :: _ =>
        let bs := blockSize N
        let s := (List.range n).foldl (fun s i =>
          if blockCached s nsid (lba + i) then s
          else (s.copy (.cache nsid) ((lba + i) * bs) (.backing nsid) ((lba + i) * bs) bs).modSto (fun x => { x with
            extents := { ns := nsid, lba := lba + i, n := 1 } :: x.extents })) s
        cacheTrim 8192 (stoAdvance (serveNvmeRead id s))
      | _, _ => s
    | none => s)

/-- Phase 1 reads the journal's sealed entries back in their order (R392, R401): not before the island can unwrap the journal's key. Whether an entry is
uncorrectable is a free value (R399). -/
def execJournalReplay (s : State) : Out :=
  whenEngine s (fun s =>
    if s.sto.replayed ∨ s.fld .secStatus 1 0 ≠ 2 ∨ s.sec.puf = false then s
    else
      let s := s.modSto (fun x => { x with replayed := true, journal := x.journal.keep (fun _ e => e.sealed) })
      stoAdvance (s.sto.journal.foldl (fun s p =>
        let e := p.2
        let (bad, s) := s.draw 1
        match s.sto.nss.find e.ns with
        | none => s.modSto (fun x => { x with journal := x.journal.del p.1 })
        | some N =>
          if bad = 1 then markUnreadable e.ns e.lba e.n (s.modSto (fun x => { x with journal := x.journal.del p.1 }))
          else (applyRange e.ns N e.lba e.n e.data s).emit (.backingCmd e.ns true e.lba e.n)) s))

/-- A subport is owned, its root port not held disabled (R293). -/
def subOwned (s : State) (sub : Nat) : Bool :=
  natBit (s.reg .pciRpActive) (4 * (sub / 4) + 2) && !natBit (s.reg .pciRpActive) (4 * (sub / 4) + 3) && decide (sub < 32 ∧ sub % 4 < subportCount s (sub / 4))

/-- NS_CREATE (R385, R386): the namespace's own fields, then its backing. -/
def nsCreateReq (q : NsReq) (s : State) : Option Reply × State :=
  let bs := if q.lba512 then 512 else 4096
  let bytes := q.capacity.toNat * bs
  if q.nsid = 0 ∨ 1024 < q.nsid then refuseAt 0x6001 0 St.invalidField s
  else if s.sto.nss.has q.nsid then refuseAt 0x6001 0 St.nsExists s
  else if q.capacity = 0 then refuseAt 0x6001 2 St.invalidField s
  else
    let make : Option Reply × State :=
      let N : Nspace := { lba512 := q.lba512, capacity := q.capacity.toNat, kind := q.kind.toNat, persist := q.persistBacking
                          ddrBase := q.ddrBase, subport := q.subport, target := q.target, peer := q.peer }
      let s := if q.kind = 0 then zeroRange (ddrBase + q.ddrBase) bytes s else s
      accept (s.modSto (fun x => { x with nss := x.nss.set q.nsid N }))
    match q.kind.toNat with
    | 0 =>
      let taken : Bool := s.sto.nss.any (fun p => p.2.kind == 0 &&
          decide (p.2.ddrBase < q.ddrBase + bytes ∧ q.ddrBase < p.2.ddrBase + p.2.capacity * blockSize p.2)) ||
        s.slices.any (fun p => match p.2.grant with
          | some g => decide (g.ddrBase * 2 ^ 30 < q.ddrBase + bytes ∧ q.ddrBase < (g.ddrBase + g.ddrLen) * 2 ^ 30)
          | none => false)
      if poolGib * 2 ^ 30 < q.ddrBase + bytes then refuseAt 0x6001 4 St.addrRange s
      else if taken then refuseAt 0x6001 4 St.poolExhausted s
      else make
    | k =>
      if k = 1 ∧ (31 < q.subport ∨ subOwned s q.subport = false) then refuseAt 0x6001 4 St.invalidField s
      else if k = 2 ∧ s.sto.targets.has q.target = false then refuseAt 0x6001 4 St.invalidField s
      else if q.reachable = false then refuseAt 0x6001 4 St.targetUnreachable s
      else if q.backingBytes < bytes then refuseAt 0x6001 2 St.addrRange s
      else if bs < q.backingBlock then refuseAt 0x6001 1 St.backingMismatch s
      else make

def execNsCreate (c : Caller) (q : NsReq) (s : State) : Out :=
  whenOn s (fun s => mbxServe c 0x6001 s (fun _ s => nsCreateReq q s))

/-- A namespace is destroyed: its commands end, its journal entries are written to their backing first, its cache and ranges go (R399). -/
def nsDrop (ns : Nat) (s : State) : State :=
  let s := nsChanged ns s
  let ids := (s.sto.cmds.keep (fun _ c => c.ns == ns)).unzip.1
  let s := ids.foldl (fun s id => ioEnd id St.invalidField s) s
  let s := s.sto.journal.foldl (fun s p => if p.2.ns = ns then destage p.2 s else s) s
  stoAdvance (s.modSto (fun x => { x with
    journal := x.journal.keep (fun _ e => e.ns != ns)
    extents := x.extents.filter (fun e => e.ns != ns)
    nss := x.nss.del ns }))

def execNsDestroy (c : Caller) (nsid : Nat) (s : State) : Out :=
  whenOn s (fun s => mbxServe c 0x6002 s (fun _ s =>
    if s.sto.nss.has nsid = false then refuseAt 0x6002 0 St.invalidField s else accept (nsDrop nsid s)))

/-- A namespace attached to a controller, within what the controller may hold (R385). -/
def execNsAttach (c : Caller) (nsid ctrl : Nat) (s : State) : Out :=
  whenOn s (fun s => mbxServe c 0x6003 s (fun _ s =>
    match s.sto.nss.find nsid, s.nvme ctrl with
    | some N, some k =>
      let held := (s.sto.nss.filter (fun p => p.2.ctrls.contains ctrl)).length
      if N.ctrls.contains ctrl then accept s
      else if nvmeCap s k ≤ held then refuseAt 0x6003 1 (overLimit k.slice) s
      else accept (nsChanged nsid (s.modSto (fun x => { x with nss := x.nss.set nsid { N with ctrls := N.ctrls ++ [ctrl] } })))
    | none, _ => refuseAt 0x6003 0 St.invalidField s
    | _, none => refuseAt 0x6003 1 St.invalidField s))

def execNsDetach (c : Caller) (nsid ctrl : Nat) (s : State) : Out :=
  whenOn s (fun s => mbxServe c 0x6004 s (fun _ s =>
    match s.sto.nss.find nsid with
    | none => refuseAt 0x6004 0 St.invalidField s
    | some N =>
      if N.ctrls.contains ctrl = false then refuseAt 0x6004 1 St.invalidField s
      else
        let ids := (s.sto.cmds.keep (fun _ x => x.ns == nsid && x.ctrl == ctrl && !x.applied)).unzip.1
        accept (nsLeave nsid ctrl (ids.foldl (fun s id => ioEnd id St.invalidField s) s))))

/-- One of 256 target entries (R385, R387). -/
def execTargetRegister (c : Caller) (entry addr : Nat) (s : State) : Out :=
  whenOn s (fun s => mbxServe c 0x6005 s (fun _ s =>
    if 255 < entry then refuseAt 0x6005 0 St.invalidField s
    else accept (s.modSto (fun x => { x with targets := x.targets.set entry addr }))))

/-- A namespace exported to the peers that PF0 names (R387). -/
def execNsExport (c : Caller) (nsid : Nat) (peers : List Nat) (s : State) : Out :=
  whenOn s (fun s => mbxServe c 0x6006 s (fun _ s =>
    match s.sto.nss.find nsid with
    | none => refuseAt 0x6006 0 St.invalidField s
    | some N => accept (s.modSto (fun x => { x with nss := x.nss.set nsid { N with peers := peers } }))))

/-- An accelerator's controller, one per subport, for PF0 or a slice whose mask holds the subport, its queue pairs from the creator's (R382). Its offset in the
window is open. -/
def execAccelCtrlCreate (c : Caller) (sub cplAddr cplData qpairs : Nat) (s : State) : Out :=
  whenOn s (fun s => mbxServe c 0x6007 s (fun _ s =>
    let n := ownerOf c
    let allowed : Bool := n == 0 || (match (s.slice n).grant with
      | some g => g.accelMask.getLsbD sub
      | none => false)
    match s.nvme n with
    | none => refuse St.invalidField s
    | some host =>
      if 31 < sub ∨ subportCount s (sub / 4) ≤ sub % 4 then refuseAt 0x6007 0 St.invalidField s
      else if allowed = false then refuseAt 0x6007 0 St.rangeNotGranted s
      else if s.sto.ctrls.has (accelCtrl + sub) then refuseAt 0x6007 0 St.invalidField s
      else if nvmeGrant s n host < qpairs then refuseAt 0x6007 3 (overLimit n) s
      else
        let (off, s) := s.draw 64
        accept (s.setNvme (accelCtrl + sub) { slice := n, sub := some sub, cplAddr := cplAddr, cplData := cplData, qpairs := qpairs, page := off }) [off]))

end Sys2Proof.Machine
end

