-- ==== Sys2Proof/Machine/Ecc.lean ====
section
/-! DEFINITION. Memory errors that nobody's access finds: the scrubber (R53, R54) and the DDR controller (R265), with the storage cache's part (R398, R399); the
deep target of a domain (R235). -/

namespace Sys2Proof.Machine

open Sys2Proof

/-- The scrubber reads a word: a corrected error counts against its core, an uncorrectable one is found and recorded (R53, R54, R75). -/
def execEccScrubRead (addr : Nat) (res : EccResult) (s : State) : Out :=
  whenOn s (fun s =>
    let word := addr / eccSize addr * eccSize addr
    match res with
    | .ok => s
    | .corrected =>
      let s := { s with arr := { s.arr with memErrors := s.arr.memErrors.set (addr / 0x800000) (s.arr.memErrors.get (addr / 0x800000) 0 + 1) } }
      match arrKind s addr with
      | .cluster cl => pmcAdd cl 0x0B 1 s
      | .core id => correctedError id (pmcAdd (coreCluster id) 0x0B 1 s)
      | _ => s
    | .uncorrectable =>
      if s.arr.eccBad.contains word then s
      else
        let s := eccReport 16 word { s with arr := { s.arr with eccBad := word :: s.arr.eccBad } }
        if ddrBase ≤ word then cacheUncorrectable (word - ddrBase) s else s)

/-- A DDR granule beyond chipkill correction (R265). -/
def execDdrUncorrectable (off : Nat) (s : State) : Out :=
  whenOn s (fun s =>
    if Config.ddrBytes ≤ off then s
    else
      let w := ddrBase + off / 64 * 64
      let s := if s.arr.eccBad.contains w then s else { s with arr := { s.arr with eccBad := w :: s.arr.eccBad } }
      cacheUncorrectable off (eccReport 16 w s))

/-- DEEP_TARGET_SET: a namespace and offset that hold two areas for each roster index (R235). -/
def execDeepTargetSet (c : Caller) (domain nsid offset : Nat) (s : State) : Out :=
  whenOn s (fun s => mbxServe c 0x3007 s (fun _ s => withOwnDom c 0x3007 domain s (fun D s =>
    match s.sto.nss.find nsid with
    | none => refuseAt 0x3007 1 St.invalidField s
    | some N =>
      if N.capacity * blockSize N < offset + 2 * rosterSize s * deepSize D then refuseAt 0x3007 2 St.addrRange s
      else accept (s.setDom domain { D with deepTarget := some (nsid, offset) }))))

end Sys2Proof.Machine
end

