-- ==== Sys2Proof/Machine/VrmtCommands.lean ====
section
/-! DEFINITION. The commands of VRMT: set-up through the mailbox and the command ring (R335, R336), doorbells (R337), work requests (R338), arriving packets,
timers (R350 to R355) and slice reset. -/

namespace Sys2Proof.Machine

open Sys2Proof

def spanOk (s : State) (n sp a len : Nat) : Bool := decide (sp ≤ 2) && decide (a + len ≤ 2 ^ 64) && vInside s n sp a len

/-- VRMT_INIT (R335, R355). -/
def vrmtInitReq (n : Nat) (q : VrmtInitReq) (s : State) : Option Reply × State :=
  let size := 2 ^ q.log2
  let total := limitOf s n (·.vrmtTotal) (2 ^ 22)
  let spaces := [(q.ringSpace, 1), (q.cplSpace, 3), (q.spillSpace, 6)]
  if q.log2 < 6 ∨ 12 < q.log2 then refuseAt 0x4001 4 St.invalidField s
  else match spaces.find? (fun x => decide (2 < x.1)) with
  | some x => refuseAt 0x4001 x.2 St.invalidField s
  | none =>
    if q.spill % 4096 ≠ 0 ∨ q.spillSpace ≠ 0 then refuseAt 0x4001 5 St.invalidField s
    else if spanOk s n q.ringSpace q.ring (64 * size) = false then refuseAt 0x4001 0 St.rangeNotGranted s
    else if spanOk s n q.cplSpace q.cplRing (32 * size) = false then refuseAt 0x4001 2 St.rangeNotGranted s
    else if spanOk s n q.spillSpace q.spill (256 * total) = false then refuseAt 0x4001 5 St.rangeNotGranted s
    else
      let r : VrmtRing := {
        ring := q.ring, ringSp := q.ringSpace, cpl := q.cplRing, cplSp := q.cplSpace, log2 := q.log2, spill := q.spill, spillSp := q.spillSpace }
      accept (s.modVrm (fun v => { v with rings := v.rings.set n r }))

def execVrmtInit (c : Caller) (q : VrmtInitReq) (s : State) : Out :=
  whenOn s (fun s => mbxServe c 0x4001 s (fun _ s => vrmtInitReq (ownerOf c) q s))

/-- OWN_ADDRESS_SET: PF0 sets the VN700's own IP addresses (R368). -/
def execOwnAddressSet (c : Caller) (addrs : List Nat) (s : State) : Out :=
  whenOn s (fun s => mbxServe c 0x4002 s (fun _ s => accept (s.modVrm (fun v => { v with own := addrs }))))

/-- SLICE_QUEUE_SET: a slice's VRMT takes a scheduler queue from 6 to 15 (R377). -/
def execSliceQueueSet (c : Caller) (slice queue : Nat) (s : State) : Out :=
  whenOn s (fun s => mbxServe c 0x4003 s (fun _ s =>
    if sliceLive s slice = false then refuseAt 0x4003 0 St.invalidField s
    else if queue < 6 ∨ 15 < queue then refuseAt 0x4003 1 St.invalidField s
    else accept (s.modNet (fun n => { n with sliceQ := n.sliceQ.set slice queue }))))

/-- A command doorbell (R337). -/
def execVrmtCommandDoorbell (slice : Nat) (v : Word) (s : State) : Out :=
  whenPage slice s (fun s =>
    if pageOpen s slice = false then pageIgnored slice s
    else match s.vrm.rings.find slice with
    | none => pageIgnored slice s
    | some r =>
      let n := 2 ^ r.log2
      if n ≤ v.toNat then pageIgnored slice s
      else s.modVrm (fun x => { x with rings := x.rings.set slice { r with tail := r.head + (v.toNat + n - r.head % n) % n } }))

/-- A command's completion (R336), and the next place of its ring. -/
def vrmtCommandDone (slice tag : Nat) (st : Status) (field r1 r2 : Nat) (s : State) : State :=
  match s.vrm.rings.find slice with
  | none => s
  | some r =>
    let n := 2 ^ r.log2
    let data := leBytes 8 tag ++ leBytes 2 st.toNat ++ leBytes 2 field ++ leBytes 4 r1 ++ leBytes 8 r2 ++ List.replicate 7 0 ++
      leBytes 1 (if r.head / n % 2 = 0 then 1 else 0)
    vRecord slice r.cplSp (r.cpl + 32 * (r.head % n)) data
      (s.modVrm (fun x => { x with rings := x.rings.set slice { r with head := r.head + 1 } }))

/-- A slice's KEY_REVOKE is under way: its ring's next command waits (R335). -/
def revoking (s : State) (slice : Nat) : Bool := s.vrm.keys.any (fun k => k.2.slice == slice && k.2.revoke.isSome)

/-- The result of a command's checks and effect: status, field number at fault, results. -/
abbrev CmdResult := Status × Nat × Nat × Nat

/-- The command at the head of a slice's ring, of code `code`, executes and completes (R335). -/
def vrmtCommand (slice code tag : Nat) (s : State) (f : State → CmdResult × State) : Out :=
  whenOn s (fun s =>
    match s.vrm.rings.find slice with
    | none => s
    | some r =>
      if r.tail ≤ r.head ∨ revoking s slice = true ∨ pageOpen s slice = false ∨ s.frozen = true then s
      else
        let ((st, fld, r1, r2), s) := f s
        let field := if st = St.success ∨ fld = 0xFFFF then 0xFFFF else Config.payloadOffset (0x40000 + code) fld % 65536
        vrmtCommandDone slice tag st field r1 r2 s)

def cmdBad (st : Status) (fld : Nat) (s : State) : CmdResult × State := ((st, fld, 0, 0), s)
def cmdOk (s : State) (r1 : Nat := 0) (r2 : Nat := 0) : CmdResult × State := ((St.success, 0xFFFF, r1, r2), s)

/-- Interrupt entries that a slice may name: its part of the slice table, or PF0's MSI-X vectors (R321, R470). -/
def irqEntries (s : State) (n : Nat) : Nat :=
  if n = 0 then 2048
  else match (s.slice n).grant with
  | some g => g.irqEntries
  | none => 0

/-- CQ_CREATE (R335). A queue number in use is refused with CONN_STATE. -/
def execCqCreate (slice cq ring space log2 irq tag : Nat) (s : State) : Out :=
  vrmtCommand slice 1 tag s (fun s =>
    if 63 < cq then cmdBad St.invalidField 0 s
    else if 2 < space then cmdBad St.invalidField 2 s
    else if log2 < 6 ∨ 20 < log2 then cmdBad St.invalidField 3 s
    else if (s.vrm.cqs.find (slice, cq)).isSome then cmdBad St.connState 0 s
    else if irqEntries s slice ≤ irq then cmdBad St.grantExceeded 4 s
    else if spanOk s slice space ring (32 * 2 ^ log2) = false then cmdBad St.rangeNotGranted 1 s
    else cmdOk (s.modVrm (fun v => { v with cqs := v.cqs.set (slice, cq) { ring := ring, space := space, log2 := log2, irq := irq } })))

/-- CQ_DESTROY, refused while a connection uses the queue (R335). -/
def execCqDestroy (slice cq tag : Nat) (s : State) : Out :=
  vrmtCommand slice 2 tag s (fun s =>
    if (s.vrm.cqs.find (slice, cq)).isNone ∨ s.vrm.conns.any (fun p => p.2.slice == slice && p.2.cq == cq) = true then cmdBad St.connState 0 s
    else cmdOk (s.modVrm (fun v => { v with cqs := v.cqs.del (slice, cq) })))

def connsOf (s : State) (n : Nat) : Nat := (s.vrm.conns.filter (fun p => p.2.slice == n)).length

/-- CONN_CREATE (R333, R335): the lowest connection number not in use. -/
def connCreateCmd (n : Nat) (q : ConnCreateReq) (s : State) : CmdResult × State :=
  let spaces := [(q.sendSpace, 2), (q.recvSpace, 5), (q.doorbellSpace, 8)]
  match spaces.find? (fun x => decide (2 < x.1)) with
  | some x => cmdBad St.invalidField x.2 s
  | none =>
    if q.sendLog2 < 6 ∨ 16 < q.sendLog2 then cmdBad St.invalidField 3 s
    else if q.recvLog2 < 6 ∨ 16 < q.recvLog2 then cmdBad St.invalidField 6 s
    else if (s.vrm.cqs.find (n, q.cq)).isNone then cmdBad St.connState 0 s
    else if limitOf s n (·.vrmtTotal) (2 ^ 22) ≤ connsOf s n ∨ limitOf s n (·.vrmtCached) 65536 = 0 then cmdBad (overLimit n) 0xFFFF s
    else if spanOk s n q.sendSpace q.sendRing (64 * 2 ^ q.sendLog2) = false then cmdBad St.rangeNotGranted 1 s
    else if spanOk s n q.recvSpace q.recvRing (16 * 2 ^ q.recvLog2) = false then cmdBad St.rangeNotGranted 4 s
    else if spanOk s n q.doorbellSpace q.doorbell 8 = false then cmdBad St.rangeNotGranted 7 s
    else match firstBelow (s.vrm.conns.length + s.vrm.closing.length + 1)
        (fun i => !s.vrm.conns.has i && !s.vrm.closing.contains i && decide (i < 2 ^ 22)) with
    | none => cmdBad St.poolExhausted 0xFFFF s
    | some cn =>
      let (room, s) := cacheRoom n s
      let c : Conn := {
        slice := n, cq := q.cq, sendRing := q.sendRing, sendSp := q.sendSpace, sendLog2 := q.sendLog2, recvRing := q.recvRing
        recvSp := q.recvSpace, recvLog2 := q.recvLog2, doorbell := q.doorbell, dbSp := q.doorbellSpace, cached := room, lastUse := s.vrm.clock }
      cmdOk (s.setConn cn c) cn

def execConnCreate (slice : Nat) (q : ConnCreateReq) (tag : Nat) (s : State) : Out :=
  vrmtCommand slice 3 tag s (connCreateCmd slice q)

/-- A connection of the slice that names it. -/
def ownConn (s : State) (n cn : Nat) : Option Conn :=
  match s.conn cn with
  | some c => if c.slice = n then some c else none
  | none => none

/-- CONN_CONNECT (R335, R356). -/
def connConnectCmd (n : Nat) (q : ConnectReq) (s : State) : CmdResult × State :=
  match ownConn s n q.cn with
  | none => cmdBad St.connState 0 s
  | some c =>
    if c.state ≠ .init then cmdBad St.connState 0 s
    else if q.mtu ≠ 4096 ∧ q.mtu ≠ 2048 ∧ q.mtu ≠ 1024 then cmdBad St.invalidField 5 s
    else if q.paths < 1 ∨ 64 < q.paths then cmdBad St.invalidField 6 s
    else if q.keySlot ≠ 0xFFFFFFFF ∧ slotHeld s q.keySlot.toNat n = false then cmdBad St.invalidField 7 s
    else if 10000 < q.timeoutMs then cmdBad St.invalidField 9 s
    else if q.rnrDelay < 1 ∨ 1000 < q.rnrDelay then cmdBad St.invalidField 10 s
    else if 7 < q.rnrRetries then cmdBad St.invalidField 11 s
    else
      let c := { c with
        state := .live
        peerIp := q.peerIp
        peerCn := q.peerCn
        nextPsn := q.sendPsn.toNat
        txCum := q.sendPsn.toNat
        rxNext := q.recvPsn.toNat
        mtu := mtuOf s
        peerMtu := q.mtu
        paths := List.replicate q.paths {}
        slot := if q.keySlot = 0xFFFFFFFF then none else some q.keySlot.toNat
        dir := q.dir
        timeoutMs := if q.timeoutMs = 0 then 200 else q.timeoutMs
        rnrDelay := q.rnrDelay
        rnrTries := q.rnrRetries
        rate := ((s.fld .vrmCcCfg 31 24 * 100 : Nat) : Rat)
        gLog2 := s.fld .vrmCcCfg 15 12 }
      cmdOk (s.setConn q.cn c)

def execConnConnect (slice : Nat) (q : ConnectReq) (tag : Nat) (s : State) : Out :=
  vrmtCommand slice 4 tag s (connConnectCmd slice q)

/-- CONN_DESTROY (R334). -/
def execConnDestroy (slice cn tag : Nat) (s : State) : Out :=
  vrmtCommand slice 5 tag s (fun s =>
    match ownConn s slice cn with
    | none => cmdBad St.connState 0 s
    | some _ => cmdOk (closeConn cn true s))

/-- KEY_REGISTER (R335, R344): the lowest index of the table not in use, its tag one above its last, skipping 0. -/
def keyRegisterCmd (n space : Nat) (rights : BitVec 2) (s : State) : CmdResult × State :=
  let live (k : VKey) : Bool := k.state != .dead
  if 2 < space then cmdBad St.invalidField 0 s
  else if 64 ≤ (s.vrm.keys.filter (fun k => k.2.slice == n && live k.2)).length then cmdBad St.grantExceeded 0xFFFF s
  else match firstBelow (min 65536 (s.vrm.keys.length + 1)) (fun i => match s.vrm.keys.find i with
      | some k => !live k
      | none => true) with
  | none => cmdBad St.poolExhausted 0xFFFF s
  | some i =>
    let last := match s.vrm.keys.find i with
      | some k => k.tag
      | none => 0
    let tag := if last = 65535 then 1 else last + 1
    cmdOk (s.modVrm (fun v => { v with keys := v.keys.set i { tag := tag, slice := n, space := space, rights := rights } })) (i * 65536 + tag)

def execKeyRegister (slice space : Nat) (rights : BitVec 2) (tag : Nat) (s : State) : Out :=
  vrmtCommand slice 6 tag s (keyRegisterCmd slice space rights)

def State.setKey (s : State) (i : Nat) (k : VKey) : State := s.modVrm (fun v => { v with keys := v.keys.set i k })

/-- KEY_REVOKE moves a key to DRAINING; its completion is KEY_DEAD's (R346). -/
def execKeyRevoke (slice : Nat) (key : BitVec 32) (tag : Nat) (s : State) : Out :=
  whenOn s (fun s =>
    match s.vrm.rings.find slice with
    | none => s
    | some r =>
      if r.tail ≤ r.head ∨ revoking s slice = true ∨ pageOpen s slice = false ∨ s.frozen = true then s
      else match s.vrm.keys.find (key.toNat / 65536) with
      | some k =>
        if k.slice = slice ∧ k.tag = key.toNat % 65536 ∧ k.state = .live then
          s.setKey (key.toNat / 65536) { k with state := .draining, revoke := some (tag, 0, 0) }
        else vrmtCommandDone slice tag St.connState (Config.payloadOffset 0x40007 0 % 65536) 0 0 s
      | none => vrmtCommandDone slice tag St.connState (Config.payloadOffset 0x40007 0 % 65536) 0 0 s)

/-- The messages admitted under key `i` that are not complete: connection and message. -/
def openUnder (s : State) (i : Nat) : List (Nat × RxMsg) :=
  s.vrm.conns.flatMap (fun p => (p.2.rx.filter (fun x => x.2.key == some i && x.2.state == .open && (x.2.kind == 3 || !x.2.whole))).map (fun x => (p.1, x.2)))

/-- Each admitted message under a key that is not complete is aborted with KEY_REVOKED (R346). -/
def drainAbort (i : Nat) (s : State) : State :=
  match s.vrm.keys.find i with
  | none => s
  | some k =>
    let l := openUnder s i
    let bytes := sumOf (l.map (fun x => x.2.placed))
    let s := l.foldl (fun s x => rxSettle x.1 0 none false (refuseMsg x.1 x.2 St.keyRevoked 0 s)) s
    match k.revoke with
    | some (t, m, b) => s.setKey i { k with revoke := some (t, m + l.length, b + bytes) }
    | none => s

/-- 2 ms after the engine took KEY_REVOKE (R346). -/
def execKeyDrainLimit (key : BitVec 32) (s : State) : Out :=
  whenOn s (fun s =>
    let i := key.toNat / 65536
    match s.vrm.keys.find i with
    | some k => if k.state = .draining ∧ k.tag = key.toNat % 65536 then drainAbort i s else s
    | none => s)

/-- Once no admitted message under it is left, the key is DEAD and its KEY_REVOKE completes (R346). -/
def execKeyDead (key : BitVec 32) (s : State) : Out :=
  whenOn s (fun s =>
    let i := key.toNat / 65536
    match s.vrm.keys.find i with
    | some k =>
      if k.state = .draining ∧ k.tag = key.toNat % 65536 ∧ (openUnder s i).isEmpty = true then
        let s := s.setKey i { k with state := .dead, revoke := none }
        match k.revoke with
        | some (t, m, b) => vrmtCommandDone k.slice t St.success 0xFFFF m b s
        | none => s
      else s
    | none => s)

/-- A connection doorbell (R337). -/
def execVrmtConnDoorbell (slice : Nat) (v : Word) (s : State) : Out :=
  whenPage slice s (fun s =>
    let w := v.toNat
    let cn := natBits w 21 0
    if pageOpen s slice = false ∨ natBits w 29 28 = 0 ∨ natBits w 31 30 ≠ 0 ∨ natBits w 27 22 ≠ 0 ∨ (ownConn s slice cn).isNone = true then
      pageIgnored slice s
    else withCtx cn (.doorbell (natBit w 28) (natBit w 29)) s)

/-- What waited for room in a completion queue goes on (R341). -/
def cqRoom (slice cq : Nat) (s : State) : State :=
  s.vrm.conns.foldl (fun s p =>
    if p.2.slice = slice ∧ p.2.cq = cq then rxSettle p.1 0 none false (wrDone p.1 (drainHeld p.1 s)) else s) s

/-- A completion-queue doorbell (R337). -/
def execVrmtCqDoorbell (slice : Nat) (v : Word) (s : State) : Out :=
  whenPage slice s (fun s =>
    let w := v.toNat
    let cq := natBits w 30 25
    if pageOpen s slice = false ∨ natBits w 24 20 ≠ 0 then pageIgnored slice s
    else match s.vrm.cqs.find (slice, cq) with
    | none => pageIgnored slice s
    | some q =>
      if 2 ^ q.log2 ≤ natBits w 19 0 then pageIgnored slice s
      else
        let q := { q with head := natBits w 19 0, armed := q.armed || natBit w 31 }
        cqRoom slice cq (s.modVrm (fun x => { x with cqs := x.cqs.set (slice, cq) q })))

/-- The status of a work request's checks, in the order of R339 and R357, or none. -/
def wrCheck (s : State) (c : Conn) (b : List Byte) : Option Status :=
  let op := fieldLE b 0 1
  let fl := fieldLE b 1 1
  let len := fieldLE b 4 4
  let sp := natBits fl 4 3
  let loc := fieldLE b 8 8
  let rem := fieldLE b 16 8
  let conv := natBit fl 2
  let sel := fieldLE b 32 4
  let n := fieldLE b 36 4
  let remote : Bool := op == 1 || op == 2 || op == 5
  let localFmt := if op = 5 then natBits sel 15 8 else natBits sel 7 0
  let wire := if op = 5 then natBits sel 7 0 else natBits sel 15 8
  let msgLen := if conv then fmtBytes wire n else len
  if op = 0 ∨ 5 < op ∨ natBits fl 7 5 ≠ 0 ∨ fieldLE b 2 2 ≠ 0 ∨ fieldLE b 40 16 ≠ 0 ∨ 2 < sp ∨ (conv ∧ selectorOk sel = false) then
    some St.invalidField
  else if 2 ^ 31 < len then some St.lenTooLarge
  else if loc + len ≤ 2 ^ 64 ∧ vInside s c.slice sp loc len = false then some St.rangeNotGranted
  else if 2 ^ 64 < loc + len ∨ (remote = true ∧ 2 ^ 64 < rem + msgLen) then some St.addrRange
  else if conv ∧ fmtBytes localFmt n ≠ len then some St.invalidField
  else if conv ∧ 2 ^ 31 < msgLen then some St.lenTooLarge
  else if len = 0 then none
  else vLink s c.slice sp loc

/-- The source of a message holds uncorrectable data (R358). -/
def sourceBad (s : State) (n sp a len : Nat) : Bool :=
  match vAddr s n sp a with
  | (.array, x) => (eccHit s x len).isSome
  | _ => false

/-- A work request starts its message, or ends with the status of its checks (R338 to R343, R357, R358). -/
def startWr (cn : Nat) (c : Conn) (b : List Byte) (s : State) : State :=
  let op := fieldLE b 0 1
  let fl := fieldLE b 1 1
  let len := fieldLE b 4 4
  let sp := natBits fl 4 3
  let loc := fieldLE b 8 8
  let sel := fieldLE b 32 4
  let n := fieldLE b 36 4
  let conv := natBit fl 2
  let w : Wr := {
    tag := fieldLE b 56 8, signal := natBit fl 0, isRead := op == 5, msn := c.nextMsn, len := len, space := sp, loc := loc
    selector := if conv then some (sel, n) else none }
  match wrCheck s c b with
  | some st =>
    wrDone cn (s.setConn cn { c with sendHead := c.sendHead + 1, wrs := c.wrs ++ [{ w with msn := 2 ^ 64, result := some (st, 0, 0) }] })
  | none =>
    let c := { c with sendHead := c.sendHead + 1, nextMsn := c.nextMsn + 1 }
    let key : BitVec 32 := BitVec.ofNat 32 (fieldLE b 24 4)
    let t : TxMsg := { msn := w.msn, kind := 3, first := 0, count := 1, data := [], len := len, key := key, base := fieldLE b 16 8 }
    if op = 5 then
      startMsg cn { t with len := if conv then fmtBytes (natBits sel 7 0) n else len } (s.setConn cn { c with wrs := c.wrs ++ [w] })
    else if sourceBad s c.slice sp loc len then
      let s := s.setConn cn { c with wrs := c.wrs ++ [{ w with result := some (St.sourceDataError, 0, 0) }] }
      wrDone cn (startMsg cn { t with kind := 7, len := 0, status := St.sourceDataError } s)
    else
      let (d, s) := vRead c.slice sp loc len s
      let (d, cf, s) := if conv then convertBuf sel n d s else (d, 0, s)
      let isSend : Bool := op == 3 || op == 4
      let s := s.setConn cn { c with
        wrs := c.wrs ++ [{ w with len := d.length, flags := cf }]
        sendSsn := if isSend then c.sendSsn + 1 else c.sendSsn }
      startMsg cn { t with
        kind := if isSend then 2 else 1
        data := d
        len := d.length
        key := if isSend then BitVec.ofNat 32 c.sendSsn else key
        base := if isSend then 0 else t.base
        imm := if op = 2 ∨ op = 4 then some (BitVec.ofNat 32 (fieldLE b 28 4)) else none } s

/-- The engine takes the work request at the head of a LIVE connection's send ring where its opcode is `op`, or reserved; a fence holds it behind the
connection's READs (R338, R343). -/
def wrRow (cn op : Nat) (s : State) : Out :=
  whenOn s (fun s =>
    withConn cn s (fun c s =>
      if c.state ≠ .live ∨ c.cached = false ∨ c.sendTail ≤ c.sendHead ∨ s.frozen = true ∨ pageOpen s c.slice = false ∨
          (vLink s c.slice c.sendSp c.sendRing).isSome = true then s
      else
        let (b, s) := vRead c.slice c.sendSp (c.sendRing + 64 * (c.sendHead % 2 ^ c.sendLog2)) 64 s
        let o := fieldLE b 0 1
        let fenced : Bool := natBit (fieldLE b 1 1) 1 && c.wrs.any (fun (w : Wr) => w.isRead && w.result.isNone)
        if (o = op ∨ o = 0 ∨ 5 < o) ∧ fenced = false then startWr cn c b s else s))

def execWrWrite (cn : Nat) (s : State) : Out := wrRow cn 1 s
def execWrWriteImm (cn : Nat) (s : State) : Out := wrRow cn 2 s
def execWrSend (cn : Nat) (s : State) : Out := wrRow cn 3 s
def execWrSendImm (cn : Nat) (s : State) : Out := wrRow cn 4 s
def execWrRead (cn : Nat) (s : State) : Out := wrRow cn 5 s

/-- A data packet arrives (R332). -/
def dataRow (kind : Nat) (p : Pkt) (s : State) : Out :=
  whenOn s (fun s =>
    vReceive p.dstCn p.srcIp (p.checkOk && p.version == 1) p.encrypted p.path.toNat (some p.msn.toNat) s
      (fun cn _ s => withCtx cn (.packet kind p) s))

def execVrmtWritePacket (p : Pkt) (s : State) : Out := dataRow 1 p s
def execVrmtSendPacket (p : Pkt) (s : State) : Out := dataRow 2 p s
def execVrmtReadReq (p : Pkt) (s : State) : Out := dataRow 3 p s
def execVrmtReadResp (p : Pkt) (s : State) : Out := dataRow 4 p s

def execVrmtMsgAbort (p : Pkt) (status : Status) (s : State) : Out :=
  whenOn s (fun s =>
    vReceive p.dstCn p.srcIp (p.checkOk && p.version == 1) p.encrypted p.path.toNat (some p.msn.toNat) s
      (fun cn _ s => withCtx cn (.abort p status) s))

def execVrmtAck (p : AckPkt) (s : State) : Out :=
  whenOn s (fun s => vReceive p.dstCn p.srcIp p.checkOk p.encrypted 0 none s (fun cn _ s => withCtx cn (.ack p) s))

def execVrmtNak (p : NakPkt) (s : State) : Out :=
  whenOn s (fun s => vReceive p.dstCn p.srcIp p.checkOk p.encrypted 0 none s (fun cn _ s => withCtx cn (.nak p) s))

/-- A timer of a LIVE connection, while VRMT is not frozen (R49). -/
def connTimer (cn : Nat) (s : State) (f : Conn → State → State) : Out :=
  whenOn s (fun s => withConn cn s (fun c s => if c.state = .live ∧ s.frozen = false then f c s else s))

/-- 2 µs after the first packet received and not yet acknowledged (R350). -/
def execAckDelayTimer (cn : Nat) (s : State) : Out :=
  connTimer cn s (fun c s => if c.ackOwed then sendAck cn c.ackPath none s else s)

/-- A packet not covered by an ACK within 20 µs is sent again, and its path counts a timeout; a second in succession removes the path, unless it is the
connection's last (R351). -/
def execRetransmitTimeout (cn : Nat) (psn : BitVec 32) (s : State) : Out :=
  connTimer cn s (fun c s =>
    match c.flying.find? (fun (f : Flying) => f.psn % 2 ^ 32 == psn.toNat) with
    | none => s
    | some f =>
      let p := c.paths.getD f.path {}
      let others : Bool := (List.range c.paths.length).any (fun i => i != f.path && !(c.paths.getD i {}).removed)
      let remove : Bool := decide (2 ≤ p.timeouts + 1) && others && !p.removed
      let s := s.setConn cn { c with paths := c.paths.set f.path { timeouts := if remove then 0 else p.timeouts + 1, removed := p.removed || remove } }
      let s := if remove then s.bump .vrmPathsRemoved else s
      resend cn (fun g => g.psn == f.psn) s)

/-- A removed path returns after 10 ms (R351). -/
def execPathRestore (cn path : Nat) (s : State) : Out :=
  whenOn s (fun s => s.modConn cn (fun c => { c with paths := c.paths.set path {} }))

/-- A message admitted and not complete for 80 µs: NAK kind 0x01 names its missing PSNs (R352). -/
def execMessageIncompleteNak (cn : Nat) (msn : BitVec 32) (s : State) : Out :=
  connTimer cn s (fun c s =>
    match c.rx.find (c.rxDone + diff32 msn.toNat c.rxDone) with
    | none => s
    | some r =>
      let miss := ((List.range (min r.count 2048)).map (fun i => r.first + i)).filter (fun p => decide (c.rxNext ≤ p) && !c.rxGot.contains p)
      if r.state ≠ .open ∨ miss.isEmpty = true then s
      else (sendNak cn 0 r.msn St.success 1 (miss.take 256) s).bump .vrmSnakSent)

/-- No progress of the oldest unacknowledged packet within the connection's timeout (R353). -/
def execConnPeerTimeout (cn : Nat) (s : State) : Out :=
  connTimer cn s (fun c s =>
    match c.flying with
    | [] => s
    | f :: _ =>
      let old := c.flying.foldl (fun (b : Flying) g => if g.psn < b.psn then g else b) f
      connError cn (s.setConn cn (wrResult c old.msn St.peerTimeout 0 0)))

/-- After rnr_delay the message is sent again (R340). -/
def execRnrRetry (cn : Nat) (msn : BitVec 32) (s : State) : Out :=
  connTimer cn s (fun c s =>
    match c.tx.find? (fun (t : TxMsg) => t.rnrWait && t.msn % 2 ^ 32 == msn.toNat) with
    | none => s
    | some t =>
      let s := s.setConn cn { c with tx := c.tx.map (fun (x : TxMsg) => if x.msn = t.msn then { x with rnrWait := false } else x) }
      pumpAll cn (resend cn (fun f => f.msn == t.msn) s))

/-- Every t_cut: the rate is cut if a mark arrived in the interval (R354). -/
def execCcCutTimer (cn : Nat) (s : State) : Out :=
  connTimer cn s (fun c s =>
    let floor : Rat := ((s.fld .vrmCcRate 15 0 : Nat) : Rat)
    let c := { c with gLog2 := s.fld .vrmCcCfg 15 12 }
    if c.markCut then s.setConn cn { c with rate := max floor (c.rate * (1 - c.alpha / 2)), steps := 0, markCut := false, markInc := false }
    else s.setConn cn c)

/-- Every t_inc: the rate rises if no mark arrived since the last cut or increase (R354). -/
def execCcIncreaseTimer (cn : Nat) (s : State) : Out :=
  connTimer cn s (fun c s =>
    let g := s.fld .vrmCcCfg 15 12
    let steps := c.steps + 1
    let top : Rat := ((s.fld .vrmCcCfg 31 24 * 100 : Nat) : Rat)
    let add : Rat := ((s.fld .vrmCcRate 31 16 * (if s.fld .vrmCcCfg 11 8 < steps then 4 else 1) : Nat) : Rat)
    if c.markInc then s.setConn cn { c with gLog2 := g }
    else s.setConn cn { c with
      gLog2 := g
      alpha := c.alpha * (1 - 1 / ((2 ^ g : Nat) : Rat))
      steps := steps
      rate := min top (c.rate + add) })

def execContextFetchComplete (cn : Nat) (ok : Bool) (s : State) : Out := whenOn s (ctxFetched cn ok)

/-- A connection number may be given out again (R333). -/
def execConnectionNumberFree (cn : Nat) (s : State) : Out :=
  whenOn s (fun s => s.modVrm (fun v => { v with closing := v.closing.filter (· != cn) }))

/-- A slice's VRMT ends: its keys are DEAD, its connections closed; with `all` its queues and command ring go too, and otherwise their indices return to 0
(R323, R324). -/
def vrmtSliceEnd (n : Nat) (all : Bool) (s : State) : State :=
  let s := (s.vrm.conns.filter (fun p => p.2.slice == n)).foldl (fun s p => closeConn p.1 false s) s
  s.modVrm (fun v => { v with
    keys := v.keys.map (fun _ k => if k.slice = n then { k with state := .dead, revoke := none } else k)
    cqs := if all then v.cqs.keep (fun k _ => k.1 != n)
      else v.cqs.map (fun k q => if k.1 = n then { q with head := 0, count := 0, armed := false } else q)
    rings := if all then v.rings.del n else v.rings.map (fun k r => if k = n then { r with head := 0, tail := 0 } else r) })

/-- Every connection on a zeroized slot enters ERROR with CIPHER_SPENT (R436). -/
def slotConnsSpent (k : Nat) (s : State) : State :=
  s.vrm.conns.foldl (fun s p =>
    if p.2.slot = some k ∧ p.2.state = .live then
      connError p.1 (s.modConn p.1 (fun c => match c.wrs.find? (fun (w : Wr) => w.result.isNone) with
        | some w => wrResult c w.msn St.cipherSpent 0 0
        | none => c))
    else s) s

end Sys2Proof.Machine
end

