-- ==== Sys2Proof/Machine/SliceCommands.lean ====
section
/-! DEFINITION. Slices made, reset and destroyed (R313 to R326), host windows (R322), and the slice interrupt table (R471). -/

namespace Sys2Proof.Machine

open Sys2Proof

/-- What a mailbox event reports, where no status names it: the end of a slice reset, an alert bit, a removal, a service's end (assumption 31). -/
abbrev evSliceReset : Nat := 0x8000
abbrev evAlert : Nat := 0xD000

/-- A request that has not reached its commit point completes with RETRY (R267, R300, R325). -/
def mbxRetry (c : Caller) (s : State) : State :=
  let m := s.mailbox c
  if m.busy ∧ ¬ m.committed then mbxReply c { status := St.retry } s else s

/-- The pending interrupts of a function or slice are discarded, its entries kept (R324). -/
def irqDiscard (c : Caller) (s : State) : State :=
  { s with irq := { s.irq with entries := s.irq.entries.map (fun k e => if k.1 = c then { e with pending := false, acc := 0 } else e) } }

/-- What a reset does to the units that a slice drives, slice 0 among them (R151, R323, R324, R401, R46). -/
def sliceUnits (n : Nat) (s : State) : State :=
  let c := ownerCaller n
  let s := (s.work.parts.filter (fun p => p.2.owner == n)).foldl (fun s p => squashPart p.1 s) s
  let s := { s with pci := { s.pci with
    reads := s.pci.reads.map (fun r => if r.owner = c then { r with discard := true } else r)
    held := s.pci.held.filter (fun h => h.1 != c) } }
  let s := nvmeReset n s
  let s := secSliceClear n false (vrmtSliceEnd n false s)
  cmpRelease (.caller c) false (irqDiscard c s)

/-- A slice's reset begins (R323). -/
def sliceResetStart (n : Nat) (s : State) : State :=
  let s := s.setSlice n { s.slice n with busy := true }
  let s := sliceUnits n s
  mbxForget (.slice n) (mbxRetry (.slice n) s)

/-- The reads of an owner that are still outstanding are given up, their tags quarantined (R300, R304, R323). -/
def quarantineReads (p : BusRead → Bool) (s : State) : State :=
  { s with pci := { s.pci with
    quarant := s.pci.quarant ++ (s.pci.reads.filter p).map (fun r => (r.link, r.tag))
    reads := s.pci.reads.filter (fun r => !p r) } }

/-- A slice's reset is over: the doorbells are taken again, and those that waited for it hear of it (R323, R325). -/
def sliceResetEnd (n : Nat) (s : State) : State :=
  let S := s.slice n
  let s := s.setSlice n { S with busy := false, waiters := if S.destroying then S.waiters else [] }
  if S.destroying then s else S.waiters.foldl (fun s c => mbxReply c {} s) s

/-- The DDR that a slice creation may take: below the general reserve and outside every slice's allocation and RAM namespace. -/
def ddrFree (s : State) (base len : Nat) : Bool :=
  let meets (lo n : Nat) : Bool := decide (lo < (base + len) * 2 ^ 30 ∧ base * 2 ^ 30 < lo + n)
  len == 0 || (decide (base + len ≤ poolGib) &&
    !s.slices.any (fun p => match p.2.grant with
      | some g => meets (g.ddrBase * 2 ^ 30) (g.ddrLen * 2 ^ 30)
      | none => false) &&
    !s.sto.nss.any (fun p => p.2.kind == 0 && meets p.2.ddrBase (p.2.capacity * blockSize p.2)) &&
    decide ((grantSum s (·.ddrLen) + len) * 16384 + chargedTo s 0 ≤ poolGib * 16384))

/-- What slice 0 itself holds of the VRMT contexts, the queue pairs and the key slots. -/
def ownQpairs (s : State) : Nat :=
  match s.sto.ctrls.find 0 with
  | some c => if c.sub.isSome then c.qpairs else c.sqs.length - 1
  | none => 0

/-- The checks of a creation: the field's number in the table of R316 and the status (R315 to R317). -/
def sliceCheck (s : State) (q : SliceReq) : Option (Nat × Status) :=
  let cap (i v m : Nat) : Option (Nat × Status) := if m < v then some (i, St.lenTooLarge) else none
  let pool (i used v m : Nat) : Option (Nat × Status) := if m < used + v then some (i, St.poolExhausted) else none
  let bad := if q.vrmtTotal < q.vrmtCached then some (3, St.invalidField) else none
  let taken := if s.slices.any (fun p => p.1 != 0 && p.2.parent == q.parent && p.2.pasid == q.pasid.toNat) = true then some (1, St.sliceExists) else none
  let c0 := connsOf s 0
  cap 2 q.vrmtCached 65536 <|> cap 3 q.vrmtTotal 4194304 <|> bad <|> cap 4 q.nvmeQpairs 1024 <|> cap 5 q.namespaces 1024 <|>
    cap 6 q.keySlots 65536 <|> cap 7 q.irqEntries 2048 <|> cap 8 q.ddrLen (Config.ddrBytes / 2 ^ 30) <|> cap 9 q.clusters 16 <|>
    cap 10 q.silt 192 <|> cap 11 q.domains 16 <|> taken <|>
    pool 2 (grantSum s (·.vrmtCached) + min c0 65536) q.vrmtCached 65536 <|>
    pool 3 (grantSum s (·.vrmtTotal) + c0) q.vrmtTotal 4194304 <|>
    pool 4 (grantSum s (·.nvmeQpairs) + ownQpairs s) q.nvmeQpairs 4096 <|>
    pool 6 (grantSum s (·.keySlots) + (slotsOf s 0).length) q.keySlots 63488 <|>
    pool 7 (grantSum s (·.irqEntries)) q.irqEntries 65536 <|>
    (if ddrFree s q.ddrBase q.ddrLen then none else some (8, St.poolExhausted)) <|>
    pool 9 (grantSum s (·.clusters) + heldClusters s 0) q.clusters 16 <|>
    pool 10 (grantSum s (·.silt) + heldSilt s 0) q.silt 192 <|>
    pool 11 (grantSum s (·.domains) + heldDomains s 0) q.domains 64

/-- The lowest free slice number (R315). -/
def freeSlice (s : State) : Option Nat := (firstBelow 4095 (fun i => !s.slices.has (i + 1))).map (· + 1)

def sliceCreateReq (q : SliceReq) (s : State) : Option Reply × State :=
  match sliceCheck s q, freeSlice s with
  | some (i, st), _ => refuseAt 0x8001 i st s
  | none, none => refuse St.poolExhausted s
  | none, some n =>
    let s := s.setSlice n { parent := q.parent, pasid := q.pasid.toNat, grant := some q }
    accept (((s.clearReg .slcStatus n).clearReg .slcDbIgnored n).clearReg .slcResets n) [n]

/-- SLICE_CREATE (R313 to R317). -/
def execSliceCreate (c : Caller) (q : SliceReq) (s : State) : Out :=
  whenOn s (fun s => mbxServe c 0x8001 s (fun _ s => sliceCreateReq q s))

/-- A domain of the slice is armed. -/
def sliceArmed (s : State) (n : Nat) : List Nat := (s.doms.filter (fun p => p.2.owner == n && isArmed s p.1)).unzip.1

/-- SLICE_DESTROY up to its reset (R326). The reply comes with SLICE_DESTROY_COMPLETE. -/
def sliceDestroyReq (c : Caller) (n : Nat) (force : Bool) (s : State) : Option Reply × State :=
  if n = 0 ∨ s.slices.has n = false then refuseAt 0x8002 0 St.invalidField s
  else if sliceArmed s n ≠ [] ∧ force = false then refuse St.sliceBusy s
  else
    let s := (sliceArmed s n).foldl (fun s d => cadCtlWrite d (Nat.land (s.reg .cadDomainCtl d) 0xFFFFFFFE) s) s
    let S := s.slice n
    let s := s.setSlice n { S with destroying := true, waiters := S.waiters ++ [c] }
    (none, if S.busy then s else sliceResetStart n s)

def execSliceDestroy (c : Caller) (n : Nat) (force : Bool) (s : State) : Out :=
  whenOn s (fun s => mbxServe c 0x8002 s (fun _ s => sliceDestroyReq c n force s))

/-- Destruction's end (R326): partitions, domains, interrupt entries, DDR, grants and number. -/
def sliceGone (n : Nat) (s : State) : State :=
  let S := s.slice n
  let s := (s.work.parts.filter (fun p => p.2.owner == n)).foldl (fun s p => destroyPart p.1 s) s
  let s := (s.doms.filter (fun p => p.2.owner == n)).foldl (fun s p => domainDrop p.1 s) s
  let s := { s with irq := { s.irq with entries := s.irq.entries.keep (fun k _ => k.1 != .slice n) } }
  let s := match S.grant with
    | some g => zeroRange (ddrBase + g.ddrBase * 2 ^ 30) (g.ddrLen * 2 ^ 30) s
    | none => s
  let s := secSliceClear n true (vrmtSliceEnd n true (nvmeGone n s))
  let s := cmpRelease (.caller (.slice n)) true s
  let s := { s with
    slices := s.slices.del n
    windows := s.windows.filter (fun w => w.1 != n)
    mbx := s.mbx.del (.slice n) }
  S.waiters.foldl (fun s c => mbxReply c {} s) s

def execSliceDestroyComplete (n : Nat) (s : State) : Out :=
  whenOn s (fun s =>
    let S := s.slice n
    if S.destroying ∧ ¬ S.busy then sliceGone n s else s)

/-- SLICE_RESET through PF0's mailbox (R323, R325). -/
def sliceResetReq (c : Caller) (n : Nat) (s : State) : Option Reply × State :=
  if n = 0 ∨ s.slices.has n = false then refuseAt 0x8003 0 St.invalidField s
  else
    let S := s.slice n
    let s := s.setSlice n { S with waiters := S.waiters ++ [c] }
    (none, if S.busy then s else sliceResetStart n s)

def execSliceReset (c : Caller) (n : Nat) (s : State) : Out :=
  whenOn s (fun s => mbxServe c 0x8003 s (fun _ s => sliceResetReq c n s))

/-- A write of SLC_RESET in a slice's own page (R313, R320, R323, R325). -/
def execSlcReset (n : Nat) (v : Word) (s : State) : Out :=
  whenPage n s (fun s =>
    if pageOpen s n = false then pageIgnored n s
    else if n = 0 ∨ v ≠ 1 then s
    else sliceResetStart n s)

/-- reset_busy clears and the completion is reported (R323). -/
def execSliceResetComplete (n : Nat) (s : State) : Out :=
  whenOn s (fun s =>
    if (s.slice n).busy ∧ n ≠ 0 then
      let s := quarantineReads (fun r => r.owner == .slice n) s
      let s := (s.setFld .slcStatus 31 16 0 n).bump .slcResets n
      mbxEvent .pf0 evSliceReset n (sliceResetEnd n s)
    else s)

/-- An interrupt entry's binding as the table holds it: work rings and domains by their handles become the unit they name; none where the owner does not hold
the source (R471). -/
def bindSource (s : State) (c : Caller) (b : IrqSource) : Option IrqSource :=
  let S := s.slice (callerNum c)
  match b with
  | .workRing h j =>
    match (if c = .pf1 then none else S.parts.find h) with
    | some pn =>
      match s.part pn with
      | some P => if j < P.rings.length then some (.workRing pn j) else none
      | none => none
    | none => none
  | .ckptDone h => (if c = .pf1 then none else S.doms.find h).map .ckptDone
  | .recoveryDone h => (if c = .pf1 then none else S.doms.find h).map .recoveryDone
  | .keyLow => if c = .pf1 then none else some .keyLow
  | .ftLock => if c = .pf0 then some .ftLock else none
  | .mailbox => some .mailbox
  | _ => none

/-- The entry as IRQ_ENTRY_SET writes it whole; of an MSI-X vector only interval, count and bindings are taken (R471). A source steered to it is steered nowhere
else. -/
def irqEntryReq (q : IrqEntryReq) (s : State) : Option Reply × State :=
  let o := q.owner
  let live : Bool := match o with
    | .slice n => n != 0 && sliceLive s n
    | _ => true
  let limit := match o with
    | .pf0 => 2048
    | .pf1 => 64
    | .slice n => irqEntries s n
  let l := q.bindings.map (bindSource s o)
  if live = false then refuseAt 0x8004 0 St.invalidField s
  else if (match o with
      | .slice n => (s.slice n).busy
      | _ => false) = true then refuse St.retry s
  else if limit ≤ q.index then refuseAt 0x8004 1 St.grantExceeded s
  else if 8 < q.bindings.length then refuseAt 0x8004 3 St.lenTooLarge s
  else if (match o with
      | .slice _ => q.address % 4 != 0
      | _ => false) = true then refuseAt 0x8004 2 St.invalidField s
  else if l.any Option.isNone then refuseAt 0x8004 3 St.invalidField s
  else
    let bs := l.filterMap id
    let e := s.irqEntry o q.index
    let e := { e with interval := q.interval.toNat, count := q.count.toNat, bindings := bs }
    let e := match o with
      | .slice _ => { e with address := q.address, data := q.data.toNat, mask := q.mask, valid := q.valid }
      | _ => e
    let t := s.irq.entries.map (fun k x => if k.1 = o then { x with bindings := x.bindings.filter (fun b => !bs.contains b) } else x)
    let s := { s with irq := { s.irq with entries := t.set (o, q.index) e } }
    accept (if (e.pending && !e.mask) = true then irqSend o q.index s else s)

def execIrqEntrySet (c : Caller) (q : IrqEntryReq) (s : State) : Out :=
  whenOn s (fun s => mbxServe c 0x8004 s (fun _ s => irqEntryReq q s))

/-- A host window is mapped at its array range (R58, R322). -/
def hostWindowReq (c : Caller) (q : HostWindowReq) (s : State) : Option Reply × State :=
  let n := ownerOf c
  if (s.slice n).busy then refuse St.retry s
  else if q.len = 0 then refuseAt 0x7001 2 St.invalidField s
  else if q.array < 0x040000000000 ∨ 0x050000000000 < q.array + q.len then refuseAt 0x7001 0 St.addrRange s
  else if 2 ^ 64 < q.host + q.len then refuseAt 0x7001 1 St.addrRange s
  else if s.windows.any (fun w => decide (w.2.1 < q.array + q.len ∧ q.array < w.2.1 + w.2.2.2)) then refuseAt 0x7001 0 St.addrRange s
  else accept { s with windows := s.windows ++ [(n, q.array, q.host, q.len)] }

def execHostWindowMap (c : Caller) (q : HostWindowReq) (s : State) : Out :=
  whenOn s (fun s => mbxServe c 0x7001 s (fun _ s => hostWindowReq c q s))

/-- The window that begins at an array address is unmapped by its owner. -/
def execHostWindowUnmap (c : Caller) (array : Nat) (s : State) : Out :=
  whenOn s (fun s => mbxServe c 0x7002 s (fun _ s =>
    let n := ownerOf c
    if (s.slice n).busy then refuse St.retry s
    else if s.windows.any (fun w => w.1 == n && w.2.1 == array) then
      accept { s with windows := s.windows.filter (fun w => !(w.1 == n && w.2.1 == array)) }
    else refuseAt 0x7002 0 St.invalidField s))

end Sys2Proof.Machine
end

