-- ==== Sys2Proof/Machine/Pcie.lean ====
section
/-! DEFINITION. The host port, the embedded switch and the root ports: resets and their reach (R299 to R301), reads and what ends them (R302 to R305,
R312), apertures and windows (R21, R297, R298), removal (R306 to R308), power states (R309). -/

namespace Sys2Proof.Machine

open Sys2Proof

/-- Roles of root port `p` as they took effect at power-on (PCI_RP_ACTIVE). -/
def rpDisabled (s : State) (p : Nat) : Bool := natBit (s.reg .pciRpActive) (4 * p + 3)
def rpOwned (s : State) (p : Nat) : Bool := natBit (s.reg .pciRpActive) (4 * p + 2)

/-- Subport `sub` exists under its port's bifurcation; it is passed or owned by its port's role (R19, R294). -/
def subExists (s : State) (sub : Nat) : Bool := decide (sub < 32 ∧ sub % 4 < subportCount s (sub / 4)) && !rpDisabled s (sub / 4)
def subPassed (s : State) (sub : Nat) : Bool := subExists s sub && !rpOwned s (sub / 4)

def passedSubs (s : State) : List Nat := (List.range 32).filter (subPassed s)

/-- The number of a link among the counters. -/
def linkIdx : Link → Nat
  | .host => 0
  | .root sub => 1 + sub / 4

/-- An AER error logged for a function: 0 completion timeout, 1 unexpected completion, 2 poisoned. -/
def aerLog (f : Pf) (bit : Nat) (s : State) : State :=
  { s with pci := { s.pci with aer := s.pci.aer.set (pfIdx f) (Nat.lor (s.pci.aer.get (pfIdx f) 0) (2 ^ bit)) } }

/-- A core's load has its data: the register, the next pc, and the core runs on. A return takes its pc from the data. -/
def loadDone (id : Nat) (k : LoadCont) (data : List Byte) (s : State) : State :=
  let v := leNat (data.take k.bytes)
  let w : Word := if k.signed then (BitVec.ofNat (8 * k.bytes) v).signExtend 32 else BitVec.ofNat 32 v
  s.modCore id (fun c => { c with
    gpr := match k.dest with
      | some rd => if rd = 0 then k.gpr else k.gpr.set rd.toNat w
      | none => k.gpr
    pc := match k.dest with
      | some _ => k.pc
      | none => w
    rsp := k.rsp
    words := c.words + 1
    run := .running })

/-- What the read was for ends, with its data or with a status: a core's load with the access-fault exception, subcode 0x03 (R303, R307). -/
def endUse (r : BusRead) (st : Status) (data : List Byte) (s : State) : State :=
  if r.discard then s
  else match r.use with
  | .core id k =>
    let c := s.core id
    if c.run = .loading r.link r.tag then
      if st = St.success then loadDone id k data s else excEnter id 7 3 k.ea c.pc s
    else s
  | .dma cl k => dmaFinishRead cl k st data s

/-- The read that holds a link's tag. -/
def readOf (s : State) (l : Link) (tag : Nat) : Option BusRead := s.pci.reads.find? (fun r => r.link == l && r.tag == tag)

def dropRead (r : BusRead) (s : State) : State :=
  { s with pci := { s.pci with reads := s.pci.reads.filter (fun x => !(x.link == r.link && x.tag == r.tag)) } }

/-- Every read of a set ends with a status. `keep`: its completions are still to come, and their data is discarded. -/
def endReads (p : BusRead → Bool) (st : Status) (keep : Bool) (s : State) : State :=
  let l := s.pci.reads.filter p
  let s := { s with pci := { s.pci with
    reads := if keep then s.pci.reads.map (fun r => if p r then { r with discard := true } else r) else s.pci.reads.filter (fun r => !p r) } }
  l.foldl (fun s r => endUse r st [] s) s

/-- Completion Timeout Values in use (R302). -/
def ctoValid (v : Nat) : Bool := v == 0 || v == 5 || v == 6 || v == 9 || v == 10

def execCompletionTimeout (l : Link) (tag : Nat) (s : State) : Out :=
  whenMain s (fun s =>
    match readOf s l tag with
    | none => s
    | some r =>
      let f := callerPf s r.owner
      let s := (dropRead r s).bump .pciCtoCount (linkIdx l)
      let s := if s.pci.flr.contains f then s else aerLog f 0 s
      let s := { s with pci := { s.pci with quarant := s.pci.quarant ++ [(l, tag)] } }
      endUse r St.completionTimeout [] s)

/-- A completion for a tag that is not outstanding (R304). -/
def lateCompletion (l : Link) (s : State) : State := log St.lateCompletion .advisory (aerLog .pf0 1 (s.bump .pciLateCpl (linkIdx l)))

def execLateCompletion (l : Link) (tag : Nat) (s : State) : Out :=
  whenMain s (fun s => if (readOf s l tag).isSome then s else lateCompletion l s)

/-- A completion for an outstanding read; its data is placed with the last (R303, R312). -/
def execReadCompletionReceived (l : Link) (tag : Nat) (st : CplStatus) (last : Bool) (data : List Byte) (s : State) : Out :=
  whenMain s (fun s =>
    match readOf s l tag with
    | none => lateCompletion l s
    | some r =>
      if st ≠ .success then endUse r St.completionError [] (dropRead r s)
      else
        let r := { r with got := r.got ++ data }
        if last then endUse r St.success r.got (dropRead r s)
        else { s with pci := { s.pci with reads := s.pci.reads.map (fun x => if x.link = l ∧ x.tag = tag then r else x) } })

def execTagQuarantineExpiry (l : Link) (tag : Nat) (s : State) : Out :=
  whenMain s (fun s => { s with pci := { s.pci with quarant := s.pci.quarant.filter (fun q => q != (l, tag)) } })

/-- A TLP received with EP set (R312). -/
def execPoisonedTlpReceived (l : Link) (what : Poisoned) (s : State) : Out :=
  whenMain s (fun s =>
    let s := aerLog .pf0 2 (s.bump .pciPoisonRx (linkIdx l))
    match what with
    | .posted => s
    | .completion tag =>
      match readOf s l tag with
      | some r => endUse r St.poisonedReceived [] (dropRead r s)
      | none => s)

/-- What waited for the host link goes out in its order: held completion records, pending messages, NVMe completions (R305). -/
def resumeHost (f : Pf) (s : State) : State :=
  let go (c : Caller) : Bool := callerPf s c == f && (hostRefusal s c).isNone
  let mine := s.pci.held.filter (fun h => go h.1)
  let s := { s with pci := { s.pci with held := s.pci.held.filter (fun h => !go h.1) } }
  let s := mine.foldl (fun s h => s.store (callerSpace h.1 h.2.1) h.2.1 h.2.2) s
  let s := s.irq.entries.foldl (fun s p =>
    if p.2.pending ∧ msiPf s p.1.1 = pfIdx f then irqSend p.1.1 p.1.2 s else s) s
  s.sto.ctrls.foldl (fun s p =>
    if p.2.sub.isNone ∧ callerPf s (ownerCaller p.2.slice) = f then (p.2.cqs.unzip.1).foldl (fun s q => cqFlush p.1 q 4096 s) s else s) s

/-- The function issues no more requests: every transfer that needed the host link ends (R305, R309). -/
def stopHost (f : Pf) (s : State) : State :=
  endReads (fun r => r.link == .host && callerPf s r.owner == f && !r.discard) St.hostAccessDisabled true s

def execBusMasterEnableClear (f : Pf) (s : State) : Out :=
  whenMain s (fun s => stopHost f { s with pci := { s.pci with bme := s.pci.bme.set (pfIdx f) false } })

def execBusMasterEnableSet (f : Pf) (s : State) : Out :=
  whenMain s (fun s => resumeHost f { s with pci := { s.pci with bme := s.pci.bme.set (pfIdx f) true } })

/-- D0 and D3hot; a write of another state changes nothing (R309). -/
def execPowerStateChange (f : Pf) (state : BitVec 2) (s : State) : Out :=
  whenMain s (fun s =>
    let lo := 8 + 2 * pfIdx f
    if state = 3 then stopHost f (s.setFld .pciHostStatus (lo + 1) lo 3)
    else if state = 0 then resumeHost f (s.setFld .pciHostStatus (lo + 1) lo 0)
    else s)

/-- The slices whose parent is `f`; PF0's own slice 0 goes with PF0. -/
def slicesUnder (s : State) (f : Pf) : List Nat :=
  (if f = .pf0 then [0] else []) ++ ((s.slices.filter (fun p => p.1 != 0 && p.2.parent == f)).unzip.1)

/-- The start of a function-level reset: nothing new is issued, queues and rings are squashed, outstanding reads are discarded (R300). -/
def flrBegin (f : Pf) (s : State) : State :=
  let l := slicesUnder s f
  let s := { s with pci := { s.pci with
    flr := f :: s.pci.flr
    reads := s.pci.reads.map (fun r => if callerPf s r.owner = f then { r with discard := true } else r) } }
  let s := l.foldl (fun s n => sliceUnits n s) s
  let s := (l.filter (fun n => n != 0)).foldl (fun s n => mbxForget (.slice n) (mbxRetry (.slice n) s)) s
  let s := if f = .pf0 then dropPktQueues s else cmpRelease (.caller .pf1) false s
  irqDiscard (pfCaller f) s

/-- The staging area is empty where its owner is reset while STAGING (R451). -/
def stagingReset (f : Pf) (s : State) : State :=
  let v := s.kw kFwState
  if natBits v 1 0 = 1 ∧ natBits v 15 8 = pfIdx f then s.setKw kFwState (natSetBits v 1 0 0) else s

/-- The function's configuration space is back at its reset values, its mailbox forgets, and its slices' resets are absorbed (R300, R301, R443, R451). -/
def flrEnd (f : Pf) (s : State) : State :=
  let i := pfIdx f
  let s := quarantineReads (fun r => r.link == .host && callerPf s r.owner == f && r.discard) s
  let s := { s with
    pci := { s.pci with
      flr := s.pci.flr.filter (fun g => g != f)
      bme := s.pci.bme.del i
      cto := if f = Pf.pf0 then s.pci.cto.del 0 else s.pci.cto
      pmeEn := s.pci.pmeEn.filter (fun g => g != f)
      pmeStatus := s.pci.pmeStatus.filter (fun g => g != f)
      aer := s.pci.aer.del i }
    irq := { s.irq with
      enable := s.irq.enable.del i
      fmask := s.irq.fmask.del i
      entries := s.irq.entries.map (fun k e => if k.1 = pfCaller f then { e with address := 0, data := 0, mask := true } else e) } }
  let s := s.setFld .pciHostStatus (9 + 2 * i) (8 + 2 * i) 0
  let s := mbxForget (pfCaller f) (mbxRetry (pfCaller f) s)
  let s := stagingReset f s
  (slicesUnder s f).foldl (fun s n => if (s.slice n).busy then sliceResetEnd n s else s) s

def execFunctionLevelReset (f : Pf) (s : State) : Out :=
  whenMain s (fun s => if s.pci.flr.contains f then s else flrBegin f s)

def execFlrComplete (f : Pf) (s : State) : Out :=
  whenMain s (fun s => if s.pci.flr.contains f then flrEnd f s else s)

/-- The host-facing domain is reset (R20, R299, R301): both functions and every slice, the switch and its windows, the link's tags and counters. -/
def hostDomainReset (s : State) : State :=
  let s := s.setFld .pciHostStatus 7 0 0
  let s := { s with pci := { s.pci with hostUp := false, ready := false, linkAt := none } }
  let s := flrEnd .pf1 (flrEnd .pf0 (flrBegin .pf1 (flrBegin .pf0 s)))
  let s := { s with
    pci := { s.pci with
      reads := s.pci.reads.filter (fun r => r.link != .host)
      quarant := s.pci.quarant.filter (fun q => q.1 != .host)
      acs := []
      memWin := s.pci.memWin.keep (fun k _ => !subPassed s k) }
    accel := s.accel.keep (fun k _ => !subPassed s k) }
  (List.range 9).foldl (fun s i => ((s.clearReg .pciCtoCount i).clearReg .pciLateCpl i).clearReg .pciPoisonRx i) s

/-- PERST_N is asserted for at least 1 µs with main power present (R299, R531). -/
def execPerstNAssert (ns : Nat) (s : State) : Out :=
  whenMain s (fun s =>
    if ns < 1000 ∨ s.pwr.perstN = false then s
    else
      let s := hostDomainReset s
      { s with pwr := { s.pwr with
        perstN := false
        perstOut := (List.range 8).map (fun p => if rpOwned s p then s.pwr.perstOut.getD p true else true) } })

/-- PERST_OUT_N of passed port `p` may be released: PERST_N is deasserted, and the port has power (R532). -/
def perstRelease (s : State) (p : Nat) : Bool := s.pwr.perstN && s.pwr.accEn.getD p false && !rpOwned s p && !rpDisabled s p

/-- PERST_N is deasserted: the link trains, WAKE_N ends, and each passed port whose 100 ms of power have passed leaves reset (R293, R310, R532). -/
def execPerstNDeassert (s : State) : Out :=
  whenMain s (fun s =>
    let s := { s with pwr := { s.pwr with perstN := true, wake := false } }
    { s with pwr := { s.pwr with perstOut := (List.range 8).map (fun p =>
      s.pwr.perstOut.getD p true && !(perstRelease s p && decide (s.pwr.accSince.getD p 0 + 100000000 ≤ s.pwr.localNs))) } })

def execHostHotReset (s : State) : Out :=
  whenMain s (fun s => if s.pci.hostUp then (passedSubs s).foldl (fun s c => s.emit (.hotReset c)) (hostDomainReset s) else s)

/-- Loss of the host link (R306): outstanding requests end with PORT_DOWN, then the host-facing domain is reset. -/
def hostLinkDown (s : State) : State :=
  if s.pci.hostUp then
    let s := endReads (fun r => r.link == .host) St.portDown false s
    (passedSubs s).foldl (fun s c => s.emit (.hotReset c)) (hostDomainReset s)
  else s

def execHostLinkDown (s : State) : Out := whenMain s hostLinkDown

def execSecondaryBusReset (sub : Nat) (s : State) : Out :=
  whenMain s (fun s => if subPassed s sub then s.emit (.hotReset sub) else s)

/-- The host link reaches L0, in the limited state below 16 GT/s (R289, R293). -/
def execHostLinkUp (speed width : BitVec 3) (flit : Bool) (s : State) : Out :=
  whenMain s (fun s =>
    if s.pwr.perstN = false ∨ s.pci.hostUp ∨ speed = 7 ∨ 4 < width.toNat ∨ s.pwr.clkLost.contains .host then s
    else
      let low : Bool := decide (speed.toNat < 3)
      let s := s.setFld .pciHostStatus 7 0 ((if low then 128 else 0) + (if flit then 64 else 0) + width.toNat * 8 + speed.toNat)
      let s := { s with pci := { s.pci with hostUp := true, linkAt := some s.pwr.localNs } }
      let s := if low then log St.linkLimited .warning s (a32 := 0) else s
      resumeHost .pf1 (resumeHost .pf0 s))

/-- Whether configuration space answers: always once 100 ms have passed since the first L0, and before that from a moment that the spec leaves open (R293). -/
def configReady (s : State) : Bool × State :=
  match s.pci.linkAt with
  | none => (false, s)
  | some t =>
    if s.pci.ready ∨ t + 100000000 ≤ s.pwr.localNs then (true, { s with pci := { s.pci with ready := true } })
    else
      let (b, s) := s.draw 1
      (b == 1, { s with pci := { s.pci with ready := b == 1 } })

/-- The bytes of a subport's accelerator window that are mapped: while its link is up, those of its downstream port's memory window (R294, R295). -/
def mapPassed (sub : Nat) (s : State) : State :=
  let len := 0x100000000000 / subportCount s (sub / 4)
  match s.pci.memWin.find sub with
  | some (b, l) =>
    if s.fld .pciRpStatus 8 8 sub = 1 ∧ b ≤ l then { s with accel := s.accel.set sub (min len (l - b + 1)) }
    else { s with accel := s.accel.del sub }
  | none => { s with accel := s.accel.del sub }

/-- What a configuration write changes, of what the spec gives a meaning. -/
def configEffect (f : CfgFn) (w : CfgWrite) (s : State) : State :=
  let pf : Option Pf := match f with
    | .pf0 => some .pf0
    | .pf1 => some .pf1
    | _ => none
  match w, f, pf with
  | .deviceControl2 v, .pf0, _ => if ctoValid v.toNat then { s with pci := { s.pci with cto := s.pci.cto.set 0 v.toNat } } else s
  | .memWindow b l, .downstream sub, _ => mapPassed sub { s with pci := { s.pci with memWin := s.pci.memWin.set sub (b, l) } }
  | .acsRedirect on, .downstream sub, _ =>
    let l := s.pci.acs.filter (· != sub)
    { s with pci := { s.pci with acs := if on then sub :: l else l } }
  | .msixControl en mask, _, some p =>
    let s := { s with irq := { s.irq with enable := s.irq.enable.set (pfIdx p) en, fmask := s.irq.fmask.set (pfIdx p) mask } }
    s.irq.entries.foldl (fun s x => if x.1.1 = pfCaller p ∧ x.2.pending then irqSend x.1.1 x.1.2 s else s) s
  | .pmeEnable on, _, some p =>
    let l := s.pci.pmeEn.filter (· != p)
    { s with pci := { s.pci with pmeEn := if on then p :: l else l } }
  | _, _, _ => s

/-- A configuration request (R290, R293, R300): Request Retry Status while the function is not ready or in FLR. -/
def execConfigRequest (f : CfgFn) (w : CfgWrite) (s : State) : Out :=
  whenMain s (fun s =>
    if s.pci.hostUp = false then s
    else
      let (ok, s) := configReady s
      let flr : Bool := match f with
        | .pf0 => s.pci.flr.contains .pf0
        | .pf1 => s.pci.flr.contains .pf1
        | _ => false
      let there : Bool := match f with
        | .downstream sub => subPassed s sub
        | .other => false
        | _ => true
      if ok = false ∨ flr = true then s.emit (.configReply f true)
      else (if there then configEffect f w s else s).emit (.configReply f false))

/-- The outcome's state, where it is a next state. -/
def nextOr (s : State) : Out → State
  | .next t => t
  | _ => s

/-- A write of CC by a command that is no row of its own: enable, disable or shutdown as its bits ask (R383, R393). -/
def ccWrite (k : Nat) (v : Word) (s : State) : State :=
  let old := s.reg .nvmeCc k
  if natBit v.toNat 0 ∧ ¬ natBit old 0 then nextOr s (execNvmeCcEnable k v s)
  else if natBit old 0 ∧ ¬ natBit v.toNat 0 then nextOr s (execNvmeCcDisable k v s)
  else nextOr s (execNvmeCcShutdown k v s)

/-- Doorbell `y` of controller `k`: submission tails stand at even numbers, completion heads at odd ones (R382). -/
def doorbellAt (k y : Nat) (v : Word) (s : State) : State :=
  nextOr s (if y % 2 = 0 then execNvmeSqTailDoorbell k (y / 2) v s else execNvmeCqHeadDoorbell k (y / 2) v s)

/-- A word written into an accelerator controller's page (R383). -/
def ctrlPageWrite (k off : Nat) (v : Word) (s : State) : State :=
  if off = 0x14 then ccWrite k v s
  else if off = 0x24 then s.setReg .nvmeAqa v.toNat k
  else if off = 0x28 ∨ off = 0x2C then regPut ⟨.nvmeAsq, k⟩ (off == 0x2C) v.toNat s
  else if off = 0x30 ∨ off = 0x34 then regPut ⟨.nvmeAcq, k⟩ (off == 0x34) v.toNat s
  else if 0x1000 ≤ off ∧ off < 0x4000 ∧ off % 4 = 0 then
    doorbellAt k ((off - 0x1000) / 4) v s
  else s

/-- The intake ring of a subport that lies at an offset of its root-port window: the array address there (R190). -/
def ringTarget (s : State) (sub off len : Nat) : Option Nat :=
  s.doms.findSome? (fun p =>
    match p.2.intake.find sub with
    | some r => if r.ringAt ≤ off ∧ off + len ≤ r.ringAt + r.depth * 2 ^ r.slotLog2 then some (r.silt + (off - r.ringAt)) else none
    | none => none)

/-- A write of subport `sub` at offset `off` of its root-port window: an intake slot, an intake, steep or page doorbell, or its controller's page; elsewhere it
reaches nothing (R37, R59, R178, R189, R190, R382). -/
def windowWrite (sub off : Nat) (data : List Byte) (s : State) : State :=
  match ringTarget s sub off data.length with
  | some a => memStore (.accel sub) a data s
  | none =>
    let v : Word := BitVec.ofNat 32 (leNat data)
    if data.length ≠ 4 then s
    else match s.doms.find? (fun p => match p.2.intake.find sub with
        | some r => r.doorAt == off
        | none => false) with
    | some p => nextOr s (execIntakeDoorbell (.accel sub) p.1 sub v s)
    | none =>
      match s.doms.find? (fun p => Config.steepDoor p.1 sub == off) with
      | some p => nextOr s (execSteepDoorbell (.accel sub) p.1 v s)
      | none =>
        match s.doms.findSome? (fun p => (p.2.regions.find? (fun r => Config.pageDoor (p.1 * 256 + r.1) sub == off)).map (fun r => (p.1, r.1))) with
        | some (d, r) => nextOr s (execPageDoorbell (.accel sub) d r v s)
        | none =>
          match s.sto.ctrls.find (accelCtrl + sub) with
          | some c => if c.page ≤ off ∧ off < c.page + 0x4000 then ctrlPageWrite (accelCtrl + sub) (off - c.page) v s else s
          | none => s

/-- A memory request to a root-port window. A read answers from the intake ring; one that meets uncorrectable data is completed with Completer Abort (R311). -/
def windowAccess (sub off : Nat) (q : MemReq) (s : State) : State :=
  match q with
  | .write data => windowWrite sub off data s
  | .read len =>
    match ringTarget s sub off len with
    | some a =>
      match eccHit s a len with
      | some w => (eccReport 16 w s).emit (.completion sub .ca [])
      | none => s.emit (.completion sub .success (s.load a len))
    | none => s.emit (.completion sub .ur [])

/-- A request of a passed device that falls in its aperture, which is not claimed in Hardpan (R297); any other is forwarded. -/
def execApertureRequest (sub addr : Nat) (q : MemReq) (s : State) : Out :=
  whenMain s (fun s =>
    if subPassed s sub = false then s
    else match s.pci.apertures.find sub with
    | some (b, l) =>
      if b ≤ addr ∧ addr < b + l ∧ s.pwr.state = .on then windowAccess sub (addr - b) q s
      else s.emit (.tlp (.deviceToHost sub) addr)
    | none => s.emit (.tlp (.deviceToHost sub) addr))

/-- A request of an owned device: into its root-port window (R298), through a mapped upstream window to host memory under PF0's requester ID, or refused with
Unsupported Request (R21, R305). The mapped windows are those of slice 0 (assumption 33). -/
def execOwnedDeviceHostRequest (sub addr : Nat) (q : MemReq) (s : State) : Out :=
  whenOn s (fun s =>
    let b := Config.ownedBase sub
    if subOwned s sub = false then s
    else if b ≤ addr ∧ addr < b + 2 ^ 36 then windowAccess sub (addr - b) q s
    else
      let refuse (s : State) : State := match q with
        | .read _ => s.emit (.completion sub .ur [])
        | .write _ => s
      match s.windows.find? (fun w => w.1 == 0 && decide (w.2.1 ≤ addr ∧ addr < w.2.1 + w.2.2.2)) with
      | none => refuse s
      | some w =>
        if (hostRefusal s .pf0).isSome then refuse s
        else
          let h := addr - w.2.1 + w.2.2.1
          match q with
          | .write data => s.store (.host 0) h data
          | .read len => s.emit (.completion sub .success (s.bytes (.host 0) h len)))

/-- A subport's link stays down (R200, R301, R307). -/
def rootDown (sub : Nat) (s : State) : State :=
  let s := s.setReg .pciRpStatus (s.fld .pciRpStatus 11 11 sub * 2048 + 1024 + s.fld .pciRpStatus 7 7 sub * 128) sub
  let s := endReads (fun r => r.link == .root sub) St.portDown false s
  let s := { s with
    pci := { s.pci with
      quarant := s.pci.quarant.filter (fun q => q.1 != .root sub)
      enumerated := s.pci.enumerated.filter (· != sub) }
    accel := s.accel.del sub }
  let s := if subOwned s sub then mbxEvent .pf0 St.portDown.toNat sub (s.setFld .pciRpStatus 11 11 1 sub) else s
  log St.portDown .error s (a32 := sub)

def execRootPortLinkDown (sub : Nat) (s : State) : Out :=
  whenMain s (fun s => if subExists s sub ∧ s.fld .pciRpStatus 8 8 sub = 1 then rootDown sub s else s)

/-- A device's link comes up (R289, R308): a passed one is mapped as its memory window says; an owned one waits for its enumeration. Below 16 GT/s the link is
held disabled and the device treated as absent. -/
def execDevicePresent (sub : Nat) (speed width : BitVec 3) (flit : Bool) (s : State) : Out :=
  whenMain s (fun s =>
    if subExists s sub = false ∨ s.fld .pciRpStatus 8 8 sub = 1 ∨ speed = 7 ∨ 4 < width.toNat ∨ s.pwr.perstOut.getD (sub / 4) true ∨ s.pwr.clkLost.contains .rp then s
    else
      let keep := s.fld .pciRpStatus 11 11 sub * 2048 + s.fld .pciRpStatus 7 7 sub * 128
      let rate := (if flit then 64 else 0) + width.toNat * 8 + speed.toNat
      if speed.toNat < 3 then
        log St.linkLimited .warning (s.setReg .pciRpStatus (keep + s.fld .pciRpStatus 10 10 sub * 1024 + 512 + rate) sub) (a32 := 1 + sub)
      else
        let s := s.setReg .pciRpStatus (keep + 256 + rate) sub
        if subPassed s sub then mapPassed sub s else s)

/-- A failed lane: the link goes on at half width, with its record (R264). A link of one lane has no half. -/
def execLinkLaneFault (l : Link) (_lane : Nat) (s : State) : Out :=
  whenMain s (fun s =>
    let (n, i) : RegName × Nat := match l with
      | .host => (.pciHostStatus, 0)
      | .root sub => (.pciRpStatus, sub)
    let w := s.fld n 5 3 i
    let up : Bool := match l with
      | .host => s.pci.hostUp
      | .root sub => s.fld .pciRpStatus 8 8 sub == 1
    if up = false ∨ w = 0 then s else log evLane .error (s.setFld n 5 3 (w - 1) i) (a32 := match l with
      | .host => 0
      | .root sub => 1 + sub))
where
  /-- The record's code, for which no rule names a status (assumption 32). -/
  evLane : Status := 0x7000

/-- APERTURE_SET (R297); a length of zero takes the aperture away. -/
def execApertureSet (c : Caller) (sub base len : Nat) (s : State) : Out :=
  whenOn s (fun s => mbxServe c 0x7003 s (fun _ s =>
    if subPassed s sub = false then refuseAt 0x7003 0 St.invalidField s
    else if base % 2 ^ 32 ≠ 0 ∨ 2 ^ 64 < base + len then refuseAt 0x7003 1 St.invalidField s
    else if 2 ^ 36 < len then refuseAt 0x7003 2 St.lenTooLarge s
    else accept { s with pci := { s.pci with
      apertures := if len = 0 then s.pci.apertures.del sub else s.pci.apertures.set sub (base, len) } }))

/-- The caller may reset a device of an owned subport: PF0, or the owner of a partition with grants in its window (R298). -/
def mayResetOwned (s : State) (c : Caller) (sub : Nat) : Bool :=
  c == .pf0 || s.work.parts.any (fun p => p.2.owner == ownerOf c && p.2.grants.any (fun g => match arrKind s g.addr with
    | .accel x _ => x == sub
    | _ => false))

def execOwnedReset (c : Caller) (sub : Nat) (s : State) : Out :=
  whenOn s (fun s => mbxServe c 0x7004 s (fun _ s =>
    if subOwned s sub = false then refuseAt 0x7004 0 St.invalidField s
    else if mayResetOwned s c sub = false then refuse St.unsupported s
    else accept (s.emit (.hotReset sub))))

/-- Firmware enumerates the device of an owned subport: how much of its window its BARs fill is its own (R298, R308). -/
def execOwnedEnumerate (c : Caller) (sub : Nat) (s : State) : Out :=
  whenOn s (fun s => mbxServe c 0x7005 s (fun _ s =>
    if subOwned s sub = false then refuseAt 0x7005 0 St.invalidField s
    else if s.fld .pciRpStatus 8 8 sub = 0 then refuse St.portDown s
    else
      let (v, s) := s.draw 64
      let len := 0x100000000000 / subportCount s (sub / 4)
      accept { s with
        accel := s.accel.set sub (v % (len + 1))
        pci := { s.pci with enumerated := sub :: s.pci.enumerated.filter (· != sub) } }))

def execRpCtoSet (c : Caller) (port : Nat) (cto : BitVec 4) (s : State) : Out :=
  whenOn s (fun s => mbxServe c 0x7006 s (fun _ s =>
    if 8 ≤ port then refuseAt 0x7006 0 St.invalidField s
    else if ctoValid cto.toNat = false then refuseAt 0x7006 1 St.invalidField s
    else accept { s with pci := { s.pci with cto := s.pci.cto.set (1 + port) cto.toNat } }))

/-- A TLP that the switch forwards (R22, R23, R296). A request to a peer goes up to the host where ACS redirects it. -/
def execEmbeddedSwitchForward (t : SwitchTlp) (addr : Nat) (s : State) : Out :=
  whenMain s (fun s =>
    let live (sub : Nat) : Bool := subPassed s sub && s.fld .pciRpStatus 8 8 sub == 1
    match t with
    | .hostToDevice sub => if live sub ∧ s.pci.hostUp then s.emit (.tlp t addr) else s
    | .deviceToHost sub => if live sub ∧ s.pci.hostUp then s.emit (.tlp t addr) else s
    | .deviceToDevice src dst =>
      if live src = false ∨ live dst = false then s
      else if s.pci.acs.contains src then (if s.pci.hostUp then s.emit (.tlp (.deviceToHost src) addr) else s)
      else s.emit (.tlp t addr))

end Sys2Proof.Machine
end

