-- ==== Sys2Proof/Machine/Hardpan.lean ====
section
/-! DEFINITION. Alerts and emergencies (R493, R498, R503), and the entry into Hardpan (R504 to R506). -/

namespace Sys2Proof.Machine

open Sys2Proof

def State.modPwr (s : State) (f : Power → Power) : State := { s with pwr := f s.pwr }

/-- A bit of PWR_ALERT is set; PF0's mailbox hears of one that becomes set (R503). -/
def setAlert (bit : Nat) (s : State) : State :=
  if s.fld .pwrAlert bit bit = 1 then s else mbxEvent .pf0 evAlert bit (s.setFld .pwrAlert bit bit 1)

/-- A bit of KEEP_EMERG is set: 0 thermtrip, 1 overtemp, 2 brake, 3 power_fault. -/
def setEmerg (bit : Nat) (s : State) : State := s.setKw kEmerg (Nat.lor (s.kw kEmerg) (2 ^ bit))

/-- A request in progress completes with SERVICE_DOWN (R505). The one message of vector 0 is sent apart. -/
def mbxServiceDown (c : Caller) (s : State) : State :=
  let m := s.mailbox c
  match m.frame with
  | some f =>
    if m.busy then
      s.setMailbox c { m with
        reply := some { status := St.serviceDown, opcode := f.opcode, seq := f.seq }
        done := true
        busy := false
        taken := false
        committed := false
        frame := none }
    else s
  | none => s

/-- The array stops: issue ends, kernels and queued descriptors go without completions (R505). -/
def stopArray (s : State) : State :=
  { s with
    arr := { s.arr with gated := true, dma := [], remaps := [] }
    work := { s.work with items := [], kernels := [] }
    cores := s.cores.map (fun _ c => { c with run := .stopped, me := { gens := c.me.gens } })
    pci := { s.pci with reads := s.pci.reads.map (fun r => { r with discard := true }) } }

/-- Every firmware service stops, the registers it keeps holding their last values (R446, R505). -/
def stopServices (s : State) : State :=
  let s := s.setReg .hubEmuStatus 0x3FFF
  { s with fw := { s.fw with services := (List.range 14).map (fun n => (n, { s.service n with state := .stopped })), released := false } }

/-- Entry into Hardpan for a cause (R504, R505); one that arises in Hardpan only writes its record (R506). -/
def enterHardpan (code : Status) (s : State) (a32 : Nat := 0) : State :=
  let s := log code .fatal s (a32 := a32)
  if s.pwr.state ≠ .on then s
  else
    let s := stopServices (stopArray s)
    let s := (List.range 33).foldl (fun s lp => portDown lp s) s
    let s := s.modPwr (fun p => { p with perstOut := (List.range 8).map (fun i => p.perstOut.getD i true || rpOwned s i) })
    let s := s.sto.ctrls.foldl (fun s p => s.setFld .nvmeCsts 1 1 1 p.1) s
    let s := s.mbx.foldl (fun s p => mbxServiceDown p.1 s) s
    let s := setAlert 4 (s.setReg .pwrHardpan (code.toNat * 65536 + 1))
    let s := irqSend .pf1 0 (irqSend .pf0 0 s)
    s.modPwr (fun p => { p with state := .hardpan })

/-- The number of a fatal hardware cause as its record carries it. -/
def hwFatalNum : HwFatal → Nat
  | .hubSram => 0
  | .fabricParity => 1
  | .kilnDead => 2

def execHwFatal (cause : HwFatal) (s : State) : Out :=
  whenMain s (fun s => enterHardpan St.hwFatal s (a32 := hwFatalNum cause))

/-- Tj has stood at 115 degrees or more for 100 ms (R498). -/
def execOvertempTimeout (s : State) : Out :=
  whenMain s (fun s => if s.pwr.hot115.isSome then enterHardpan St.overtemp (setEmerg 1 s) else s)

end Sys2Proof.Machine
end

