-- ==== Sys2Proof/Machine/Security.lean ====
section
/-! DEFINITION. The security island (16): its start, self-tests and ERROR state (R407 to R410, R412), firmware verification and the bundle that it applies (R454 to
R456), keys and key slots (R421 to R425), zeroization (R413, R435, R436), random numbers (R419, R420), wrapped contexts (R431), failed cipher engines (R429) and
attestation (R416 to R418). -/

namespace Sys2Proof.Machine

open Sys2Proof

/-- SEC_STATUS.state: 0 BOOT, 1 SELFTEST, 2 OPERATIONAL, 3 ERROR. -/
def secState (s : State) : Nat := s.fld .secStatus 1 0

/-- SEC_LIFECYCLE.lc_state: 1 SHIPPED, 2 OWNED, 3 RETIRED (R412). -/
def lcState (s : State) : Nat := natBits (s.kw kLifecycle) 1 0

def retired (s : State) : Bool := lcState s == 3

/-- Characters as bytes. -/
def ascii (t : String) : List Byte := t.toList.map (fun c => BitVec.ofNat 8 c.toNat)

/-- The name of the job's identifier as key derivation takes it (R426). -/
def jobSalt (s : State) : List Byte := leBytes 8 (match s.job.roster with
  | some r => r.jobId
  | none => 0)

/-- What the device scope of zeroization clears, the wrapped key store apart (R435). A slot's users then treat it as spent (R436). -/
def clearKeys (keepStore : Bool) (s : State) : State :=
  let s := (s.sec.slots.unzip.1).foldl (fun s k => slotConnsSpent k (slotZeroize k s)) s
  s.modSec (fun x => { x with
    slots := x.slots.keep (fun k _ => decide (firmwareSlots ≤ k))
    store := if keepStore then x.store else []
    transport := []
    pairs := []
    restored := []
    contextGen := x.contextGen + 1 })

/-- A block range of a journal entry meets an extent of the cache. -/
def entryMeets (e : JEntry) (x : Extent) : Bool := e.ns == x.ns && decide (e.lba < x.lba + x.n ∧ x.lba < e.lba + e.n)

/-- The journal is emptied with its key: sealed writes not yet destaged are lost, from the cache too (R436). -/
def emptyJournal (s : State) : State :=
  let gone := (s.sto.journal.keep (fun _ e => e.sealed)).unzip.2
  let stay := (s.sto.journal.keep (fun _ e => !e.sealed)).unzip.2
  let s := s.modSto (fun x => { x with
    journal := x.journal.keep (fun _ e => !e.sealed)
    extents := x.extents.filter (fun e => !(gone.any (fun g => entryMeets g e) && !stay.any (fun g => entryMeets g e))) })
  stoAdvance s

/-- The DRBG instantiated again where its entropy source can seed it (R419, R420). -/
def drbgFresh (s : State) : State :=
  if s.fld .secStatus 12 12 = 1 then (s.modSec (fun x => { x with drbgUsed := 0 })).setFld .secStatus 13 13 1 else s

/-- The armed domains. -/
def armedDomains (s : State) : List Nat := (s.doms.filter (fun p => isArmed s p.1)).unzip.1

def disarmAll (s : State) : State := (armedDomains s).foldl (fun s d => cadCtlWrite d (Nat.land (s.reg .cadDomainCtl d) 0xFFFFFFFE) s) s

/-- Device zeroization, and retirement, which is never refused (R413, R435, R436). -/
def deviceZeroize (retire force : Bool) (who : Nat) (s : State) : Status × State :=
  if armedDomains s ≠ [] ∧ force = false ∧ retire = false then (St.domainArmed, s)
  else
    let s := drbgFresh (emptyJournal (clearKeys false (disarmAll s)))
    let s := if retire then
        (s.modSec (fun x => { x with identity := false, puf := false })).setKw kLifecycle (Nat.lor (s.kw kLifecycle) 3)
      else s
    (St.success, zeroRecord (if retire then 3 else 2) who s)

/-- The island's ERROR state (R408): `test` names the failed test, 256 the reconstruction of the PUF key and 257 the entropy source's start-up tests. -/
def islandError (test : Nat) (s : State) : State :=
  let s := ((clearKeys true s).setFld .secStatus 1 0 3).setFld .secStatus 15 15 0
  enterHardpan St.selftestFailed s (a32 := test)

/-- A wide engine is marked failed: the spare takes its place, or its slots go to the engines that remain (R264, R265, R429). Engine 32 is the spare. -/
def engineFail (e : Nat) (s : State) : State :=
  let failed : Bool := if e < 32 then natBit (s.reg .secEngineFail) e else natBit (s.reg .secEngineSpare) 8
  if failed then s
  else
    let s := s.bumpFld .secStatus 31 24
    if e < 32 then
      let s := s.setFld .secEngineFail e e 1
      if s.fld .secEngineSpare 8 7 = 0 then (s.setFld .secEngineSpare 7 7 1).setFld .secEngineSpare 4 0 e else s
    else (s.setFld .secEngineSpare 8 8 1).setFld .secEngineSpare 7 7 0

/-- What the boot ROM does first at a start: the boot count, the boot record with its time mark, and the note of reserved straps (R473, R478, R529). -/
def bootActions (s : State) : State :=
  let s := bootRecord (s.setKw kBootCount ((s.kw kBootCount + 1) % 2 ^ 32))
  if s.pwr.strapNote then
    log St.strapReserved .advisory (s.modPwr (fun p => { p with strapNote := false })) (a32 := s.pwr.straps / 32) (origin := 1)
  else s

/-- The self-tests are over when the entropy source and the DRBG serve. Another context key begins with each start (R431). -/
def selftestPassed (s : State) : State :=
  let s := (((s.setFld .secStatus 1 0 0).setFld .secStatus 12 12 1).setFld .secStatus 13 13 1)
  s.modSec (fun x => { x with drbgUsed := 0, contextGen := x.contextGen + 1, restored := [] })

/-- The self-tests have not ended yet in this start. -/
def selftestRuns (s : State) : Bool := decide (secState s ≤ 1) && s.fld .secStatus 13 13 == 0

/-- The self-tests end (R407, R408). From State.reset, where the boot ROM has done nothing yet, it first does what it does at a start. -/
def execIslandSelftestComplete (r : SelfTest) (s : State) : Out :=
  match r with
  | .wideEngineFails e =>
    if 32 < e then .fault .noSuchUnit
    else whenOn s (fun s =>
      if selftestRuns s then engineFail e (selftestPassed (if secState s = 0 then bootActions s else s)) else s)
  | .allPass => whenOn s (fun s => if selftestRuns s then selftestPassed (if secState s = 0 then bootActions s else s) else s)
  | .ownUnitFails u => whenOn s (fun s => if selftestRuns s then islandError u (if secState s = 0 then bootActions s else s) else s)
  | .pufFails => whenOn s (fun s =>
      if selftestRuns s then islandError 256 ((if secState s = 0 then bootActions s else s).modSec (fun x => { x with puf := false })) else s)

/-! The firmware at a start. -/

/-- The slot of a component in the active area (R449). -/
def slotBytes (n : Nat) : Nat := (if n = 1 then 16 else if n = 2 then 128 else if n = 3 then 96 else 16) * 2 ^ 20

def activeVersion (s : State) (n : Nat) : Nat := match s.fw.active.find n with
  | some c => c.version.toNat
  | none => Config.fwVersion n

/-- The versions of component `j` that a component in force works with. -/
def rangeOf (c : Component) (j : Nat) : Nat × Nat := c.ranges.getD (j - 1) (0, 2 ^ 32 - 1)

/-- The checks of a bundle, each over every component before the next (R455): the status, and the component at fault. -/
def bundleCheck (s : State) (l : List Component) : Option (Nat × Status) :=
  let total := l.foldl (fun m (c : Component) => max m (c.offset + c.length)) 4096
  let bad (p : Component → Bool) (st : Status) : Option (Nat × Status) := (l.find? p).map (fun c => (c.number, st))
  let dup : Bool := (List.range 4).any (fun i => decide (1 < (l.filter (fun c => c.number == i + 1)).length))
  let staged (j : Nat) : Option Component := l.find? (fun c => c.number == j)
  let version (j : Nat) : Nat := match staged j with
    | some c => c.version.toNat
    | none => activeVersion s j
  let range (i j : Nat) : Nat × Nat := match staged i, s.fw.active.find i with
    | some c, _ => rangeOf c j
    | none, some c => rangeOf c j
    | none, none => Config.fwRange i j
  let clash (i : Nat) : Bool := ((List.range 4).map (· + 1)).any (fun j =>
    i != j && decide (version j < (range i j).1 ∨ (range i j).2 < version j))
  if l = [] ∨ 4 < l.length ∨ dup ∨ 2 ^ 28 < total then some (0, St.fwFormat)
  else
    bad (fun c => c.number == 0 || decide (4 < c.number) || !c.formatOk || decide (slotBytes c.number < c.length) || c.offset % 4096 != 0 ||
      decide (c.version.toNat < c.floor.toNat)) St.fwFormat <|>
    bad (fun c => !c.sigOk) St.signatureInvalid <|>
    bad (fun c => decide (c.version.toNat < s.kw (4 + c.number))) St.fwRollback <|>
    (((List.range 4).map (· + 1)).find? clash).map (fun i => (i, St.fwIncompatible))

/-- A field of KEEP_FW_STATE. -/
def setFwState (hi lo v : Nat) (s : State) : State := s.setKw kFwState (natSetBits (s.kw kFwState) hi lo v)

def fwStage (s : State) : Nat := natBits (s.kw kFwState) 1 0

/-- The floors of the copied components are raised, and the bundle is done (R456). -/
def bundleDone (l : List Component) (s : State) : State :=
  let s := setFwState 7 4 5 s
  let s := l.foldl (fun s (c : Component) => if s.kw (4 + c.number) < c.floor.toNat then s.setKw (4 + c.number) c.floor.toNat else s) s
  setFwState 31 16 0 (setFwState 7 4 0 (setFwState 1 0 0 s))

/-- Components copied in falling number from `n` on (R456); `false` once one has failed for the third time. -/
def bundleCopy (l : List Component) : Nat → Bool × State → Bool × State
  | 0, r => r
  | _ + 1, (false, s) => (false, s)
  | n + 1, (true, s) =>
    match l.find? (fun c => c.number == n + 1) with
    | none => bundleCopy l n (true, s)
    | some c =>
      let s := setFwState 7 4 (n + 1) s
      if 3 ≤ c.copyFails then (false, enterHardpan St.fwCopyFailed (setFwState 31 16 St.fwCopyFailed.toNat s) (a32 := c.number))
      else
        let s := s.copy (.active c.number) 0 .staging c.offset c.length
        bundleCopy l n (true, { s with fw := { s.fw with active := s.fw.active.set c.number c } })

/-- The boot ROM's handling of the staging area (R451, R454, R455): `false` where the start ends in Hardpan. -/
def bundleApply (orderly : Bool) (bundle : Option (List Component)) (s : State) : Bool × State :=
  let l := bundle.getD []
  let step := natBits (s.kw kFwState) 7 4
  if 1 ≤ step ∧ step ≤ 5 then
    let (ok, s) := if step = 5 then (true, s) else bundleCopy l step (true, s)
    (ok, if ok then bundleDone l s else s)
  else if fwStage s = 3 ∧ orderly = true ∧ s.kw kEmerg = 0 then
    match bundleCheck s l with
    | some (c, st) => (true, log st .error (setFwState 31 16 st.toNat (setFwState 1 0 0 s)) (a32 := c) (origin := 1))
    | none =>
      let (ok, s) := bundleCopy l 4 (true, s)
      (ok, if ok then bundleDone l s else s)
  else (true, if fwStage s = 1 then setFwState 1 0 0 s else s)

/-- The image of component `n` as found in the active area; 0 is the boot ROM. -/
def imageOf (s : State) (n : Nat) : List Byte := match s.fw.active.find n with
  | some c => s.bytes (.active n) 0 c.length
  | none => Config.fwImage n

/-- The status with which component `n` of the active image fails its verification (R409, R410). -/
def verifyFails (s : State) (results : List VerifyResult) (n : Nat) : Option Status :=
  match results.getD (n - 1) .ok with
  | .badSignature => some St.signatureInvalid
  | .badFormat => some St.fwFormat
  | .rollback => some St.fwRollback
  | .ok => if activeVersion s n < s.kw (4 + n) then some St.fwRollback else none

/-- Block `n + 1` measures component `n` (R417, R418). -/
def measure (n : Nat) (s : State) : State :=
  let d := Config.sha512 (imageOf s n)
  s.modSec (fun x => { x with measured := x.measured.set (n + 1) d })

/-- Each component in turn, island firmware first: measured, and verified. -/
def imageFrom (results : List VerifyResult) : Nat → Nat → State → Option (Nat × Status) × State
  | _, 0, s => (none, s)
  | i, n + 1, s =>
    let s := measure i s
    match verifyFails s results i with
    | some st => (some (i, st), s)
    | none => imageFrom results (i + 1) n s

/-- Verification of the active image, and release of the control cores (R408 to R410, R425). A staged bundle is handled first (R451, R454). -/
def firmwareVerify (results : List VerifyResult) (bundle : Option (List Component)) (s : State) : State :=
  let orderly := natBit (s.kw kShutdown) 0
  let s := s.setKw kShutdown 0
  if s.sec.puf = false then islandError 256 s
  else match bundleApply orderly bundle s with
  | (false, s) => s
  | (true, s) =>
    match imageFrom results 1 4 (measure 0 s) with
    | (some (c, st), s) => enterHardpan st s (a32 := c)
    | (none, s) =>
      let s := (s.setFld .secStatus 1 0 2).setFld .secStatus 15 15 1
      let s := s.sec.store.foldl (fun s p => s.setSlot p.1 p.2) s
      { s with fw := { s.fw with released := true } }

def execFirmwareVerify (results : List VerifyResult) (bundle : Option (List Component)) (s : State) : Out :=
  whenOn s (fun s => if secState s = 0 ∧ s.fld .secStatus 13 13 = 1 ∧ s.fw.released = false then firmwareVerify results bundle s else s)

/-! Random numbers. -/

/-- A reseed waits while the entropy source has failed (R420). -/
def execDrbgReseed (s : State) : Out := whenMain s (fun s => if selftestRuns s ∨ secState s = 3 then s else drbgFresh s)

/-- A health test of the entropy source fails (R420): the DRBG serves on until its reseed counter is exhausted. -/
def execEntropyHealthFail (s : State) : Out :=
  whenMain s (fun s =>
    if s.fld .secStatus 12 12 = 0 then s
    else
      let s := (s.bump .secEntropyFails).setFld .secStatus 12 12 0
      let s := if 2 ^ 20 ≤ s.sec.drbgUsed then s.setFld .secStatus 13 13 0 else s
      s.modSec (fun x => { x with retesting := true }))

/-- The start-up tests run again have ended; a second failure within one hour of local time is an error of the island (R420). -/
def execEntropyStartupTestDone (pass : Bool) (s : State) : Out :=
  whenMain s (fun s =>
    if s.sec.retesting = false then s
    else if pass then
      let s := (s.modSec (fun x => { x with retesting := false })).setFld .secStatus 12 12 1
      if 2 ^ 20 ≤ s.sec.drbgUsed then drbgFresh s else s
    else match s.sec.testFailed with
    | some t =>
      if s.pwr.localNs ≤ t + 3600 * 1000000000 then islandError 257 (s.modSec (fun x => { x with retesting := false }))
      else s.modSec (fun x => { x with testFailed := some s.pwr.localNs })
    | none => s.modSec (fun x => { x with testFailed := some s.pwr.localNs }))

/-! Keys and key slots. -/

/-- A key request of a mailbox, for the slice it acts for; in RETIRED the island offers no key service (R413). -/
def keyReq (c : Caller) (op : Nat) (s : State) (body : Nat → State → Option Reply × State) : Out :=
  whenOn s (fun s => mbxServe c op s (fun _ s => if retired s then refuse St.unsupported s else body (ownerOf c) s))

/-- KEY_ALLOC: the first run of free slots, within the grant or the pool (R317, R421). -/
def execKeyAlloc (c : Caller) (count : Nat) (s : State) : Out :=
  keyReq c 0x9001 s (fun n s =>
    if count = 0 then refuseAt 0x9001 0 St.invalidField s
    else if 4096 < count then refuseAt 0x9001 0 St.lenTooLarge s
    else if limitOf s n (·.keySlots) 63488 < (slotsOf s n).length + count then refuse (overLimit n) s
    else match firstFrom (fun r => (List.range count).all (fun i => !s.sec.slots.has (r + i))) firmwareSlots (63489 - count) with
    | none => refuse St.poolExhausted s
    | some r => accept ((List.range count).foldl (fun s i => s.setSlot (r + i) { owner := n }) s) [r])

/-- KEY_GENERATE (R421, R424). The persistent flag is for firmware only. -/
def execKeyGenerate (c : Caller) (slot : Nat) (mode : KeyMode) (limit : BitVec 48) (exportable persistent : Bool) (s : State) : Out :=
  keyReq c 0x9002 s (fun n s =>
    if slotHeld s slot n = false then refuse St.keyNotOwned s
    else if persistent then refuseAt 0x9002 3 St.invalidField s
    else if s.drbgOk = false then refuse St.drbgFailed s
    else
      let (key, s) := newKey mode s
      accept (slotLoad slot mode (if limit.toNat = 2 ^ 32 - 1 then 2 ^ 32 else limit.toNat + 1) key exportable false s))

/-- The transport keys of a slice. -/
def transports (s : State) (n : Nat) : List (Nat × List Byte) := s.sec.transport.get n []

def transportKey (s : State) (n i : Nat) : Option (List Byte) := ((transports s n).find? (fun p => p.1 == i)).map (·.2)

/-- KEY_AGREE: a transport key, a fifth in the place of the oldest (R422). -/
def execKeyAgree (c : Caller) (pub : List Byte) (s : State) : Out :=
  keyReq c 0x9003 s (fun n s =>
    if s.drbgOk = false then refuse St.drbgFailed s
    else
      let e := s.fresh
      let (_, s) := s.drbg 521
      let pasid := if n = 0 then 0 else (s.slice n).pasid
      let key := (Config.hkdf (jobSalt s) (Config.ecdh e pub) (ascii "vn700 transport" ++ leBytes 4 pasid)).take 32
      let l := transports s n
      let i := match firstBelow 4 (fun i => !l.any (fun p => p.1 == i)), l with
        | some i, _ => i
        | none, p :: _ => p.1
        | none, [] => 0
      let s := s.modSec (fun x => { x with transport := x.transport.set n (l.filter (fun p => p.1 != i) ++ [(i, key)]) })
      accept s [i, leNat (Config.publicKey e), leNat (Config.sign (Config.publicKey e))])

/-- KEY_IMPORT (R421, R422, R432): in every refusal the slot is left unchanged. -/
def execKeyImport (c : Caller) (slot : Nat) (mode : KeyMode) (limit : BitVec 48) (transport : Nat) (blob : Blob) (s : State) : Out :=
  keyReq c 0x9004 s (fun n s =>
    let want := match mode with
      | .gcm => 32
      | .xts => 64
    if slotHeld s slot n = false then refuse St.keyNotOwned s
    else match transportKey s n transport with
    | none => refuseAt 0x9004 3 St.invalidField s
    | some tk =>
      if 65544 < blob.length then refuseAt 0x9004 4 St.lenTooLarge s
      else if blob.length < 16 ∨ blob.length % 8 ≠ 0 then refuseAt 0x9004 4 St.invalidField s
      else match Config.kwpUnwrap tk blob with
      | none => refuse St.wrapAuth (s.bump .secWrapAuthFails)
      | some key =>
        if key.length ≠ want then refuseAt 0x9004 4 St.invalidField s
        else if mode = .xts ∧ key.take 32 = key.drop 32 then refuse St.keyWeak s
        else accept (slotLoad slot mode (if limit.toNat = 2 ^ 32 - 1 then 2 ^ 32 else limit.toNat + 1) key false false s))

/-- KEY_EXPORT (R421): only an exportable slot's key leaves, wrapped. -/
def execKeyExport (c : Caller) (slot transport : Nat) (s : State) : Out :=
  keyReq c 0x9005 s (fun n s =>
    if slotHeld s slot n = false then refuse St.keyNotOwned s
    else match s.sec.slots.find slot with
    | none => refuse St.keyNotOwned s
    | some t =>
      if t.state = .empty then refuse St.keyEmpty s
      else if t.exportable = false then refuse St.notExportable s
      else match transportKey s n transport with
      | none => refuseAt 0x9005 1 St.invalidField s
      | some tk => accept s [leNat (Config.kwpWrap tk t.key)])

/-- The slot scope of zeroization (R435, R436). -/
def zeroizeSlot (c : Caller) (k : Nat) (s : State) : State := zeroRecord 0 (mbxIdx c) (slotConnsSpent k (slotZeroize k s))

def execKeyZeroize (c : Caller) (slot : Nat) (s : State) : Out :=
  keyReq c 0x9006 s (fun n s => if slotHeld s slot n then accept (zeroizeSlot c slot s) else refuse St.keyNotOwned s)

/-- KEY_QUERY: state (0 EMPTY, 1 LOADED, 2 SPENT), mode (0 GCM, 1 XTS), limit as its field holds it, and count used. -/
def execKeyQuery (c : Caller) (slot : Nat) (s : State) : Out :=
  keyReq c 0x9007 s (fun n s =>
    if slotHeld s slot n = false then refuse St.keyNotOwned s
    else match s.sec.slots.find slot with
    | none => refuse St.keyNotOwned s
    | some t => accept s [(match t.state with
        | .empty => 0
        | .loaded => 1
        | .spent => 2), (match t.mode with
        | .gcm => 0
        | .xts => 1), t.limit - 1, t.used])

/-- KEY_FREE: the slots are zeroized and returned to the pool (R421). -/
def execKeyFree (c : Caller) (slot count : Nat) (s : State) : Out :=
  keyReq c 0x9008 s (fun n s =>
    if count = 0 then refuseAt 0x9008 1 St.invalidField s
    else if 4096 < count then refuseAt 0x9008 1 St.lenTooLarge s
    else if (List.range count).all (fun i => slotHeld s (slot + i) n) = false then refuse St.keyNotOwned s
    else
      accept ((List.range count).foldl (fun s i =>
        (zeroizeSlot c (slot + i) s).modSec (fun x => { x with slots := x.slots.del (slot + i) })) s))

/-! Wrapped contexts and failed engines. -/

/-- A wrapped context is restored once; one of an earlier start, or with a bad integrity check, is refused (R431). -/
def execContextRestore (serial generation : Nat) (macOk : Bool) (s : State) : Out :=
  whenEngine s (fun s =>
    if macOk = false ∨ generation ≠ s.sec.contextGen then (s.modSec (fun x => { x with ctxResult := St.wrapAuth })).bump .secWrapAuthFails
    else if s.sec.restored.contains serial then s.modSec (fun x => { x with ctxResult := St.contextReplay })
    else s.modSec (fun x => { x with ctxResult := St.success, restored := serial :: x.restored }))

/-- A wide engine's two computations differ: no part of the block leaves, and the engine is marked failed (R429). -/
def execCipherShadowMismatch (engine : Nat) (s : State) : Out :=
  if 32 < engine then .fault .noSuchUnit
  else whenEngine s (fun s =>
    log St.cipherMismatch .error (engineFail engine (s.bump .secShadowMismatch)) (a32 := engine) (inst := engine) (origin := 2))

/-! Attestation. Response and error codes are those of DSP0274 (assumption log). -/

def spdmError (code : Nat) (s : State) : State := s.emit (.spdm 0x7F [code] [])

abbrev spdmInvalid : Nat := 1
abbrev spdmNoSession : Nat := 2
abbrev spdmBusy : Nat := 3
abbrev spdmUnexpected : Nat := 4
abbrev spdmUnspecified : Nat := 5
abbrev spdmDecrypt : Nat := 6

/-- A request reaches the responder that answers: the island, or the boot ROM's in ERROR, which answers GET_VERSION and GET_CAPABILITIES only (R408). In RETIRED
there is no attestation (R413). `stage` is how far the negotiation must have come. -/
def spdmGate (rom : Bool) (stage : Nat) (s : State) (f : State → State) : Out :=
  whenMain s (fun s =>
    if retired s ∨ (secState s = 3 ∧ rom = false) then spdmError spdmUnspecified s
    else if s.sec.spdmStage < stage then spdmError spdmUnexpected s
    else f s)

def spdmStageTo (n : Nat) (s : State) : State := s.modSec (fun x => { x with spdmStage := n })

def execSpdmGetVersion (s : State) : Out := spdmGate true 0 s (fun s => (spdmStageTo 1 s).emit (.spdm 0x04 [0x12, 0x13] []))

/-- The capabilities of R416: CERT, CHAL, MEAS with signature and fresh, ENCRYPT, MAC, KEY_EX, HBEAT, KEY_UPD, SET_CERT. -/
def spdmCaps : Nat := 0x862F6

def execSpdmGetCapabilities (s : State) : Out := spdmGate true 1 s (fun s => (spdmStageTo 2 s).emit (.spdm 0x61 [spdmCaps] []))

def execSpdmNegotiateAlgorithms (supported : Bool) (s : State) : Out :=
  spdmGate false 2 s (fun s => if supported then (spdmStageTo 3 s).emit (.spdm 0x63 [] []) else spdmError spdmInvalid s)

/-- The certificate chain of a slot (R411, R413). -/
def chainOf (s : State) (slot : Nat) : Option (List Byte) :=
  if slot = 0 then some Config.factoryChain else if slot = 1 then s.sec.ownerChain else none

def execSpdmGetDigests (s : State) : Out :=
  spdmGate false 3 s (fun s =>
    let l := [0, 1].filterMap (chainOf s)
    s.emit (.spdm 0x01 [2 ^ l.length - 1] (l.flatMap Config.sha512)))

def execSpdmGetCertificate (slot off len : Nat) (s : State) : Out :=
  spdmGate false 3 s (fun s =>
    match chainOf s slot with
    | none => spdmError spdmInvalid s
    | some c =>
      if c.length ≤ off then spdmError spdmInvalid s
      else
        let p := slice c off len
        s.emit (.spdm 0x02 [slot, p.length, c.length - off - p.length] p))

/-- A block of the measurements: 1 to 5 as fixed at the start, 6 and 7 as they stand (R417, R418). -/
def measurement (s : State) (i : Nat) : List Byte :=
  if i ≤ 5 then s.sec.measured.get i []
  else if i = 6 then Config.sha512 ((kLifecycle :: [5, 6, 7, 8]).flatMap (fun w => leBytes 4 (s.kw w)))
  else Config.sha512 (((List.range 16).map (kRosterKey + ·) ++ [kRpCfg, kPortMode]).flatMap (fun w => leBytes 4 (s.kw w)))

def allBlocks (s : State) : List Byte := ((List.range 7).map (· + 1)).flatMap (measurement s)

/-- A signature by the identity key over what is given and a nonce of the DRBG, which cannot be had without it (R416, R419). -/
def spdmSigned (code : Nat) (fields : List Nat) (body over_ : List Byte) (s : State) : State :=
  if s.drbgOk = false then spdmError spdmUnspecified s
  else
    let (n, s) := s.drbg 256
    let nonce := leBytes 32 n
    s.emit (.spdm code fields (body ++ nonce ++ Config.sign (over_ ++ nonce ++ body)))

def execSpdmChallenge (slot : Nat) (nonce : List Byte) (s : State) : Out :=
  spdmGate false 3 s (fun s =>
    match chainOf s slot with
    | none => spdmError spdmInvalid s
    | some c => spdmSigned 0x03 [slot] (Config.sha512 c ++ Config.sha512 (allBlocks s)) nonce s)

/-- GET_MEASUREMENTS: index 0 asks for the number of blocks, 0xFF for all of them. -/
def execSpdmGetMeasurements (index : Nat) (signed : Bool) (nonce : List Byte) (s : State) : Out :=
  spdmGate false 3 s (fun s =>
    if 7 < index ∧ index ≠ 0xFF then spdmError spdmInvalid s
    else
      let n := if index = 0 then 7 else if index = 0xFF then 7 else 1
      let body := if index = 0 then [] else if index = 0xFF then allBlocks s else measurement s index
      if signed then spdmSigned 0x60 [index, n] body nonce s else s.emit (.spdm 0x60 [index, n] body))

/-- KEY_EXCHANGE opens a session, at most four at once (R416). -/
def execSpdmKeyExchange (slot : Nat) (pub : List Byte) (s : State) : Out :=
  spdmGate false 3 s (fun s =>
    if (chainOf s slot).isNone then spdmError spdmInvalid s
    else if 4 ≤ s.sec.sessions.length then spdmError spdmBusy s
    else if s.drbgOk = false then spdmError spdmUnspecified s
    else
      let e := s.fresh
      let (_, s) := s.drbg 521
      let id := s.sec.nextSession
      let s := s.modSec (fun x => { x with sessions := x.sessions ++ [{ id := id }], nextSession := id + 1 })
      spdmSigned 0x64 [id] (Config.publicKey e ++ Config.sha512 (allBlocks s)) pub s)

def spdmSession (s : State) (id : Nat) : Option SpdmSession := s.sec.sessions.find? (fun x => x.id == id)

def endSession (id : Nat) (s : State) : State := s.modSec (fun x => { x with sessions := x.sessions.filter (fun y => y.id != id) })

def execSpdmFinish (session : Nat) (ok : Bool) (s : State) : Out :=
  spdmGate false 3 s (fun s =>
    match spdmSession s session with
    | none => spdmError spdmNoSession s
    | some x =>
      if x.established then spdmError spdmUnexpected s
      else if ok then
        (s.modSec (fun y => { y with sessions := y.sessions.map (fun z => if z.id = session then { z with established := true } else z) })).emit
          (.spdm 0x65 [session] [])
      else spdmError spdmDecrypt (endSession session s))

/-- A request inside an established session. -/
def inSession (session : Nat) (s : State) (f : State → State) : Out :=
  spdmGate false 3 s (fun s => match spdmSession s session with
    | some x => if x.established then f s else spdmError spdmUnexpected s
    | none => spdmError spdmNoSession s)

def execSpdmHeartbeat (session : Nat) (s : State) : Out := inSession session s (fun s => s.emit (.spdm 0x68 [session] []))

def execSpdmKeyUpdate (session : Nat) (s : State) : Out := inSession session s (fun s => s.emit (.spdm 0x69 [session] []))

def execSpdmEndSession (session : Nat) (s : State) : Out :=
  inSession session s (fun s => (endSession session s).emit (.spdm 0x6C [session] []))

/-- SET_CERTIFICATE of slot 1, in SHIPPED only, moves the part to OWNED (R413, R416). -/
def execSpdmSetCertificate (session slot : Nat) (chain : List Byte) (s : State) : Out :=
  inSession session s (fun s =>
    if slot ≠ 1 then spdmError spdmInvalid s
    else if lcState s ≠ 1 then spdmError spdmUnexpected s
    else ((s.modSec (fun x => { x with ownerChain := some chain })).setKw kLifecycle (Nat.lor (s.kw kLifecycle / 4 * 4) 2)).emit (.spdm 0x6E [slot] []))

/-- Who zeroizes where an SPDM session asks for it. -/
abbrev spdmWho : Nat := 0x10000

/-- A security request through a session, answered with its status. -/
def spdmZeroize (retire force : Bool) (s : State) : State :=
  let (st, s) := deviceZeroize retire force spdmWho s
  s.emit (.spdm 0x7E [st.toNat] [])

def execSpdmVendorDefinedRequest (session : Nat) (retire force : Bool) (s : State) : Out := inSession session s (spdmZeroize retire force)

/-- Any session is established. -/
def spdmOpen (s : State) : Bool := s.sec.sessions.any (fun x => x.established)

/-- A zeroization or retirement as PF0's mailbox or an SPDM session asks for it. -/
def zeroizeBy (a : Agent) (op : Nat) (retire force : Bool) (s : State) : Out :=
  match a with
  | .pf0 => whenOn s (fun s => mbxServe .pf0 op s (fun _ s =>
      if retired s then refuse St.unsupported s
      else
        let (st, s) := deviceZeroize retire force (mbxIdx .pf0) s
        if st = St.success then accept s else refuse st s))
  | .spdm => spdmGate false 3 s (fun s => if spdmOpen s then spdmZeroize retire force s else spdmError spdmNoSession s)
  | _ => .next s

def execZeroize (a : Agent) (force : Bool) (s : State) : Out := zeroizeBy a 0x9010 false force s

def execLifecycleRetire (a : Agent) (s : State) : Out := zeroizeBy a 0x9011 true true s

end Sys2Proof.Machine
end

