-- ==== Sys2Proof/Machine/Bringup.lean ====
section
/-! DEFINITION. Bringing up a job (10): the roster and its fetch (R270 to R273), check-in and substitution (R277 to R280), ring, barrier and job-ready (R282 to
R285), and the pair keys of the job's devices (R426). -/

namespace Sys2Proof.Machine

open Sys2Proof

def State.modJob (s : State) (f : Job → Job) : State := { s with job := f s.job }

/-- The phases of HUB_BRINGUP_STATUS (R275). -/
abbrev phBoot : Nat := 1
abbrev phLink : Nat := 2
abbrev phRoster : Nat := 3
abbrev phRing : Nat := 4
abbrev phBarrier : Nat := 5
abbrev phReady : Nat := 6
abbrev phFail : Nat := 7

def bootPhase (s : State) : Nat := s.fld .hubBringupStatus 2 0
def setBootPhase (p : Nat) (s : State) : State := s.setFld .hubBringupStatus 2 0 p
def bringStatus (st : Status) (s : State) : State := s.setFld .hubBringupStatus 31 16 st.toNat

/-! The roster. -/

/-- The valid roster services from number `n` on, in ascending order (R270). -/
def nextSvc (s : State) (n : Nat) : Option Nat := firstFrom (fun i => natBit (s.kw (kSvc i)) 0) n (4 - n)

/-- A chunk asked for, with how often it has been. -/
def askChunk (i tries : Nat) (s : State) : State :=
  (s.modJob (fun j => { j with asked := j.asked.set i tries })).emit (.rosterGet s.job.svc i)

/-- The fetch turns to service `n` or the next valid one; with none left, the pass has failed (R270). -/
def askService (n : Nat) (s : State) : State :=
  match nextSvc s n with
  | some v => askChunk 0 1 (s.modJob (fun j => { j with fetching := true, svc := v, chunks := [], total := 0, asked := [] }))
  | none => bringStatus St.rosterUnreachable (s.modJob (fun j => { j with fetching := true, svc := 4, chunks := [], total := 0, asked := [] }))

/-- A service that does not answer, or whose roster is refused, is passed over. -/
def passService (s : State) : State := askService (s.job.svc + 1) s

/-- The digest that KEEP_ROSTER_KEY0 to KEY15 hold. -/
def rosterKeyDigest (s : State) : List Byte := (List.range 16).flatMap (fun i => leBytes 4 (s.kw (kRosterKey + i)))

def zeroBytes (l : List Byte) (i n : Nat) : Bool := (slice l i n).all (· == 0)

/-- An entry of the roster (R272). -/
def rosterEntry (l : List Byte) (i : Nat) : RosterEntry :=
  let e := slice l (200 + 48 * i) 48
  { devId := slice e 0 16, addr := fieldBE e 16 16, power := fieldLE e 32 2 }

def allDistinct : List (List Byte) → Bool
  | [] => true
  | x :: r => !r.contains x && allDistinct r

/-- The roster that bytes spell, where nothing of R272 refuses it. -/
def readRoster (s : State) (l : List Byte) : Option Roster :=
  let m := fieldLE l 24 2
  let p := fieldLE l 26 2
  let n := m + p
  let key := slice l 64 133
  let es := (List.range n).map (rosterEntry l)
  if fieldLE l 0 4 ≠ 1 ∨ fieldLE l 4 4 ≠ l.length ∨ l.length ≠ 332 + 48 * n ∨ m = 0 ∨ 16384 < m ∨ 1024 < p then none
  else if zeroBytes l 28 36 = false ∨ zeroBytes l 197 3 = false ∨ (List.range n).all (fun i => zeroBytes l (234 + 48 * i) 14) = false then none
  else if Config.sha512 key ≠ rosterKeyDigest s ∨ Config.verify key (l.take (l.length - 132)) (l.drop (l.length - 132)) = false then none
  else if allDistinct (es.map (·.devId)) = false then none
  else some { jobId := fieldLE l 8 8, tpg := fieldLE l 16 8, members := es.take m, spares := es.drop m, digest := (Config.sha512 l).take 16 }

/-- Where this device stands in a roster: its index, or its spare position (R273). -/
def ownMember (r : Roster) : Option Nat := firstBelow r.members.length (fun i => (r.members[i]?.map (·.devId)) == some Config.deviceId)
def ownSpare (r : Roster) : Option Nat := firstBelow r.spares.length (fun i => (r.spares[i]?.map (·.devId)) == some Config.deviceId)

/-- Index, position and role as the registers show them. -/
def showRole (s : State) : State :=
  let s := s.setFld .hubBringupStatus 7 6 (if s.job.index.isSome then 1 else if s.job.sparePos.isSome then 2 else 0)
  (s.setFld .hubBringupIndex 29 16 (s.job.sparePos.getD 0x3FFF)).setFld .hubBringupIndex 13 0 (s.job.index.getD 0x3FFF)

def jobDigest (s : State) : List Byte := match s.job.roster with
  | some r => r.digest
  | none => []

/-! Messages of bring-up (R274): domain 0, epoch 0. -/

def bringMsg (s : State) (type : Nat) (a : Nat := 0) (c : Nat := 0) (status : Status := 0) (payload : List Byte := []) : Msg :=
  { mkMsg s 0 type (status := status) (a := a) (c := c) (payload := payload) with epoch := 0 }

/-- The receive checks of a bring-up message (R218, R273). -/
def receiveBring (m : Msg) (s : State) (f : State → State) : Out :=
  whenOn s (fun s =>
    let h := s.job.hops.get m.hop {}
    if s.job.roster.isNone ∨ m.epoch ≠ 0 ∨ m.domain ≠ 0 ∨ m.seq.toNat ≤ h.rx ∨ m.auth = false then discard s
    else f (s.modJob (fun j => { j with hops := j.hops.set m.hop { h with rx := m.seq.toNat } })))

/-- A message of this device to indices 0 and 1. -/
def toBoth (m : Msg) (s : State) : State :=
  if selfId s = 0 then (if 1 < rosterSize s then sendMsg 1 m s else s) else sendMsg 0 m s

/-- A message for indices 0 and 1 as it arrives: index 0 copies it to index 1, the others pass it up (R219). -/
def atPair (m : Msg) (act : State → State) (s : State) : State :=
  let me := selfId s
  if me = 0 then act (if 1 < rosterSize s ∧ m.hop ≠ 1 ∧ m.sender ≠ 1 then sendMsg 1 m s else s)
  else if me = 1 then act (if m.hop ≠ 0 ∧ m.sender ≠ 0 ∧ s.job.bypass.contains 0 = false then sendMsg 0 m s else s)
  else sendMsg 0 m s

/-- A message down the tree; from an acting deputy to the children of index 0 too. -/
def bringDown (all_ : Bool) (m : Msg) (s : State) : State :=
  let me := selfId s
  (childrenOf s me ++ (if all_ ∧ me = 1 then (childrenOf s 0).filter (· != 1) else [])).foldl (fun s c => sendMsg c m s) s

/-- Index 0 serves, as far as this device knows: it has checked in on time, and no ROSTER_FINAL replaces it (R279). -/
def zeroServes (s : State) : Bool :=
  match s.job.final with
  | some l => !l.any (fun e => e.1 == 0)
  | none => s.job.checkins.contains (0, false)

/-- This device coordinates the bring-up: index 0, or index 1 in its place until JOB_READY (R278, R279). -/
def leadsBring (s : State) : Bool := if zeroServes s then s.job.index == some 0 else s.job.index == some 1

/-- Phase FAILED with its status, and a record (R285). -/
def bringFailed (st : Status) (idx : Nat) (s : State) : State :=
  log st .error (setBootPhase phFail (bringStatus st s)) (a32 := idx)

/-- The coordinator ends the bring-up in failure (R285). -/
def bringFail (st : Status) (idx : Nat) (s : State) : State :=
  bringFailed st idx (bringDown true (bringMsg s 0x27 (a := idx) (status := st)) s)

/-- The devices to which a member sends HELLO (R282). -/
def ringPeers (s : State) : List Nat :=
  match s.job.index with
  | none => []
  | some i =>
    let n := rosterSize s
    ([buddyOf n i, neighbourOf n i] ++ (if i = 0 then [] else [parentOf i])).foldl (fun l p => if p = i ∨ l.contains p then l else l ++ [p]) []

def helloBody (s : State) : List Byte := jobDigest s ++ s.job.finalTail

def sendHello (p : Nat) (s : State) : State := sendMsg p (bringMsg s 0x22 (payload := helloBody s)) s

/-- The roster entry of the device that holds an index or a spare position. -/
def holderEntry (s : State) (id : Nat) : Option RosterEntry :=
  match s.job.roster with
  | none => none
  | some r =>
    if 0x8000 ≤ id then r.spares[id - 0x8000]?
    else match (s.job.final.getD []).find? (fun e => e.1 == id) with
    | some e => r.spares[e.2.2]?
    | none => r.members[id]?

/-- A member's phases 4 and 5 go as far as they can: once each peer has answered and each child is covered it sends BARRIER, and index 0 JOB_READY (R284). -/
def checkBarrier (s : State) : State :=
  match s.job.index with
  | none => s
  | some i =>
    if s.job.final.isNone ∨ bootPhase s < phRing ∨ phBarrier < bootPhase s ∨ (ringPeers s).all (fun p => s.job.acked.contains p) = false then s
    else
      let s := setBootPhase phBarrier s
      let kids := (childrenOf s i).filter (fun c => decide (c < 0x8000))
      let total := 1 + sumOf (s.job.covered.unzip.2)
      if kids.all (fun c => s.job.covered.has c) = false then s
      else if i ≠ 0 then
        if s.job.sentBar then s
        else sendMsg (parentOf i) (bringMsg s 0x25 (a := total)) (s.modJob (fun j => { j with sentBar := true }))
      else if total < rosterSize s ∨ s.job.ready.isSome then s
      else
        let t := s.ft.now + 1000000
        bringDown false (bringMsg s 0x26 (c := t)) (s.modJob (fun j => { j with ready := some t }))

/-- Entries of ROSTER_FINAL (R274). -/
def finalBytes (l : List (Nat × Nat × Nat)) : List Byte := l.flatMap (fun e => leBytes 2 e.1 ++ leBytes 1 e.2.1 ++ leBytes 1 0 ++ leBytes 4 e.2.2)

def readFinal (p : List Byte) (n : Nat) : List (Nat × Nat × Nat) :=
  (List.range n).map (fun i => (fieldLE p (16 + 8 * i) 2, fieldLE p (18 + 8 * i) 1, fieldLE p (20 + 8 * i) 4))

/-- ROSTER_FINAL at each device (R277, R278, R282, R283): its final index or spare position, then HELLO to the peers that are new. A late member's position comes
after the listed spares, in the order of the late entries. -/
def applyFinal (l : List (Nat × Nat × Nat)) (payload : List Byte) (s : State) : State :=
  match s.job.roster with
  | none => s
  | some r =>
    let old := s.job.final
    let before := s.job.index
    let late := (l.filter (fun e => e.2.1 == 2)).map (·.1)
    let (idx, pos) : Option Nat × Option Nat := match ownMember r, ownSpare r with
      | some i, _ => if l.any (fun e => e.1 == i) then (none, (late.findIdx? (· == i)).map (r.spares.length + ·)) else (some i, none)
      | none, some q => match l.find? (fun e => e.2.2 == q) with
        | some e => (some e.1, none)
        | none => (none, some q)
      | none, none => (none, none)
    let moved (p : Nat) : Bool := (l.find? (fun e => e.1 == p)) != ((old.getD []).find? (fun e => e.1 == p))
    let s := s.modJob (fun j => { j with
      final := some l
      finalTail := (Config.sha512 payload).take 16
      index := idx
      sparePos := pos
      positions := r.spares.length + late.length
      used := l.map (fun e => e.2.2)
      acked := if old.isSome ∧ before = idx then j.acked.filter (fun p => !moved p) else []
      hellos := []
      covered := j.covered.keep (fun p _ => !moved p)
      sentBar := j.sentBar && (match idx with
        | some i => before == idx && !moved (parentOf i)
        | none => false) })
    let s := showRole s
    let s := if bootPhase s < phRing then setBootPhase phRing s else s
    let s := (ringPeers s).foldl (fun s p =>
      if s.job.acked.contains p then s else sendHello p (s.modJob (fun j => { j with hellos := j.hellos.set p 1 }))) s
    let s := match idx with
      | none => s
      | some i =>
        let b := buddyOf (rosterSize s) i
        match holderEntry s i, holderEntry s b with
        | some x, some y => if b ≠ i ∧ x.power = y.power ∧ (old.isNone ∨ before ≠ idx ∨ moved b) then log St.buddySamePower .advisory s (a32 := b) else s
        | _, _ => s
    checkBarrier s

/-- The spares that have checked in on time, in order of position, and are not used (R278). -/
def freeSpares (s : State) (used : List Nat) : List Nat :=
  (List.range (match s.job.roster with
    | some r => r.spares.length
    | none => 0)).filter (fun q => s.job.checkins.contains (0x8000 + q, false) && !used.contains q)

/-- Absent and late indices with their spares, in order; `.error` names the lowest left without one (R278, R280). -/
def giveSpares : List (Nat × Nat) → List Nat → Except Nat (List (Nat × Nat × Nat))
  | [], _ => .ok []
  | (i, _) :: _, [] => .error i
  | (i, k) :: r, q :: qs => match giveSpares r qs with
    | .ok l => .ok ((i, k, q) :: l)
    | .error e => .error e

/-- The coordinator sends ROSTER_FINAL; `gone` are indices found absent after an earlier one (R278, R282). Late entries come in the order of their check-ins. -/
def sendFinal (gone : List Nat) (s : State) : State :=
  let n := rosterSize s
  let kept := (s.job.final.getD []).filter (fun e => !gone.contains e.1)
  let fresh : List (Nat × Nat) := match s.job.final with
    | some _ => gone.map (fun i => (i, 1))
    | none =>
      ((List.range n).filter (fun i => !s.job.checkins.any (fun c => c.1 == i))).map (fun i => (i, 1)) ++
        (s.job.checkins.filter (fun c => decide (c.1 < n) && c.2)).map (fun c => (c.1, 2))
  let order := (List.range n).filterMap (fun i => fresh.find? (fun e => e.1 == i))
  match giveSpares order (freeSpares s s.job.used) with
  | .error i => bringFail St.noSpare i s
  | .ok l =>
    let l := kept ++ l.filter (fun e => e.2.1 == 1) ++ (fresh.filter (fun e => e.2 == 2)).filterMap (fun e => l.find? (fun x => x.1 == e.1))
    let payload := jobDigest s ++ finalBytes l
    applyFinal l payload (bringDown true (bringMsg s 0x21 (a := l.length) (payload := payload)) s)

/-- Every member index has checked in or is late. -/
def allCheckedIn (s : State) : Bool := (List.range (rosterSize s)).all (fun i => s.job.checkins.any (fun c => c.1 == i))

/-- A check-in at index 0 or 1. One after ROSTER_FINAL counts as late (R277). -/
def checkinAt (id : Nat) (late : Bool) (s : State) : State :=
  if s.job.checkins.any (fun c => c.1 == id) then s
  else
    let late := late || s.job.final.isSome
    let s := s.modJob (fun j => { j with checkins := j.checkins ++ [(id, late)] })
    if s.job.final.isNone ∧ allCheckedIn s = true ∧ leadsBring s = true then sendFinal [] s else s

/-- This device's CHECKIN (R274, R277). -/
def sendCheckin (s : State) : State :=
  let me := selfId s
  let s := if me ≤ 1 then checkinAt me s.job.late s else s
  toBoth (bringMsg s 0x20 (a := if s.job.late then 1 else 0) (c := s.ft.now) (payload := jobDigest s)) s

/-- A complete roster is checked and loaded (R272, R273, R276). -/
def loadRoster (s : State) : State :=
  let l := (List.range s.job.chunks.length).flatMap (fun i => s.job.chunks.get i [])
  match readRoster s l with
  | none => passService (bringStatus St.rosterInvalid s)
  | some r =>
    let s := s.modJob (fun j => { j with
      roster := some r
      fetching := false
      chunks := []
      asked := []
      late := j.late || decide (r.tpg + 20000000000 < s.ft.now)
      index := ownMember r
      sparePos := ownSpare r
      positions := r.spares.length })
    let s := showRole s
    if s.job.index.isNone ∧ s.job.sparePos.isNone then bringStatus St.notInRoster s else sendCheckin (bringStatus St.success s)

/-- The fetch of a roster starts at the first valid service (R270). -/
def startFetch (s : State) : State := askService 0 (setBootPhase phRoster s)

/-- Phase 2 ends once a port is up and fabric time is locked (R275). A root port without a device has nothing to train. -/
def linkPhase (s : State) : State :=
  if bootPhase s = phLink ∧ s.ft.state = .locked ∧ s.net.up.any (fun p => p.2) = true then startFetch (s.modJob (fun j => { j with phase2 := true })) else s

def execEthPortUp (port : Nat) (s : State) : Out :=
  if 32 < port then .fault .noSuchUnit else whenOn s (fun s => linkPhase (portUp port s))

/-- The chunks of a roster of `total` bytes. -/
def chunkCount (total : Nat) : Nat := ceilDiv total 4096

/-- The most that a roster can hold. -/
abbrev rosterMax : Nat := 332 + 48 * 17408

/-- Chunks not asked for yet are asked for in ascending order, at most 16 at once (R271). -/
def askMore : Nat → State → State
  | 0, s => s
  | n + 1, s =>
    if 16 ≤ s.job.asked.length then s
    else match firstBelow (chunkCount s.job.total) (fun i => !s.job.chunks.has i && !s.job.asked.has i) with
    | some i => askMore n (askChunk i 1 s)
    | none => s

def execRosterGetReply (svc chunk total : Nat) (data : List Byte) (s : State) : Out :=
  whenOn s (fun s =>
    let j := s.job
    if j.fetching = false ∨ svc ≠ j.svc ∨ j.asked.has chunk = false ∨ (j.total ≠ 0 ∧ total ≠ j.total) then s
    else if total = 0 ∨ rosterMax < total then passService (bringStatus St.rosterInvalid s)
    else if data.length ≠ min 4096 (total - 4096 * chunk) then s
    else
      let s := s.modJob (fun j => { j with total := total, chunks := j.chunks.set chunk data, asked := j.asked.del chunk })
      if s.job.chunks.length = chunkCount total then loadRoster s else askMore 16 s)

/-- 100 ms without an answer (R270, R271): a service that has not answered at all is passed over at once, another after three retries of a chunk. -/
def execRosterChunkTimeout (chunk : Nat) (s : State) : Out :=
  whenOn s (fun s =>
    match s.job.asked.find chunk with
    | none => s
    | some n => if s.job.fetching = false then s else if s.job.total = 0 ∨ 4 ≤ n then passService s else askChunk chunk (n + 1) s)

def execRosterRetryTimer (s : State) : Out :=
  whenOn s (fun s => if s.job.fetching ∧ s.job.svc = 4 then askService 0 s else s)

def execRosterRefetch (s : State) : Out :=
  whenOn s (fun s =>
    if s.job.fetching = false ∧ s.job.roster.isSome ∧ s.job.index.isNone ∧ s.job.sparePos.isNone ∧ s.fld .hubBringupStatus 31 16 = St.notInRoster.toNat then
      askService 0 s
    else s)

/-- The deadline of the phase that still runs passes (R277). -/
def execBringupPhaseDeadline (s : State) : Out :=
  whenOn s (fun s =>
    if phLink < bootPhase s then s
    else log St.bringupDeadline .error (bringStatus St.bringupDeadline (s.modJob (fun j => { j with late := true }))) (a32 := bootPhase s))

/-! Check-in and substitution. -/

/-- CHECKIN (R278). One with another roster's digest is no check-in. -/
def execCheckin (m : Msg) (s : State) : Out :=
  receiveBring m s (atPair m (fun s => if m.payload = jobDigest s then checkinAt m.sender.toNat (natBit m.a.toNat 0) s else s))

/-- t_pg + 20 s has come at the coordinator (R278). -/
def execRosterFinalDeadline (s : State) : Out :=
  whenOn s (fun s =>
    match s.job.roster with
    | none => s
    | some r => if s.job.final.isNone ∧ leadsBring s = true then sendFinal [] (ftReach (r.tpg + 20000000000) s) else s)

/-- t_pg + 21 s has come without ROSTER_FINAL (R279). -/
def execRosterFinalMissing (s : State) : Out :=
  whenOn s (fun s =>
    match s.job.roster with
    | none => s
    | some r => if s.job.final.isNone ∧ bootPhase s = phRoster then bringFailed St.coordinatorLost 0xFFFFFFFF (ftReach (r.tpg + 21000000000) s) else s)

def execRosterFinal (m : Msg) (s : State) : Out :=
  receiveBring m s (fun s =>
    let s := bringDown false m s
    if m.payload.take 16 ≠ jobDigest s then bringFailed St.rosterMismatch m.sender.toNat s
    else if bootPhase s < phRoster ∨ phBarrier < bootPhase s then s
    else applyFinal (readFinal m.payload (min m.a.toNat 1024)) m.payload s)

/-! Ring and barrier. -/

/-- HELLO before this device has its ROSTER_FINAL is not answered yet; one with other digests fails the bring-up of its sender (R274, R282). -/
def execHello (m : Msg) (s : State) : Out :=
  receiveBring m s (fun s =>
    if s.job.final.isNone then s
    else if m.payload = helloBody s then sendMsg m.sender.toNat (bringMsg s 0x23 (payload := helloBody s)) s
    else
      let s := sendMsg m.sender.toNat (bringMsg s 0x27 (a := m.sender.toNat) (status := St.rosterMismatch)) s
      if leadsBring s then bringFail St.rosterMismatch m.sender.toNat s else s)

def execHelloAck (m : Msg) (s : State) : Out :=
  receiveBring m s (fun s =>
    let p := m.sender.toNat
    if s.job.final.isNone ∨ s.job.hellos.has p = false then s
    else if m.payload = helloBody s then
      checkBarrier (s.modJob (fun j => { j with acked := p :: j.acked.filter (· != p), hellos := j.hellos.del p }))
    else
      let s := sendMsg p (bringMsg s 0x27 (a := p) (status := St.rosterMismatch)) s
      if leadsBring s then bringFail St.rosterMismatch p s else s)

/-- A report of an index that did not answer, at index 0 or 1 (R282, R284): it is absent where both its ring observers report it, or one does and the other is
absent itself, up to t_pg + 23 s; or where its parent reports it from t_pg + 26 s on. -/
def noAnswerAt (idx who : Nat) (s : State) : State :=
  match s.job.roster with
  | none => s
  | some r =>
    let n := rosterSize s
    let s := s.modJob (fun j => { j with noAnswer := if j.noAnswer.contains (idx, who) then j.noAnswer else j.noAnswer ++ [(idx, who)] })
    let gone (i : Nat) : Bool := s.job.bypass.contains i
    let told (i : Nat) : Bool := s.job.noAnswer.contains (idx, i)
    let b := buddyOf n idx
    let a := neighbourOf n idx
    let ring : Bool := (told b && (told a || gone a) || told a && gone b) && decide (s.ft.now ≤ r.tpg + 23000000000)
    let bar : Bool := idx != 0 && who == parentOf idx && decide (r.tpg + 26000000000 ≤ s.ft.now)
    if s.job.final.isNone ∨ leadsBring s = false ∨ n ≤ idx ∨ (ring = false ∧ bar = false) then s
    else
      sendFinal [idx] (s.modJob (fun j => { j with noAnswer := j.noAnswer.filter (fun p => p.1 != idx), bypass := idx :: j.bypass.filter (· != idx) }))

/-- This device reports an index. -/
def reportNoAnswer (idx : Nat) (s : State) : State :=
  let s := toBoth (bringMsg s 0x24 (a := idx)) s
  if selfId s ≤ 1 then noAnswerAt idx (selfId s) s else s

def execHelloTimeout (index : Nat) (s : State) : Out :=
  whenOn s (fun s =>
    match s.job.hellos.find index with
    | none => s
    | some n =>
      if bootPhase s ≠ phRing ∧ bootPhase s ≠ phBarrier then s
      else if n < 3 then sendHello index (s.modJob (fun j => { j with hellos := j.hellos.set index (n + 1) }))
      else reportNoAnswer index (s.modJob (fun j => { j with hellos := j.hellos.del index })))

def execNoAnswer (m : Msg) (s : State) : Out :=
  receiveBring m s (atPair m (fun s => noAnswerAt m.a.toNat m.sender.toNat s))

/-- BARRIER (R284): a parent that has sent its own relays a later one to index 0. -/
def execBarrier (m : Msg) (s : State) : Out :=
  receiveBring m s (fun s =>
    if m.status ≠ St.success then (if leadsBring s then bringFail m.status m.sender.toNat s else sendMsg 0 m s)
    else if s.job.index.isNone then s
    else if s.job.sentBar then sendMsg 0 m s
    else checkBarrier (s.modJob (fun j => { j with covered := j.covered.set m.sender.toNat m.a.toNat })))

/-- t_pg + 26 s has come without a child's BARRIER (R284): it is reported, and the parent's own BARRIER goes without it. -/
def execBarrierChildDeadline (child : Nat) (s : State) : Out :=
  whenOn s (fun s =>
    match s.job.roster with
    | none => s
    | some r =>
      if (bootPhase s ≠ phRing ∧ bootPhase s ≠ phBarrier) ∨ s.job.index.isNone ∨ (childrenOf s (selfId s)).contains child = false ∨ 0x8000 ≤ child ∨
          s.job.covered.has child = true then s
      else
        let s := ftReach (r.tpg + 26000000000) s
        let s := reportNoAnswer child s
        if selfId s = 0 then s else checkBarrier (s.modJob (fun j => { j with covered := j.covered.set child 0 })))

def execBringupTimeout (s : State) : Out :=
  whenOn s (fun s =>
    match s.job.roster with
    | none => s
    | some r =>
      if leadsBring s = false ∨ s.job.ready.isSome ∨ bootPhase s < phRoster ∨ phBarrier < bootPhase s then s
      else bringFail St.bringupTimeout 0xFFFFFFFF (ftReach (r.tpg + 30000000000) s))

def execJobReady (m : Msg) (s : State) : Out :=
  receiveBring m s (fun s =>
    let s := bringDown false m s
    if phBarrier < bootPhase s then s else s.modJob (fun j => { j with ready := some m.c.toNat }))

/-- T_ready has come (R284): job-ready, from which the storage service returns to its normal mode (R287). -/
def execJobReadyTime (s : State) : Out :=
  whenOn s (fun s =>
    match s.job.ready with
    | none => s
    | some t =>
      if phBarrier < bootPhase s ∨ bootPhase s < phRoster then s
      else
        let s := setBootPhase phReady (bringStatus St.success (ftReach t s))
        stoMode ((s.setReg .hubReadyTime t).modJob (fun j => { j with noAnswer := [], hellos := [], bypass := [] })))

/-- BRINGUP_FAIL (R285). -/
def execBringupFail (m : Msg) (s : State) : Out :=
  receiveBring m s (fun s =>
    let s := bringDown false m s
    if bootPhase s = phReady ∨ bootPhase s = phFail then s else bringFailed m.status m.a.toNat s)

/-- BRINGUP_RESTART: again from phase 3 with a fresh roster, while no domain is armed (R285). Before phase 3 there is nothing to start again. -/
def execBringupRestart (c : Caller) (s : State) : Out :=
  whenOn s (fun s => mbxServe c 0x100E s (fun _ s =>
    if armedDomains s ≠ [] then refuse St.domainArmed s
    else if bootPhase s < phRoster then refuse St.retry s
    else
      let s := s.modJob (fun j => { late := j.late, phase1 := j.phase1, phase2 := j.phase2, hops := j.hops, discarded := j.discarded })
      accept (startFetch (showRole (s.setReg .hubReadyTime 0)))))

/-! Pair keys. -/

/-- The lowest firmware slot that holds no key. -/
def freeFirmwareSlot (s : State) : Option Nat := firstBelow firmwareSlots (fun k => !s.sec.slots.has k)

/-- One exchange between the islands of this device and `peer` (R426). A failed check opens no connection, and during bring-up the peer counts as not answering. -/
def execPairKeyExchange (peer jobId : Nat) (peerPub ephPub : List Byte) (sigOk : Bool) (s : State) : Out :=
  whenOn s (fun s =>
    match s.job.roster, holderEntry s peer with
    | some r, some e =>
      if jobId ≠ r.jobId ∨ s.drbgOk = false ∨ secState s ≠ 2 ∨ s.sec.identity = false then s
      else if (Config.sha512 peerPub).take 16 ≠ e.devId ∨ sigOk = false then
        let s := log St.signatureInvalid .error s (a32 := peer) (origin := 2)
        if bootPhase s = phRing ∨ bootPhase s = phBarrier then reportNoAnswer peer s else s
      else
        let n := s.fresh
        let (_, s) := s.drbg 521
        let gen := match s.sec.pairs.find peer with
          | some p => p.gen + 1
          | none => 0
        match (match s.sec.pairs.find peer with
          | some p => some p.slot
          | none => freeFirmwareSlot s) with
        | none => s
        | some k =>
          let own := Config.deviceId
          let (lo, hi) := if beNat own ≤ beNat e.devId then (own, e.devId) else (e.devId, own)
          let z := Config.ecdh n ephPub
          let key := (Config.hkdf (leBytes 8 jobId) z (ascii "vn700 pair" ++ lo ++ hi ++ leBytes 8 gen)).take 32
          let s := (s.setSlot k { owner := 0 }) |> slotLoad k .gcm (2 ^ 48) key false false
          let s := s.modSec (fun x => { x with pairs := x.pairs.set peer { gen := gen, slot := k } })
          let s := s.modJob (fun j => { j with hops := j.hops.del peer })
          let pub := Config.publicKey n
          s.emit (.pairKey peer (Config.identityKey ++ pub ++ Config.sign (Config.sha512 (leBytes 8 jobId ++ own ++ e.devId ++ pub))))
    | _, _ => s)

end Sys2Proof.Machine
end

