-- ==== Sys2Proof/Machine/Power.lean ====
section
/-! DEFINITION. Supplies, power states and starts (R490 to R495, R508, R529 to R533), the power limit and the array clock (R25, R26, R51, R496, R500 to R502),
temperature (R497 to R499, R503), reference clocks (R535), the watcher (R469, R310) and the TAP (R529). -/

namespace Sys2Proof.Machine

open Sys2Proof

/-! The array clock, in 100 MHz units. -/

/-- The brake floor applies: BRAKE_N, Tj at 115 degrees, or Tj at 105 degrees with no power service (R498, R500, R501). -/
def floored (s : State) : Bool := s.pwr.brake || s.pwr.floor115 || s.pwr.floorSvc

/-- The clock that the allowance, the throttle and the floor leave (R502). After a brake the clock climbs to it in eight equal steps over 1 ms (R500). -/
def arrayClk (s : State) : Nat :=
  if s.arr.gated ∨ s.pwr.state ≠ .on then 0
  else if floored s then 12
  else
    let c := min s.pwr.allowClk (s.pwr.throttleClk.getD 22)
    match s.pwr.brakeEnd with
    | none => c
    | some t =>
      let k := (s.pwr.localNs - t) / 125000
      if 8 ≤ k then c else min c (12 + (c - 12) * k / 8)

/-- PWR_STATUS. -/
def pwrStatus (s : State) : Nat :=
  min s.pwr.average 4095 * 2 ^ 20 + arrayClk s * 2 ^ 15 + arrayClk s * 2 ^ 10 + (if s.pwr.state = .hardpan then 4 else 0) +
    (if floored s then 2 else 0) + (if s.pwr.throttleClk.isSome then 1 else 0)

/-- A peak above the TDP setting may go on, or begin: for at most 10 ms, after 100 ms without one, and neither throttled nor within 100 ms of a brake (R26, R498,
R500). -/
def peakAllowed (s : State) : Bool :=
  s.pwr.throttleClk.isNone && !s.pwr.brake && (match s.pwr.brakeEnd with
    | some t => decide (t + 100000000 ≤ s.pwr.localNs)
    | none => true) && (if s.pwr.peakMs = 0 then decide (100 ≤ s.pwr.quietMs) else decide (s.pwr.peakMs < 10))

/-- A 1 ms interval ends with the average package power and what the blocks other than the array drew (R25, R26, R496). The allowance of the next interval is that of
the setting, with what the others left, up to the ceiling of 300 W, less what a peak that may not be took too much. -/
def execPowerAverageInterval (average others : Nat) (s : State) : Out :=
  whenOn s (fun s =>
    let over_ : Bool := decide (s.pwr.tdpNow < average)
    let tdp := s.kw kTdp
    let base := min 300 (tdp - 370 + (370 - others))
    let allow := if over_ ∧ peakAllowed s = false then base - (average - s.pwr.tdpNow) else base
    s.modPwr (fun p => { p with
      average := average
      allowance := allow
      allowClk := max 12 (min 22 (Config.clockFor allow))
      peakMs := if over_ then p.peakMs + 1 else 0
      quietMs := if over_ then 0 else min 100 (p.quietMs + 1)
      tdpNow := tdp }))

/-! Temperature. -/

/-- The readings of a group of sensors, and how many are left out. -/
def readings (l : List (Option Nat)) : List Nat := l.filterMap id
def excludedCount (l : List (Option Nat)) : Nat := (l.filter (·.isNone)).length
def hottest (l : List Nat) : Nat := l.foldl max 0

/-- Sensors that fail their self-check, with their die (0 hub, 1 T0, 2 T1, 3 Silt of T0, 4 Silt of T1). -/
def failedSensors (die : Nat) (l : List (Option Nat)) : List (Nat × Nat) :=
  ((List.range l.length).filter (fun i => l[i]? == some none)).map (fun i => (die, i))

/-- The power and thermal service runs. -/
def thermalService (s : State) : Bool := svcRuns s svcPower

/-- THERMTRIP_N: every clock and SerDes stops until main power goes (R498, R499). -/
def thermtripNow (s : State) : State :=
  let s := setEmerg 0 s
  { s with
    arr := { s.arr with gated := true }
    net := { s.net with up := [] }
    pci := { s.pci with hostUp := false }
    pwr := { s.pwr with thermtrip := true, state := .tripped } }

/-- The thresholds of R498 and R501 on Tj. -/
def thermalAct (tj : Nat) (s : State) : State :=
  let s :=
    if 100 ≤ tj ∧ s.pwr.tjMark = false then setAlert 0 (s.modPwr (fun p => { p with tjMark := true }))
    else if tj < 97 then s.modPwr (fun p => { p with tjMark := false }) else s
  let s :=
    if 105 ≤ tj ∧ thermalService s = true then
      let s := if s.pwr.throttleDown then s else setAlert 2 s
      s.modPwr (fun p => { p with throttleDown := true, throttleClk := some (p.throttleClk.getD p.allowClk) })
    else if tj < 103 then s.modPwr (fun p => { p with throttleDown := false }) else s
  let s := s.modPwr (fun p => { p with
    floorSvc := if thermalService s then false else decide (105 ≤ tj) || (p.floorSvc && decide (103 ≤ tj))
    floor115 := decide (115 ≤ tj) || (p.floor115 && decide (112 ≤ tj))
    hot115 := if tj < 115 then none else some (p.hot115.getD p.localNs) })
  if 125 ≤ tj then thermtripNow s else s

/-- Every sensor is read (R497): `none` fails its self-check. -/
def execThermalSample (hub t0 t1 silt0 silt1 : List (Option Nat)) (s : State) : Out :=
  whenMain s (fun s =>
    let failed := failedSensors 0 hub ++ failedSensors 1 t0 ++ failedSensors 2 t1 ++ failedSensors 3 silt0 ++ failedSensors 4 silt1
    let new_ := failed.filter (fun f => !s.pwr.excluded.contains f)
    let s := new_.foldl (fun s f => log St.sensorExcluded .warning s (a32 := f.1 * 256 + f.2)) s
    let s := if new_ = [] then s else setAlert 1 s
    let die (l silt : List (Option Nat)) (most : Nat) : Nat :=
      max (hottest (readings l ++ readings silt)) (if most < excludedCount l then 115 else 0)
    let h := die hub [] 6
    let a := die t0 silt0 4
    let b := die t1 silt1 4
    let tj := max h (max a b)
    let s := s.modPwr (fun p => { p with excluded := failed })
    let s := s.setReg .pwrTj (min h 255 * 2 ^ 24 + min b 255 * 2 ^ 16 + min a 255 * 2 ^ 8 + min tj 255)
    thermalAct tj s)

/-- The throttle's timer: a step down each 1 ms until Tj is below 103 degrees, and up each 10 ms once it is below 100, to the allowance (R498). -/
def execThrottleStep (s : State) : Out :=
  whenMain s (fun s =>
    if thermalService s = false then s
    else match s.pwr.throttleClk with
    | none => s
    | some c =>
      if s.pwr.throttleDown then s.modPwr (fun p => { p with throttleClk := some (max 12 (c - 1)) })
      else if s.fld .pwrTj 7 0 < 100 then
        s.modPwr (fun p => { p with throttleClk := if p.allowClk ≤ c + 1 then none else some (c + 1) })
      else s)

def execBrakeNAssert (ns : Nat) (s : State) : Out :=
  whenMain s (fun s => if ns < 100 then s else setAlert 3 (s.modPwr (fun p => { p with brake := true, brakeEnd := none })))

def execBrakeNDeassert (s : State) : Out :=
  whenMain s (fun s => if s.pwr.brake then s.modPwr (fun p => { p with brake := false, brakeEnd := some p.localNs }) else s)

def execBrakeLong (s : State) : Out := whenMain s (fun s => if s.pwr.brake then setEmerg 2 s else s)

/-! Starts and stops. -/

/-- A keep word as the Kiln holds it. -/
def KeepWord.fromKiln (k : KeepWord) : KeepWord := { k with value := k.kiln, queued := false }

/-- The cells of memory that a cold start finds again: the host's memory, the namespaces' backings, and the Kiln's staging and active areas. -/
def survives (key : Nat) : Bool := let k := key / 2 ^ 72 % 16; k == 1 || k == 2 || k == 4 || k == 5

/-- The Strata that the boot ROM's scan finds (R474): its records, and the next number. -/
def scanStrata (x : Strata) : Strata := { kiln := x.kiln, nextSeq := x.kiln.foldl (fun n p => max n (p.2.seq + 1)) 0 }

/-- What a cold start finds (R19, R495): Kiln contents survive, with what the always-on island and the board hold; everything else stands at its reset value. -/
def coldFields (s : State) : State :=
  { State.reset with
    keep := s.keep.map (fun _ k => k.fromKiln)
    regs := s.regs.keep (fun k _ => k.name == .eicWatch || k.name == .eicAoTimer)
    strata := scanStrata s.strata
    mem := s.mem.filter (fun c => survives c.1)
    sto := (stoPowerLoss s).sto
    sec := { store := s.sec.store, identity := s.sec.identity, puf := s.sec.puf, ownerChain := s.sec.ownerChain, contextGen := s.sec.contextGen }
    fw := { active := s.fw.active, stagedLen := s.fw.stagedLen }
    irq := { aoCount := s.irq.aoCount }
    pwr := { State.reset.pwr with
      straps := s.pwr.straps
      strapNote := s.pwr.strapNote
      wake := s.pwr.wake
      brake := s.pwr.brake }
    pci := { State.reset.pci with pmeEn := s.pci.pmeEn, pmeStatus := s.pci.pmeStatus }
    pending := s.pending
    out := s.out
    fresh := s.fresh }

/-- The ports' modes as their keep words set them. -/
def portModes (s : State) : State :=
  { s with net := { s.net with mode := (List.range 8).map (fun p => (p, natBits (s.kw kPortMode) (2 * p + 1) (2 * p))) } }

/-- The keep words that have reached `n` changes. -/
def wornWords (n : Nat) (s : State) : Nat := (s.keep.filter (fun k => decide (n ≤ k.2.changes))).length

/-- The machine at the beginning of a cold start, with the registers that the keep words set. -/
def coldStart (s : State) : State :=
  let s2 := coldFields s
  let s2 := s2.setReg .pciRpActive (s2.kw kRpCfg)
  let s2 : State := (List.range 32).foldl (fun (s : State) sub => if subOwned s sub then s.setFld .pciRpStatus 7 7 1 sub else s) s2
  let s2 := portModes s2
  let s2 := s2.modPwr (fun p => { p with tdpNow := s2.kw kTdp })
  let s2 := s2.setReg .keepWorn (wornWords keepWornAt s2)
  let s2 : State := s2.setReg .keepFrozenWords (wornWords keepRated s2)
  if s2.ftSource = 0 then s2 else s2.modFt (fun f => { f with state := .acquiring })

/-- A start: the self-tests run, and the boot ROM does what it does first (R407, R478). -/
def startUp (s : State) : State := bootActions ((coldStart s).setFld .secStatus 1 0 1)

/-- Every keep word that waits reaches the Kiln (R492). -/
def persistAll (s : State) : State := { s with keep := s.keep.map (fun _ k => { k with kiln := k.value, queued := false }) }

/-- What MAIN_PG falling does (R492, R499, R533): Kiln writes accepted are completed, Strata's queue is lost, the accelerators are held in reset without power. -/
def mainStops (st : PwrState) (s : State) : State :=
  let s := persistAll s
  { s with
    strata := { s.strata with queue := [] }
    net := { s.net with up := [] }
    pci := { s.pci with hostUp := false }
    arr := { s.arr with gated := true }
    pwr := { s.pwr with
      state := st
      perstN := false
      perstOut := List.replicate 8 true
      accEn := List.replicate 8 false } }

/-- A watched source becomes active (R469): its block's EIC delivers a cluster source, and a slot with `wake` asserts WAKE_N while main power is away, or sends PM_PME from a
function in D3hot (R310). -/
def watcherActive (src : Nat) (s : State) : State :=
  let slots := (List.range 64).filter (fun n => s.fld .eicWatch 31 31 n == 1 && s.fld .eicWatch 15 0 n == src)
  if slots = [] ∨ s.pwr.auxPg = false then s
  else
    let s := if s.pwr.state = .on ∧ src / 1024 < 16 ∧ src % 1024 < 256 then eicEvent (src / 1024) (src % 1024) s else s
    if slots.any (fun n => s.fld .eicWatch 30 30 n == 1) = false then s
    else if s.pwr.mainPg then
      [Pf.pf0, Pf.pf1].foldl (fun s f =>
        if dState s f = 3 ∧ s.pci.pmeEn.contains f ∧ s.pci.hostUp then
          ({ s with pci := { s.pci with pmeStatus := f :: s.pci.pmeStatus.filter (· != f) } }).emit (.pmePme f)
        else s) s
    else
      { s with pwr := { s.pwr with wake := true }, pci := { s.pci with pmeStatus := s.pci.pmeEn } }

/-- The source number of the watcher's local source `n` (R460). -/
def watcherSrc (n : Nat) : Nat := 17 * 1024 + n

/-- A source of a cluster, of the hub or of the watcher becomes active (R469). Cluster and hub sources need the main supplies. -/
def execWatcherSource (source : BitVec 16) (s : State) : Out :=
  .next (if s.pwr.mainPg ∨ source.toNat / 1024 = 17 then watcherActive source.toNat s else s)

/-- The always-on count reaches EIC_AO_TIMER. -/
def execAoTimerReached (s : State) : Out :=
  .next (if s.pwr.auxPg then
    watcherActive (watcherSrc 0) { s with irq := { s.irq with aoCount := max s.irq.aoCount (s.reg .eicAoTimer) } } else s)

/-- A transfer addresses the part where its address is that of its straps (R529). -/
def execI3cTransfer (addr : BitVec 7) (s : State) : Out :=
  .next (if s.pwr.auxPg ∧ addr.toNat = 0x30 + s.pwr.straps % 8 then watcherActive (watcherSrc 1) s else s)

/-- AUX_PG rises (R491, R529): the always-on island starts and samples the straps. -/
def execAuxPgRise (straps : Byte) (s : State) : Out :=
  .next (if s.pwr.auxPg then s
  else s.modPwr (fun p => { p with auxPg := true, state := .aux, straps := straps.toNat, strapNote := decide (32 ≤ straps.toNat), wake := false }))

/-- AUX_PG falls: with main power it acts as MAIN_PG falling first; then the always-on island is reset (R530). -/
def execAuxPgFall (ns : Nat) (s : State) : Out :=
  .next (if ns < 1000 ∨ s.pwr.auxPg = false then s
  else
    let s := if s.pwr.mainPg then mainStops .aux s else s
    { s with
      regs := s.regs.keep (fun k _ => k.name != .eicWatch && k.name != .eicAoTimer)
      irq := { s.irq with aoCount := 0 }
      pwr := { s.pwr with auxPg := false, mainPg := false, state := .off, straps := 0, strapNote := false, wake := false, thermtrip := false } })

/-- MAIN_PG rises: a cold start (R491, R495, R530), and the watcher's source 3. -/
def execMainPgRise (s : State) : Out :=
  .next (if s.pwr.auxPg = false ∨ s.pwr.mainPg then s else startUp (watcherActive (watcherSrc 3) s))

def execMainPgFall (ns : Nat) (s : State) : Out :=
  .next (if ns < 1000 ∨ s.pwr.mainPg = false then s
  else (mainStops .aux s).modPwr (fun p => { p with mainPg := false, thermtrip := false }))

/-- The number of a main rail as its record names it, in the order of R490. -/
def railNum : Rail → Nat
  | .vio1v8 => 2
  | .vddhSds => 3
  | .vddSds => 4
  | .vddHub => 5
  | .vddKiln => 6
  | .vddqDdr => 7
  | .vddSilt => 8
  | .vddT0 => 9
  | .vddT1 => 10

/-- A main rail has been out of its tolerance (R493). -/
def execRailFault (r : Rail) (us : Nat) (s : State) : Out :=
  whenMain s (fun s =>
    if us ≤ 20 then s
    else
      let s := setAlert 5 (setEmerg 3 s)
      match r with
      | .vddT0 | .vddT1 | .vddSilt | .vddqDdr => enterHardpan St.powerFault s (a32 := railNum r)
      | _ => mainStops .heldInReset (log St.powerFault .error s (a32 := railNum r)))

/-- The accelerators' power (R532): port `p` gets it 10 ms × (p + 1) after MAIN_PG, unless the port is disabled. -/
def execAccPwrEnTimer (port : Nat) (s : State) : Out :=
  if 7 < port then .fault .noSuchUnit
  else whenMain s (fun s =>
    if rpDisabled s port ∨ s.pwr.accEn.getD port false then s
    else s.modPwr (fun p => { p with accEn := p.accEn.set port true, accSince := p.accSince.set port p.localNs }))

/-- The moment at which a port's PERST_OUT_N may be deasserted has come (R532): a passed port's by hardware, an owned one's by firmware once it runs. -/
def execPerstOutRelease (port : Nat) (s : State) : Out :=
  if 7 < port then .fault .noSuchUnit
  else whenMain s (fun s =>
    let owned : Bool := rpOwned s port && !rpDisabled s port && s.pwr.accEn.getD port false && s.fw.released && s.pwr.state == .on
    if perstRelease s port ∨ owned then s.modPwr (fun p => { p with perstOut := p.perstOut.set port false }) else s)

/-! Reference clocks. -/

def clkNum : RefClk → Nat
  | .host => 0
  | .rp => 1
  | .eth => 2

/-- A reference clock stops or leaves its figures (R535). -/
def execClockLost (clk : RefClk) (s : State) : Out :=
  whenMain s (fun s =>
    if s.pwr.clkLost.contains clk then s
    else
      let s := log St.clockLost .error (s.modPwr (fun p => { p with clkLost := clk :: p.clkLost })) (a32 := clkNum clk)
      match clk with
      | .host => hostLinkDown s
      | .rp => (List.range 32).foldl (fun s sub => if subExists s sub ∧ s.fld .pciRpStatus 8 8 sub = 1 then rootDown sub s else s) s
      | .eth =>
        let s := (List.range 33).foldl (fun s lp => portDown lp s) s
        if s.ft.state = .locked ∨ (s.ft.valid ∧ s.ft.state ≠ .holdover ∧ s.ft.state ≠ .free) then ftHoldover s else s)

def execClockStable (clk : RefClk) (s : State) : Out :=
  whenMain s (fun s => s.modPwr (fun p => { p with clkLost := p.clkLost.filter (· != clk) }))

/-! The end of phase 1. -/

/-- DDR is trained and the self-tests have ended: the services run, and phase 2 begins (R275, R293). -/
def execBootPhaseComplete (s : State) : Out :=
  whenOn s (fun s =>
    if s.fw.released = false ∨ bootPhase s ≠ phBoot then s
    else
      let s := { s with fw := { s.fw with services := (List.range 14).map (fun n => (n, { s.service n with state := .running })) } }
      let s := (s.setReg .hubEmuStatus 0).modPwr (fun p => { p with floorSvc := false })
      linkPhase (setBootPhase phLink (s.modJob (fun j => { j with phase1 := true }))))

/-! The TAP (R529): the sixteen states of IEEE 1149.1, each scan in pairs of the data and the instruction column. -/

/-- The state after a TCK edge. 0 Test-Logic-Reset, 1 Run-Test/Idle, 2 to 8 Select, Capture, Shift, Exit1, Pause, Exit2 and Update of DR, 9 to 15 of IR. -/
def tapNext (st : Nat) (tms : Bool) : Nat :=
  let pick (a b : Nat) : Nat := if tms then a else b
  match st with
  | 0 => pick 0 1
  | 1 => pick 2 1
  | 2 => pick 9 3
  | 3 => pick 5 4
  | 4 => pick 5 4
  | 5 => pick 8 6
  | 6 => pick 7 6
  | 7 => pick 8 4
  | 8 => pick 2 1
  | 9 => pick 0 10
  | 10 => pick 12 11
  | 11 => pick 12 11
  | 12 => pick 15 13
  | 13 => pick 14 13
  | 14 => pick 15 11
  | _ => pick 2 1

/-- Bits of a number, the lowest first, and back. -/
def bitsOf (n v : Nat) : List Bool := (List.range n).map (fun i => natBit v i)
def ofBits (l : List Bool) : Nat := l.foldr (fun b n => 2 * n + (if b then 1 else 0)) 0

/-- The register that an instruction connects takes its value (IEEE 1149.1): IDCODE's with its lowest bit 1, the boundary cells as the pins stand, else the bypass bit. -/
def tapCapture (s : State) : List Bool × State :=
  if s.pwr.tapIr = 1 then (true :: (bitsOf 32 Config.tapId).tail, s)
  else if s.pwr.tapIr = 2 ∨ s.pwr.tapIr = 3 then
    let (v, s) := s.draw Config.tapCells
    (bitsOf Config.tapCells v, s)
  else ([false], s)

/-- What a TCK edge does in the present state. -/
def tapAct (tdi : Bool) (s : State) : State :=
  match s.pwr.tapState with
  | 0 => s.modPwr (fun p => { p with tapIr := 1 })
  | 3 =>
    let (l, s) := tapCapture s
    s.modPwr (fun p => { p with tapShift := l })
  | 10 =>
    let (v, s) := s.draw Config.tapIrLen
    s.modPwr (fun p => { p with tapShift := true :: false :: (bitsOf Config.tapIrLen v).drop 2 })
  | 4 => s.modPwr (fun p => { p with tdo := p.tapShift.headD false, tapShift := p.tapShift.tail ++ [tdi] })
  | 11 => s.modPwr (fun p => { p with tdo := p.tapShift.headD false, tapShift := p.tapShift.tail ++ [tdi] })
  | 8 => s.modPwr (fun p => { p with tapPins := if p.tapIr = 2 ∨ p.tapIr = 3 then p.tapShift else p.tapPins })
  | 15 => s.modPwr (fun p => { p with tapIr := if p.tapShift.all (fun b => b) then 0 else Config.tapOp (ofBits p.tapShift) })
  | _ => s

/-- One TCK edge: the TAP acts in its state and moves on. -/
def execTapTckEdge (tms tdi : Bool) (s : State) : Out :=
  .next (if s.pwr.mainPg then (tapAct tdi s).modPwr (fun p => { p with tapState := tapNext p.tapState tms }) else s)

end Sys2Proof.Machine
end

