-- ==== Sys2Proof/Machine/Firmware.lean ====
section
/-! DEFINITION. The firmware (17): the mailbox's own commands (R439, R442, R443), staging and activation (R450 to R452, R458), the log (R448), crashes and restarts
of services (R266, R267, R269), orderly shutdown and restart (R453). -/

namespace Sys2Proof.Machine

open Sys2Proof

def State.modFw (s : State) (f : Firmware → Firmware) : State := { s with fw := f s.fw }

/-! The mailbox. -/

/-- In Hardpan every request that the recovery handler does not serve is refused at once (R459). -/
def hardpanRefuses (c : Caller) (s : State) : State :=
  match (s.mailbox c).frame with
  | some f =>
    if s.pwr.state = .hardpan ∧ c = .pf0 ∧ (s.mailbox c).taken = true ∧ hardpanServes f.opcode = false then mbxReply c { status := St.serviceDown } s else s
  | none => s

/-- A mailbox's registers take writes: those of a function in D0 outside an FLR, a slice's under R320. -/
def mbxWritable (s : State) (c : Caller) : Bool :=
  match c with
  | .pf0 => dState s .pf0 == 0 && !s.pci.flr.contains .pf0
  | .pf1 => dState s .pf1 == 0 && !s.pci.flr.contains .pf1
  | .slice n => pageOpen s n

/-- MBX_DOORBELL (R439): slices have their doorbells counted where they are ignored (R320). -/
def execMbxDoorbell (c : Caller) (v : Word) (opcode seq length : BitVec 16) (flags : Byte) (s : State) : Out :=
  let f : Frame := { opcode := opcode.toNat, seq := seq.toNat, length := length.toNat, flags := flags.toNat }
  let ring (s : State) : State :=
    match mbxWritable s c, c with
    | true, _ => hardpanRefuses c (mbxDoorbell c v f s)
    | false, .slice n => pageIgnored n s
    | false, _ => s
  match c with
  | .slice n => whenPage n s ring
  | _ => whenMain s ring

def execMailboxHeldRequest (c : Caller) (s : State) : Out := whenMain s (fun s => hardpanRefuses c (mbxTakeHeld c s))

def execMbxEvtPop (c : Caller) (s : State) : Out :=
  match c with
  | .slice n => whenPage n s (fun s => if pageOpen s n then mbxEvtPop c s else pageIgnored n s)
  | _ => whenMain s (fun s => if mbxWritable s c then mbxEvtPop c s else s)

def execNegotiate (c : Caller) (major minor : Byte) (features : BitVec 256) (s : State) : Out :=
  whenOn s (fun s => mbxServe c 0xA001 s (fun _ s => negotiateReq c major minor features s))

/-! Staging. -/

/-- A bundle activated now would not be applied at a start that follows (R458). -/
def fwDeferred (s : State) : Bool := s.kw kEmerg != 0 || s.pwr.brake || decide (105 ≤ s.fld .pwrTj 7 0)

/-- FW_STATUS (R458): stage, copy_step, last_result, the four versions, KEEP_EMERG, KEEP_SHUTDOWN and the deferred flag. -/
def fwStatusReq (s : State) : Option Reply × State :=
  let v := s.kw kFwState
  accept s ([natBits v 1 0, natBits v 7 4, natBits v 31 16] ++ ([1, 2, 3, 4].map (activeVersion s)) ++
    [s.kw kEmerg, s.kw kShutdown, if fwDeferred s then 1 else 0])

/-- What PF0 and PF1 are as staging owners. -/
def stagingOwner (c : Caller) : Nat := if c = .pf1 then 1 else 0

/-- A staging request of the other function while one stages is refused (R450). -/
def fwBusy (c : Caller) (s : State) : Bool := fwStage s == 1 && natBits (s.kw kFwState) 15 8 != stagingOwner c

/-- FW_STAGE_OPEN (R450). -/
def fwOpenReq (c : Caller) (s : State) : Option Reply × State :=
  if fwBusy c s then refuse St.fwBusy s
  else if fwStage s ≠ 0 then refuse St.fwState s
  else accept ((setFwState 15 8 (stagingOwner c) (setFwState 1 0 1 s)).modFw (fun w => { w with stagedLen := 0 }))

/-- A request with an indirect buffer needs feature 1 where it is negotiated (R443), and flag [0] (R437). -/
def indirectRefusal (c : Caller) (f : Frame) (s : State) : Option (Status × Nat) :=
  if s.pwr.state ≠ .hardpan ∧ (match (s.mailbox c).negotiated with
      | some (_, map) => map.getLsbD 1
      | none => true) = false then some (St.unsupported, 0xFFFF)
  else if natBit f.flags 0 = false then some (St.invalidField, 6)
  else none

/-- The status with which a transfer of `n` bytes at a caller's buffer address ends, if any. DDR is out of use in Hardpan (R505). -/
def bufferRefusal (c : Caller) (a n : Nat) (rd : Bool) (s : State) : Option Status :=
  match callerSpace c a with
  | .array =>
    if s.pwr.state = .hardpan ∨ ddrBase + Config.ddrBytes < a + n then some St.addrRange
    else if rd ∧ (eccHit s a n).isSome then some St.dataUncorrectable
    else none
  | _ => if 2 ^ 64 < a + n then some St.addrRange else hostRefusal s c

/-- FW_STAGE_WRITE (R450). -/
def fwWriteReq (c : Caller) (offset length source : Nat) (f : Frame) (s : State) : Option Reply × State :=
  if fwBusy c s then refuse St.fwBusy s
  else if fwStage s ≠ 1 then refuse St.fwState s
  else match indirectRefusal c f s with
  | some (st, at_) => refuse st s at_
  | none =>
    if length = 0 then refuseAt 0x1003 1 St.invalidField s
    else if 16 * 2 ^ 20 < length then refuseAt 0x1003 1 St.lenTooLarge s
    else if 256 * 2 ^ 20 < offset + length then refuseAt 0x1003 0 St.addrRange s
    else match bufferRefusal c source length true s with
    | some st => if st = St.addrRange then refuse st s 8 else refuse st s
    | none => accept (s.copy .staging offset (callerSpace c source) source length)

/-- FW_STAGE_CLOSE (R450). -/
def fwCloseReq (c : Caller) (total : Nat) (s : State) : Option Reply × State :=
  if fwBusy c s then refuse St.fwBusy s
  else if fwStage s ≠ 1 then refuse St.fwState s
  else if 256 * 2 ^ 20 < total then refuseAt 0x1004 0 St.addrRange s
  else accept ((setFwState 1 0 2 s).modFw (fun w => { w with stagedLen := total }))

/-- FW_ACTIVATE (R452, R458). -/
def fwActivateReq (c : Caller) (s : State) : Option Reply × State :=
  if fwBusy c s then refuse St.fwBusy s
  else if fwStage s < 2 then refuse St.fwState s
  else (some { deferred := fwDeferred s }, setFwState 1 0 3 s)

/-- FW_DISARM (R450). -/
def fwDisarmReq (c : Caller) (s : State) : Option Reply × State :=
  if fwBusy c s then refuse St.fwBusy s
  else if fwStage s ≠ 3 then refuse St.fwState s
  else accept (setFwState 1 0 2 s)

/-- FW_DISCARD (R450). -/
def fwDiscardReq (c : Caller) (s : State) : Option Reply × State :=
  if fwBusy c s then refuse St.fwBusy s
  else if fwStage s = 3 then refuse St.fwState s
  else accept (setFwState 1 0 0 s)

def execFwStatus (c : Caller) (s : State) : Out := whenMain s (fun s => mbxServe c 0x1001 s (fun _ s => fwStatusReq s))
def execFwStageOpen (c : Caller) (s : State) : Out := whenMain s (fun s => mbxServe c 0x1002 s (fun _ s => fwOpenReq c s))
def execFwStageWrite (c : Caller) (offset length source : Nat) (s : State) : Out :=
  whenMain s (fun s => mbxServe c 0x1003 s (fun f s => fwWriteReq c offset length source f s))
def execFwStageClose (c : Caller) (total : Nat) (s : State) : Out := whenMain s (fun s => mbxServe c 0x1004 s (fun _ s => fwCloseReq c total s))
def execFwActivate (c : Caller) (s : State) : Out := whenMain s (fun s => mbxServe c 0x1005 s (fun _ s => fwActivateReq c s))
def execFwDisarm (c : Caller) (s : State) : Out := whenMain s (fun s => mbxServe c 0x1006 s (fun _ s => fwDisarmReq c s))
def execFwDiscard (c : Caller) (s : State) : Out := whenMain s (fun s => mbxServe c 0x1007 s (fun _ s => fwDiscardReq c s))

/-! The log. -/

/-- The 64 bytes of a log record (R447). -/
def LogRec.bytes (r : LogRec) : List Byte :=
  leBytes 8 r.seq ++ leBytes 8 r.time ++ [BitVec.ofNat 8 r.service, BitVec.ofNat 8 r.level] ++ leBytes 2 r.message ++
    leBytes 4 (r.core % 16 * 2 ^ 28 + r.pc / 4 % 2 ^ 28) ++ ((List.range 5).map (fun i => leBytes 8 (r.args.getD i 0))).flatten

/-- LOG_READ (R448): the first number copied, and the count. With nothing to copy, the first number is a free value. -/
def logReadReq (c : Caller) (start count buffer : Nat) (f : Frame) (s : State) : Option Reply × State :=
  match indirectRefusal c f s with
  | some (st, at_) => refuse st s at_
  | none =>
    if count = 0 then refuseAt 0x1008 1 St.invalidField s
    else if 16384 < count then refuseAt 0x1008 1 St.lenTooLarge s
    else
      let l := (s.fw.log.filter (fun r => decide (start ≤ r.seq))).take count
      match bufferRefusal c buffer (64 * l.length) false s with
      | some st => if st = St.addrRange then refuse st s 8 else refuse st s
      | none =>
        match l with
        | [] =>
          let (v, s) := s.draw 64
          accept s [v, 0]
        | r :: _ => accept (s.store (callerSpace c buffer) buffer (l.map LogRec.bytes).flatten) [r.seq, l.length]

def execLogRead (c : Caller) (start count buffer : Nat) (s : State) : Out :=
  whenOn s (fun s => mbxServe c 0x1008 s (fun f s => logReadReq c start count buffer f s))

/-! Crashes and restarts. -/

/-- The service that a number names: cores 7 and 11 are second cores of the services of 6 and 10. -/
def serviceOf (n : Nat) : Nat := if n = 7 then 6 else if n = 11 then 10 else n

/-- The essential services: mailbox, power and thermal, security, spare remap, fabric time (R269). -/
def essential (n : Nat) : Bool := decide (n < 5)

def setService (n : Nat) (v : Service) (s : State) : State := s.modFw (fun w => { w with services := w.services.set n v })

/-- Service `n`'s registers hold values from before its stop, or no longer (R446): the second core's bit goes with the first's. -/
def setStale (n : Nat) (b : Bool) (s : State) : State :=
  let v := if b then 1 else 0
  let s := s.setFld .hubEmuStatus n n v
  if n = 6 ∨ n = 10 then s.setFld .hubEmuStatus (n + 1) (n + 1) v else s

/-- The requests that a service has taken and not committed complete with RETRY (R267). -/
def retryRequests (n : Nat) (s : State) : State :=
  s.mbx.foldl (fun s p =>
    match p.2.frame with
    | some f =>
      let mine : Bool := match opInfo f.opcode with
        | some i => i.svc == n && f.opcode / 4096 != 9
        | none => n == svcMailbox
      if (p.2.taken && mine) = true then mbxRetry p.1 s else s
    | none => s) s

/-- A service is held down, or the device enters Hardpan for an essential one (R269): its requests complete with SERVICE_DOWN. -/
def holdDown (n : Nat) (s : State) : State :=
  let s := setService n { s.service n with state := .heldDown } s
  if essential n then enterHardpan St.serviceDown s (a32 := n)
  else
    s.mbx.foldl (fun s p =>
      match p.2.frame with
      | some f =>
        if p.2.taken ∧ (opInfo f.opcode).any (fun i => i.svc == n && f.opcode / 4096 != 9) then mbxReply p.1 { status := St.serviceDown } s else s
      | none => s) s

def crashNum : CrashCause → Nat
  | .missedKick => 0
  | .doubleFault => 1

/-- A service's watchdog fires (R266, R269). `spareCore`: its core fails the self-test, so that a standby core must take the service. -/
def watchdogFire (n : Nat) (cause : CrashCause) (pc : Word) (spareCore : Bool) (s : State) : State :=
  let v := s.service n
  if v.state ≠ .running then s
  else
    let s := logRec { code := St.serviceCrash, sev := .error, inst := n, a32 := n, a0 := v.core, a1 := crashNum cause, a2 := pc.toNat } s
    let now := s.pwr.localNs
    let recent := v.crashes.filter (fun t => decide (now ≤ t + 600000000000))
    let v := { v with crashes := (now :: recent).take 4, state := .restarting }
    let s := s.modCore (256 + v.core) (fun c => { c with run := .stopped })
    let s := setStale n true (setService n v s)
    let s := if n = svcPower ∧ 105 ≤ s.fld .pwrTj 7 0 then s.modPwr (fun p => { p with floorSvc := true }) else s
    if 3 ≤ recent.length then holdDown n s
    else
      let s := if n = svcMailbox then s else retryRequests n s
      if spareCore then
        match [14, 15].find? (fun c => !s.fw.standbyUsed.contains c) with
        | some c => setService n { v with core := c } (s.modFw (fun w => { w with standbyUsed := c :: w.standbyUsed }))
        | none => holdDown n s
      else s

def execWatchdogFire (service : Nat) (cause : CrashCause) (pc : Word) (spareCore : Bool) (s : State) : Out :=
  if 13 < service then .fault .noSuchUnit
  else whenOn s (fun s => watchdogFire (serviceOf service) cause pc spareCore s)

/-- A service runs again (R266): its registers are brought up to date, and what it had taken and not committed is answered (R267). -/
def serviceStarts (n : Nat) (s : State) : State :=
  let v := s.service n
  let s := setStale n false (setService n { v with state := .running } s)
  let s := s.modCore (256 + v.core) (fun c => { c with run := .running })
  let s := if n = svcPower then s.modPwr (fun p => { p with floorSvc := false }) else s
  if n = svcMailbox then retryRequests n s else s

def execServiceRestartComplete (service : Nat) (s : State) : Out :=
  if 13 < service then .fault .noSuchUnit
  else whenOn s (fun s => if (s.service (serviceOf service)).state = .restarting then serviceStarts (serviceOf service) s else s)

/-- SERVICE_RESTART (R269): a held-down service starts again. -/
def serviceRestartReq (n : Nat) (s : State) : Option Reply × State :=
  if 13 < n ∨ n = 7 ∨ n = 11 then refuseAt 0x1009 0 St.invalidField s
  else if (s.service n).state = .heldDown then accept (serviceStarts n (setService n { s.service n with crashes := [] } s))
  else accept s

def execServiceRestart (c : Caller) (service : Nat) (s : State) : Out :=
  whenOn s (fun s => mbxServe c 0x1009 s (fun _ s => serviceRestartReq service s))

/-! Orderly shutdown. -/

/-- Every write accepted is journaled (R393). -/
def journalAll (s : State) : State := stoAdvance (s.modSto (fun x => { x with journal := x.journal.map (fun _ e => { e with sealed := true }) }))

/-- The three conditions under which KEEP_EMERG is cleared (R453). A rail out of its tolerance has put the device into Hardpan. -/
def calm (s : State) : Bool :=
  !s.pwr.brake && decide (s.fld .pwrTj 7 0 < 105) &&
    !(s.pwr.state == .hardpan && s.fld .pwrHardpan 31 16 == St.powerFault.toNat)

/-- An orderly shutdown (R453, R479): new requests get RETRY, the engines stand still. -/
def orderlyShutdown (s : State) : State :=
  let s := s.modFw (fun w => { w with shutDown := true })
  let s := if s.pwr.state = .on then journalAll { s with frozen := true } else s
  let s := strataSync s
  let s := if calm s then s.setKw kEmerg 0 else s
  s.setKw kShutdown (Nat.lor (s.kw kShutdown) 1)

def execShutdown (c : Caller) (s : State) : Out := whenMain s (fun s => mbxServe c 0x100A s (fun _ s => accept (orderlyShutdown s)))

/-- Every queued record of Strata reaches the Kiln. -/
def strataFlush (s : State) : State := s.strata.queue.foldl (fun s _ => strataWrite s) s

/-- The start without removing power (R453): the supplies, the pins and local time go on. -/
def restart (s : State) : State :=
  let p := s.pwr
  (startUp (persistAll (strataFlush s))).modPwr (fun q => { q with
    perstN := p.perstN
    perstOut := p.perstOut
    accEn := p.accEn
    accSince := p.accSince
    localNs := p.localNs })

/-- DEVICE_RESTART (R453). -/
def deviceRestart (c : Caller) (force : Bool) (s : State) : State :=
  let t := mbxServe c 0x100B s (fun _ s =>
    if armedDomains s ≠ [] ∧ force = false then refuse St.domainArmed s
    else accept (orderlyShutdown (disarmAll s)))
  if t.fw.shutDown ∧ ¬ s.fw.shutDown then restart t else t

def execDeviceRestart (c : Caller) (force : Bool) (s : State) : Out := whenOn s (fun s => deviceRestart c force s)

end Sys2Proof.Machine
end

