-- ==== Sys2Proof/Machine/Recovery.lean ====
section
/-! DEFINITION. Failure and recovery (R238 to R265): watching members, declaring departures, the stop, the target steep, takeover by a spare, restores,
reload and resume. -/

namespace Sys2Proof.Machine

open Sys2Proof

/-- CAD_RECOVERY_INFO.phase. -/
abbrev phStopping : Nat := 1
abbrev phRestoring : Nat := 2
abbrev phReloading : Nat := 3
abbrev phWaitSpare : Nat := 4
abbrev phFailed : Nat := 5
def recPhase (s : State) (d : Nat) : Nat := s.fld .cadRecoveryInfo 3 0 d
def setPhase (d v : Nat) (s : State) : State := s.setFld .cadRecoveryInfo 3 0 v d

def modRec (d : Nat) (f : Recovery → Recovery) (s : State) : State := s.modDom d (fun D => { D with recov := f D.recov })

/-- Where an evicted device that still serves is reached: the model's own number for it (assumption 29). -/
def evictedId (i : Nat) : Nat := 0x4000 + i

/-- A departed index of this recovery. -/
def departedOf (D : Domain) (i : Nat) : Option Departed := D.recov.departed.find? (fun x => x.index == i)

/-- The holder of index `i`: its buddy, or the evicted device that still serves (the chapter's opening). -/
def holderOf (s : State) (D : Domain) (i : Nat) : Nat :=
  let b := buddyOf (rosterSize s) i
  match departedOf D b with
  | some x => if x.evicted then evictedId b else b
  | none => b

/-- A member fences itself (R243): HALTED with its status, every write of the domain to peers and accelerators stopped, a Strata record. -/
def fence (d : Nat) (st : Status) (s : State) : State :=
  let s := s.modDom d (fun D => { D with
    fenced := true
    snap := none
    arrival := none
    flight := none
    boundaries := []
    deepWrite := none
    regions := D.regions.map (fun _ r => { r with pages := [] }) })
  log st .error (haltPipe d st s) (a32 := d)

/-- The devices whose heartbeats this device watches. -/
def watched (s : State) : List Nat :=
  let n := rosterSize s
  let me := selfId s
  let spares := (childrenOf s me).filter (fun c => decide (0x8000 ≤ c))
  (if me < 0x8000 ∧ 2 ≤ n then (if buddyOf n me = neighbourOf n me then [buddyOf n me] else [buddyOf n me, neighbourOf n me]) else []) ++ spares

/-- A heartbeat sent every 1 ms while the domain is armed, or from a standby domain (R240). -/
def sendHeartbeat (d : Nat) (s : State) : State :=
  match s.dom d with
  | none => s
  | some D =>
    if D.fenced ∨ s.frozen then s
    else
      let m := mkMsg s d 0x10 (steep := s.reg .cadSteepCount d) (a := s.reg .cadCommittedSteep d % 2 ^ 32) (c := s.ft.now)
      let n := rosterSize s
      let me := selfId s
      if D.standby then sendMsg (parentOf me) m s
      else if isArmed s d = false ∨ n < 2 then s
      else
        let s := sendMsg (buddyOf n me) m s
        if buddyOf n me = neighbourOf n me then s else sendMsg (neighbourOf n me) m s

/-- A departed index is acknowledged by a coordinator that is not index 0 only once index 0 is gone; the deputy itself declares index 0. -/
def mayDeclare (s : State) (D : Domain) (i : Nat) : Bool := isCoord s D || (s.job.index == some 1 && i == 0)

/-- A spare that the coordinator may prepare (R245): its latest relayed heartbeat is under 58 ms old, no later SILENT for it is held, and it is neither
prepared nor assigned. -/
def spareFit (s : State) (D : Domain) (q : Nat) : Bool :=
  let id := 0x8000 + q
  !s.job.used.contains q && !D.prepSent.any (fun p => p.1 == q) && !D.recov.departed.any (fun x => x.spare == some q) &&
    (match D.heard.find id with
      | some t => decide (s.ft.now < t + 58000000) && !D.silents.any (fun x => x.2.1 == id && decide (t < x.2.2))
      | none => false)

def firstSpare (s : State) (D : Domain) : Option Nat := firstBelow (spareCount s) (spareFit s D)

/-- The spare for a departed index: the one prepared for it, else the first fit one. -/
def pickSpare (s : State) (D : Domain) (i : Nat) : Option Nat :=
  match D.prepSent.find? (fun p => p.2 == i && !D.recov.departed.any (fun x => x.spare == some p.1)) with
  | some p => some p.1
  | none => firstSpare s D

/-- Every departed index without a spare gets one where there is one. -/
def assignSpares (d : Nat) (s : State) : State :=
  match s.dom d with
  | none => s
  | some D =>
    D.recov.departed.foldl (fun s x =>
      match x.spare, s.dom d with
      | none, some D =>
        match pickSpare s D x.index with
        | some q => modRec d (fun r => { r with departed := r.departed.map (fun y => if y.index = x.index then { y with spare := some q } else y) }) s
        | none => s
      | _, _ => s) s

/-- The entries of STOP and ROLLBACK (R248). -/
def entryBytes (x : Departed) : List Byte :=
  leBytes 2 x.index ++ leBytes 1 (if x.evicted then 2 else 1) ++ leBytes 1 0 ++ leBytes 4 (x.spare.getD 0xFFFFFFFF)

def readEntries (m : Msg) (n : Nat) : List Departed :=
  (List.range (min n 64)).map (fun i =>
    let q := fieldLE m.payload (8 * i + 4) 4
    { index := fieldLE m.payload (8 * i) 2
      evicted := fieldLE m.payload (8 * i + 2) 1 == 2
      spare := if q = 0xFFFFFFFF then none else some q })

/-- RECOVERY_FAIL acts on a member (R261): HALTED, a Strata record with the index at fault, RECOVERY_DONE. -/
def applyFail (d : Nat) (st : Status) (who : Nat) (s : State) : State :=
  let s := haltPipe d st s
  let s := setPhase d phFailed s
  let s := s.setFld .cadRecoveryStatus 31 16 st.toNat d
  irqSource (.recoveryDone d) (log st .error s (a32 := d) (a0 := who))

/-- The coordinator ends the recovery (R261). -/
def failRecovery (d : Nat) (st : Status) (who : Nat) (s : State) : State :=
  if recPhase s d = phFailed then s
  else applyFail d st who (sendDown (mkMsg s d 0x1D (status := st) (a := who)) s)

/-- Surviving member children, those of a departed child in its place (R219). -/
def liveChildren (s : State) (D : Domain) : Nat → Nat → List Nat
  | 0, _ => []
  | n + 1, i => ((childrenOf s i).filter (fun c => decide (c < 0x8000))).flatMap (fun c =>
      if (departedOf D c).isSome ∧ D.recov.target.isNone then liveChildren s D n c else [c])

/-- What a report up the tree covers with this device's own: the count and the first failure. -/
def merged (l : List (Nat × Nat)) : Nat := 1 + sumOf (l.map (·.2))

/-- The collectives that a stop ends (R194). -/
def collInFlight (s : State) (D : Domain) : Bool :=
  decide (2 ≤ rosterSize s) && D.layers.any (fun p => (D.stage p.1).combined && !(D.stage p.1).gathered)

/-- A member stops its domain's work at T_s (R48, R248). -/
def stopNow (d : Nat) (s : State) : State :=
  match s.dom d with
  | none => s
  | some D =>
    if D.recov.stopped then s
    else
      let s := if collInFlight s D then s.setFld .cadDomainStatus 31 16 St.collAbortedStop.toNat d else s
      let s := s.setFld .cadDomainStatus 1 0 domStopped d
      pipeBusy d (modRec d (fun r => { r with stopped := true }) s)

/-- Kernels of the domain's partition still run. -/
def domKernels (s : State) (D : Domain) : List Nat := (s.work.kernels.filter (fun k => k.2.part == D.partition)).unzip.1

/-- ROLLBACK acts on a surviving member; see below. -/
def grainsToRestore (D : Domain) : List Nat := (allGrains D).filter (fun k => (D.grain k).st != .clean)

/-- Runs of consecutive grains of one region: first key and count. -/
def grainRuns : List Nat → List (Nat × Nat)
  | [] => []
  | k :: r =>
    match grainRuns r with
    | (a, n) :: t => if k + 1 = a ∧ k / 2 ^ 24 = a / 2 ^ 24 then (k, n + 1) :: t else (k, 1) :: (a, n) :: t
    | [] => [(k, 1)]

/-- RESTORE_REQ for grains, in runs, to this member's holder (R251, R254). -/
def askGrains (d : Nat) (l : List Nat) (s : State) : State :=
  match s.dom d with
  | none => s
  | some D =>
    let c := D.recov.target.getD 0
    let h := holderOf s D (selfId s)
    (grainRuns l).foldl (fun s r =>
      sendMsg h (mkMsg s d 0x18 (steep := c) (region := r.1 / 2 ^ 24) (a := r.1 % 2 ^ 24) (b := r.2)) s) s

/-- The coordinator holds READY for every index: RESUME (R260). -/
def resumeAll (d : Nat) (s : State) : State :=
  match s.dom d with
  | none => s
  | some D =>
    let tr := s.ft.now + 1000000
    let s := sendDown (mkMsg s d 0x1C (steep := D.recov.target.getD 0) (c := tr)) s
    modRec d (fun r => { r with resumeAt := some tr }) s

/-- READY goes up the tree once this member and every member child are ready (R238, R260). -/
def sendReady (d : Nat) (s : State) : State :=
  match s.dom d with
  | none => s
  | some D =>
    let r := D.recov
    let kids := (childrenOf s (selfId s)).filter (fun c => decide (c < 0x8000))
    if r.due = false ∨ r.sentReady = true ∨ kids.all (fun c => r.readyBy.any (fun p => p.1 == c)) = false then s
    else
      let s := modRec d (fun r => { r with sentReady := true }) s
      let n := merged r.readyBy
      if isCoord s D then (if rosterSize s ≤ n + (if selfId s = 1 then 1 else 0) then resumeAll d s else s)
      else sendMsg (parentOf (selfId s)) (mkMsg s d 0x1B (steep := r.target.getD 0) (a := n)) s

/-- Every layer is pushed to every contributor, as a reload asks (R258). -/
def reloadDone (s : State) (d : Nat) (D : Domain) : Bool :=
  !D.recov.reload || s.fld .cadDomainCtl 3 3 d == 0 ||
    D.layers.all (fun p => (subports p.2.contributors).all (fun c => (D.stage p.1).pushed.contains c))

/-- This member is ready once every grain is restored and its reload is done (R260). -/
def checkReady (d : Nat) (s : State) : State :=
  match s.dom d with
  | none => s
  | some D =>
    if D.recov.target.isSome ∧ D.recov.wanted = [] ∧ reloadDone s d D = true then
      sendReady d (modRec d (fun r => { r with due := true }) s)
    else s

/-- The shadow goes back into accelerator memory, and 2^63 + c to notify (R259). -/
def copyBack (d : Nat) (s : State) : State :=
  match s.dom d with
  | none => s
  | some D =>
    D.regions.foldl (fun s p =>
      if p.2.kind ≠ .ddr ∧ p.2.restored = true then
        let s := memStore .hub p.2.base (s.load (ddrBase + p.2.protBase) p.2.length) s
        memStore .hub p.2.notify (leBytes 8 (2 ^ 63 + D.recov.target.getD 0)) s
      else s) s

/-- Every grain is restored: copy-back, and in a coupled domain this member's shard of every layer goes to those that reload (R258, R259). -/
def restoresDone (d : Nat) (s : State) : State :=
  let s := copyBack d s
  match s.dom d with
  | none => s
  | some D =>
    let s := if s.fld .cadRecoveryCtl 0 0 d = 1 then s
      else D.layers.foldl (fun s p =>
        match D.regions.find p.2.region.toNat with
        | none => s
        | some r =>
          let (q, n) := ownShard s p.2
          let h := s.load (ddrBase + r.protBase + p.2.offHigh) (2 * n)
          let s := s.store (.high d) (highAddr p.1 q) h
          let s := setStage d p.1 (fun x => { x with updated := true, gathered := decide (p.2.params.toNat ≤ x.agDone + n) }) s
          startGather d p.1 p.2 s) s
    checkReady d (setPhase d phReloading s)

/-- The domain of a spare takes an index: its regions and layers from the tables (R251). -/
def takeIndex (d i : Nat) (t : Tables) (s : State) : State :=
  let s := { s with job := { s.job with index := some i, sparePos := none } }
  let s := s.modDom d (fun D => { D with
    standby := false
    regions := t.regions.foldl (fun (x : Tab Nat Region) (q : RegionReq) =>
      x.set q.region.toNat {
        kind := if q.kind = 0 then .ddr else if q.kind = 1 then .appendOnly else .quiesced
        base := q.base
        protBase := if q.kind = 0 then q.base else q.shadow
        length := q.length.toNat
        pageLog2 := q.pageLog2.toNat
        notify := q.notify
        restored := true }) D.regions
    layers := t.layers.foldl (fun (x : Tab Nat LayerReq) (q : LayerReq) => x.set q.layer.toNat q) D.layers
    grains := []
    grain0 := { st := .dirty, lastWrite := s.ft.now } })
  s.setFld .cadDomainCtl 0 0 1 d

/-- This spare matches the departed index's shape (R252). -/
def shapeFits (s : State) (D : Domain) (t : Tables) : Bool :=
  decide (sumOf (t.regions.map (fun q => q.length.toNat)) ≤ D.lMax * 65536) &&
    t.layers.all (fun q => (subports q.contributors).all (fun c => D.intake.has c) &&
      q.push.all (fun p => (inAccel s p.addr 1).isSome && (inAccel s p.flag 4).isSome)) &&
    t.regions.all (fun q => q.kind == 0 || (inAccel s q.notify 8).isSome)

/-- A survivor returns to c, or in an independent domain keeps its state (R250, R253 to R257). -/
def rollMember (d c : Nat) (taken : Bool) (s : State) : State :=
  let s := dropGens d (fun g => decide (c < g.tag)) s
  match s.dom d with
  | none => s
  | some D =>
    let alone : Bool := s.fld .cadRecoveryCtl 0 0 d == 1
    let s := s.setDom d { D with
      boundaries := if alone then D.boundaries else []
      stages := if alone then D.stages else []
      scalars := none
      pipeSteep := if alone then D.pipeSteep else c }
    let s := if alone then s else s.setReg .cadSteepCount c d
    let s := s.setReg .cadRestoredGrains 0 d
    let s := if taken then s.setReg .cadCommittedSteep c d else s
    let want := if alone ∧ ¬ taken then [] else grainsToRestore D
    let reload := taken || match D.lastPush with
      | some k => decide (c < k)
      | none => false
    let s := modRec d (fun r => { r with
      target := some c, wanted := want, failures := [], reload := !alone && reload, readyBy := [], sentReady := false, due := false
      rolledAt := s.ft.now }) s
    let s := setPhase d phRestoring s
    let orphan : Bool := match departedOf D (buddyOf (rosterSize s) (selfId s)) with
      | some x => !x.evicted
      | none => false
    match want with
    | [] => restoresDone d s
    | k :: _ =>
      if orphan && !taken then
        let m := mkMsg s d 0x1A (steep := c) (status := St.restoreImpossible) (region := k / 2 ^ 24) (a := k % 2 ^ 24)
        if isCoord s D then failRecovery d St.restoreImpossible (selfId s) s else sendCoord D m false s
      else askGrains d want s

/-- A departed index's holder is itself dead (R261). -/
def holderDead (s : State) (D : Domain) : Option Nat :=
  (D.recov.departed.find? (fun x => match departedOf D (buddyOf (rosterSize s) x.index) with
    | some y => !y.evicted
    | none => false)).map (·.index)

/-- The spares that entries name take their indices: the hop to each index is from now the hop to that device (R217, R251). -/
def moveHops (d : Nat) (l : List Departed) (s : State) : State :=
  l.foldl (fun s x => match x.spare, s.dom d with
    | some q, some D =>
      if D.recov.taken.contains q then s else modRec d (fun r => { r with taken := q :: r.taken }) (moveHop x.index q s)
    | _, _ => s) s

/-- The coordinator sends ROLLBACK once every departed index has a spare (R251, R252, R261). -/
def sendRollback (d : Nat) (s : State) : State :=
  let s := assignSpares d s
  match s.dom d with
  | none => s
  | some D =>
    match holderDead s D with
    | some i => failRecovery d St.restoreImpossible i s
    | none =>
      match steepReg s .cadCommittedSteep d with
      | none => failRecovery d St.restoreImpossible 0xFFFFFFFF s
      | some c =>
        if D.recov.departed.any (fun x => x.spare.isNone) then
          (if s.fld .cadRecoveryCtl 31 16 d = 0 then
            irqSource (.recoveryDone d) ((setPhase d phWaitSpare s).setFld .cadRecoveryStatus 31 16 St.noSpare.toNat d)
          else s)
        else
          let l := D.recov.departed
          let s := sendDown (mkMsg s d 0x17 (steep := c) (a := l.length) (payload := l.flatMap entryBytes)) s
          rollMember d c false (moveHops d l s)

/-- The snapshot in flight as this coordinator knows it: a decision that stands goes out, anything else is aborted (R232, R249). -/
def resolveFlight (d : Nat) (s : State) : State :=
  match s.dom d with
  | none => s
  | some D =>
    let abort (k : Nat) (s : State) : State :=
      let s := s.modDom d (fun D => { D with flight := none, deputy := none })
      applyAbort d k St.ckptAbortedStop (sendDown (mkMsg s d 10 (steep := k) (status := St.ckptAbortedStop) (a := 0xFFFFFFFF)) s)
    if selfId s = 1 then
      match D.deputy, D.arrival with
      | some (k, st, who), _ => resolve d (s.setDom d { D with flight := some { steep := k, tb := 0, decided := some (st, who) } })
      | none, some ar => abort ar.steep s
      | none, none => s
    else
      match D.flight with
      | some f => if f.decided.isSome ∧ hasDeputy s D = true then resolve d s else abort f.steep s
      | none => s

/-- The coordinator holds STOPPED for every surviving index (R249). -/
def stoppedAll (d : Nat) (s : State) : State := sendRollback d (resolveFlight d s)

/-- STOPPED goes up the tree once this member's kernels have ended and every child has reported (R238, R248). -/
def sendStopped (d : Nat) (s : State) : State :=
  match s.dom d with
  | none => s
  | some D =>
    let r := D.recov
    let kids := liveChildren s D 4 (selfId s)
    let kids := if selfId s = 1 ∧ D.gone.contains 0 = true then liveChildren s D 4 0 ++ kids else kids
    let kids := kids.filter (fun c => c != selfId s)
    if r.stopped = false ∨ r.sentStopped = true ∨ domKernels s D ≠ [] ∨ kids.all (fun c => r.stoppedBy.any (fun p => p.1 == c)) = false then s
    else
      let s := modRec d (fun r => { r with sentStopped := true }) s
      let n := merged r.stoppedBy
      if isCoord s D then (if rosterSize s ≤ n + r.departed.length then stoppedAll d s else s)
      else if D.standby then sendMsg (parentOf (selfId s)) (mkMsg s d 0x16 (a := 0)) s
      else sendMsg (parentOf (selfId s)) (mkMsg s d 0x16 (a := n)) s

/-- STOP acts on a device (R243, R248): the epoch, the departed, T_s. -/
def applyStop (d epoch ts : Nat) (l : List Departed) (s : State) : State :=
  let s := s.setFld .cadRecoveryStatus 13 0 epoch d
  match s.dom d with
  | none => s
  | some D =>
    let me := selfId s
    let s := s.setDom d { D with
      gone := l.map (·.index)
      prepared := D.prepared.filter (fun p => l.any (fun x => p.1 == x.index))
      recov := { D.recov with
        departed := l, stopTime := some ts, stoppedBy := [], sentStopped := false, target := none, readyBy := [], sentReady := false
        due := false, resumeAt := none
        started := if D.recov.stopTime = none then ts - 2000000 else D.recov.started } }
    let s := { s with job := { s.job with bypass := l.foldl (fun b (x : Departed) => if b.contains x.index then b else x.index :: b) s.job.bypass } }
    let s := s.setFld .cadRecoveryInfo 31 16 (match l with
      | x :: _ => x.index
      | [] => 0xFFFF) d
    let s := setPhase d phStopping (s.setFld .cadRecoveryInfo 15 8 l.length d)
    if l.any (fun x => x.index == me && !x.evicted) then fence d St.memberDead s
    else if ts ≤ s.ft.now then sendStopped d (stopNow d s)
    else s

/-- The coordinator declares a departure, or accepts an EVICT: a new epoch and STOP (R242, R248, R263). -/
def declareGone (d i : Nat) (evicted : Bool) (s : State) : State :=
  match s.dom d with
  | none => s
  | some D =>
    if recPhase s d = phFailed ∨ D.standby = true then s
    else
      let l : List Departed := if D.recov.departed.any (fun x => x.index == i) then
          D.recov.departed.map (fun (x : Departed) => if x.index = i then { x with evicted := x.evicted && evicted, spare := none } else x)
        else D.recov.departed ++ [{ index := i, evicted := evicted }]
      let s := s.setDom d { D with gone := l.map (·.index), recov := { D.recov with departed := l } }
      if 64 < l.length then failRecovery d St.restoreImpossible i s
      else
        let s := assignSpares d s
        let ts := s.ft.now + 2000000
        let epoch := (s.epoch d + 1) % 2 ^ 14
        match s.dom d with
        | none => s
        | some D =>
          let l := D.recov.departed
          let s := s.setFld .cadRecoveryStatus 13 0 epoch d
          let s := sendDown (mkMsg s d 0x15 (steep := s.reg .cadSteepCount d) (a := l.length) (c := ts) (payload := l.flatMap entryBytes)) s
          applyStop d epoch ts l (s.bump .cadRecoveries d)

/-- SILENT for index `i` from an observer is held; the death is declared where both observers have sent it, or one has departed (R242). -/
def silentAt (d i obs t : Nat) (s : State) : State :=
  match s.dom d with
  | none => s
  | some D =>
    let h := (obs, i, t) :: D.silents.filter (fun x => !(x.1 == obs && x.2.1 == i))
    let s := s.setDom d { D with silents := h }
    if 0x8000 ≤ i ∨ mayDeclare s D i = false ∨ (D.gone.contains i = true ∧ D.recov.target.isNone = true) then s
    else
      let n := rosterSize s
      let held (o : Nat) : Bool := h.any (fun x => x.1 == o && x.2.1 == i) || D.gone.contains o
      if held (buddyOf n i) = true ∧ held (neighbourOf n i) = true then declareGone d i false s else s

/-- SUSPECT at the coordinator: PREPARE to the first fit spare (R245). -/
def suspectAt (d i : Nat) (s : State) : State :=
  match s.dom d with
  | none => s
  | some D =>
    if mayDeclare s D i = false then s
    else match firstSpare s D with
    | some q =>
      let s := s.setDom d { D with prepSent := D.prepSent ++ [(q, i)] }
      sendMsg (0x8000 + q) (mkMsg s d 0x14 (a := i) (b := buddyOf (rosterSize s) i)) s
    | none => s

/-- EVICT at the coordinator (R244, R248). -/
def evictAt (d i : Nat) (s : State) : State :=
  match s.dom d with
  | some D => if isCoord s D = true ∧ D.gone.contains i = false ∧ i < rosterSize s then declareGone d i true s else s
  | none => s

/-- A report for coordinator and deputy that this member makes: taken here where this device is one of them. -/
def report (d : Nat) (m : Msg) (act : State → State) (s : State) : State :=
  match s.dom d with
  | some D => sendCoord D m true (if selfId s ≤ 1 then act s else s)
  | none => s

/-- A report for coordinator and deputy on its way (R219): index 0 takes it and passes a copy to index 1, which passes one from below up. -/
def atBoth (m : Msg) (D : Domain) (s : State) (act : State → State) : State :=
  let me := selfId s
  if me = 0 then act (if decide (1 < rosterSize s) && !D.gone.contains 1 && m.hop != 1 then sendMsg 1 m s else s)
  else if me = 1 then act (if m.hop = 0 ∨ D.gone.contains 0 = true then s else sendMsg 0 m s)
  else relayUp m s

/-- HEARTBEAT (R241, R240): it ends a silence. One that a spare's parent relays goes on to the coordinator and the deputy. -/
def execHeartbeat (m : Msg) (s : State) : Out :=
  whenOn s (fun s => receive m s (fun _ s =>
    let d := m.domain.toNat
    let i := m.sender.toNat
    let note (s : State) : State := s.modDom d (fun D => { D with
      heard := D.heard.set i (if (watched s).contains i then s.ft.now else m.c.toNat)
      beats := if 0x8000 ≤ i then D.beats.set i m else D.beats
      told := D.told.filter (fun x => x.1 != i) })
    let again (s : State) : State :=
      match s.dom d with
      | some D =>
        if isCoord s D = true ∧ D.recov.departed.any (fun x => x.spare.isNone) = true ∧ D.recov.sentStopped = true ∧ D.recov.target.isNone = true then
          sendRollback d s
        else s
      | none => s
    if (watched s).contains i ∧ m.hop = i then again (note s)
    else match s.dom d with
    | some D => atBoth m D s (fun s => again (note s))
    | none => s))

/-- Every 10 ms a spare's parent relays one heartbeat of each spare child to the coordinator and the deputy (R240). -/
def execSpareHeartbeatRelay (d : Nat) (s : State) : Out :=
  whenOn s (fun s => withDom d s (fun D s =>
    ((childrenOf s (selfId s)).filter (fun c => decide (0x8000 ≤ c))).foldl (fun s c =>
      match D.beats.find c, D.heard.find c with
      | some m, some t => if t + 10000000 < s.ft.now then s else sendCoord D m true s
      | _, _ => s) s))

/-- This device's silence toward device `i` has lasted `ns`; fabric time has reached it. -/
def silentFor (D : Domain) (i ns : Nat) (s : State) : Option State :=
  match D.heard.find i with
  | some t => some (ftReach (t + ns) s)
  | none => none

/-- 20 ms of silence: the primary observer, the buddy, sends SUSPECT (R241). -/
def execSilenceSuspect (d i : Nat) (s : State) : Out :=
  whenOn s (fun s => withDom d s (fun D s =>
    if isArmed s d = false ∨ D.fenced = true ∨ myNeighbour s ≠ i ∨ D.told.contains (i, false) = true then s
    else match silentFor D i 20000000 s with
    | some s =>
      let s := s.modDom d (fun D => { D with told := (i, false) :: D.told })
      report d (mkMsg s d 0x11 (a := i) (c := D.heard.get i 0)) (suspectAt d i) s
    | none => s))

/-- 48 ms of silence: each observer, or a spare's parent, sends SILENT (R240, R241). -/
def execSilenceSilent (d i : Nat) (s : State) : Out :=
  whenOn s (fun s => withDom d s (fun D s =>
    if (isArmed s d = false ∧ i < 0x8000) ∨ D.fenced = true ∨ (watched s).contains i = false ∨ D.told.contains (i, true) = true then s
    else match silentFor D i 48000000 s with
    | some s =>
      let s := s.modDom d (fun D => { D with told := (i, true) :: D.told })
      report d (mkMsg s d 0x12 (a := i) (c := D.heard.get i 0)) (silentAt d i (selfId s) (D.heard.get i 0)) s
    | none => s))

/-- Neither buddy nor neighbour heard for 48 ms (R243). -/
def execFenceTimeout (d : Nat) (s : State) : Out :=
  whenOn s (fun s => withDom d s (fun D s =>
    let n := rosterSize s
    let me := selfId s
    if isArmed s d = false ∨ D.fenced = true ∨ n < 2 ∨ 0x8000 ≤ me then s
    else
      let t := max (D.heard.get (buddyOf n me) 0) (D.heard.get (neighbourOf n me) 0)
      fence d St.memberDead (ftReach (t + 48000000) s)))

def execSuspect (m : Msg) (s : State) : Out :=
  whenOn s (fun s => receive m s (fun D s => atBoth m D s (suspectAt m.domain.toNat m.a.toNat)))

def execSilent (m : Msg) (s : State) : Out :=
  whenOn s (fun s => receive m s (fun D s => atBoth m D s (silentAt m.domain.toNat m.a.toNat m.sender.toNat m.c.toNat)))

def execEvict (m : Msg) (s : State) : Out :=
  whenOn s (fun s => receive m s (fun D s => atBoth m D s (evictAt m.domain.toNat m.a.toNat)))

/-- The owner of the coordinator's domain evicts an index through the mailbox; the coordinator sends EVICT for it (R244). -/
def execEvictMailbox (c : Caller) (d i : Nat) (s : State) : Out :=
  whenOn s (fun s => mbxServe c 0x3009 s (fun _ s =>
    match s.dom d with
    | none => refuseAt 0x3009 0 St.invalidField s
    | some D =>
      if D.owner ≠ ownerOf c ∨ isCoord s D = false then refuseAt 0x3009 0 St.invalidField s
      else if rosterSize s ≤ i then refuseAt 0x3009 1 St.invalidField s
      else accept (report d (mkMsg s d 0x13 (status := St.memberEvicted) (a := i)) (evictAt d i) s)))

/-- A push whose port stays down halts the pipeline, and the member asks for its own eviction (R200, R244). -/
def execPushFailed (d l c : Nat) (s : State) : Out :=
  whenEngine s (fun s => withDom d s (fun D s =>
    match D.layers.find l with
    | some q =>
      let g := D.stage l
      if pipeRuns s d D = true ∧ q.contributors.getLsbD c = true ∧ g.updated = true ∧ g.pushed.contains c = false then
        let s := haltPipe d St.pushFailed (log St.pushFailed .error s (a32 := d) (a0 := l) (a1 := c))
        report d (mkMsg s d 0x13 (status := St.pushFailed) (a := selfId s)) (evictAt d (selfId s)) s
      else s
    | none => s))

/-- A message from the coordinator to one device, passed on where it is for another. -/
def toOne (dest : Nat) (m : Msg) (s : State) (f : State → State) : State := if selfId s = dest then f s else sendMsg dest m s

/-- PREPARE (R245). Its header names no spare: it is for the spare that receives it. While the spare's domain service restarts it waits (R268). -/
def execPrepare (m : Msg) (t : Tables) (s : State) : Out :=
  whenOn s (fun s => receive m s (fun D s =>
    if D.standby then s.setDom m.domain.toNat { D with prepared := some (m.a.toNat, m.b.toNat, s.ft.now), prepTables := some t } else s))

/-- No STOP has named the index within 50 ms of PREPARE (R245). -/
def execPrepareExpiry (d : Nat) (s : State) : Out :=
  whenOn s (fun s => withDom d s (fun D s =>
    match D.prepared with
    | some (i, _, _) =>
      if (departedOf D i).isSome then s else s.setDom d { D with prepared := none, prepTables := none }
    | none => s))

def execStop (m : Msg) (s : State) : Out :=
  whenOn s (fun s => receive m s (fun _ s =>
    spread m (applyStop m.domain.toNat m.epoch.toNat m.c.toNat (readEntries m m.a.toNat)) s))

/-- T_s (R48): the member stops, and reports once its kernels have ended. -/
def execRecoveryStopTime (d : Nat) (s : State) : Out :=
  whenOn s (fun s => withDom d s (fun D s =>
    match D.recov.stopTime with
    | some t => if D.fenced then s else sendStopped d (stopNow d (ftReach t s))
    | none => s))

/-- T_s + 2 ms (R48): kernels still running are aborted. R160 gives this abort no status: it is a free value. -/
def execRecoveryStopKernelAbort (d : Nat) (s : State) : Out :=
  whenOn s (fun s => withDom d s (fun D s =>
    match D.recov.stopTime with
    | some t =>
      if D.recov.stopped then
        let s := ftReach (t + 2000000) s
        sendStopped d ((domKernels s D).foldl (fun s i =>
          let (st, s) := s.draw 16
          abortKernel i (BitVec.ofNat 16 st) 0xFFFF s) s)
      else s
    | none => s))

def execStopped (m : Msg) (s : State) : Out :=
  whenOn s (fun s => receive m s (fun D s =>
    let d := m.domain.toNat
    if m.a = 0 ∨ D.recov.departed = [] then s
    else sendStopped d (modRec d (fun r =>
      { r with stoppedBy := (m.sender.toNat, m.a.toNat) :: r.stoppedBy.filter (fun p => p.1 != m.sender.toNat) }) s)))

/-- ROLLBACK (R243, R250 to R257). A spare that an entry names takes its index, or refuses it. -/
def execRollback (m : Msg) (t : Tables) (s : State) : Out :=
  whenOn s (fun s => receive m s (fun D s =>
    let d := m.domain.toNat
    let l := readEntries m m.a.toNat
    let c := m.steep.toNat
    let s := moveHops d l (sendDown m s)
    let s := modRec d (fun r => { r with departed := l, stopped := true }) s
    match s.job.sparePos with
    | some q =>
      match l.find? (fun x => x.spare == some q) with
      | none => s
      | some x =>
        let tab := match D.prepared, D.prepTables with
          | some (i, _, _), some p => if i = x.index then p else t
          | _, _ => t
        if shapeFits s D tab then rollMember d c true ((takeIndex d x.index tab s).setFld .cadDomainStatus 1 0 domStopped d)
        else sendMsg (parentOf (selfId s)) (mkMsg s d 0x1B (steep := c) (status := St.shapeMismatch) (a := 0)) s
    | none =>
      match l.find? (fun x => x.index == selfId s) with
      | some x => if x.evicted then s else fence d St.memberDead s
      | none => rollMember d c false s))

/-- RESTORE_MISSING from a holder, to the owner and the coordinator (R255). -/
def sendMissing (d c k owner : Nat) (st : Status) (s : State) : State :=
  match s.dom d with
  | none => s
  | some D =>
    let m := mkMsg s d 0x1A (steep := c) (status := st) (region := k / 2 ^ 24) (a := k % 2 ^ 24)
    let s := sendMsg owner m s
    if isCoord s D then failRecovery d st owner s else sendCoord D m false s

/-- A holder answers one grain of a RESTORE_REQ (R239, R255). -/
def serveGrain (d c k owner : Nat) (s : State) : State :=
  match s.dom d with
  | none => s
  | some D =>
    if inNeighbour D k = false then sendMissing d c k owner St.grainRange s
    else match committedGen D c k with
    | none => sendMissing d c k owner St.restoreImpossible s
    | some gen =>
      let g := D.gens.get (genKey gen k) {}
      if g.crcValid = false then sendMissing d c k owner St.restoreCrc s
      else
        let body := s.bytes (.buddy d gen) (k * 65536) 65536
        let m := mkMsg s d 0x19 (steep := g.tag) (region := k / 2 ^ 24) (a := k % 2 ^ 24) (b := 65544) (c := g.crc)
          (payload := leBytes 8 (65536 * 2 ^ 32) ++ body)
        s.emit (.msg (nextHop s owner) { m with hop := nextHop s owner })

def execRestoreReq (m : Msg) (s : State) : Out :=
  whenEngine s (fun s => receive m s (fun _ s =>
    let d := m.domain.toNat
    if recPhase s d = phFailed then s
    else (List.range (min m.b.toNat (2 ^ 24))).foldl (fun s i =>
      serveGrain d m.steep.toNat (grainKey m.region.toNat (m.a.toNat % 2 ^ 24) + i) m.sender.toNat s) s))

/-- A restored grain failed a check: it is asked for again, the fourth failure is reported (R255). -/
def restoreFailed (d k : Nat) (s : State) : State :=
  match s.dom d with
  | none => s
  | some D =>
    let n := D.recov.failures.get k 0 + 1
    let s := modRec d (fun r => { r with failures := r.failures.set k n }) s
    if n < 4 then askGrains d [k] s
    else
      let m := mkMsg s d 0x1A (steep := D.recov.target.getD 0) (status := St.restoreCrc) (region := k / 2 ^ 24) (a := k % 2 ^ 24)
      if isCoord s D then failRecovery d St.restoreCrc (selfId s) s else sendCoord D m false s

/-- RESTORE_GRAIN at the restoring device (R218, R254, R255): checked, stored and CLEAN. -/
def execRestoreGrain (m : Msg) (s : State) : Out :=
  whenEngine s (fun s =>
    let d := m.domain.toNat
    match s.dom d with
    | none => discard s
    | some D =>
      let k := grainKey m.region.toNat (m.a.toNat % 2 ^ 24)
      match D.recov.target with
      | none => discard s
      | some c =>
        if D.fenced = true ∨ m.epoch.toNat < s.epoch d ∨ c < m.steep.toNat ∨ D.recov.wanted.contains k = false ∨ recPhase s d = phFailed then discard s
        else if m.auth = false then restoreFailed d k s
        else match decodeGrain m.payload with
        | none => restoreFailed d k s
        | some l =>
          if crc64 l ≠ m.c.toNat then restoreFailed d k s
          else
            let s := rawStore (ddrBase + D.grainOff k) l s
            let s := s.setDom d { D with
              grains := D.grains.set k { st := .clean, tag := m.steep.toNat, lastWrite := (D.grain k).lastWrite, crc := some m.c.toNat }
              regions := D.regions.map (fun r R => if r = k / 2 ^ 24 then { R with restored := true } else R)
              recov := { D.recov with wanted := D.recov.wanted.filter (· != k) } }
            let s := s.bump .cadRestoredGrains d
            if D.recov.wanted.filter (· != k) = [] then restoresDone d s else s)

/-- RESTORE_MISSING: the coordinator fails the recovery (R261). The index at fault is the device that reports. -/
def execRestoreMissing (m : Msg) (s : State) : Out :=
  whenOn s (fun s => receive m s (fun D s =>
    let d := m.domain.toNat
    if isCoord s D then failRecovery d m.status m.sender.toNat s
    else if D.recov.wanted.contains (grainKey m.region.toNat (m.a.toNat % 2 ^ 24)) then s
    else relayUp m s))

/-- A spare refused its takeover: the coordinator assigns the next one in the list (R252). -/
def spareRefused (d q : Nat) (s : State) : State :=
  let s := { s with job := { s.job with used := if s.job.used.contains q then s.job.used else q :: s.job.used } }
  let s := match s.dom d with
    | some D => (match D.recov.departed.find? (fun x => x.spare == some q) with
      | some x => moveBack x.index q s
      | none => s)
    | none => s
  let s := modRec d (fun r => { r with
    departed := r.departed.map (fun x => if x.spare = some q then { x with spare := none } else x), target := none }) s
  sendRollback d s

def execReady (m : Msg) (s : State) : Out :=
  whenOn s (fun s => receive m s (fun D s =>
    let d := m.domain.toNat
    if m.status = St.shapeMismatch then atCoord m D s (spareRefused d (m.sender.toNat - 0x8000))
    else if D.recov.target.isNone ∨ m.a = 0 then s
    else sendReady d (modRec d (fun r =>
      { r with readyBy := (m.sender.toNat, m.a.toNat) :: r.readyBy.filter (fun p => p.1 != m.sender.toNat) }) s)))

/-- RESUME: an evicted device fences itself now (R244), the others wait for T_r (R260). -/
def execResume (m : Msg) (s : State) : Out :=
  whenOn s (fun s => receive m s (fun D s =>
    let d := m.domain.toNat
    let s := sendDown m s
    match departedOf D (selfId s) with
    | some x =>
      if x.evicted ∧ D.recov.target.isNone then fence d St.memberEvicted s
      else modRec d (fun r => { r with resumeAt := some m.c.toNat }) s
    | none => modRec d (fun r => { r with resumeAt := some m.c.toNat }) s))

/-- T_r (R253, R259, R260): armed again, the pipeline and the intake sequences reset, comparators recomputed, and in a coupled domain steep c ended. -/
def resumeNow (d tr : Nat) (s : State) : State :=
  match s.dom d with
  | none => s
  | some D =>
    let c := D.recov.target.getD 0
    let alone := s.fld .cadRecoveryCtl 0 0 d = 1
    let fresh := (departedOf D (buddyOf (rosterSize s) (selfId s))).isSome
    let us := (tr - D.recov.started) / 1000
    let count := s.reg .cadSteepCount d
    let s := s.setDom d { D with
      grains := if fresh then D.grains.map (fun _ g => { g with st := .dirty, tag := count }) else D.grains
      grain0 := if fresh then { D.grain0 with st := .dirty, tag := count } else D.grain0
      regions := D.regions.map (fun _ r => { r with copied := if r.restored then 0 else r.copied, restored := false, pages := [] })
      intake := D.intake.map (fun _ r => { r with expect := 0, consumed := 0 })
      stages := if alone then D.stages else []
      scalars := none
      pipeSteep := if alone then D.pipeSteep else c + 1
      heard := D.heard.keep (fun i _ => !D.gone.contains i)
      told := []
      silents := []
      prepared := none
      prepTables := none
      prepSent := []
      gone := []
      flight := none
      deputy := none
      recov := {} }
    let s := { s with job := { s.job with
      bypass := s.job.bypass.filter (fun b => !D.gone.contains b)
      used := D.recov.departed.foldl (fun u x => match x.spare with
        | some q => if u.contains q then u else q :: u
        | none => u) s.job.used } }
    let s := zeroCredits D s
    let s := s.setReg .cadDomainStatus domArmed d
    let s := setPhase d 0 (s.setFld .cadRecoveryStatus 31 16 0 d)
    let s := s.setReg .cadRecoveryUs (min us (2 ^ 32 - 1)) d
    let s := cmpCountSet d count s
    let s := if alone then s else applyBoundary d (c + 1) tr false s
    irqSource (.recoveryDone d) s

def execResumeTime (d : Nat) (s : State) : Out :=
  whenOn s (fun s => withDom d s (fun D s =>
    match D.recov.resumeAt with
    | some t => if D.fenced ∨ recPhase s d = phFailed then s else resumeNow d t (ftReach t s)
    | none => s))

/-- RECOVERY_FAIL: along the tree from the coordinator, or along the ring where both coordinators are gone (R247, R261). -/
def execRecoveryFail (m : Msg) (s : State) : Out :=
  whenOn s (fun s => receive m s (fun _ s =>
    let d := m.domain.toNat
    let n := rosterSize s
    let me := selfId s
    if recPhase s d = phFailed then s
    else
      let s := if m.status = St.coordinatorLost then
          (if m.hop = neighbourOf n me then sendMsg (buddyOf n me) m s else sendMsg (neighbourOf n me) m s)
        else sendDown m s
      applyFail d m.status m.a.toNat s))

/-- Neither coordinator nor deputy has answered index 2 within 10 ms (R247). -/
def execCoordinatorLostTimeout (d : Nat) (s : State) : Out :=
  whenOn s (fun s => withDom d s (fun D s =>
    let n := rosterSize s
    if s.job.index = some 2 ∧ D.told.contains (1, true) = true ∧ D.recov.stopTime = none ∧ recPhase s d ≠ phFailed then
      let m := mkMsg s d 0x1D (status := St.coordinatorLost) (a := 0xFFFFFFFF)
      let s := sendMsg (buddyOf n 2) m s
      let s := if buddyOf n 2 = neighbourOf n 2 then s else sendMsg (neighbourOf n 2) m s
      applyFail d St.coordinatorLost 0xFFFFFFFF s
    else s))

/-- No suitable spare within spare_wait seconds (R252). -/
def execSpareWaitTimeout (d : Nat) (s : State) : Out :=
  whenOn s (fun s => withDom d s (fun D s =>
    if isCoord s D = true ∧ D.recov.departed.any (fun x => x.spare.isNone) = true ∧ recPhase s d ≠ phFailed then
      irqSource (.recoveryDone d) ((setPhase d phWaitSpare s).setFld .cadRecoveryStatus 31 16 St.noSpare.toNat d)
    else s))

/-- READY is missing `limit` seconds after the latest ROLLBACK (R261). -/
def execRecoveryLimitTimeout (d : Nat) (s : State) : Out :=
  whenOn s (fun s => withDom d s (fun D s =>
    if isCoord s D = true ∧ D.recov.target.isSome = true ∧ D.recov.resumeAt.isNone = true ∧
        D.recov.departed.all (fun x => x.spare.isSome) = true then
      failRecovery d St.recoveryTimeout 0xFFFFFFFF (ftReach (D.recov.rolledAt + s.fld .cadRecoveryCtl 15 8 d * 1000000000) s)
    else s))

end Sys2Proof.Machine
end

