-- ==== Sys2Proof/Machine/Comparator.lean ====
section
/-! DEFINITION. Fabric time's sources and messages (R28 to R35), comparators and their actions (R41 to R46), the debug freeze (R49). What a lock or a correction
does stands in Machine/Time.lean. -/

namespace Sys2Proof.Machine

open Sys2Proof

/-! Fabric time. -/

/-- The fabric-time source as a write of HUB_FT_CTL changes it (R33, R524). -/
def execFtSourceWrite (a : Agent) (v : Word) (s : State) : Out :=
  whenMain s (fun s =>
    let old := s.ftSource
    ftSourceChanged old (keepWrite a kFtCtl v.toNat s))

/-- A Sync of the selected master, valid once a path delay is known (R30, R33). -/
def execPtpSyncMessage (offset : Int) (s : State) : Out :=
  whenOn s (fun s => if s.ft.master.isNone ∨ s.ft.pathDelay.isNone then s else linkPhase (ptpSync offset s))

/-- PPS_IN rises: a sync interval, and the watcher's source 2 (R33, R469). -/
def execPpsInEdge (s : State) : Out :=
  let s := watcherActive (watcherSrc 2) s
  whenOn s (fun s => linkPhase (ppsEdge s))

def execFtSyncLoss (s : State) : Out := whenOn s ftLoss

/-- A slew ends once it has absorbed its correction (R35): time stands where the slew brings it. -/
def execFtSlewComplete (s : State) : Out :=
  whenOn s (fun s => cmpTimePassed (s.modFt (fun f => { f with now := f.now + f.slew.toNat, slew := 0, slewAcc := 0, errBound := if f.valid then 50 else f.errBound })))

/-- A whole second of fabric time (R30). -/
def execPpsOutSecond (s : State) : Out :=
  whenOn s (fun s =>
    if s.ft.state = .locked ∨ s.ft.state = .holdover then
      let t := (s.ft.now + 999999999) / 1000000000 * 1000000000
      (ftReach t s).modPwr (fun p => { p with ppsOut := p.ppsOut + 1 })
    else s)

/-- FT_SET_SECONDS (R29): the reply waits for the next edge. -/
def ftSecondsReq (c : Caller) (seconds : Nat) (s : State) : Option Reply × State :=
  if s.ftSource ≠ 3 then refuse St.unsupported s
  else (none, s.modFt (fun f => { f with setSecs := some (c, seconds % 2 ^ 64) }))

def execFtSetSeconds (c : Caller) (seconds : Nat) (s : State) : Out :=
  whenOn s (fun s => mbxServe c 0x100C s (fun _ s => ftSecondsReq c seconds s))

def execFtSetSecondsTimeout (s : State) : Out :=
  whenOn s (fun s =>
    match s.ft.setSecs with
    | some (c, _) => mbxReply c { status := St.retry } (s.modFt (fun f => { f with setSecs := none }))
    | none => s)

/-- An Announce feeds the best-master-clock algorithm (R30): the better data set wins. A change of master or port needs its path delay measured anew. -/
def execPtpAnnounce (m : PtpAnnounce) (s : State) : Out :=
  whenOn s (fun s =>
    if 8 < m.port ∨ (s.ftSource ≠ 1 ∧ s.ftSource ≠ 2) then s
    else
      let same : Bool := match s.ft.master with
        | some o => o.master == m.master && o.port == m.port
        | none => false
      let better : Bool := match s.ft.master with
        | some o => decide (m.priority < o.priority)
        | none => true
      if same then s.modFt (fun f => { f with master := some m })
      else if better then s.modFt (fun f => { f with master := some m, port := m.port, pathDelay := none })
      else s)

def execPtpDelayMessage (delay : Nat) (s : State) : Out :=
  whenOn s (fun s => if s.ft.master.isNone then s else s.modFt (fun f => { f with pathDelay := some delay }))

/-- STEEP_COUNT_SET (R39, R45). -/
def execSteepCountSet (c : Caller) (domain : Nat) (count : BitVec 48) (s : State) : Out :=
  whenOn s (fun s => mbxServe c 0x3008 s (fun _ s => withOwnDom c 0x3008 domain s (fun _ s =>
    accept (cmpCountSet domain count.toNat (s.setReg .cadSteepCount count.toNat domain)))))

/-! Actions of a comparator. -/

/-- The performance counters of a die: those of its clusters, or the hub's (R487). -/
def dieCounters (die : Nat) : List Nat :=
  if die = 0 then (List.range 64).map (fun i => 256 + i) else (List.range 128).map (fun i => (die - 1) * 128 + i)

/-- A record that no group's FIFO carries enters its die's buffer at once. Its source is a free value: R486 and R487 name none. -/
def sieveDirect (die : Nat) (p : SievePayload) (s : State) : State :=
  if sieveOn s die then
    let (v, s) := s.draw 16
    sieveStore die { time := s.ft.now, source := v, loc := !s.ft.valid, payload := p } s
  else s

/-- Sample records of every enabled counter of a die (R487). -/
def sieveSample (die : Nat) (s : State) : State :=
  (dieCounters die).foldl (fun s k =>
    if s.fld .sivPmcCfg 31 31 k = 1 then sieveDirect die (.sample (if die = 0 then k - 256 else k % 128) (s.reg .sivPmc k)) s else s) s

/-- SIV_CTL as it stands takes the buffer into its state (R486): enabled it runs, disabled it idles. -/
def sieveEnable (die : Nat) (en : Bool) (s : State) : State :=
  let was := s.fld .sivCtl 0 0 die
  let s := s.setFld .sivCtl 0 0 (if en then 1 else 0) die
  if en ∧ was = 0 then s.setFld .sivStatus 31 30 1 die
  else if en = false then s.setFld .sivStatus 31 30 0 die
  else s

/-- Windows (R486): action 0x6 starts one and 0x7 stops it, in stream mode with the enable. -/
def sieveWindow (die : Nat) (start : Bool) (s : State) : State :=
  let stream : Bool := s.fld .sivCtl 2 1 die == 0
  if start then
    let s := if stream then sieveEnable die true s else s
    sieveTrigger die 1 (sieveDirect die .windowStart s)
  else
    let s := sieveDirect die .windowStop s
    if stream then sieveEnable die false s else s

/-- What the action of a fire does. The error-period tick has no effect of its own that a rule states. -/
def cmpAction (k : Nat) (a : Armed) (s : State) : State :=
  let die := k / 64
  match a.action with
  | 0 => if die = 0 then s else (List.range 8).foldl (fun s i => eicEvent ((die - 1) * 8 + i) (64 + k % 64) s) s
  | 1 => caddyTrigger a.domain s
  | 2 => sieveSample die s
  | 3 => refillAll s
  | 4 => sendHeartbeat a.domain s
  | 6 => sieveWindow die true s
  | 7 => sieveWindow die false s
  | 8 => match a.armer with
    | some id => s.modCore id (fun c => { c with wake := true })
    | none => s
  | _ => s

/-- A comparator fires (R42 to R44): a fire held by a debug freeze stays pending, and one that finds it pending merges with it. -/
def cmpFire (k : Nat) (a : Armed) (s : State) : State :=
  let s := if a.owed then s.setFld .tcmpCtl 23 23 1 k else s
  if s.fld .tcmpCtl 22 22 k = 1 then s.bumpFld .tcmpCtl 31 24 k
  else if s.frozen then s.setFld .tcmpCtl 22 22 1 k
  else cmpAction k a s

/-- A comparator after a fire: a periodic one takes its next target, a one-shot one stays fired (R41). -/
def cmpNext (a : Armed) : Armed :=
  let a' := { a with owed := false, due := none }
  if a.periodic = false then { a' with fired := true }
  else match a.mode with
  | .phase => a'
  | _ => if a.arg = 0 then { a' with fired := true } else if a.owed then a' else { a' with target := a.target + a.arg }

/-- The comparator's target is reached, as far as that is known without fabric time passing; with the fabric time of the fire where there is one. In
fabric-time mode none fires before the first lock (R34). -/
def cmpReached (s : State) (a : Armed) : Option (Option Nat) :=
  if a.fired then none
  else match a.mode with
  | .time => if s.ft.valid = false then none else if a.owed then some none else some (some a.target)
  | .steep => if a.owed ∨ a.target ≤ s.reg .cadSteepCount a.domain then some none else none
  | .phase => match a.due with
    | some t => if a.owed then some none else some (some t)
    | none => none

def execComparatorFire (die idx : Nat) (s : State) : Out :=
  if 2 < die ∨ 63 < idx then .fault .noSuchUnit
  else whenOn s (fun s =>
    let k := cmpKey die idx
    match s.cmp.armed.find k with
    | none => s
    | some a =>
      match cmpReached s a with
      | none => s
      | some t =>
        let s := match t with
          | some t => ftReach t s
          | none => s
        cmpFire k a (s.setArmed k (cmpNext a)))

/-- A write of TCMP_CTL by one who holds the comparator (R41, R46). -/
def execTcmpCtlWrite (a : Agent) (die idx : Nat) (v : Word) (s : State) : Out :=
  if 2 < die ∨ 63 < idx then .fault .noSuchUnit
  else whenMain s (fun s =>
    let k := cmpKey die idx
    if cmpMayWrite s a k then
      tcmpWrite k v.toNat s (match a with
        | .core id => some id
        | _ => none)
    else s.ignored)

/-! Allocation (R46). -/

def cmpAllocReq (c : Caller) (die count : Nat) (s : State) : Option Reply × State :=
  if 2 < die then refuseAt 0x100D 0 St.invalidField s
  else if count = 0 then refuseAt 0x100D 1 St.invalidField s
  else if 16 < count then refuseAt 0x100D 1 St.lenTooLarge s
  else if die = 0 ∧ (match c with
      | .slice _ => true
      | _ => false) = true then refuse St.unsupported s
  else match cmpLowest die count s with
  | none => refuse St.noComparator s
  | some l => accept (cmpTake die l (.caller c) s) (die :: count :: l)

def cmpFreeReq (c : Caller) (die idx : Nat) (s : State) : Option Reply × State :=
  let k := cmpKey die idx
  if 2 < die then refuseAt 0x100F 0 St.invalidField s
  else if 63 < idx ∨ s.cmp.owner.get k .free ≠ .caller c then refuseAt 0x100F 1 St.invalidField s
  else
    let s := cmpDisarm k s
    accept { s with cmp := { s.cmp with owner := s.cmp.owner.del k } }

def execComparatorAlloc (c : Caller) (die count : Byte) (s : State) : Out :=
  whenOn s (fun s => mbxServe c 0x100D s (fun _ s => cmpAllocReq c die.toNat count.toNat s))

def execComparatorFree (c : Caller) (die idx : Byte) (s : State) : Out :=
  whenOn s (fun s => mbxServe c 0x100F s (fun _ s => cmpFreeReq c die.toNat idx.toNat s))

/-! The debug freeze (R49). -/

/-- Who reaches the debug window: PF0's BAR4, the management port, and Fjoniuk through them (R488, R514). -/
def reachesDebug (s : State) (a : Agent) : Bool :=
  match a with
  | .pf0 => dState s .pf0 == 0 && !s.pci.flr.contains .pf0
  | .mgmt => true
  | .firmware => true
  | _ => false

def freezeStart (s : State) : State := { s with frozen := true }

/-- The thaw: fires held as pending are taken, in ascending order on each die (R42, R44). -/
def freezeEnd (s : State) : State :=
  if s.frozen = false ∨ s.fw.shutDown then s
  else
    let s := { s with frozen := false }
    (List.range 192).foldl (fun s k =>
      if s.fld .tcmpCtl 22 22 k = 1 then
        let s := s.setFld .tcmpCtl 22 22 0 k
        match s.cmp.armed.find k with
        | some a => cmpAction k a s
        | none => s
      else s) s

def execDebugFreezeStart (a : Agent) (s : State) : Out := whenMain s (fun s => if reachesDebug s a then freezeStart s else s)
def execDebugFreezeEnd (a : Agent) (s : State) : Out := whenMain s (fun s => if reachesDebug s a then freezeEnd s else s)

end Sys2Proof.Machine
end

