-- ==== Sys2Proof/Machine/Registers.lean ====
section
/-! DEFINITION. Register accesses (R3 to R6, R509 to R515): what a word reads, what a write of one does and who may make it, and keep words by name (R516,
R524). -/

namespace Sys2Proof.Machine

open Sys2Proof

/-! Reads. -/

/-- A word of an MSI-X table entry (R470): address low and high, data, and the mask in bit 0 of the vector control. -/
def msixWord (s : State) (k : Nat) : Nat :=
  let e := s.irqEntry (if k / 8192 = 0 then .pf0 else .pf1) (k % 8192 / 4)
  match k % 4 with
  | 0 => e.address % 2 ^ 32
  | 1 => e.address / 2 ^ 32
  | 2 => e.data
  | _ => if e.mask then 1 else 0

/-- SLC_STATUS (12). -/
def slcStatus (s : State) (n : Nat) : Nat :=
  let S := s.slice n
  if sliceLive s n = false then 0
  else s.fld .slcStatus 31 16 n * 65536 + pfIdx S.parent * 8 + (if S.busy then 4 else 0) + (if n = 0 then 0 else 2) + 1

/-- The value of a register, whether it is held or seen. -/
def regValue (s : State) (r : Reg) : Nat :=
  match r.name with
  | .hubFtNow => s.ft.now % 2 ^ 64
  | .msixEntry => msixWord s r.idx
  | .slcStatus => slcStatus s r.idx
  | .pwrStatus => pwrStatus s
  | _ => regView s r

/-- A read of a register word by an agent, with the latch of R6. -/
def regRead (a : Agent) (r : Reg) (high : Bool) (s : State) : Nat × State :=
  let v := regValue s r
  if r.name.info.width = 32 then (v % 2 ^ 32, s)
  else if high then
    match s.latch.find a with
    | some (q, w) => if q = r then (w, { s with latch := s.latch.del a }) else (v / 2 ^ 32, s)
    | none => (v / 2 ^ 32, s)
  else (v % 2 ^ 32, { s with latch := s.latch.set a (r, v / 2 ^ 32) })

/-! Writes. -/

/-- A write that would put a reserved encoding into a field is ignored whole (R4). `v` is the word written. -/
def regReserved (n : RegName) (v : Nat) : Bool :=
  match n with
  | .vrmCcCfg => natBits v 31 24 == 0 || decide (100 < natBits v 31 24) || natBits v 15 12 == 0 || decide (10 < natBits v 15 12)
  | .vrmCcTime | .vrmCcRate => natBits v 31 16 == 0 || natBits v 15 0 == 0
  | .netPortCfg => decide (95 < natBits v 22 16) || natBits v 12 8 == 31
  | .netShaperPeriod => decide (v < 500) || decide (100000 < v)
  | .pktDefault => natBits v 9 8 == 3
  | .pktShapeRate | .pktPolicerRate => decide (80000 < natBits v 16 0)
  | .pktShapeHi | .pktPolicerBurst => natBits v 15 0 == 0
  | .pktWeight => natBits v 31 24 == 0 || natBits v 23 16 == 0 || natBits v 15 8 == 0 || natBits v 7 0 == 0
  | .stoArb => natBits v 31 24 == 0 || natBits v 23 16 == 0 || natBits v 15 8 == 0
  | .sivCtl => natBits v 29 26 == 0 || decide (1 < natBits v 5 4) || decide (1 < natBits v 2 1)
  | .sivSpill => decide (4096 < natBits v 31 16 + natBits v 15 0)
  | .sivView => decide (v % 2 ^ 24 ≠ 0)
  | .sivPmcCfg => natBits v 15 0 == 0 || decide (11 < natBits v 15 0)
  | .dbgCtl => natBits v 3 2 == 3
  | _ => false

/-- A write of SIV_CTL (R486): the state follows the enable, and a buffer that is armed again runs again. -/
def sivCtlWrite (die v : Nat) (s : State) : State :=
  let was := natBit (s.reg .sivCtl die) 0
  let s := s.setFld .sivCtl 0 0 (if was then 1 else 0) die
  let s := (s.setReg .sivCtl (applyFields (s.reg .sivCtl die) v RegName.sivCtl.info.fields) die).setFld .sivCtl 0 0 (if was then 1 else 0) die
  let s := sieveEnable die (natBit v 0) s
  if was ∧ natBit v 0 ∧ natBit v 31 ∧ 2 ≤ s.fld .sivStatus 31 30 die then s.setFld .sivStatus 31 30 1 die else s

/-- A word of an MSI-X entry: unmasking a pending one sends its message (R472). -/
def msixWrite (k v : Nat) (s : State) : State :=
  let o : Caller := if k / 8192 = 0 then .pf0 else .pf1
  let i := k % 8192 / 4
  let e := s.irqEntry o i
  let e' := match k % 4 with
    | 0 => { e with address := e.address / 2 ^ 32 * 2 ^ 32 + v }
    | 1 => { e with address := e.address % 2 ^ 32 + v * 2 ^ 32 }
    | 2 => { e with data := v }
    | _ => { e with mask := natBit v 0 }
  let s := { s with irq := { s.irq with entries := s.irq.entries.set (o, i) e' } }
  if (e'.pending && !e'.mask) = true then irqSend o i s else s

/-- What a register word takes when it is written by one who may write it. -/
def regWrite (a : Agent) (r : Reg) (high : Bool) (v : Nat) (s : State) : State :=
  let v := v % 2 ^ 32
  if regReserved r.name v then s
  else match r.name with
  | .tcmpCtl =>
    if cmpMayWrite s a r.idx then
      tcmpWrite r.idx v s (match a with
        | .core id => some id
        | _ => none)
    else s.ignored
  | .tcmpTarget | .tcmpArg => if cmpMayWrite s a r.idx then regPut r high v s else s.ignored
  | .tnsReach => if r.idx % 16 = 0 then s else reachWrite (r.idx / 16) (r.idx % 16) v s
  | .tnsSrSeed => if high then srSeedLoad r.idx v s else regPut r false v s
  | .cadDomainCtl | .cadDomainLr | .cadDomainGscale | .cadCkptCtl | .cadCkptPeriod | .cadCkptDeadline | .cadDeepCtl | .cadRecoveryCtl =>
    cadWrite r.idx r.name high v s
  | .mbxEvtStatus =>
    let c : Caller := if r.idx = 0 then .pf0 else if r.idx = 1 then .pf1 else .slice (r.idx - 2)
    if natBit v 31 then s.setMailbox c { s.mailbox c with overflow := false } else s
  | .nvmeCc => ccWrite r.idx (BitVec.ofNat 32 v) s
  | .msixEntry => msixWrite r.idx v s
  | .sivCtl => sivCtlWrite r.idx v s
  | _ => regPut r high v s

/-! Who may write. -/

/-- Where a register stands (R509 to R515). -/
inductive RegPlace where
  | bar0
  | debug
  | mailbox (c : Caller)
  | msix (f : Nat)
  | keepSel (f : Nat)
  | page (n : Nat)
  | ctrl (k : Nat)
  | cad (d : Nat)
  | local (id : Nat)
  | cluster (cl : Nat)
  | die
deriving DecidableEq, Repr

def regPlace (r : Reg) : RegPlace :=
  match r.name with
  | .dbgCtl | .dbgAccessErr | .dbgIgnored | .strNextSeq | .strStatus | .strLost | .strViewWrites | .sivCtl | .sivStatus | .sivEn | .sivTrigCause | .sivTrigSrc
  | .sivTrigVal | .sivTrigVmask | .sivSpill | .sivView | .sivDrops | .sivGaps | .sivTrigLate | .sivPmcCfg | .sivPmc => .debug
  | .tcmpCtl | .tcmpTarget | .tcmpArg => if r.idx < 64 then .bar0 else .die
  | .tnsReach | .tnsDmaStage | .tnsMeStage => .local (r.idx / 16)
  | .tnsOptHp => .local (r.idx / 8)
  | .tnsDmaSubmits | .tnsSrSeed => .local r.idx
  | .eicSrcCfg => .cluster (r.idx / 256)
  | .eicVbase => .cluster (r.idx / 16)
  | .eicMask | .eicPending | .eicActive => .cluster (r.idx / 8)
  | .eicBadComplete => .cluster r.idx
  | .cadDomainCtl | .cadDomainStatus | .cadSteepCount | .cadDomainLr | .cadDomainGscale | .cadSteepStale | .cadIntakeStale | .cadDomainNonfinite
  | .cadScalarRefused | .cadCkptCtl | .cadCkptPeriod | .cadCkptDeadline | .cadDeepCtl | .cadCommittedSteep | .cadDeclaredSteep | .cadDeepSteep
  | .cadCkptStatus | .cadCowUsed | .cadCowPeak | .cadCowSaves | .cadCowStalls | .cadStallUs | .cadTrigDeferred | .cadGrainNaks | .cadWireBytes
  | .cadSnapGrains | .cadRecoveryCtl | .cadRecoveryStatus | .cadRecoveryInfo | .cadRecoveries | .cadRestoredGrains | .cadRecoveryUs => .cad r.idx
  | .slcStatus | .slcDbIgnored | .slcResets => .page r.idx
  | .nvmeCc | .nvmeCsts | .nvmeAqa | .nvmeAsq | .nvmeAcq => .ctrl r.idx
  | .mbxStatus | .mbxEvtStatus | .mbxIrq => .mailbox (if r.idx = 0 then .pf0 else if r.idx = 1 then .pf1 else .slice (r.idx - 2))
  | .msixEntry => .msix (r.idx / 8192)
  | .keepWinSel | .keepWinStatus | .keepWinFault => .keepSel r.idx
  | _ => .bar0

/-- A function serves memory requests to its BARs: in D0 and outside a function-level reset (R300, R309). -/
def pfServes (s : State) (f : Pf) : Bool := dState s f == 0 && !s.pci.flr.contains f

/-- A slice's write of its page (R320, R507). -/
def pageGate (n : Nat) (s : State) (f : State → State) : State :=
  if s.pwr.state = .on ∧ pageOpen s n then f s else pageIgnored n s

/-- A register block of the array that a core reaches: its own local block, and its partition's clusters (R60). -/
def coreReaches (s : State) (id : Nat) (p : RegPlace) : Bool :=
  match p with
  | .local i => i == id
  | .cluster cl => match partOf s (coreCluster id) with
    | some (_, P) => P.mask.getLsbD cl
    | none => false
  | .die => true
  | _ => false

/-- A write of a register at a place by an agent: done, ignored, or ignored and counted (R309, R320, R488, R510). -/
def regGate (a : Agent) (p : RegPlace) (s : State) (f : State → State) : State :=
  match a with
  | .firmware => f s
  | .pf0 =>
    if pfServes s .pf0 = false then s
    else match p with
    | .mailbox c => if c = .pf0 then f s else if c = .slice 0 then pageGate 0 s f else s
    | .msix i => if i = 0 then f s else s
    | .keepSel i => if i = 0 then f s else s
    | .page n => if n = 0 then pageGate 0 s f else s
    | .ctrl k => if k = 0 then pageGate 0 s f else s
    | _ => f s
  | .pf1 =>
    if pfServes s .pf1 = false then s
    else match p with
    | .mailbox c => if c = .pf1 then f s else s
    | .msix i => if i = 1 then f s else s
    | .keepSel i => if i = 1 then f s else s
    | .bar0 | .cad _ => s.ignored
    | _ => s
  | .mgmt => match p with
    | .debug | .local _ | .cluster _ | .die | .cad _ => f s
    | _ => s
  | .slice n => match p with
    | .mailbox c => if c = .slice n then pageGate n s f else s
    | .page k => if k = n then pageGate n s f else s
    | .ctrl k => if k = n then pageGate n s f else s
    | _ => s
  | .core id => match p with
    | .cad d => cadGate a d s f
    | p => if coreReaches s id p then f s else s
  | .accel sub => match p with
    | .ctrl k => if k = accelCtrl + sub then f s else s
    | _ => s
  | _ => s

/-- How many of a register there are. -/
def regCount : RegName → Nat
  | .tcmpCtl | .tcmpTarget | .tcmpArg => 192
  | .tnsReach | .tnsDmaStage | .tnsMeStage => 4096
  | .tnsOptHp => 2048
  | .tnsDmaSubmits | .tnsSrSeed => 256
  | .eicSrcCfg => 4096
  | .eicVbase => 256
  | .eicMask | .eicPending | .eicActive => 128
  | .eicBadComplete => 16
  | .eicWatch => 64
  | .msixEntry => 16384
  | .pciRpStatus => 32
  | .pciCtoCount | .pciLateCpl | .pciPoisonRx | .pciQuarTags => 9
  | .slcStatus | .slcDbIgnored | .slcResets => 4096
  | .netPortCfg | .netRxErr | .netCtlDrop | .netMacsecDrop => 33
  | .pktShapeRate | .pktShapeHi | .pktShapeCredit => 561
  | .pktWeight => 99
  | .pktPolicerRate | .pktPolicerBurst | .pktPoliceDrop | .pktPoliceMark => 1024
  | .pktRuleStage => 40
  | .pktRuleHits => 4096
  | .pktQset => 4096
  | .nvmeCc | .nvmeCsts | .nvmeAqa | .nvmeAsq | .nvmeAcq => 4128
  | .mbxStatus | .mbxEvtStatus | .mbxIrq => 4098
  | .sivCtl | .sivStatus | .sivTrigCause | .sivTrigSrc | .sivTrigVal | .sivTrigVmask | .sivSpill | .sivView | .sivDrops | .sivGaps | .sivTrigLate => 3
  | .sivEn => 96
  | .sivPmcCfg | .sivPmc => 320
  | .keepWinSel | .keepWinStatus | .keepWinFault => 2
  | n => match regPlace ⟨n, 0⟩ with
    | .cad _ => 64
    | _ => 1

/-- The register exists: PF1 has 64 MSI-X vectors (R470), and TNS_REACH_0 does not exist (R61). -/
def regExists (r : Reg) : Bool :=
  decide (r.idx < regCount r.name) && (r.name != .msixEntry || decide (r.idx < 8192 + 256)) && (r.name != .tnsReach || r.idx % 16 != 0)

def execRegisterWrite (a : Agent) (r : Reg) (high : Bool) (v : Word) (s : State) : Out :=
  if regExists r = false then .fault .noSuchUnit
  else whenMain s (fun s => regGate a (regPlace r) s (regWrite a r high v.toNat))

/-- A misaligned or narrower access (R5). -/
def execMisalignedRegisterAccess (_a : Agent) (write : Bool) (s : State) : Out :=
  whenMain s (fun s => let s := s.bump .dbgAccessErr; if write then s else { s with readVal := 0 })

/-- A read of the low word of a 64-bit register (R6). -/
def execReg64LowWordRead (a : Agent) (r : Reg) (s : State) : Out :=
  if regExists r = false then .fault .noSuchUnit
  else whenMain s (fun s =>
    if r.name.info.width = 32 then s
    else
      let (v, s) := regRead a r false s
      { s with readVal := v })

/-! Keep words. -/

/-- A write of a keep word, and what it changes at once: the fabric-time source (R33). -/
def keepStore (a : Agent) (w v : Nat) (s : State) : State :=
  let old := s.ftSource
  let s := keepWrite a w v s
  if w = kFtCtl then ftSourceChanged old s else s

/-- KEEP_WRITE by any agent (R516, R521, R524). A write through SPDM needs an established session (R414). -/
def execKeepWrite (a : Agent) (word : Nat) (v : Word) (s : State) : Out :=
  whenMain s (fun s =>
    match a with
    | .pf0 => if pfServes s .pf0 then keepStore a word v.toNat s else s
    | .pf1 => if pfServes s .pf1 then keepStore a word v.toNat s else s
    | .spdm => if spdmOpen s then keepStore a word v.toNat s else s
    | _ => keepStore a word v.toNat s)

/-- A word reaches the Kiln (R516). -/
def execKeepPersist (word : Nat) (s : State) : Out := whenMain s (keepPersist word)

/-! The TNS range (R515). -/

/-- A word written into the local register block of core `id` or its ME command port; `none` where the command port is full (R73, R144). -/
def localWrite (id off v : Nat) (s : State) : Option State :=
  if 4 ≤ off ∧ off < 0x40 then some (reachWrite id (off / 4) v s)
  else if off = 0x80 then some (regPut ⟨.tnsSrSeed, id⟩ false v s)
  else if off = 0x84 then some (srSeedLoad id v s)
  else if off = 0xC0 then some (kernelEnd id (v % 65536) s)
  else if off = 0xC8 then some (traceStore id v s)
  else if 0x100 ≤ off ∧ off < 0x118 then some (s.setReg .tnsOptHp v (id * 8 + (off - 0x100) / 4))
  else if 0x200 ≤ off ∧ off < 0x240 then some (s.setReg .tnsDmaStage v (id * 16 + (off - 0x200) / 4))
  else if off = 0x240 then dmaSubmit id v s
  else if 0x1000 ≤ off ∧ off < 0x1040 then some (s.setReg .tnsMeStage v (id * 16 + (off - 0x1000) / 4))
  else if off = 0x1040 then meSubmit id s
  else if off = 0x105C then some (mePop id s)
  else some s

/-- A software source is set pending (18). -/
def eicSwi (cl v : Nat) (s : State) : State := eicEvent cl (16 + v % 32) s

/-- What a word of the TNS range takes: nothing is there (outer `none`), or a command port was full (inner `none`). -/
def tnsWrite (a : Agent) (off v : Nat) (s : State) : Option (Option State) :=
  if off < 0x1000000 then
    if off % 0x10000 < 0x2000 ∧ corePresent s (off / 0x10000) then some (localWrite (off / 0x10000) (off % 0x10000) v s) else none
  else if off < 0x2000000 then
    let cl := (off - 0x1000000) / 0x100000
    let o := off % 0x100000
    if o < 0x10000 then
      some (some (if o = 0x4A0 then eicComplete cl (v % 1024) s
        else if o = 0x4A4 then eicSwi cl v s
        else match eicReg cl o with
        | some r => regWrite a r false v s
        | none => s))
    else if o < 0x20000 then some (some s)
    else if o < 0x20010 then some (some (keepWrite a (kMap cl ((o - 0x20000) / 4)) v s))
    else if o = 0x20010 then some (some (keepWrite a (kSpare cl) v s))
    else none
  else if off < 0x4000000 then
    let die := (off - 0x2000000) / 0x1000000
    let o := off % 0x1000000
    match tcmpAt off with
    | some (k, b) =>
      some (some (if b = 0 then regWrite a ⟨.tcmpCtl, k⟩ false v s
        else if b = 8 ∨ b = 12 then regWrite a ⟨.tcmpTarget, k⟩ (b == 12) v s
        else if b = 16 ∨ b = 20 then regWrite a ⟨.tcmpArg, k⟩ (b == 20) v s
        else s))
    | none =>
      if 0x10000 ≤ o ∧ o < 0x20000 then some (some s)
      else if 0x20000 ≤ o ∧ o < 0x21000 then some (some (keepWrite a (kRetired die ((o - 0x20000) / 4)) v s))
      else none
  else if 0x4000000 ≤ off ∧ off < 0x4004000 then
    match cadReg (off % 0x100) with
    | some (n, hi) => some (some (regWrite a ⟨n, (off - 0x4000000) / 0x100⟩ hi v s))
    | none => some (some s)
  else none

end Sys2Proof.Machine
end

