-- ==== Sys2Proof/Machine/Debug.lean ====
section
/-! DEFINITION. The debug window as the management port serves it (R480, R485, R488, R514), Strata's and Sieve's own events (R476, R478, R486), and the
interrupt controllers' commands (R461, R463, R466, R472). -/

namespace Sys2Proof.Machine

open Sys2Proof

/-! Records as bytes. -/

def sevNum : Sev → Nat
  | .fatal => 1
  | .error => 2
  | .warning => 3
  | .advisory => 4

def kindNum : RecKind → Nat
  | .event => 1
  | .timeMark => 2
  | .boot => 3
  | .loss => 4

/-- The 64 bytes of a Strata record (R473). -/
def StrataRec.bytes (r : StrataRec) : List Byte :=
  let b := leBytes 8 r.seq ++ leBytes 2 r.code.toNat ++ leBytes 1 (kindNum r.kind) ++ leBytes 1 (sevNum r.sev) ++ leBytes 1 r.origin ++ leBytes 1 r.inst ++
    leBytes 2 r.boot ++ leBytes 3 r.repeats ++ leBytes 1 0 ++ leBytes 4 r.a32 ++ leBytes 8 r.a0 ++ leBytes 8 r.a1 ++ leBytes 8 r.a2 ++ leBytes 8 r.a3 ++
    leBytes 4 0
  b ++ leBytes 4 (crc32c b)

def payloadKind : SievePayload → Nat
  | .event _ => 1
  | .gap _ _ _ => 2
  | .trigger _ _ _ => 3
  | .sample _ _ => 4
  | .windowStart => 5
  | .windowStop => 6

/-- The payload of a Sieve record, bytes 12 to 31 (R482). -/
def payloadBytes : SievePayload → List Byte
  | .event d => (d ++ List.replicate 20 0).take 20
  | .gap n a b => leBytes 4 n ++ leBytes 8 a ++ leBytes 8 b
  | .trigger c d t => leBytes 1 c ++ leBytes 1 d ++ leBytes 2 0 ++ leBytes 8 t ++ leBytes 8 0
  | .sample i v => leBytes 2 i ++ leBytes 2 0 ++ leBytes 8 v ++ leBytes 8 0
  | _ => List.replicate 20 0

/-- The 32 bytes of a Sieve record (R482). -/
def SieveRec.bytes (r : SieveRec) : List Byte :=
  leBytes 8 r.time ++ leBytes 2 r.source ++ leBytes 1 (payloadKind r.payload) ++ leBytes 1 (if r.loc then 1 else 0) ++ payloadBytes r.payload

/-- The word at an offset of a list of bytes. -/
def wordAt (l : List Byte) (o : Nat) : Nat := fieldLE l o 4

/-! The debug window. -/

/-- The Sieve registers of a die's block, and the STR registers, in the order of their tables; the write-only SIV_TRIG_NOW is `none`, and `true` the high word. -/
def sivRegs (die : Nat) : List (Option (Reg × Bool)) :=
  [some (⟨.sivCtl, die⟩, false), some (⟨.sivStatus, die⟩, false)] ++ (List.range 32).map (fun k => some (⟨.sivEn, 32 * die + k⟩, false)) ++
    [some (⟨.sivTrigCause, die⟩, false), some (⟨.sivTrigSrc, die⟩, false), some (⟨.sivTrigVal, die⟩, false), some (⟨.sivTrigVmask, die⟩, false), none,
     some (⟨.sivSpill, die⟩, false), some (⟨.sivView, die⟩, false), some (⟨.sivDrops, die⟩, false), some (⟨.sivGaps, die⟩, false),
     some (⟨.sivTrigLate, die⟩, false)]

def strRegs : List (Option (Reg × Bool)) :=
  [some (⟨.strNextSeq, 0⟩, false), some (⟨.strNextSeq, 0⟩, true), some (⟨.strStatus, 0⟩, false), some (⟨.strLost, 0⟩, false),
   some (⟨.strViewWrites, 0⟩, false)]

/-- The entry of a list of registers whose offset is `o`. -/
def regAtOffset (l : List (Option (Reg × Bool))) (offset : Nat → Nat) (o : Nat) : Option (Option (Reg × Bool)) :=
  ((List.range l.length).find? (fun i => offset i == o)).bind (fun i => l[i]?)

/-- The counters' 16 bytes each: SIV_PMC_CFG at 0, SIV_PMC at 8 (assumption 35). -/
def counterReg (o : Nat) : Option (Reg × Bool) :=
  let k := if o < 0x400 then some (256 + o / 16)
    else if 0x10000 ≤ o ∧ o < 0x11000 then some ((o - 0x10000) / 16)
    else none
  k.bind (fun k =>
    if o % 16 = 0 then some (⟨.sivPmcCfg, k⟩, false)
    else if o % 16 = 8 then some (⟨.sivPmc, k⟩, false)
    else if o % 16 = 12 then some (⟨.sivPmc, k⟩, true)
    else none)

/-- The register that an offset of the debug window holds (R514). -/
def debugReg (off : Nat) : Option (Option (Reg × Bool)) :=
  if off = 0 then some (some (⟨.dbgCtl, 0⟩, false))
  else if off = 8 then some (some (⟨.dbgAccessErr, 0⟩, false))
  else if off = 12 then some (some (⟨.dbgIgnored, 0⟩, false))
  else if 0x10000 ≤ off ∧ off < 0x40000 then regAtOffset (sivRegs (off / 0x10000 - 1)) Config.sivOffset (off % 0x10000)
  else if 0x40000 ≤ off ∧ off < 0x50000 then regAtOffset strRegs Config.strOffset (off % 0x10000)
  else if 0x80000 ≤ off ∧ off < 0x100000 then (counterReg (off - 0x80000)).map some
  else none

/-- A word of the Sieve buffer of a die. In stream mode record `i` of the buffer is the one written when wptr was `i`; where the parts of a triggered buffer lie is not
stated, and a word of one is a free value. -/
def sieveWord (die o : Nat) (s : State) : Nat × State :=
  let buf := s.sieve.buf.get die []
  if s.fld .sivCtl 2 1 die = 1 then s.draw 32
  else
    let back := (s.fld .sivStatus 18 0 die + 524287 - o / 32) % 524288
    match buf[back]? with
    | some r => (wordAt r.bytes (o % 32), s)
    | none => (0, s)

/-- A word of the spill area as the spill view shows it (R485): the ring in order while nothing has been overwritten; else a free value. -/
def spillWord (die o : Nat) (s : State) : Nat × State :=
  let at_ := s.reg .sivView die + o
  let base := s.fld .sivSpill 31 16 die * 2 ^ 20
  let sp := s.sieve.spill.get die []
  if at_ < base ∨ base + 32 * sp.length ≤ at_ then (0, s)
  else if s.fld .sivSpill 15 0 die * 32768 ≤ sp.length then s.draw 32
  else match sp[sp.length - 1 - (at_ - base) / 32]? with
    | some r => (wordAt r.bytes ((at_ - base) % 32), s)
    | none => (0, s)

/-- A word of the debug window (R514). -/
def debugRead (a : Agent) (off : Nat) (s : State) : Nat × State :=
  if off % 4 ≠ 0 then (0, s.bump .dbgAccessErr)
  else match debugReg off with
  | some (some (r, hi)) => regRead a r hi s
  | some none => (0, s)
  | none =>
    if 0x100000 ≤ off ∧ off < 0x200000 then
      let i := (off - 0x100000) / 64
      match s.fw.log.find? (fun r => r.seq % 16384 == i) with
      | some r => (wordAt r.bytes (off % 64), s)
      | none => (0, s)
    else if 0x200000 ≤ off ∧ off < 0x300000 then ((s.keepWord ((off - 0x200000) / 4)).changes % 2 ^ 32, s)
    else if 0x400000 ≤ off ∧ off < 0xD00000 then
      match s.strata.kiln.find ((off - 0x400000) / 64) with
      | some r => (wordAt r.bytes (off % 64), s)
      | none => (0, s)
    else if 0x1000000 ≤ off ∧ off < 0x2000000 then sieveWord (s.fld .dbgCtl 3 2) (off - 0x1000000) s
    else if 0x2000000 ≤ off ∧ off < 0x3000000 then spillWord (s.fld .dbgCtl 3 2) (off - 0x2000000) s
    else if 0x3000000 ≤ off ∧ off < 0x4000000 then
      ((tnsRead s (s.fld .dbgCtl 7 4 * 0x1000000 + (off - 0x3000000))).getD 0, s)
    else (0, s)

/-- Causes of the trigger that a write or another die gives (R486). -/
def trigNow (die : Nat) (s : State) : State := sieveTrigger die 4 s

/-- A word written into the debug window (R480, R488, R514). A command port of the array that is full counts the write as ignored (R144). -/
def debugWrite (a : Agent) (off v : Nat) (s : State) : State :=
  if off % 4 ≠ 0 then s.bump .dbgAccessErr
  else if off = 4 then (if v = 1 then freezeStart s else if v = 2 then freezeEnd s else s)
  else match debugReg off with
  | some (some (r, hi)) => regWrite a r hi v s
  | some none => trigNow (off / 0x10000 - 1) s
  | none =>
    if 0x400000 ≤ off ∧ off < 0xD00000 then s.bump .strViewWrites
    else if 0x3000000 ≤ off ∧ off < 0x4000000 then
      match tnsWrite a (s.fld .dbgCtl 7 4 * 0x1000000 + (off - 0x3000000)) v s with
      | some (some t) => t
      | some none => s.ignored
      | none => s
    else s

/-- A UDP request on port 7,303 of the management port (R488): the reply echoes it with the value read and a status. -/
def execDebugUdpRequest (op : DebugOp) (offset : Nat) (v : Word) (s : State) : Out :=
  whenMain s (fun s =>
    match op with
    | .read =>
      let (w, s) := debugRead .mgmt offset s
      s.emit (.debugReply op offset w St.success)
    | .write => (debugWrite .mgmt offset v.toNat s).emit (.debugReply op offset v.toNat St.success)
    | .other => s.emit (.debugReply op offset v.toNat St.invalidField))

/-! Strata and Sieve. -/

/-- The oldest queued record is in the Kiln (R476). -/
def execStrataRecordWrite (s : State) : Out := whenMain s strataWrite

/-- The next whole second of local time begins, and what was lost in this one is recorded (R476). -/
def execStrataLossRecord (s : State) : Out :=
  whenMain s (fun s =>
    if s.strata.lostNow = 0 then s
    else strataLoss (if s.strata.second < s.localSec then s
      else s.modPwr (fun p => { p with localNs := max p.localNs ((s.strata.second + 1) * 1000000000) })))

def execTimeMark (s : State) : Out := whenMain s timeMark

def execSivTrigNow (die : Nat) (_v : Word) (s : State) : Out :=
  if 2 < die then .fault .noSuchUnit else whenMain s (trigNow die)

/-- A trigger taken on one die reaches another (R486). -/
def execCrossTrigger (die from_ : Nat) (s : State) : Out :=
  if 2 < die ∨ 2 < from_ then .fault .noSuchUnit
  else whenOn s (fun s => if die = from_ ∨ s.fld .sivStatus 31 30 from_ < 2 then s else sieveTrigger die 2 s from_)

/-! Interrupts. -/

def execEicComplete (cluster : Nat) (v : Word) (s : State) : Out :=
  if 15 < cluster then .fault .noSuchUnit else whenOn s (eicComplete cluster (v.toNat % 1024))

def execEicSwi (cluster : Nat) (v : Word) (s : State) : Out :=
  if 15 < cluster then .fault .noSuchUnit else whenOn s (eicSwi cluster v.toNat)

/-- The hold-off after a source's last take is over (R466). -/
def execEicModerationExpiry (cluster source : Nat) (s : State) : Out :=
  if 15 < cluster ∨ 255 < source then .fault .noSuchUnit
  else whenOn s (fun s => { s with irq := { s.irq with lastTake := s.irq.lastTake.del (256 * cluster + source) } })

/-- An entry's interval has passed since the first event it gathered (R472). -/
def execIrqModerationInterval (owner : Caller) (entry : Nat) (s : State) : Out :=
  whenOn s (fun s =>
    let e := s.irqEntry owner entry
    if e.acc = 0 ∨ e.interval = 0 then s else irqSend owner entry s)

end Sys2Proof.Machine
end

