-- ==== Sys2Proof/Machine/Sample.lean ====
section
/-! DEFINITION. The sampling units: SAMPLE and VERIFY (R168 to R171). -/

namespace Sys2Proof.Machine

open Sys2Proof

/-- a / b rounded RNE to FP32 (R88). -/
def div32 (a b : Val) : Val :=
  match a, b with
  | .fin s m e, .fin t n q => let (x, y) := quotient m e n q; (f32 (.fin (s != t) x y)).1
  | a, b => (a.div b).1

def sub32 (a b : Val) : Val := (add32 a b.neg).1

/-- Candidates ordered by value descending, ties by ascending index: `p` is placed behind every entry that is not below it. -/
def insertDesc (p : Nat × Val) : List (Nat × Val) → List (Nat × Val)
  | [] => [p]
  | q :: r => if q.2.lt p.2 then p :: q :: r else q :: insertDesc p r

def sortDesc (l : List (Nat × Val)) : List (Nat × Val) := l.foldl (fun a p => insertDesc p a) []

/-- Running FP32 sums of weights. -/
def running : Val → List Val → List Val
  | _, [] => []
  | acc, w :: r => let t := (add32 acc w).1; t :: running t r

/-- The kept candidates of a row: index, z, weight; and the sum of the kept weights (R169). -/
structure Kept where
  cands : List (Nat × Val × Val)
  m     : Val
  w     : Val
deriving DecidableEq, Repr

def lastVal (l : List Val) : Val := l.getLastD (.zero false)

/-- The kept candidates under temperature, top_k and top_p; temperature above zero (R169). -/
def keptOf (logits : List Val) (temp : Val) (topK : Nat) (topP : Val) : Kept :=
  let z := logits.map (fun v => div32 v temp)
  let c := sortDesc ((List.range z.length).zip z)
  let c := if 0 < topK then c.take topK else c
  let one : Val := .fin false 1 0
  let c := if topP.lt one then c.take 4096 else c
  let m := match c with
    | p :: _ => p.2
    | [] => .nan
  let c := c.map (fun p => (p.1, p.2, (sub32 p.2 m).exp.1))
  let sums := running (.zero false) (c.map (·.2.2))
  let w := lastVal sums
  if topP.lt one then
    let goal := topP.mul w
    match firstBelow sums.length (fun i => !(sums.getD i .nan).lt goal) with
    | some i => { cands := c.take (i + 1), m := m, w := sums.getD i .nan }
    | none => { cands := c, m := m, w := w }
  else { cands := c, m := m, w := w }

/-- One draw of the unit's generator: 32 bits and the next state (R168). -/
def unitDraw (g : Nat) : Nat × Nat := let s := lfsrStep g; (s / 2 ^ 32, s)

/-- u = r * 2^-32 * w, exactly. -/
def uOf (r : Nat) (w : Val) : Val := (mkVal false r (-32)).mul w

/-- The first kept place whose running sum exceeds `u`, or the last (R169). -/
def walk (ws : List Val) (u : Val) : Nat :=
  let sums := running (.zero false) ws
  (firstBelow sums.length (fun i => u.lt (sums.getD i .nan))).getD (ws.length - 1)

def lnOf (v : Val) : Val := v.log.1

/-- One row's token and log-probability, the generator after it, and whether the row was valid (R169). -/
def sampleRow (logits : List Val) (temp : Val) (topK : Nat) (topP : Val) (g : Nat) : Nat × Nat × Nat × Bool :=
  if logits.any Val.isNan ∨ ¬ logits.any Val.isFinite then (0xFFFFFFFF, 0x7FC00000, g, false)
  else
    match temp with
    | .zero _ =>
      let best := (sortDesc ((List.range logits.length).zip logits)).headD (0, .nan)
      (best.1, 0, g, true)
    | _ =>
      let k := keptOf logits temp topK topP
      let (r, g) := unitDraw g
      let i := walk (k.cands.map (·.2.2)) (uOf r k.w)
      let c := k.cands.getD i (0, .nan, .nan)
      (c.1, (toF32 (sub32 (sub32 c.2.1 k.m) (lnOf k.w))).1, g, true)

/-- A row's kept, renormalized distribution, by index (R171). -/
def distOf (k : Kept) (n : Nat) : List Val :=
  (List.range n).map (fun i => match k.cands.find? (fun c => c.1 == i) with
    | some c => div32 c.2.2 k.w
    | none => .zero false)

/-- The outcome of VERIFY: accepted count, next token, log-probability, and the first invalid row met. -/
structure Verdict where
  accepted : Nat
  token    : Nat
  logprob  : Nat
  bad      : Option Nat := none
deriving DecidableEq, Repr

/-- A token drawn from weights over every index, with its log-probability. -/
def drawFrom (d : List Val) (g : Nat) : Nat × Nat :=
  let w := lastVal (running (.zero false) d)
  let (r, _) := unitDraw g
  let t := walk d (uOf r w)
  (t, (toF32 (lnOf (div32 (d.getD t .nan) w))).1)

/-- The positions of VERIFY from `j` on, `n` of them left (R171). -/
def verifyFrom (temp : Val) (topK : Nat) (topP : Val) (target draft : Nat → List Val) (tok : Nat → Nat) : Nat → Nat → Nat → Verdict
  | 0, j, g =>
    let r := sampleRow (target j) temp topK topP g
    { accepted := j, token := r.1, logprob := r.2.1, bad := if r.2.2.2 then none else some j }
  | n + 1, j, g =>
    let tl := target j
    let dl := draft j
    if tl.any Val.isNan ∨ ¬ tl.any Val.isFinite ∨ dl.any Val.isNan ∨ ¬ dl.any Val.isFinite then
      { accepted := j, token := 0xFFFFFFFF, logprob := 0x7FC00000, bad := some j }
    else
      let p := distOf (keptOf tl temp topK topP) tl.length
      let q := distOf (keptOf dl temp topK topP) dl.length
      let t := tok j
      let pt := p.getD t .nan
      let qt := q.getD t .nan
      if !pt.lt qt then verifyFrom temp topK topP target draft tok n (j + 1) g
      else
        let (r, g) := unitDraw g
        if (uOf r qt).lt pt then verifyFrom temp topK topP target draft tok n (j + 1) g
        else
          let d := (p.zip q).map (fun x => (sub32 x.1 x.2).maximum (.zero false))
          let d := match lastVal (running (.zero false) d) with
            | .zero _ => p
            | _ => d
          let (tk, lp) := drawFrom d g
          { accepted := j, token := tk, logprob := lp }

/-- Logits of row `i` from their bytes. -/
def rowLogits (fmt vocab stride : Nat) (bytes : List Byte) (i : Nat) : List Val :=
  (laneRead (bytes.drop (i * stride)) fmt vocab 0 0).1

/-- The fields of SAMPLE and VERIFY that both check: INVALID_FIELD, then limits (R156, R169). -/
def sampleBad (d : List Byte) : List (Bool × Nat) :=
  let unit := fieldLE d 16 1
  let temp := val32 (fieldLE d 36 4)
  let p := val32 (fieldLE d 44 4)
  let one : Val := .fin false 1 0
  let tempOk := match temp with
    | .zero _ => true
    | .fin neg _ _ => !neg
    | _ => false
  let pOk := match p with
    | .fin neg _ _ => !neg && !one.lt p
    | _ => false
  headerBad d 11 ++ [
    (unit != 0 && unit != 1 && unit != 0xFF, 16),
    (decide (2 < fieldLE d 18 1), 18),
    (fieldLE d 19 1 != 0, 19),
    (fieldLE d 20 4 == 0, 20),
    (!tempOk, 36),
    (fieldLE d 42 2 != 0, 42),
    (!pOk, 44)]

/-- The unit's generator at the start of a descriptor (R168). -/
def unitSeed (d : List Byte) (s : State) : Nat × State :=
  if natBit (fieldLE d 1 1) 3 then (nonzeroSeed (fieldLE d 56 8), s)
  else let (v, s) := s.drbg 64; (nonzeroSeed v, s)

def sampleLimit (d : List Byte) : Option Nat :=
  if 262144 < fieldLE d 20 4 then some 20 else if 4096 < fieldLE d 40 2 then some 40 else none

/-- Bytes from the first logit of the first row to the last of row `rows`. -/
def logitSpan (d : List Byte) (rows stride : Nat) : Nat :=
  spanLen rows stride (packedLen (fieldLE d 18 1) (fieldLE d 20 4))

/-- SAMPLE (R168, R169). -/
def execWorkSample (id : Nat) (s : State) : Out :=
  withItem id 6 s (fun w P s =>
    let d := w.desc
    match firstBad (sampleBad d ++ [((d.drop 64).any (· != 0), 64)]), sampleLimit d with
    | some f, _ => finishItem id St.invalidField f 0xFFFF s
    | none, some f => finishItem id St.lenTooLarge f 0xFFFF s
    | none, none =>
      let rows := fieldLE d 17 1 + 1
      let stride := fieldLE d 32 4
      let src := fieldLE d 24 8
      let out := fieldLE d 48 8
      let len := logitSpan d rows stride
      match spanCheck s w.part P [(src, len, false, 24), (out, 8 * rows, true, 48)] with
      | some (st, f) => finishItem id st f 0xFFFF s
      | none =>
        if natBit (fieldLE d 1 1) 3 = false ∧ s.drbgOk = false then finishItem id St.drbgFailed 0xFFFF 0xFFFF s else
        match eccHit s src len with
        | some word => finishItem id St.dataUncorrectable 0xFFFF 0xFFFF (eccReport 16 word s)
        | none =>
          let (bytes, s) := fetchBytes src len s
          let (g, s) := unitSeed d s
          let temp := val32 (fieldLE d 36 4)
          let r := (List.range rows).foldl (fun (a : List Byte × Nat × Option Nat) i =>
            let x := sampleRow (rowLogits (fieldLE d 18 1) (fieldLE d 20 4) stride bytes i) temp (fieldLE d 40 2)
              (val32 (fieldLE d 44 4)) a.2.1
            (a.1 ++ leBytes 4 x.1 ++ leBytes 4 x.2.1, x.2.2.1, if x.2.2.2 then a.2.2 else a.2.2.or (some i))) ([], g, none)
          let s := memStore .hub out r.1 s
          match r.2.2 with
          | some i => finishItem id St.sampleInvalidRow 0xFFFF i s
          | none => finishItem id St.success 0xFFFF 0xFFFF s)

/-- VERIFY (R171). -/
def execWorkVerify (id : Nat) (s : State) : Out :=
  withItem id 7 s (fun w P s =>
    let d := w.desc
    let n := fieldLE d 17 1
    match firstBad (sampleBad d ++ [
        (n == 0, 17), (val32 (fieldLE d 36 4) == .zero false || val32 (fieldLE d 36 4) == .zero true, 36),
        ((d.drop 84).any (· != 0), 84)]),
      (if 16 < n then some 17 else sampleLimit d) with
    | some f, _ => finishItem id St.invalidField f 0xFFFF s
    | none, some f => finishItem id St.lenTooLarge f 0xFFFF s
    | none, none =>
      let vocab := fieldLE d 20 4
      let src := fieldLE d 24 8
      let out := fieldLE d 48 8
      let dr := fieldLE d 64 8
      let ds := fieldLE d 72 4
      let tk := fieldLE d 76 8
      let sl := logitSpan d (n + 1) (fieldLE d 32 4)
      let dl := logitSpan d n ds
      match spanCheck s w.part P [(src, sl, false, 24), (out, 12, true, 48), (dr, dl, false, 64), (tk, 4 * n, false, 76)] with
      | some (st, f) => finishItem id st f 0xFFFF s
      | none =>
        if natBit (fieldLE d 1 1) 3 = false ∧ s.drbgOk = false then finishItem id St.drbgFailed 0xFFFF 0xFFFF s else
        match ((eccHit s src sl).or (eccHit s dr dl)).or (eccHit s tk (4 * n)) with
        | some word => finishItem id St.dataUncorrectable 0xFFFF 0xFFFF (eccReport 16 word s)
        | none =>
          let (tb, s) := fetchBytes src sl s
          let (db, s) := fetchBytes dr dl s
          let (kb, s) := fetchBytes tk (4 * n) s
          let tok (j : Nat) := fieldLE kb (4 * j) 4
          match (List.range n).find? (fun j => decide (vocab ≤ tok j)) with
          | some j => finishItem id St.invalidField 76 j s
          | none =>
            let (g, s) := unitSeed d s
            let fmt := fieldLE d 18 1
            let v := verifyFrom (val32 (fieldLE d 36 4)) (fieldLE d 40 2) (val32 (fieldLE d 44 4))
              (rowLogits fmt vocab (fieldLE d 32 4) tb) (rowLogits fmt vocab ds db) tok n 0 g
            let s := memStore .hub out (leBytes 4 v.accepted ++ leBytes 4 v.token ++ leBytes 4 v.logprob) s
            match v.bad with
            | some i => finishItem id St.sampleInvalidRow 0xFFFF i s
            | none => finishItem id St.success 0xFFFF 0xFFFF s)

end Sys2Proof.Machine
end

