-- ==== Sys2Proof/Machine/Remap.lean ====
section
/-! DEFINITION. Spare cores and remaps (R74 to R79), and the matrix engine's descriptor timeout (R160). -/

namespace Sys2Proof.Machine

open Sys2Proof

/-- The map entry of a logical core rewritten (R74). -/
def setMapEntry (id v : Nat) (s : State) : State :=
  let w := kMap (id / 16) (id % 16 / 4)
  s.setKw w (natSetBits (s.kw w) (8 * (id % 4) + 7) (8 * (id % 4)) v)

/-- A physical slot of a cluster marked failed; no spare is left where it was the spare or takes the failed core's place (R76, R79). -/
def retireSlot (cl slot : Nat) (s : State) : State :=
  s.setKw (kSpare cl) (natSetBits (Nat.lor (s.kw (kSpare cl)) (2 ^ (6 + slot))) 5 5 0)

def spareValid (s : State) (cl : Nat) : Bool := natBit (s.kw (kSpare cl)) 5
def spareSlot (s : State) (cl : Nat) : Nat := natBits (s.kw (kSpare cl)) 4 0

/-- The number of a remap's cause as its record carries it. -/
def causeNum : CoreFault → Nat
  | .residue => 0
  | .regfile => 1
  | .pipeline => 2
  | .meTimeout => 3

/-- The logical core moves to physical slot `new`: the map, its zeroed memory and reset registers, its interrupt sources, and the record (R76, R146,
R465). -/
def moveCore (id old new cause : Nat) (s : State) : State :=
  let cl := coreCluster id
  let s := setMapEntry id (128 + new) (retireSlot cl old s)
  let s := resetCore id (zeroRange (coreBase id) 0x100000 s)
  let s := s.modCore id (fun c => { c with run := .stopped })
  let s := { s with arr := { s.arr with remapDue := s.arr.remapDue.filter (· != id) } }
  let s := eicRelease cl (id % 16) s
  let s := logRec { code := St.coreRemapped, sev := .warning, a32 := id, a0 := old, a1 := new, a2 := cause } s
  eicEvent cl 147 s

/-- The fault takes the core from its group: every core of the group stops issue, and the failed core's outstanding requests are dropped. -/
def stopGroup (id : Nat) (s : State) : State :=
  let g := match kernelOf s id with
    | some (_, k) => k.cores
    | none => []
  let s := (id :: g).foldl (fun s c => s.modCore c (fun x => { x with run := .stopped })) s
  dropLoads [id] s

/-- The logical id becomes absent, with its kernel aborted (R78). -/
def loseCore (id slot : Nat) (s : State) : State :=
  let cl := coreCluster id
  let w := kMap cl (id % 16 / 4)
  let s := setMapEntry id (natBits (s.kw w) (8 * (id % 4) + 6) (8 * (id % 4))) (retireSlot cl slot s)
  let s := match kernelOf s id with
    | some (item, _) => abortKernel item St.kernelAbortedFault id s
    | none => s
  let s := resetCore id s
  let s := { s with arr := { s.arr with remapDue := s.arr.remapDue.filter (· != id) } }
  log St.coreAbsent .error s (a32 := id)

/-- An immediate remap begins: the first fault of a cluster takes the spare, a core without one becomes absent (R76, R78, R79). -/
def coreFault (id : Nat) (cause : CoreFault) (s : State) : State :=
  let cl := coreCluster id
  match coreSlot s id with
  | none => s
  | some slot =>
    if s.arr.remaps.any (fun r => r.logical == id) then s
    else
      let s := stopGroup id s
      let taken := s.arr.remaps.any (fun r => coreCluster r.logical == cl)
      if spareValid s cl ∧ taken = false then
        { s with arr := { s.arr with remaps := s.arr.remaps ++ [{ logical := id, oldSlot := slot, newSlot := some (spareSlot s cl), cause := cause }] } }
      else loseCore id slot s

def execCoreFaultDetected (id : Nat) (cause : CoreFault) (s : State) : Out :=
  if 256 ≤ id then .fault .noSuchUnit else whenOn s (coreFault id cause)

/-- The remap's end: the map names the spare, and the kernel runs again or is aborted (R76, R77). -/
def execCoreRemapRestart (id : Nat) (s : State) : Out :=
  if 256 ≤ id then .fault .noSuchUnit
  else whenOn s (fun s =>
    match s.arr.remaps.find? (fun r => r.logical == id) with
    | some { oldSlot := old, newSlot := some new, cause := cause, .. } =>
      let k := kernelOf s id
      let s := { s with arr := { s.arr with remaps := s.arr.remaps.filter (fun r => r.logical != id) } }
      let s := moveCore id old new (causeNum cause) s
      match k with
      | none => s
      | some (item, k) =>
        if k.restart ∧ k.cores.all (corePresent s) then
          let s := { s with work := { s.work with kernels := s.work.kernels.set item { k with ended := [] } } }
          startGroup k.desc s
        else abortKernel item St.kernelAbortedFault id s
    | _ => s)

/-- The remap of a core past its corrected-error limit, once it runs no kernel; the remap service writes the map (R74, R75). -/
def execCoreRemapAtKernelEnd (id : Nat) (s : State) : Out :=
  if 256 ≤ id then .fault .noSuchUnit
  else whenOn s (fun s =>
    let cl := coreCluster id
    match coreSlot s id with
    | some slot =>
      if s.arr.remapDue.contains id ∧ (kernelOf s id).isNone ∧ svcRuns s svcRemap then
        if spareValid s cl ∧ s.arr.remaps.all (fun r => coreCluster r.logical != cl) then moveCore id slot (spareSlot s cl) 4 s
        else
          log St.spareUnavailable .warning { s with arr := { s.arr with remapDue := s.arr.remapDue.filter (· != id) } } (a32 := id)
      else s
    | none => s)

/-- The spare's self-test; a failure is recorded by the remap service (R74, R79). -/
def execSpareSelfTest (cl : Nat) (pass : Bool) (s : State) : Out :=
  if 16 ≤ cl then .fault .noSuchUnit
  else whenOn s (fun s =>
    if pass = false ∧ spareValid s cl ∧ svcRuns s svcRemap ∧ s.arr.remaps.all (fun r => coreCluster r.logical != cl) then
      log St.spareFailed .warning (retireSlot cl (spareSlot s cl) s) (a32 := cl)
    else s)

/-- A descriptor in flight for 2^24 array cycles is a fault of its core (R75, R160). -/
def execMeDescriptorTimeout (id : Nat) (s : State) : Out :=
  if 256 ≤ id then .fault .noSuchUnit
  else whenArray s (fun s => if (s.core id).me.queue = [] then s else coreFault id .meTimeout s)

end Sys2Proof.Machine
end

