-- ==== Sys2Proof/Machine/Tilth.lean ====
section
/-! DEFINITION. How a Tilth-32 core executes a word (R116 to R139): encodings, addresses and accesses, exceptions in their order, and what a word commits. The
operations stand in Machine/TilthLong.lean and Machine/TilthShort.lean. -/

namespace Sys2Proof.Machine

open Sys2Proof

/-! Words, for TNS_XVAL (R118 to R120). -/

def encLR (op rd rs1 rs2 funct : Nat) : Nat := op * 2 ^ 25 + rd * 2 ^ 20 + rs1 * 2 ^ 15 + rs2 * 2 ^ 10 + funct
def encLI (op rd rs1 imm : Nat) : Nat := op * 2 ^ 25 + rd * 2 ^ 20 + rs1 * 2 ^ 15 + imm
def encLU (op rd imm : Nat) : Nat := op * 2 ^ 25 + rd * 2 ^ 20 + imm
def encLJ (op off : Nat) : Nat := op * 2 ^ 25 + off
def shortWord (o : ShortOp) : Nat := o.sop.toNat * 2 ^ 11 + o.ra.toNat * 2 ^ 7 + o.low.toNat
def encPair (a b : ShortOp) : Nat := 2 ^ 31 + shortWord a * 2 ^ 15 + shortWord b

/-! Registers. -/

/-- A register's value: g0 reads zero (R116). -/
def Core.g (c : Core) (r : BitVec 5) : Word := if r = 0 then 0 else c.gpr.get ⟨r.toNat, r.isLt⟩

/-- A register written: a write to g0 is discarded (R116). -/
def Core.setG (c : Core) (r : BitVec 5) (v : Word) : Core := if r = 0 then c else { c with gpr := c.gpr.set r.toNat v r.isLt }

/-! Accesses. -/

/-- A load, or a store of `data`. A load without a destination register gives the next pc (R131). -/
structure MemAcc where
  store  : Bool
  size   : Nat
  signed : Bool := false
  addr   : Int
  dest   : Option (BitVec 5) := some 0
  data   : Word := 0
deriving DecidableEq, Repr

/-- What an access reaches: bytes of the array, a word of the core's own local block or ME port, a word of the TNS range, or a control core's memory. -/
inductive Reached where
  | bytes (arr : Nat)
  | own (off : Nat)
  | tns (off : Nat)
  | ctl (key : Nat)
deriving DecidableEq, Repr

/-- An array address that a core's window or region 0 names, as the subcode of an access fault or what it reaches (R59, R60, R76). -/
def reachArr (s : State) (id a : Nat) (store : Bool) : Except Nat Reached :=
  if 0x000100000000 ≤ a ∧ a < 0x000110000000 ∧ s.arr.remaps.any (fun r => r.logical == (a - 0x000100000000) / 0x100000) = true then .error 8
  else match arrKind s a with
  | .nowhere => .error 3
  | k =>
    match partOf s (coreCluster id) with
    | none => .error 4
    | some (pn, P) =>
      if mayReach s pn P a store = false then .error 4
      else match k with
      | .tns off => .ok (.tns off)
      | _ => .ok (.bytes a)

/-- Region 0 and the reach windows of a tidy core, as an array address, a word of its own registers, or the subcode of a fault (R61). -/
def tidyArr (s : State) (id a : Nat) (store : Bool) : Except Nat (Nat ⊕ Nat) :=
  let n := a / 2 ^ 28
  if n = 0 then
    if a < 0x100000 then .ok (.inl (coreBase id + a))
    else if 0x800000 ≤ a ∧ a < 0x1000000 then .ok (.inl (clusterBase (coreCluster id) + (a - 0x800000)))
    else if 0x1000000 ≤ a ∧ a < 0x1002000 then .ok (.inr (a - 0x1000000))
    else .error 3
  else
    let w := s.reg .tnsReach (id * 16 + n)
    if natBit w 0 = false then .error 1
    else if store ∧ natBit w 1 = false then .error 2
    else .ok (.inl (w / 4096 * 2 ^ 28 + a % 2 ^ 28))

/-- What an address reaches, or the subcode of its access fault. A control core's map is its own; its ME port does not exist (R147). -/
def reachOf (s : State) (id a : Nat) (store : Bool) : Except Nat Reached :=
  if 256 ≤ id then .ok (.ctl ((id - 256) * 2 ^ 32 + a))
  else match tidyArr s id a store with
  | .error e => .error e
  | .ok (.inr off) => .ok (.own off)
  | .ok (.inl arr) => reachArr s id arr store

/-- The caller for whom a core's requests leave the part. -/
def coreCaller (s : State) (id : Nat) : Caller :=
  match partOf s (coreCluster id) with
  | some (_, P) => ownerCaller P.owner
  | none => .pf0

/-- An exception that a word raises: its code, subcode and TNS_XVAL, `none` where no rule gives the value; and the uncorrectable word it met. -/
structure Exc where
  code : Nat
  sub  : Nat := 0
  xval : Option Nat
  ecc  : Option Nat := none
deriving DecidableEq, Repr

/-- The command port that a store would find full (R73, R144). -/
def portFull (s : State) (id off v : Nat) : Bool := (off == 0x240 || off == 0x1040) && (localWrite id off v s).isNone

/-- The exception that an access raises, if any: misaligned, access fault, data error, command port full (R126, R138). -/
def accFault (s : State) (id : Nat) (m : MemAcc) : Option Exc :=
  let inside : Bool := decide (0 ≤ m.addr ∧ m.addr < 2 ^ 32)
  let a := m.addr.toNat
  let xv := if inside then some a else none
  if m.addr % m.size ≠ 0 then some { code := 4, xval := xv }
  else if inside = false then some { code := 7, sub := 6, xval := none }
  else match reachOf s id a m.store with
  | .error e => some { code := 7, sub := e, xval := xv }
  | .ok (.bytes arr) =>
    match linkFor s arr with
    | some (l, _) => if (linkRefusal s l (coreCaller s id)).isSome then some { code := 7, sub := 3, xval := xv } else none
    | none =>
      match (if m.store then eccPartial s arr m.size else eccHit s arr m.size) with
      | some w => some { code := 8, xval := xv, ecc := some w }
      | none => none
  | .ok (.own off) => if m.store ∧ m.size = 4 ∧ portFull s id off m.data.toNat = true then some { code := 11, xval := xv } else none
  | .ok _ => none

/-- The exception with which a control core's store to the address of the ME command port ends; its subcode is a free value (R147). -/
def ctlPort (id : Nat) (m : MemAcc) : Bool :=
  decide (256 ≤ id) && m.store && decide (0x1001000 ≤ m.addr ∧ m.addr < 0x1002000)

/-- A word of the TNS range as a core loads it, with the latch of R6. -/
def tnsLoad (id off : Nat) (s : State) : Nat × State :=
  if 0x4000000 ≤ off ∧ off < 0x4004000 then
    match cadReg (off % 0x100) with
    | some (n, hi) => regRead (.core id) ⟨n, (off - 0x4000000) / 0x100⟩ hi s
    | none => (0, s)
  else match tcmpAt off with
  | some (k, b) =>
    if b = 8 ∨ b = 12 then regRead (.core id) ⟨.tcmpTarget, k⟩ (b == 12) s
    else if b = 16 ∨ b = 20 then regRead (.core id) ⟨.tcmpArg, k⟩ (b == 20) s
    else ((tnsRead s off).getD 0, s)
  | none => ((tnsRead s off).getD 0, s)

/-- The value of a load that stays inside the part. -/
def loadValue (id : Nat) (r : Reached) (size : Nat) (s : State) : Nat × State :=
  match r with
  | .bytes arr => (s.loadNum arr size, s)
  | .own off => if size = 4 then (localRead s id off, s) else (0, s.bump .dbgAccessErr)
  | .tns off => if size = 4 then tnsLoad id off s else (0, s.bump .dbgAccessErr)
  | .ctl key => (s.num .ctl key size, s)

/-- A store that raised nothing. -/
def storeValue (id : Nat) (r : Reached) (size : Nat) (v : Word) (s : State) : State :=
  match r with
  | .bytes arr => memStore (.core id) arr (leBytes size v.toNat) s
  | .own off => if size = 4 then (localWrite id off v.toNat s).getD s else s.bump .dbgAccessErr
  | .tns off =>
    if size = 4 then
      match tnsWrite (.core id) off v.toNat s with
      | some (some t) => t
      | some none => s.ignored
      | none => s
    else s.bump .dbgAccessErr
  | .ctl key =>
    let s := s.store .ctl key (leBytes size v.toNat)
    s.modCore id (fun c => match c.resv with
      | some r => if r.granule = key / 64 * 64 then { c with resv := none } else c
      | none => c)

def extendTo32 (size : Nat) (signed : Bool) (v : Nat) : Word :=
  if signed then (BitVec.ofNat (8 * size) v).signExtend 32 else BitVec.ofNat 32 v

/-! Words. -/

/-- What a word does: the exceptions it raises, its register writes, its access, where it goes, and what else it changes in the core. -/
structure Eff where
  exc    : List Exc := []
  writes : List (BitVec 5 × Word) := []
  mem    : Option MemAcc := none
  target : Option Word := none
  upd    : Core → Core := fun c => c

/-- An exception with the lowest cause code of those raised (R138). -/
def firstExc : List Exc → Option Exc
  | [] => none
  | e :: r => match firstExc r with
    | some f => if f.code < e.code then some f else some e
    | none => some e

/-- The exception is taken (R139, R140). -/
def raise (id : Nat) (e : Exc) (s : State) : State :=
  let s := match e.ecc with
    | some w => eccReport (coreCluster id) w s
    | none => s
  let (x, s) := match e.xval with
    | some x => (x, s)
    | none => s.draw 32
  excEnter id e.code e.sub (BitVec.ofNat 32 x) (s.core id).pc s

/-- One word more has been retired, which counters of a cluster count (R487). -/
def retired1 (id : Nat) (s : State) : State :=
  let s := s.modCore id (fun c => { c with words := c.words + 1 })
  if id < 256 then pmcAdd (coreCluster id) 5 1 s else s

/-- A word without exceptions commits: registers, the access, then the pc. -/
def commit (id : Nat) (e : Eff) (s : State) : State :=
  let c := s.core id
  let next := e.target.getD (c.pc + 4)
  let c' := e.upd (e.writes.foldl (fun c w => c.setG w.1 w.2) c)
  match e.mem with
  | none => retired1 id (s.setCore id { c' with pc := next })
  | some m =>
    match reachOf s id m.addr.toNat m.store with
    | .error _ => s
    | .ok r =>
      if m.store then
        let s := s.setCore id { c' with pc := next }
        storeValue id r m.size m.data (retired1 id s)
      else
        let link := match r with
          | .bytes arr => linkFor s arr
          | _ => none
        match link with
        | some (l, a) =>
          let k : LoadCont := { dest := m.dest, bytes := m.size, signed := m.signed, gpr := c'.gpr, pc := next, rsp := c'.rsp, ea := BitVec.ofInt 32 m.addr }
          match issueRead l (coreCaller s id) a m.size (.core id k) s with
          | some (t, s) => (if id < 256 then pmcAdd (coreCluster id) 5 1 s else s).modCore id (fun c => { c with run := .loading l t })
          | none => s
        | none =>
          let (v, s) := loadValue id r m.size s
          let w := extendTo32 m.size m.signed v
          let c' := match m.dest with
            | some rd => { c'.setG rd w with pc := next }
            | none => { c' with pc := w }
          retired1 id (s.setCore id c')

/-- The word at pc cannot be fetched (R64, R132, R139): a misaligned address, one outside region 0's memories, or an uncorrectable word. -/
def fetchFault (s : State) (id : Nat) : Option (Option Nat) :=
  let pc := (s.core id).pc.toNat
  if pc % 4 ≠ 0 then some none
  else if 256 ≤ id then none
  else
    let arr := if pc < 0x100000 then some (coreBase id + pc)
      else if 0x800000 ≤ pc ∧ pc < 0x1000000 then some (clusterBase (coreCluster id) + (pc - 0x800000))
      else none
    match arr with
    | none => some none
    | some a => (eccHit s a 4).map some

/-- A word executes. -/
def runWord (id : Nat) (e : Eff) (s : State) : State :=
  let f := match e.mem with
    | some m => (if ctlPort id m then [{ code := 7, sub := (s.draw 8).1, xval := some m.addr.toNat }] else []) ++ (accFault s id m).toList
    | none => []
  match firstExc (e.exc ++ f) with
  | some x => raise id x (match e.mem with
      | some m => if ctlPort id m then (s.draw 8).2 else s
      | none => s)
  | none => commit id e s

/-- A core issues words: a tidy core that runs its part of a kernel, a control core once it has left reset (R148, R293, R410). -/
def coreIssues (s : State) (id : Nat) : Bool :=
  match (s.core id).run with
  | .running => decide (id < 256) || s.fw.released
  | .gated => decide (256 ≤ id) && s.fw.released
  | _ => false

/-- Core numbers 256 to 271 are the control cores, which a debug freeze leaves running (R49, R147). -/
def whenCore (id : Nat) (s : State) (f : State → State) : Out :=
  if 272 ≤ id then .fault .noSuchUnit
  else if id < 256 then whenArray s f
  else whenOn s f

/-- An event of a core that issues words, after its fetch. -/
def atWord (id : Nat) (s : State) (f : State → State) : Out :=
  whenCore id s (fun s =>
    if coreIssues s id = false then s
    else match fetchFault s id with
    | some w => raise id { code := 3, xval := some (s.core id).pc.toNat, ecc := w } s
    | none => f s)

/-- The word at pc with the effect that it has on the core as it stands. -/
def execEff (id : Nat) (s : State) (f : State → Core → Eff) : Out := atWord id s (fun s => runWord id (f s (s.core id)) s)

/-- The illegal-instruction exception: TNS_XVAL holds the word. -/
def illegal (word : Nat) : Eff := { exc := [{ code := 1, xval := some word }] }

/-- A result in a register. -/
def result (rd : BitVec 5) (v : Word) : Eff := { writes := [(rd, v)] }

def boolWord (b : Bool) : Word := if b then 1 else 0

/-! Integer operations (R125). -/

def mulHigh (a b : Int) : Word := BitVec.ofInt 32 (a * b / 2 ^ 32)

def divS (a b : Word) : Word := if b = 0 then BitVec.allOnes 32 else BitVec.ofInt 32 (a.toInt.tdiv b.toInt)
def divU (a b : Word) : Word := if b = 0 then BitVec.allOnes 32 else BitVec.ofNat 32 (a.toNat / b.toNat)
def remS (a b : Word) : Word := if b = 0 then a else BitVec.ofInt 32 (a.toInt.tmod b.toInt)
def remU (a b : Word) : Word := if b = 0 then a else BitVec.ofNat 32 (a.toNat % b.toNat)

/-- Leading zeros, trailing zeros and set bits, 0 to 32. -/
def clz32 (a : Word) : Nat := (firstBelow 32 (fun i => a.getLsbD (31 - i))).getD 32
def ctz32 (a : Word) : Nat := (firstBelow 32 (fun i => a.getLsbD i)).getD 32
def popc32 (a : Word) : Nat := (List.range 32).foldl (fun n i => if a.getLsbD i then n + 1 else n) 0

/-- The `n` low bits of `v` in reverse order. -/
def revBits (n v : Nat) : Nat := (List.range n).foldl (fun r i => 2 * r + v / 2 ^ i % 2) 0

def bswap32 (a : Word) : Word := BitVec.ofNat 32 (beNat (leBytes 4 a.toNat))

def slt (a b : Word) : Bool := decide (a.toInt < b.toInt)
def sltu (a b : Word) : Bool := decide (a.toNat < b.toNat)

/-! Address modes (R127 to R129). -/

/-- The address and the pointer's next value of an address mode, `none` where its checks fail: mode 0 post-increment by `inc` bytes, 1 by `inc` elements, 2 modulo, 3
bit-reversed; `set` names the address-mode set and `size` the access size. -/
def modeAddr (c : Core) (mode set size : Nat) (rb : Word) (inc : Int) : Option (Int × Word) :=
  let base := c.amb.toList.getD set 0
  let amc := (c.amc.toList.getD set 0).toNat
  let off := (rb - base).toNat
  match mode with
  | 0 => some (rb.toNat, rb + BitVec.ofInt 32 inc)
  | 1 => some (rb.toNat, rb + BitVec.ofInt 32 (inc * size))
  | 2 =>
    let mlen := amc % 2 ^ 24
    if mlen = 0 ∨ mlen ≤ off ∨ mlen < off + size then none
    else some (rb.toNat, base + BitVec.ofInt 32 ((off + inc) % mlen))
  | _ =>
    let n := natBits amc 28 24
    if n = 0 ∨ 2 ^ n * size ≤ off ∨ off % size ≠ 0 then none
    else
      let i := off / size
      some ((base.toNat + revBits n i * size : Nat), base + BitVec.ofInt 32 ((i + inc) % (2 ^ n : Nat) * size))

/-- A load or store with an address mode: both checks of its address apply, those of the mode first only in what they read (R128, R138). -/
def modeEff (c : Core) (mode set size : Nat) (store signed : Bool) (rd rb : BitVec 5) (inc : Int) : Eff :=
  let p := c.g rb
  match modeAddr c mode set size p inc with
  | none =>
    let e : Exc := { code := 5, xval := some p.toNat }
    if mode = 2 ∧ p.toNat % size ≠ 0 then { exc := [{ code := 4, xval := some p.toNat }, e] } else { exc := [e] }
  | some (a, p') => {
      writes := [(rb, p')]
      mem := some { store := store, size := size, signed := signed, addr := a, dest := some rd, data := c.g rd } }

/-- A plain load or store. -/
def accEff (store signed : Bool) (size : Nat) (r : BitVec 5) (c : Core) (addr : Int) : Eff :=
  { mem := some { store := store, size := size, signed := signed, addr := addr, dest := some r, data := c.g r } }

end Sys2Proof.Machine
end

