-- ==== Sys2Proof/Machine/TilthLong.lean ====
section
/-! DEFINITION. The long operations of Tilth-32 (R117, R119, R125 to R143), interrupts (R141, R461, R462), and the stores of a tidy core that are commands of their own
(R159, R483). -/

namespace Sys2Proof.Machine

open Sys2Proof

/-! Arithmetic (R119, R125). -/

/-- An operation of a register and an immediate. -/
def opImm (c : Nat) (rd rs1 : BitVec 5) (imm : BitVec 15) (f : Word → Word → Word) (signed : Bool) (s : State) : Out :=
  execEff c s (fun _ k => result rd (f (k.g rs1) (if signed then imm.signExtend 32 else imm.zeroExtend 32)))

def execAddi (c : Nat) (rd rs1 : BitVec 5) (imm : BitVec 15) (s : State) : Out :=
  opImm c rd rs1 imm (fun a b => a + b) true s

def execAndi (c : Nat) (rd rs1 : BitVec 5) (imm : BitVec 15) (s : State) : Out :=
  opImm c rd rs1 imm (fun a b => a &&& b) false s

def execOri (c : Nat) (rd rs1 : BitVec 5) (imm : BitVec 15) (s : State) : Out :=
  opImm c rd rs1 imm (fun a b => a ||| b) false s

def execXori (c : Nat) (rd rs1 : BitVec 5) (imm : BitVec 15) (s : State) : Out :=
  opImm c rd rs1 imm (fun a b => a ^^^ b) false s

def execSlti (c : Nat) (rd rs1 : BitVec 5) (imm : BitVec 15) (s : State) : Out :=
  opImm c rd rs1 imm (fun a b => boolWord (slt a b)) true s

def execSltiu (c : Nat) (rd rs1 : BitVec 5) (imm : BitVec 15) (s : State) : Out :=
  opImm c rd rs1 imm (fun a b => boolWord (sltu a b)) true s

/-- SHI: imm[12:5] must be zero. `kind` is imm[14:13]. -/
def shiftImm (kind c : Nat) (rd rs1 : BitVec 5) (zero : BitVec 8) (sh : BitVec 5) (f : Word → Nat → Word) (s : State) : Out :=
  execEff c s (fun _ k =>
    if zero ≠ 0 then illegal (encLI 8 rd.toNat rs1.toNat (kind * 2 ^ 13 + zero.toNat * 32 + sh.toNat))
    else result rd (f (k.g rs1) sh.toNat))

def execSlli (c : Nat) (rd rs1 : BitVec 5) (zero : BitVec 8) (sh : BitVec 5) (s : State) : Out :=
  shiftImm 0 c rd rs1 zero sh (fun a n => a <<< n) s

def execSrli (c : Nat) (rd rs1 : BitVec 5) (zero : BitVec 8) (sh : BitVec 5) (s : State) : Out :=
  shiftImm 1 c rd rs1 zero sh (fun a n => a >>> n) s

def execSrai (c : Nat) (rd rs1 : BitVec 5) (zero : BitVec 8) (sh : BitVec 5) (s : State) : Out :=
  shiftImm 2 c rd rs1 zero sh (fun a n => a.sshiftRight n) s

def execLui (c : Nat) (rd : BitVec 5) (imm : BitVec 20) (s : State) : Out :=
  execEff c s (fun _ _ => result rd (BitVec.ofNat 32 (imm.toNat * 4096)))

def execAuipc (c : Nat) (rd : BitVec 5) (imm : BitVec 20) (s : State) : Out :=
  execEff c s (fun _ k => result rd (k.pc + BitVec.ofNat 32 (imm.toNat * 4096)))

/-- An operation of two registers. -/
def opReg (c : Nat) (rd rs1 rs2 : BitVec 5) (f : Word → Word → Word) (s : State) : Out :=
  execEff c s (fun _ k => result rd (f (k.g rs1) (k.g rs2)))

def execAdd (c : Nat) (rd rs1 rs2 : BitVec 5) (s : State) : Out := opReg c rd rs1 rs2 (fun a b => a + b) s

def execSub (c : Nat) (rd rs1 rs2 : BitVec 5) (s : State) : Out := opReg c rd rs1 rs2 (fun a b => a - b) s

def execAnd (c : Nat) (rd rs1 rs2 : BitVec 5) (s : State) : Out := opReg c rd rs1 rs2 (fun a b => a &&& b) s

def execOr (c : Nat) (rd rs1 rs2 : BitVec 5) (s : State) : Out := opReg c rd rs1 rs2 (fun a b => a ||| b) s

def execXor (c : Nat) (rd rs1 rs2 : BitVec 5) (s : State) : Out := opReg c rd rs1 rs2 (fun a b => a ^^^ b) s

def execSll (c : Nat) (rd rs1 rs2 : BitVec 5) (s : State) : Out := opReg c rd rs1 rs2 (fun a b => a <<< (b.toNat % 32)) s

def execSrl (c : Nat) (rd rs1 rs2 : BitVec 5) (s : State) : Out := opReg c rd rs1 rs2 (fun a b => a >>> (b.toNat % 32)) s

def execSra (c : Nat) (rd rs1 rs2 : BitVec 5) (s : State) : Out := opReg c rd rs1 rs2 (fun a b => a.sshiftRight (b.toNat % 32)) s

def execSlt (c : Nat) (rd rs1 rs2 : BitVec 5) (s : State) : Out := opReg c rd rs1 rs2 (fun a b => boolWord (slt a b)) s

def execSltu (c : Nat) (rd rs1 rs2 : BitVec 5) (s : State) : Out := opReg c rd rs1 rs2 (fun a b => boolWord (sltu a b)) s

def execMin (c : Nat) (rd rs1 rs2 : BitVec 5) (s : State) : Out := opReg c rd rs1 rs2 (fun a b => if slt b a then b else a) s

def execMax (c : Nat) (rd rs1 rs2 : BitVec 5) (s : State) : Out := opReg c rd rs1 rs2 (fun a b => if slt a b then b else a) s

def execMinu (c : Nat) (rd rs1 rs2 : BitVec 5) (s : State) : Out := opReg c rd rs1 rs2 (fun a b => if sltu b a then b else a) s

def execMaxu (c : Nat) (rd rs1 rs2 : BitVec 5) (s : State) : Out := opReg c rd rs1 rs2 (fun a b => if sltu a b then b else a) s

def execMul (c : Nat) (rd rs1 rs2 : BitVec 5) (s : State) : Out := opReg c rd rs1 rs2 (fun a b => a * b) s

def execMulh (c : Nat) (rd rs1 rs2 : BitVec 5) (s : State) : Out := opReg c rd rs1 rs2 (fun a b => mulHigh a.toInt b.toInt) s

def execMulhu (c : Nat) (rd rs1 rs2 : BitVec 5) (s : State) : Out := opReg c rd rs1 rs2 (fun a b => mulHigh a.toNat b.toNat) s

def execMulhsu (c : Nat) (rd rs1 rs2 : BitVec 5) (s : State) : Out := opReg c rd rs1 rs2 (fun a b => mulHigh a.toInt b.toNat) s

def execDiv (c : Nat) (rd rs1 rs2 : BitVec 5) (s : State) : Out := opReg c rd rs1 rs2 divS s

def execDivu (c : Nat) (rd rs1 rs2 : BitVec 5) (s : State) : Out := opReg c rd rs1 rs2 divU s

def execRem (c : Nat) (rd rs1 rs2 : BitVec 5) (s : State) : Out := opReg c rd rs1 rs2 remS s

def execRemu (c : Nat) (rd rs1 rs2 : BitVec 5) (s : State) : Out := opReg c rd rs1 rs2 remU s

/-- An operation of one register; rs2 must be g0. -/
def opOne (funct c : Nat) (rd rs1 rs2 : BitVec 5) (f : Word → Word) (s : State) : Out :=
  execEff c s (fun _ k =>
    if rs2 ≠ 0 then illegal (encLR 1 rd.toNat rs1.toNat rs2.toNat funct) else result rd (f (k.g rs1)))

def execClz (c : Nat) (rd rs1 rs2 : BitVec 5) (s : State) : Out := opOne 0x020 c rd rs1 rs2 (fun a => BitVec.ofNat 32 (clz32 a)) s

def execCtz (c : Nat) (rd rs1 rs2 : BitVec 5) (s : State) : Out := opOne 0x021 c rd rs1 rs2 (fun a => BitVec.ofNat 32 (ctz32 a)) s

def execPopc (c : Nat) (rd rs1 rs2 : BitVec 5) (s : State) : Out := opOne 0x022 c rd rs1 rs2 (fun a => BitVec.ofNat 32 (popc32 a)) s

def execBrev (c : Nat) (rd rs1 rs2 : BitVec 5) (s : State) : Out := opOne 0x023 c rd rs1 rs2 (fun a => BitVec.ofNat 32 (revBits 32 a.toNat)) s

def execBswap (c : Nat) (rd rs1 rs2 : BitVec 5) (s : State) : Out := opOne 0x024 c rd rs1 rs2 bswap32 s

/-! Loads and stores (R126). -/

/-- The exact effective address of a base and a signed offset. -/
def plainAddr (k : Core) (rs1 : BitVec 5) (imm : BitVec 15) : Int := (k.g rs1).toNat + imm.toInt

def execLb (c : Nat) (rd rs1 : BitVec 5) (imm : BitVec 15) (s : State) : Out :=
  execEff c s (fun _ k => accEff false true 1 rd k (plainAddr k rs1 imm))

def execLbu (c : Nat) (rd rs1 : BitVec 5) (imm : BitVec 15) (s : State) : Out :=
  execEff c s (fun _ k => accEff false false 1 rd k (plainAddr k rs1 imm))

def execLh (c : Nat) (rd rs1 : BitVec 5) (imm : BitVec 15) (s : State) : Out :=
  execEff c s (fun _ k => accEff false true 2 rd k (plainAddr k rs1 imm))

def execLhu (c : Nat) (rd rs1 : BitVec 5) (imm : BitVec 15) (s : State) : Out :=
  execEff c s (fun _ k => accEff false false 2 rd k (plainAddr k rs1 imm))

def execLw (c : Nat) (rd rs1 : BitVec 5) (imm : BitVec 15) (s : State) : Out :=
  execEff c s (fun _ k => accEff false false 4 rd k (plainAddr k rs1 imm))

def execSb (c : Nat) (rs2 rs1 : BitVec 5) (imm : BitVec 15) (s : State) : Out :=
  execEff c s (fun _ k => accEff true false 1 rs2 k (plainAddr k rs1 imm))

def execSh (c : Nat) (rs2 rs1 : BitVec 5) (imm : BitVec 15) (s : State) : Out :=
  execEff c s (fun _ k => accEff true false 2 rs2 k (plainAddr k rs1 imm))

def execSw (c : Nat) (rs2 rs1 : BitVec 5) (imm : BitVec 15) (s : State) : Out :=
  execEff c s (fun _ k => accEff true false 4 rs2 k (plainAddr k rs1 imm))

/-- MEMX (R127, R128): `r2` is the rs2 field and `f` bits [7:0] of funct. -/
def memx (mode c : Nat) (rd rs1 r2 : BitVec 5) (f : BitVec 8) (inc : Core → Int) (s : State) : Out :=
  let v := f.toNat
  let size := natBits v 7 6
  let store := natBit v 5
  let uns := natBit v 4
  let set := natBits v 3 2
  let bad : Bool := size == 3 || (uns && (store || size == 2)) || (decide (mode < 2) && set != 0) || natBits v 1 0 != 0 ||
    (!store && rd == rs1 && rd != 0)
  execEff c s (fun _ k =>
    if bad then illegal (encLR 0x13 rd.toNat rs1.toNat r2.toNat (mode * 256 + v))
    else modeEff k mode set (2 ^ size) store (!uns) rd rs1 (inc k))

def execMemxPostincReg (c : Nat) (rd rs1 rs2 : BitVec 5) (f : BitVec 8) (s : State) : Out := memx 0 c rd rs1 rs2 f (fun k => (k.g rs2).toInt) s
def execMemxPostincImm (c : Nat) (rd rs1 : BitVec 5) (imm : BitVec 5) (f : BitVec 8) (s : State) : Out := memx 1 c rd rs1 imm f (fun _ => imm.toInt) s
def execMemxModulo (c : Nat) (rd rs1 rs2 : BitVec 5) (f : BitVec 8) (s : State) : Out := memx 2 c rd rs1 rs2 f (fun k => (k.g rs2).toInt) s
def execMemxBitrev (c : Nat) (rd rs1 rs2 : BitVec 5) (f : BitVec 8) (s : State) : Out := memx 3 c rd rs1 rs2 f (fun k => (k.g rs2).toInt) s

/-! Branches, jumps and the return stack (R119, R130 to R132). -/

/-- The address `n` words from pc. -/
def wordsFrom (k : Core) (n : Int) : Word := k.pc + BitVec.ofInt 32 (4 * n)

def branch (c : Nat) (rs1 rs2 : BitVec 5) (off : BitVec 15) (p : Word → Word → Bool) (s : State) : Out :=
  execEff c s (fun _ k => if p (k.g rs1) (k.g rs2) then { target := some (wordsFrom k off.toInt) } else {})

def execBeq (c : Nat) (rs1 rs2 : BitVec 5) (off : BitVec 15) (s : State) : Out := branch c rs1 rs2 off (fun a b => a == b) s

def execBne (c : Nat) (rs1 rs2 : BitVec 5) (off : BitVec 15) (s : State) : Out := branch c rs1 rs2 off (fun a b => a != b) s

def execBlt (c : Nat) (rs1 rs2 : BitVec 5) (off : BitVec 15) (s : State) : Out := branch c rs1 rs2 off slt s

def execBge (c : Nat) (rs1 rs2 : BitVec 5) (off : BitVec 15) (s : State) : Out := branch c rs1 rs2 off (fun a b => !slt a b) s

def execBltu (c : Nat) (rs1 rs2 : BitVec 5) (off : BitVec 15) (s : State) : Out := branch c rs1 rs2 off sltu s

def execBgeu (c : Nat) (rs1 rs2 : BitVec 5) (off : BitVec 15) (s : State) : Out := branch c rs1 rs2 off (fun a b => !sltu a b) s

/-- A push (R130, R131): its exception, or what it adds to a word's effect. -/
def pushEff (k : Core) (v : Word) (e : Eff) : Eff :=
  if k.rstack.length < 16 then { e with upd := fun c => { e.upd c with rstack := v :: (e.upd c).rstack } }
  else if k.split then
    if k.rsp.toNat < k.rslo.toNat + 4 then { exc := [{ code := 9, xval := some k.rsp.toNat }] }
    else { e with
      mem := some { store := true, size := 4, addr := k.rsp.toNat - 4, data := k.rstack.getLastD 0 }
      upd := fun c => { e.upd c with rsp := k.rsp - 4, rstack := v :: (e.upd c).rstack.dropLast } }
  else if k.ovfTrap then { exc := [{ code := 9, xval := some 0 }] }
  else { e with upd := fun c => { e.upd c with rstack := v :: (e.upd c).rstack.dropLast } }

/-- A pop into a register, or into pc where there is none (R130, R131). -/
def popEff (k : Core) (dest : Option (BitVec 5)) : Eff :=
  match k.rstack with
  | v :: r =>
    let upd (c : Core) : Core := { c with rstack := r }
    match dest with
    | some rd => { writes := [(rd, v)], upd := upd }
    | none => { target := some v, upd := upd }
  | [] =>
    if k.split = false then { exc := [{ code := 10, xval := some 0 }] }
    else if k.rshi.toNat ≤ k.rsp.toNat then { exc := [{ code := 10, xval := some k.rsp.toNat }] }
    else { mem := some { store := false, size := 4, addr := k.rsp.toNat, dest := dest }, upd := fun c => { c with rsp := k.rsp + 4 } }

def execJ (c : Nat) (off : BitVec 25) (s : State) : Out := execEff c s (fun _ k => { target := some (wordsFrom k off.toInt) })

def execCall (c : Nat) (off : BitVec 25) (s : State) : Out :=
  execEff c s (fun _ k => pushEff k (k.pc + 4) { target := some (wordsFrom k off.toInt) })

/-- JMPR: rd and rs2 must be g0. -/
def jmpr (funct c : Nat) (rd rs1 rs2 : BitVec 5) (f : Core → Eff) (s : State) : Out :=
  execEff c s (fun _ k => if rd ≠ 0 ∨ rs2 ≠ 0 then illegal (encLR 0x1C rd.toNat rs1.toNat rs2.toNat funct) else f k)

def execJr (c : Nat) (rd rs1 rs2 : BitVec 5) (s : State) : Out := jmpr 0 c rd rs1 rs2 (fun k => { target := some (k.g rs1) }) s
def execCallr (c : Nat) (rd rs1 rs2 : BitVec 5) (s : State) : Out :=
  jmpr 1 c rd rs1 rs2 (fun k => pushEff k (k.pc + 4) { target := some (k.g rs1) }) s
def execRet (c : Nat) (rd rs1 rs2 : BitVec 5) (s : State) : Out := jmpr 2 c rd rs1 rs2 (fun k => popEff k none) s

/-- ERET (R142). -/
def execEret (c : Nat) (rd rs1 rs2 : BitVec 5) (s : State) : Out :=
  jmpr 3 c rd rs1 rs2 (fun k => { target := some k.epc, upd := fun c => { c with ie := k.pie, inx := false, resv := none } }) s

def execRspush (c : Nat) (rs1 : BitVec 5) (s : State) : Out := execEff c s (fun _ k => pushEff k (k.g rs1) {})
def execRspop (c : Nat) (rd : BitVec 5) (s : State) : Out := execEff c s (fun _ k => popEff k (some rd))

/-! Atomics (R133 to R136). -/

/-- Where an atomic operation acts, or the exception it raises. `own`: only core memory, cluster memory and Silt will do, as for LR.W and SC.W. An address that no memory
answers is one on which no atomic operation works. -/
def atomAt (s : State) (id a size : Nat) (store own : Bool) : Except Exc Reached :=
  let xv := some a
  if a % size ≠ 0 then .error { code := 4, xval := xv }
  else if 256 ≤ id then .ok (.ctl ((id - 256) * 2 ^ 32 + a))
  else match tidyArr s id a false with
  | .error e => .error { code := 7, sub := e, xval := xv }
  | .ok (.inr _) => .error { code := 6, xval := xv }
  | .ok (.inl arr) =>
    let works : Bool := match arrKind s arr with
      | .core _ | .cluster _ | .silt _ _ => true
      | .ddr _ | .host _ _ | .accel _ _ => !own
      | .tns _ => false
      | .nowhere => !own
    if works = false then .error { code := 6, xval := xv }
    else match reachOf s id a store with
    | .error e => .error { code := 7, sub := e, xval := xv }
    | .ok r => .ok r

/-- The granule of a reservation: of the array, or of a control core's memory. -/
def granuleOf : Reached → Nat
  | .bytes arr => arr / 64 * 64
  | .ctl key => key / 64 * 64
  | _ => 0

/-- The uncorrectable word that an access meets. -/
def eccAt (s : State) (r : Reached) (size : Nat) (store : Bool) : Option Nat :=
  match r with
  | .bytes arr => if store then eccPartial s arr size else eccHit s arr size
  | _ => none

/-- A register written, the pc moved on, the word retired. -/
def finishWord (id : Nat) (rd : BitVec 5) (v : Word) (s : State) : State :=
  retired1 id (s.modCore id (fun c => { c.setG rd v with pc := c.pc + 4 }))

def execLrW (c : Nat) (rd rs1 _rs2 : BitVec 5) (s : State) : Out :=
  atWord c s (fun s =>
    let a := ((s.core c).g rs1).toNat
    match atomAt s c a 4 false true with
    | .error e => raise c e s
    | .ok r =>
      match eccAt s r 4 false with
      | some w => raise c { code := 8, xval := some a, ecc := some w } s
      | none =>
        let (v, s) := loadValue c r 4 s
        finishWord c rd (BitVec.ofNat 32 v)
          (s.modCore c (fun k => { k with resv := some { granule := granuleOf r, since := k.cycles.toNat } })))

def execScW (c : Nat) (rd rs1 rs2 : BitVec 5) (s : State) : Out :=
  atWord c s (fun s =>
    let k := s.core c
    let a := (k.g rs1).toNat
    let v := k.g rs2
    match atomAt s c a 4 true true with
    | .error e => raise c e s
    | .ok r =>
      let mine : Bool := match k.resv with
        | some x => x.granule == granuleOf r
        | none => false
      if mine = false then finishWord c rd 1 (s.modCore c (fun k => { k with resv := none }))
      else match eccAt s r 4 true with
      | some w => raise c { code := 8, xval := some a, ecc := some w } s
      | none => finishWord c rd 0 (storeValue c r 4 v (s.modCore c (fun k => { k with resv := none }))))

/-- The sequence of PCIe AtomicOps that TAS.B makes on the word of a window (R136): `l` is what the link returned, `i` the byte of the word. The byte read, or none
where it stayed contended; and whether the byte was written. -/
def tasLink (i : Nat) : Nat → Nat → List Word → Option (Nat × Bool)
  | 0, _, _ => none
  | n + 1, v, l =>
    let b := natBits v (8 * i + 7) (8 * i)
    if b = 255 then some (255, false)
    else match l with
    | [] => some (b, true)
    | w :: l => if w.toNat = v then some (b, true) else tasLink i n w.toNat l

/-- TAS.B through a window (R136): without a value from the link for the first read, the byte is as the memory holds it. -/
def tasWindow (c : Nat) (rd : BitVec 5) (a arr : Nat) (l : Link) (link : List Word) (s : State) : State :=
  let port := match l with
    | .host => 0
    | .root sub => 1 + sub
  if (linkRefusal s l (coreCaller s c)).isSome then raise c { code := 7, sub := 3, xval := some a } s
  else if Config.atomicOps port = false then raise c { code := 6, xval := some a } s
  else
    let (v, s) := match link with
      | v :: _ => (v.toNat, s)
      | [] => s.draw 32
    match tasLink (arr % 4) 8 v (link.drop 1) with
    | none => raise c { code := 7, sub := 7, xval := some a } s
    | some (b, put) => finishWord c rd (BitVec.ofNat 32 b) (if put then memStore (.core c) arr [0xFF] s else s)

def execTasB (c : Nat) (rd rs1 _rs2 : BitVec 5) (link : List Word) (s : State) : Out :=
  atWord c s (fun s =>
    let a := ((s.core c).g rs1).toNat
    match atomAt s c a 1 true false with
    | .error e => raise c e s
    | .ok r =>
      match (match r with
        | .bytes arr => (linkFor s arr).map (fun l => (arr, l.1))
        | _ => none) with
      | some (arr, l) => tasWindow c rd a arr l link s
      | none =>
        match eccAt s r 1 true with
        | some w => raise c { code := 8, xval := some a, ecc := some w } s
        | none =>
          let (v, s) := loadValue c r 1 s
          finishWord c rd (BitVec.ofNat 32 v) (storeValue c r 1 0xFF s))

/-- The 1,024 cycles of a reservation are over (R134). -/
def execReservationTimeout (c : Nat) (s : State) : Out :=
  whenCore c s (fun s => s.modCore c (fun k => { k with resv := none }))

/-! System operations. -/

/-- Every access of a core is complete when its word is (R137), so a fence has nothing to wait for. -/
def execFence (c : Nat) (s : State) : Out := execEff c s (fun _ _ => {})
def execFenceI (c : Nat) (s : State) : Out := execEff c s (fun _ _ => {})
def execEcall (c : Nat) (s : State) : Out := execEff c s (fun _ _ => { exc := [{ code := 12, xval := some 0 }] })
def execEbreak (c : Nat) (s : State) : Out := execEff c s (fun _ _ => { exc := [{ code := 13, xval := some 0 }] })

/-- The source that a tidy core's EIC would have it take: the one presented, with a priority above thr (R141, R461). -/
def irqOffered (s : State) (id : Nat) : Option Nat :=
  if 256 ≤ id then none
  else
    let cl := coreCluster id
    match eicPresented s cl (id % 16) with
    | some src => if (s.core id).thr.toNat < s.fld .eicSrcCfg 23 20 (256 * cl + src) then some src else none
    | none => none

/-- TNS_EVENTS. -/
def events (s : State) (id : Nat) : Word :=
  let k := s.core id
  BitVec.ofNat 32 ((if (irqOffered s id).isSome then 4 else 0) + (if k.wake then 2 else 0) + (if k.me.ready.isEmpty then 0 else 1))

/-- WAITE returns its events; one that returns wake clears it (R143). -/
def waiteReturn (id : Nat) (rd : BitVec 5) (e : Word) (s : State) : State :=
  finishWord id rd e (s.modCore id (fun k => { k with wake := k.wake && !e.getLsbD 1, run := .running }))

def execWaite (c : Nat) (rd rs1 : BitVec 5) (s : State) : Out :=
  atWord c s (fun s =>
    let m := (s.core c).g rs1
    if m = 0 then raise c { code := 1, xval := some (encLR 0x1E rd.toNat rs1.toNat 0 0x020) } s
    else
      let e := events s c &&& m
      if e ≠ 0 then waiteReturn c rd e s else s.modCore c (fun k => { k with run := .waiting m rd rs1 }))

/-- A masked event is present (R143). -/
def execWaiteWake (c : Nat) (s : State) : Out :=
  whenCore c s (fun s =>
    match (s.core c).run with
    | .waiting m rd _ => let e := events s c &&& m; if e ≠ 0 then waiteReturn c rd e s else s
    | _ => s)

/-- The take of source `src` by core `id`: the EIC's bits, and entry at the vector it supplies (R141, R461, R462). TNS_XVAL is left open. -/
def takeInterrupt (id src : Nat) (epc : Word) (s : State) : State :=
  let cl := coreCluster id
  let cfg := s.reg .eicSrcCfg (256 * cl + src)
  let s := (s.setEicBit .eicPending cl src false).setEicBit .eicActive cl src true
  let s := if natBit cfg 12 then s.setEicBit .eicMask cl src true else s
  let s := { s with irq := { s.irq with lastTake := s.irq.lastTake.set (256 * cl + src) (s.arrayCycles (cl / 8)) } }
  let (x, s) := s.draw 32
  s.modCore id (fun k => { k with
    epc := epc
    cause := BitVec.ofNat 32 (2 ^ 31 + (cl * 1024 + src))
    xval := BitVec.ofNat 32 x
    pie := k.ie
    ie := false
    inx := true
    resv := none
    run := .running
    pc := BitVec.ofNat 32 (s.reg .eicVbase (16 * cl + id % 16) + 32 * natBits cfg 31 24) })

/-- An interrupt between words, or of a core that waits, whose WAITE then returns (R141, R143). -/
def execInterruptTake (c : Nat) (s : State) : Out :=
  whenCore c s (fun s =>
    let k := s.core c
    match irqOffered s c with
    | none => s
    | some src =>
      if k.ie = false ∨ k.inx then s
      else match k.run with
      | .running => takeInterrupt c src k.pc s
      | .waiting m rd _ =>
        let s := waiteReturn c rd (events s c &&& m) s
        takeInterrupt c src (s.core c).pc s
      | _ => s)

/-! Control registers (R116, R117). -/

/-- The value of a control register, and the core after the read, with the latches of the counters; `none` where the table has no such number. -/
def csrRead (ev : Word) (k : Core) (n : Nat) : Option (Word × (Core → Core)) :=
  let keep (v : Word) : Option (Word × (Core → Core)) := some (v, fun c => c)
  match n with
  | 0x000 => keep (BitVec.ofNat 32 (k.thr.toNat * 256 + (if k.inx then 4 else 0) + (if k.pie then 2 else 0) + (if k.ie then 1 else 0)))
  | 0x001 => keep k.epc
  | 0x002 => keep k.cause
  | 0x003 => keep k.xval
  | 0x004 => keep k.vbase
  | 0x005 => keep (BitVec.ofNat 32 ((if k.ovfTrap then 2 else 0) + (if k.split then 1 else 0)))
  | 0x006 => keep (BitVec.ofNat 32 k.rstack.length)
  | 0x007 => keep k.rsp
  | 0x008 => keep k.rslo
  | 0x009 => keep k.rshi
  | 0x010 | 0x011 | 0x012 | 0x013 => keep (k.amb.toList.getD (n - 0x10) 0)
  | 0x014 | 0x015 | 0x016 | 0x017 => keep (k.amc.toList.getD (n - 0x14) 0)
  | 0x020 => some (k.cycles.extractLsb' 0 32, fun c => { c with cycHi := some (k.cycles.extractLsb' 32 32) })
  | 0x021 => some (k.cycHi.getD (k.cycles.extractLsb' 32 32), fun c => { c with cycHi := none })
  | 0x022 => some (k.words.extractLsb' 0 32, fun c => { c with wordsHi := some (k.words.extractLsb' 32 32) })
  | 0x023 => some (k.wordsHi.getD (k.words.extractLsb' 32 32), fun c => { c with wordsHi := none })
  | 0x030 => keep ev
  | _ => none

/-- A write of a control register; `none` where it would write an RO register or change an RO field. -/
def csrPut (n : Nat) (v : Word) (k : Core) : Option (Core → Core) :=
  match n with
  | 0x000 => if v.getLsbD 2 ≠ k.inx then none else some (fun c => { c with thr := v.extractLsb' 8 4, pie := v.getLsbD 1, ie := v.getLsbD 0 })
  | 0x001 => some (fun c => { c with epc := v })
  | 0x002 => some (fun c => { c with cause := v &&& 0x8000FFFF })
  | 0x003 => some (fun c => { c with xval := v })
  | 0x004 => some (fun c => { c with vbase := v &&& 0xFFFFFE00 })
  | 0x005 => some (fun c => if k.rstack.isEmpty then { c with ovfTrap := v.getLsbD 1, split := v.getLsbD 0 } else c)
  | 0x007 => some (fun c => { c with rsp := v &&& 0xFFFFFFFC })
  | 0x008 => some (fun c => { c with rslo := v &&& 0xFFFFFFFC })
  | 0x009 => some (fun c => { c with rshi := v &&& 0xFFFFFFFC })
  | 0x010 | 0x011 | 0x012 | 0x013 => some (fun c => { c with amb := c.amb.setIfInBounds (n - 0x10) v })
  | 0x014 | 0x015 | 0x016 | 0x017 =>
    some (fun c => if 16 < natBits v.toNat 28 24 then c else { c with amc := c.amc.setIfInBounds (n - 0x14) (v &&& 0x1FFFFFFF) })
  | _ => none

/-- A CSR instruction: `f` gives the value written from the register's and rs1's; `nowrite` that nothing is. imm[14:12] must be zero. -/
def csrOp (op c : Nat) (rd rs1 : BitVec 5) (imm : BitVec 15) (nowrite : Bool) (f : Word → Word → Word) (s : State) : Out :=
  execEff c s (fun s k =>
    let bad := illegal (encLI op rd.toNat rs1.toNat imm.toNat)
    if 4096 ≤ imm.toNat then bad
    else match csrRead (events s c) k imm.toNat with
    | none => bad
    | some (t, seen) =>
      if nowrite then { writes := [(rd, t)], upd := seen }
      else match csrPut imm.toNat (f t (k.g rs1)) k with
      | none => bad
      | some put => { writes := [(rd, t)], upd := fun x => put (seen x) })

def execCsrrw (c : Nat) (rd rs1 : BitVec 5) (imm : BitVec 15) (s : State) : Out := csrOp 0x1F c rd rs1 imm false (fun _ v => v) s
def execCsrrs (c : Nat) (rd rs1 : BitVec 5) (imm : BitVec 15) (s : State) : Out := csrOp 0x20 c rd rs1 imm (rs1 == 0) (fun t v => t ||| v) s
def execCsrrc (c : Nat) (rd rs1 : BitVec 5) (imm : BitVec 15) (s : State) : Out := csrOp 0x21 c rd rs1 imm (rs1 == 0) (fun t v => t &&& ~~~v) s

/-! Stores that are commands of their own. -/

/-- A core's store to TNS_KERNEL_END (R159). -/
def execKernelEndStore (c : Nat) (code : BitVec 16) (s : State) : Out :=
  if 256 ≤ c then .fault .noSuchUnit
  else whenArray s (fun s => if coreIssues s c then kernelEnd c code.toNat s else s)

/-- A core's store to TNS_TRACE (R483). -/
def execTidyTraceStore (c : Nat) (v : Word) (s : State) : Out :=
  if 256 ≤ c then .fault .noSuchUnit
  else whenArray s (fun s => if coreIssues s c then traceStore c v.toNat s else s)

end Sys2Proof.Machine
end

