-- ==== Sys2Proof/Machine/TilthShort.lean ====
section
/-! DEFINITION. The short operations of Tilth-32 and the paired words that hold them (R120 to R123). -/

namespace Sys2Proof.Machine

open Sys2Proof

/-- A short operation of format SR. -/
def shortSR (sop sub : Nat) (ra rb : BitVec 4) : ShortOp := ⟨BitVec.ofNat 4 sop, ra, BitVec.ofNat 7 (rb.toNat * 8 + sub)⟩

/-- A short operation of format SI. -/
def shortSI (sop : Nat) (ra : BitVec 4) (imm : Nat) : ShortOp := ⟨BitVec.ofNat 4 sop, ra, BitVec.ofNat 7 imm⟩

/-- The fields of a short operation as registers and numbers. -/
def shortRa (o : ShortOp) : BitVec 5 := o.ra.zeroExtend 5
def shortRb (o : ShortOp) : BitVec 5 := BitVec.ofNat 5 (o.low.toNat / 8)
def shortSub (o : ShortOp) : Nat := o.low.toNat % 8

/-- A load or store: sop 0x5 to 0xA. -/
def shortMem (o : ShortOp) : Bool := decide (5 ≤ o.sop.toNat ∧ o.sop.toNat ≤ 10)

/-- BEQZ.S or BNEZ.S. -/
def shortBranch (o : ShortOp) : Bool := decide (o.sop.toNat = 11 ∨ o.sop.toNat = 12)

/-- A store: SW.S, SWP.S, SB.S, SH.S, SWM.S. -/
def shortStore (o : ShortOp) : Bool :=
  match o.sop.toNat with
  | 6 | 8 => true
  | 9 => decide (shortSub o = 4 ∨ shortSub o = 5)
  | 10 => decide (4 ≤ shortSub o)
  | _ => false

/-- A post-increment or modulo form. -/
def shortMoves (o : ShortOp) : Bool := decide (o.sop.toNat = 7 ∨ o.sop.toNat = 8 ∨ o.sop.toNat = 10)

/-- An encoding that R123 and R127 reserve. -/
def shortReserved (o : ShortOp) : Bool :=
  match o.sop.toNat with
  | 4 => decide (o.low.toNat / 32 = 3)
  | 9 => decide (6 ≤ shortSub o)
  | 7 => shortRa o == shortRb o && shortRa o != 0
  | 10 => !shortStore o && shortRa o == shortRb o && shortRa o != 0
  | n => decide (13 ≤ n)

/-- The registers that a short operation writes and reads, g0 aside (R121). What it reads is what its operation takes as a source (assumption 36, DEDUCED from the
worked example of R123). -/
def shortWrites (o : ShortOp) : List (BitVec 5) :=
  ((if shortStore o || shortBranch o then [] else [shortRa o]) ++ (if shortMoves o then [shortRb o] else [])).filter (· != 0)

def shortReads (o : ShortOp) : List (BitVec 5) :=
  (match o.sop.toNat with
    | 0 => if shortSub o = 0 then [shortRb o] else [shortRa o, shortRb o]
    | 1 => if shortSub o = 4 ∨ shortSub o = 5 then [shortRb o] else [shortRa o, shortRb o]
    | 2 | 4 | 11 | 12 => [shortRa o]
    | 3 => []
    | _ => if shortStore o then [shortRa o, shortRb o] else [shortRb o]).filter (· != 0)

/-- The pair of R122's example: two moves that exchange two registers. -/
def shortExchange (a b : ShortOp) : Bool :=
  a.sop == 0 && b.sop == 0 && shortSub a == 0 && shortSub b == 0 && shortRa a == shortRb b && shortRb a == shortRa b && shortRa a != shortRa b

/-- A pair that R121 makes illegal. The exchange that R122 names is legal, though R121's first condition would hold of it (assumption 37, DEDUCED: the rules differ). -/
def illegalPair (a b : ShortOp) : Bool :=
  !shortExchange a b && ((shortReads b).any (shortWrites a).contains || (shortWrites b).any (shortWrites a).contains || (shortMem a && shortMem b) || shortBranch a)

/-- The result of an operation of sop 0 or 1. -/
def shortAlu (sop sub : Nat) (a b : Word) : Word :=
  match sop, sub with
  | 0, 0 => b
  | 0, 1 => a + b
  | 0, 2 => a - b
  | 0, 3 => a &&& b
  | 0, 4 => a ||| b
  | 0, 5 => a ^^^ b
  | 0, 6 => a <<< (b.toNat % 32)
  | 0, _ => a >>> (b.toNat % 32)
  | _, 0 => a.sshiftRight (b.toNat % 32)
  | _, 1 => a * b
  | _, 2 => boolWord (slt a b)
  | _, 3 => boolWord (sltu a b)
  | _, 4 => 0 - b
  | _, 5 => ~~~b
  | _, 6 => if slt b a then b else a
  | _, _ => if slt a b then b else a

/-- What a short operation that is not reserved does. -/
def shortEff (k : Core) (o : ShortOp) : Eff :=
  let ra := shortRa o
  let rb := shortRb o
  let sub := shortSub o
  let imm := o.low.toInt
  let a := k.g ra
  let p : Int := (k.g rb).toNat
  let sh := o.low.toNat % 32
  match o.sop.toNat with
  | 0 => result ra (shortAlu 0 sub a (k.g rb))
  | 1 => result ra (shortAlu 1 sub a (k.g rb))
  | 2 => result ra (a + BitVec.ofInt 32 imm)
  | 3 => result ra (BitVec.ofInt 32 imm)
  | 4 => result ra (match o.low.toNat / 32 with
    | 0 => a <<< sh
    | 1 => a >>> sh
    | _ => a.sshiftRight sh)
  | 5 => accEff false false 4 ra k (p + 4 * sub)
  | 6 => accEff true false 4 ra k (p + 4 * sub)
  | 7 => modeEff k 0 0 4 false false ra rb (4 * (sub + 1))
  | 8 => modeEff k 0 0 4 true false ra rb (4 * (sub + 1))
  | 9 => match sub with
    | 0 => accEff false true 1 ra k p
    | 1 => accEff false false 1 ra k p
    | 2 => accEff false true 2 ra k p
    | 3 => accEff false false 2 ra k p
    | 4 => accEff true false 1 ra k p
    | _ => accEff true false 2 ra k p
  | 10 => modeEff k 2 (sub % 4) 4 (decide (4 ≤ sub)) false ra rb 4
  | 11 => if a = 0 then { target := some (wordsFrom k imm) } else {}
  | _ => if a ≠ 0 then { target := some (wordsFrom k imm) } else {}

/-- What a paired word does: the reserved encodings first, then the pairing rules; a legal pair reads all its registers before either operation writes any. -/
def pairEff (k : Core) (a b : ShortOp) : Eff :=
  if shortReserved a || shortReserved b then illegal (encPair a b)
  else if illegalPair a b then { exc := [{ code := 2, xval := some (encPair a b) }] }
  else
    let x := shortEff k a
    let y := shortEff k b
    { exc := x.exc ++ y.exc
      writes := x.writes ++ y.writes
      mem := match x.mem with
        | some m => some m
        | none => y.mem
      target := y.target }

/-- A word with `own` in slot `sl` and `o` in the other. -/
def execPair (c : Nat) (sl : Slot) (own o : ShortOp) (s : State) : Out :=
  execEff c s (fun _ k => match sl with
    | .s0 => pairEff k own o
    | .s1 => pairEff k o own)

def execMovS (c : Nat) (sl : Slot) (ra rb : BitVec 4) (o : ShortOp) (s : State) : Out :=
  execPair c sl (shortSR 0 0 ra rb) o s

def execAddS (c : Nat) (sl : Slot) (ra rb : BitVec 4) (o : ShortOp) (s : State) : Out :=
  execPair c sl (shortSR 0 1 ra rb) o s

def execSubS (c : Nat) (sl : Slot) (ra rb : BitVec 4) (o : ShortOp) (s : State) : Out :=
  execPair c sl (shortSR 0 2 ra rb) o s

def execAndS (c : Nat) (sl : Slot) (ra rb : BitVec 4) (o : ShortOp) (s : State) : Out :=
  execPair c sl (shortSR 0 3 ra rb) o s

def execOrS (c : Nat) (sl : Slot) (ra rb : BitVec 4) (o : ShortOp) (s : State) : Out :=
  execPair c sl (shortSR 0 4 ra rb) o s

def execXorS (c : Nat) (sl : Slot) (ra rb : BitVec 4) (o : ShortOp) (s : State) : Out :=
  execPair c sl (shortSR 0 5 ra rb) o s

def execSllS (c : Nat) (sl : Slot) (ra rb : BitVec 4) (o : ShortOp) (s : State) : Out :=
  execPair c sl (shortSR 0 6 ra rb) o s

def execSrlS (c : Nat) (sl : Slot) (ra rb : BitVec 4) (o : ShortOp) (s : State) : Out :=
  execPair c sl (shortSR 0 7 ra rb) o s

def execSraS (c : Nat) (sl : Slot) (ra rb : BitVec 4) (o : ShortOp) (s : State) : Out :=
  execPair c sl (shortSR 1 0 ra rb) o s

def execMulS (c : Nat) (sl : Slot) (ra rb : BitVec 4) (o : ShortOp) (s : State) : Out :=
  execPair c sl (shortSR 1 1 ra rb) o s

def execSltS (c : Nat) (sl : Slot) (ra rb : BitVec 4) (o : ShortOp) (s : State) : Out :=
  execPair c sl (shortSR 1 2 ra rb) o s

def execSltuS (c : Nat) (sl : Slot) (ra rb : BitVec 4) (o : ShortOp) (s : State) : Out :=
  execPair c sl (shortSR 1 3 ra rb) o s

def execNegS (c : Nat) (sl : Slot) (ra rb : BitVec 4) (o : ShortOp) (s : State) : Out :=
  execPair c sl (shortSR 1 4 ra rb) o s

def execNotS (c : Nat) (sl : Slot) (ra rb : BitVec 4) (o : ShortOp) (s : State) : Out :=
  execPair c sl (shortSR 1 5 ra rb) o s

def execMinS (c : Nat) (sl : Slot) (ra rb : BitVec 4) (o : ShortOp) (s : State) : Out :=
  execPair c sl (shortSR 1 6 ra rb) o s

def execMaxS (c : Nat) (sl : Slot) (ra rb : BitVec 4) (o : ShortOp) (s : State) : Out :=
  execPair c sl (shortSR 1 7 ra rb) o s

def execAddiS (c : Nat) (sl : Slot) (ra : BitVec 4) (imm : BitVec 7) (o : ShortOp) (s : State) : Out :=
  execPair c sl (shortSI 2 ra imm.toNat) o s

def execLiS (c : Nat) (sl : Slot) (ra : BitVec 4) (imm : BitVec 7) (o : ShortOp) (s : State) : Out :=
  execPair c sl (shortSI 3 ra imm.toNat) o s

def execBeqzS (c : Nat) (sl : Slot) (ra : BitVec 4) (imm : BitVec 7) (o : ShortOp) (s : State) : Out :=
  execPair c sl (shortSI 11 ra imm.toNat) o s

def execBnezS (c : Nat) (sl : Slot) (ra : BitVec 4) (imm : BitVec 7) (o : ShortOp) (s : State) : Out :=
  execPair c sl (shortSI 12 ra imm.toNat) o s

def execSlliS (c : Nat) (sl : Slot) (ra : BitVec 4) (sh : BitVec 5) (o : ShortOp) (s : State) : Out :=
  execPair c sl (shortSI 4 ra (0 + sh.toNat)) o s

def execSrliS (c : Nat) (sl : Slot) (ra : BitVec 4) (sh : BitVec 5) (o : ShortOp) (s : State) : Out :=
  execPair c sl (shortSI 4 ra (32 + sh.toNat)) o s

def execSraiS (c : Nat) (sl : Slot) (ra : BitVec 4) (sh : BitVec 5) (o : ShortOp) (s : State) : Out :=
  execPair c sl (shortSI 4 ra (64 + sh.toNat)) o s

def execLwS (c : Nat) (sl : Slot) (ra rb : BitVec 4) (sub : BitVec 3) (o : ShortOp) (s : State) : Out :=
  execPair c sl (shortSR 5 sub.toNat ra rb) o s

def execSwS (c : Nat) (sl : Slot) (ra rb : BitVec 4) (sub : BitVec 3) (o : ShortOp) (s : State) : Out :=
  execPair c sl (shortSR 6 sub.toNat ra rb) o s

def execLwpS (c : Nat) (sl : Slot) (ra rb : BitVec 4) (sub : BitVec 3) (o : ShortOp) (s : State) : Out :=
  execPair c sl (shortSR 7 sub.toNat ra rb) o s

def execSwpS (c : Nat) (sl : Slot) (ra rb : BitVec 4) (sub : BitVec 3) (o : ShortOp) (s : State) : Out :=
  execPair c sl (shortSR 8 sub.toNat ra rb) o s

def execLbS (c : Nat) (sl : Slot) (ra rb : BitVec 4) (o : ShortOp) (s : State) : Out :=
  execPair c sl (shortSR 9 0 ra rb) o s

def execLbuS (c : Nat) (sl : Slot) (ra rb : BitVec 4) (o : ShortOp) (s : State) : Out :=
  execPair c sl (shortSR 9 1 ra rb) o s

def execLhS (c : Nat) (sl : Slot) (ra rb : BitVec 4) (o : ShortOp) (s : State) : Out :=
  execPair c sl (shortSR 9 2 ra rb) o s

def execLhuS (c : Nat) (sl : Slot) (ra rb : BitVec 4) (o : ShortOp) (s : State) : Out :=
  execPair c sl (shortSR 9 3 ra rb) o s

def execSbS (c : Nat) (sl : Slot) (ra rb : BitVec 4) (o : ShortOp) (s : State) : Out :=
  execPair c sl (shortSR 9 4 ra rb) o s

def execShS (c : Nat) (sl : Slot) (ra rb : BitVec 4) (o : ShortOp) (s : State) : Out :=
  execPair c sl (shortSR 9 5 ra rb) o s

def execLwmS (c : Nat) (sl : Slot) (ra rb : BitVec 4) (m : BitVec 2) (o : ShortOp) (s : State) : Out :=
  execPair c sl (shortSR 10 (0 + m.toNat) ra rb) o s

def execSwmS (c : Nat) (sl : Slot) (ra rb : BitVec 4) (m : BitVec 2) (o : ShortOp) (s : State) : Out :=
  execPair c sl (shortSR 10 (4 + m.toNat) ra rb) o s

end Sys2Proof.Machine
end

