-- ==== Sys2Proof/Machine/Dispatch.lean ====
section
/-! DEFINITION. The dispatcher: one arm for each command, a call of its meaning. -/

namespace Sys2Proof.Machine

open Sys2Proof

def exec (i : Instr) (s : State) : Host.Outcome State Fault Refusal :=
  match i with
  | .registerWrite a r high v => Sys2Proof.Machine.execRegisterWrite a r high v s
  | .misalignedRegisterAccess a write => Sys2Proof.Machine.execMisalignedRegisterAccess a write s
  | .reg64LowWordRead a r => Sys2Proof.Machine.execReg64LowWordRead a r s
  | .keepWrite a word v => Sys2Proof.Machine.execKeepWrite a word v s
  | .keepPersist word => Sys2Proof.Machine.execKeepPersist word s
  | .powerAverageInterval average others => Sys2Proof.Machine.execPowerAverageInterval average others s
  | .perstNAssert ns => Sys2Proof.Machine.execPerstNAssert ns s
  | .perstNDeassert => Sys2Proof.Machine.execPerstNDeassert s
  | .hostHotReset => Sys2Proof.Machine.execHostHotReset s
  | .hostLinkDown => Sys2Proof.Machine.execHostLinkDown s
  | .secondaryBusReset sub => Sys2Proof.Machine.execSecondaryBusReset sub s
  | .functionLevelReset f => Sys2Proof.Machine.execFunctionLevelReset f s
  | .flrComplete f => Sys2Proof.Machine.execFlrComplete f s
  | .busMasterEnableClear f => Sys2Proof.Machine.execBusMasterEnableClear f s
  | .busMasterEnableSet f => Sys2Proof.Machine.execBusMasterEnableSet f s
  | .powerStateChange f state => Sys2Proof.Machine.execPowerStateChange f state s
  | .configRequest f w => Sys2Proof.Machine.execConfigRequest f w s
  | .completionTimeout l tag => Sys2Proof.Machine.execCompletionTimeout l tag s
  | .readCompletionReceived l tag st last data => Sys2Proof.Machine.execReadCompletionReceived l tag st last data s
  | .lateCompletion l tag => Sys2Proof.Machine.execLateCompletion l tag s
  | .tagQuarantineExpiry l tag => Sys2Proof.Machine.execTagQuarantineExpiry l tag s
  | .poisonedTlpReceived l what => Sys2Proof.Machine.execPoisonedTlpReceived l what s
  | .apertureRequest sub addr q => Sys2Proof.Machine.execApertureRequest sub addr q s
  | .ownedDeviceHostRequest sub addr q => Sys2Proof.Machine.execOwnedDeviceHostRequest sub addr q s
  | .rootPortLinkDown sub => Sys2Proof.Machine.execRootPortLinkDown sub s
  | .devicePresent sub speed width flit => Sys2Proof.Machine.execDevicePresent sub speed width flit s
  | .linkLaneFault l lane => Sys2Proof.Machine.execLinkLaneFault l lane s
  | .ftSourceWrite a v => Sys2Proof.Machine.execFtSourceWrite a v s
  | .ptpSyncMessage offset => Sys2Proof.Machine.execPtpSyncMessage offset s
  | .ppsInEdge => Sys2Proof.Machine.execPpsInEdge s
  | .ftSyncLoss => Sys2Proof.Machine.execFtSyncLoss s
  | .ftSlewComplete => Sys2Proof.Machine.execFtSlewComplete s
  | .ppsOutSecond => Sys2Proof.Machine.execPpsOutSecond s
  | .ftSetSeconds c seconds => Sys2Proof.Machine.execFtSetSeconds c seconds s
  | .ftSetSecondsTimeout => Sys2Proof.Machine.execFtSetSecondsTimeout s
  | .steepDoorbell origin domain v => Sys2Proof.Machine.execSteepDoorbell origin domain v s
  | .steepDoorbellForward domain v => Sys2Proof.Machine.execSteepDoorbellForward domain v s
  | .steepBoundary domain count tb flag => Sys2Proof.Machine.execSteepBoundary domain count tb flag s
  | .steepCountSet c domain count => Sys2Proof.Machine.execSteepCountSet c domain count s
  | .tcmpCtlWrite a die idx v => Sys2Proof.Machine.execTcmpCtlWrite a die idx v s
  | .comparatorFire die idx => Sys2Proof.Machine.execComparatorFire die idx s
  | .comparatorAlloc c die count => Sys2Proof.Machine.execComparatorAlloc c die count s
  | .comparatorFree c die idx => Sys2Proof.Machine.execComparatorFree c die idx s
  | .recoveryStopTime domain => Sys2Proof.Machine.execRecoveryStopTime domain s
  | .recoveryStopKernelAbort domain => Sys2Proof.Machine.execRecoveryStopKernelAbort domain s
  | .debugFreezeStart a => Sys2Proof.Machine.execDebugFreezeStart a s
  | .debugFreezeEnd a => Sys2Proof.Machine.execDebugFreezeEnd a s
  | .eccScrubRead addr res => Sys2Proof.Machine.execEccScrubRead addr res s
  | .tnsReachWrite core n v => Sys2Proof.Machine.execTnsReachWrite core n v s
  | .routeHopTimeout link who channel => Sys2Proof.Machine.execRouteHopTimeout link who channel s
  | .tnsDmaSubmit core v => Sys2Proof.Machine.execTnsDmaSubmit core v s
  | .dmaCopy cluster channel => Sys2Proof.Machine.execDmaCopy cluster channel s
  | .dmaFill cluster channel => Sys2Proof.Machine.execDmaFill cluster channel s
  | .dmaCopyConvert cluster channel => Sys2Proof.Machine.execDmaCopyConvert cluster channel s
  | .dmaTransferComplete cluster channel => Sys2Proof.Machine.execDmaTransferComplete cluster channel s
  | .coreFaultDetected core cause => Sys2Proof.Machine.execCoreFaultDetected core cause s
  | .coreRemapRestart core => Sys2Proof.Machine.execCoreRemapRestart core s
  | .coreRemapAtKernelEnd core => Sys2Proof.Machine.execCoreRemapAtKernelEnd core s
  | .spareSelfTest cluster pass => Sys2Proof.Machine.execSpareSelfTest cluster pass s
  | .tnsMeSubmit a core => Sys2Proof.Machine.execTnsMeSubmit a core s
  | .tnsMePop a core => Sys2Proof.Machine.execTnsMePop a core s
  | .meTileOp core => Sys2Proof.Machine.execMeTileOp core s
  | .laneFma core => Sys2Proof.Machine.execLaneFma core s
  | .laneAxpby core => Sys2Proof.Machine.execLaneAxpby core s
  | .laneScaleAdd core => Sys2Proof.Machine.execLaneScaleAdd core s
  | .laneMul core => Sys2Proof.Machine.execLaneMul core s
  | .laneMin core => Sys2Proof.Machine.execLaneMin core s
  | .laneMax core => Sys2Proof.Machine.execLaneMax core s
  | .laneAbs core => Sys2Proof.Machine.execLaneAbs core s
  | .laneConvert core => Sys2Proof.Machine.execLaneConvert core s
  | .laneSqrt core => Sys2Proof.Machine.execLaneSqrt core s
  | .laneRsqrt core => Sys2Proof.Machine.execLaneRsqrt core s
  | .laneRecip core => Sys2Proof.Machine.execLaneRecip core s
  | .laneExp core => Sys2Proof.Machine.execLaneExp core s
  | .laneLog core => Sys2Proof.Machine.execLaneLog core s
  | .laneSum core => Sys2Proof.Machine.execLaneSum core s
  | .laneSumsq core => Sys2Proof.Machine.execLaneSumsq core s
  | .laneRmax core => Sys2Proof.Machine.execLaneRmax core s
  | .laneArgmax core => Sys2Proof.Machine.execLaneArgmax core s
  | .optAdamw core => Sys2Proof.Machine.execOptAdamw core s
  | .optSgdm core => Sys2Proof.Machine.execOptSgdm core s
  | .optLion core => Sys2Proof.Machine.execOptLion core s
  | .meCompletionPosted core => Sys2Proof.Machine.execMeCompletionPosted core s
  | .meDescriptorTimeout core => Sys2Proof.Machine.execMeDescriptorTimeout core s
  | .srSeedLoad core high => Sys2Proof.Machine.execSrSeedLoad core high s
  | .addi c rd rs1 imm => Sys2Proof.Machine.execAddi c rd rs1 imm s
  | .andi c rd rs1 imm => Sys2Proof.Machine.execAndi c rd rs1 imm s
  | .ori c rd rs1 imm => Sys2Proof.Machine.execOri c rd rs1 imm s
  | .xori c rd rs1 imm => Sys2Proof.Machine.execXori c rd rs1 imm s
  | .slti c rd rs1 imm => Sys2Proof.Machine.execSlti c rd rs1 imm s
  | .sltiu c rd rs1 imm => Sys2Proof.Machine.execSltiu c rd rs1 imm s
  | .slli c rd rs1 zero sh => Sys2Proof.Machine.execSlli c rd rs1 zero sh s
  | .srli c rd rs1 zero sh => Sys2Proof.Machine.execSrli c rd rs1 zero sh s
  | .srai c rd rs1 zero sh => Sys2Proof.Machine.execSrai c rd rs1 zero sh s
  | .lui c rd imm => Sys2Proof.Machine.execLui c rd imm s
  | .auipc c rd imm => Sys2Proof.Machine.execAuipc c rd imm s
  | .lb c rd rs1 imm => Sys2Proof.Machine.execLb c rd rs1 imm s
  | .lbu c rd rs1 imm => Sys2Proof.Machine.execLbu c rd rs1 imm s
  | .lh c rd rs1 imm => Sys2Proof.Machine.execLh c rd rs1 imm s
  | .lhu c rd rs1 imm => Sys2Proof.Machine.execLhu c rd rs1 imm s
  | .lw c rd rs1 imm => Sys2Proof.Machine.execLw c rd rs1 imm s
  | .sb c rs2 rs1 imm => Sys2Proof.Machine.execSb c rs2 rs1 imm s
  | .sh c rs2 rs1 imm => Sys2Proof.Machine.execSh c rs2 rs1 imm s
  | .sw c rs2 rs1 imm => Sys2Proof.Machine.execSw c rs2 rs1 imm s
  | .memxPostincReg c rd rs1 rs2 f => Sys2Proof.Machine.execMemxPostincReg c rd rs1 rs2 f s
  | .memxPostincImm c rd rs1 imm f => Sys2Proof.Machine.execMemxPostincImm c rd rs1 imm f s
  | .memxModulo c rd rs1 rs2 f => Sys2Proof.Machine.execMemxModulo c rd rs1 rs2 f s
  | .memxBitrev c rd rs1 rs2 f => Sys2Proof.Machine.execMemxBitrev c rd rs1 rs2 f s
  | .beq c rs1 rs2 off => Sys2Proof.Machine.execBeq c rs1 rs2 off s
  | .bne c rs1 rs2 off => Sys2Proof.Machine.execBne c rs1 rs2 off s
  | .blt c rs1 rs2 off => Sys2Proof.Machine.execBlt c rs1 rs2 off s
  | .bge c rs1 rs2 off => Sys2Proof.Machine.execBge c rs1 rs2 off s
  | .bltu c rs1 rs2 off => Sys2Proof.Machine.execBltu c rs1 rs2 off s
  | .bgeu c rs1 rs2 off => Sys2Proof.Machine.execBgeu c rs1 rs2 off s
  | .j c off => Sys2Proof.Machine.execJ c off s
  | .call c off => Sys2Proof.Machine.execCall c off s
  | .jr c rd rs1 rs2 => Sys2Proof.Machine.execJr c rd rs1 rs2 s
  | .callr c rd rs1 rs2 => Sys2Proof.Machine.execCallr c rd rs1 rs2 s
  | .ret c rd rs1 rs2 => Sys2Proof.Machine.execRet c rd rs1 rs2 s
  | .eret c rd rs1 rs2 => Sys2Proof.Machine.execEret c rd rs1 rs2 s
  | .lrW c rd rs1 rs2 => Sys2Proof.Machine.execLrW c rd rs1 rs2 s
  | .scW c rd rs1 rs2 => Sys2Proof.Machine.execScW c rd rs1 rs2 s
  | .tasB c rd rs1 rs2 link => Sys2Proof.Machine.execTasB c rd rs1 rs2 link s
  | .fence c => Sys2Proof.Machine.execFence c s
  | .fenceI c => Sys2Proof.Machine.execFenceI c s
  | .ecall c => Sys2Proof.Machine.execEcall c s
  | .ebreak c => Sys2Proof.Machine.execEbreak c s
  | .waite c rd rs1 => Sys2Proof.Machine.execWaite c rd rs1 s
  | .waiteWake c => Sys2Proof.Machine.execWaiteWake c s
  | .rspush c rs1 => Sys2Proof.Machine.execRspush c rs1 s
  | .rspop c rd => Sys2Proof.Machine.execRspop c rd s
  | .csrrw c rd rs1 imm => Sys2Proof.Machine.execCsrrw c rd rs1 imm s
  | .csrrs c rd rs1 imm => Sys2Proof.Machine.execCsrrs c rd rs1 imm s
  | .csrrc c rd rs1 imm => Sys2Proof.Machine.execCsrrc c rd rs1 imm s
  | .add c rd rs1 rs2 => Sys2Proof.Machine.execAdd c rd rs1 rs2 s
  | .sub c rd rs1 rs2 => Sys2Proof.Machine.execSub c rd rs1 rs2 s
  | .and c rd rs1 rs2 => Sys2Proof.Machine.execAnd c rd rs1 rs2 s
  | .or c rd rs1 rs2 => Sys2Proof.Machine.execOr c rd rs1 rs2 s
  | .xor c rd rs1 rs2 => Sys2Proof.Machine.execXor c rd rs1 rs2 s
  | .sll c rd rs1 rs2 => Sys2Proof.Machine.execSll c rd rs1 rs2 s
  | .srl c rd rs1 rs2 => Sys2Proof.Machine.execSrl c rd rs1 rs2 s
  | .sra c rd rs1 rs2 => Sys2Proof.Machine.execSra c rd rs1 rs2 s
  | .slt c rd rs1 rs2 => Sys2Proof.Machine.execSlt c rd rs1 rs2 s
  | .sltu c rd rs1 rs2 => Sys2Proof.Machine.execSltu c rd rs1 rs2 s
  | .min c rd rs1 rs2 => Sys2Proof.Machine.execMin c rd rs1 rs2 s
  | .max c rd rs1 rs2 => Sys2Proof.Machine.execMax c rd rs1 rs2 s
  | .minu c rd rs1 rs2 => Sys2Proof.Machine.execMinu c rd rs1 rs2 s
  | .maxu c rd rs1 rs2 => Sys2Proof.Machine.execMaxu c rd rs1 rs2 s
  | .mul c rd rs1 rs2 => Sys2Proof.Machine.execMul c rd rs1 rs2 s
  | .mulh c rd rs1 rs2 => Sys2Proof.Machine.execMulh c rd rs1 rs2 s
  | .mulhu c rd rs1 rs2 => Sys2Proof.Machine.execMulhu c rd rs1 rs2 s
  | .mulhsu c rd rs1 rs2 => Sys2Proof.Machine.execMulhsu c rd rs1 rs2 s
  | .div c rd rs1 rs2 => Sys2Proof.Machine.execDiv c rd rs1 rs2 s
  | .divu c rd rs1 rs2 => Sys2Proof.Machine.execDivu c rd rs1 rs2 s
  | .rem c rd rs1 rs2 => Sys2Proof.Machine.execRem c rd rs1 rs2 s
  | .remu c rd rs1 rs2 => Sys2Proof.Machine.execRemu c rd rs1 rs2 s
  | .clz c rd rs1 rs2 => Sys2Proof.Machine.execClz c rd rs1 rs2 s
  | .ctz c rd rs1 rs2 => Sys2Proof.Machine.execCtz c rd rs1 rs2 s
  | .popc c rd rs1 rs2 => Sys2Proof.Machine.execPopc c rd rs1 rs2 s
  | .brev c rd rs1 rs2 => Sys2Proof.Machine.execBrev c rd rs1 rs2 s
  | .bswap c rd rs1 rs2 => Sys2Proof.Machine.execBswap c rd rs1 rs2 s
  | .movS c sl ra rb o => Sys2Proof.Machine.execMovS c sl ra rb o s
  | .addS c sl ra rb o => Sys2Proof.Machine.execAddS c sl ra rb o s
  | .subS c sl ra rb o => Sys2Proof.Machine.execSubS c sl ra rb o s
  | .andS c sl ra rb o => Sys2Proof.Machine.execAndS c sl ra rb o s
  | .orS c sl ra rb o => Sys2Proof.Machine.execOrS c sl ra rb o s
  | .xorS c sl ra rb o => Sys2Proof.Machine.execXorS c sl ra rb o s
  | .sllS c sl ra rb o => Sys2Proof.Machine.execSllS c sl ra rb o s
  | .srlS c sl ra rb o => Sys2Proof.Machine.execSrlS c sl ra rb o s
  | .sraS c sl ra rb o => Sys2Proof.Machine.execSraS c sl ra rb o s
  | .mulS c sl ra rb o => Sys2Proof.Machine.execMulS c sl ra rb o s
  | .sltS c sl ra rb o => Sys2Proof.Machine.execSltS c sl ra rb o s
  | .sltuS c sl ra rb o => Sys2Proof.Machine.execSltuS c sl ra rb o s
  | .negS c sl ra rb o => Sys2Proof.Machine.execNegS c sl ra rb o s
  | .notS c sl ra rb o => Sys2Proof.Machine.execNotS c sl ra rb o s
  | .minS c sl ra rb o => Sys2Proof.Machine.execMinS c sl ra rb o s
  | .maxS c sl ra rb o => Sys2Proof.Machine.execMaxS c sl ra rb o s
  | .addiS c sl ra imm o => Sys2Proof.Machine.execAddiS c sl ra imm o s
  | .liS c sl ra imm o => Sys2Proof.Machine.execLiS c sl ra imm o s
  | .slliS c sl ra sh o => Sys2Proof.Machine.execSlliS c sl ra sh o s
  | .srliS c sl ra sh o => Sys2Proof.Machine.execSrliS c sl ra sh o s
  | .sraiS c sl ra sh o => Sys2Proof.Machine.execSraiS c sl ra sh o s
  | .lwS c sl ra rb sub o => Sys2Proof.Machine.execLwS c sl ra rb sub o s
  | .swS c sl ra rb sub o => Sys2Proof.Machine.execSwS c sl ra rb sub o s
  | .lwpS c sl ra rb sub o => Sys2Proof.Machine.execLwpS c sl ra rb sub o s
  | .swpS c sl ra rb sub o => Sys2Proof.Machine.execSwpS c sl ra rb sub o s
  | .lbS c sl ra rb o => Sys2Proof.Machine.execLbS c sl ra rb o s
  | .lbuS c sl ra rb o => Sys2Proof.Machine.execLbuS c sl ra rb o s
  | .lhS c sl ra rb o => Sys2Proof.Machine.execLhS c sl ra rb o s
  | .lhuS c sl ra rb o => Sys2Proof.Machine.execLhuS c sl ra rb o s
  | .sbS c sl ra rb o => Sys2Proof.Machine.execSbS c sl ra rb o s
  | .shS c sl ra rb o => Sys2Proof.Machine.execShS c sl ra rb o s
  | .lwmS c sl ra rb m o => Sys2Proof.Machine.execLwmS c sl ra rb m o s
  | .swmS c sl ra rb m o => Sys2Proof.Machine.execSwmS c sl ra rb m o s
  | .beqzS c sl ra imm o => Sys2Proof.Machine.execBeqzS c sl ra imm o s
  | .bnezS c sl ra imm o => Sys2Proof.Machine.execBnezS c sl ra imm o s
  | .reservationTimeout c => Sys2Proof.Machine.execReservationTimeout c s
  | .interruptTake c => Sys2Proof.Machine.execInterruptTake c s
  | .kernelEndStore c code => Sys2Proof.Machine.execKernelEndStore c code s
  | .tidyTraceStore c v => Sys2Proof.Machine.execTidyTraceStore c v s
  | .partitionCreate c q => Sys2Proof.Machine.execPartitionCreate c q s
  | .partitionDestroy c handle => Sys2Proof.Machine.execPartitionDestroy c handle s
  | .workRingTailDoorbell slice handle ring v => Sys2Proof.Machine.execWorkRingTailDoorbell slice handle ring v s
  | .workRingHeadDoorbell slice handle ring v => Sys2Proof.Machine.execWorkRingHeadDoorbell slice handle ring v s
  | .dispatchDescriptor part ring => Sys2Proof.Machine.execDispatchDescriptor part ring s
  | .workKernel id => Sys2Proof.Machine.execWorkKernel id s
  | .workDma id => Sys2Proof.Machine.execWorkDma id s
  | .workConvert id => Sys2Proof.Machine.execWorkConvert id s
  | .workReside id => Sys2Proof.Machine.execWorkReside id s
  | .workRelease id => Sys2Proof.Machine.execWorkRelease id s
  | .workSample id => Sys2Proof.Machine.execWorkSample id s
  | .workVerify id => Sys2Proof.Machine.execWorkVerify id s
  | .workMarker id => Sys2Proof.Machine.execWorkMarker id s
  | .workCompletionWrite id => Sys2Proof.Machine.execWorkCompletionWrite id s
  | .kernelComplete id => Sys2Proof.Machine.execKernelComplete id s
  | .kernelDeadline id => Sys2Proof.Machine.execKernelDeadline id s
  | .siltLineUncorrectable die line => Sys2Proof.Machine.execSiltLineUncorrectable die line s
  | .siltLineRepaired die line => Sys2Proof.Machine.execSiltLineRepaired die line s
  | .domainCreate c q => Sys2Proof.Machine.execDomainCreate c q s
  | .domainDestroy c domain => Sys2Proof.Machine.execDomainDestroy c domain s
  | .regionAdd c q => Sys2Proof.Machine.execRegionAdd c q s
  | .regionRemove c domain region => Sys2Proof.Machine.execRegionRemove c domain region s
  | .layerAdd c domain q => Sys2Proof.Machine.execLayerAdd c domain q s
  | .layerRemove c domain layer => Sys2Proof.Machine.execLayerRemove c domain layer s
  | .deepTargetSet c domain nsid offset => Sys2Proof.Machine.execDeepTargetSet c domain nsid offset s
  | .evictMailbox c domain index => Sys2Proof.Machine.execEvictMailbox c domain index s
  | .broadcast c domain source addr len => Sys2Proof.Machine.execBroadcast c domain source addr len s
  | .domainArm a domain v => Sys2Proof.Machine.execDomainArm a domain v s
  | .domainDisarm a domain v => Sys2Proof.Machine.execDomainDisarm a domain v s
  | .domainLrWrite a domain v => Sys2Proof.Machine.execDomainLrWrite a domain v s
  | .domainGscaleWrite a domain v => Sys2Proof.Machine.execDomainGscaleWrite a domain v s
  | .protectedWrite a offset data => Sys2Proof.Machine.execProtectedWrite a offset data s
  | .pageDoorbell a domain region page => Sys2Proof.Machine.execPageDoorbell a domain region page s
  | .pageCopyComplete domain region => Sys2Proof.Machine.execPageCopyComplete domain region s
  | .pauseDoorbell a domain v => Sys2Proof.Machine.execPauseDoorbell a domain v s
  | .pauseCopyComplete domain => Sys2Proof.Machine.execPauseCopyComplete domain s
  | .snapshotDeclare domain => Sys2Proof.Machine.execSnapshotDeclare domain s
  | .boundaryPass domain => Sys2Proof.Machine.execBoundaryPass domain s
  | .snapshotAbandon domain => Sys2Proof.Machine.execSnapshotAbandon domain s
  | .intakeDoorbell a domain contributor q => Sys2Proof.Machine.execIntakeDoorbell a domain contributor q s
  | .layerGradientCombine domain layer => Sys2Proof.Machine.execLayerGradientCombine domain layer s
  | .collectiveChunkReceive domain layer gather offset final data => Sys2Proof.Machine.execCollectiveChunkReceive domain layer gather offset final data s
  | .collTimeout domain layer => Sys2Proof.Machine.execCollTimeout domain layer s
  | .layerUpdate domain layer => Sys2Proof.Machine.execLayerUpdate domain layer s
  | .pushHighPlane domain layer contributor => Sys2Proof.Machine.execPushHighPlane domain layer contributor s
  | .pushFailed domain layer contributor => Sys2Proof.Machine.execPushFailed domain layer contributor s
  | .copierSendGrain domain => Sys2Proof.Machine.execCopierSendGrain domain s
  | .grain m => Sys2Proof.Machine.execGrain m s
  | .grainAckBatch domain => Sys2Proof.Machine.execGrainAckBatch domain s
  | .grainAck m => Sys2Proof.Machine.execGrainAck m s
  | .grainNak m => Sys2Proof.Machine.execGrainNak m s
  | .sealMsg m => Sys2Proof.Machine.execSealMsg m s
  | .held m => Sys2Proof.Machine.execHeld m s
  | .abandon m => Sys2Proof.Machine.execAbandon m s
  | .decideMsg m => Sys2Proof.Machine.execDecideMsg m s
  | .decideAck m => Sys2Proof.Machine.execDecideAck m s
  | .decideResend domain => Sys2Proof.Machine.execDecideResend domain s
  | .commitDeadline domain => Sys2Proof.Machine.execCommitDeadline domain s
  | .commit m => Sys2Proof.Machine.execCommit m s
  | .abortMsg m => Sys2Proof.Machine.execAbortMsg m s
  | .repairReq m => Sys2Proof.Machine.execRepairReq m s
  | .buddyCrcScrub domain region grain => Sys2Proof.Machine.execBuddyCrcScrub domain region grain s
  | .deepWriteDone domain ok => Sys2Proof.Machine.execDeepWriteDone domain ok s
  | .deepDone m => Sys2Proof.Machine.execDeepDone m s
  | .deepTimeout domain => Sys2Proof.Machine.execDeepTimeout domain s
  | .deepCancel m => Sys2Proof.Machine.execDeepCancel m s
  | .relayFallback domain hop => Sys2Proof.Machine.execRelayFallback domain hop s
  | .heartbeat m => Sys2Proof.Machine.execHeartbeat m s
  | .spareHeartbeatRelay domain => Sys2Proof.Machine.execSpareHeartbeatRelay domain s
  | .silenceSuspect domain index => Sys2Proof.Machine.execSilenceSuspect domain index s
  | .silenceSilent domain index => Sys2Proof.Machine.execSilenceSilent domain index s
  | .fenceTimeout domain => Sys2Proof.Machine.execFenceTimeout domain s
  | .suspect m => Sys2Proof.Machine.execSuspect m s
  | .silent m => Sys2Proof.Machine.execSilent m s
  | .evict m => Sys2Proof.Machine.execEvict m s
  | .prepare m t => Sys2Proof.Machine.execPrepare m t s
  | .prepareExpiry domain => Sys2Proof.Machine.execPrepareExpiry domain s
  | .stop m => Sys2Proof.Machine.execStop m s
  | .stopped m => Sys2Proof.Machine.execStopped m s
  | .rollback m t => Sys2Proof.Machine.execRollback m t s
  | .restoreReq m => Sys2Proof.Machine.execRestoreReq m s
  | .restoreGrain m => Sys2Proof.Machine.execRestoreGrain m s
  | .restoreMissing m => Sys2Proof.Machine.execRestoreMissing m s
  | .ready m => Sys2Proof.Machine.execReady m s
  | .resume m => Sys2Proof.Machine.execResume m s
  | .resumeTime domain => Sys2Proof.Machine.execResumeTime domain s
  | .recoveryFail m => Sys2Proof.Machine.execRecoveryFail m s
  | .coordinatorLostTimeout domain => Sys2Proof.Machine.execCoordinatorLostTimeout domain s
  | .spareWaitTimeout domain => Sys2Proof.Machine.execSpareWaitTimeout domain s
  | .recoveryLimitTimeout domain => Sys2Proof.Machine.execRecoveryLimitTimeout domain s
  | .watchdogFire service cause pc spareCore => Sys2Proof.Machine.execWatchdogFire service cause pc spareCore s
  | .serviceRestartComplete service => Sys2Proof.Machine.execServiceRestartComplete service s
  | .ethPortDown port => Sys2Proof.Machine.execEthPortDown port s
  | .ddrUncorrectable offset => Sys2Proof.Machine.execDdrUncorrectable offset s
  | .cipherShadowMismatch engine => Sys2Proof.Machine.execCipherShadowMismatch engine s
  | .rosterGetReply svc chunk total data => Sys2Proof.Machine.execRosterGetReply svc chunk total data s
  | .rosterChunkTimeout chunk => Sys2Proof.Machine.execRosterChunkTimeout chunk s
  | .rosterRetryTimer => Sys2Proof.Machine.execRosterRetryTimer s
  | .rosterRefetch => Sys2Proof.Machine.execRosterRefetch s
  | .bringupPhaseDeadline => Sys2Proof.Machine.execBringupPhaseDeadline s
  | .checkin m => Sys2Proof.Machine.execCheckin m s
  | .rosterFinalDeadline => Sys2Proof.Machine.execRosterFinalDeadline s
  | .rosterFinalMissing => Sys2Proof.Machine.execRosterFinalMissing s
  | .rosterFinal m => Sys2Proof.Machine.execRosterFinal m s
  | .hello m => Sys2Proof.Machine.execHello m s
  | .helloAck m => Sys2Proof.Machine.execHelloAck m s
  | .helloTimeout index => Sys2Proof.Machine.execHelloTimeout index s
  | .noAnswer m => Sys2Proof.Machine.execNoAnswer m s
  | .barrier m => Sys2Proof.Machine.execBarrier m s
  | .barrierChildDeadline child => Sys2Proof.Machine.execBarrierChildDeadline child s
  | .bringupTimeout => Sys2Proof.Machine.execBringupTimeout s
  | .jobReady m => Sys2Proof.Machine.execJobReady m s
  | .jobReadyTime => Sys2Proof.Machine.execJobReadyTime s
  | .bringupFail m => Sys2Proof.Machine.execBringupFail m s
  | .bringupRestart c => Sys2Proof.Machine.execBringupRestart c s
  | .hostWindowMap c q => Sys2Proof.Machine.execHostWindowMap c q s
  | .hostWindowUnmap c array => Sys2Proof.Machine.execHostWindowUnmap c array s
  | .apertureSet c sub base len => Sys2Proof.Machine.execApertureSet c sub base len s
  | .ownedReset c sub => Sys2Proof.Machine.execOwnedReset c sub s
  | .ownedEnumerate c sub => Sys2Proof.Machine.execOwnedEnumerate c sub s
  | .rpCtoSet c port cto => Sys2Proof.Machine.execRpCtoSet c port cto s
  | .sliceCreate c q => Sys2Proof.Machine.execSliceCreate c q s
  | .sliceDestroy c n force => Sys2Proof.Machine.execSliceDestroy c n force s
  | .sliceDestroyComplete n => Sys2Proof.Machine.execSliceDestroyComplete n s
  | .sliceReset c n => Sys2Proof.Machine.execSliceReset c n s
  | .slcReset n v => Sys2Proof.Machine.execSlcReset n v s
  | .sliceResetComplete n => Sys2Proof.Machine.execSliceResetComplete n s
  | .irqEntrySet c q => Sys2Proof.Machine.execIrqEntrySet c q s
  | .vrmtInit c q => Sys2Proof.Machine.execVrmtInit c q s
  | .ownAddressSet c addrs => Sys2Proof.Machine.execOwnAddressSet c addrs s
  | .sliceQueueSet c slice queue => Sys2Proof.Machine.execSliceQueueSet c slice queue s
  | .vrmtCommandDoorbell slice v => Sys2Proof.Machine.execVrmtCommandDoorbell slice v s
  | .cqCreate slice cq ring space log2 irq tag => Sys2Proof.Machine.execCqCreate slice cq ring space log2 irq tag s
  | .cqDestroy slice cq tag => Sys2Proof.Machine.execCqDestroy slice cq tag s
  | .connCreate slice q tag => Sys2Proof.Machine.execConnCreate slice q tag s
  | .connConnect slice q tag => Sys2Proof.Machine.execConnConnect slice q tag s
  | .connDestroy slice cn tag => Sys2Proof.Machine.execConnDestroy slice cn tag s
  | .keyRegister slice space rights tag => Sys2Proof.Machine.execKeyRegister slice space rights tag s
  | .keyRevoke slice key tag => Sys2Proof.Machine.execKeyRevoke slice key tag s
  | .keyDrainLimit key => Sys2Proof.Machine.execKeyDrainLimit key s
  | .keyDead key => Sys2Proof.Machine.execKeyDead key s
  | .vrmtConnDoorbell slice v => Sys2Proof.Machine.execVrmtConnDoorbell slice v s
  | .vrmtCqDoorbell slice v => Sys2Proof.Machine.execVrmtCqDoorbell slice v s
  | .wrWrite cn => Sys2Proof.Machine.execWrWrite cn s
  | .wrWriteImm cn => Sys2Proof.Machine.execWrWriteImm cn s
  | .wrSend cn => Sys2Proof.Machine.execWrSend cn s
  | .wrSendImm cn => Sys2Proof.Machine.execWrSendImm cn s
  | .wrRead cn => Sys2Proof.Machine.execWrRead cn s
  | .vrmtWritePacket p => Sys2Proof.Machine.execVrmtWritePacket p s
  | .vrmtSendPacket p => Sys2Proof.Machine.execVrmtSendPacket p s
  | .vrmtReadReq p => Sys2Proof.Machine.execVrmtReadReq p s
  | .vrmtReadResp p => Sys2Proof.Machine.execVrmtReadResp p s
  | .vrmtAck p => Sys2Proof.Machine.execVrmtAck p s
  | .vrmtNak p => Sys2Proof.Machine.execVrmtNak p s
  | .vrmtMsgAbort p status => Sys2Proof.Machine.execVrmtMsgAbort p status s
  | .ackDelayTimer cn => Sys2Proof.Machine.execAckDelayTimer cn s
  | .retransmitTimeout cn psn => Sys2Proof.Machine.execRetransmitTimeout cn psn s
  | .pathRestore cn path => Sys2Proof.Machine.execPathRestore cn path s
  | .messageIncompleteNak cn msn => Sys2Proof.Machine.execMessageIncompleteNak cn msn s
  | .connPeerTimeout cn => Sys2Proof.Machine.execConnPeerTimeout cn s
  | .rnrRetry cn msn => Sys2Proof.Machine.execRnrRetry cn msn s
  | .ccCutTimer cn => Sys2Proof.Machine.execCcCutTimer cn s
  | .ccIncreaseTimer cn => Sys2Proof.Machine.execCcIncreaseTimer cn s
  | .contextFetchComplete cn ok => Sys2Proof.Machine.execContextFetchComplete cn ok s
  | .frameReceive port bytes phyError fcsOk secured => Sys2Proof.Machine.execFrameReceive port bytes phyError fcsOk secured s
  | .secondPour => Sys2Proof.Machine.execSecondPour s
  | .slowPathFrame => Sys2Proof.Machine.execSlowPathFrame s
  | .ruleWrite idx => Sys2Proof.Machine.execRuleWrite idx s
  | .ruleInvalidate idx => Sys2Proof.Machine.execRuleInvalidate idx s
  | .ruleRead idx => Sys2Proof.Machine.execRuleRead idx s
  | .pktQueueCreate c q => Sys2Proof.Machine.execPktQueueCreate c q s
  | .pktQueueDestroy c tx n => Sys2Proof.Machine.execPktQueueDestroy c tx n s
  | .portRestart c port => Sys2Proof.Machine.execPortRestart c port s
  | .pktRxqDoorbell n head v => Sys2Proof.Machine.execPktRxqDoorbell n head v s
  | .pktTxqDoorbell n head v => Sys2Proof.Machine.execPktTxqDoorbell n head v s
  | .txScheduleStart port => Sys2Proof.Machine.execTxScheduleStart port s
  | .txFrameComplete port => Sys2Proof.Machine.execTxFrameComplete port s
  | .shaperRefill => Sys2Proof.Machine.execShaperRefill s
  | .nvmeSqTailDoorbell ctrl y v => Sys2Proof.Machine.execNvmeSqTailDoorbell ctrl y v s
  | .nvmeCqHeadDoorbell ctrl y v => Sys2Proof.Machine.execNvmeCqHeadDoorbell ctrl y v s
  | .nvmeCcEnable ctrl cc => Sys2Proof.Machine.execNvmeCcEnable ctrl cc s
  | .nvmeCcDisable ctrl cc => Sys2Proof.Machine.execNvmeCcDisable ctrl cc s
  | .nvmeCcShutdown ctrl cc => Sys2Proof.Machine.execNvmeCcShutdown ctrl cc s
  | .nvmeCreateIoSq ctrl cmd => Sys2Proof.Machine.execNvmeCreateIoSq ctrl cmd s
  | .nvmeDeleteIoSq ctrl cmd => Sys2Proof.Machine.execNvmeDeleteIoSq ctrl cmd s
  | .nvmeCreateIoCq ctrl cmd => Sys2Proof.Machine.execNvmeCreateIoCq ctrl cmd s
  | .nvmeDeleteIoCq ctrl cmd => Sys2Proof.Machine.execNvmeDeleteIoCq ctrl cmd s
  | .nvmeGetLogPage ctrl cmd => Sys2Proof.Machine.execNvmeGetLogPage ctrl cmd s
  | .nvmeIdentify ctrl cmd => Sys2Proof.Machine.execNvmeIdentify ctrl cmd s
  | .nvmeAbort ctrl cmd => Sys2Proof.Machine.execNvmeAbort ctrl cmd s
  | .nvmeSetFeatures ctrl cmd => Sys2Proof.Machine.execNvmeSetFeatures ctrl cmd s
  | .nvmeGetFeatures ctrl cmd => Sys2Proof.Machine.execNvmeGetFeatures ctrl cmd s
  | .nvmeAsyncEventRequest ctrl cmd => Sys2Proof.Machine.execNvmeAsyncEventRequest ctrl cmd s
  | .nvmeRead ctrl sq cmd => Sys2Proof.Machine.execNvmeRead ctrl sq cmd s
  | .nvmeWrite ctrl sq cmd => Sys2Proof.Machine.execNvmeWrite ctrl sq cmd s
  | .nvmeWriteZeroes ctrl sq cmd => Sys2Proof.Machine.execNvmeWriteZeroes ctrl sq cmd s
  | .nvmeDatasetManagement ctrl sq cmd => Sys2Proof.Machine.execNvmeDatasetManagement ctrl sq cmd s
  | .nvmeFlush ctrl sq cmd => Sys2Proof.Machine.execNvmeFlush ctrl sq cmd s
  | .journalEntrySealed entry => Sys2Proof.Machine.execJournalEntrySealed entry s
  | .destageComplete entry => Sys2Proof.Machine.execDestageComplete entry s
  | .backingTimeout nsid => Sys2Proof.Machine.execBackingTimeout nsid s
  | .backingRecovered nsid => Sys2Proof.Machine.execBackingRecovered nsid s
  | .journalReplay => Sys2Proof.Machine.execJournalReplay s
  | .nsCreate c q => Sys2Proof.Machine.execNsCreate c q s
  | .nsDestroy c nsid => Sys2Proof.Machine.execNsDestroy c nsid s
  | .nsAttach c nsid ctrl => Sys2Proof.Machine.execNsAttach c nsid ctrl s
  | .nsDetach c nsid ctrl => Sys2Proof.Machine.execNsDetach c nsid ctrl s
  | .targetRegister c entry addr => Sys2Proof.Machine.execTargetRegister c entry addr s
  | .nsExport c nsid peers => Sys2Proof.Machine.execNsExport c nsid peers s
  | .accelCtrlCreate c sub cplAddr cplData qpairs => Sys2Proof.Machine.execAccelCtrlCreate c sub cplAddr cplData qpairs s
  | .islandSelftestComplete r => Sys2Proof.Machine.execIslandSelftestComplete r s
  | .firmwareVerify results bundle => Sys2Proof.Machine.execFirmwareVerify results bundle s
  | .keyAlloc c count => Sys2Proof.Machine.execKeyAlloc c count s
  | .keyGenerate c slot mode limit exportable persistent => Sys2Proof.Machine.execKeyGenerate c slot mode limit exportable persistent s
  | .keyAgree c pub => Sys2Proof.Machine.execKeyAgree c pub s
  | .keyImport c slot mode limit transport blob => Sys2Proof.Machine.execKeyImport c slot mode limit transport blob s
  | .keyExport c slot transport => Sys2Proof.Machine.execKeyExport c slot transport s
  | .keyZeroize c slot => Sys2Proof.Machine.execKeyZeroize c slot s
  | .keyQuery c slot => Sys2Proof.Machine.execKeyQuery c slot s
  | .keyFree c slot count => Sys2Proof.Machine.execKeyFree c slot count s
  | .zeroize a force => Sys2Proof.Machine.execZeroize a force s
  | .lifecycleRetire a => Sys2Proof.Machine.execLifecycleRetire a s
  | .spdmGetVersion => Sys2Proof.Machine.execSpdmGetVersion s
  | .spdmGetCapabilities => Sys2Proof.Machine.execSpdmGetCapabilities s
  | .spdmNegotiateAlgorithms supported => Sys2Proof.Machine.execSpdmNegotiateAlgorithms supported s
  | .spdmGetDigests => Sys2Proof.Machine.execSpdmGetDigests s
  | .spdmGetCertificate slot off len => Sys2Proof.Machine.execSpdmGetCertificate slot off len s
  | .spdmChallenge slot nonce => Sys2Proof.Machine.execSpdmChallenge slot nonce s
  | .spdmGetMeasurements index signed nonce => Sys2Proof.Machine.execSpdmGetMeasurements index signed nonce s
  | .spdmKeyExchange slot pub => Sys2Proof.Machine.execSpdmKeyExchange slot pub s
  | .spdmFinish session ok => Sys2Proof.Machine.execSpdmFinish session ok s
  | .spdmHeartbeat session => Sys2Proof.Machine.execSpdmHeartbeat session s
  | .spdmKeyUpdate session => Sys2Proof.Machine.execSpdmKeyUpdate session s
  | .spdmEndSession session => Sys2Proof.Machine.execSpdmEndSession session s
  | .spdmSetCertificate session slot chain => Sys2Proof.Machine.execSpdmSetCertificate session slot chain s
  | .spdmVendorDefinedRequest session retire force => Sys2Proof.Machine.execSpdmVendorDefinedRequest session retire force s
  | .drbgReseed => Sys2Proof.Machine.execDrbgReseed s
  | .entropyHealthFail => Sys2Proof.Machine.execEntropyHealthFail s
  | .pairKeyExchange peer jobId peerPub ephPub sigOk => Sys2Proof.Machine.execPairKeyExchange peer jobId peerPub ephPub sigOk s
  | .contextRestore serial generation macOk => Sys2Proof.Machine.execContextRestore serial generation macOk s
  | .mbxDoorbell c v opcode seq length flags => Sys2Proof.Machine.execMbxDoorbell c v opcode seq length flags s
  | .mailboxHeldRequest c => Sys2Proof.Machine.execMailboxHeldRequest c s
  | .mbxEvtPop c => Sys2Proof.Machine.execMbxEvtPop c s
  | .negotiate c major minor features => Sys2Proof.Machine.execNegotiate c major minor features s
  | .fwStatus c => Sys2Proof.Machine.execFwStatus c s
  | .fwStageOpen c => Sys2Proof.Machine.execFwStageOpen c s
  | .fwStageWrite c offset length source => Sys2Proof.Machine.execFwStageWrite c offset length source s
  | .fwStageClose c total => Sys2Proof.Machine.execFwStageClose c total s
  | .fwActivate c => Sys2Proof.Machine.execFwActivate c s
  | .fwDisarm c => Sys2Proof.Machine.execFwDisarm c s
  | .fwDiscard c => Sys2Proof.Machine.execFwDiscard c s
  | .logRead c start count buffer => Sys2Proof.Machine.execLogRead c start count buffer s
  | .serviceRestart c service => Sys2Proof.Machine.execServiceRestart c service s
  | .shutdown c => Sys2Proof.Machine.execShutdown c s
  | .deviceRestart c force => Sys2Proof.Machine.execDeviceRestart c force s
  | .eicComplete cluster v => Sys2Proof.Machine.execEicComplete cluster v s
  | .eicSwi cluster v => Sys2Proof.Machine.execEicSwi cluster v s
  | .eicModerationExpiry cluster source => Sys2Proof.Machine.execEicModerationExpiry cluster source s
  | .watcherSource source => Sys2Proof.Machine.execWatcherSource source s
  | .aoTimerReached => Sys2Proof.Machine.execAoTimerReached s
  | .i3cTransfer addr => Sys2Proof.Machine.execI3cTransfer addr s
  | .irqModerationInterval owner entry => Sys2Proof.Machine.execIrqModerationInterval owner entry s
  | .strataRecordWrite => Sys2Proof.Machine.execStrataRecordWrite s
  | .strataLossRecord => Sys2Proof.Machine.execStrataLossRecord s
  | .timeMark => Sys2Proof.Machine.execTimeMark s
  | .sivTrigNow die v => Sys2Proof.Machine.execSivTrigNow die v s
  | .crossTrigger die from_ => Sys2Proof.Machine.execCrossTrigger die from_ s
  | .debugUdpRequest op offset v => Sys2Proof.Machine.execDebugUdpRequest op offset v s
  | .auxPgRise straps => Sys2Proof.Machine.execAuxPgRise straps s
  | .auxPgFall ns => Sys2Proof.Machine.execAuxPgFall ns s
  | .mainPgRise => Sys2Proof.Machine.execMainPgRise s
  | .mainPgFall ns => Sys2Proof.Machine.execMainPgFall ns s
  | .railFault r us => Sys2Proof.Machine.execRailFault r us s
  | .thermalSample hub t0 t1 silt0 silt1 => Sys2Proof.Machine.execThermalSample hub t0 t1 silt0 silt1 s
  | .throttleStep => Sys2Proof.Machine.execThrottleStep s
  | .overtempTimeout => Sys2Proof.Machine.execOvertempTimeout s
  | .brakeNAssert ns => Sys2Proof.Machine.execBrakeNAssert ns s
  | .brakeNDeassert => Sys2Proof.Machine.execBrakeNDeassert s
  | .brakeLong => Sys2Proof.Machine.execBrakeLong s
  | .accPwrEnTimer port => Sys2Proof.Machine.execAccPwrEnTimer port s
  | .perstOutRelease port => Sys2Proof.Machine.execPerstOutRelease port s
  | .clockLost clk => Sys2Proof.Machine.execClockLost clk s
  | .clockStable clk => Sys2Proof.Machine.execClockStable clk s
  | .ethPortUp port => Sys2Proof.Machine.execEthPortUp port s
  | .hostLinkUp speed width flit => Sys2Proof.Machine.execHostLinkUp speed width flit s
  | .bootPhaseComplete => Sys2Proof.Machine.execBootPhaseComplete s
  | .embeddedSwitchForward t addr => Sys2Proof.Machine.execEmbeddedSwitchForward t addr s
  | .hwFatal cause => Sys2Proof.Machine.execHwFatal cause s
  | .ptpAnnounce m => Sys2Proof.Machine.execPtpAnnounce m s
  | .ptpDelayMessage delay => Sys2Proof.Machine.execPtpDelayMessage delay s
  | .tapTckEdge tms tdi => Sys2Proof.Machine.execTapTckEdge tms tdi s
  | .connectionNumberFree cn => Sys2Proof.Machine.execConnectionNumberFree cn s
  | .entropyStartupTestDone pass => Sys2Proof.Machine.execEntropyStartupTestDone pass s
  | .backingReadComplete nsid => Sys2Proof.Machine.execBackingReadComplete nsid s

end Sys2Proof.Machine
end

