-- ==== Sys2Proof/Machine/Tick.lean ====
section
/-! DEFINITION. One nanosecond of local time: what the step does with no command waiting (assumption 2, DESIGN CHOICE). -/

namespace Sys2Proof.Machine

open Sys2Proof

/-- Fabric time and its error bound (R32, R33, R35, R535). -/
def tickFabric (s : State) : State :=
  let k := if s.pwr.clkLost.contains .eth then 50 else 1
  let s := ftTick s
  if s.ft.state = .holdover then s.modFt (fun f => { f with holdAcc := f.holdAcc + k }) else s

/-- `n` core clock cycles of a core: the cycle counter, and the cycles idle in WAITE or with the ME's queue not empty that counters of its cluster count (R116, R487). -/
def tickCore (id n : Nat) (s : State) : State :=
  let c := s.core id
  if n = 0 ∨ (id < 256 ∧ c.run = .gated) then s
  else
    let s := s.setCore id { c with cycles := c.cycles + BitVec.ofNat 64 n }
    if 256 ≤ id then s
    else
      let s := match c.run with
        | .waiting .. => pmcAdd (coreCluster id) 6 n s
        | _ => s
      if c.me.queue.isEmpty then s else pmcAdd (coreCluster id) 4 n s

/-- The cycles that a die's array clock counts in the next nanosecond (R51). -/
def dieCycles (s : State) (die : Nat) : Nat := (s.arr.tenths.get die 0 + arrayClk s) / 10 - s.arr.tenths.get die 0 / 10

/-- A control core's cycles in the next nanosecond, at 1.6 GHz (R147). -/
def ctlCycles (s : State) : Nat := (16 * (s.pwr.localNs + 1)) / 10 - 16 * s.pwr.localNs / 10

/-- The array's clocks and its cycle counters. -/
def tickArray (s : State) : State :=
  let clk := arrayClk s
  let n0 := dieCycles s 0
  let n1 := dieCycles s 1
  let nc := ctlCycles s
  let s := { s with arr := { s.arr with tenths :=
    (s.arr.tenths.set 0 (s.arr.tenths.get 0 0 + clk)).set 1 (s.arr.tenths.get 1 0 + clk) } }
  let s := (List.range 16).foldl (fun s cl => pmcAdd cl 1 (if cl < 8 then n0 else n1) s) s
  let s := (s.cores.unzip.1).foldl (fun s id => tickCore id (if 256 ≤ id then nc else if id < 128 then n0 else n1) s) s
  (List.range 16).foldl (fun s i => if s.cores.has (256 + i) then s else tickCore (256 + i) nc s) s

/-- The aggregation time of Interrupt Coalescing has passed (R384). -/
def tickCoalesce (s : State) : State :=
  s.sto.ctrls.foldl (fun s p => p.2.cqs.foldl (fun s q =>
    if 0 < q.2.acc ∧ q.2.since + p.2.coalesce / 256 % 256 * 100000 ≤ s.pwr.localNs then
      match s.nvme p.1 with
      | some c => cqSignal c q.2.irq (s.setNvme p.1 { c with cqs := c.cqs.set q.1 { q.2 with acc := 0 } })
      | none => s
    else s) s) s

/-- One nanosecond of local time passes. Without main power, and after a thermal trip, no clock of the model runs. -/
def idle (s : State) : State :=
  match s.pwr.state with
  | .on =>
    let s := sieveDrain (tickArray (tickFabric s))
    stoMode (tickCoalesce (s.modPwr (fun p => { p with localNs := p.localNs + 1 })))
  | .hardpan => (tickFabric s).modPwr (fun p => { p with localNs := p.localNs + 1 })
  | _ => s

end Sys2Proof.Machine
end

