-- ==== Sys2Proof/WellFormed.lean ====
section
/-! DEFINITION. Well-formed commands: those that name units the VN700 has (R50, R73, R116, R266, R270, R360). Every other operand is of a width that its type gives, or is
checked by the command's own rules. -/

namespace Sys2Proof

open Sys2Proof.Machine

/-- A tidy core, 0 to 255. -/
def wfTidyCore (c : Nat) : Bool := decide (c < 256)

/-- A tidy core or one of the 16 control cores, 256 to 271. -/
def wfCore (c : Nat) : Bool := decide (c < 272)

/-- A cluster, 0 to 15. -/
def wfCluster (cl : Nat) : Bool := decide (cl < 16)

/-- A channel of a cluster's DMA engine. -/
def wfChannel (cl k : Nat) : Bool := decide (cl < 16) && decide (k < 8)

/-- A source of a cluster's interrupt controller. -/
def wfSource (cl src : Nat) : Bool := decide (cl < 16) && decide (src < 256)

/-- A die: 0 the hub, 1 T0, 2 T1. -/
def wfDie (die : Nat) : Bool := decide (die < 3)

/-- A comparator of a die. -/
def wfComparator (die idx : Nat) : Bool := decide (die < 3) && decide (idx < 64)

/-- A firmware service. -/
def wfService (n : Nat) : Bool := decide (n < 14)

/-- A logical Ethernet port; 32 is the management port. -/
def wfEthPort (n : Nat) : Bool := decide (n < 33)

/-- A root port. -/
def wfRootPort (n : Nat) : Bool := decide (n < 8)

/-- A wide cipher engine. -/
def wfEngine (n : Nat) : Bool := decide (n < 33)

/-- A self-test's result names an engine that exists. -/
def wfSelfTest : SelfTest → Bool
  | .wideEngineFails e => wfEngine e
  | .allPass | .ownUnitFails _ | .pufFails => true

/-- A 4 KiB line of a die's Silt. -/
def wfSiltLine (die line : Nat) : Bool := decide (die < 2) && decide (line < 393216)

/-- The units that a command names exist. -/
def Instr.wf : Instr → Bool
  | .registerWrite _ r .. | .reg64LowWordRead _ r => regExists r
  | .tcmpCtlWrite _ die idx .. | .comparatorFire die idx => wfComparator die idx
  | .tnsReachWrite c .. | .tnsDmaSubmit c .. | .coreFaultDetected c .. | .coreRemapRestart c | .coreRemapAtKernelEnd c | .tnsMeSubmit _ c | .tnsMePop _ c
  | .meTileOp c | .laneFma c | .laneAxpby c | .laneScaleAdd c | .laneMul c | .laneMin c | .laneMax c | .laneAbs c | .laneConvert c | .laneSqrt c
  | .laneRsqrt c | .laneRecip c | .laneExp c | .laneLog c | .laneSum c | .laneSumsq c | .laneRmax c | .laneArgmax c | .optAdamw c | .optSgdm c | .optLion c
  | .meCompletionPosted c | .meDescriptorTimeout c | .srSeedLoad c .. | .kernelEndStore c .. | .tidyTraceStore c .. => wfTidyCore c
  | .dmaCopy cluster channel | .dmaFill cluster channel | .dmaCopyConvert cluster channel | .dmaTransferComplete cluster channel => wfChannel cluster channel
  | .spareSelfTest cluster .. | .eicComplete cluster .. | .eicSwi cluster .. => wfCluster cluster
  | .addi c .. | .andi c .. | .ori c .. | .xori c .. | .slti c .. | .sltiu c .. | .slli c .. | .srli c .. | .srai c .. | .lui c .. | .auipc c .. | .lb c ..
  | .lbu c .. | .lh c .. | .lhu c .. | .lw c .. | .sb c .. | .sh c .. | .sw c .. | .memxPostincReg c .. | .memxPostincImm c .. | .memxModulo c ..
  | .memxBitrev c .. | .beq c .. | .bne c .. | .blt c .. | .bge c .. | .bltu c .. | .bgeu c .. | .j c .. | .call c .. | .jr c .. | .callr c .. | .ret c ..
  | .eret c .. | .lrW c .. | .scW c .. | .tasB c .. | .fence c | .fenceI c | .ecall c | .ebreak c | .waite c .. | .waiteWake c | .rspush c .. | .rspop c ..
  | .csrrw c .. | .csrrs c .. | .csrrc c .. | .add c .. | .sub c .. | .and c .. | .or c .. | .xor c .. | .sll c .. | .srl c .. | .sra c .. | .slt c ..
  | .sltu c .. | .min c .. | .max c .. | .minu c .. | .maxu c .. | .mul c .. | .mulh c .. | .mulhu c .. | .mulhsu c .. | .div c .. | .divu c .. | .rem c ..
  | .remu c .. | .clz c .. | .ctz c .. | .popc c .. | .brev c .. | .bswap c .. | .movS c .. | .addS c .. | .subS c .. | .andS c .. | .orS c .. | .xorS c ..
  | .sllS c .. | .srlS c .. | .sraS c .. | .mulS c .. | .sltS c .. | .sltuS c .. | .negS c .. | .notS c .. | .minS c .. | .maxS c .. | .addiS c ..
  | .liS c .. | .slliS c .. | .srliS c .. | .sraiS c .. | .lwS c .. | .swS c .. | .lwpS c .. | .swpS c .. | .lbS c .. | .lbuS c .. | .lhS c .. | .lhuS c ..
  | .sbS c .. | .shS c .. | .lwmS c .. | .swmS c .. | .beqzS c .. | .bnezS c .. | .reservationTimeout c | .interruptTake c => wfCore c
  | .siltLineUncorrectable die line | .siltLineRepaired die line => wfSiltLine die line
  | .watchdogFire service .. | .serviceRestartComplete service => wfService service
  | .ethPortDown port | .frameReceive port .. | .txScheduleStart port | .txFrameComplete port | .ethPortUp port => wfEthPort port
  | .cipherShadowMismatch engine => wfEngine engine
  | .islandSelftestComplete r => wfSelfTest r
  | .eicModerationExpiry cluster source => wfSource cluster source
  | .sivTrigNow die .. => wfDie die
  | .crossTrigger die from_ => wfDie die && wfDie from_
  | .accPwrEnTimer port | .perstOutRelease port => wfRootPort port
  | .misalignedRegisterAccess .. | .keepWrite .. | .keepPersist .. | .powerAverageInterval .. | .perstNAssert .. | .perstNDeassert | .hostHotReset
  | .hostLinkDown | .secondaryBusReset .. | .functionLevelReset .. | .flrComplete .. | .busMasterEnableClear .. | .busMasterEnableSet ..
  | .powerStateChange .. | .configRequest .. | .completionTimeout .. | .readCompletionReceived .. | .lateCompletion .. | .tagQuarantineExpiry ..
  | .poisonedTlpReceived .. | .apertureRequest .. | .ownedDeviceHostRequest .. | .rootPortLinkDown .. | .devicePresent .. | .linkLaneFault ..
  | .ftSourceWrite .. | .ptpSyncMessage .. | .ppsInEdge | .ftSyncLoss | .ftSlewComplete | .ppsOutSecond | .ftSetSeconds .. | .ftSetSecondsTimeout
  | .steepDoorbell .. | .steepDoorbellForward .. | .steepBoundary .. | .steepCountSet .. | .comparatorAlloc .. | .comparatorFree .. | .recoveryStopTime ..
  | .recoveryStopKernelAbort .. | .debugFreezeStart .. | .debugFreezeEnd .. | .eccScrubRead .. | .routeHopTimeout .. | .partitionCreate ..
  | .partitionDestroy .. | .workRingTailDoorbell .. | .workRingHeadDoorbell .. | .dispatchDescriptor .. | .workKernel .. | .workDma .. | .workConvert ..
  | .workReside .. | .workRelease .. | .workSample .. | .workVerify .. | .workMarker .. | .workCompletionWrite .. | .kernelComplete .. | .kernelDeadline ..
  | .domainCreate .. | .domainDestroy .. | .regionAdd .. | .regionRemove .. | .layerAdd .. | .layerRemove .. | .deepTargetSet .. | .evictMailbox ..
  | .broadcast .. | .domainArm .. | .domainDisarm .. | .domainLrWrite .. | .domainGscaleWrite .. | .protectedWrite .. | .pageDoorbell ..
  | .pageCopyComplete .. | .pauseDoorbell .. | .pauseCopyComplete .. | .snapshotDeclare .. | .boundaryPass .. | .snapshotAbandon .. | .intakeDoorbell ..
  | .layerGradientCombine .. | .collectiveChunkReceive .. | .collTimeout .. | .layerUpdate .. | .pushHighPlane .. | .pushFailed .. | .copierSendGrain ..
  | .grain .. | .grainAckBatch .. | .grainAck .. | .grainNak .. | .sealMsg .. | .held .. | .abandon .. | .decideMsg .. | .decideAck .. | .decideResend ..
  | .commitDeadline .. | .commit .. | .abortMsg .. | .repairReq .. | .buddyCrcScrub .. | .deepWriteDone .. | .deepDone .. | .deepTimeout .. | .deepCancel ..
  | .relayFallback .. | .heartbeat .. | .spareHeartbeatRelay .. | .silenceSuspect .. | .silenceSilent .. | .fenceTimeout .. | .suspect .. | .silent ..
  | .evict .. | .prepare .. | .prepareExpiry .. | .stop .. | .stopped .. | .rollback .. | .restoreReq .. | .restoreGrain .. | .restoreMissing .. | .ready ..
  | .resume .. | .resumeTime .. | .recoveryFail .. | .coordinatorLostTimeout .. | .spareWaitTimeout .. | .recoveryLimitTimeout .. | .ddrUncorrectable ..
  | .rosterGetReply .. | .rosterChunkTimeout .. | .rosterRetryTimer | .rosterRefetch | .bringupPhaseDeadline | .checkin .. | .rosterFinalDeadline
  | .rosterFinalMissing | .rosterFinal .. | .hello .. | .helloAck .. | .helloTimeout .. | .noAnswer .. | .barrier .. | .barrierChildDeadline ..
  | .bringupTimeout | .jobReady .. | .jobReadyTime | .bringupFail .. | .bringupRestart .. | .hostWindowMap .. | .hostWindowUnmap .. | .apertureSet ..
  | .ownedReset .. | .ownedEnumerate .. | .rpCtoSet .. | .sliceCreate .. | .sliceDestroy .. | .sliceDestroyComplete .. | .sliceReset .. | .slcReset ..
  | .sliceResetComplete .. | .irqEntrySet .. | .vrmtInit .. | .ownAddressSet .. | .sliceQueueSet .. | .vrmtCommandDoorbell .. | .cqCreate .. | .cqDestroy ..
  | .connCreate .. | .connConnect .. | .connDestroy .. | .keyRegister .. | .keyRevoke .. | .keyDrainLimit .. | .keyDead .. | .vrmtConnDoorbell ..
  | .vrmtCqDoorbell .. | .wrWrite .. | .wrWriteImm .. | .wrSend .. | .wrSendImm .. | .wrRead .. | .vrmtWritePacket .. | .vrmtSendPacket .. | .vrmtReadReq ..
  | .vrmtReadResp .. | .vrmtAck .. | .vrmtNak .. | .vrmtMsgAbort .. | .ackDelayTimer .. | .retransmitTimeout .. | .pathRestore .. | .messageIncompleteNak ..
  | .connPeerTimeout .. | .rnrRetry .. | .ccCutTimer .. | .ccIncreaseTimer .. | .contextFetchComplete .. | .secondPour | .slowPathFrame | .ruleWrite ..
  | .ruleInvalidate .. | .ruleRead .. | .pktQueueCreate .. | .pktQueueDestroy .. | .portRestart .. | .pktRxqDoorbell .. | .pktTxqDoorbell .. | .shaperRefill
  | .nvmeSqTailDoorbell .. | .nvmeCqHeadDoorbell .. | .nvmeCcEnable .. | .nvmeCcDisable .. | .nvmeCcShutdown .. | .nvmeCreateIoSq .. | .nvmeDeleteIoSq ..
  | .nvmeCreateIoCq .. | .nvmeDeleteIoCq .. | .nvmeGetLogPage .. | .nvmeIdentify .. | .nvmeAbort .. | .nvmeSetFeatures .. | .nvmeGetFeatures ..
  | .nvmeAsyncEventRequest .. | .nvmeRead .. | .nvmeWrite .. | .nvmeWriteZeroes .. | .nvmeDatasetManagement .. | .nvmeFlush .. | .journalEntrySealed ..
  | .destageComplete .. | .backingTimeout .. | .backingRecovered .. | .journalReplay | .nsCreate .. | .nsDestroy .. | .nsAttach .. | .nsDetach ..
  | .targetRegister .. | .nsExport .. | .accelCtrlCreate .. | .firmwareVerify .. | .keyAlloc .. | .keyGenerate .. | .keyAgree .. | .keyImport ..
  | .keyExport .. | .keyZeroize .. | .keyQuery .. | .keyFree .. | .zeroize .. | .lifecycleRetire .. | .spdmGetVersion | .spdmGetCapabilities
  | .spdmNegotiateAlgorithms .. | .spdmGetDigests | .spdmGetCertificate .. | .spdmChallenge .. | .spdmGetMeasurements .. | .spdmKeyExchange ..
  | .spdmFinish .. | .spdmHeartbeat .. | .spdmKeyUpdate .. | .spdmEndSession .. | .spdmSetCertificate .. | .spdmVendorDefinedRequest .. | .drbgReseed
  | .entropyHealthFail | .pairKeyExchange .. | .contextRestore .. | .mbxDoorbell .. | .mailboxHeldRequest .. | .mbxEvtPop .. | .negotiate .. | .fwStatus ..
  | .fwStageOpen .. | .fwStageWrite .. | .fwStageClose .. | .fwActivate .. | .fwDisarm .. | .fwDiscard .. | .logRead .. | .serviceRestart .. | .shutdown ..
  | .deviceRestart .. | .watcherSource .. | .aoTimerReached | .i3cTransfer .. | .irqModerationInterval .. | .strataRecordWrite | .strataLossRecord
  | .timeMark | .debugUdpRequest .. | .auxPgRise .. | .auxPgFall .. | .mainPgRise | .mainPgFall .. | .railFault .. | .thermalSample .. | .throttleStep
  | .overtempTimeout | .brakeNAssert .. | .brakeNDeassert | .brakeLong | .clockLost .. | .clockStable .. | .hostLinkUp .. | .bootPhaseComplete
  | .embeddedSwitchForward .. | .hwFatal .. | .ptpAnnounce .. | .ptpDelayMessage .. | .tapTckEdge .. | .connectionNumberFree .. | .entropyStartupTestDone ..
  | .backingReadComplete .. => true

end Sys2Proof
end

