-- ==== Sys2Proof/Safety.lean ====
section
/-! DEFINITION. What counts as a safe run, in the terms that claims use: a command completes where it answers a next state, a queue is safe where every command waiting in
it names units that exist, and an invariant is kept where every step from a state that has it gives a state that has it. -/

namespace Sys2Proof.Machine

open Sys2Proof

/-- The command answers a next state. -/
def Completes (i : Instr) (s : State) : Prop := ∃ t, exec i s = .next t

/-- Every waiting command names units that exist. -/
def SafeQueue (s : State) : Prop := s.pending.all Instr.wf = true

/-- Every step from a state with `Inv` that answers a next state answers one with `Inv`. -/
def KeptByStep (Inv : State → Prop) : Prop := ∀ s t : State, step s = .next t → Inv s → Inv t

/-- `t` follows from `s` by steps that all answer a next state. -/
inductive Runs : State → State → Prop where
  | refl (s : State) : Runs s s
  | step {s t u : State} : step s = .next t → Runs t u → Runs s u

/-- The memory's canonical form: keys strictly rising, and no entry that reads as an unlisted byte. -/
def Canonical (s : State) : Prop := Memory.wf s.mem = true

/-- The parts of State that a frame can name, one for each field but the queue and the registers; `pwrState` is the power state within `pwr`. -/
inductive Part where
  | latch | readVal | mem | keep | strata | sieve | mbx | fw | irq | pwr | ft | cmp | frozen | cores | arr | work | doms | job | pci | slices | windows | accel | sec | vrm | net | sto | out | fresh | pwrState
deriving DecidableEq, Repr

/-- A part that is in `t` as it was in `s`. Equal memories read alike at every byte. -/
def Part.Same (p : Part) (s t : State) : Prop :=
  match p with
  | .latch => t.latch = s.latch
  | .readVal => t.readVal = s.readVal
  | .mem => t.mem = s.mem
  | .keep => t.keep = s.keep
  | .strata => t.strata = s.strata
  | .sieve => t.sieve = s.sieve
  | .mbx => t.mbx = s.mbx
  | .fw => t.fw = s.fw
  | .irq => t.irq = s.irq
  | .pwr => t.pwr = s.pwr
  | .ft => t.ft = s.ft
  | .cmp => t.cmp = s.cmp
  | .frozen => t.frozen = s.frozen
  | .cores => t.cores = s.cores
  | .arr => t.arr = s.arr
  | .work => t.work = s.work
  | .doms => t.doms = s.doms
  | .job => t.job = s.job
  | .pci => t.pci = s.pci
  | .slices => t.slices = s.slices
  | .windows => t.windows = s.windows
  | .accel => t.accel = s.accel
  | .sec => t.sec = s.sec
  | .vrm => t.vrm = s.vrm
  | .net => t.net = s.net
  | .sto => t.sto = s.sto
  | .out => t.out = s.out
  | .fresh => t.fresh = s.fresh
  | .pwrState => t.pwr.state = s.pwr.state

/-- The frame of a change from `s` to `t`: nothing but the parts `ps` and the registers `rs` (at every index) differs. The queue never does. -/
structure Changes (ps : List Part) (rs : List RegName) (s t : State) : Prop where
  queue : t.pending = s.pending
  part : ∀ p : Part, p ∉ ps → p.Same s t
  reg : ∀ (n : RegName) (i : Nat), n ∉ rs → t.reg n i = s.reg n i

/-- The device is ON. -/
abbrev On (s : State) : Prop := s.pwr.state = .on

/-- Main power is up: ON, or Hardpan. -/
abbrev MainUp (s : State) : Prop := s.pwr.state = .on ∨ s.pwr.state = .hardpan

/-- The array acts: ON, and no debug freeze holds it (R49). -/
abbrev ArrayRuns (s : State) : Prop := s.pwr.state = .on ∧ s.frozen = false

/-- Core `c` has a word to execute: it exists, nothing holds it, it issues words, and the word at its pc can be fetched. -/
structure Issues (c : Nat) (s : State) : Prop where
  present : c < 272
  on : On s
  held : c < 256 → s.frozen = false
  issues : coreIssues s c = true
  fetched : fetchFault s c = none

/-- `t` is `s` after a word of core `c` that leaves `k` in the core: no other core, register (but counters of retired words, R487) or part differs. -/
structure Retires (c : Nat) (k : Core) (s t : State) : Prop where
  core : t.core c = k
  others : ∀ d, d ≠ c → t.core d = s.core d
  frame : Changes [.cores] [.sivPmc] s t

/-- A core with its pc at `pc` and one word more retired. -/
def Core.after (k : Core) (pc : Word) : Core := { k with pc := pc, words := k.words + 1 }

/-- The word `i` of core `c` leaves `v` in register `rd` and moves on to the next word. -/
def Gives (i : Instr) (c : Nat) (rd : BitVec 5) (v : Core → Word) : Prop :=
  ∀ s, Issues c s → ∃ t, exec i s = .next t ∧ Retires c (((s.core c).setG rd (v (s.core c))).after ((s.core c).pc + 4)) s t

/-- The word `i` of core `c` goes to `v` and changes no register. -/
def GoesTo (i : Instr) (c : Nat) (v : Core → Word) : Prop :=
  ∀ s, Issues c s → ∃ t, exec i s = .next t ∧ Retires c ((s.core c).after (v (s.core c))) s t

/-- The core after exception entry (R139). -/
def Core.entered (k : Core) (code sub : Nat) (xval : Word) : Core :=
  { k with
    epc := k.pc, cause := BitVec.ofNat 32 (sub * 256 + code), xval := xval, pie := k.ie, ie := false, inx := true, resv := none, run := .running,
    pc := k.vbase + BitVec.ofNat 32 (32 * code) }

/-- Core `c` takes an exception between `s` and `t`: entry (R139), or the double fault that stops it (R140). -/
structure Takes (c code sub : Nat) (xval : Word) (s t : State) : Prop where
  entry : (s.core c).inx = false → t.core c = (s.core c).entered code sub xval ∧ (∀ d, d ≠ c → t.core d = s.core d) ∧ Changes [.cores] [] s t
  double : (s.core c).inx = true → (t.core c).run = .stopped

/-- The word `i` of core `c` raises an exception whatever the state of the core. -/
def Raises (i : Instr) (c code sub : Nat) (xval : Core → Word) : Prop :=
  ∀ s, Issues c s → ∃ t, exec i s = .next t ∧ Takes c code sub (xval (s.core c)) s t

/-- Memory of the array that no domain protects and no link stands before: core memory, cluster memory or Silt. -/
def ownMemory (s : State) (a : Nat) : Bool :=
  match arrKind s a with
  | .core _ | .cluster _ | .silt _ _ => true
  | _ => false

/-- A load of `size` bytes at effective address `ea` by core `c` reads memory of the part at array address `arr` and meets no exception (R126). -/
structure Reads (s : State) (c : Nat) (ea : Int) (size arr : Nat) : Prop where
  clear : accFault s c { store := false, size := size, addr := ea } = none
  reach : reachOf s c ea.toNat false = .ok (.bytes arr)
  inside : linkFor s arr = none

/-- A store of `size` bytes at effective address `ea` by core `c` goes to core memory, cluster memory or Silt at `arr` and meets no exception (R126). -/
structure Writes (s : State) (c : Nat) (ea : Int) (size arr : Nat) : Prop where
  clear : accFault s c { store := true, size := size, addr := ea } = none
  reach : reachOf s c ea.toNat true = .ok (.bytes arr)
  own : ownMemory s arr = true
  aligned : arr % size = 0

/-- A reservation after a write of `size` bytes at `arr` (R134). -/
def Core.unreserved (k : Core) (arr size : Nat) : Core :=
  { k with resv := match k.resv with
      | some r => if r.granule < arr + size ∧ arr < r.granule + 64 then none else some r
      | none => none }

/-- `t` is `s` after a word of core `c` that leaves `k` in the core and stores the bytes `l` at `arr`: every other byte reads as before, reservations on the
granule end, and ECC words that the store covers are good again (R53, R134). -/
structure Stores (c : Nat) (k : Core) (arr : Nat) (l : List Byte) (s t : State) : Prop where
  stored : t.bytes .array arr l.length = l
  apart : ∀ key, (∀ i, i < l.length → key ≠ Space.array.key (arr + i)) → Memory.read t.mem key = Memory.read s.mem key
  core : t.core c = k.unreserved arr l.length
  others : ∀ d, d ≠ c → t.core d = (s.core d).unreserved arr l.length
  ecc : t.arr = { s.arr with eccBad := s.arr.eccBad.filter (fun w => !decide (arr ≤ w ∧ w + eccSize w ≤ arr + l.length)) }
  frame : Changes [.mem, .cores, .arr] [.sivPmc] s t

/-- A load word `i` of core `c` from memory of the part. -/
def LoadsTo (i : Instr) (c : Nat) (rd : BitVec 5) (ea : Core → Int) (size : Nat) (signed : Bool) (upd : Core → Core) : Prop :=
  ∀ s arr, Issues c s → Reads s c (ea (s.core c)) size arr → ∃ t, exec i s = .next t ∧
    Retires c (((upd (s.core c)).setG rd (extendTo32 size signed (s.loadNum arr size))).after ((s.core c).pc + 4)) s t

/-- A store word `i` of core `c` into core memory, cluster memory or Silt. -/
def StoresFrom (i : Instr) (c : Nat) (rs : BitVec 5) (ea : Core → Int) (size : Nat) (upd : Core → Core) : Prop :=
  ∀ s arr, Issues c s → Writes s c (ea (s.core c)) size arr → ∃ t, exec i s = .next t ∧
    Stores c ((upd (s.core c)).after ((s.core c).pc + 4)) arr (leBytes size ((s.core c).g rs).toNat) s t

/-- Registers written one after the other. -/
def Core.setAll (k : Core) (l : List (BitVec 5 × Word)) : Core := l.foldl (fun c w => c.setG w.1 w.2) k

/-- The short operations of a word make a legal pair with `own` in slot `sl` (R121, R123), and the other one is no load or store. -/
structure Pairs (sl : Slot) (own o : ShortOp) : Prop where
  whole : shortReserved own = false
  other : shortReserved o = false
  legal : (match sl with
    | .s0 => illegalPair own o
    | .s1 => illegalPair o own) = false
  noAccess : shortMem o = false

/-- The registers after a pair whose own operation writes `l` and whose other one is `o`: all values were read before any was written (R122). -/
def Core.paired (k : Core) (sl : Slot) (l : List (BitVec 5 × Word)) (o : ShortOp) : Core :=
  match sl with
  | .s0 => (k.setAll l).setAll (shortEff k o).writes
  | .s1 => (k.setAll (shortEff k o).writes).setAll l

/-- A pair whose own operation leaves `v` in `rd`. -/
def PairGives (i : Slot → ShortOp → Instr) (own : ShortOp) (c : Nat) (rd : BitVec 5) (v : Core → Word) : Prop :=
  ∀ sl o s, Issues c s → Pairs sl own o → ∃ t, exec (i sl o) s = .next t ∧
    Retires c (((s.core c).paired sl [(rd, v (s.core c))] o).after ((shortEff (s.core c) o).target.getD ((s.core c).pc + 4))) s t

/-- A pair whose own operation loads a word or less and moves its pointer by `upd`. -/
def PairLoads (i : Slot → ShortOp → Instr) (own : ShortOp) (c : Nat) (rd : BitVec 5) (ea : Core → Int) (size : Nat) (signed : Bool)
    (moved : Core → List (BitVec 5 × Word)) : Prop :=
  ∀ sl o s arr, Issues c s → Pairs sl own o → Reads s c (ea (s.core c)) size arr → ∃ t, exec (i sl o) s = .next t ∧
    Retires c ((((s.core c).paired sl (moved (s.core c)) o).setG rd (extendTo32 size signed (s.loadNum arr size))).after
      ((shortEff (s.core c) o).target.getD ((s.core c).pc + 4))) s t

/-- A pair whose own operation stores. -/
def PairStores (i : Slot → ShortOp → Instr) (own : ShortOp) (c : Nat) (rs : BitVec 5) (ea : Core → Int) (size : Nat)
    (moved : Core → List (BitVec 5 × Word)) : Prop :=
  ∀ sl o s arr, Issues c s → Pairs sl own o → Writes s c (ea (s.core c)) size arr → ∃ t, exec (i sl o) s = .next t ∧
    Stores c (((s.core c).paired sl (moved (s.core c)) o).after ((shortEff (s.core c) o).target.getD ((s.core c).pc + 4))) arr
      (leBytes size ((s.core c).g rs).toNat) s t

/-- Mailbox `c` holds a taken request `f` of opcode `op` that passes the checks before its own, and the service that performs it runs (R269, R437, R439, R443 to
R445). -/
structure Serves (c : Caller) (op : Nat) (f : Frame) (s : State) : Prop where
  holds : mbxHolds s c op = some f
  passes : mbxRefusal s c f = none
  runs : opSvcState s op = .running

/-- Mailbox `c` holds the reply to its request: status, field at fault (0xFFFF for none) and results; done is 1 and busy 0 (R438, R439). -/
abbrev Answered (c : Caller) (st : Status) (results : List Nat) (t : State) (field : Nat := 0xFFFF) : Prop :=
  (t.mailbox c).done = true ∧ (t.mailbox c).busy = false ∧ (t.mailbox c).reply.map (fun r => (r.status, r.field, r.results)) = some (st, field, results)

/-- The 64 bytes of the descriptor at the head of an engine's queue. -/
def meBytes (s : State) (id : Nat) : List Byte := (((s.core id).me.queue.headD []).take 16).flatMap (fun w => leBytes 4 w.toNat)

/-- Core memory is as an engine reads it: its core is present, and no word is uncorrectable (R53, R78). -/
abbrev SoundMemory (id : Nat) (s : State) : Prop := s.arr.eccBad = [] ∧ corePresent s id = true

/-- An engine with a lane-mode operation `op` at the head of its queue. -/
abbrev LaneHead (op id : Nat) (s : State) : Prop := id < 256 ∧ ArrayRuns s ∧ meHead s id = some (2, op)

/-- What a descriptor leaves in an engine: it leaves the queue, its completion waits to be posted with its tag (R105, R145). -/
def Me.finished (m : Me) (tag : Nat) (status : Status) (field flags : Nat) : Me :=
  { m with queue := m.queue.tail, executed := m.executed ++ [{ tag := tag, flags := flags, status := status, offset := field }] }

/-- `t` is `s` after the engine of core `id` ran its head descriptor with outcome `o`: the bytes are in core memory, nothing else in memory differs, the
accumulators and generators are the outcome's, and the completion says SUCCESS. Other engines and all registers of cores but reservations are as before. -/
structure Ran (id : Nat) (o : MeOut) (s t : State) : Prop where
  engine : (t.core id).me = { (s.core id).me.finished (fieldLE (meBytes s id) 56 8) St.success 0xFFFF o.flags with acc := o.acc, gens := o.gens, reload := false }
  memory : t.mem = o.writes.foldl (fun m w => Memory.writeN m (Space.array.key (coreBase id + w.1)) w.2) s.mem
  engines : ∀ c, c ≠ id → (t.core c).me = (s.core c).me
  cores : ∀ c, { t.core c with me := {}, resv := none } = { s.core c with me := {}, resv := none }
  frame : Changes [.mem, .cores] [.sivPmc] s t

/-- The outcome of a lane-mode descriptor by R108 to R111 and R195. -/
def laneOut (s : State) (id : Nat) : MeOut :=
  runLane (meBytes s id) (s.bytes .array (coreBase id) 0x100000) (((s.core id).me.queue.headD []).drop 16) (meGens s id)

/-- The outcome of a tile descriptor by R96 to R101. -/
def tileOut (s : State) (id : Nat) : MeOut :=
  runTile (meBytes s id) (s.bytes .array (coreBase id) 0x100000) (s.core id).me.acc (meGens s id)

/-- A command for lane-mode operation `op` refuses what the checks of R103 and R107 refuse, with nothing written, and leaves other descriptors alone. -/
def LaneChecks (i : Nat → Instr) (op : Nat) : Prop :=
  (∀ id s st f, LaneHead op id s → (laneCheck (meBytes s id)).1 = some (st, f) →
    exec (i id) s = .next (s.modCore id (fun c => { c with me := c.me.finished (fieldLE (meBytes s id) 56 8) st f 0 }))) ∧
  (∀ id s, id < 256 → ArrayRuns s → meHead s id ≠ some (2, op) → exec (i id) s = .next s)

end Sys2Proof.Machine
end

