-- ==== Sys2Proof/Certificates/Slice0/Obligations.lean ====
section
/-! DEFINITION. The statements for the provers. -/

open Sys2Proof Sys2Proof.Machine

/-- For every command c, rest of the queue and state s, a step of s with c :: rest waiting is exec of c on s with the rest waiting. Cites: 00_scope.md, 95_what_each_step_holds.md. -/
def Obligations.StepRunsFront : Prop :=
  ∀ (c : Instr) (rest : List Instr) (s : State), step { s with pending := c :: rest } = exec c { s with pending := rest }

/-- Whatever the command at the front does (any of the 494), the queue after a step is the rest of the queue before it, in its order; on an empty queue it stays empty. Cites: 00_scope.md, 95_what_each_step_holds.md. -/
def Obligations.QueueFirstInFirstOut : Prop :=
  ∀ s t : State, step s = .next t → t.pending = s.pending.tail

/-- From every state whose memory has strictly rising keys and no entry that reads as an unlisted byte, whatever command is taken (or with none, as time passes), the memory after the step has that form. Model's own form of memory (log entry 5). Cites: 00_scope.md, 03_tensor_array.md. -/
def Obligations.MemoryStaysCanonical : Prop :=
  KeptByStep Canonical

/-- State.reset has a canonical memory, an empty queue, and every byte of every address space reads 0 there: the model's choice of log entry 5. Cites: 03_tensor_array.md. -/
def Obligations.ResetMemoryCanonical : Prop :=
  Canonical State.reset ∧ State.reset.pending = [] ∧ ∀ (sp : Space) (a n : Nat), State.reset.bytes sp a n = List.replicate n 0

/-- Over every step, what had been sent before it stays in the record of what was sent, in its order, and the count of free values drawn (log entry 10) does not fall. Cites: 11_host_and_accelerator_bus.md, 13_vrmt_remote_memory.md, 14_packet_path.md. -/
def Obligations.SentStaysSent : Prop :=
  ∀ s t : State, step s = .next t → s.out <:+ t.out ∧ s.fresh ≤ t.fresh

/-- For every command i that is well formed (each core, cluster, die, channel, port, comparator or register it names exists) and every state, exec answers a next state; for every other command it answers the fault noSuchUnit (log entry 9). No command is refused. Cites: 00_scope.md, 95_what_each_step_holds.md. -/
def Obligations.EveryCommandCompletes : Prop :=
  ∀ (i : Instr) (s : State), if i.wf = true then ∃ t, exec i s = .next t else exec i s = .fault .noSuchUnit

/-- Where main power is up (ON or Hardpan), a misaligned or narrower access by any agent adds one to the counter of the debug window, which holds 32 bits and saturates; a read returns 0, a write changes nothing else. Cites: R5. -/
def Obligations.MisalignedAccessCounted : Prop :=
  ∀ (a : Agent) (write : Bool) (s : State), (s.pwr.state = .on ∨ s.pwr.state = .hardpan) →
    ∃ t, exec (.misalignedRegisterAccess a write) s = .next t ∧
      t.reg .dbgAccessErr = min (s.reg .dbgAccessErr + 1) (2 ^ 32 - 1) ∧
      (write = false → t.readVal = 0) ∧
      Changes (if write then [] else [.readVal]) [.dbgAccessErr] s t

/-- For each of ADD, SUB, AND, OR, XOR, SLL, SRL, SRA, SLT, SLTU, MIN, MAX, MINU, MAXU: where the core issues the word, exec answers a next state in which rd holds the result of the values that rs1 and rs2 held (g0 reads zero and a result for g0 is discarded), pc is at the next word and one word more is retired; no other register of the core, no other core, no memory and no other part differs, but the counters of retired words (R487). Cites: 05_tilth32.md, R116, R119, R125. -/
def Obligations.IntegerRegisterResults : Prop :=
  ∀ (c : Nat) (rd rs1 rs2 : BitVec 5),
    Gives (.add c rd rs1 rs2) c rd (fun k => k.g rs1 + k.g rs2) ∧
    Gives (.sub c rd rs1 rs2) c rd (fun k => k.g rs1 - k.g rs2) ∧
    Gives (.and c rd rs1 rs2) c rd (fun k => k.g rs1 &&& k.g rs2) ∧
    Gives (.or c rd rs1 rs2) c rd (fun k => k.g rs1 ||| k.g rs2) ∧
    Gives (.xor c rd rs1 rs2) c rd (fun k => k.g rs1 ^^^ k.g rs2) ∧
    Gives (.sll c rd rs1 rs2) c rd (fun k => k.g rs1 <<< ((k.g rs2).toNat % 32)) ∧
    Gives (.srl c rd rs1 rs2) c rd (fun k => k.g rs1 >>> ((k.g rs2).toNat % 32)) ∧
    Gives (.sra c rd rs1 rs2) c rd (fun k => (k.g rs1).sshiftRight ((k.g rs2).toNat % 32)) ∧
    Gives (.slt c rd rs1 rs2) c rd (fun k => if (k.g rs1).toInt < (k.g rs2).toInt then 1 else 0) ∧
    Gives (.sltu c rd rs1 rs2) c rd (fun k => if (k.g rs1).toNat < (k.g rs2).toNat then 1 else 0) ∧
    Gives (.min c rd rs1 rs2) c rd (fun k => if (k.g rs1).toInt ≤ (k.g rs2).toInt then k.g rs1 else k.g rs2) ∧
    Gives (.max c rd rs1 rs2) c rd (fun k => if (k.g rs2).toInt ≤ (k.g rs1).toInt then k.g rs1 else k.g rs2) ∧
    Gives (.minu c rd rs1 rs2) c rd (fun k => if (k.g rs1).toNat ≤ (k.g rs2).toNat then k.g rs1 else k.g rs2) ∧
    Gives (.maxu c rd rs1 rs2) c rd (fun k => if (k.g rs2).toNat ≤ (k.g rs1).toNat then k.g rs1 else k.g rs2)

/-- For each of MUL, MULH, MULHU, MULHSU, DIV, DIVU, REM, REMU: where the core issues the word, exec answers a next state (no exception, whatever the operands) with the product's half, the quotient truncated toward zero or its remainder in rd; by zero the quotient is 0xFFFF_FFFF and the remainder the dividend; -2^31 by -1 gives -2^31 with a remainder of 0. Nothing else differs but pc and the counts of retired words. Cites: 05_tilth32.md, R125. -/
def Obligations.MultiplyDivideResults : Prop :=
  ∀ (c : Nat) (rd rs1 rs2 : BitVec 5),
    Gives (.mul c rd rs1 rs2) c rd (fun k => k.g rs1 * k.g rs2) ∧
    Gives (.mulh c rd rs1 rs2) c rd (fun k => BitVec.ofInt 32 ((k.g rs1).toInt * (k.g rs2).toInt / 2 ^ 32)) ∧
    Gives (.mulhu c rd rs1 rs2) c rd (fun k => BitVec.ofNat 32 ((k.g rs1).toNat * (k.g rs2).toNat / 2 ^ 32)) ∧
    Gives (.mulhsu c rd rs1 rs2) c rd (fun k => BitVec.ofInt 32 ((k.g rs1).toInt * (k.g rs2).toNat / 2 ^ 32)) ∧
    Gives (.div c rd rs1 rs2) c rd (fun k => if k.g rs2 = 0 then 0xFFFFFFFF else (k.g rs1).sdiv (k.g rs2)) ∧
    Gives (.divu c rd rs1 rs2) c rd (fun k => if k.g rs2 = 0 then 0xFFFFFFFF else (k.g rs1).udiv (k.g rs2)) ∧
    Gives (.rem c rd rs1 rs2) c rd (fun k => if k.g rs2 = 0 then k.g rs1 else (k.g rs1).srem (k.g rs2)) ∧
    Gives (.remu c rd rs1 rs2) c rd (fun k => if k.g rs2 = 0 then k.g rs1 else (k.g rs1).umod (k.g rs2)) ∧
    (0x80000000 : Word).sdiv 0xFFFFFFFF = 0x80000000 ∧ (0x80000000 : Word).srem 0xFFFFFFFF = 0

/-- ADDI, SLTI and SLTIU extend their 15-bit immediate by its sign, ANDI, ORI and XORI by zeros; SLLI, SRLI and SRAI shift by their 5-bit amount where the reserved bits are zero; LUI and AUIPC place 20 bits at bit 12, AUIPC added to the pc of the word. Completion, result and frame as for the register forms. Cites: 05_tilth32.md, R116, R119. -/
def Obligations.ImmediateResults : Prop :=
  (∀ (c : Nat) (rd rs1 : BitVec 5) (imm : BitVec 15),
    Gives (.addi c rd rs1 imm) c rd (fun k => k.g rs1 + imm.signExtend 32) ∧
    Gives (.andi c rd rs1 imm) c rd (fun k => k.g rs1 &&& imm.zeroExtend 32) ∧
    Gives (.ori c rd rs1 imm) c rd (fun k => k.g rs1 ||| imm.zeroExtend 32) ∧
    Gives (.xori c rd rs1 imm) c rd (fun k => k.g rs1 ^^^ imm.zeroExtend 32) ∧
    Gives (.slti c rd rs1 imm) c rd (fun k => if (k.g rs1).toInt < (imm.signExtend 32).toInt then 1 else 0) ∧
    Gives (.sltiu c rd rs1 imm) c rd (fun k => if (k.g rs1).toNat < (imm.signExtend 32).toNat then 1 else 0)) ∧
  (∀ (c : Nat) (rd rs1 sh : BitVec 5),
    Gives (.slli c rd rs1 0 sh) c rd (fun k => k.g rs1 <<< sh.toNat) ∧
    Gives (.srli c rd rs1 0 sh) c rd (fun k => k.g rs1 >>> sh.toNat) ∧
    Gives (.srai c rd rs1 0 sh) c rd (fun k => (k.g rs1).sshiftRight sh.toNat)) ∧
  ∀ (c : Nat) (rd : BitVec 5) (imm : BitVec 20),
    Gives (.lui c rd imm) c rd (fun _ => imm.zeroExtend 32 <<< 12) ∧ Gives (.auipc c rd imm) c rd (fun k => k.pc + imm.zeroExtend 32 <<< 12)

/-- CLZ counts the zeros above the highest one bit, CTZ those below the lowest (32 where there is none), POPC the one bits, BREV reverses the 32 bits and BSWAP the four bytes. Completion, result and frame as for the register forms. Cites: 05_tilth32.md, R119. -/
def Obligations.BitCountResults : Prop :=
  ∀ (c : Nat) (rd rs1 : BitVec 5),
    Gives (.clz c rd rs1 0) c rd (fun k => BitVec.ofNat 32 ((List.range 32).takeWhile (fun i => !(k.g rs1).getLsbD (31 - i))).length) ∧
    Gives (.ctz c rd rs1 0) c rd (fun k => BitVec.ofNat 32 ((List.range 32).takeWhile (fun i => !(k.g rs1).getLsbD i)).length) ∧
    Gives (.popc c rd rs1 0) c rd (fun k => BitVec.ofNat 32 ((List.range 32).countP (fun i => (k.g rs1).getLsbD i))) ∧
    Gives (.brev c rd rs1 0) c rd (fun k => (k.g rs1).reverse) ∧
    Gives (.bswap c rd rs1 0) c rd (fun k => (k.g rs1).extractLsb' 0 8 ++ (k.g rs1).extractLsb' 8 8 ++ (k.g rs1).extractLsb' 16 8 ++ (k.g rs1).extractLsb' 24 8)

/-- A branch goes to the word at its signed offset in words from its own address where its condition holds (equal, not equal, less and not less, signed and unsigned), and to the next word otherwise; J goes to its offset, JR to the value of rs1; none changes a register. Cites: 05_tilth32.md, R119, R132. -/
def Obligations.BranchesAndJumps : Prop :=
  (∀ (c : Nat) (rs1 rs2 : BitVec 5) (off : BitVec 15),
    GoesTo (.beq c rs1 rs2 off) c (fun k => if k.g rs1 = k.g rs2 then k.pc + (off.signExtend 32 <<< 2) else k.pc + 4) ∧
    GoesTo (.bne c rs1 rs2 off) c (fun k => if k.g rs1 ≠ k.g rs2 then k.pc + (off.signExtend 32 <<< 2) else k.pc + 4) ∧
    GoesTo (.blt c rs1 rs2 off) c (fun k => if (k.g rs1).toInt < (k.g rs2).toInt then k.pc + (off.signExtend 32 <<< 2) else k.pc + 4) ∧
    GoesTo (.bge c rs1 rs2 off) c (fun k => if (k.g rs2).toInt ≤ (k.g rs1).toInt then k.pc + (off.signExtend 32 <<< 2) else k.pc + 4) ∧
    GoesTo (.bltu c rs1 rs2 off) c (fun k => if (k.g rs1).toNat < (k.g rs2).toNat then k.pc + (off.signExtend 32 <<< 2) else k.pc + 4) ∧
    GoesTo (.bgeu c rs1 rs2 off) c (fun k => if (k.g rs2).toNat ≤ (k.g rs1).toNat then k.pc + (off.signExtend 32 <<< 2) else k.pc + 4)) ∧
  (∀ (c : Nat) (off : BitVec 25), GoesTo (.j c off) c (fun k => k.pc + (off.signExtend 32 <<< 2))) ∧
  (∀ (c : Nat) (rs1 : BitVec 5), GoesTo (.jr c 0 rs1 0) c (fun k => k.g rs1))

/-- Where a core issues ERET, pc becomes TNS_EPC, ie becomes pie, inx is cleared and any reservation ends; the word is counted as retired and nothing else differs. Cites: R142. -/
def Obligations.EretResumes : Prop :=
  ∀ (c : Nat) (s : State), Issues c s → ∃ t, exec (.eret c 0 0 0) s = .next t ∧
    Retires c ({ s.core c with ie := (s.core c).pie, inx := false, resv := none }.after (s.core c).epc) s t

/-- With fewer than 16 entries a push (CALL and CALLR: the address of the next word; RSPUSH: a register) becomes the newest entry; with an entry a pop (RET into pc, RSPOP into a register) removes the newest. In joined mode a push on 16 entries overwrites the oldest (ovf_trap 0) or raises the overflow exception (ovf_trap 1), and a pop of none raises the underflow exception; in split mode a push with rsp - 4 below rslo and a pop with rsp at or above rshi raise them, TNS_XVAL holding rsp. Cites: 05_tilth32.md, R130, R131, R132. -/
def Obligations.ReturnStack : Prop :=
  ∀ (c : Nat) (rd rs1 : BitVec 5) (off : BitVec 25) (s : State), Issues c s →
    let k := s.core c
    (k.rstack.length < 16 →
      (∃ t, exec (.call c off) s = .next t ∧ Retires c ({ k with rstack := (k.pc + 4) :: k.rstack }.after (k.pc + (off.signExtend 32 <<< 2))) s t) ∧
      (∃ t, exec (.callr c 0 rs1 0) s = .next t ∧ Retires c ({ k with rstack := (k.pc + 4) :: k.rstack }.after (k.g rs1)) s t) ∧
      (∃ t, exec (.rspush c rs1) s = .next t ∧ Retires c ({ k with rstack := k.g rs1 :: k.rstack }.after (k.pc + 4)) s t)) ∧
    (16 ≤ k.rstack.length → k.split = false → k.ovfTrap = false →
      (∃ t, exec (.call c off) s = .next t ∧ Retires c ({ k with rstack := (k.pc + 4) :: k.rstack.dropLast }.after (k.pc + (off.signExtend 32 <<< 2))) s t) ∧
      (∃ t, exec (.rspush c rs1) s = .next t ∧ Retires c ({ k with rstack := k.g rs1 :: k.rstack.dropLast }.after (k.pc + 4)) s t)) ∧
    (16 ≤ k.rstack.length → (k.split = false ∧ k.ovfTrap = true ∨ k.split = true ∧ k.rsp.toNat < k.rslo.toNat + 4) →
      (∃ t, exec (.call c off) s = .next t ∧ Takes c 9 0 (if k.split then k.rsp else 0) s t) ∧
      (∃ t, exec (.callr c 0 rs1 0) s = .next t ∧ Takes c 9 0 (if k.split then k.rsp else 0) s t) ∧
      (∃ t, exec (.rspush c rs1) s = .next t ∧ Takes c 9 0 (if k.split then k.rsp else 0) s t)) ∧
    (∀ v r, k.rstack = v :: r →
      (∃ t, exec (.ret c 0 0 0) s = .next t ∧ Retires c ({ k with rstack := r }.after v) s t) ∧
      (∃ t, exec (.rspop c rd) s = .next t ∧ Retires c ({ k.setG rd v with rstack := r }.after (k.pc + 4)) s t)) ∧
    (k.rstack = [] → (k.split = false ∨ k.rshi.toNat ≤ k.rsp.toNat) →
      (∃ t, exec (.ret c 0 0 0) s = .next t ∧ Takes c 10 0 (if k.split then k.rsp else 0) s t) ∧
      (∃ t, exec (.rspop c rd) s = .next t ∧ Takes c 10 0 (if k.split then k.rsp else 0) s t))

/-- Where the core issues the word and the access at the exact sum of base and offset meets no exception and reaches memory of the part (bytes at arr), rd takes the 1, 2 or 4 bytes there, the first the least significant (R1), extended by sign (LB, LH) or zeros; pc moves on and nothing else differs: no memory, no other register. Cites: 05_tilth32.md, R1, R126. -/
def Obligations.PlainLoads : Prop :=
  ∀ (c : Nat) (rd rs1 : BitVec 5) (imm : BitVec 15),
    LoadsTo (.lb c rd rs1 imm) c rd (fun k => (k.g rs1).toNat + imm.toInt) 1 true id ∧
    LoadsTo (.lbu c rd rs1 imm) c rd (fun k => (k.g rs1).toNat + imm.toInt) 1 false id ∧
    LoadsTo (.lh c rd rs1 imm) c rd (fun k => (k.g rs1).toNat + imm.toInt) 2 true id ∧
    LoadsTo (.lhu c rd rs1 imm) c rd (fun k => (k.g rs1).toNat + imm.toInt) 2 false id ∧
    LoadsTo (.lw c rd rs1 imm) c rd (fun k => (k.g rs1).toNat + imm.toInt) 4 false id

/-- Where the core issues the word and the store meets no exception and goes to array address arr, the low 1, 2 or 4 bytes of rs2 stand at arr, least significant first; every other byte of every space reads as before; reservations on the granule end, in every core; ECC words covered are good; pc moves on; no register differs. Cites: 05_tilth32.md, R1, R126, R134. -/
def Obligations.PlainStores : Prop :=
  ∀ (c : Nat) (rs2 rs1 : BitVec 5) (imm : BitVec 15),
    StoresFrom (.sb c rs2 rs1 imm) c rs2 (fun k => (k.g rs1).toNat + imm.toInt) 1 id ∧
    StoresFrom (.sh c rs2 rs1 imm) c rs2 (fun k => (k.g rs1).toNat + imm.toInt) 2 id ∧
    StoresFrom (.sw c rs2 rs1 imm) c rs2 (fun k => (k.g rs1).toNat + imm.toInt) 4 id

/-- A load or store with each mode (post-increment by a register, by an immediate count of elements, modulo, bit-reversed) accesses the address of R128 and leaves the pointer register at its next value; the stored data is the value before the update (R127). A load whose destination is its pointer, g0 aside, raises illegal-instruction. In modes 2 and 3 a pointer outside the buffer, or a buffer of size 0, raises the address-mode exception, TNS_XVAL holding the pointer; in mode 2 a misaligned pointer is reported first. Cites: 05_tilth32.md, R127, R128, R129. -/
def Obligations.AddressModes : Prop :=
  ∀ (c : Nat) (rd rb ri imm : BitVec 5) (z : Fin 3) (m : Fin 4) (uns : Bool) (s : State), Issues c s → (uns = true → z.val < 2) →
    let k := s.core c
    let p := k.g rb
    let fL (m : Nat) : BitVec 8 := BitVec.ofNat 8 (z * 64 + (if uns then 16 else 0) + 4 * m)
    let fS (m : Nat) : BitVec 8 := BitVec.ofNat 8 (z * 64 + 32 + 4 * m)
    let data := leBytes (2 ^ z.val) (k.g rd).toNat
    let loads (i : Instr) (ea : Nat) (p' : Word) : Prop := ∀ arr, Reads s c ea (2 ^ z.val) arr → ∃ t, exec i s = .next t ∧
      Retires c (((k.setG rb p').setG rd (extendTo32 (2 ^ z.val) (!uns) (s.loadNum arr (2 ^ z.val)))).after (k.pc + 4)) s t
    let stores (i : Instr) (ea : Nat) (p' : Word) : Prop := ∀ arr, Writes s c ea (2 ^ z.val) arr → ∃ t, exec i s = .next t ∧
      Stores c ((k.setG rb p').after (k.pc + 4)) arr data s t
    let traps (i : Instr) (code : Nat) (x : Word) : Prop := ∃ t, exec i s = .next t ∧ Takes c code 0 x s t
    let base := k.amb[m]
    let off := (p - base).toNat
    let mlen := k.amc[m].toNat % 2 ^ 24
    let n := k.amc[m].toNat / 2 ^ 24 % 32
    let inside := off < mlen ∧ off + 2 ^ z.val ≤ mlen
    let walks := n ≠ 0 ∧ off < 2 ^ n * 2 ^ z.val ∧ off % 2 ^ z.val = 0
    let next2 := base + BitVec.ofInt 32 ((off + (k.g ri).toInt) % mlen)
    let next3 := base + BitVec.ofInt 32 ((off / 2 ^ z.val + (k.g ri).toInt) % (2 ^ n : Nat) * (2 ^ z.val : Nat))
    let walk := base.toNat + revBits n (off / 2 ^ z.val) * 2 ^ z.val
    ((rd ≠ rb ∨ rd = 0) →
      loads (.memxPostincReg c rd rb ri (fL 0)) p.toNat (p + k.g ri) ∧
      loads (.memxPostincImm c rd rb imm (fL 0)) p.toNat (p + BitVec.ofInt 32 (imm.toInt * (2 ^ z.val : Nat))) ∧
      (inside → loads (.memxModulo c rd rb ri (fL m)) p.toNat next2) ∧
      (walks → loads (.memxBitrev c rd rb ri (fL m)) walk next3) ∧
      (¬ inside → traps (.memxModulo c rd rb ri (fL m)) (if p.toNat % 2 ^ z.val = 0 then 5 else 4) p) ∧
      (¬ walks → traps (.memxBitrev c rd rb ri (fL m)) 5 p)) ∧
    (rd = rb → rd ≠ 0 → traps (.memxModulo c rd rb ri (fL m)) 1 (BitVec.ofNat 32 (encLR 0x13 rd.toNat rb.toNat ri.toNat (2 * 256 + (fL m).toNat)))) ∧
    stores (.memxPostincReg c rd rb ri (fS 0)) p.toNat (p + k.g ri) ∧
    stores (.memxPostincImm c rd rb imm (fS 0)) p.toNat (p + BitVec.ofInt 32 (imm.toInt * (2 ^ z.val : Nat))) ∧
    (inside → stores (.memxModulo c rd rb ri (fS m)) p.toNat next2) ∧
    (walks → stores (.memxBitrev c rd rb ri (fS m)) walk next3) ∧
    (¬ inside → traps (.memxModulo c rd rb ri (fS m)) (if p.toNat % 2 ^ z.val = 0 then 5 else 4) p) ∧
    (¬ walks → traps (.memxBitrev c rd rb ri (fS m)) 5 p)

/-- LR.W loads the aligned word and reserves its 64-byte granule; SC.W stores and gives 0 exactly where this core's reservation names the granule, and otherwise stores nothing and gives 1, ending the reservation either way; TAS.B reads the byte, zero-extended, and sets it to 0xFF; a reservation's 1,024 cycles end it. Every other byte of memory and every other register of the core is as before. Cites: 05_tilth32.md, R133, R134, R136. -/
def Obligations.Atomics : Prop :=
  (∀ (c : Nat) (rd rs1 rs2 : BitVec 5) (s : State) (arr : Nat), Issues c s →
    let k := s.core c
    let a := (k.g rs1).toNat
    (atomAt s c a 4 false true = .ok (.bytes arr) → eccHit s arr 4 = none → ownMemory s arr = true →
      ∃ t, exec (.lrW c rd rs1 rs2) s = .next t ∧
        Retires c (({ k with resv := some { granule := arr / 64 * 64, since := k.cycles.toNat } }.setG rd (BitVec.ofNat 32 (s.loadNum arr 4))).after (k.pc + 4)) s t) ∧
    (atomAt s c a 4 true true = .ok (.bytes arr) → eccPartial s arr 4 = none → ownMemory s arr = true → arr % 4 = 0 →
      (∀ r, k.resv = some r → r.granule = arr / 64 * 64 → ∃ t, exec (.scW c rd rs1 rs2) s = .next t ∧
        Stores c (({ k with resv := none }.setG rd 0).after (k.pc + 4)) arr (leBytes 4 (k.g rs2).toNat) s t) ∧
      ((∀ r, k.resv = some r → r.granule ≠ arr / 64 * 64) → ∃ t, exec (.scW c rd rs1 rs2) s = .next t ∧
        Retires c (({ k with resv := none }.setG rd 1).after (k.pc + 4)) s t)) ∧
    (∀ link, atomAt s c a 1 true false = .ok (.bytes arr) → eccPartial s arr 1 = none → ownMemory s arr = true →
      ∃ t, exec (.tasB c rd rs1 rs2 link) s = .next t ∧
        Stores c ((k.setG rd (BitVec.ofNat 32 (s.loadNum arr 1))).after (k.pc + 4)) arr [0xFF] s t)) ∧
  ∀ (c : Nat) (s : State), On s → c < 272 → (c < 256 → s.frozen = false) → ∃ t, exec (.reservationTimeout c) s = .next t ∧
    t.core c = { s.core c with resv := none } ∧ (∀ d, d ≠ c → t.core d = s.core d) ∧ Changes [.cores] [] s t

/-- FENCE and FENCE.I have nothing to wait for where every access is complete when its word is (log entry 171); ECALL and EBREAK raise causes 12 and 13 with TNS_XVAL 0; entry saves the word's address in TNS_EPC, code and subcode in TNS_CAUSE, ie in pie, clears ie, sets inx, ends the reservation and goes to TNS_VBASE + 32 x code, and within a handler it stops the core instead. WAITE with a masked event present gives the masked events and clears a wake that it returns; with none the core waits at the word; with mask 0 it raises illegal-instruction. WAITE_WAKE ends the wait. Cites: 05_tilth32.md, R137, R139, R140, R143. -/
def Obligations.SystemWords : Prop :=
  ∀ (c : Nat) (rd rs1 : BitVec 5),
    GoesTo (.fence c) c (fun k => k.pc + 4) ∧ GoesTo (.fenceI c) c (fun k => k.pc + 4) ∧
    Raises (.ecall c) c 12 0 (fun _ => 0) ∧ Raises (.ebreak c) c 13 0 (fun _ => 0) ∧
    (∀ s, Issues c s →
      let k := s.core c
      let m := k.g rs1
      let e := events s c &&& m
      (m = 0 → ∃ t, exec (.waite c rd rs1) s = .next t ∧ Takes c 1 0 (BitVec.ofNat 32 (encLR 0x1E rd.toNat rs1.toNat 0 0x020)) s t) ∧
      (e ≠ 0 → ∃ t, exec (.waite c rd rs1) s = .next t ∧
        Retires c (({ k with wake := k.wake && !e.getLsbD 1, run := .running }.setG rd e).after (k.pc + 4)) s t) ∧
      (m ≠ 0 → e = 0 → ∃ t, exec (.waite c rd rs1) s = .next t ∧ t.core c = { k with run := .waiting m rd rs1 } ∧
        (∀ d, d ≠ c → t.core d = s.core d) ∧ Changes [.cores] [] s t)) ∧
    ∀ s m, On s → c < 272 → (c < 256 → s.frozen = false) → (s.core c).run = .waiting m rd rs1 → events s c &&& m ≠ 0 →
      ∃ t, exec (.waiteWake c) s = .next t ∧
        Retires c (({ s.core c with wake := (s.core c).wake && !(events s c &&& m).getLsbD 1, run := .running }.setG rd (events s c &&& m)).after
          ((s.core c).pc + 4)) s t

/-- rd takes the register's value and the register the value of rs1 (CSRRW), or its bits set (CSRRS) or cleared (CSRRC): shown for TNS_EPC, TNS_XVAL, TNS_VBASE (bits [8:0] reserved), TNS_RSP, TNS_RSLO and TNS_RSHI (bits [1:0] reserved), TNS_AMB0 to 3 and TNS_STATUS. CSRRS and CSRRC with g0 read TNS_RSCOUNT and TNS_WORDS without fault, the low word latching the high one, which 0x023 then gives once. Any access to a number not in the table, and a write to TNS_RSCOUNT, raise illegal-instruction with the word in TNS_XVAL. Cites: 05_tilth32.md, R116, R117. -/
def Obligations.ControlRegisters : Prop :=
  ∀ (c : Nat) (rd rs1 : BitVec 5) (s : State), Issues c s →
    let k := s.core c
    let v := k.g rs1
    let moved (i : Instr) (k' : Core) : Prop := ∃ t, exec i s = .next t ∧ Retires c (k'.after (k.pc + 4)) s t
    let ill (i : Instr) (op imm : Nat) : Prop := ∃ t, exec i s = .next t ∧ Takes c 1 0 (BitVec.ofNat 32 (encLI op rd.toNat rs1.toNat imm)) s t
    moved (.csrrw c rd rs1 0x001) { k.setG rd k.epc with epc := v } ∧
    moved (.csrrw c rd rs1 0x003) { k.setG rd k.xval with xval := v } ∧
    moved (.csrrw c rd rs1 0x004) { k.setG rd k.vbase with vbase := v &&& 0xFFFFFE00 } ∧
    moved (.csrrw c rd rs1 0x007) { k.setG rd k.rsp with rsp := v &&& 0xFFFFFFFC } ∧
    moved (.csrrw c rd rs1 0x008) { k.setG rd k.rslo with rslo := v &&& 0xFFFFFFFC } ∧
    moved (.csrrw c rd rs1 0x009) { k.setG rd k.rshi with rshi := v &&& 0xFFFFFFFC } ∧
    (∀ m : Fin 4, moved (.csrrw c rd rs1 (BitVec.ofNat 15 (0x010 + m))) { k.setG rd k.amb[m] with amb := k.amb.set m v }) ∧
    (v.getLsbD 2 = k.inx → moved (.csrrw c rd rs1 0x000)
      { k.setG rd (BitVec.ofNat 32 (k.thr.toNat * 256 + (if k.inx then 4 else 0) + (if k.pie then 2 else 0) + (if k.ie then 1 else 0))) with
        thr := v.extractLsb' 8 4, pie := v.getLsbD 1, ie := v.getLsbD 0 }) ∧
    (rs1 ≠ 0 → moved (.csrrs c rd rs1 0x001) { k.setG rd k.epc with epc := k.epc ||| v } ∧
      moved (.csrrc c rd rs1 0x001) { k.setG rd k.epc with epc := k.epc &&& ~~~v } ∧
      ill (.csrrs c rd rs1 0x006) 0x20 0x006 ∧ ill (.csrrc c rd rs1 0x006) 0x21 0x006) ∧
    (rs1 = 0 → moved (.csrrs c rd rs1 0x006) (k.setG rd (BitVec.ofNat 32 k.rstack.length)) ∧
      moved (.csrrc c rd rs1 0x006) (k.setG rd (BitVec.ofNat 32 k.rstack.length)) ∧
      moved (.csrrs c rd rs1 0x022) { k.setG rd (k.words.extractLsb' 0 32) with wordsHi := some (k.words.extractLsb' 32 32) } ∧
      ∀ h, k.wordsHi = some h → moved (.csrrs c rd rs1 0x023) { k.setG rd h with wordsHi := none }) ∧
    ill (.csrrw c rd rs1 0x006) 0x1F 0x006 ∧ ill (.csrrw c rd rs1 0x031) 0x1F 0x031 ∧ ill (.csrrs c rd rs1 0x00A) 0x20 0x00A ∧ ill (.csrrc c rd rs1 0x018) 0x21 0x018

/-- Where ie is 1, inx is 0 and the EIC offers source n above thr, a running core saves the first word not executed in TNS_EPC, sets intr and the source number in TNS_CAUSE, pie 1, ie 0 and inx 1, and goes to the vector address that the EIC supplies; the source's pending bit falls and its active bit rises; TNS_XVAL is free (log entry 168). A store to TNS_KERNEL_END by a core that runs its part of a kernel ends it with the 16-bit code and stops the core. A store to TNS_TRACE makes an event record of the core's group with the word, where the Sieve takes records and the FIFO has room; the rest of its payload is free; it changes nothing outside the Sieve but the freeze flag that a trigger may set. Cites: 05_tilth32.md, 06_tensor_work_and_residency.md, R141, R159, R461, R483. -/
def Obligations.InterruptsAndKernelStores : Prop :=
  ∀ (c : Nat) (s : State), c < 256 → ArrayRuns s →
    (∀ src, irqOffered s c = some src → (s.core c).ie = true → (s.core c).inx = false → (s.core c).run = .running →
      ∃ t, exec (.interruptTake c) s = .next t ∧
        t.core c = { s.core c with
          epc := (s.core c).pc, cause := BitVec.ofNat 32 (2 ^ 31 + (coreCluster c * 1024 + src)), xval := (t.core c).xval, pie := true, ie := false, inx := true,
          resv := none, run := .running,
          pc := BitVec.ofNat 32 (s.reg .eicVbase (16 * coreCluster c + c % 16) + 32 * s.fld .eicSrcCfg 31 24 (256 * coreCluster c + src)) } ∧
        (∀ d, d ≠ c → t.core d = s.core d) ∧
        Changes [.cores, .irq, .fresh] [.eicPending, .eicActive, .eicMask] s t) ∧
    (∀ item K, kernelOf s c = some (item, K) → (∀ e ∈ K.ended, e.1 ≠ c) → coreIssues s c = true → ∀ code : BitVec 16,
      ∃ t, exec (.kernelEndStore c code) s = .next t ∧
        t.work.kernels.find item = some { K with ended := K.ended ++ [(c, code.toNat)] } ∧ (t.core c).run = .stopped ∧
        (t.core c).gpr = (s.core c).gpr ∧ (∀ d, d ≠ c → t.core d = s.core d) ∧ Changes [.cores, .work] [] s t) ∧
    (coreIssues s c = true → ∀ v : Word, ∃ t, exec (.tidyTraceStore c v) s = .next t ∧
      Changes [.sieve, .frozen, .fresh] [.sivStatus, .sivDrops, .sivTrigLate] s t ∧ t.fresh = s.fresh + 1 ∧
      let die := coreDie c + 1
      let src := (128 + coreDie c * 32 + coreCluster c % 8 * 4) * 64 + c % 16
      let key := die * 1024 + src / 64
      (sieveOn s die = true → natBit (s.reg .sivEn (32 * die + src / 64 / 32)) (src / 64 % 32) = true → (s.sieve.fifo.get key []).length < 16 →
        ∃ d, d.length = 16 ∧ (t.sieve.fifo.get key []).getLast? = some { time := s.ft.now, source := src, loc := !s.ft.valid, payload := .event (leBytes 4 v.toNat ++ d) }))

/-- For MOV.S to MAX.S (the SR forms of sop 0 and 1): where the core issues the pair, the pair is legal (log entries 36 and 37 say how R121 is read) and the other operation is no load or store, exec answers a next state in which both operations' results, computed from the registers before the word, stand in their registers, the pc is where a branch in the other slot goes, or at the next word, and nothing else differs. Cites: 05_tilth32.md, R120, R121, R122. -/
def Obligations.ShortResults : Prop :=
  ∀ (c : Nat) (ra rb : BitVec 4),
    PairGives (fun sl o => .movS c sl ra rb o) (shortSR 0 0 ra rb) c (ra.zeroExtend 5) (fun k => k.g (rb.zeroExtend 5)) ∧
    PairGives (fun sl o => .addS c sl ra rb o) (shortSR 0 1 ra rb) c (ra.zeroExtend 5) (fun k => k.g (ra.zeroExtend 5) + k.g (rb.zeroExtend 5)) ∧
    PairGives (fun sl o => .subS c sl ra rb o) (shortSR 0 2 ra rb) c (ra.zeroExtend 5) (fun k => k.g (ra.zeroExtend 5) - k.g (rb.zeroExtend 5)) ∧
    PairGives (fun sl o => .andS c sl ra rb o) (shortSR 0 3 ra rb) c (ra.zeroExtend 5) (fun k => k.g (ra.zeroExtend 5) &&& k.g (rb.zeroExtend 5)) ∧
    PairGives (fun sl o => .orS c sl ra rb o) (shortSR 0 4 ra rb) c (ra.zeroExtend 5) (fun k => k.g (ra.zeroExtend 5) ||| k.g (rb.zeroExtend 5)) ∧
    PairGives (fun sl o => .xorS c sl ra rb o) (shortSR 0 5 ra rb) c (ra.zeroExtend 5) (fun k => k.g (ra.zeroExtend 5) ^^^ k.g (rb.zeroExtend 5)) ∧
    PairGives (fun sl o => .sllS c sl ra rb o) (shortSR 0 6 ra rb) c (ra.zeroExtend 5) (fun k => k.g (ra.zeroExtend 5) <<< ((k.g (rb.zeroExtend 5)).toNat % 32)) ∧
    PairGives (fun sl o => .srlS c sl ra rb o) (shortSR 0 7 ra rb) c (ra.zeroExtend 5) (fun k => k.g (ra.zeroExtend 5) >>> ((k.g (rb.zeroExtend 5)).toNat % 32)) ∧
    PairGives (fun sl o => .sraS c sl ra rb o) (shortSR 1 0 ra rb) c (ra.zeroExtend 5) (fun k => (k.g (ra.zeroExtend 5)).sshiftRight ((k.g (rb.zeroExtend 5)).toNat % 32)) ∧
    PairGives (fun sl o => .mulS c sl ra rb o) (shortSR 1 1 ra rb) c (ra.zeroExtend 5) (fun k => k.g (ra.zeroExtend 5) * k.g (rb.zeroExtend 5)) ∧
    PairGives (fun sl o => .sltS c sl ra rb o) (shortSR 1 2 ra rb) c (ra.zeroExtend 5) (fun k => if (k.g (ra.zeroExtend 5)).toInt < (k.g (rb.zeroExtend 5)).toInt then 1 else 0) ∧
    PairGives (fun sl o => .sltuS c sl ra rb o) (shortSR 1 3 ra rb) c (ra.zeroExtend 5) (fun k => if (k.g (ra.zeroExtend 5)).toNat < (k.g (rb.zeroExtend 5)).toNat then 1 else 0) ∧
    PairGives (fun sl o => .negS c sl ra rb o) (shortSR 1 4 ra rb) c (ra.zeroExtend 5) (fun k => -(k.g (rb.zeroExtend 5))) ∧
    PairGives (fun sl o => .notS c sl ra rb o) (shortSR 1 5 ra rb) c (ra.zeroExtend 5) (fun k => ~~~(k.g (rb.zeroExtend 5))) ∧
    PairGives (fun sl o => .minS c sl ra rb o) (shortSR 1 6 ra rb) c (ra.zeroExtend 5) (fun k => if (k.g (ra.zeroExtend 5)).toInt ≤ (k.g (rb.zeroExtend 5)).toInt then k.g (ra.zeroExtend 5) else k.g (rb.zeroExtend 5)) ∧
    PairGives (fun sl o => .maxS c sl ra rb o) (shortSR 1 7 ra rb) c (ra.zeroExtend 5) (fun k => if (k.g (rb.zeroExtend 5)).toInt ≤ (k.g (ra.zeroExtend 5)).toInt then k.g (ra.zeroExtend 5) else k.g (rb.zeroExtend 5))

/-- ADDI.S and LI.S take a signed 7-bit immediate, SLLI.S, SRLI.S and SRAI.S a 5-bit amount. BEQZ.S and BNEZ.S, which only slot 1 may hold, go to the word at their signed offset where the register that they name is zero, or is not, as it was before the word, and otherwise to the next word; in slot 0 they make the pair illegal. Completion and frame as for ShortResults. Cites: 05_tilth32.md, R120, R121, R122. -/
def Obligations.ShortImmediatesAndBranches : Prop :=
  ∀ (c : Nat) (ra : BitVec 4) (imm : BitVec 7) (sh : BitVec 5),
    PairGives (fun sl o => .addiS c sl ra imm o) (shortSI 2 ra imm.toNat) c (ra.zeroExtend 5) (fun k => k.g (ra.zeroExtend 5) + imm.signExtend 32) ∧
    PairGives (fun sl o => .liS c sl ra imm o) (shortSI 3 ra imm.toNat) c (ra.zeroExtend 5) (fun _ => imm.signExtend 32) ∧
    PairGives (fun sl o => .slliS c sl ra sh o) (shortSI 4 ra sh.toNat) c (ra.zeroExtend 5) (fun k => k.g (ra.zeroExtend 5) <<< sh.toNat) ∧
    PairGives (fun sl o => .srliS c sl ra sh o) (shortSI 4 ra (32 + sh.toNat)) c (ra.zeroExtend 5) (fun k => k.g (ra.zeroExtend 5) >>> sh.toNat) ∧
    PairGives (fun sl o => .sraiS c sl ra sh o) (shortSI 4 ra (64 + sh.toNat)) c (ra.zeroExtend 5) (fun k => (k.g (ra.zeroExtend 5)).sshiftRight sh.toNat) ∧
    ∀ (o : ShortOp) (s : State), Issues c s →
      let k := s.core c
      let goes (taken : Bool) (i : Instr) : Prop := ∃ t, exec i s = .next t ∧
        Retires c ((k.setAll (shortEff k o).writes).after (if taken then k.pc + BitVec.ofInt 32 (4 * imm.toInt) else k.pc + 4)) s t
      (Pairs .s1 (shortSI 11 ra imm.toNat) o → goes (decide (k.g (ra.zeroExtend 5) = 0)) (.beqzS c .s1 ra imm o)) ∧
      (Pairs .s1 (shortSI 12 ra imm.toNat) o → goes (decide (k.g (ra.zeroExtend 5) ≠ 0)) (.bnezS c .s1 ra imm o)) ∧
      (shortReserved o = false →
        (∃ t, exec (.beqzS c .s0 ra imm o) s = .next t ∧ Takes c 2 0 (BitVec.ofNat 32 (encPair (shortSI 11 ra imm.toNat) o)) s t) ∧
        (∃ t, exec (.bnezS c .s0 ra imm o) s = .next t ∧ Takes c 2 0 (BitVec.ofNat 32 (encPair (shortSI 12 ra imm.toNat) o)) s t))

/-- LW.S and SW.S access the word at rb plus 4 times their 3-bit offset; LWP.S and SWP.S the word at rb, which then grows by 4 times the offset plus 1; LB.S to SH.S the byte or half-word at rb. A load leaves its value, extended, in ra; a store leaves the register's bytes in core memory, cluster memory or Silt and every other byte as before; both operations read their registers before either writes. Cites: 05_tilth32.md, R121, R122, R126, R127. -/
def Obligations.ShortLoadsAndStores : Prop :=
  ∀ (c : Nat) (ra rb : BitVec 4) (sub : BitVec 3),
    PairLoads (fun sl o => .lwS c sl ra rb sub o) (shortSR 5 sub.toNat ra rb) c (ra.zeroExtend 5) (fun k => (k.g (rb.zeroExtend 5)).toNat + 4 * sub.toNat) 4 false (fun _ => []) ∧
    PairStores (fun sl o => .swS c sl ra rb sub o) (shortSR 6 sub.toNat ra rb) c (ra.zeroExtend 5) (fun k => (k.g (rb.zeroExtend 5)).toNat + 4 * sub.toNat) 4 (fun _ => []) ∧
    PairLoads (fun sl o => .lwpS c sl ra rb sub o) (shortSR 7 sub.toNat ra rb) c (ra.zeroExtend 5) (fun k => (k.g (rb.zeroExtend 5)).toNat) 4 false (fun k => [((rb.zeroExtend 5), k.g (rb.zeroExtend 5) + BitVec.ofNat 32 (4 * (sub.toNat + 1)))]) ∧
    PairStores (fun sl o => .swpS c sl ra rb sub o) (shortSR 8 sub.toNat ra rb) c (ra.zeroExtend 5) (fun k => (k.g (rb.zeroExtend 5)).toNat) 4 (fun k => [((rb.zeroExtend 5), k.g (rb.zeroExtend 5) + BitVec.ofNat 32 (4 * (sub.toNat + 1)))]) ∧
    PairLoads (fun sl o => .lbS c sl ra rb o) (shortSR 9 0 ra rb) c (ra.zeroExtend 5) (fun k => (k.g (rb.zeroExtend 5)).toNat) 1 true (fun _ => []) ∧
    PairLoads (fun sl o => .lbuS c sl ra rb o) (shortSR 9 1 ra rb) c (ra.zeroExtend 5) (fun k => (k.g (rb.zeroExtend 5)).toNat) 1 false (fun _ => []) ∧
    PairLoads (fun sl o => .lhS c sl ra rb o) (shortSR 9 2 ra rb) c (ra.zeroExtend 5) (fun k => (k.g (rb.zeroExtend 5)).toNat) 2 true (fun _ => []) ∧
    PairLoads (fun sl o => .lhuS c sl ra rb o) (shortSR 9 3 ra rb) c (ra.zeroExtend 5) (fun k => (k.g (rb.zeroExtend 5)).toNat) 2 false (fun _ => []) ∧
    PairStores (fun sl o => .sbS c sl ra rb o) (shortSR 9 4 ra rb) c (ra.zeroExtend 5) (fun k => (k.g (rb.zeroExtend 5)).toNat) 1 (fun _ => []) ∧
    PairStores (fun sl o => .shS c sl ra rb o) (shortSR 9 5 ra rb) c (ra.zeroExtend 5) (fun k => (k.g (rb.zeroExtend 5)).toNat) 2 (fun _ => [])

/-- LWM.S and SWM.S access the word at rb within the modulo buffer of their set and move rb by 4 within it; a pointer outside raises the address-mode exception where it is aligned. A word with a reserved short operation raises illegal-instruction, before the pairing rules; a word without one that breaks a rule of R121 (slot 1 reads or writes what slot 0 writes, two loads or stores, a branch in slot 0) raises illegal-pair; both leave every register, memory and the return stack unchanged, as Takes says. Log entries 36 and 37 are the reading of R121. Cites: 05_tilth32.md, R121, R123, R128, R138. -/
def Obligations.ShortModuloAndIllegalWords : Prop :=
  ∀ (c : Nat) (ra rb : BitVec 4) (m : BitVec 2),
    (∀ sl o s arr, Issues c s →
      let k := s.core c
      let base := k.amb.toList.getD m.toNat 0
      let mlen := (k.amc.toList.getD m.toNat 0).toNat % 2 ^ 24
      let off := (k.g (rb.zeroExtend 5) - base).toNat
      let next := base + BitVec.ofNat 32 ((off + 4) % mlen)
      let pc := (shortEff k o).target.getD (k.pc + 4)
      (off < mlen ∧ off + 4 ≤ mlen → Pairs sl (shortSR 10 m.toNat ra rb) o → Reads s c (k.g (rb.zeroExtend 5)).toNat 4 arr → ∃ t, exec (.lwmS c sl ra rb m o) s = .next t ∧
        Retires c (((k.paired sl [((rb.zeroExtend 5), next)] o).setG (ra.zeroExtend 5) (BitVec.ofNat 32 (s.loadNum arr 4))).after pc) s t) ∧
      (off < mlen ∧ off + 4 ≤ mlen → Pairs sl (shortSR 10 (4 + m.toNat) ra rb) o → Writes s c (k.g (rb.zeroExtend 5)).toNat 4 arr → ∃ t, exec (.swmS c sl ra rb m o) s = .next t ∧
        Stores c ((k.paired sl [((rb.zeroExtend 5), next)] o).after pc) arr (leBytes 4 (k.g (ra.zeroExtend 5)).toNat) s t) ∧
      (¬ (off < mlen ∧ off + 4 ≤ mlen) → (k.g (rb.zeroExtend 5)).toNat % 4 = 0 →
        (Pairs sl (shortSR 10 m.toNat ra rb) o → ∃ t, exec (.lwmS c sl ra rb m o) s = .next t ∧ Takes c 5 0 (k.g (rb.zeroExtend 5)) s t) ∧
        (Pairs sl (shortSR 10 (4 + m.toNat) ra rb) o → ∃ t, exec (.swmS c sl ra rb m o) s = .next t ∧ Takes c 5 0 (k.g (rb.zeroExtend 5)) s t))) ∧
    ∀ o s, Issues c s →
      let own := shortSR 0 1 ra rb
      let word := BitVec.ofNat 32 (encPair own o)
      (shortReserved o = true → ∃ t, exec (.addS c .s0 ra rb o) s = .next t ∧ Takes c 1 0 word s t) ∧
      (shortReserved o = false → (ra.zeroExtend 5) ≠ (0 : BitVec 5) → ((ra.zeroExtend 5) ∈ shortReads o ∨ (ra.zeroExtend 5) ∈ shortWrites o) → ∃ t, exec (.addS c .s0 ra rb o) s = .next t ∧ Takes c 2 0 word s t) ∧
      (shortReserved o = false → shortMem o = true → ∃ t, exec (.lbS c .s0 ra rb o) s = .next t ∧
        Takes c 2 0 (BitVec.ofNat 32 (encPair (shortSR 9 0 ra rb) o)) s t)

/-- Where main power is up and firmware, or PF0 in D0 in its BAR0, writes an existing register that no rule gives an effect of its own: a value with a reserved encoding changes nothing (R4); otherwise a 32-bit register takes the value by its fields' access codes (R3), and a 64-bit register takes it in the word written, the other word standing. Nothing else changes. Cites: 00_scope.md, 21_register_windows_and_keep.md. -/
def Obligations.RegisterWrites : Prop :=
  ∀ (a : Agent) (r : Reg) (s : State), regExists r = true → MainUp s → (a = .firmware ∨ a = .pf0 ∧ regPlace r = .bar0 ∧ pfServes s .pf0 = true) →
    r.name ∉ [.tcmpCtl, .tcmpTarget, .tcmpArg, .tnsReach, .tnsSrSeed, .cadDomainCtl, .cadDomainLr, .cadDomainGscale, .cadCkptCtl, .cadCkptPeriod,
      .cadCkptDeadline, .cadDeepCtl, .cadRecoveryCtl, .mbxEvtStatus, .nvmeCc, .msixEntry, .sivCtl] → ∀ v : Word,
    (regReserved r.name v.toNat = true → ∀ high, exec (.registerWrite a r high v) s = .next s) ∧
    (regReserved r.name v.toNat = false →
      (r.name.info.width = 32 → exec (.registerWrite a r false v) s =
        .next (s.setReg r.name (applyFields (s.reg r.name r.idx) v.toNat r.name.info.fields) r.idx)) ∧
      (r.name.info.width = 64 → ∃ t u, exec (.registerWrite a r false v) s = .next t ∧ exec (.registerWrite a r true v) s = .next u ∧
        t = s.setReg r.name (applyFields (s.reg r.name r.idx) (s.reg r.name r.idx / 2 ^ 32 * 2 ^ 32 + v.toNat) r.name.info.fields) r.idx ∧
        u = s.setReg r.name (applyFields (s.reg r.name r.idx) (s.reg r.name r.idx % 2 ^ 32 + v.toNat * 2 ^ 32) r.name.info.fields) r.idx))

/-- For every register of the tables and every field of it: after a write an RO field holds what it held, an RW field the written bits, a W1C field its old bits without those written 1; a bit that no field covers keeps its value. Cites: 00_scope.md. -/
def Obligations.AccessCodes : Prop :=
  ∀ (n : RegName) (old v : Nat),
    (∀ f ∈ n.info.fields, natBits (applyFields old v n.info.fields) f.hi f.lo = match f.acc with
      | .ro => natBits old f.hi f.lo
      | .rw => natBits v f.hi f.lo
      | .w1c => natBits old f.hi f.lo - Nat.land (natBits old f.hi f.lo) (natBits v f.hi f.lo)) ∧
    ∀ i, (∀ f ∈ n.info.fields, i < f.lo ∨ f.hi < i) → natBit (applyFields old v n.info.fields) i = natBit old i

/-- A read of the low word of an existing 64-bit register returns the low half of the register's value and latches the high half for the reader (R6). The next read of its high word by the same reader returns the latched half, whatever the register holds by then, and uses the latch up; without that latch a read of the high word returns the live value. A read of a 32-bit register's word as a low word changes nothing. Cites: 00_scope.md. -/
def Obligations.LatchedReads : Prop :=
  ∀ (a : Agent) (r : Reg) (s : State), regExists r = true → MainUp s →
    (r.name.info.width = 64 → ∃ t, exec (.reg64LowWordRead a r) s = .next t ∧ t.readVal = regValue s r % 2 ^ 32 ∧
      t.latch.find a = some (r, regValue s r / 2 ^ 32) ∧ (∀ b, b ≠ a → t.latch.find b = s.latch.find b) ∧ Changes [.readVal, .latch] [] s t ∧
      ∀ u : State, u.latch.find a = t.latch.find a → (regRead a r true u).1 = regValue s r / 2 ^ 32 ∧ (regRead a r true u).2.latch.find a = none) ∧
    (r.name.info.width = 64 → (∀ w, s.latch.find a ≠ some (r, w)) → regRead a r true s = (regValue s r / 2 ^ 32, s)) ∧
    (r.name.info.width = 32 → exec (.reg64LowWordRead a r) s = .next s)

/-- For every agent that may write the word and is not locked out of it (PF0 in D0, an SPDM requester with an open session), a write whose bits (but the reserved ones) are the word's present value succeeds: no keep word, no copy in the Kiln, no waiting write and no count changes, PF0 finds SUCCESS in its KEEP_WIN_STATUS, and nothing else changes. Cites: R517. -/
def Obligations.KeepSameValue : Prop :=
  ∀ (a : Agent) (w : Nat) (v : Word) (i : KeepInfo) (s : State), MainUp s → (a = .pf0 → pfServes s .pf0 = true) → (a = .spdm → spdmOpen s = true) →
    keepInfo w = some i → keepMayWrite a w i = true → keepLocked s a i = false → keepReserved w (s.kw w) (Nat.land v.toNat i.mask) = false →
    Nat.land v.toNat i.mask = s.kw w →
    ∃ t, exec (.keepWrite a w v) s = .next t ∧ t.keep = s.keep ∧ (a = .pf0 → t.fld .keepWinStatus 31 16 0 = 0) ∧
      Changes [] (if a = .pf0 then [.keepWinStatus] else []) s t

/-- A change that every check accepts (the writer's class R521, the locks R414, the reserved values R4, the directions of KM fields R520, the freeze R519) is read at once, waits for the Kiln and counts; the count 1.8 x 10^8 reports the word worn, 2 x 10^8 frozen. A change that a check refuses leaves every keep word as it was and stands in KEEP_WIN_STATUS with its status, one more failure (saturating) and the word's number. A queued word reaches the Kiln whole, and is read as before (R516). (For the source of fabric time, word 21, see FabricTimeSources.) Cites: 00_scope.md, 16_security.md, 21_register_windows_and_keep.md. -/
def Obligations.KeepWordWrites : Prop :=
  (∀ (w : Nat) (v : Word) (i : KeepInfo) (s : State), MainUp s → pfServes s .pf0 = true → w ≠ kFtCtl → keepInfo w = some i →
    (keepRefusal s .pf0 w v.toNat = none → Nat.land v.toNat i.mask ≠ s.kw w → ∃ t, exec (.keepWrite .pf0 w v) s = .next t ∧
      t.keepWord w = { s.keepWord w with value := Nat.land v.toNat i.mask, queued := true, changes := (s.keepWord w).changes + 1 } ∧
      (∀ x, x ≠ w → t.keepWord x = s.keepWord x) ∧ t.fld .keepWinStatus 31 16 0 = 0 ∧
      ((s.keepWord w).changes + 1 ≠ keepWornAt → (s.keepWord w).changes + 1 ≠ keepRated → Changes [.keep] [.keepWinStatus] s t) ∧
      ((s.keepWord w).changes + 1 = keepWornAt → t.reg .keepWorn = min (s.reg .keepWorn + 1) (2 ^ 32 - 1)) ∧
      ((s.keepWord w).changes + 1 = keepRated → t.reg .keepFrozenWords = min (s.reg .keepFrozenWords + 1) (2 ^ 32 - 1))) ∧
    (∀ e, keepRefusal s .pf0 w v.toNat = some e → ∃ t, exec (.keepWrite .pf0 w v) s = .next t ∧ t.keep = s.keep ∧
      t.fld .keepWinStatus 31 16 0 = e.toNat ∧ t.fld .keepWinStatus 15 0 0 = min (s.fld .keepWinStatus 15 0 0 + 1) (2 ^ 16 - 1) ∧
      t.reg .keepWinFault 0 = w ∧
      Changes [] (if e = St.keepProtected then [.keepWinStatus, .keepWinFault, .dbgIgnored] else [.keepWinStatus, .keepWinFault]) s t)) ∧
  (∀ (s : State) (w : Nat) (v : Word) (i : KeepInfo), keepInfo w = some i → keepMayWrite .pf0 w i = true → keepLocked s .pf0 i = false →
    keepReserved w (s.kw w) (Nat.land v.toNat i.mask) = false → Nat.land v.toNat i.mask ≠ s.kw w →
    (keepMonotonic w (s.kw w) (Nat.land v.toNat i.mask) = true → keepRefusal s .pf0 w v.toNat = some St.keepMonotonic) ∧
    (keepMonotonic w (s.kw w) (Nat.land v.toNat i.mask) = false → 200000000 ≤ (s.keepWord w).changes → keepRefusal s .pf0 w v.toNat = some St.keepFrozen)) ∧
  ∀ (w : Nat) (s : State), MainUp s → ∃ t, exec (.keepPersist w) s = .next t ∧
    ((s.keepWord w).queued = true → t.keepWord w = { s.keepWord w with kiln := s.kw w, queued := false }) ∧
    ((s.keepWord w).queued = false → t = s) ∧ (∀ x, x ≠ w → t.keepWord x = s.keepWord x) ∧ Changes [.keep] [] s t

/-- A change of HUB_FT_CTL.source takes effect at once: to none, FREE; from FREE, ACQUIRING; from LOCKED, HOLDOVER; the count of good intervals starts again and fabric time runs on. In LOCKED a measured offset up to 1 us replaces any slew with its correction and one above 1 us holds over; a Sync counts only with a master and a path delay. A Sync in PPS with PTP gives the time of day only. A sync loss leaves LOCKED for HOLDOVER and no other state. A first or better Announce selects its master and port and asks for a new path delay; a delay message gives it. Cites: 02_fabric_time_and_steeps.md. -/
def Obligations.FabricTimeSources : Prop :=
  (∀ (a : Agent) (v : Word) (s : State), MainUp s → (a = .firmware ∨ a = .pf0) → s.kw kFtCtl < 4 → (s.keepWord kFtCtl).changes < keepRated → s.ftSource ≠ v.toNat % 4 → 
    ∃ t, exec (.ftSourceWrite a v) s = .next t ∧ t.ftSource = v.toNat % 4 ∧ t.ft.good = 0 ∧ t.ft.now = s.ft.now ∧ t.ft.valid = s.ft.valid ∧ t.ft.state = (if v.toNat % 4 = 0 then .free else match s.ft.state with
      | .free => .acquiring
      | .acquiring => .acquiring
      | .locked => .holdover
      | .holdover => .holdover)) ∧
  (∀ (off : Int) (s : State), On s → (s.ft.master = none ∨ s.ft.pathDelay = none) → 
    exec (.ptpSyncMessage off) s = .next (s)) ∧
  (∀ (off : Int) (s : State), On s → s.ft.master ≠ none → s.ft.pathDelay ≠ none → s.ftSource = 1 → s.ft.valid = true → s.ft.state = .locked → off ≠ 0 → (-1000 ≤ off ∧ off ≤ 1000) → 
    ∃ t, exec (.ptpSyncMessage off) s = .next t ∧ t.ft = { s.ft with slew := -off, errBound := 50 + off.natAbs }) ∧
  (∀ (off : Int) (s : State), On s → s.ft.master ≠ none → s.ft.pathDelay ≠ none → s.ftSource = 1 → s.ft.valid = true → s.ft.state = .locked → (off < -1000 ∨ 1000 < off) → 
    ∃ t, exec (.ptpSyncMessage off) s = .next t ∧ t.ft = { s.ft with state := .holdover, good := 0, holdAcc := 0 }) ∧
  (∀ (off : Int) (s : State), On s → s.ft.master ≠ none → s.ft.pathDelay ≠ none → s.ftSource = 1 → s.ft.valid = true → s.ft.state = .holdover → (-10000 ≤ off ∧ off ≤ -25 ∨ 25 ≤ off) → 
    ∃ t, exec (.ptpSyncMessage off) s = .next t ∧ t.ft = { s.ft with state := .acquiring, good := 0, slew := -off }) ∧
  (∀ (off : Int) (s : State), On s → s.ft.master ≠ none → s.ft.pathDelay ≠ none → s.ftSource = 2 → s.ft.valid = true → 
    ∃ t, exec (.ptpSyncMessage off) s = .next t ∧ t.ft = { s.ft with todHeld := true }) ∧
  (∀ (off : Int) (s : State), On s → s.ft.master ≠ none → s.ft.pathDelay ≠ none → (s.ftSource = 0 ∨ s.ftSource = 3) → 
    ∃ t, exec (.ptpSyncMessage off) s = .next t ∧ t.ft = s.ft) ∧
  (∀ (s : State), On s → s.ft.state = .locked → 
    ∃ t, exec (.ftSyncLoss) s = .next t ∧ t.ft = { s.ft with state := .holdover, good := 0, holdAcc := 0 } ∧ Changes [.strata, .sieve, .irq, .ft, .frozen, .out] [.sivStatus, .sivTrigLate] s t) ∧
  (∀ (s : State), On s → s.ft.state ≠ .locked → 
    exec (.ftSyncLoss) s = .next (s)) ∧
  (∀ (m : PtpAnnounce) (s : State), On s → m.port ≤ 8 → (s.ftSource = 1 ∨ s.ftSource = 2) → s.ft.master = none → 
    exec (.ptpAnnounce m) s = .next ({ s with ft := { s.ft with master := some m, port := m.port, pathDelay := none } })) ∧
  (∀ (m o : PtpAnnounce) (s : State), On s → m.port ≤ 8 → (s.ftSource = 1 ∨ s.ftSource = 2) → s.ft.master = some o → (o.master ≠ m.master ∨ o.port ≠ m.port) → 
    exec (.ptpAnnounce m) s = .next (if m.priority < o.priority then { s with ft := { s.ft with master := some m, port := m.port, pathDelay := none } } else s)) ∧
  (∀ (m o : PtpAnnounce) (s : State), On s → m.port ≤ 8 → (s.ftSource = 1 ∨ s.ftSource = 2) → s.ft.master = some o → o.master = m.master → o.port = m.port → 
    exec (.ptpAnnounce m) s = .next ({ s with ft := { s.ft with master := some m } })) ∧
  (∀ (d : Nat) (s : State), On s → 
    exec (.ptpDelayMessage d) s = .next (if s.ft.master = none then s else { s with ft := { s.ft with pathDelay := some d } }))

/-- An edge of PPS_IN in a PPS mode and LOCKED corrects fabric time toward its nearest whole second (up to 1 us) or holds over; with set seconds waiting the edge answers the request and uses it up. The end of a slew brings time forward by what a forward slew still owed and ends it. PPS_OUT rises at the next whole second in LOCKED and HOLDOVER only. FT_SET_SECONDS waits for its edge in PPS with set time and is refused with UNSUPPORTED in every other mode; with no edge in time it completes with RETRY and fabric time is unchanged. Cites: 02_fabric_time_and_steeps.md. -/
def Obligations.FabricTimeSteps : Prop :=
  (∀ (s : State), On s → (s.ftSource = 2 ∨ s.ftSource = 3) → s.ft.setSecs = none → s.ft.valid = true → s.ft.state = .locked → secondOffset s.ft.now ≠ 0 → (secondOffset s.ft.now).natAbs ≤ 1000 → 
    ∃ t, exec (.ppsInEdge) s = .next t ∧ t.ft = { s.ft with slew := -secondOffset s.ft.now, errBound := 50 + (secondOffset s.ft.now).natAbs }) ∧
  (∀ (s : State), On s → (s.ftSource = 2 ∨ s.ftSource = 3) → s.ft.setSecs = none → s.ft.valid = true → s.ft.state = .locked → 1000 < (secondOffset s.ft.now).natAbs → 
    ∃ t, exec (.ppsInEdge) s = .next t ∧ t.ft = { s.ft with state := .holdover, good := 0, holdAcc := 0 }) ∧
  (∀ (s : State), On s → (s.ftSource = 0 ∨ s.ftSource = 1) → 
    ∃ t, exec (.ppsInEdge) s = .next t ∧ t.ft = s.ft) ∧
  (∀ (c : Caller) (n : Nat) (s : State), On s → s.ftSource = 3 → s.ft.setSecs = some (c, n) → (s.mailbox c).busy = true → 
    ∃ t, exec (.ppsInEdge) s = .next t ∧ t.ft.setSecs = none ∧ (t.mailbox c).done = true ∧ (t.mailbox c).busy = false) ∧
  (∀ (s : State), On s → 
    ∃ t, exec (.ftSlewComplete) s = .next t ∧ t.ft = { s.ft with now := s.ft.now + s.ft.slew.toNat, slew := 0, slewAcc := 0, errBound := if s.ft.valid then 50 else s.ft.errBound } ∧ Changes [.ft, .cmp] [.tcmpCtl] s t) ∧
  (∀ (s : State), On s → 
    exec (.ppsOutSecond) s = .next (if s.ft.state = .locked ∨ s.ft.state = .holdover then
      { s with ft := { s.ft with now := max s.ft.now ((s.ft.now + 999999999) / 1000000000 * 1000000000) }, pwr := { s.pwr with ppsOut := s.pwr.ppsOut + 1 } }
    else s)) ∧
  (∀ (c : Caller) (n : Nat) (f : Frame) (s : State), On s → Serves c 0x100C f s → s.ftSource = 3 → 
    exec (.ftSetSeconds c n) s = .next ({ s with ft := { s.ft with setSecs := some (c, n % 2 ^ 64) }, mbx := s.mbx.set c { s.mailbox c with committed := true } })) ∧
  (∀ (c : Caller) (n : Nat) (f : Frame) (s : State), On s → Serves c 0x100C f s → s.ftSource ≠ 3 → 
    exec (.ftSetSeconds c n) s = .next (mbxReply c { status := St.unsupported } s)) ∧
  (∀ (c : Caller) (n : Nat) (s : State), On s → s.ft.setSecs = some (c, n) → 
    exec (.ftSetSecondsTimeout) s = .next (mbxReply c { status := St.retry } { s with ft := { s.ft with setSecs := none } })) ∧
  (∀ (s : State), On s → s.ft.setSecs = none → 
    exec (.ftSetSecondsTimeout) s = .next (s))

/-- A write of TCMP_CTL by one who does not hold the comparator is ignored and counted. By its holder: a reserved mode or action is ignored whole, as is a steep target of 2^48 or more; with enable 0 the comparator is disarmed; with enable 1 it is armed with its fields, target and argument, and its overrun count is cleared. A target already passed makes it owe one late fire: a one-shot keeps its target, a periodic one takes the next point of its grid and counts the periods passed less one. In phase mode a boundary already applied gives the time it waits for. Cites: 02_fabric_time_and_steeps.md. -/
def Obligations.ComparatorArming : Prop :=
  (∀ (a : Agent) (die idx : Nat) (v : Word) (s : State), die ≤ 2 → idx ≤ 63 → MainUp s → cmpMayWrite s a (cmpKey die idx) = false → 
    exec (.tcmpCtlWrite a die idx v) s = .next (s.bump .dbgIgnored)) ∧
  (∀ (a : Agent) (die idx : Nat) (v : Word) (s : State), die ≤ 2 → idx ≤ 63 → MainUp s → cmpMayWrite s a (cmpKey die idx) = true → (natBits v.toNat 2 1 = 3 ∨ 8 < natBits v.toNat 15 12) → 
    exec (.tcmpCtlWrite a die idx v) s = .next (s)) ∧
  (∀ (a : Agent) (die idx : Nat) (v : Word) (s : State), die ≤ 2 → idx ≤ 63 → MainUp s → cmpMayWrite s a (cmpKey die idx) = true → natBits v.toNat 2 1 ≠ 3 → natBits v.toNat 15 12 ≤ 8 → natBit v.toNat 0 = true → natBits v.toNat 2 1 ≠ 0 → 2 ^ 48 ≤ s.reg .tcmpTarget (cmpKey die idx) → 
    exec (.tcmpCtlWrite a die idx v) s = .next (s)) ∧
  (∀ (a : Agent) (die idx : Nat) (v : Word) (s : State), die ≤ 2 → idx ≤ 63 → MainUp s → cmpMayWrite s a (cmpKey die idx) = true → natBits v.toNat 2 1 ≠ 3 → natBits v.toNat 15 12 ≤ 8 → natBit v.toNat 0 = false → 
    ∃ t, exec (.tcmpCtlWrite a die idx v) s = .next t ∧ t.cmp.armed.find (cmpKey die idx) = none ∧ t.reg .tcmpCtl (cmpKey die idx) = applyFields (s.reg .tcmpCtl (cmpKey die idx)) v.toNat RegName.tcmpCtl.info.fields % 2 ^ 32 ∧ Changes [.cmp] [.tcmpCtl] s t) ∧
  (∀ (a : Agent) (die idx : Nat) (v : Word) (s : State), die ≤ 2 → idx ≤ 63 → MainUp s → cmpMayWrite s a (cmpKey die idx) = true → natBits v.toNat 2 1 ≠ 3 → natBits v.toNat 15 12 ≤ 8 → natBit v.toNat 0 = true → natBits v.toNat 2 1 = 0 → (s.ft.valid = false ∨ s.ft.now ≤ s.reg .tcmpTarget (cmpKey die idx)) → 
    ∃ t, exec (.tcmpCtlWrite a die idx v) s = .next t ∧ t.cmp.armed.find (cmpKey die idx) = some { mode := .time, periodic := natBit v.toNat 3, domain := natBits v.toNat 21 16, action := natBits v.toNat 15 12, written := s.reg .tcmpTarget (cmpKey die idx), target := s.reg .tcmpTarget (cmpKey die idx), arg := s.reg .tcmpArg (cmpKey die idx), armer := (match a with | .core id => some id | _ => none) } ∧ t.fld .tcmpCtl 31 24 (cmpKey die idx) = 0 ∧ Changes [.cmp] [.tcmpCtl] s t) ∧
  (∀ (a : Agent) (die idx : Nat) (v : Word) (s : State), die ≤ 2 → idx ≤ 63 → MainUp s → cmpMayWrite s a (cmpKey die idx) = true → natBits v.toNat 2 1 ≠ 3 → natBits v.toNat 15 12 ≤ 8 → natBit v.toNat 0 = true → natBits v.toNat 2 1 = 0 → natBit v.toNat 3 = false → s.ft.valid = true → s.reg .tcmpTarget (cmpKey die idx) < s.ft.now → 
    ∃ t, exec (.tcmpCtlWrite a die idx v) s = .next t ∧ t.cmp.armed.find (cmpKey die idx) = some { mode := .time, periodic := natBit v.toNat 3, domain := natBits v.toNat 21 16, action := natBits v.toNat 15 12, written := s.reg .tcmpTarget (cmpKey die idx), target := s.reg .tcmpTarget (cmpKey die idx), arg := s.reg .tcmpArg (cmpKey die idx), armer := (match a with | .core id => some id | _ => none), owed := true } ∧ t.fld .tcmpCtl 31 24 (cmpKey die idx) = 0 ∧ Changes [.cmp] [.tcmpCtl] s t) ∧
  (∀ (a : Agent) (die idx : Nat) (v : Word) (s : State), die ≤ 2 → idx ≤ 63 → MainUp s → cmpMayWrite s a (cmpKey die idx) = true → natBits v.toNat 2 1 ≠ 3 → natBits v.toNat 15 12 ≤ 8 → natBit v.toNat 0 = true → natBits v.toNat 2 1 = 0 → natBit v.toNat 3 = true → s.reg .tcmpArg (cmpKey die idx) ≠ 0 → s.ft.valid = true → s.reg .tcmpTarget (cmpKey die idx) < s.ft.now → 
    ∃ t, exec (.tcmpCtlWrite a die idx v) s = .next t ∧ t.cmp.armed.find (cmpKey die idx) = some { mode := .time, periodic := natBit v.toNat 3, domain := natBits v.toNat 21 16, action := natBits v.toNat 15 12, written := s.reg .tcmpTarget (cmpKey die idx), target := s.reg .tcmpTarget (cmpKey die idx) + ((s.ft.now - s.reg .tcmpTarget (cmpKey die idx)) / s.reg .tcmpArg (cmpKey die idx) + 1) * s.reg .tcmpArg (cmpKey die idx), arg := s.reg .tcmpArg (cmpKey die idx), armer := (match a with | .core id => some id | _ => none), owed := true } ∧ t.fld .tcmpCtl 31 24 (cmpKey die idx) = min ((s.ft.now - s.reg .tcmpTarget (cmpKey die idx)) / s.reg .tcmpArg (cmpKey die idx)) 255 ∧ Changes [.cmp] [.tcmpCtl] s t) ∧
  (∀ (a : Agent) (die idx : Nat) (v : Word) (s : State), die ≤ 2 → idx ≤ 63 → MainUp s → cmpMayWrite s a (cmpKey die idx) = true → natBits v.toNat 2 1 ≠ 3 → natBits v.toNat 15 12 ≤ 8 → natBit v.toNat 0 = true → natBits v.toNat 2 1 = 1 → s.reg .tcmpTarget (cmpKey die idx) < 2 ^ 48 → s.reg .cadSteepCount (natBits v.toNat 21 16) ≤ s.reg .tcmpTarget (cmpKey die idx) → 
    ∃ t, exec (.tcmpCtlWrite a die idx v) s = .next t ∧ t.cmp.armed.find (cmpKey die idx) = some { mode := .steep, periodic := natBit v.toNat 3, domain := natBits v.toNat 21 16, action := natBits v.toNat 15 12, written := s.reg .tcmpTarget (cmpKey die idx), target := s.reg .tcmpTarget (cmpKey die idx), arg := s.reg .tcmpArg (cmpKey die idx), armer := (match a with | .core id => some id | _ => none) } ∧ t.fld .tcmpCtl 31 24 (cmpKey die idx) = 0 ∧ Changes [.cmp] [.tcmpCtl] s t) ∧
  (∀ (a : Agent) (die idx : Nat) (v : Word) (s : State), die ≤ 2 → idx ≤ 63 → MainUp s → cmpMayWrite s a (cmpKey die idx) = true → natBits v.toNat 2 1 ≠ 3 → natBits v.toNat 15 12 ≤ 8 → natBit v.toNat 0 = true → natBits v.toNat 2 1 = 1 → natBit v.toNat 3 = true → s.reg .tcmpArg (cmpKey die idx) ≠ 0 → s.reg .tcmpTarget (cmpKey die idx) < 2 ^ 48 → s.reg .tcmpTarget (cmpKey die idx) < s.reg .cadSteepCount (natBits v.toNat 21 16) → 
    ∃ t, exec (.tcmpCtlWrite a die idx v) s = .next t ∧ t.cmp.armed.find (cmpKey die idx) = some { mode := .steep, periodic := natBit v.toNat 3, domain := natBits v.toNat 21 16, action := natBits v.toNat 15 12, written := s.reg .tcmpTarget (cmpKey die idx), target := s.reg .tcmpTarget (cmpKey die idx) + ((s.reg .cadSteepCount (natBits v.toNat 21 16) - s.reg .tcmpTarget (cmpKey die idx)) / s.reg .tcmpArg (cmpKey die idx) + 1) * s.reg .tcmpArg (cmpKey die idx), arg := s.reg .tcmpArg (cmpKey die idx), armer := (match a with | .core id => some id | _ => none), owed := true } ∧ t.fld .tcmpCtl 31 24 (cmpKey die idx) = min ((s.reg .cadSteepCount (natBits v.toNat 21 16) - s.reg .tcmpTarget (cmpKey die idx)) / s.reg .tcmpArg (cmpKey die idx)) 255 ∧ Changes [.cmp] [.tcmpCtl] s t) ∧
  (∀ (a : Agent) (die idx : Nat) (v : Word) (s : State), die ≤ 2 → idx ≤ 63 → MainUp s → cmpMayWrite s a (cmpKey die idx) = true → natBits v.toNat 2 1 ≠ 3 → natBits v.toNat 15 12 ≤ 8 → natBit v.toNat 0 = true → natBits v.toNat 2 1 = 2 → s.reg .tcmpTarget (cmpKey die idx) < 2 ^ 48 → (natBit v.toNat 3 = true ∨ s.dom (natBits v.toNat 21 16) = none) → 
    ∃ t, exec (.tcmpCtlWrite a die idx v) s = .next t ∧ t.cmp.armed.find (cmpKey die idx) = some { mode := .phase, periodic := natBit v.toNat 3, domain := natBits v.toNat 21 16, action := natBits v.toNat 15 12, written := s.reg .tcmpTarget (cmpKey die idx), target := s.reg .tcmpTarget (cmpKey die idx), arg := s.reg .tcmpArg (cmpKey die idx), armer := (match a with | .core id => some id | _ => none) } ∧ t.fld .tcmpCtl 31 24 (cmpKey die idx) = 0 ∧ Changes [.cmp] [.tcmpCtl] s t) ∧
  (∀ (a : Agent) (die idx : Nat) (v : Word) (D : Domain) (tb : Nat) (s : State), die ≤ 2 → idx ≤ 63 → MainUp s → cmpMayWrite s a (cmpKey die idx) = true → natBits v.toNat 2 1 ≠ 3 → natBits v.toNat 15 12 ≤ 8 → natBit v.toNat 0 = true → natBits v.toNat 2 1 = 2 → s.reg .tcmpTarget (cmpKey die idx) < 2 ^ 48 → natBit v.toNat 3 = false → s.dom (natBits v.toNat 21 16) = some D → D.lastTb.find (s.reg .tcmpTarget (cmpKey die idx)) = some tb → 
    ∃ t, exec (.tcmpCtlWrite a die idx v) s = .next t ∧ t.cmp.armed.find (cmpKey die idx) = some { mode := .phase, periodic := natBit v.toNat 3, domain := natBits v.toNat 21 16, action := natBits v.toNat 15 12, written := s.reg .tcmpTarget (cmpKey die idx), target := s.reg .tcmpTarget (cmpKey die idx), arg := s.reg .tcmpArg (cmpKey die idx), armer := (match a with | .core id => some id | _ => none), due := some (tb + s.reg .tcmpArg (cmpKey die idx)), owed := decide (tb + s.reg .tcmpArg (cmpKey die idx) < s.ft.now) } ∧ Changes [.cmp] [.tcmpCtl] s t)

/-- A comparator that is not armed, has fired or whose target is not reached does nothing (none in fabric-time mode before the first lock). A fire in fabric-time mode brings time to its target; a one-shot stays fired, a periodic one takes its next target, a late one sets the late bit and keeps the target it has. Action 0 of a tensor die raises source 64 + index in all eight clusters of the die, 8 wakes the core that armed it, 5 does nothing more. During a debug freeze the fire is held as pending, and one that finds it pending adds to the overrun; the thaw takes the held ones. A freeze and a thaw come from the debug window. Cites: 02_fabric_time_and_steeps.md. -/
def Obligations.ComparatorFires : Prop :=
  (∀ (die idx : Nat) (s : State), die ≤ 2 → idx ≤ 63 → On s → s.cmp.armed.find (cmpKey die idx) = none → 
    exec (.comparatorFire die idx) s = .next (s)) ∧
  (∀ (die idx : Nat) (a : Armed) (s : State), die ≤ 2 → idx ≤ 63 → On s → s.cmp.armed.find (cmpKey die idx) = some a → (a.fired = true ∨ a.mode = .time ∧ s.ft.valid = false ∨ a.mode = .steep ∧ a.owed = false ∧ s.reg .cadSteepCount a.domain < a.target ∨ a.mode = .phase ∧ a.due = none) → 
    exec (.comparatorFire die idx) s = .next (s)) ∧
  (∀ (die idx id : Nat) (a : Armed) (s : State), die ≤ 2 → idx ≤ 63 → On s → s.cmp.armed.find (cmpKey die idx) = some a → a.mode = .time → s.ft.valid = true → a.fired = false → s.fld .tcmpCtl 22 22 (cmpKey die idx) = 0 → s.frozen = false → a.owed = false → a.periodic = false → a.action = 8 → a.armer = some id → 
    exec (.comparatorFire die idx) s = .next ({ s with ft := { s.ft with now := max s.ft.now a.target }, cmp := { s.cmp with armed := s.cmp.armed.set (cmpKey die idx) { a with owed := false, due := none, fired := true } }, cores := s.cores.set id { s.core id with wake := true } })) ∧
  (∀ (die idx : Nat) (a : Armed) (s : State), die ≤ 2 → idx ≤ 63 → On s → s.cmp.armed.find (cmpKey die idx) = some a → a.mode = .time → s.ft.valid = true → a.fired = false → s.fld .tcmpCtl 22 22 (cmpKey die idx) = 0 → s.frozen = false → a.owed = false → a.periodic = true → a.arg ≠ 0 → a.action = 5 → 
    exec (.comparatorFire die idx) s = .next ({ s with ft := { s.ft with now := max s.ft.now a.target }, cmp := { s.cmp with armed := s.cmp.armed.set (cmpKey die idx) { a with owed := false, due := none, target := a.target + a.arg } } })) ∧
  (∀ (die idx : Nat) (a : Armed) (s : State), die ≤ 2 → idx ≤ 63 → On s → s.cmp.armed.find (cmpKey die idx) = some a → a.mode = .time → s.ft.valid = true → a.fired = false → s.fld .tcmpCtl 22 22 (cmpKey die idx) = 0 → s.frozen = false → a.owed = true → a.periodic = true → a.arg ≠ 0 → a.action = 5 → 
    ∃ t, exec (.comparatorFire die idx) s = .next t ∧ t.fld .tcmpCtl 23 23 (cmpKey die idx) = 1 ∧ t.cmp.armed.find (cmpKey die idx) = some { a with owed := false, due := none } ∧ Changes [.cmp] [.tcmpCtl] s t) ∧
  (∀ (die idx : Nat) (a : Armed) (s : State), die ≤ 2 → idx ≤ 63 → On s → s.cmp.armed.find (cmpKey die idx) = some a → a.mode = .steep → a.fired = false → a.owed = false → a.target ≤ s.reg .cadSteepCount a.domain → a.periodic = true → a.arg ≠ 0 → a.action = 5 → s.fld .tcmpCtl 22 22 (cmpKey die idx) = 0 → s.frozen = false → 
    exec (.comparatorFire die idx) s = .next ({ s with cmp := { s.cmp with armed := s.cmp.armed.set (cmpKey die idx) { a with owed := false, due := none, target := a.target + a.arg } } })) ∧
  (∀ (die idx : Nat) (a : Armed) (s : State), die ≤ 2 → idx ≤ 63 → On s → s.cmp.armed.find (cmpKey die idx) = some a → a.mode = .time → s.ft.valid = true → a.fired = false → s.fld .tcmpCtl 22 22 (cmpKey die idx) = 0 → s.frozen = false → a.owed = false → 1 ≤ die → a.action = 0 → 
    ∃ t, exec (.comparatorFire die idx) s = .next t ∧ (∀ i, i < 8 → t.eicBit .eicPending ((die - 1) * 8 + i) (64 + idx) = true) ∧ Changes [.cmp, .ft, .irq] [.eicPending] s t) ∧
  (∀ (die idx : Nat) (a : Armed) (s : State), die ≤ 2 → idx ≤ 63 → On s → s.cmp.armed.find (cmpKey die idx) = some a → a.mode = .time → s.ft.valid = true → a.fired = false → a.owed = false → a.periodic = false → s.fld .tcmpCtl 22 22 (cmpKey die idx) = 0 → s.frozen = true → 
    ∃ t, exec (.comparatorFire die idx) s = .next t ∧ t.fld .tcmpCtl 22 22 (cmpKey die idx) = 1 ∧ t.cmp.armed.find (cmpKey die idx) = some { a with owed := false, due := none, fired := true } ∧ Changes [.cmp, .ft] [.tcmpCtl] s t) ∧
  (∀ (die idx : Nat) (a : Armed) (s : State), die ≤ 2 → idx ≤ 63 → On s → s.cmp.armed.find (cmpKey die idx) = some a → a.mode = .time → s.ft.valid = true → a.fired = false → a.owed = false → a.periodic = true → a.arg ≠ 0 → s.fld .tcmpCtl 22 22 (cmpKey die idx) = 1 → 
    ∃ t, exec (.comparatorFire die idx) s = .next t ∧ t.fld .tcmpCtl 31 24 (cmpKey die idx) = min (s.fld .tcmpCtl 31 24 (cmpKey die idx) + 1) 255 ∧ t.cmp.armed.find (cmpKey die idx) = some { a with owed := false, due := none, target := a.target + a.arg } ∧ Changes [.cmp, .ft] [.tcmpCtl] s t) ∧
  (∀ (a : Agent) (s : State), MainUp s → reachesDebug s a = true → 
    exec (.debugFreezeStart a) s = .next ({ s with frozen := true })) ∧
  (∀ (a : Agent) (s : State), MainUp s → reachesDebug s a = false → 
    exec (.debugFreezeStart a) s = .next (s)) ∧
  (∀ (a : Agent) (s : State), MainUp s → reachesDebug s a = true → s.frozen = true → s.fw.shutDown = false → s.cmp.armed = [] → 
    ∃ t, exec (.debugFreezeEnd a) s = .next t ∧ t.frozen = false ∧ (∀ k, k < 192 → t.fld .tcmpCtl 22 22 k = 0) ∧ Changes [.frozen] [.tcmpCtl] s t) ∧
  (∀ (a : Agent) (id k : Nat) (x : Armed) (s : State), MainUp s → reachesDebug s a = true → s.frozen = true → s.fw.shutDown = false → k < 192 → s.fld .tcmpCtl 22 22 k = 1 → s.cmp.armed = [(k, x)] → x.action = 8 → x.armer = some id → 
    ∃ t, exec (.debugFreezeEnd a) s = .next t ∧ t.frozen = false ∧ (t.core id).wake = true ∧ Changes [.frozen, .cores] [.tcmpCtl] s t)

/-- COMPARATOR_ALLOC gives its caller the lowest free comparators of a die and names them in its reply; a die above 2 or a count of 0 is an invalid field, a count above 16 is too large, a slice gets none of the hub, and NO_COMPARATOR changes nothing. COMPARATOR_FREE disarms a comparator of the caller, discards its held fire and frees it; another's is an invalid field. STEEP_COUNT_SET sets the count of a disarmed domain of the caller; a periodic steep-mode comparator of the domain takes the first point of its grid above the count. Cites: 02_fabric_time_and_steeps.md, 17_firmware_and_mailbox.md. -/
def Obligations.ComparatorRequests : Prop :=
  (∀ (c : Caller) (die n : Byte) (l : List Nat) (f : Frame) (s : State), On s → Serves c 0x100D f s → die.toNat ≤ 2 → (1 ≤ n.toNat ∧ n.toNat ≤ 16) → (die ≠ 0 ∨ c = .pf0 ∨ c = .pf1) → cmpLowest die.toNat n.toNat s = some l → 
    exec (.comparatorAlloc c die n) s = .next (mbxReply c { results := die.toNat :: n.toNat :: l } { s with cmp := { s.cmp with owner := l.foldl (fun t i => t.set (cmpKey die.toNat i) (.caller c)) s.cmp.owner } })) ∧
  (∀ (c : Caller) (die n : Byte) (f : Frame) (s : State), On s → Serves c 0x100D f s → (1 ≤ n.toNat ∧ n.toNat ≤ 16) → die.toNat ≤ 2 → (die ≠ 0 ∨ c = .pf0 ∨ c = .pf1) → cmpLowest die.toNat n.toNat s = none → 
    exec (.comparatorAlloc c die n) s = .next (mbxReply c { status := St.noComparator } s)) ∧
  (∀ (c : Caller) (die n : Byte) (f : Frame) (s : State), On s → Serves c 0x100D f s → 2 < die.toNat → 
    exec (.comparatorAlloc c die n) s = .next (mbxReply c { status := St.invalidField, field := Config.payloadOffset 0x100D 0 % 65536 } s)) ∧
  (∀ (c : Caller) (die n : Byte) (f : Frame) (s : State), On s → Serves c 0x100D f s → die.toNat ≤ 2 → n = 0 → 
    exec (.comparatorAlloc c die n) s = .next (mbxReply c { status := St.invalidField, field := Config.payloadOffset 0x100D 1 % 65536 } s)) ∧
  (∀ (c : Caller) (die n : Byte) (f : Frame) (s : State), On s → Serves c 0x100D f s → die.toNat ≤ 2 → 16 < n.toNat → 
    exec (.comparatorAlloc c die n) s = .next (mbxReply c { status := St.lenTooLarge, field := Config.payloadOffset 0x100D 1 % 65536 } s)) ∧
  (∀ (k : Nat) (die n : Byte) (f : Frame) (s : State), On s → Serves (.slice k) 0x100D f s → die = 0 → (1 ≤ n.toNat ∧ n.toNat ≤ 16) → 
    exec (.comparatorAlloc (.slice k) die n) s = .next (mbxReply (.slice k) { status := St.unsupported } s)) ∧
  (∀ (c : Caller) (die n : Byte) (f : Frame) (s : State), On s → Serves c 0x100F f s → die.toNat ≤ 2 → n.toNat ≤ 63 → s.cmp.owner.get (cmpKey die.toNat n.toNat) .free = .caller c → 
    exec (.comparatorFree c die n) s = .next (mbxReply c {} { (s.setFld .tcmpCtl 0 0 0 (cmpKey die.toNat n.toNat)).setFld .tcmpCtl 22 22 0 (cmpKey die.toNat n.toNat) with cmp := { s.cmp with armed := s.cmp.armed.del (cmpKey die.toNat n.toNat), owner := s.cmp.owner.del (cmpKey die.toNat n.toNat) } })) ∧
  (∀ (c : Caller) (die n : Byte) (f : Frame) (s : State), On s → Serves c 0x100F f s → die.toNat ≤ 2 → (63 < n.toNat ∨ s.cmp.owner.get (cmpKey die.toNat n.toNat) .free ≠ .caller c) → 
    exec (.comparatorFree c die n) s = .next (mbxReply c { status := St.invalidField, field := Config.payloadOffset 0x100F 1 % 65536 } s)) ∧
  (∀ (c : Caller) (d : Nat) (n : BitVec 48) (D : Domain) (f : Frame) (s : State), On s → Serves c 0x3008 f s → s.dom d = some D → D.owner = ownerOf c → isArmed s d = false → 
    ∃ t, exec (.steepCountSet c d n) s = .next t ∧ Answered c St.success [] t ∧ t.reg .cadSteepCount d = n.toNat ∧ Changes [.mbx, .irq, .out, .cmp] [.cadSteepCount] s t) ∧
  (∀ (c : Caller) (d k : Nat) (n : BitVec 48) (D : Domain) (a : Armed) (f : Frame) (s : State), On s → Serves c 0x3008 f s → s.dom d = some D → D.owner = ownerOf c → isArmed s d = false → s.cmp.armed = [(k, a)] → a.domain = d → a.mode = .steep → a.periodic = true → a.arg ≠ 0 → 
    ∃ t, exec (.steepCountSet c d n) s = .next t ∧ t.cmp.armed = [(k, { a with target := gridAbove a.written a.arg n.toNat })]) ∧
  (∀ (c : Caller) (d : Nat) (n : BitVec 48) (D : Domain) (f : Frame) (s : State), On s → Serves c 0x3008 f s → s.dom d = some D → D.owner = ownerOf c → isArmed s d = true → 
    exec (.steepCountSet c d n) s = .next (mbxReply c { status := St.domainArmed } s)) ∧
  (∀ written period now : Nat, 0 < period → now < gridAbove written period now ∧ gridAbove written period now ≤ now + period ∧ (∃ j : Int, (gridAbove written period now : Int) = written + j * period))

/-- The oldest queued record enters its slot of the Kiln, with the repeats it has gathered since, and leaves the queue; with none nothing happens. Records lost in a second are told of once in the first record of the next, with their count and the first one's code. A time mark takes a record with the next number; where it would directly follow a time mark it is merged into it, taking no number. A new event that is not a repeat of the last record takes the next number and joins the queue where the second's allowance and the queue have room. Cites: 19_strata_and_sieve.md. -/
def Obligations.StrataRecords : Prop :=
  (∀ (q : List StrataRec) (r : StrataRec) (s : State), MainUp s → s.strata.queue = r :: q → (s.strata.last = none ∨ s.strata.last.map (fun l => l.seq) ≠ some r.seq) → 
    exec (.strataRecordWrite) s = .next ({ s with strata := { s.strata with queue := q, kiln := s.strata.kiln.set (strataSlot r.seq) r } })) ∧
  (∀ (q : List StrataRec) (r l : StrataRec) (s : State), MainUp s → s.strata.queue = r :: q → s.strata.last = some l → l.seq = r.seq → 
    exec (.strataRecordWrite) s = .next ({ s with strata := { s.strata with queue := q, kiln := s.strata.kiln.set (strataSlot r.seq) l } })) ∧
  (∀ (s : State), MainUp s → s.strata.queue = [] → 
    exec (.strataRecordWrite) s = .next (s)) ∧
  (∀ (s : State), MainUp s → s.strata.lostNow = 0 → 
    exec (.strataLossRecord) s = .next (s)) ∧
  (∀ (s : State), MainUp s → 0 < s.strata.lostNow → s.strata.lostNow < 2 ^ 32 → s.strata.second < s.localSec → s.strata.last = none → 
    exec (.strataLossRecord) s = .next ({ s with strata := { s.strata with second := s.localSec, used := 1, lostNow := 0, nextSeq := s.strata.nextSeq + 1, last := some { kind := .loss, code := St.recordsLost, sev := .warning, a32 := s.strata.lostNow, a0 := s.strata.lostFirst.toNat, seq := s.strata.nextSeq, boot := s.bootCount % 65536 }, queue := s.strata.queue ++ [{ kind := .loss, code := St.recordsLost, sev := .warning, a32 := s.strata.lostNow, a0 := s.strata.lostFirst.toNat, seq := s.strata.nextSeq, boot := s.bootCount % 65536 }] } })) ∧
  (∀ (s : State), MainUp s → 0 < s.strata.lostNow → s.strata.second = s.localSec → 
    ∃ t, exec (.strataLossRecord) s = .next t ∧ t.pwr.localNs = (s.strata.second + 1) * 1000000000 ∧ t.strata.second = s.strata.second + 1 ∧ t.strata.lostNow = 0 ∧ t.strata.used = 1 ∧ t.strata.nextSeq = s.strata.nextSeq + 1 ∧ Changes [.strata, .pwr] [] s t) ∧
  (∀ (l : StrataRec) (s : State), MainUp s → s.strata.second = s.localSec → s.strata.last = some l → l.kind = .timeMark → l.repeats < 16777215 → s.strata.kiln.find (strataSlot l.seq) = none → 
    exec (.timeMark) s = .next ({ s with strata := { s.strata with last := some { l with a1 := s.ft.now, a3 := s.localSec, repeats := l.repeats + 1 } } })) ∧
  (∀ (l : StrataRec) (s : State), MainUp s → s.strata.second = s.localSec → s.strata.last = some l → l.kind ≠ .timeMark → s.strata.kiln.find (strataSlot l.seq) = none → s.strata.used < 16320 → s.strata.queue.length < 1024 → 
    ∃ t, exec (.timeMark) s = .next t ∧ t.strata.queue = s.strata.queue ++ [{ kind := .timeMark, code := 0, sev := .advisory, a32 := ftStatus s, a0 := s.ft.now, a1 := s.ft.now, a2 := s.ft.errBound, a3 := s.localSec, seq := s.strata.nextSeq, boot := s.bootCount % 65536 }] ∧ t.strata.nextSeq = s.strata.nextSeq + 1 ∧ t.strata.used = s.strata.used + 1 ∧ Changes [.strata] [] s t) ∧
  (∀ (r : StrataRec) (s : State), s.strata.second = s.localSec → (∀ l, s.strata.last = some l → l.same r = false) → s.strata.queue.length < 1024 →
    s.strata.used < (if r.sev = .fatal ∨ r.sev = .error then 16384 else 16320) →
    (logRec r s).strata.queue = s.strata.queue ++ [{ r with seq := s.strata.nextSeq, boot := s.bootCount % 65536 }] ∧
    (logRec r s).strata.nextSeq = s.strata.nextSeq + 1 ∧ Changes [.strata, .sieve, .frozen] [.sivStatus, .sivTrigLate] s (logRec r s)) ∧
  (∀ n, n < 8192 → strataSlot n = n) ∧ (∀ n, 8192 ≤ n → 8192 ≤ strataSlot n ∧ strataSlot n < 139264 ∧ strataSlot (n + 131072) = strataSlot n)

/-- With its cause enabled in triggered mode the first trigger while armed writes the trigger record and makes the state POST, with freeze also freezes; a later one counts as late and changes nothing; a disabled cause does nothing. A cross-trigger takes effect where the other die has triggered. EIC_SWI makes source 16 + v pending; EIC_COMPLETE clears the active bit of an active source and counts a bad completion otherwise; the end of a hold-off forgets the last take; the end of an entry's interval sends its message, or sets pending where it is masked. A debug request outside reads and writes answers INVALID_FIELD. Cites: 18_interrupts.md, 19_strata_and_sieve.md. -/
def Obligations.TriggersAndInterrupts : Prop :=
  (∀ (die : Nat) (v : Word) (s : State), die ≤ 2 → MainUp s → natBit (s.reg .sivTrigCause die) 4 = false → 
    exec (.sivTrigNow die v) s = .next (s)) ∧
  (∀ (die : Nat) (v : Word) (s : State), die ≤ 2 → On s → natBit (s.reg .sivTrigCause die) 4 = true → s.fld .sivCtl 2 1 die = 1 → s.fld .sivCtl 31 31 die = 1 → s.fld .sivStatus 31 30 die = 1 → 
    ∃ t, exec (.sivTrigNow die v) s = .next t ∧ t.fld .sivStatus 31 30 die = 2 ∧ t.sieve.trig.find die = some { time := s.ft.now, source := 0, loc := !s.ft.valid, payload := .trigger 5 die s.ft.now } ∧ t.frozen = (s.frozen || s.fld .sivCtl 30 30 die == 1) ∧ t.fld .sivStatus 18 0 die = s.fld .sivStatus 18 0 die ∧ Changes [.sieve, .frozen] [.sivStatus] s t) ∧
  (∀ (die : Nat) (v : Word) (s : State), die ≤ 2 → MainUp s → natBit (s.reg .sivTrigCause die) 4 = true → s.fld .sivCtl 2 1 die = 1 → (s.fld .sivStatus 31 30 die = 2 ∨ s.fld .sivStatus 31 30 die = 3) → 
    exec (.sivTrigNow die v) s = .next (s.bump .sivTrigLate die)) ∧
  (∀ (die o : Nat) (s : State), die ≤ 2 → o ≤ 2 → On s → (die = o ∨ s.fld .sivStatus 31 30 o < 2 ∨ natBit (s.reg .sivTrigCause die) 2 = false) → 
    exec (.crossTrigger die o) s = .next (s)) ∧
  (∀ (die o : Nat) (s : State), die ≤ 2 → o ≤ 2 → On s → die ≠ o → 2 ≤ s.fld .sivStatus 31 30 o → natBit (s.reg .sivTrigCause die) 2 = true → s.fld .sivCtl 2 1 die = 1 → s.fld .sivCtl 31 31 die = 1 → s.fld .sivStatus 31 30 die = 1 → 
    ∃ t, exec (.crossTrigger die o) s = .next t ∧ t.fld .sivStatus 31 30 die = 2 ∧ t.sieve.trig.find die = some { time := s.ft.now, source := 0, loc := !s.ft.valid, payload := .trigger 3 o s.ft.now } ∧ Changes [.sieve, .frozen] [.sivStatus] s t) ∧
  (∀ (off : Nat) (v : Word) (s : State), MainUp s → 
    exec (.debugUdpRequest .other off v) s = .next (s.emit (.debugReply .other off v.toNat St.invalidField))) ∧
  (∀ (v : Word) (s : State), MainUp s → 
    exec (.debugUdpRequest .read 8 v) s = .next (s.emit (.debugReply .read 8 (s.reg .dbgAccessErr % 2 ^ 32) St.success))) ∧
  (∀ (v : Word) (s : State), MainUp s → v = 1 → 
    exec (.debugUdpRequest .write 4 v) s = .next ({ s with frozen := true }.emit (.debugReply .write 4 1 St.success))) ∧
  (∀ (off : Nat) (v : Word) (s : State), MainUp s → (0x400000 ≤ off ∧ off < 0xD00000) → off % 4 = 0 → 
    exec (.debugUdpRequest .write off v) s = .next ((s.bump .strViewWrites).emit (.debugReply .write off v.toNat St.success))) ∧
  (∀ (off : Nat) (v : Word) (s : State), MainUp s → off % 4 ≠ 0 → 
    exec (.debugUdpRequest .read off v) s = .next ((s.bump .dbgAccessErr).emit (.debugReply .read off 0 St.success))) ∧
  (∀ (cl : Nat) (v : Word) (s : State), cl ≤ 15 → On s → v.toNat % 1024 < 256 → s.eicBit .eicActive cl (v.toNat % 1024) = true → 
    ∃ t, exec (.eicComplete cl v) s = .next t ∧ t.eicBit .eicActive cl (v.toNat % 1024) = false ∧ (∀ x, x < 256 → x ≠ v.toNat % 1024 → t.eicBit .eicActive cl x = s.eicBit .eicActive cl x) ∧ Changes [] [.eicActive] s t) ∧
  (∀ (cl : Nat) (v : Word) (s : State), cl ≤ 15 → On s → (256 ≤ v.toNat % 1024 ∨ s.eicBit .eicActive cl (v.toNat % 1024) = false) → 
    exec (.eicComplete cl v) s = .next (s.bump .eicBadComplete cl)) ∧
  (∀ (cl : Nat) (v : Word) (s : State), cl ≤ 15 → On s → 
    ∃ t, exec (.eicSwi cl v) s = .next t ∧ t.eicBit .eicPending cl (16 + v.toNat % 32) = true ∧ (∀ x, x < 256 → x ≠ 16 + v.toNat % 32 → t.eicBit .eicPending cl x = s.eicBit .eicPending cl x) ∧ Changes [.irq] [.eicPending] s t) ∧
  (∀ (cl src : Nat) (s : State), cl ≤ 15 → src ≤ 255 → On s → 
    exec (.eicModerationExpiry cl src) s = .next ({ s with irq := { s.irq with lastTake := s.irq.lastTake.del (256 * cl + src) } })) ∧
  (∀ (o : Caller) (e : Nat) (s : State), On s → ((s.irqEntry o e).acc = 0 ∨ (s.irqEntry o e).interval = 0) → 
    exec (.irqModerationInterval o e) s = .next (s)) ∧
  (∀ (o : Caller) (e : Nat) (s : State), On s → (s.irqEntry o e).acc ≠ 0 → (s.irqEntry o e).interval ≠ 0 → msiBlocked s o (s.irqEntry o e) = true → 
    exec (.irqModerationInterval o e) s = .next ({ s with irq := { s.irq with entries := s.irq.entries.set (o, e) { s.irqEntry o e with pending := true } } })) ∧
  (∀ (o : Caller) (e : Nat) (s : State), On s → (s.irqEntry o e).acc ≠ 0 → (s.irqEntry o e).interval ≠ 0 → msiBlocked s o (s.irqEntry o e) = false → 
    exec (.irqModerationInterval o e) s = .next ({ s with irq := { s.irq with entries := s.irq.entries.set (o, e) { s.irqEntry o e with pending := false, acc := 0 } } }.emit (.msi o e)))

/-- A doorbell of 1 in a free mailbox makes its frame the request: busy 1, done 0, taken at once where the mailbox service runs and held where it does not; in a busy mailbox it is only counted as overrun (saturating); any other value does nothing; a mailbox that may not be written ignores it (a slice's page counts it). A held request is taken once the service runs. A reply makes done 1 and busy 0 and carries the request's opcode and sequence number. A pop removes the oldest event. NEGOTIATE answers version 1.0 and the features that both sides have, and VERSION_MISMATCH for another major version. Cites: 17_firmware_and_mailbox.md, 12_slices.md. -/
def Obligations.MailboxProtocol : Prop :=
  (∀ (c : Caller) (v : Word) (op sq ln : BitVec 16) (fl : Byte) (s : State), On s → mbxWritable s c = true → v = 1 → (s.mailbox c).busy = false → 
    exec (.mbxDoorbell c v op sq ln fl) s = .next ({ s with mbx := s.mbx.set c { s.mailbox c with frame := some { opcode := op.toNat, seq := sq.toNat, length := ln.toNat, flags := fl.toNat }, busy := true, done := false, taken := svcRuns s svcMailbox } })) ∧
  (∀ (c : Caller) (v : Word) (op sq ln : BitVec 16) (fl : Byte) (s : State), On s → mbxWritable s c = true → v = 1 → (s.mailbox c).busy = true → 
    exec (.mbxDoorbell c v op sq ln fl) s = .next ({ s with mbx := s.mbx.set c { s.mailbox c with overrun := min ((s.mailbox c).overrun + 1) 65535 } })) ∧
  (∀ (c : Caller) (v : Word) (op sq ln : BitVec 16) (fl : Byte) (s : State), On s → mbxWritable s c = true → v ≠ 1 → 
    exec (.mbxDoorbell c v op sq ln fl) s = .next (s)) ∧
  (∀ (k : Nat) (v : Word) (op sq ln : BitVec 16) (fl : Byte) (s : State), On s → mbxWritable s (.slice k) = false → 
    exec (.mbxDoorbell (.slice k) v op sq ln fl) s = .next (if sliceLive s k then s.bump .slcDbIgnored k else s.bump .dbgIgnored)) ∧
  (∀ (c : Caller) (v : Word) (op sq ln : BitVec 16) (fl : Byte) (s : State), On s → (c = .pf0 ∨ c = .pf1) → mbxWritable s c = false → 
    exec (.mbxDoorbell c v op sq ln fl) s = .next (s)) ∧
  (∀ (c : Caller) (s : State), On s → (s.mailbox c).busy = true → (s.mailbox c).taken = false → svcRuns s svcMailbox = true → 
    exec (.mailboxHeldRequest c) s = .next ({ s with mbx := s.mbx.set c { s.mailbox c with taken := true } })) ∧
  (∀ (c : Caller) (s : State), On s → ((s.mailbox c).busy = false ∨ (s.mailbox c).taken = true ∨ svcRuns s svcMailbox = false) → 
    exec (.mailboxHeldRequest c) s = .next (s)) ∧
  (∀ (c : Caller) (s : State), On s → mbxWritable s c = true → 
    exec (.mbxEvtPop c) s = .next ({ s with mbx := s.mbx.set c { s.mailbox c with events := (s.mailbox c).events.tail } })) ∧
  (∀ (c : Caller) (mi : Byte) (ft : BitVec 256) (f : Frame) (s : State), On s → Serves c 0xA001 f s → 
    exec (.negotiate c 1 mi ft) s = .next (mbxReply c { results := [1, 0, (ft &&& 0x1FFFF).toNat] } { s with mbx := s.mbx.set c { s.mailbox c with negotiated := some (0, ft &&& 0x1FFFF) } })) ∧
  (∀ (c : Caller) (ma mi : Byte) (ft : BitVec 256) (f : Frame) (s : State), On s → Serves c 0xA001 f s → ma ≠ 1 → 
    exec (.negotiate c ma mi ft) s = .next (mbxReply c { status := St.versionMismatch, results := [1, 0] } s)) ∧
  ∀ (c : Caller) (r : Reply) (s : State), (s.mailbox c).busy = true → Answered c r.status r.results (mbxReply c r s) r.field ∧
    ((mbxReply c r s).mailbox c).frame = none ∧ ((mbxReply c r s).mailbox c).taken = false ∧
    (∀ f, (s.mailbox c).frame = some f → ((mbxReply c r s).mailbox c).reply.map (fun x => (x.opcode, x.seq)) = some (f.opcode, f.seq)) ∧
    (∀ d, d ≠ c → (mbxReply c r s).mailbox d = s.mailbox d) ∧ Changes [.mbx, .irq, .out] [] s (mbxReply c r s)

/-- From EMPTY an open makes the stage STAGING for its caller; a write then copies bytes of the caller's buffer into the staging area; a close makes it STAGED, an activation ARMED (saying whether it is deferred), a disarm STAGED again, a discard EMPTY unless armed. A request of the other function while one stages is FW_BUSY, one at a wrong stage FW_STATE, and neither changes anything. FW_STATUS gives the stage, copy step, last result, the four versions, the emergency and shutdown words and the deferred flag. Cites: 17_firmware_and_mailbox.md. -/
def Obligations.FirmwareStaging : Prop :=
  (∀ (c : Caller) (f : Frame) (s : State), On s → Serves c 0x1002 f s → fwStage s = 0 → (s.keepWord kFwState).changes + 2 < keepRated → 
    ∃ t, exec (.fwStageOpen c) s = .next t ∧ Answered c St.success [] t ∧ fwStage t = 1 ∧ natBits (t.kw kFwState) 15 8 = stagingOwner c ∧ t.fw.stagedLen = 0) ∧
  (∀ (c : Caller) (f : Frame) (s : State), On s → Serves c 0x1002 f s → (fwStage s ≠ 1 ∨ natBits (s.kw kFwState) 15 8 = stagingOwner c) → fwStage s ≠ 0 → 
    exec (.fwStageOpen c) s = .next (mbxReply c { status := St.fwState } s)) ∧
  (∀ (c : Caller) (f : Frame) (s : State), On s → Serves c 0x1002 f s → fwStage s = 1 → natBits (s.kw kFwState) 15 8 ≠ stagingOwner c → 
    exec (.fwStageOpen c) s = .next (mbxReply c { status := St.fwBusy } s)) ∧
  (∀ (c : Caller) (o n b : Nat) (f : Frame) (s : State), On s → Serves c 0x1003 f s → (fwStage s ≠ 1 ∨ natBits (s.kw kFwState) 15 8 = stagingOwner c) → fwStage s = 1 → indirectRefusal c f s = none → (0 < n ∧ n ≤ 16777216) → o + n ≤ 268435456 → bufferRefusal c b n true s = none → 
    exec (.fwStageWrite c o n b) s = .next (mbxReply c {} (s.copy .staging o (callerSpace c b) b n))) ∧
  (∀ (c : Caller) (o n b : Nat) (f : Frame) (s : State), On s → Serves c 0x1003 f s → (fwStage s ≠ 1 ∨ natBits (s.kw kFwState) 15 8 = stagingOwner c) → fwStage s = 1 → indirectRefusal c f s = none → (0 < n ∧ n ≤ 16777216) → 268435456 < o + n → 
    exec (.fwStageWrite c o n b) s = .next (mbxReply c { status := St.addrRange, field := Config.payloadOffset 0x1003 0 % 65536 } s)) ∧
  (∀ (c : Caller) (n : Nat) (f : Frame) (s : State), On s → Serves c 0x1004 f s → (fwStage s ≠ 1 ∨ natBits (s.kw kFwState) 15 8 = stagingOwner c) → fwStage s = 1 → n ≤ 268435456 → (s.keepWord kFwState).changes + 2 < keepRated → 
    ∃ t, exec (.fwStageClose c n) s = .next t ∧ Answered c St.success [] t ∧ fwStage t = 2 ∧ t.fw.stagedLen = n) ∧
  (∀ (c : Caller) (n : Nat) (f : Frame) (s : State), On s → Serves c 0x1004 f s → (fwStage s ≠ 1 ∨ natBits (s.kw kFwState) 15 8 = stagingOwner c) → fwStage s = 1 → 268435456 < n → 
    exec (.fwStageClose c n) s = .next (mbxReply c { status := St.addrRange, field := Config.payloadOffset 0x1004 0 % 65536 } s)) ∧
  (∀ (c : Caller) (f : Frame) (s : State), On s → Serves c 0x1005 f s → 2 ≤ fwStage s → (s.keepWord kFwState).changes + 2 < keepRated → 
    ∃ t, exec (.fwActivate c) s = .next t ∧ Answered c St.success [] t ∧ fwStage t = 3 ∧ (t.mailbox c).reply.map (fun r => r.deferred) = some (fwDeferred s)) ∧
  (∀ (c : Caller) (f : Frame) (s : State), On s → Serves c 0x1005 f s → (fwStage s ≠ 1 ∨ natBits (s.kw kFwState) 15 8 = stagingOwner c) → fwStage s < 2 → 
    exec (.fwActivate c) s = .next (mbxReply c { status := St.fwState } s)) ∧
  (∀ (c : Caller) (f : Frame) (s : State), On s → Serves c 0x1006 f s → fwStage s = 3 → (s.keepWord kFwState).changes + 2 < keepRated → 
    ∃ t, exec (.fwDisarm c) s = .next t ∧ Answered c St.success [] t ∧ fwStage t = 2) ∧
  (∀ (c : Caller) (f : Frame) (s : State), On s → Serves c 0x1006 f s → (fwStage s ≠ 1 ∨ natBits (s.kw kFwState) 15 8 = stagingOwner c) → fwStage s ≠ 3 → 
    exec (.fwDisarm c) s = .next (mbxReply c { status := St.fwState } s)) ∧
  (∀ (c : Caller) (f : Frame) (s : State), On s → Serves c 0x1007 f s → (fwStage s ≠ 1 ∨ natBits (s.kw kFwState) 15 8 = stagingOwner c) → fwStage s ≠ 3 → (s.keepWord kFwState).changes + 2 < keepRated → 
    ∃ t, exec (.fwDiscard c) s = .next t ∧ Answered c St.success [] t ∧ fwStage t = 0) ∧
  (∀ (c : Caller) (f : Frame) (s : State), On s → Serves c 0x1007 f s → fwStage s = 3 → 
    exec (.fwDiscard c) s = .next (mbxReply c { status := St.fwState } s)) ∧
  (∀ (c : Caller) (f : Frame) (s : State), On s → Serves c 0x1001 f s → 
    exec (.fwStatus c) s = .next (mbxReply c { results := [natBits (s.kw kFwState) 1 0, natBits (s.kw kFwState) 7 4, natBits (s.kw kFwState) 31 16, activeVersion s 1, activeVersion s 2, activeVersion s 3, activeVersion s 4, s.kw kEmerg, s.kw kShutdown, if fwDeferred s then 1 else 0] } s))

/-- A watchdog stops a running service's core, marks its registers stale, notes the crash and restarts it; the fourth crash within 600 s holds it down, or for an essential service brings Hardpan. A restart completed makes it run with its registers current. SERVICE_RESTART starts a held-down service with its crashes forgotten and changes nothing of another. LOG_READ copies the records from its start on and answers the first number and the count. A shutdown refuses new requests, freezes the array and sets KEEP_SHUTDOWN; a restart with armed domains needs force and leaves nothing of the run but what the Kiln and the board hold. Cites: 17_firmware_and_mailbox.md, 20_power_thermal_hardpan.md. -/
def Obligations.ServicesAndShutdown : Prop :=
  (∀ (n : Nat) (cz : CrashCause) (pc : Word) (b : Bool) (s : State), n ≤ 13 → On s → (s.service (serviceOf n)).state ≠ .running → 
    exec (.watchdogFire n cz pc b) s = .next (s)) ∧
  (∀ (n : Nat) (cz : CrashCause) (pc : Word) (s : State), n ≤ 13 → On s → (s.service (serviceOf n)).state = .running → ((s.service (serviceOf n)).crashes.filter (fun t => decide (s.pwr.localNs ≤ t + 600000000000))).length < 3 → 
    ∃ t, exec (.watchdogFire n cz pc false) s = .next t ∧ (t.service (serviceOf n)).state = .restarting ∧ (t.service (serviceOf n)).core = (s.service (serviceOf n)).core ∧ (t.service (serviceOf n)).crashes = s.pwr.localNs :: (s.service (serviceOf n)).crashes.filter (fun t => decide (s.pwr.localNs ≤ t + 600000000000)) ∧ (t.core (256 + (s.service (serviceOf n)).core)).run = .stopped ∧ t.fld .hubEmuStatus (serviceOf n) (serviceOf n) = 1 ∧ On t) ∧
  (∀ (n : Nat) (cz : CrashCause) (pc : Word) (b : Bool) (s : State), n ≤ 13 → On s → (s.service (serviceOf n)).state = .running → 5 ≤ serviceOf n → 3 ≤ ((s.service (serviceOf n)).crashes.filter (fun t => decide (s.pwr.localNs ≤ t + 600000000000))).length → 
    ∃ t, exec (.watchdogFire n cz pc b) s = .next t ∧ (t.service (serviceOf n)).state = .heldDown ∧ On t) ∧
  (∀ (n : Nat) (cz : CrashCause) (pc : Word) (b : Bool) (s : State), n < 5 → On s → (s.service (serviceOf n)).state = .running → 3 ≤ ((s.service (serviceOf n)).crashes.filter (fun t => decide (s.pwr.localNs ≤ t + 600000000000))).length → 
    ∃ t, exec (.watchdogFire n cz pc b) s = .next t ∧ t.pwr.state = .hardpan ∧ t.reg .pwrHardpan = St.serviceDown.toNat * 65536 + 1) ∧
  (∀ (n : Nat) (s : State), n ≤ 13 → On s → (s.service (serviceOf n)).state ≠ .restarting → 
    exec (.serviceRestartComplete n) s = .next (s)) ∧
  (∀ (n : Nat) (s : State), n ≤ 13 → On s → (s.service (serviceOf n)).state = .restarting → 
    ∃ t, exec (.serviceRestartComplete n) s = .next t ∧ t.service (serviceOf n) = { (s.service (serviceOf n)) with state := .running } ∧ t.fld .hubEmuStatus (serviceOf n) (serviceOf n) = 0 ∧ (t.core (256 + (s.service (serviceOf n)).core)).run = .running) ∧
  (∀ (c : Caller) (n : Nat) (f : Frame) (s : State), On s → Serves c 0x1009 f s → (13 < n ∨ n = 7 ∨ n = 11) → 
    exec (.serviceRestart c n) s = .next (mbxReply c { status := St.invalidField, field := Config.payloadOffset 0x1009 0 % 65536 } s)) ∧
  (∀ (c : Caller) (n : Nat) (f : Frame) (s : State), On s → Serves c 0x1009 f s → (n ≤ 13 ∧ n ≠ 7 ∧ n ≠ 11) → (s.service n).state ≠ .heldDown → 
    exec (.serviceRestart c n) s = .next (mbxReply c {} s)) ∧
  (∀ (c : Caller) (n : Nat) (f : Frame) (s : State), On s → Serves c 0x1009 f s → (n ≤ 13 ∧ n ≠ 7 ∧ n ≠ 11) → (s.service n).state = .heldDown → 
    ∃ t, exec (.serviceRestart c n) s = .next t ∧ t.service n = { s.service n with state := .running, crashes := [] } ∧ t.fld .hubEmuStatus n n = 0 ∧ (t.core (256 + (s.service n).core)).run = .running) ∧
  (∀ (c : Caller) (a n b : Nat) (f : Frame) (r : LogRec) (l : List LogRec) (s : State), On s → Serves c 0x1008 f s → indirectRefusal c f s = none → (0 < n ∧ n ≤ 16384) → (s.fw.log.filter (fun r => decide (a ≤ r.seq))).take n = r :: l → bufferRefusal c b (64 * (r :: l).length) false s = none → 
    exec (.logRead c a n b) s = .next (mbxReply c { results := [r.seq, (r :: l).length] } (s.store (callerSpace c b) b ((r :: l).map LogRec.bytes).flatten))) ∧
  (∀ (c : Caller) (a n b : Nat) (f : Frame) (s : State), On s → Serves c 0x1008 f s → indirectRefusal c f s = none → 16384 < n → 
    exec (.logRead c a n b) s = .next (mbxReply c { status := St.lenTooLarge, field := Config.payloadOffset 0x1008 1 % 65536 } s)) ∧
  (∀ (c : Caller) (f : Frame) (s : State), On s → Serves c 0x100A f s → (s.keepWord kShutdown).changes < keepRated → 
    ∃ t, exec (.shutdown c) s = .next t ∧ Answered c St.success [] t ∧ t.fw.shutDown = true ∧ t.frozen = true ∧ natBit (t.kw kShutdown) 0 = true ∧ On t) ∧
  (∀ (c : Caller) (f : Frame) (s : State), On s → Serves c 0x100B f s → armedDomains s ≠ [] → 
    exec (.deviceRestart c false) s = .next (mbxReply c { status := St.domainArmed } s)) ∧
  (∀ (c : Caller) (b : Bool) (f : Frame) (s : State), On s → Serves c 0x100B f s → (armedDomains s = [] ∨ b = true) → s.fw.shutDown = false → 
    ∃ t, exec (.deviceRestart c b) s = .next t ∧ On t ∧ t.cores = [] ∧ t.doms = [] ∧ t.mbx = [] ∧ t.slices = [] ∧ t.fw.shutDown = false ∧ t.fw.released = false ∧ t.pwr.localNs = s.pwr.localNs ∧ t.pwr.perstN = s.pwr.perstN ∧ (∀ a n, a + n ≤ 2 ^ 72 → t.bytes .array a n = List.replicate n 0))

/-- An interval's averages give the next allowance: what the setting leaves over the other blocks, up to 300 W, less an excess that no peak allows. Every temperature sample stands in PWR_TJ with the hottest of all; at 105 the throttle begins where its service runs and the floor holds where it does not, at 115 the floor holds, below 112 and 103 they end, at 125 THERMTRIP stops everything. The throttle steps 100 MHz down each 1 ms to 1.2 GHz and up each 10 ms below 100. BRAKE_N of 100 ns or more sets the floor and its alarm, a shorter pulse nothing; its end is noted; 10 ms of it mark KEEP_EMERG. Cites: 01_node_and_planes.md, 20_power_thermal_hardpan.md. -/
def Obligations.PowerAndTemperature : Prop :=
  (∀ (v o : Nat) (s : State), On s → (v ≤ s.pwr.tdpNow ∨ peakAllowed s = true) → 
    exec (.powerAverageInterval v o) s = .next ({ s with pwr := { s.pwr with average := v, allowance := min 300 (s.kw kTdp - 370 + (370 - o)), allowClk := max 12 (min 22 (Config.clockFor (min 300 (s.kw kTdp - 370 + (370 - o))))), peakMs := if s.pwr.tdpNow < v then s.pwr.peakMs + 1 else 0, quietMs := if s.pwr.tdpNow < v then 0 else min 100 (s.pwr.quietMs + 1), tdpNow := s.kw kTdp } })) ∧
  (∀ (v o : Nat) (s : State), On s → s.pwr.tdpNow < v → peakAllowed s = false → 
    exec (.powerAverageInterval v o) s = .next ({ s with pwr := { s.pwr with average := v, allowance := min 300 (s.kw kTdp - 370 + (370 - o)) - (v - s.pwr.tdpNow), allowClk := max 12 (min 22 (Config.clockFor (min 300 (s.kw kTdp - 370 + (370 - o)) - (v - s.pwr.tdpNow)))), peakMs := s.pwr.peakMs + 1, quietMs := 0, tdpNow := s.kw kTdp } })) ∧
  (∀ (h a b ha hb : List (Option Nat)) (s : State), MainUp s → (h.all (fun x => x.isSome) && a.all (fun x => x.isSome) && b.all (fun x => x.isSome) && ha.all (fun x => x.isSome) && hb.all (fun x => x.isSome)) = true → max (hottest (readings h)) (max (hottest (readings a ++ readings ha)) (hottest (readings b ++ readings hb))) < 97 → s.pwr.excluded = [] → 
    ∃ t, exec (.thermalSample h a b ha hb) s = .next t ∧ t.fld .pwrTj 7 0 = max (hottest (readings h)) (max (hottest (readings a ++ readings ha)) (hottest (readings b ++ readings hb))) ∧ t.fld .pwrTj 31 24 = hottest (readings h) ∧ t.fld .pwrTj 15 8 = hottest (readings a ++ readings ha) ∧ t.fld .pwrTj 23 16 = hottest (readings b ++ readings hb) ∧ t.pwr.tjMark = false ∧ t.pwr.throttleDown = false ∧ t.pwr.throttleClk = s.pwr.throttleClk ∧ t.pwr.floor115 = false ∧ t.pwr.floorSvc = false ∧ t.pwr.hot115 = none ∧ Changes [.pwr] [.pwrTj] s t) ∧
  (∀ (h a b ha hb : List (Option Nat)) (s : State), MainUp s → (h.all (fun x => x.isSome) && a.all (fun x => x.isSome) && b.all (fun x => x.isSome) && ha.all (fun x => x.isSome) && hb.all (fun x => x.isSome)) = true → (105 ≤ max (hottest (readings h)) (max (hottest (readings a ++ readings ha)) (hottest (readings b ++ readings hb))) ∧ max (hottest (readings h)) (max (hottest (readings a ++ readings ha)) (hottest (readings b ++ readings hb))) < 115) → thermalService s = true → s.pwr.excluded = [] → 
    ∃ t, exec (.thermalSample h a b ha hb) s = .next t ∧ t.pwr.throttleDown = true ∧ t.pwr.throttleClk = some (s.pwr.throttleClk.getD s.pwr.allowClk) ∧ t.fld .pwrAlert 2 2 = max (s.fld .pwrAlert 2 2) (if s.pwr.throttleDown then 0 else 1) ∧ t.pwr.floorSvc = false ∧ t.pwr.state = s.pwr.state) ∧
  (∀ (h a b ha hb : List (Option Nat)) (s : State), MainUp s → (h.all (fun x => x.isSome) && a.all (fun x => x.isSome) && b.all (fun x => x.isSome) && ha.all (fun x => x.isSome) && hb.all (fun x => x.isSome)) = true → (105 ≤ max (hottest (readings h)) (max (hottest (readings a ++ readings ha)) (hottest (readings b ++ readings hb))) ∧ max (hottest (readings h)) (max (hottest (readings a ++ readings ha)) (hottest (readings b ++ readings hb))) < 115) → thermalService s = false → s.pwr.excluded = [] → 
    ∃ t, exec (.thermalSample h a b ha hb) s = .next t ∧ t.pwr.floorSvc = true ∧ t.pwr.throttleClk = s.pwr.throttleClk ∧ t.pwr.state = s.pwr.state) ∧
  (∀ (h a b ha hb : List (Option Nat)) (s : State), MainUp s → (h.all (fun x => x.isSome) && a.all (fun x => x.isSome) && b.all (fun x => x.isSome) && ha.all (fun x => x.isSome) && hb.all (fun x => x.isSome)) = true → (115 ≤ max (hottest (readings h)) (max (hottest (readings a ++ readings ha)) (hottest (readings b ++ readings hb))) ∧ max (hottest (readings h)) (max (hottest (readings a ++ readings ha)) (hottest (readings b ++ readings hb))) < 125) → s.pwr.excluded = [] → 
    ∃ t, exec (.thermalSample h a b ha hb) s = .next t ∧ t.pwr.floor115 = true ∧ t.pwr.hot115 = some (s.pwr.hot115.getD s.pwr.localNs) ∧ t.pwr.state = s.pwr.state) ∧
  (∀ (h a b ha hb : List (Option Nat)) (s : State), MainUp s → (h.all (fun x => x.isSome) && a.all (fun x => x.isSome) && b.all (fun x => x.isSome) && ha.all (fun x => x.isSome) && hb.all (fun x => x.isSome)) = true → 125 ≤ max (hottest (readings h)) (max (hottest (readings a ++ readings ha)) (hottest (readings b ++ readings hb))) → s.pwr.excluded = [] → 
    ∃ t, exec (.thermalSample h a b ha hb) s = .next t ∧ t.pwr.thermtrip = true ∧ t.pwr.state = .tripped ∧ t.arr.gated = true ∧ t.pci.hostUp = false ∧ t.net.up = []) ∧
  (∀ (c : Nat) (s : State), MainUp s → thermalService s = true → s.pwr.throttleClk = some c → s.pwr.throttleDown = true → 
    exec (.throttleStep) s = .next ({ s with pwr := { s.pwr with throttleClk := some (max 12 (c - 1)) } })) ∧
  (∀ (c : Nat) (s : State), MainUp s → thermalService s = true → s.pwr.throttleClk = some c → s.pwr.throttleDown = false → s.fld .pwrTj 7 0 < 100 → 
    exec (.throttleStep) s = .next ({ s with pwr := { s.pwr with throttleClk := if s.pwr.allowClk ≤ c + 1 then none else some (c + 1) } })) ∧
  (∀ (s : State), MainUp s → (thermalService s = false ∨ s.pwr.throttleClk = none ∨ s.pwr.throttleDown = false ∧ 100 ≤ s.fld .pwrTj 7 0) → 
    exec (.throttleStep) s = .next (s)) ∧
  (∀ (n : Nat) (s : State), MainUp s → n < 100 → 
    exec (.brakeNAssert n) s = .next (s)) ∧
  (∀ (n : Nat) (s : State), MainUp s → 100 ≤ n → 
    ∃ t, exec (.brakeNAssert n) s = .next t ∧ t.pwr = { s.pwr with brake := true, brakeEnd := none } ∧ t.fld .pwrAlert 3 3 = 1 ∧ floored t = true ∧ Changes [.pwr, .mbx, .irq, .out] [.pwrAlert] s t) ∧
  (∀ (s : State), MainUp s → 
    exec (.brakeNDeassert) s = .next (if s.pwr.brake then { s with pwr := { s.pwr with brake := false, brakeEnd := some s.pwr.localNs } } else s)) ∧
  (∀ (s : State), MainUp s → s.pwr.brake = true → (s.keepWord kEmerg).changes < keepRated → 
    ∃ t, exec (.brakeLong) s = .next t ∧ t.kw kEmerg = Nat.lor (s.kw kEmerg) 4 ∧ Changes [.keep, .strata, .sieve, .frozen] [.sivStatus, .sivTrigLate, .keepWorn, .keepFrozenWords] s t) ∧
  (∀ (s : State), MainUp s → s.pwr.brake = false → 
    exec (.brakeLong) s = .next (s))

/-- A fatal hardware cause, 100 ms at 115 degrees, or a fault of an array, Silt or DDR rail while ON brings Hardpan: PWR_HARDPAN names the cause, every service stops, the array is gated with its kernels gone, owned ports are held in reset, the alarm is set. A cause that arises in Hardpan writes its record and leaves PWR_HARDPAN as it was. A rail fault of 20 us or less does nothing, and one of any other main rail holds the device in reset. Cites: 20_power_thermal_hardpan.md. -/
def Obligations.HardpanEntry : Prop :=
  (∀ (x : HwFatal) (s : State), On s → 
    ∃ t, exec (.hwFatal x) s = .next t ∧ t.pwr.state = .hardpan ∧ t.fw.released = false ∧ t.arr.gated = true ∧ t.work.kernels = [] ∧ t.fld .pwrAlert 4 4 = 1 ∧ t.reg .pwrHardpan = St.hwFatal.toNat * 65536 + 1) ∧
  (∀ (x : HwFatal) (s : State), s.pwr.state = .hardpan → 
    exec (.hwFatal x) s = .next (log St.hwFatal .fatal s (a32 := hwFatalNum x))) ∧
  (∀ (s : State), On s → s.pwr.hot115.isSome = true → 
    ∃ t, exec (.overtempTimeout) s = .next t ∧ t.pwr.state = .hardpan ∧ t.fw.released = false ∧ t.arr.gated = true ∧ t.work.kernels = [] ∧ t.fld .pwrAlert 4 4 = 1 ∧ t.reg .pwrHardpan = St.overtemp.toNat * 65536 + 1) ∧
  (∀ (s : State), MainUp s → s.pwr.hot115 = none → 
    exec (.overtempTimeout) s = .next (s)) ∧
  (∀ (r : Rail) (u : Nat) (s : State), MainUp s → u ≤ 20 → 
    exec (.railFault r u) s = .next (s)) ∧
  (∀ (r : Rail) (u : Nat) (s : State), On s → 20 < u → (r = .vddT0 ∨ r = .vddT1 ∨ r = .vddSilt ∨ r = .vddqDdr) → 
    ∃ t, exec (.railFault r u) s = .next t ∧ t.pwr.state = .hardpan ∧ t.fw.released = false ∧ t.arr.gated = true ∧ t.work.kernels = [] ∧ t.fld .pwrAlert 4 4 = 1 ∧ t.reg .pwrHardpan = St.powerFault.toNat * 65536 + 1 ∧ t.fld .pwrAlert 5 5 = 1) ∧
  (∀ (r : Rail) (u : Nat) (s : State), MainUp s → 20 < u → (r ≠ .vddT0 ∧ r ≠ .vddT1 ∧ r ≠ .vddSilt ∧ r ≠ .vddqDdr) → 
    ∃ t, exec (.railFault r u) s = .next t ∧ t.pwr.state = .heldInReset ∧ t.strata.queue = [] ∧ t.pwr.perstOut = List.replicate 8 true ∧ t.fld .pwrAlert 5 5 = 1)

/-- AUX_PG starts the island with its straps; MAIN_PG rising starts the device anew and keeps the Kiln; its fall of 1 us or more completes the Kiln writes accepted, loses Strata's queue and stops the main domain; a shorter pulse does nothing; AUX_PG falling also resets the island. A watched source wakes a sleeping system. Port p gets its power unless disabled; its PERST_OUT_N is released where its rule allows. A lost clock is recorded once and takes its links down. When phase 1 ends every service runs. Each TCK edge moves the TAP by the state diagram; shifts move one bit, updates take instruction and pins. Cites: 18_interrupts.md, 20_power_thermal_hardpan.md, 22_package_and_signals.md. -/
def Obligations.SuppliesClocksAndPins : Prop :=
  (∀ (src : BitVec 16) (s : State), src.toNat / 1024 = 17 → s.pwr.mainPg = false → s.pwr.state = .aux → s.pwr.auxPg = true → (s.fld .eicWatch 31 31 0 = 1 ∧ s.fld .eicWatch 15 0 0 = src.toNat ∧ s.fld .eicWatch 30 30 0 = 1) → 
    exec (.watcherSource src) s = .next ({ s with pwr := { s.pwr with wake := true }, pci := { s.pci with pmeStatus := s.pci.pmeEn } })) ∧
  (∀ (src : BitVec 16) (s : State), (s.pwr.mainPg = false ∧ src.toNat / 1024 ≠ 17 ∨ ((List.range 64).all (fun n => s.fld .eicWatch 31 31 n != 1 || s.fld .eicWatch 15 0 n != src.toNat)) = true) → 
    exec (.watcherSource src) s = .next (s)) ∧
  (∀ (s : State), s.pwr.mainPg = false → s.pwr.state = .aux → s.pwr.auxPg = true → (s.fld .eicWatch 31 31 0 = 1 ∧ s.fld .eicWatch 15 0 0 = 17 * 1024 + 0 ∧ s.fld .eicWatch 30 30 0 = 1) → 
    exec (.aoTimerReached) s = .next ({ s with irq := { s.irq with aoCount := max s.irq.aoCount (s.reg .eicAoTimer) }, pwr := { s.pwr with wake := true }, pci := { s.pci with pmeStatus := s.pci.pmeEn } })) ∧
  (∀ (s : State), s.pwr.auxPg = true → ((List.range 64).all (fun n => s.fld .eicWatch 31 31 n != 1 || s.fld .eicWatch 15 0 n != 17 * 1024 + 0)) = true → 
    exec (.aoTimerReached) s = .next ({ s with irq := { s.irq with aoCount := max s.irq.aoCount (s.reg .eicAoTimer) } })) ∧
  (∀ (x : BitVec 7) (s : State), x.toNat = 0x30 + s.pwr.straps % 8 → s.pwr.mainPg = false → s.pwr.state = .aux → s.pwr.auxPg = true → (s.fld .eicWatch 31 31 0 = 1 ∧ s.fld .eicWatch 15 0 0 = 17 * 1024 + 1 ∧ s.fld .eicWatch 30 30 0 = 1) → 
    exec (.i3cTransfer x) s = .next ({ s with pwr := { s.pwr with wake := true }, pci := { s.pci with pmeStatus := s.pci.pmeEn } })) ∧
  (∀ (x : BitVec 7) (s : State), x.toNat ≠ 0x30 + s.pwr.straps % 8 → 
    exec (.i3cTransfer x) s = .next (s)) ∧
  (∀ (x : Byte) (s : State), s.pwr.auxPg = false → 
    exec (.auxPgRise x) s = .next ({ s with pwr := { s.pwr with auxPg := true, state := .aux, straps := x.toNat, strapNote := decide (32 ≤ x.toNat), wake := false } })) ∧
  (∀ (n : Nat) (s : State), (n < 1000 ∨ s.pwr.auxPg = false) → 
    exec (.auxPgFall n) s = .next (s)) ∧
  (∀ (n : Nat) (s : State), 1000 ≤ n → s.pwr.auxPg = true → 
    ∃ t, exec (.auxPgFall n) s = .next t ∧ t.pwr.state = .off ∧ t.pwr.auxPg = false ∧ t.pwr.mainPg = false ∧ t.irq.aoCount = 0 ∧ t.reg .eicAoTimer = 2 ^ 64 - 1 ∧ (∀ i, t.reg .eicWatch i = 0) ∧ (∀ w, s.pwr.mainPg = true → (t.keepWord w).kiln = s.kw w ∧ t.kw w = s.kw w)) ∧
  (∀ (s : State), (s.pwr.auxPg = false ∨ s.pwr.mainPg = true) → 
    exec (.mainPgRise) s = .next (s)) ∧
  (∀ (s : State), s.pwr.auxPg = true → s.pwr.mainPg = false → 
    ∃ t, exec (.mainPgRise) s = .next t ∧ On t ∧ t.pwr.mainPg = true ∧ t.cores = [] ∧ t.doms = [] ∧ t.mbx = [] ∧ t.slices = [] ∧ t.fw.released = false ∧ t.pwr.straps = s.pwr.straps ∧ (∀ w, w ≠ kBootCount → t.kw w = (s.keepWord w).kiln) ∧ ((s.keepWord kBootCount).changes < keepRated → (s.keepWord kBootCount).kiln < 2 ^ 32 - 1 → t.kw kBootCount = (s.keepWord kBootCount).kiln + 1) ∧ (∀ a n, a + n ≤ 2 ^ 72 → t.bytes .array a n = List.replicate n 0)) ∧
  (∀ (n : Nat) (s : State), (n < 1000 ∨ s.pwr.mainPg = false) → 
    exec (.mainPgFall n) s = .next (s)) ∧
  (∀ (n : Nat) (s : State), 1000 ≤ n → s.pwr.mainPg = true → 
    ∃ t, exec (.mainPgFall n) s = .next t ∧ t.pwr.state = .aux ∧ t.pwr.mainPg = false ∧ t.strata.queue = [] ∧ t.strata.kiln = s.strata.kiln ∧ t.net.up = [] ∧ t.pci.hostUp = false ∧ t.pwr.perstOut = List.replicate 8 true ∧ t.pwr.accEn = List.replicate 8 false ∧ (∀ w, (t.keepWord w).kiln = s.kw w ∧ t.kw w = s.kw w) ∧ Changes [.keep, .strata, .net, .pci, .arr, .pwr, .pwrState] [] s t) ∧
  (∀ (port : Nat) (s : State), port ≤ 7 → MainUp s → (rpDisabled s port = true ∨ s.pwr.accEn.getD port false = true) → 
    exec (.accPwrEnTimer port) s = .next (s)) ∧
  (∀ (port : Nat) (s : State), port ≤ 7 → MainUp s → rpDisabled s port = false → s.pwr.accEn.getD port false = false → 
    exec (.accPwrEnTimer port) s = .next ({ s with pwr := { s.pwr with accEn := s.pwr.accEn.set port true, accSince := s.pwr.accSince.set port s.pwr.localNs } })) ∧
  (∀ (port : Nat) (s : State), port ≤ 7 → MainUp s → rpDisabled s port = false → rpOwned s port = false → 
    exec (.perstOutRelease port) s = .next (if s.pwr.perstN ∧ s.pwr.accEn.getD port false then { s with pwr := { s.pwr with perstOut := s.pwr.perstOut.set port false } } else s)) ∧
  (∀ (port : Nat) (s : State), port ≤ 7 → On s → rpDisabled s port = false → rpOwned s port = true → 
    exec (.perstOutRelease port) s = .next (if s.pwr.accEn.getD port false ∧ s.fw.released then { s with pwr := { s.pwr with perstOut := s.pwr.perstOut.set port false } } else s)) ∧
  (∀ (k : RefClk) (s : State), MainUp s → k ∈ s.pwr.clkLost → 
    exec (.clockLost k) s = .next (s)) ∧
  (∀ (k : RefClk) (s : State), MainUp s → k ∉ s.pwr.clkLost → 
    ∃ t, exec (.clockLost k) s = .next t ∧ t.pwr.clkLost = k :: s.pwr.clkLost ∧ (k = .eth → s.ft.state = .locked → t.ft.state = .holdover) ∧ (k = .eth → ∀ p, p < 33 → t.net.up.get p false = false) ∧ (k = .host → t.pci.hostUp = false)) ∧
  (∀ (k : RefClk) (s : State), MainUp s → 
    exec (.clockStable k) s = .next ({ s with pwr := { s.pwr with clkLost := s.pwr.clkLost.filter (· != k) } })) ∧
  (∀ (s : State), On s → (s.fw.released = false ∨ s.fld .hubBringupStatus 2 0 ≠ 1) → 
    exec (.bootPhaseComplete) s = .next (s)) ∧
  (∀ (s : State), On s → s.fw.released = true → s.fld .hubBringupStatus 2 0 = 1 → 
    ∃ t, exec (.bootPhaseComplete) s = .next t ∧ t.reg .hubEmuStatus = 0 ∧ (∀ n, n < 14 → t.service n = { s.service n with state := .running }) ∧ t.job.phase1 = true ∧ 2 ≤ t.fld .hubBringupStatus 2 0) ∧
  (∀ (tms tdi : Bool) (s : State), s.pwr.mainPg = true → (s.pwr.tapState = 4 ∨ s.pwr.tapState = 11) → 
    exec (.tapTckEdge tms tdi) s = .next ({ s with pwr := { s.pwr with tdo := s.pwr.tapShift.headD false, tapShift := s.pwr.tapShift.tail ++ [tdi], tapState := tapNext s.pwr.tapState tms } })) ∧
  (∀ (tms tdi : Bool) (s : State), s.pwr.mainPg = true → s.pwr.tapState = 15 → 
    exec (.tapTckEdge tms tdi) s = .next ({ s with pwr := { s.pwr with tapIr := if s.pwr.tapShift.all (fun b => b) then 0 else Config.tapOp (ofBits s.pwr.tapShift), tapState := tapNext 15 tms } })) ∧
  (∀ (tms tdi : Bool) (s : State), s.pwr.mainPg = true → s.pwr.tapState = 8 → 
    exec (.tapTckEdge tms tdi) s = .next ({ s with pwr := { s.pwr with tapPins := if s.pwr.tapIr = 2 ∨ s.pwr.tapIr = 3 then s.pwr.tapShift else s.pwr.tapPins, tapState := tapNext 8 tms } })) ∧
  (∀ (tms tdi : Bool) (s : State), s.pwr.mainPg = true → s.pwr.tapState ∈ [1, 2, 5, 6, 7, 9, 12, 13, 14] → 
    exec (.tapTckEdge tms tdi) s = .next ({ s with pwr := { s.pwr with tapState := tapNext s.pwr.tapState tms } })) ∧
  (∀ (tms tdi : Bool) (s : State), s.pwr.mainPg = false → 
    exec (.tapTckEdge tms tdi) s = .next (s)) ∧
  (∀ st, st < 16 → tapNext (tapNext (tapNext (tapNext (tapNext st true) true) true) true) true = 0)

/-- A lane-mode descriptor at the head of an engine's queue that passes its checks runs: its results, rounded into its output format, are stored in core memory and nowhere else; the accumulators are lost; its completion carries its tag, SUCCESS and the flags. One that fails a check completes with that status and field and writes nothing. Each element's exact result is the operation's by R108. A reduction of no more than one element is that element, or zero; ARGMAX of one number is 0. Cites: 04_arithmetic.md. -/
def Obligations.LaneOperations : Prop :=
  (∀ (id : Nat) (s : State), LaneHead 1 id s → SoundMemory id s → (laneCheck (meBytes s id)).1 = none → 
    ∃ t, exec (.laneFma id) s = .next t ∧ Ran id (laneOut s id) s t) ∧
  (∀ (id : Nat) (s : State), LaneHead 2 id s → SoundMemory id s → (laneCheck (meBytes s id)).1 = none → 
    ∃ t, exec (.laneAxpby id) s = .next t ∧ Ran id (laneOut s id) s t) ∧
  (∀ (id : Nat) (s : State), LaneHead 3 id s → SoundMemory id s → (laneCheck (meBytes s id)).1 = none → 
    ∃ t, exec (.laneScaleAdd id) s = .next t ∧ Ran id (laneOut s id) s t) ∧
  (∀ (id : Nat) (s : State), LaneHead 4 id s → SoundMemory id s → (laneCheck (meBytes s id)).1 = none → 
    ∃ t, exec (.laneMul id) s = .next t ∧ Ran id (laneOut s id) s t) ∧
  (∀ (id : Nat) (s : State), LaneHead 5 id s → SoundMemory id s → (laneCheck (meBytes s id)).1 = none → 
    ∃ t, exec (.laneMin id) s = .next t ∧ Ran id (laneOut s id) s t) ∧
  (∀ (id : Nat) (s : State), LaneHead 6 id s → SoundMemory id s → (laneCheck (meBytes s id)).1 = none → 
    ∃ t, exec (.laneMax id) s = .next t ∧ Ran id (laneOut s id) s t) ∧
  (∀ (id : Nat) (s : State), LaneHead 7 id s → SoundMemory id s → (laneCheck (meBytes s id)).1 = none → 
    ∃ t, exec (.laneAbs id) s = .next t ∧ Ran id (laneOut s id) s t) ∧
  (∀ (id : Nat) (s : State), LaneHead 8 id s → SoundMemory id s → (laneCheck (meBytes s id)).1 = none → 
    ∃ t, exec (.laneConvert id) s = .next t ∧ Ran id (laneOut s id) s t) ∧
  (∀ (id : Nat) (s : State), LaneHead 9 id s → SoundMemory id s → (laneCheck (meBytes s id)).1 = none → 
    ∃ t, exec (.laneSqrt id) s = .next t ∧ Ran id (laneOut s id) s t) ∧
  (∀ (id : Nat) (s : State), LaneHead 10 id s → SoundMemory id s → (laneCheck (meBytes s id)).1 = none → 
    ∃ t, exec (.laneRsqrt id) s = .next t ∧ Ran id (laneOut s id) s t) ∧
  (∀ (id : Nat) (s : State), LaneHead 11 id s → SoundMemory id s → (laneCheck (meBytes s id)).1 = none → 
    ∃ t, exec (.laneRecip id) s = .next t ∧ Ran id (laneOut s id) s t) ∧
  (∀ (id : Nat) (s : State), LaneHead 12 id s → SoundMemory id s → (laneCheck (meBytes s id)).1 = none → 
    ∃ t, exec (.laneExp id) s = .next t ∧ Ran id (laneOut s id) s t) ∧
  (∀ (id : Nat) (s : State), LaneHead 13 id s → SoundMemory id s → (laneCheck (meBytes s id)).1 = none → 
    ∃ t, exec (.laneLog id) s = .next t ∧ Ran id (laneOut s id) s t) ∧
  (∀ (id : Nat) (s : State), LaneHead 16 id s → SoundMemory id s → (laneCheck (meBytes s id)).1 = none → 
    ∃ t, exec (.laneSum id) s = .next t ∧ Ran id (laneOut s id) s t) ∧
  (∀ (id : Nat) (s : State), LaneHead 17 id s → SoundMemory id s → (laneCheck (meBytes s id)).1 = none → 
    ∃ t, exec (.laneSumsq id) s = .next t ∧ Ran id (laneOut s id) s t) ∧
  (∀ (id : Nat) (s : State), LaneHead 18 id s → SoundMemory id s → (laneCheck (meBytes s id)).1 = none → 
    ∃ t, exec (.laneRmax id) s = .next t ∧ Ran id (laneOut s id) s t) ∧
  (∀ (id : Nat) (s : State), LaneHead 19 id s → SoundMemory id s → (laneCheck (meBytes s id)).1 = none → 
    ∃ t, exec (.laneArgmax id) s = .next t ∧ Ran id (laneOut s id) s t) ∧
  LaneChecks .laneFma 1 ∧
  LaneChecks .laneAxpby 2 ∧
  LaneChecks .laneScaleAdd 3 ∧
  LaneChecks .laneMul 4 ∧
  LaneChecks .laneMin 5 ∧
  LaneChecks .laneMax 6 ∧
  LaneChecks .laneAbs 7 ∧
  LaneChecks .laneConvert 8 ∧
  LaneChecks .laneSqrt 9 ∧
  LaneChecks .laneRsqrt 10 ∧
  LaneChecks .laneRecip 11 ∧
  LaneChecks .laneExp 12 ∧
  LaneChecks .laneLog 13 ∧
  LaneChecks .laneSum 16 ∧
  LaneChecks .laneSumsq 17 ∧
  LaneChecks .laneRmax 18 ∧
  LaneChecks .laneArgmax 19 ∧
  (∀ x y z a b : Val, laneElem 1 x y z a b = ((x.mul y).add z, 0) ∧ laneElem 2 x y z a b = ((a.mul x).add (b.mul y), 0) ∧ laneElem 3 x y z a b = ((a.mul x).add b, 0) ∧
    laneElem 4 x y z a b = (x.mul y, 0) ∧ laneElem 5 x y z a b = (x.minimum y, 0) ∧ laneElem 6 x y z a b = (x.maximum y, 0) ∧ laneElem 7 x y z a b = (x.abs, 0) ∧
    laneElem 8 x y z a b = (x, 0) ∧ laneElem 9 x y z a b = x.sqrt ∧ laneElem 10 x y z a b = x.rsqrt ∧ laneElem 11 x y z a b = x.recip ∧ laneElem 12 x y z a b = x.exp ∧
    laneElem 13 x y z a b = x.log) ∧
  (∀ s id, dWord (meBytes s id) 8 = 0 → (laneOut s id).writes = [] ∧ (laneOut s id).flags = 0)

/-- A tile or optimizer descriptor that passes its checks stores its results in core memory and nowhere else and completes with SUCCESS; a tile leaves the accumulators kept. A reserved operation is refused. Completions are posted in order, dropped once the core ended its kernel part. A port with 8 entries in use ignores a submit and counts it. A channel takes 64 descriptors. A reach window outside the partition is disabled and marked. A hop timeout fails its transfer or raises the route exception in its core; the third on a link within 1 ms fails the link. Cites: 03_tensor_array.md, 04_arithmetic.md, 05_tilth32.md, 07_state_keeping.md. -/
def Obligations.EnginesAndArrayPorts : Prop :=
  (∀ (id : Nat) (s : State), LaneHead 32 id s → SoundMemory id s → (laneCheck (meBytes s id)).1 = none → 
    ∃ t, exec (.optAdamw id) s = .next t ∧ Ran id (laneOut s id) s t) ∧
  (∀ (id : Nat) (s : State), LaneHead 33 id s → SoundMemory id s → (laneCheck (meBytes s id)).1 = none → 
    ∃ t, exec (.optSgdm id) s = .next t ∧ Ran id (laneOut s id) s t) ∧
  (∀ (id : Nat) (s : State), LaneHead 34 id s → SoundMemory id s → (laneCheck (meBytes s id)).1 = none → 
    ∃ t, exec (.optLion id) s = .next t ∧ Ran id (laneOut s id) s t) ∧
  (∀ (id : Nat) (s : State), id < 256 → ArrayRuns s → (meHead s id).map (·.1) = some 1 → SoundMemory id s → (tileCheck (meBytes s id) (s.core id).me.acc).1 = none → 
    ∃ t, exec (.meTileOp id) s = .next t ∧ Ran id (tileOut s id) s t ∧ (tileOut s id).acc.isSome = true) ∧
  (∀ (id op lane f : Nat) (st : Status) (s : State), id < 256 → ArrayRuns s → meHead s id = some (op, lane) → op ≠ 2 → (tileCheck (meBytes s id) (s.core id).me.acc).1 = some (st, f) → 
    exec (.meTileOp id) s = .next (s.modCore id (fun c => { c with me := c.me.finished (fieldLE (meBytes s id) 56 8) st f 0 }))) ∧
  (∀ (id lane : Nat) (s : State), id < 256 → ArrayRuns s → meHead s id = some (2, lane) → laneUses lane = none → 
    ∃ t, exec (.meTileOp id) s = .next t ∧ (t.core id).me.queue = (s.core id).me.queue.tail ∧ ((t.core id).me.executed.getLast?).map (fun m => m.status) = some St.invalidField ∧ t.mem = s.mem ∧ Changes [.cores] [] s t) ∧
  (∀ (id : Nat) (s : State), id < 256 → ArrayRuns s → meHead s id = none → 
    exec (.meTileOp id) s = .next (s)) ∧
  (∀ (id : Nat) (m : MeCpl) (r : List MeCpl) (s : State), id < 256 → ArrayRuns s → (s.core id).me.executed = m :: r → (kernelOf s id = none ∨ runsKernel s id = true) → 
    exec (.meCompletionPosted id) s = .next (s.modCore id (fun c => { c with me := { c.me with executed := r, ready := c.me.ready ++ [m] } }))) ∧
  (∀ (id : Nat) (m : MeCpl) (r : List MeCpl) (s : State), id < 256 → ArrayRuns s → (s.core id).me.executed = m :: r → (kernelOf s id).isSome = true → runsKernel s id = false → 
    exec (.meCompletionPosted id) s = .next (s.modCore id (fun c => { c with me := { c.me with executed := r } }))) ∧
  (∀ (id : Nat) (s : State), id < 256 → ArrayRuns s → (s.core id).me.executed = [] → 
    exec (.meCompletionPosted id) s = .next (s)) ∧
  (∀ (a : Agent) (id : Nat) (s : State), id < 256 → ArrayRuns s → (s.core id).me.queue.length + (s.core id).me.executed.length + (s.core id).me.ready.length < 8 → 
    exec (.tnsMeSubmit a id) s = .next (s.modCore id (fun c => { c with me := { c.me with queue := c.me.queue ++ [(List.range 16).map (fun i => BitVec.ofNat 32 (s.reg .tnsMeStage (id * 16 + i))) ++ (List.range 6).map (fun i => BitVec.ofNat 32 (s.reg .tnsOptHp (id * 8 + i)))] } }))) ∧
  (∀ (a : Agent) (id : Nat) (s : State), id < 256 → ArrayRuns s → 8 ≤ (s.core id).me.queue.length + (s.core id).me.executed.length + (s.core id).me.ready.length → 
    exec (.tnsMeSubmit a id) s = .next (s.bump .dbgIgnored)) ∧
  (∀ (a : Agent) (id : Nat) (s : State), id < 256 → ArrayRuns s → 
    exec (.tnsMePop a id) s = .next (s.modCore id (fun c => { c with me := { c.me with ready := c.me.ready.tail } }))) ∧
  (∀ (id : Nat) (v : Word) (s : State), id < 256 → ArrayRuns s → 
    ∃ t, exec (.srSeedLoad id v) s = .next t ∧ t.reg .tnsSrSeed id % 2 ^ 32 = s.reg .tnsSrSeed id % 2 ^ 32 ∧ t.reg .tnsSrSeed id / 2 ^ 32 = v.toNat ∧ t.core id = { s.core id with me := { (s.core id).me with reload := true } } ∧ (∀ c, c ≠ id → t.core c = s.core c) ∧ meGens t id = laneGens (t.reg .tnsSrSeed id) ∧ Changes [.cores] [.tnsSrSeed] s t) ∧
  (∀ (id : Nat) (n : BitVec 4) (v : Word) (s : State), id < 256 → ArrayRuns s → n ≠ 0 → 
    ∃ t, exec (.tnsReachWrite id n v) s = .next t ∧ t.fld .tnsReach 31 12 (id * 16 + n.toNat) = v.toNat / 2 ^ 12 ∧ t.fld .tnsReach 2 2 (id * 16 + n.toNat) = (if windowInside s id (v.toNat / 2 ^ 12) then 0 else 1) ∧ t.fld .tnsReach 0 0 (id * 16 + n.toNat) = (if windowInside s id (v.toNat / 2 ^ 12) then v.toNat % 2 else 0) ∧ t.fld .tnsReach 1 1 (id * 16 + n.toNat) = v.toNat / 2 % 2 ∧ (∀ i, i ≠ id * 16 + n.toNat → t.reg .tnsReach i = s.reg .tnsReach i) ∧ Changes [] [.tnsReach] s t) ∧
  (∀ (id : Nat) (v : Word) (s : State), id < 256 → ArrayRuns s → 
    exec (.tnsReachWrite id 0 v) s = .next (s)) ∧
  (∀ (id : Nat) (v : Word) (s : State), id < 256 → ArrayRuns s → v.toNat < 8 → (s.chan (coreCluster id) v.toNat).queue.length < 64 → 
    ∃ t, exec (.tnsDmaSubmit id v) s = .next t ∧ t.chan (coreCluster id) v.toNat = { s.chan (coreCluster id) v.toNat with queue := (s.chan (coreCluster id) v.toNat).queue ++ [{ desc := (List.range 16).flatMap (fun i => leBytes 4 (s.reg .tnsDmaStage (id * 16 + i))), origin := .core id }] } ∧ (∀ cl k, k < 8 → (cl, k) ≠ (coreCluster id, v.toNat) → t.chan cl k = s.chan cl k) ∧ t.reg .tnsDmaSubmits id = satAdd 32 (s.reg .tnsDmaSubmits id) 1 ∧ Changes [.arr] [.tnsDmaSubmits] s t) ∧
  (∀ (id : Nat) (v : Word) (s : State), id < 256 → ArrayRuns s → (8 ≤ v.toNat ∨ 64 ≤ (s.chan (coreCluster id) v.toNat).queue.length) → 
    exec (.tnsDmaSubmit id v) s = .next (s)) ∧
  (∀ (link k : Nat) (a : Agent) (s : State), On s → ((s.pwr.localNs :: (s.arr.linkTimes.get link []).filter (fun x => decide (s.pwr.localNs < x + 1000000))).length < 3 ∨ link ∈ s.arr.linkFailed) → a = .hub → 
    exec (.routeHopTimeout link a k) s = .next ({ s with arr := { s.arr with linkTimes := s.arr.linkTimes.set link (s.pwr.localNs :: (s.arr.linkTimes.get link []).filter (fun x => decide (s.pwr.localNs < x + 1000000))) } })) ∧
  (∀ (link k : Nat) (a : Agent) (s : State), On s → 3 ≤ (s.pwr.localNs :: (s.arr.linkTimes.get link []).filter (fun x => decide (s.pwr.localNs < x + 1000000))).length → link ∉ s.arr.linkFailed → a = .hub → 
    ∃ t, exec (.routeHopTimeout link a k) s = .next t ∧ t.arr.linkFailed = link :: s.arr.linkFailed ∧ Changes [.arr, .strata] [] s t) ∧
  (∀ (link cl k : Nat) (e : DmaEntry) (r : List DmaEntry) (s : State), On s → (s.chan cl k).queue = e :: r → e.result = none → 
    ∃ t, exec (.routeHopTimeout link (.dma cl) k) s = .next t ∧ t.chan cl k = { queue := { e with result := some (St.routeTimeout, 0xFFFF, 0) } :: r, failed := true } ∧ t.eicBit .eicPending cl 146 = true ∧ t.arr.linkTimes.get link [] = (s.pwr.localNs :: (s.arr.linkTimes.get link []).filter (fun x => decide (s.pwr.localNs < x + 1000000)))) ∧
  (∀ (link c k : Nat) (s : State), On s → c < 256 → (s.core c).run = .running → (s.core c).inx = false → 
    ∃ t, exec (.routeHopTimeout link (.core c) k) s = .next t ∧ t.core c = (s.core c).entered 7 5 0 ∧ t.eicBit .eicPending (c / 16) 146 = true ∧ (∀ d, d ≠ c → t.core d = s.core d)) ∧
  LaneChecks .optAdamw 32 ∧
  LaneChecks .optSgdm 33 ∧
  LaneChecks .optLion 34
end

