-- ==== Sys2Proof/Laws/Memory.lean ====
section
/-! SUPPORT. Laws of the memory: every operation keeps the canonical form; a byte reads as it was last written. -/

namespace Sys2Proof.Machine

open Sys2Proof

/-- The canonical form as an order of the keys and a rule for the entries. -/
theorem Memory.wf_iff (m : Memory) :
    Memory.wf m = true ↔ m.Pairwise (fun x y => x.1 < y.1) ∧ ∀ x ∈ m, x.2 ≠ Memory.blank := by
  induction m with
  | nil => simp [Memory.wf]
  | cons x r ih =>
    obtain ⟨k, b⟩ := x
    cases r with
    | nil => simp [Memory.wf]
    | cons y r =>
      obtain ⟨k', b'⟩ := y
      simp only [Memory.wf, Bool.and_eq_true, decide_eq_true_eq, ih]
      constructor
      · rintro ⟨⟨hb, hk⟩, hp, ha⟩
        refine ⟨List.Pairwise.cons ?_ hp, ?_⟩
        · intro z hz
          rcases List.mem_cons.mp hz with rfl | hz
          · exact hk
          · exact lt_trans hk (List.rel_of_pairwise_cons hp hz)
        · intro z hz
          rcases List.mem_cons.mp hz with rfl | hz
          · exact hb
          · exact ha z hz
      · rintro ⟨hp, ha⟩
        refine ⟨⟨ha (k, b) (by simp), List.rel_of_pairwise_cons hp (a' := (k', b')) (by simp)⟩, List.Pairwise.of_cons hp, ?_⟩
        intro z hz
        exact ha z (List.mem_cons_of_mem _ hz)

theorem Memory.mem_write (m : Memory) (a : Nat) (b : Byte) (x : Host.Cell) (h : x ∈ Memory.write m a b) :
    x = (a, b) ∧ b ≠ Memory.blank ∨ x ∈ m := by
  induction m with
  | nil =>
    unfold Memory.write at h
    split at h
    · simp at h
    · next hb => simp at h; exact Or.inl ⟨h, hb⟩
  | cons y r ih =>
    obtain ⟨k, c⟩ := y
    unfold Memory.write at h
    split at h
    · split at h
      · exact Or.inr h
      · next hb =>
        rcases List.mem_cons.mp h with h | h
        · exact Or.inl ⟨h, hb⟩
        · exact Or.inr h
    · split at h
      · split at h
        · exact Or.inr (List.mem_cons_of_mem _ h)
        · next hb =>
          rcases List.mem_cons.mp h with h | h
          · exact Or.inl ⟨h, hb⟩
          · exact Or.inr (List.mem_cons_of_mem _ h)
      · rcases List.mem_cons.mp h with h | h
        · exact Or.inr (h ▸ List.mem_cons_self)
        · rcases ih h with h | h
          · exact Or.inl h
          · exact Or.inr (List.mem_cons_of_mem _ h)

/-- A store of one byte keeps the canonical form. -/
theorem Memory.write_wf (m : Memory) (a : Nat) (b : Byte) (h : Memory.wf m = true) : Memory.wf (Memory.write m a b) = true := by
  rw [Memory.wf_iff] at h ⊢
  refine ⟨?_, ?_⟩
  · obtain ⟨hp, ha⟩ := h
    induction m with
    | nil =>
      unfold Memory.write
      split <;> simp
    | cons y r ih =>
      obtain ⟨k, c⟩ := y
      have hr := List.Pairwise.of_cons hp
      have hk : ∀ z ∈ r, k < z.1 := fun z hz => List.rel_of_pairwise_cons hp hz
      unfold Memory.write
      split
      · next hlt =>
        split
        · exact hp
        · refine List.Pairwise.cons ?_ hp
          intro z hz
          rcases List.mem_cons.mp hz with rfl | hz
          · exact hlt
          · exact lt_trans hlt (hk z hz)
      · split
        · next he =>
          split
          · exact hr
          · refine List.Pairwise.cons ?_ hr
            intro z hz
            exact he ▸ hk z hz
        · next hn he =>
          refine List.Pairwise.cons ?_ (ih hr (fun z hz => ha z (List.mem_cons_of_mem _ hz)))
          intro z hz
          rcases Memory.mem_write r a b z hz with ⟨rfl, -⟩ | hz
          · show k < a; omega
          · exact hk z hz
  · intro x hx
    rcases Memory.mem_write m a b x hx with ⟨rfl, hb⟩ | hx
    · exact hb
    · exact h.2 x hx

theorem Memory.writeN_wf (l : List Byte) (m : Memory) (a : Nat) (h : Memory.wf m = true) : Memory.wf (Memory.writeN m a l) = true := by
  induction l generalizing m a with
  | nil => exact h
  | cons b l ih => exact ih _ _ (Memory.write_wf m a b h)

theorem Memory.filter_wf (m : Memory) (p : Host.Cell → Bool) (h : Memory.wf m = true) : Memory.wf (m.filter p) = true := by
  rw [Memory.wf_iff] at h ⊢
  exact ⟨h.1.filter p, fun x hx => h.2 x (List.mem_of_mem_filter hx)⟩

theorem Memory.clear_wf (m : Memory) (a n : Nat) (h : Memory.wf m = true) : Memory.wf (Memory.clear m a n) = true :=
  Memory.filter_wf m _ h

theorem Memory.copy_wf (m : Memory) (dst src n : Nat) (h : Memory.wf m = true) : Memory.wf (Memory.copy m dst src n) = true := by
  unfold Memory.copy
  generalize m.filter (fun c => decide (src ≤ c.1 ∧ c.1 < src + n)) = l
  have : Memory.wf (Memory.clear m dst n) = true := Memory.clear_wf m dst n h
  generalize Memory.clear m dst n = m' at this ⊢
  induction l generalizing m' with
  | nil => exact this
  | cons c l ih => exact ih _ (Memory.write_wf _ _ _ this)

/-- The byte that key `a` reads is the last byte written there. -/
theorem Memory.read_write (m : Memory) (a j : Nat) (b : Byte) (h : Memory.wf m = true) :
    Memory.read (Memory.write m a b) j = if j = a then b else Memory.read m j := by
  rw [Memory.wf_iff] at h
  obtain ⟨hp, -⟩ := h
  induction m with
  | nil =>
    unfold Memory.write
    by_cases hb : b = Memory.blank
    · rw [if_pos hb]
      by_cases hj : j = a
      · rw [if_pos hj, hb]; rfl
      · rw [if_neg hj]
    · rw [if_neg hb]
      unfold Memory.read
      by_cases h1 : j < a
      · rw [if_pos h1, if_neg (by omega)]
      · by_cases h2 : j = a
        · rw [if_neg h1, if_pos h2, if_pos h2]
        · rw [if_neg h1, if_neg h2, if_neg h2]; rfl
  | cons y r ih =>
    obtain ⟨k, c⟩ := y
    have hr := List.Pairwise.of_cons hp
    have hk : ∀ z ∈ r, k < z.1 := fun z hz => List.rel_of_pairwise_cons hp hz
    have blank : ∀ i, i ≤ k → Memory.read r i = Memory.blank := by
      intro i hi
      cases r with
      | nil => rfl
      | cons z r =>
        obtain ⟨kz, cz⟩ := z
        have : k < kz := hk (kz, cz) (by simp)
        unfold Memory.read
        rw [if_pos (by omega)]
    unfold Memory.write
    by_cases h1 : a < k
    · rw [if_pos h1]
      by_cases hb : b = Memory.blank
      · rw [if_pos hb]
        by_cases hj : j = a
        · rw [if_pos hj, hb, hj]; unfold Memory.read; rw [if_pos h1]
        · rw [if_neg hj]
      · rw [if_neg hb]
        conv_lhs => unfold Memory.read
        by_cases h2 : j < a
        · rw [if_pos h2, if_neg (by omega)]; unfold Memory.read; rw [if_pos (by omega)]
        · by_cases h3 : j = a
          · rw [if_neg h2, if_pos h3]
          · rw [if_neg h2, if_neg h3]
    · rw [if_neg h1]
      by_cases h2 : a = k
      · subst h2
        rw [if_pos rfl]
        by_cases hb : b = Memory.blank
        · rw [if_pos hb]
          by_cases hj : j = a
          · rw [if_pos hj, hj, blank a (le_refl a), hb]
          · rw [if_neg hj]
            conv_rhs => unfold Memory.read
            by_cases h4 : j < a
            · rw [if_pos h4, blank j (by omega)]
            · rw [if_neg h4, if_neg hj]
        · rw [if_neg hb]
          unfold Memory.read
          by_cases h4 : j < a
          · rw [if_pos h4, if_neg (by omega), if_pos h4]
          · by_cases hj : j = a
            · rw [if_neg h4, if_pos hj, if_pos hj]
            · rw [if_neg h4, if_neg hj, if_neg hj, if_neg h4, if_neg hj]
      · rw [if_neg h2]
        unfold Memory.read
        by_cases h4 : j < k
        · rw [if_pos h4, if_neg (by omega), if_pos h4]
        · by_cases hj : j = k
          · rw [if_neg h4, if_pos hj, if_neg (by omega), if_neg h4, if_pos hj]
          · rw [if_neg h4, if_neg hj, ih hr]
            rw [if_neg h4, if_neg hj]

/-- A store of `l` from key `a` changes no byte outside its own. -/
theorem Memory.read_writeN_of_outside (l : List Byte) (m : Memory) (a j : Nat) (h : Memory.wf m = true) (hj : j < a ∨ a + l.length ≤ j) :
    Memory.read (Memory.writeN m a l) j = Memory.read m j := by
  induction l generalizing m a with
  | nil => rfl
  | cons b l ih =>
    simp only [List.length_cons] at hj
    simp only [Memory.writeN]
    rw [ih _ _ (Memory.write_wf m a b h) (by omega), Memory.read_write m a j b h, if_neg (by omega)]

/-- Bytes stored are the bytes read back. -/
theorem Memory.readN_writeN (l : List Byte) (m : Memory) (a : Nat) (h : Memory.wf m = true) :
    Memory.readN (Memory.writeN m a l) a l.length = l := by
  induction l generalizing m a with
  | nil => rfl
  | cons b l ih =>
    simp only [Memory.writeN, List.length_cons, Memory.readN]
    rw [ih _ _ (Memory.write_wf m a b h), Memory.read_writeN_of_outside l _ (a + 1) a (Memory.write_wf m a b h) (by omega),
      Memory.read_write m a a b h, if_pos rfl]

end Sys2Proof.Machine
end

