-- ==== Sys2Proof/Laws/Tab.lean ====
section
/-! SUPPORT. Laws of sparse tables and of bit fields: what is read after a write, at the same place and elsewhere. -/

namespace Sys2Proof

variable {κ α : Type} [DecidableEq κ]

@[simp] theorem Tab.find_nil (k : κ) : Tab.find k ([] : Tab κ α) = none := rfl

theorem Tab.find_cons (k k' : κ) (a : α) (t : Tab κ α) : Tab.find k ((k', a) :: t) = if k = k' then some a else Tab.find k t := rfl

theorem Tab.find_del_same (t : Tab κ α) (k : κ) : Tab.find k (t.del k) = none := by
  induction t with
  | nil => rfl
  | cons p r ih =>
    obtain ⟨k', a⟩ := p
    unfold Tab.del at ih ⊢
    by_cases h : k = k'
    · simp [h] at ih ⊢; exact ih
    · simp [h, Tab.find_cons] at ih ⊢; exact ih

theorem Tab.find_del_ne (t : Tab κ α) {j k : κ} (h : j ≠ k) : Tab.find j (t.del k) = Tab.find j t := by
  induction t with
  | nil => rfl
  | cons p r ih =>
    obtain ⟨k', a⟩ := p
    unfold Tab.del at ih ⊢
    by_cases hk : k = k'
    · have : j ≠ k' := hk ▸ h
      simp [hk, Tab.find_cons, this] at ih ⊢; exact ih
    · simp [hk, Tab.find_cons] at ih ⊢; rw [ih]

theorem Tab.find_set_same (t : Tab κ α) (k : κ) (a : α) : Tab.find k (t.set k a) = some a := by
  induction t with
  | nil => simp [Tab.set, Tab.find_cons]
  | cons p r ih =>
    obtain ⟨k', a'⟩ := p
    by_cases h : k = k'
    · simp [Tab.set, h, Tab.find_cons]
    · simp [Tab.set, h, Tab.find_cons, ih]

theorem Tab.find_set_ne (t : Tab κ α) {j k : κ} (a : α) (h : j ≠ k) : Tab.find j (t.set k a) = Tab.find j t := by
  induction t with
  | nil => simp [Tab.set, Tab.find_cons, h]
  | cons p r ih =>
    obtain ⟨k', a'⟩ := p
    by_cases hk : k = k'
    · have hj : j ≠ k' := hk ▸ h
      simp [Tab.set, hk, Tab.find_cons, hj, Tab.find_del_ne r hj]
    · simp [Tab.set, hk, Tab.find_cons, ih]

/-- Reading entry `j` after a write of entry `k`. -/
theorem Tab.find_set (t : Tab κ α) (j k : κ) (a : α) : Tab.find j (t.set k a) = if j = k then some a else Tab.find j t := by
  by_cases h : j = k
  · rw [if_pos h, h, Tab.find_set_same]
  · rw [if_neg h, Tab.find_set_ne t a h]

@[simp] theorem Tab.get_set_same (t : Tab κ α) (k : κ) (a d : α) : (t.set k a).get k d = a := by
  simp [Tab.get, Tab.find_set_same]

theorem Tab.get_set_ne (t : Tab κ α) {j k : κ} (a d : α) (h : j ≠ k) : (t.set k a).get j d = t.get j d := by
  simp [Tab.get, Tab.find_set_ne t a h]

theorem Tab.get_set (t : Tab κ α) (j k : κ) (a d : α) : (t.set k a).get j d = if j = k then a else t.get j d := by
  by_cases h : j = k
  · simp [h]
  · simp [h, Tab.get_set_ne t a d h]

@[simp] theorem Tab.get_del_same (t : Tab κ α) (k : κ) (d : α) : (t.del k).get k d = d := by
  simp [Tab.get, Tab.find_del_same]

theorem Tab.get_del_ne (t : Tab κ α) {j k : κ} (d : α) (h : j ≠ k) : (t.del k).get j d = t.get j d := by
  simp [Tab.get, Tab.find_del_ne t h]

@[simp] theorem Tab.has_set_same (t : Tab κ α) (k : κ) (a : α) : (t.set k a).has k = true := by
  simp [Tab.has, Tab.find_set_same]

/-- The entries that a filter keeps read as before where it looks at the key alone. -/
theorem Tab.find_keep (t : Tab κ α) (p : κ → Bool) (k : κ) :
    Tab.find k (t.keep (fun j _ => p j)) = if p k then Tab.find k t else none := by
  induction t with
  | nil => simp [Tab.keep]
  | cons e r ih =>
    obtain ⟨k', a⟩ := e
    unfold Tab.keep at ih ⊢
    by_cases hp : p k' = true
    · by_cases h : k = k'
      · subst h; simp [hp, Tab.find_cons]
      · simp [hp, Tab.find_cons, h, ih]
    · by_cases h : k = k'
      · subst h; simp [hp] at ih ⊢; simpa [hp] using ih
      · simp [hp, Tab.find_cons, h, ih]

/-! Bit fields. -/

theorem natBits_lt (v hi lo : Nat) : natBits v hi lo < 2 ^ (hi + 1 - lo) := Nat.mod_lt _ (by positivity)

theorem natSetBits_eq (v hi lo x : Nat) :
    natSetBits v hi lo x = v % 2 ^ lo + 2 ^ lo * (x % 2 ^ (hi + 1 - lo)) + 2 ^ lo * (2 ^ (hi + 1 - lo) * (v / 2 ^ lo / 2 ^ (hi + 1 - lo))) := by
  unfold natSetBits natBits
  have h1 := Nat.div_add_mod v (2 ^ lo)
  have h2 := Nat.div_add_mod (v / 2 ^ lo) (2 ^ (hi + 1 - lo))
  generalize hq : v / 2 ^ lo = q at *
  generalize hm : 2 ^ lo = m at *
  generalize hn : 2 ^ (hi + 1 - lo) = n at *
  generalize q / n = a at *
  generalize q % n = b at *
  generalize v % m = r at *
  generalize x % n = y at *
  have e : v = m * (n * a) + m * b + r := by rw [← h1, ← h2]; ring
  rw [e]
  have : m * (n * a) + m * b + r - b * m = m * (n * a) + r := by
    rw [Nat.mul_comm b m]; omega
  rw [this]; ring

/-- The field written reads as the value written, reduced to the field's width. -/
theorem natBits_natSetBits_same (v hi lo x : Nat) : natBits (natSetBits v hi lo x) hi lo = x % 2 ^ (hi + 1 - lo) := by
  rw [natSetBits_eq]
  unfold natBits
  generalize hw : hi + 1 - lo = w
  have hm : 0 < 2 ^ lo := by positivity
  have hr : v % 2 ^ lo < 2 ^ lo := Nat.mod_lt _ hm
  have e : v % 2 ^ lo + 2 ^ lo * (x % 2 ^ w) + 2 ^ lo * (2 ^ w * (v / 2 ^ lo / 2 ^ w)) =
      v % 2 ^ lo + 2 ^ lo * (x % 2 ^ w + 2 ^ w * (v / 2 ^ lo / 2 ^ w)) := by ring
  rw [e, Nat.add_mul_div_left _ _ hm, Nat.div_eq_of_lt hr, Nat.zero_add, Nat.add_mul_mod_self_left, Nat.mod_mod]

/-- A bit outside a field keeps its value when the field is written. -/
theorem natSetBits_testBit (v hi lo x i : Nat) (h : lo ≤ hi + 1) :
    (natSetBits v hi lo x).testBit i = if lo ≤ i ∧ i ≤ hi then x.testBit (i - lo) else v.testBit i := by
  rw [natSetBits_eq]
  have e : v % 2 ^ lo + 2 ^ lo * (x % 2 ^ (hi + 1 - lo)) + 2 ^ lo * (2 ^ (hi + 1 - lo) * (v / 2 ^ lo / 2 ^ (hi + 1 - lo))) =
      2 ^ lo * (2 ^ (hi + 1 - lo) * (v / 2 ^ lo / 2 ^ (hi + 1 - lo)) + x % 2 ^ (hi + 1 - lo)) + v % 2 ^ lo := by ring
  rw [e, Nat.testBit_two_pow_mul_add _ (Nat.mod_lt _ (by positivity)), Nat.testBit_two_pow_mul_add _ (Nat.mod_lt _ (by positivity)),
    Nat.testBit_mod_two_pow, Nat.testBit_mod_two_pow, Nat.div_div_eq_div_mul, ← Nat.pow_add, Nat.testBit_div_two_pow]
  by_cases h1 : i < lo
  · have : ¬ (lo ≤ i ∧ i ≤ hi) := by omega
    simp [h1, this]
  · by_cases h2 : i ≤ hi
    · have a : i - lo < hi + 1 - lo := by omega
      have b : lo ≤ i ∧ i ≤ hi := by omega
      simp [h1, a, b]
    · have a : ¬ (i - lo < hi + 1 - lo) := by omega
      have b : ¬ (lo ≤ i ∧ i ≤ hi) := by omega
      have c : i - lo - (hi + 1 - lo) + (lo + (hi + 1 - lo)) = i := by omega
      simp [h1, h2, a, c]

theorem natBits_testBit (v hi lo i : Nat) : (natBits v hi lo).testBit i = (decide (i < hi + 1 - lo) && v.testBit (i + lo)) := by
  unfold natBits
  rw [Nat.testBit_mod_two_pow, Nat.testBit_div_two_pow]

/-- A field apart from the one written keeps its value. -/
theorem natBits_natSetBits_of_disjoint (v hi lo x hi' lo' : Nat) (h : lo ≤ hi + 1) (hd : hi < lo' ∨ hi' < lo) :
    natBits (natSetBits v hi lo x) hi' lo' = natBits v hi' lo' := by
  apply Nat.eq_of_testBit_eq
  intro i
  rw [natBits_testBit, natBits_testBit, natSetBits_testBit _ _ _ _ _ h]
  by_cases hi2 : i < hi' + 1 - lo'
  · have : ¬ (lo ≤ i + lo' ∧ i + lo' ≤ hi) := by omega
    simp [this]
  · simp [hi2]

/-- A written register stays within its width where the field lies within it. -/
theorem natSetBits_lt (v hi lo x w : Nat) (h : lo ≤ hi + 1) (hv : v < 2 ^ w) (hw : hi < w) : natSetBits v hi lo x < 2 ^ w := by
  apply Nat.lt_pow_two_of_testBit
  intro i hi2
  rw [natSetBits_testBit _ _ _ _ _ h]
  have : ¬ (lo ≤ i ∧ i ≤ hi) := by omega
  simp [this, Nat.testBit_lt_two_pow (lt_of_lt_of_le hv (Nat.pow_le_pow_right (by norm_num) hi2))]

end Sys2Proof
end

