-- ==== Sys2Proof/Laws/State.lean ====
section
/-! SUPPORT. What each named update of State leaves alone, one lemma for each field, and what it makes of the field that it changes. -/

namespace Sys2Proof.Machine

open Sys2Proof

/-! State.setReg -/

@[simp] theorem State.setReg_pending (s : State) (n : RegName) (v i : Nat) : (s.setReg n v i).pending = s.pending := rfl
@[simp] theorem State.setReg_latch (s : State) (n : RegName) (v i : Nat) : (s.setReg n v i).latch = s.latch := rfl
@[simp] theorem State.setReg_readVal (s : State) (n : RegName) (v i : Nat) : (s.setReg n v i).readVal = s.readVal := rfl
@[simp] theorem State.setReg_mem (s : State) (n : RegName) (v i : Nat) : (s.setReg n v i).mem = s.mem := rfl
@[simp] theorem State.setReg_keep (s : State) (n : RegName) (v i : Nat) : (s.setReg n v i).keep = s.keep := rfl
@[simp] theorem State.setReg_strata (s : State) (n : RegName) (v i : Nat) : (s.setReg n v i).strata = s.strata := rfl
@[simp] theorem State.setReg_sieve (s : State) (n : RegName) (v i : Nat) : (s.setReg n v i).sieve = s.sieve := rfl
@[simp] theorem State.setReg_mbx (s : State) (n : RegName) (v i : Nat) : (s.setReg n v i).mbx = s.mbx := rfl
@[simp] theorem State.setReg_fw (s : State) (n : RegName) (v i : Nat) : (s.setReg n v i).fw = s.fw := rfl
@[simp] theorem State.setReg_irq (s : State) (n : RegName) (v i : Nat) : (s.setReg n v i).irq = s.irq := rfl
@[simp] theorem State.setReg_pwr (s : State) (n : RegName) (v i : Nat) : (s.setReg n v i).pwr = s.pwr := rfl
@[simp] theorem State.setReg_ft (s : State) (n : RegName) (v i : Nat) : (s.setReg n v i).ft = s.ft := rfl
@[simp] theorem State.setReg_cmp (s : State) (n : RegName) (v i : Nat) : (s.setReg n v i).cmp = s.cmp := rfl
@[simp] theorem State.setReg_frozen (s : State) (n : RegName) (v i : Nat) : (s.setReg n v i).frozen = s.frozen := rfl
@[simp] theorem State.setReg_cores (s : State) (n : RegName) (v i : Nat) : (s.setReg n v i).cores = s.cores := rfl
@[simp] theorem State.setReg_arr (s : State) (n : RegName) (v i : Nat) : (s.setReg n v i).arr = s.arr := rfl
@[simp] theorem State.setReg_work (s : State) (n : RegName) (v i : Nat) : (s.setReg n v i).work = s.work := rfl
@[simp] theorem State.setReg_doms (s : State) (n : RegName) (v i : Nat) : (s.setReg n v i).doms = s.doms := rfl
@[simp] theorem State.setReg_job (s : State) (n : RegName) (v i : Nat) : (s.setReg n v i).job = s.job := rfl
@[simp] theorem State.setReg_pci (s : State) (n : RegName) (v i : Nat) : (s.setReg n v i).pci = s.pci := rfl
@[simp] theorem State.setReg_slices (s : State) (n : RegName) (v i : Nat) : (s.setReg n v i).slices = s.slices := rfl
@[simp] theorem State.setReg_windows (s : State) (n : RegName) (v i : Nat) : (s.setReg n v i).windows = s.windows := rfl
@[simp] theorem State.setReg_accel (s : State) (n : RegName) (v i : Nat) : (s.setReg n v i).accel = s.accel := rfl
@[simp] theorem State.setReg_sec (s : State) (n : RegName) (v i : Nat) : (s.setReg n v i).sec = s.sec := rfl
@[simp] theorem State.setReg_vrm (s : State) (n : RegName) (v i : Nat) : (s.setReg n v i).vrm = s.vrm := rfl
@[simp] theorem State.setReg_net (s : State) (n : RegName) (v i : Nat) : (s.setReg n v i).net = s.net := rfl
@[simp] theorem State.setReg_sto (s : State) (n : RegName) (v i : Nat) : (s.setReg n v i).sto = s.sto := rfl
@[simp] theorem State.setReg_out (s : State) (n : RegName) (v i : Nat) : (s.setReg n v i).out = s.out := rfl
@[simp] theorem State.setReg_fresh (s : State) (n : RegName) (v i : Nat) : (s.setReg n v i).fresh = s.fresh := rfl

/-! State.setFld -/

@[simp] theorem State.setFld_pending (s : State) (n : RegName) (hi lo v i : Nat) : (s.setFld n hi lo v i).pending = s.pending := rfl
@[simp] theorem State.setFld_latch (s : State) (n : RegName) (hi lo v i : Nat) : (s.setFld n hi lo v i).latch = s.latch := rfl
@[simp] theorem State.setFld_readVal (s : State) (n : RegName) (hi lo v i : Nat) : (s.setFld n hi lo v i).readVal = s.readVal := rfl
@[simp] theorem State.setFld_mem (s : State) (n : RegName) (hi lo v i : Nat) : (s.setFld n hi lo v i).mem = s.mem := rfl
@[simp] theorem State.setFld_keep (s : State) (n : RegName) (hi lo v i : Nat) : (s.setFld n hi lo v i).keep = s.keep := rfl
@[simp] theorem State.setFld_strata (s : State) (n : RegName) (hi lo v i : Nat) : (s.setFld n hi lo v i).strata = s.strata := rfl
@[simp] theorem State.setFld_sieve (s : State) (n : RegName) (hi lo v i : Nat) : (s.setFld n hi lo v i).sieve = s.sieve := rfl
@[simp] theorem State.setFld_mbx (s : State) (n : RegName) (hi lo v i : Nat) : (s.setFld n hi lo v i).mbx = s.mbx := rfl
@[simp] theorem State.setFld_fw (s : State) (n : RegName) (hi lo v i : Nat) : (s.setFld n hi lo v i).fw = s.fw := rfl
@[simp] theorem State.setFld_irq (s : State) (n : RegName) (hi lo v i : Nat) : (s.setFld n hi lo v i).irq = s.irq := rfl
@[simp] theorem State.setFld_pwr (s : State) (n : RegName) (hi lo v i : Nat) : (s.setFld n hi lo v i).pwr = s.pwr := rfl
@[simp] theorem State.setFld_ft (s : State) (n : RegName) (hi lo v i : Nat) : (s.setFld n hi lo v i).ft = s.ft := rfl
@[simp] theorem State.setFld_cmp (s : State) (n : RegName) (hi lo v i : Nat) : (s.setFld n hi lo v i).cmp = s.cmp := rfl
@[simp] theorem State.setFld_frozen (s : State) (n : RegName) (hi lo v i : Nat) : (s.setFld n hi lo v i).frozen = s.frozen := rfl
@[simp] theorem State.setFld_cores (s : State) (n : RegName) (hi lo v i : Nat) : (s.setFld n hi lo v i).cores = s.cores := rfl
@[simp] theorem State.setFld_arr (s : State) (n : RegName) (hi lo v i : Nat) : (s.setFld n hi lo v i).arr = s.arr := rfl
@[simp] theorem State.setFld_work (s : State) (n : RegName) (hi lo v i : Nat) : (s.setFld n hi lo v i).work = s.work := rfl
@[simp] theorem State.setFld_doms (s : State) (n : RegName) (hi lo v i : Nat) : (s.setFld n hi lo v i).doms = s.doms := rfl
@[simp] theorem State.setFld_job (s : State) (n : RegName) (hi lo v i : Nat) : (s.setFld n hi lo v i).job = s.job := rfl
@[simp] theorem State.setFld_pci (s : State) (n : RegName) (hi lo v i : Nat) : (s.setFld n hi lo v i).pci = s.pci := rfl
@[simp] theorem State.setFld_slices (s : State) (n : RegName) (hi lo v i : Nat) : (s.setFld n hi lo v i).slices = s.slices := rfl
@[simp] theorem State.setFld_windows (s : State) (n : RegName) (hi lo v i : Nat) : (s.setFld n hi lo v i).windows = s.windows := rfl
@[simp] theorem State.setFld_accel (s : State) (n : RegName) (hi lo v i : Nat) : (s.setFld n hi lo v i).accel = s.accel := rfl
@[simp] theorem State.setFld_sec (s : State) (n : RegName) (hi lo v i : Nat) : (s.setFld n hi lo v i).sec = s.sec := rfl
@[simp] theorem State.setFld_vrm (s : State) (n : RegName) (hi lo v i : Nat) : (s.setFld n hi lo v i).vrm = s.vrm := rfl
@[simp] theorem State.setFld_net (s : State) (n : RegName) (hi lo v i : Nat) : (s.setFld n hi lo v i).net = s.net := rfl
@[simp] theorem State.setFld_sto (s : State) (n : RegName) (hi lo v i : Nat) : (s.setFld n hi lo v i).sto = s.sto := rfl
@[simp] theorem State.setFld_out (s : State) (n : RegName) (hi lo v i : Nat) : (s.setFld n hi lo v i).out = s.out := rfl
@[simp] theorem State.setFld_fresh (s : State) (n : RegName) (hi lo v i : Nat) : (s.setFld n hi lo v i).fresh = s.fresh := rfl

/-! State.bump -/

@[simp] theorem State.bump_pending (s : State) (n : RegName) (i k : Nat) : (s.bump n i k).pending = s.pending := rfl
@[simp] theorem State.bump_latch (s : State) (n : RegName) (i k : Nat) : (s.bump n i k).latch = s.latch := rfl
@[simp] theorem State.bump_readVal (s : State) (n : RegName) (i k : Nat) : (s.bump n i k).readVal = s.readVal := rfl
@[simp] theorem State.bump_mem (s : State) (n : RegName) (i k : Nat) : (s.bump n i k).mem = s.mem := rfl
@[simp] theorem State.bump_keep (s : State) (n : RegName) (i k : Nat) : (s.bump n i k).keep = s.keep := rfl
@[simp] theorem State.bump_strata (s : State) (n : RegName) (i k : Nat) : (s.bump n i k).strata = s.strata := rfl
@[simp] theorem State.bump_sieve (s : State) (n : RegName) (i k : Nat) : (s.bump n i k).sieve = s.sieve := rfl
@[simp] theorem State.bump_mbx (s : State) (n : RegName) (i k : Nat) : (s.bump n i k).mbx = s.mbx := rfl
@[simp] theorem State.bump_fw (s : State) (n : RegName) (i k : Nat) : (s.bump n i k).fw = s.fw := rfl
@[simp] theorem State.bump_irq (s : State) (n : RegName) (i k : Nat) : (s.bump n i k).irq = s.irq := rfl
@[simp] theorem State.bump_pwr (s : State) (n : RegName) (i k : Nat) : (s.bump n i k).pwr = s.pwr := rfl
@[simp] theorem State.bump_ft (s : State) (n : RegName) (i k : Nat) : (s.bump n i k).ft = s.ft := rfl
@[simp] theorem State.bump_cmp (s : State) (n : RegName) (i k : Nat) : (s.bump n i k).cmp = s.cmp := rfl
@[simp] theorem State.bump_frozen (s : State) (n : RegName) (i k : Nat) : (s.bump n i k).frozen = s.frozen := rfl
@[simp] theorem State.bump_cores (s : State) (n : RegName) (i k : Nat) : (s.bump n i k).cores = s.cores := rfl
@[simp] theorem State.bump_arr (s : State) (n : RegName) (i k : Nat) : (s.bump n i k).arr = s.arr := rfl
@[simp] theorem State.bump_work (s : State) (n : RegName) (i k : Nat) : (s.bump n i k).work = s.work := rfl
@[simp] theorem State.bump_doms (s : State) (n : RegName) (i k : Nat) : (s.bump n i k).doms = s.doms := rfl
@[simp] theorem State.bump_job (s : State) (n : RegName) (i k : Nat) : (s.bump n i k).job = s.job := rfl
@[simp] theorem State.bump_pci (s : State) (n : RegName) (i k : Nat) : (s.bump n i k).pci = s.pci := rfl
@[simp] theorem State.bump_slices (s : State) (n : RegName) (i k : Nat) : (s.bump n i k).slices = s.slices := rfl
@[simp] theorem State.bump_windows (s : State) (n : RegName) (i k : Nat) : (s.bump n i k).windows = s.windows := rfl
@[simp] theorem State.bump_accel (s : State) (n : RegName) (i k : Nat) : (s.bump n i k).accel = s.accel := rfl
@[simp] theorem State.bump_sec (s : State) (n : RegName) (i k : Nat) : (s.bump n i k).sec = s.sec := rfl
@[simp] theorem State.bump_vrm (s : State) (n : RegName) (i k : Nat) : (s.bump n i k).vrm = s.vrm := rfl
@[simp] theorem State.bump_net (s : State) (n : RegName) (i k : Nat) : (s.bump n i k).net = s.net := rfl
@[simp] theorem State.bump_sto (s : State) (n : RegName) (i k : Nat) : (s.bump n i k).sto = s.sto := rfl
@[simp] theorem State.bump_out (s : State) (n : RegName) (i k : Nat) : (s.bump n i k).out = s.out := rfl
@[simp] theorem State.bump_fresh (s : State) (n : RegName) (i k : Nat) : (s.bump n i k).fresh = s.fresh := rfl

/-! State.bumpFld -/

@[simp] theorem State.bumpFld_pending (s : State) (n : RegName) (hi lo i : Nat) : (s.bumpFld n hi lo i).pending = s.pending := rfl
@[simp] theorem State.bumpFld_latch (s : State) (n : RegName) (hi lo i : Nat) : (s.bumpFld n hi lo i).latch = s.latch := rfl
@[simp] theorem State.bumpFld_readVal (s : State) (n : RegName) (hi lo i : Nat) : (s.bumpFld n hi lo i).readVal = s.readVal := rfl
@[simp] theorem State.bumpFld_mem (s : State) (n : RegName) (hi lo i : Nat) : (s.bumpFld n hi lo i).mem = s.mem := rfl
@[simp] theorem State.bumpFld_keep (s : State) (n : RegName) (hi lo i : Nat) : (s.bumpFld n hi lo i).keep = s.keep := rfl
@[simp] theorem State.bumpFld_strata (s : State) (n : RegName) (hi lo i : Nat) : (s.bumpFld n hi lo i).strata = s.strata := rfl
@[simp] theorem State.bumpFld_sieve (s : State) (n : RegName) (hi lo i : Nat) : (s.bumpFld n hi lo i).sieve = s.sieve := rfl
@[simp] theorem State.bumpFld_mbx (s : State) (n : RegName) (hi lo i : Nat) : (s.bumpFld n hi lo i).mbx = s.mbx := rfl
@[simp] theorem State.bumpFld_fw (s : State) (n : RegName) (hi lo i : Nat) : (s.bumpFld n hi lo i).fw = s.fw := rfl
@[simp] theorem State.bumpFld_irq (s : State) (n : RegName) (hi lo i : Nat) : (s.bumpFld n hi lo i).irq = s.irq := rfl
@[simp] theorem State.bumpFld_pwr (s : State) (n : RegName) (hi lo i : Nat) : (s.bumpFld n hi lo i).pwr = s.pwr := rfl
@[simp] theorem State.bumpFld_ft (s : State) (n : RegName) (hi lo i : Nat) : (s.bumpFld n hi lo i).ft = s.ft := rfl
@[simp] theorem State.bumpFld_cmp (s : State) (n : RegName) (hi lo i : Nat) : (s.bumpFld n hi lo i).cmp = s.cmp := rfl
@[simp] theorem State.bumpFld_frozen (s : State) (n : RegName) (hi lo i : Nat) : (s.bumpFld n hi lo i).frozen = s.frozen := rfl
@[simp] theorem State.bumpFld_cores (s : State) (n : RegName) (hi lo i : Nat) : (s.bumpFld n hi lo i).cores = s.cores := rfl
@[simp] theorem State.bumpFld_arr (s : State) (n : RegName) (hi lo i : Nat) : (s.bumpFld n hi lo i).arr = s.arr := rfl
@[simp] theorem State.bumpFld_work (s : State) (n : RegName) (hi lo i : Nat) : (s.bumpFld n hi lo i).work = s.work := rfl
@[simp] theorem State.bumpFld_doms (s : State) (n : RegName) (hi lo i : Nat) : (s.bumpFld n hi lo i).doms = s.doms := rfl
@[simp] theorem State.bumpFld_job (s : State) (n : RegName) (hi lo i : Nat) : (s.bumpFld n hi lo i).job = s.job := rfl
@[simp] theorem State.bumpFld_pci (s : State) (n : RegName) (hi lo i : Nat) : (s.bumpFld n hi lo i).pci = s.pci := rfl
@[simp] theorem State.bumpFld_slices (s : State) (n : RegName) (hi lo i : Nat) : (s.bumpFld n hi lo i).slices = s.slices := rfl
@[simp] theorem State.bumpFld_windows (s : State) (n : RegName) (hi lo i : Nat) : (s.bumpFld n hi lo i).windows = s.windows := rfl
@[simp] theorem State.bumpFld_accel (s : State) (n : RegName) (hi lo i : Nat) : (s.bumpFld n hi lo i).accel = s.accel := rfl
@[simp] theorem State.bumpFld_sec (s : State) (n : RegName) (hi lo i : Nat) : (s.bumpFld n hi lo i).sec = s.sec := rfl
@[simp] theorem State.bumpFld_vrm (s : State) (n : RegName) (hi lo i : Nat) : (s.bumpFld n hi lo i).vrm = s.vrm := rfl
@[simp] theorem State.bumpFld_net (s : State) (n : RegName) (hi lo i : Nat) : (s.bumpFld n hi lo i).net = s.net := rfl
@[simp] theorem State.bumpFld_sto (s : State) (n : RegName) (hi lo i : Nat) : (s.bumpFld n hi lo i).sto = s.sto := rfl
@[simp] theorem State.bumpFld_out (s : State) (n : RegName) (hi lo i : Nat) : (s.bumpFld n hi lo i).out = s.out := rfl
@[simp] theorem State.bumpFld_fresh (s : State) (n : RegName) (hi lo i : Nat) : (s.bumpFld n hi lo i).fresh = s.fresh := rfl

/-! State.clearReg -/

@[simp] theorem State.clearReg_pending (s : State) (n : RegName) (i : Nat) : (s.clearReg n i).pending = s.pending := rfl
@[simp] theorem State.clearReg_latch (s : State) (n : RegName) (i : Nat) : (s.clearReg n i).latch = s.latch := rfl
@[simp] theorem State.clearReg_readVal (s : State) (n : RegName) (i : Nat) : (s.clearReg n i).readVal = s.readVal := rfl
@[simp] theorem State.clearReg_mem (s : State) (n : RegName) (i : Nat) : (s.clearReg n i).mem = s.mem := rfl
@[simp] theorem State.clearReg_keep (s : State) (n : RegName) (i : Nat) : (s.clearReg n i).keep = s.keep := rfl
@[simp] theorem State.clearReg_strata (s : State) (n : RegName) (i : Nat) : (s.clearReg n i).strata = s.strata := rfl
@[simp] theorem State.clearReg_sieve (s : State) (n : RegName) (i : Nat) : (s.clearReg n i).sieve = s.sieve := rfl
@[simp] theorem State.clearReg_mbx (s : State) (n : RegName) (i : Nat) : (s.clearReg n i).mbx = s.mbx := rfl
@[simp] theorem State.clearReg_fw (s : State) (n : RegName) (i : Nat) : (s.clearReg n i).fw = s.fw := rfl
@[simp] theorem State.clearReg_irq (s : State) (n : RegName) (i : Nat) : (s.clearReg n i).irq = s.irq := rfl
@[simp] theorem State.clearReg_pwr (s : State) (n : RegName) (i : Nat) : (s.clearReg n i).pwr = s.pwr := rfl
@[simp] theorem State.clearReg_ft (s : State) (n : RegName) (i : Nat) : (s.clearReg n i).ft = s.ft := rfl
@[simp] theorem State.clearReg_cmp (s : State) (n : RegName) (i : Nat) : (s.clearReg n i).cmp = s.cmp := rfl
@[simp] theorem State.clearReg_frozen (s : State) (n : RegName) (i : Nat) : (s.clearReg n i).frozen = s.frozen := rfl
@[simp] theorem State.clearReg_cores (s : State) (n : RegName) (i : Nat) : (s.clearReg n i).cores = s.cores := rfl
@[simp] theorem State.clearReg_arr (s : State) (n : RegName) (i : Nat) : (s.clearReg n i).arr = s.arr := rfl
@[simp] theorem State.clearReg_work (s : State) (n : RegName) (i : Nat) : (s.clearReg n i).work = s.work := rfl
@[simp] theorem State.clearReg_doms (s : State) (n : RegName) (i : Nat) : (s.clearReg n i).doms = s.doms := rfl
@[simp] theorem State.clearReg_job (s : State) (n : RegName) (i : Nat) : (s.clearReg n i).job = s.job := rfl
@[simp] theorem State.clearReg_pci (s : State) (n : RegName) (i : Nat) : (s.clearReg n i).pci = s.pci := rfl
@[simp] theorem State.clearReg_slices (s : State) (n : RegName) (i : Nat) : (s.clearReg n i).slices = s.slices := rfl
@[simp] theorem State.clearReg_windows (s : State) (n : RegName) (i : Nat) : (s.clearReg n i).windows = s.windows := rfl
@[simp] theorem State.clearReg_accel (s : State) (n : RegName) (i : Nat) : (s.clearReg n i).accel = s.accel := rfl
@[simp] theorem State.clearReg_sec (s : State) (n : RegName) (i : Nat) : (s.clearReg n i).sec = s.sec := rfl
@[simp] theorem State.clearReg_vrm (s : State) (n : RegName) (i : Nat) : (s.clearReg n i).vrm = s.vrm := rfl
@[simp] theorem State.clearReg_net (s : State) (n : RegName) (i : Nat) : (s.clearReg n i).net = s.net := rfl
@[simp] theorem State.clearReg_sto (s : State) (n : RegName) (i : Nat) : (s.clearReg n i).sto = s.sto := rfl
@[simp] theorem State.clearReg_out (s : State) (n : RegName) (i : Nat) : (s.clearReg n i).out = s.out := rfl
@[simp] theorem State.clearReg_fresh (s : State) (n : RegName) (i : Nat) : (s.clearReg n i).fresh = s.fresh := rfl

/-! State.ignored -/

@[simp] theorem State.ignored_pending (s : State) : (s.ignored).pending = s.pending := rfl
@[simp] theorem State.ignored_latch (s : State) : (s.ignored).latch = s.latch := rfl
@[simp] theorem State.ignored_readVal (s : State) : (s.ignored).readVal = s.readVal := rfl
@[simp] theorem State.ignored_mem (s : State) : (s.ignored).mem = s.mem := rfl
@[simp] theorem State.ignored_keep (s : State) : (s.ignored).keep = s.keep := rfl
@[simp] theorem State.ignored_strata (s : State) : (s.ignored).strata = s.strata := rfl
@[simp] theorem State.ignored_sieve (s : State) : (s.ignored).sieve = s.sieve := rfl
@[simp] theorem State.ignored_mbx (s : State) : (s.ignored).mbx = s.mbx := rfl
@[simp] theorem State.ignored_fw (s : State) : (s.ignored).fw = s.fw := rfl
@[simp] theorem State.ignored_irq (s : State) : (s.ignored).irq = s.irq := rfl
@[simp] theorem State.ignored_pwr (s : State) : (s.ignored).pwr = s.pwr := rfl
@[simp] theorem State.ignored_ft (s : State) : (s.ignored).ft = s.ft := rfl
@[simp] theorem State.ignored_cmp (s : State) : (s.ignored).cmp = s.cmp := rfl
@[simp] theorem State.ignored_frozen (s : State) : (s.ignored).frozen = s.frozen := rfl
@[simp] theorem State.ignored_cores (s : State) : (s.ignored).cores = s.cores := rfl
@[simp] theorem State.ignored_arr (s : State) : (s.ignored).arr = s.arr := rfl
@[simp] theorem State.ignored_work (s : State) : (s.ignored).work = s.work := rfl
@[simp] theorem State.ignored_doms (s : State) : (s.ignored).doms = s.doms := rfl
@[simp] theorem State.ignored_job (s : State) : (s.ignored).job = s.job := rfl
@[simp] theorem State.ignored_pci (s : State) : (s.ignored).pci = s.pci := rfl
@[simp] theorem State.ignored_slices (s : State) : (s.ignored).slices = s.slices := rfl
@[simp] theorem State.ignored_windows (s : State) : (s.ignored).windows = s.windows := rfl
@[simp] theorem State.ignored_accel (s : State) : (s.ignored).accel = s.accel := rfl
@[simp] theorem State.ignored_sec (s : State) : (s.ignored).sec = s.sec := rfl
@[simp] theorem State.ignored_vrm (s : State) : (s.ignored).vrm = s.vrm := rfl
@[simp] theorem State.ignored_net (s : State) : (s.ignored).net = s.net := rfl
@[simp] theorem State.ignored_sto (s : State) : (s.ignored).sto = s.sto := rfl
@[simp] theorem State.ignored_out (s : State) : (s.ignored).out = s.out := rfl
@[simp] theorem State.ignored_fresh (s : State) : (s.ignored).fresh = s.fresh := rfl

/-! State.setEicBit -/

@[simp] theorem State.setEicBit_pending (s : State) (n : RegName) (cl src : Nat) (v : Bool) : (s.setEicBit n cl src v).pending = s.pending := rfl
@[simp] theorem State.setEicBit_latch (s : State) (n : RegName) (cl src : Nat) (v : Bool) : (s.setEicBit n cl src v).latch = s.latch := rfl
@[simp] theorem State.setEicBit_readVal (s : State) (n : RegName) (cl src : Nat) (v : Bool) : (s.setEicBit n cl src v).readVal = s.readVal := rfl
@[simp] theorem State.setEicBit_mem (s : State) (n : RegName) (cl src : Nat) (v : Bool) : (s.setEicBit n cl src v).mem = s.mem := rfl
@[simp] theorem State.setEicBit_keep (s : State) (n : RegName) (cl src : Nat) (v : Bool) : (s.setEicBit n cl src v).keep = s.keep := rfl
@[simp] theorem State.setEicBit_strata (s : State) (n : RegName) (cl src : Nat) (v : Bool) : (s.setEicBit n cl src v).strata = s.strata := rfl
@[simp] theorem State.setEicBit_sieve (s : State) (n : RegName) (cl src : Nat) (v : Bool) : (s.setEicBit n cl src v).sieve = s.sieve := rfl
@[simp] theorem State.setEicBit_mbx (s : State) (n : RegName) (cl src : Nat) (v : Bool) : (s.setEicBit n cl src v).mbx = s.mbx := rfl
@[simp] theorem State.setEicBit_fw (s : State) (n : RegName) (cl src : Nat) (v : Bool) : (s.setEicBit n cl src v).fw = s.fw := rfl
@[simp] theorem State.setEicBit_irq (s : State) (n : RegName) (cl src : Nat) (v : Bool) : (s.setEicBit n cl src v).irq = s.irq := rfl
@[simp] theorem State.setEicBit_pwr (s : State) (n : RegName) (cl src : Nat) (v : Bool) : (s.setEicBit n cl src v).pwr = s.pwr := rfl
@[simp] theorem State.setEicBit_ft (s : State) (n : RegName) (cl src : Nat) (v : Bool) : (s.setEicBit n cl src v).ft = s.ft := rfl
@[simp] theorem State.setEicBit_cmp (s : State) (n : RegName) (cl src : Nat) (v : Bool) : (s.setEicBit n cl src v).cmp = s.cmp := rfl
@[simp] theorem State.setEicBit_frozen (s : State) (n : RegName) (cl src : Nat) (v : Bool) : (s.setEicBit n cl src v).frozen = s.frozen := rfl
@[simp] theorem State.setEicBit_cores (s : State) (n : RegName) (cl src : Nat) (v : Bool) : (s.setEicBit n cl src v).cores = s.cores := rfl
@[simp] theorem State.setEicBit_arr (s : State) (n : RegName) (cl src : Nat) (v : Bool) : (s.setEicBit n cl src v).arr = s.arr := rfl
@[simp] theorem State.setEicBit_work (s : State) (n : RegName) (cl src : Nat) (v : Bool) : (s.setEicBit n cl src v).work = s.work := rfl
@[simp] theorem State.setEicBit_doms (s : State) (n : RegName) (cl src : Nat) (v : Bool) : (s.setEicBit n cl src v).doms = s.doms := rfl
@[simp] theorem State.setEicBit_job (s : State) (n : RegName) (cl src : Nat) (v : Bool) : (s.setEicBit n cl src v).job = s.job := rfl
@[simp] theorem State.setEicBit_pci (s : State) (n : RegName) (cl src : Nat) (v : Bool) : (s.setEicBit n cl src v).pci = s.pci := rfl
@[simp] theorem State.setEicBit_slices (s : State) (n : RegName) (cl src : Nat) (v : Bool) : (s.setEicBit n cl src v).slices = s.slices := rfl
@[simp] theorem State.setEicBit_windows (s : State) (n : RegName) (cl src : Nat) (v : Bool) : (s.setEicBit n cl src v).windows = s.windows := rfl
@[simp] theorem State.setEicBit_accel (s : State) (n : RegName) (cl src : Nat) (v : Bool) : (s.setEicBit n cl src v).accel = s.accel := rfl
@[simp] theorem State.setEicBit_sec (s : State) (n : RegName) (cl src : Nat) (v : Bool) : (s.setEicBit n cl src v).sec = s.sec := rfl
@[simp] theorem State.setEicBit_vrm (s : State) (n : RegName) (cl src : Nat) (v : Bool) : (s.setEicBit n cl src v).vrm = s.vrm := rfl
@[simp] theorem State.setEicBit_net (s : State) (n : RegName) (cl src : Nat) (v : Bool) : (s.setEicBit n cl src v).net = s.net := rfl
@[simp] theorem State.setEicBit_sto (s : State) (n : RegName) (cl src : Nat) (v : Bool) : (s.setEicBit n cl src v).sto = s.sto := rfl
@[simp] theorem State.setEicBit_out (s : State) (n : RegName) (cl src : Nat) (v : Bool) : (s.setEicBit n cl src v).out = s.out := rfl
@[simp] theorem State.setEicBit_fresh (s : State) (n : RegName) (cl src : Nat) (v : Bool) : (s.setEicBit n cl src v).fresh = s.fresh := rfl

/-! State.emit -/

@[simp] theorem State.emit_pending (s : State) (e : Emit) : (s.emit e).pending = s.pending := rfl
@[simp] theorem State.emit_regs (s : State) (e : Emit) : (s.emit e).regs = s.regs := rfl
@[simp] theorem State.emit_latch (s : State) (e : Emit) : (s.emit e).latch = s.latch := rfl
@[simp] theorem State.emit_readVal (s : State) (e : Emit) : (s.emit e).readVal = s.readVal := rfl
@[simp] theorem State.emit_mem (s : State) (e : Emit) : (s.emit e).mem = s.mem := rfl
@[simp] theorem State.emit_keep (s : State) (e : Emit) : (s.emit e).keep = s.keep := rfl
@[simp] theorem State.emit_strata (s : State) (e : Emit) : (s.emit e).strata = s.strata := rfl
@[simp] theorem State.emit_sieve (s : State) (e : Emit) : (s.emit e).sieve = s.sieve := rfl
@[simp] theorem State.emit_mbx (s : State) (e : Emit) : (s.emit e).mbx = s.mbx := rfl
@[simp] theorem State.emit_fw (s : State) (e : Emit) : (s.emit e).fw = s.fw := rfl
@[simp] theorem State.emit_irq (s : State) (e : Emit) : (s.emit e).irq = s.irq := rfl
@[simp] theorem State.emit_pwr (s : State) (e : Emit) : (s.emit e).pwr = s.pwr := rfl
@[simp] theorem State.emit_ft (s : State) (e : Emit) : (s.emit e).ft = s.ft := rfl
@[simp] theorem State.emit_cmp (s : State) (e : Emit) : (s.emit e).cmp = s.cmp := rfl
@[simp] theorem State.emit_frozen (s : State) (e : Emit) : (s.emit e).frozen = s.frozen := rfl
@[simp] theorem State.emit_cores (s : State) (e : Emit) : (s.emit e).cores = s.cores := rfl
@[simp] theorem State.emit_arr (s : State) (e : Emit) : (s.emit e).arr = s.arr := rfl
@[simp] theorem State.emit_work (s : State) (e : Emit) : (s.emit e).work = s.work := rfl
@[simp] theorem State.emit_doms (s : State) (e : Emit) : (s.emit e).doms = s.doms := rfl
@[simp] theorem State.emit_job (s : State) (e : Emit) : (s.emit e).job = s.job := rfl
@[simp] theorem State.emit_pci (s : State) (e : Emit) : (s.emit e).pci = s.pci := rfl
@[simp] theorem State.emit_slices (s : State) (e : Emit) : (s.emit e).slices = s.slices := rfl
@[simp] theorem State.emit_windows (s : State) (e : Emit) : (s.emit e).windows = s.windows := rfl
@[simp] theorem State.emit_accel (s : State) (e : Emit) : (s.emit e).accel = s.accel := rfl
@[simp] theorem State.emit_sec (s : State) (e : Emit) : (s.emit e).sec = s.sec := rfl
@[simp] theorem State.emit_vrm (s : State) (e : Emit) : (s.emit e).vrm = s.vrm := rfl
@[simp] theorem State.emit_net (s : State) (e : Emit) : (s.emit e).net = s.net := rfl
@[simp] theorem State.emit_sto (s : State) (e : Emit) : (s.emit e).sto = s.sto := rfl
@[simp] theorem State.emit_fresh (s : State) (e : Emit) : (s.emit e).fresh = s.fresh := rfl

/-! State.draw -/

@[simp] theorem State.draw_pending (s : State) (w : Nat) : (s.draw w).2.pending = s.pending := rfl
@[simp] theorem State.draw_regs (s : State) (w : Nat) : (s.draw w).2.regs = s.regs := rfl
@[simp] theorem State.draw_latch (s : State) (w : Nat) : (s.draw w).2.latch = s.latch := rfl
@[simp] theorem State.draw_readVal (s : State) (w : Nat) : (s.draw w).2.readVal = s.readVal := rfl
@[simp] theorem State.draw_mem (s : State) (w : Nat) : (s.draw w).2.mem = s.mem := rfl
@[simp] theorem State.draw_keep (s : State) (w : Nat) : (s.draw w).2.keep = s.keep := rfl
@[simp] theorem State.draw_strata (s : State) (w : Nat) : (s.draw w).2.strata = s.strata := rfl
@[simp] theorem State.draw_sieve (s : State) (w : Nat) : (s.draw w).2.sieve = s.sieve := rfl
@[simp] theorem State.draw_mbx (s : State) (w : Nat) : (s.draw w).2.mbx = s.mbx := rfl
@[simp] theorem State.draw_fw (s : State) (w : Nat) : (s.draw w).2.fw = s.fw := rfl
@[simp] theorem State.draw_irq (s : State) (w : Nat) : (s.draw w).2.irq = s.irq := rfl
@[simp] theorem State.draw_pwr (s : State) (w : Nat) : (s.draw w).2.pwr = s.pwr := rfl
@[simp] theorem State.draw_ft (s : State) (w : Nat) : (s.draw w).2.ft = s.ft := rfl
@[simp] theorem State.draw_cmp (s : State) (w : Nat) : (s.draw w).2.cmp = s.cmp := rfl
@[simp] theorem State.draw_frozen (s : State) (w : Nat) : (s.draw w).2.frozen = s.frozen := rfl
@[simp] theorem State.draw_cores (s : State) (w : Nat) : (s.draw w).2.cores = s.cores := rfl
@[simp] theorem State.draw_arr (s : State) (w : Nat) : (s.draw w).2.arr = s.arr := rfl
@[simp] theorem State.draw_work (s : State) (w : Nat) : (s.draw w).2.work = s.work := rfl
@[simp] theorem State.draw_doms (s : State) (w : Nat) : (s.draw w).2.doms = s.doms := rfl
@[simp] theorem State.draw_job (s : State) (w : Nat) : (s.draw w).2.job = s.job := rfl
@[simp] theorem State.draw_pci (s : State) (w : Nat) : (s.draw w).2.pci = s.pci := rfl
@[simp] theorem State.draw_slices (s : State) (w : Nat) : (s.draw w).2.slices = s.slices := rfl
@[simp] theorem State.draw_windows (s : State) (w : Nat) : (s.draw w).2.windows = s.windows := rfl
@[simp] theorem State.draw_accel (s : State) (w : Nat) : (s.draw w).2.accel = s.accel := rfl
@[simp] theorem State.draw_sec (s : State) (w : Nat) : (s.draw w).2.sec = s.sec := rfl
@[simp] theorem State.draw_vrm (s : State) (w : Nat) : (s.draw w).2.vrm = s.vrm := rfl
@[simp] theorem State.draw_net (s : State) (w : Nat) : (s.draw w).2.net = s.net := rfl
@[simp] theorem State.draw_sto (s : State) (w : Nat) : (s.draw w).2.sto = s.sto := rfl
@[simp] theorem State.draw_out (s : State) (w : Nat) : (s.draw w).2.out = s.out := rfl

/-! State.store -/

@[simp] theorem State.store_pending (s : State) (sp : Space) (a : Nat) (l : List Byte) : (s.store sp a l).pending = s.pending := rfl
@[simp] theorem State.store_regs (s : State) (sp : Space) (a : Nat) (l : List Byte) : (s.store sp a l).regs = s.regs := rfl
@[simp] theorem State.store_latch (s : State) (sp : Space) (a : Nat) (l : List Byte) : (s.store sp a l).latch = s.latch := rfl
@[simp] theorem State.store_readVal (s : State) (sp : Space) (a : Nat) (l : List Byte) : (s.store sp a l).readVal = s.readVal := rfl
@[simp] theorem State.store_keep (s : State) (sp : Space) (a : Nat) (l : List Byte) : (s.store sp a l).keep = s.keep := rfl
@[simp] theorem State.store_strata (s : State) (sp : Space) (a : Nat) (l : List Byte) : (s.store sp a l).strata = s.strata := rfl
@[simp] theorem State.store_sieve (s : State) (sp : Space) (a : Nat) (l : List Byte) : (s.store sp a l).sieve = s.sieve := rfl
@[simp] theorem State.store_mbx (s : State) (sp : Space) (a : Nat) (l : List Byte) : (s.store sp a l).mbx = s.mbx := rfl
@[simp] theorem State.store_fw (s : State) (sp : Space) (a : Nat) (l : List Byte) : (s.store sp a l).fw = s.fw := rfl
@[simp] theorem State.store_irq (s : State) (sp : Space) (a : Nat) (l : List Byte) : (s.store sp a l).irq = s.irq := rfl
@[simp] theorem State.store_pwr (s : State) (sp : Space) (a : Nat) (l : List Byte) : (s.store sp a l).pwr = s.pwr := rfl
@[simp] theorem State.store_ft (s : State) (sp : Space) (a : Nat) (l : List Byte) : (s.store sp a l).ft = s.ft := rfl
@[simp] theorem State.store_cmp (s : State) (sp : Space) (a : Nat) (l : List Byte) : (s.store sp a l).cmp = s.cmp := rfl
@[simp] theorem State.store_frozen (s : State) (sp : Space) (a : Nat) (l : List Byte) : (s.store sp a l).frozen = s.frozen := rfl
@[simp] theorem State.store_cores (s : State) (sp : Space) (a : Nat) (l : List Byte) : (s.store sp a l).cores = s.cores := rfl
@[simp] theorem State.store_arr (s : State) (sp : Space) (a : Nat) (l : List Byte) : (s.store sp a l).arr = s.arr := rfl
@[simp] theorem State.store_work (s : State) (sp : Space) (a : Nat) (l : List Byte) : (s.store sp a l).work = s.work := rfl
@[simp] theorem State.store_doms (s : State) (sp : Space) (a : Nat) (l : List Byte) : (s.store sp a l).doms = s.doms := rfl
@[simp] theorem State.store_job (s : State) (sp : Space) (a : Nat) (l : List Byte) : (s.store sp a l).job = s.job := rfl
@[simp] theorem State.store_pci (s : State) (sp : Space) (a : Nat) (l : List Byte) : (s.store sp a l).pci = s.pci := rfl
@[simp] theorem State.store_slices (s : State) (sp : Space) (a : Nat) (l : List Byte) : (s.store sp a l).slices = s.slices := rfl
@[simp] theorem State.store_windows (s : State) (sp : Space) (a : Nat) (l : List Byte) : (s.store sp a l).windows = s.windows := rfl
@[simp] theorem State.store_accel (s : State) (sp : Space) (a : Nat) (l : List Byte) : (s.store sp a l).accel = s.accel := rfl
@[simp] theorem State.store_sec (s : State) (sp : Space) (a : Nat) (l : List Byte) : (s.store sp a l).sec = s.sec := rfl
@[simp] theorem State.store_vrm (s : State) (sp : Space) (a : Nat) (l : List Byte) : (s.store sp a l).vrm = s.vrm := rfl
@[simp] theorem State.store_net (s : State) (sp : Space) (a : Nat) (l : List Byte) : (s.store sp a l).net = s.net := rfl
@[simp] theorem State.store_sto (s : State) (sp : Space) (a : Nat) (l : List Byte) : (s.store sp a l).sto = s.sto := rfl
@[simp] theorem State.store_out (s : State) (sp : Space) (a : Nat) (l : List Byte) : (s.store sp a l).out = s.out := rfl
@[simp] theorem State.store_fresh (s : State) (sp : Space) (a : Nat) (l : List Byte) : (s.store sp a l).fresh = s.fresh := rfl

/-! State.zero -/

@[simp] theorem State.zero_pending (s : State) (sp : Space) (a n : Nat) : (s.zero sp a n).pending = s.pending := rfl
@[simp] theorem State.zero_regs (s : State) (sp : Space) (a n : Nat) : (s.zero sp a n).regs = s.regs := rfl
@[simp] theorem State.zero_latch (s : State) (sp : Space) (a n : Nat) : (s.zero sp a n).latch = s.latch := rfl
@[simp] theorem State.zero_readVal (s : State) (sp : Space) (a n : Nat) : (s.zero sp a n).readVal = s.readVal := rfl
@[simp] theorem State.zero_keep (s : State) (sp : Space) (a n : Nat) : (s.zero sp a n).keep = s.keep := rfl
@[simp] theorem State.zero_strata (s : State) (sp : Space) (a n : Nat) : (s.zero sp a n).strata = s.strata := rfl
@[simp] theorem State.zero_sieve (s : State) (sp : Space) (a n : Nat) : (s.zero sp a n).sieve = s.sieve := rfl
@[simp] theorem State.zero_mbx (s : State) (sp : Space) (a n : Nat) : (s.zero sp a n).mbx = s.mbx := rfl
@[simp] theorem State.zero_fw (s : State) (sp : Space) (a n : Nat) : (s.zero sp a n).fw = s.fw := rfl
@[simp] theorem State.zero_irq (s : State) (sp : Space) (a n : Nat) : (s.zero sp a n).irq = s.irq := rfl
@[simp] theorem State.zero_pwr (s : State) (sp : Space) (a n : Nat) : (s.zero sp a n).pwr = s.pwr := rfl
@[simp] theorem State.zero_ft (s : State) (sp : Space) (a n : Nat) : (s.zero sp a n).ft = s.ft := rfl
@[simp] theorem State.zero_cmp (s : State) (sp : Space) (a n : Nat) : (s.zero sp a n).cmp = s.cmp := rfl
@[simp] theorem State.zero_frozen (s : State) (sp : Space) (a n : Nat) : (s.zero sp a n).frozen = s.frozen := rfl
@[simp] theorem State.zero_cores (s : State) (sp : Space) (a n : Nat) : (s.zero sp a n).cores = s.cores := rfl
@[simp] theorem State.zero_arr (s : State) (sp : Space) (a n : Nat) : (s.zero sp a n).arr = s.arr := rfl
@[simp] theorem State.zero_work (s : State) (sp : Space) (a n : Nat) : (s.zero sp a n).work = s.work := rfl
@[simp] theorem State.zero_doms (s : State) (sp : Space) (a n : Nat) : (s.zero sp a n).doms = s.doms := rfl
@[simp] theorem State.zero_job (s : State) (sp : Space) (a n : Nat) : (s.zero sp a n).job = s.job := rfl
@[simp] theorem State.zero_pci (s : State) (sp : Space) (a n : Nat) : (s.zero sp a n).pci = s.pci := rfl
@[simp] theorem State.zero_slices (s : State) (sp : Space) (a n : Nat) : (s.zero sp a n).slices = s.slices := rfl
@[simp] theorem State.zero_windows (s : State) (sp : Space) (a n : Nat) : (s.zero sp a n).windows = s.windows := rfl
@[simp] theorem State.zero_accel (s : State) (sp : Space) (a n : Nat) : (s.zero sp a n).accel = s.accel := rfl
@[simp] theorem State.zero_sec (s : State) (sp : Space) (a n : Nat) : (s.zero sp a n).sec = s.sec := rfl
@[simp] theorem State.zero_vrm (s : State) (sp : Space) (a n : Nat) : (s.zero sp a n).vrm = s.vrm := rfl
@[simp] theorem State.zero_net (s : State) (sp : Space) (a n : Nat) : (s.zero sp a n).net = s.net := rfl
@[simp] theorem State.zero_sto (s : State) (sp : Space) (a n : Nat) : (s.zero sp a n).sto = s.sto := rfl
@[simp] theorem State.zero_out (s : State) (sp : Space) (a n : Nat) : (s.zero sp a n).out = s.out := rfl
@[simp] theorem State.zero_fresh (s : State) (sp : Space) (a n : Nat) : (s.zero sp a n).fresh = s.fresh := rfl

/-! State.copy -/

@[simp] theorem State.copy_pending (s : State) (dst : Space) (d : Nat) (src : Space) (a n : Nat) : (s.copy dst d src a n).pending = s.pending := rfl
@[simp] theorem State.copy_regs (s : State) (dst : Space) (d : Nat) (src : Space) (a n : Nat) : (s.copy dst d src a n).regs = s.regs := rfl
@[simp] theorem State.copy_latch (s : State) (dst : Space) (d : Nat) (src : Space) (a n : Nat) : (s.copy dst d src a n).latch = s.latch := rfl
@[simp] theorem State.copy_readVal (s : State) (dst : Space) (d : Nat) (src : Space) (a n : Nat) : (s.copy dst d src a n).readVal = s.readVal := rfl
@[simp] theorem State.copy_keep (s : State) (dst : Space) (d : Nat) (src : Space) (a n : Nat) : (s.copy dst d src a n).keep = s.keep := rfl
@[simp] theorem State.copy_strata (s : State) (dst : Space) (d : Nat) (src : Space) (a n : Nat) : (s.copy dst d src a n).strata = s.strata := rfl
@[simp] theorem State.copy_sieve (s : State) (dst : Space) (d : Nat) (src : Space) (a n : Nat) : (s.copy dst d src a n).sieve = s.sieve := rfl
@[simp] theorem State.copy_mbx (s : State) (dst : Space) (d : Nat) (src : Space) (a n : Nat) : (s.copy dst d src a n).mbx = s.mbx := rfl
@[simp] theorem State.copy_fw (s : State) (dst : Space) (d : Nat) (src : Space) (a n : Nat) : (s.copy dst d src a n).fw = s.fw := rfl
@[simp] theorem State.copy_irq (s : State) (dst : Space) (d : Nat) (src : Space) (a n : Nat) : (s.copy dst d src a n).irq = s.irq := rfl
@[simp] theorem State.copy_pwr (s : State) (dst : Space) (d : Nat) (src : Space) (a n : Nat) : (s.copy dst d src a n).pwr = s.pwr := rfl
@[simp] theorem State.copy_ft (s : State) (dst : Space) (d : Nat) (src : Space) (a n : Nat) : (s.copy dst d src a n).ft = s.ft := rfl
@[simp] theorem State.copy_cmp (s : State) (dst : Space) (d : Nat) (src : Space) (a n : Nat) : (s.copy dst d src a n).cmp = s.cmp := rfl
@[simp] theorem State.copy_frozen (s : State) (dst : Space) (d : Nat) (src : Space) (a n : Nat) : (s.copy dst d src a n).frozen = s.frozen := rfl
@[simp] theorem State.copy_cores (s : State) (dst : Space) (d : Nat) (src : Space) (a n : Nat) : (s.copy dst d src a n).cores = s.cores := rfl
@[simp] theorem State.copy_arr (s : State) (dst : Space) (d : Nat) (src : Space) (a n : Nat) : (s.copy dst d src a n).arr = s.arr := rfl
@[simp] theorem State.copy_work (s : State) (dst : Space) (d : Nat) (src : Space) (a n : Nat) : (s.copy dst d src a n).work = s.work := rfl
@[simp] theorem State.copy_doms (s : State) (dst : Space) (d : Nat) (src : Space) (a n : Nat) : (s.copy dst d src a n).doms = s.doms := rfl
@[simp] theorem State.copy_job (s : State) (dst : Space) (d : Nat) (src : Space) (a n : Nat) : (s.copy dst d src a n).job = s.job := rfl
@[simp] theorem State.copy_pci (s : State) (dst : Space) (d : Nat) (src : Space) (a n : Nat) : (s.copy dst d src a n).pci = s.pci := rfl
@[simp] theorem State.copy_slices (s : State) (dst : Space) (d : Nat) (src : Space) (a n : Nat) : (s.copy dst d src a n).slices = s.slices := rfl
@[simp] theorem State.copy_windows (s : State) (dst : Space) (d : Nat) (src : Space) (a n : Nat) : (s.copy dst d src a n).windows = s.windows := rfl
@[simp] theorem State.copy_accel (s : State) (dst : Space) (d : Nat) (src : Space) (a n : Nat) : (s.copy dst d src a n).accel = s.accel := rfl
@[simp] theorem State.copy_sec (s : State) (dst : Space) (d : Nat) (src : Space) (a n : Nat) : (s.copy dst d src a n).sec = s.sec := rfl
@[simp] theorem State.copy_vrm (s : State) (dst : Space) (d : Nat) (src : Space) (a n : Nat) : (s.copy dst d src a n).vrm = s.vrm := rfl
@[simp] theorem State.copy_net (s : State) (dst : Space) (d : Nat) (src : Space) (a n : Nat) : (s.copy dst d src a n).net = s.net := rfl
@[simp] theorem State.copy_sto (s : State) (dst : Space) (d : Nat) (src : Space) (a n : Nat) : (s.copy dst d src a n).sto = s.sto := rfl
@[simp] theorem State.copy_out (s : State) (dst : Space) (d : Nat) (src : Space) (a n : Nat) : (s.copy dst d src a n).out = s.out := rfl
@[simp] theorem State.copy_fresh (s : State) (dst : Space) (d : Nat) (src : Space) (a n : Nat) : (s.copy dst d src a n).fresh = s.fresh := rfl

/-! State.setCore -/

@[simp] theorem State.setCore_pending (s : State) (id : Nat) (c : Core) : (s.setCore id c).pending = s.pending := rfl
@[simp] theorem State.setCore_regs (s : State) (id : Nat) (c : Core) : (s.setCore id c).regs = s.regs := rfl
@[simp] theorem State.setCore_latch (s : State) (id : Nat) (c : Core) : (s.setCore id c).latch = s.latch := rfl
@[simp] theorem State.setCore_readVal (s : State) (id : Nat) (c : Core) : (s.setCore id c).readVal = s.readVal := rfl
@[simp] theorem State.setCore_mem (s : State) (id : Nat) (c : Core) : (s.setCore id c).mem = s.mem := rfl
@[simp] theorem State.setCore_keep (s : State) (id : Nat) (c : Core) : (s.setCore id c).keep = s.keep := rfl
@[simp] theorem State.setCore_strata (s : State) (id : Nat) (c : Core) : (s.setCore id c).strata = s.strata := rfl
@[simp] theorem State.setCore_sieve (s : State) (id : Nat) (c : Core) : (s.setCore id c).sieve = s.sieve := rfl
@[simp] theorem State.setCore_mbx (s : State) (id : Nat) (c : Core) : (s.setCore id c).mbx = s.mbx := rfl
@[simp] theorem State.setCore_fw (s : State) (id : Nat) (c : Core) : (s.setCore id c).fw = s.fw := rfl
@[simp] theorem State.setCore_irq (s : State) (id : Nat) (c : Core) : (s.setCore id c).irq = s.irq := rfl
@[simp] theorem State.setCore_pwr (s : State) (id : Nat) (c : Core) : (s.setCore id c).pwr = s.pwr := rfl
@[simp] theorem State.setCore_ft (s : State) (id : Nat) (c : Core) : (s.setCore id c).ft = s.ft := rfl
@[simp] theorem State.setCore_cmp (s : State) (id : Nat) (c : Core) : (s.setCore id c).cmp = s.cmp := rfl
@[simp] theorem State.setCore_frozen (s : State) (id : Nat) (c : Core) : (s.setCore id c).frozen = s.frozen := rfl
@[simp] theorem State.setCore_arr (s : State) (id : Nat) (c : Core) : (s.setCore id c).arr = s.arr := rfl
@[simp] theorem State.setCore_work (s : State) (id : Nat) (c : Core) : (s.setCore id c).work = s.work := rfl
@[simp] theorem State.setCore_doms (s : State) (id : Nat) (c : Core) : (s.setCore id c).doms = s.doms := rfl
@[simp] theorem State.setCore_job (s : State) (id : Nat) (c : Core) : (s.setCore id c).job = s.job := rfl
@[simp] theorem State.setCore_pci (s : State) (id : Nat) (c : Core) : (s.setCore id c).pci = s.pci := rfl
@[simp] theorem State.setCore_slices (s : State) (id : Nat) (c : Core) : (s.setCore id c).slices = s.slices := rfl
@[simp] theorem State.setCore_windows (s : State) (id : Nat) (c : Core) : (s.setCore id c).windows = s.windows := rfl
@[simp] theorem State.setCore_accel (s : State) (id : Nat) (c : Core) : (s.setCore id c).accel = s.accel := rfl
@[simp] theorem State.setCore_sec (s : State) (id : Nat) (c : Core) : (s.setCore id c).sec = s.sec := rfl
@[simp] theorem State.setCore_vrm (s : State) (id : Nat) (c : Core) : (s.setCore id c).vrm = s.vrm := rfl
@[simp] theorem State.setCore_net (s : State) (id : Nat) (c : Core) : (s.setCore id c).net = s.net := rfl
@[simp] theorem State.setCore_sto (s : State) (id : Nat) (c : Core) : (s.setCore id c).sto = s.sto := rfl
@[simp] theorem State.setCore_out (s : State) (id : Nat) (c : Core) : (s.setCore id c).out = s.out := rfl
@[simp] theorem State.setCore_fresh (s : State) (id : Nat) (c : Core) : (s.setCore id c).fresh = s.fresh := rfl

/-! State.modCore -/

@[simp] theorem State.modCore_pending (s : State) (id : Nat) (f : Core → Core) : (s.modCore id f).pending = s.pending := rfl
@[simp] theorem State.modCore_regs (s : State) (id : Nat) (f : Core → Core) : (s.modCore id f).regs = s.regs := rfl
@[simp] theorem State.modCore_latch (s : State) (id : Nat) (f : Core → Core) : (s.modCore id f).latch = s.latch := rfl
@[simp] theorem State.modCore_readVal (s : State) (id : Nat) (f : Core → Core) : (s.modCore id f).readVal = s.readVal := rfl
@[simp] theorem State.modCore_mem (s : State) (id : Nat) (f : Core → Core) : (s.modCore id f).mem = s.mem := rfl
@[simp] theorem State.modCore_keep (s : State) (id : Nat) (f : Core → Core) : (s.modCore id f).keep = s.keep := rfl
@[simp] theorem State.modCore_strata (s : State) (id : Nat) (f : Core → Core) : (s.modCore id f).strata = s.strata := rfl
@[simp] theorem State.modCore_sieve (s : State) (id : Nat) (f : Core → Core) : (s.modCore id f).sieve = s.sieve := rfl
@[simp] theorem State.modCore_mbx (s : State) (id : Nat) (f : Core → Core) : (s.modCore id f).mbx = s.mbx := rfl
@[simp] theorem State.modCore_fw (s : State) (id : Nat) (f : Core → Core) : (s.modCore id f).fw = s.fw := rfl
@[simp] theorem State.modCore_irq (s : State) (id : Nat) (f : Core → Core) : (s.modCore id f).irq = s.irq := rfl
@[simp] theorem State.modCore_pwr (s : State) (id : Nat) (f : Core → Core) : (s.modCore id f).pwr = s.pwr := rfl
@[simp] theorem State.modCore_ft (s : State) (id : Nat) (f : Core → Core) : (s.modCore id f).ft = s.ft := rfl
@[simp] theorem State.modCore_cmp (s : State) (id : Nat) (f : Core → Core) : (s.modCore id f).cmp = s.cmp := rfl
@[simp] theorem State.modCore_frozen (s : State) (id : Nat) (f : Core → Core) : (s.modCore id f).frozen = s.frozen := rfl
@[simp] theorem State.modCore_arr (s : State) (id : Nat) (f : Core → Core) : (s.modCore id f).arr = s.arr := rfl
@[simp] theorem State.modCore_work (s : State) (id : Nat) (f : Core → Core) : (s.modCore id f).work = s.work := rfl
@[simp] theorem State.modCore_doms (s : State) (id : Nat) (f : Core → Core) : (s.modCore id f).doms = s.doms := rfl
@[simp] theorem State.modCore_job (s : State) (id : Nat) (f : Core → Core) : (s.modCore id f).job = s.job := rfl
@[simp] theorem State.modCore_pci (s : State) (id : Nat) (f : Core → Core) : (s.modCore id f).pci = s.pci := rfl
@[simp] theorem State.modCore_slices (s : State) (id : Nat) (f : Core → Core) : (s.modCore id f).slices = s.slices := rfl
@[simp] theorem State.modCore_windows (s : State) (id : Nat) (f : Core → Core) : (s.modCore id f).windows = s.windows := rfl
@[simp] theorem State.modCore_accel (s : State) (id : Nat) (f : Core → Core) : (s.modCore id f).accel = s.accel := rfl
@[simp] theorem State.modCore_sec (s : State) (id : Nat) (f : Core → Core) : (s.modCore id f).sec = s.sec := rfl
@[simp] theorem State.modCore_vrm (s : State) (id : Nat) (f : Core → Core) : (s.modCore id f).vrm = s.vrm := rfl
@[simp] theorem State.modCore_net (s : State) (id : Nat) (f : Core → Core) : (s.modCore id f).net = s.net := rfl
@[simp] theorem State.modCore_sto (s : State) (id : Nat) (f : Core → Core) : (s.modCore id f).sto = s.sto := rfl
@[simp] theorem State.modCore_out (s : State) (id : Nat) (f : Core → Core) : (s.modCore id f).out = s.out := rfl
@[simp] theorem State.modCore_fresh (s : State) (id : Nat) (f : Core → Core) : (s.modCore id f).fresh = s.fresh := rfl

/-! State.setMailbox -/

@[simp] theorem State.setMailbox_pending (s : State) (c : Caller) (m : Mailbox) : (s.setMailbox c m).pending = s.pending := rfl
@[simp] theorem State.setMailbox_regs (s : State) (c : Caller) (m : Mailbox) : (s.setMailbox c m).regs = s.regs := rfl
@[simp] theorem State.setMailbox_latch (s : State) (c : Caller) (m : Mailbox) : (s.setMailbox c m).latch = s.latch := rfl
@[simp] theorem State.setMailbox_readVal (s : State) (c : Caller) (m : Mailbox) : (s.setMailbox c m).readVal = s.readVal := rfl
@[simp] theorem State.setMailbox_mem (s : State) (c : Caller) (m : Mailbox) : (s.setMailbox c m).mem = s.mem := rfl
@[simp] theorem State.setMailbox_keep (s : State) (c : Caller) (m : Mailbox) : (s.setMailbox c m).keep = s.keep := rfl
@[simp] theorem State.setMailbox_strata (s : State) (c : Caller) (m : Mailbox) : (s.setMailbox c m).strata = s.strata := rfl
@[simp] theorem State.setMailbox_sieve (s : State) (c : Caller) (m : Mailbox) : (s.setMailbox c m).sieve = s.sieve := rfl
@[simp] theorem State.setMailbox_fw (s : State) (c : Caller) (m : Mailbox) : (s.setMailbox c m).fw = s.fw := rfl
@[simp] theorem State.setMailbox_irq (s : State) (c : Caller) (m : Mailbox) : (s.setMailbox c m).irq = s.irq := rfl
@[simp] theorem State.setMailbox_pwr (s : State) (c : Caller) (m : Mailbox) : (s.setMailbox c m).pwr = s.pwr := rfl
@[simp] theorem State.setMailbox_ft (s : State) (c : Caller) (m : Mailbox) : (s.setMailbox c m).ft = s.ft := rfl
@[simp] theorem State.setMailbox_cmp (s : State) (c : Caller) (m : Mailbox) : (s.setMailbox c m).cmp = s.cmp := rfl
@[simp] theorem State.setMailbox_frozen (s : State) (c : Caller) (m : Mailbox) : (s.setMailbox c m).frozen = s.frozen := rfl
@[simp] theorem State.setMailbox_cores (s : State) (c : Caller) (m : Mailbox) : (s.setMailbox c m).cores = s.cores := rfl
@[simp] theorem State.setMailbox_arr (s : State) (c : Caller) (m : Mailbox) : (s.setMailbox c m).arr = s.arr := rfl
@[simp] theorem State.setMailbox_work (s : State) (c : Caller) (m : Mailbox) : (s.setMailbox c m).work = s.work := rfl
@[simp] theorem State.setMailbox_doms (s : State) (c : Caller) (m : Mailbox) : (s.setMailbox c m).doms = s.doms := rfl
@[simp] theorem State.setMailbox_job (s : State) (c : Caller) (m : Mailbox) : (s.setMailbox c m).job = s.job := rfl
@[simp] theorem State.setMailbox_pci (s : State) (c : Caller) (m : Mailbox) : (s.setMailbox c m).pci = s.pci := rfl
@[simp] theorem State.setMailbox_slices (s : State) (c : Caller) (m : Mailbox) : (s.setMailbox c m).slices = s.slices := rfl
@[simp] theorem State.setMailbox_windows (s : State) (c : Caller) (m : Mailbox) : (s.setMailbox c m).windows = s.windows := rfl
@[simp] theorem State.setMailbox_accel (s : State) (c : Caller) (m : Mailbox) : (s.setMailbox c m).accel = s.accel := rfl
@[simp] theorem State.setMailbox_sec (s : State) (c : Caller) (m : Mailbox) : (s.setMailbox c m).sec = s.sec := rfl
@[simp] theorem State.setMailbox_vrm (s : State) (c : Caller) (m : Mailbox) : (s.setMailbox c m).vrm = s.vrm := rfl
@[simp] theorem State.setMailbox_net (s : State) (c : Caller) (m : Mailbox) : (s.setMailbox c m).net = s.net := rfl
@[simp] theorem State.setMailbox_sto (s : State) (c : Caller) (m : Mailbox) : (s.setMailbox c m).sto = s.sto := rfl
@[simp] theorem State.setMailbox_out (s : State) (c : Caller) (m : Mailbox) : (s.setMailbox c m).out = s.out := rfl
@[simp] theorem State.setMailbox_fresh (s : State) (c : Caller) (m : Mailbox) : (s.setMailbox c m).fresh = s.fresh := rfl

/-! State.setPart -/

@[simp] theorem State.setPart_pending (s : State) (p : Nat) (P : Partition) : (s.setPart p P).pending = s.pending := rfl
@[simp] theorem State.setPart_regs (s : State) (p : Nat) (P : Partition) : (s.setPart p P).regs = s.regs := rfl
@[simp] theorem State.setPart_latch (s : State) (p : Nat) (P : Partition) : (s.setPart p P).latch = s.latch := rfl
@[simp] theorem State.setPart_readVal (s : State) (p : Nat) (P : Partition) : (s.setPart p P).readVal = s.readVal := rfl
@[simp] theorem State.setPart_mem (s : State) (p : Nat) (P : Partition) : (s.setPart p P).mem = s.mem := rfl
@[simp] theorem State.setPart_keep (s : State) (p : Nat) (P : Partition) : (s.setPart p P).keep = s.keep := rfl
@[simp] theorem State.setPart_strata (s : State) (p : Nat) (P : Partition) : (s.setPart p P).strata = s.strata := rfl
@[simp] theorem State.setPart_sieve (s : State) (p : Nat) (P : Partition) : (s.setPart p P).sieve = s.sieve := rfl
@[simp] theorem State.setPart_mbx (s : State) (p : Nat) (P : Partition) : (s.setPart p P).mbx = s.mbx := rfl
@[simp] theorem State.setPart_fw (s : State) (p : Nat) (P : Partition) : (s.setPart p P).fw = s.fw := rfl
@[simp] theorem State.setPart_irq (s : State) (p : Nat) (P : Partition) : (s.setPart p P).irq = s.irq := rfl
@[simp] theorem State.setPart_pwr (s : State) (p : Nat) (P : Partition) : (s.setPart p P).pwr = s.pwr := rfl
@[simp] theorem State.setPart_ft (s : State) (p : Nat) (P : Partition) : (s.setPart p P).ft = s.ft := rfl
@[simp] theorem State.setPart_cmp (s : State) (p : Nat) (P : Partition) : (s.setPart p P).cmp = s.cmp := rfl
@[simp] theorem State.setPart_frozen (s : State) (p : Nat) (P : Partition) : (s.setPart p P).frozen = s.frozen := rfl
@[simp] theorem State.setPart_cores (s : State) (p : Nat) (P : Partition) : (s.setPart p P).cores = s.cores := rfl
@[simp] theorem State.setPart_arr (s : State) (p : Nat) (P : Partition) : (s.setPart p P).arr = s.arr := rfl
@[simp] theorem State.setPart_doms (s : State) (p : Nat) (P : Partition) : (s.setPart p P).doms = s.doms := rfl
@[simp] theorem State.setPart_job (s : State) (p : Nat) (P : Partition) : (s.setPart p P).job = s.job := rfl
@[simp] theorem State.setPart_pci (s : State) (p : Nat) (P : Partition) : (s.setPart p P).pci = s.pci := rfl
@[simp] theorem State.setPart_slices (s : State) (p : Nat) (P : Partition) : (s.setPart p P).slices = s.slices := rfl
@[simp] theorem State.setPart_windows (s : State) (p : Nat) (P : Partition) : (s.setPart p P).windows = s.windows := rfl
@[simp] theorem State.setPart_accel (s : State) (p : Nat) (P : Partition) : (s.setPart p P).accel = s.accel := rfl
@[simp] theorem State.setPart_sec (s : State) (p : Nat) (P : Partition) : (s.setPart p P).sec = s.sec := rfl
@[simp] theorem State.setPart_vrm (s : State) (p : Nat) (P : Partition) : (s.setPart p P).vrm = s.vrm := rfl
@[simp] theorem State.setPart_net (s : State) (p : Nat) (P : Partition) : (s.setPart p P).net = s.net := rfl
@[simp] theorem State.setPart_sto (s : State) (p : Nat) (P : Partition) : (s.setPart p P).sto = s.sto := rfl
@[simp] theorem State.setPart_out (s : State) (p : Nat) (P : Partition) : (s.setPart p P).out = s.out := rfl
@[simp] theorem State.setPart_fresh (s : State) (p : Nat) (P : Partition) : (s.setPart p P).fresh = s.fresh := rfl

/-! State.setItem -/

@[simp] theorem State.setItem_pending (s : State) (i : Nat) (w : WorkItem) : (s.setItem i w).pending = s.pending := rfl
@[simp] theorem State.setItem_regs (s : State) (i : Nat) (w : WorkItem) : (s.setItem i w).regs = s.regs := rfl
@[simp] theorem State.setItem_latch (s : State) (i : Nat) (w : WorkItem) : (s.setItem i w).latch = s.latch := rfl
@[simp] theorem State.setItem_readVal (s : State) (i : Nat) (w : WorkItem) : (s.setItem i w).readVal = s.readVal := rfl
@[simp] theorem State.setItem_mem (s : State) (i : Nat) (w : WorkItem) : (s.setItem i w).mem = s.mem := rfl
@[simp] theorem State.setItem_keep (s : State) (i : Nat) (w : WorkItem) : (s.setItem i w).keep = s.keep := rfl
@[simp] theorem State.setItem_strata (s : State) (i : Nat) (w : WorkItem) : (s.setItem i w).strata = s.strata := rfl
@[simp] theorem State.setItem_sieve (s : State) (i : Nat) (w : WorkItem) : (s.setItem i w).sieve = s.sieve := rfl
@[simp] theorem State.setItem_mbx (s : State) (i : Nat) (w : WorkItem) : (s.setItem i w).mbx = s.mbx := rfl
@[simp] theorem State.setItem_fw (s : State) (i : Nat) (w : WorkItem) : (s.setItem i w).fw = s.fw := rfl
@[simp] theorem State.setItem_irq (s : State) (i : Nat) (w : WorkItem) : (s.setItem i w).irq = s.irq := rfl
@[simp] theorem State.setItem_pwr (s : State) (i : Nat) (w : WorkItem) : (s.setItem i w).pwr = s.pwr := rfl
@[simp] theorem State.setItem_ft (s : State) (i : Nat) (w : WorkItem) : (s.setItem i w).ft = s.ft := rfl
@[simp] theorem State.setItem_cmp (s : State) (i : Nat) (w : WorkItem) : (s.setItem i w).cmp = s.cmp := rfl
@[simp] theorem State.setItem_frozen (s : State) (i : Nat) (w : WorkItem) : (s.setItem i w).frozen = s.frozen := rfl
@[simp] theorem State.setItem_cores (s : State) (i : Nat) (w : WorkItem) : (s.setItem i w).cores = s.cores := rfl
@[simp] theorem State.setItem_arr (s : State) (i : Nat) (w : WorkItem) : (s.setItem i w).arr = s.arr := rfl
@[simp] theorem State.setItem_doms (s : State) (i : Nat) (w : WorkItem) : (s.setItem i w).doms = s.doms := rfl
@[simp] theorem State.setItem_job (s : State) (i : Nat) (w : WorkItem) : (s.setItem i w).job = s.job := rfl
@[simp] theorem State.setItem_pci (s : State) (i : Nat) (w : WorkItem) : (s.setItem i w).pci = s.pci := rfl
@[simp] theorem State.setItem_slices (s : State) (i : Nat) (w : WorkItem) : (s.setItem i w).slices = s.slices := rfl
@[simp] theorem State.setItem_windows (s : State) (i : Nat) (w : WorkItem) : (s.setItem i w).windows = s.windows := rfl
@[simp] theorem State.setItem_accel (s : State) (i : Nat) (w : WorkItem) : (s.setItem i w).accel = s.accel := rfl
@[simp] theorem State.setItem_sec (s : State) (i : Nat) (w : WorkItem) : (s.setItem i w).sec = s.sec := rfl
@[simp] theorem State.setItem_vrm (s : State) (i : Nat) (w : WorkItem) : (s.setItem i w).vrm = s.vrm := rfl
@[simp] theorem State.setItem_net (s : State) (i : Nat) (w : WorkItem) : (s.setItem i w).net = s.net := rfl
@[simp] theorem State.setItem_sto (s : State) (i : Nat) (w : WorkItem) : (s.setItem i w).sto = s.sto := rfl
@[simp] theorem State.setItem_out (s : State) (i : Nat) (w : WorkItem) : (s.setItem i w).out = s.out := rfl
@[simp] theorem State.setItem_fresh (s : State) (i : Nat) (w : WorkItem) : (s.setItem i w).fresh = s.fresh := rfl

/-! State.setChan -/

@[simp] theorem State.setChan_pending (s : State) (cl ch : Nat) (c : DmaChannel) : (s.setChan cl ch c).pending = s.pending := rfl
@[simp] theorem State.setChan_regs (s : State) (cl ch : Nat) (c : DmaChannel) : (s.setChan cl ch c).regs = s.regs := rfl
@[simp] theorem State.setChan_latch (s : State) (cl ch : Nat) (c : DmaChannel) : (s.setChan cl ch c).latch = s.latch := rfl
@[simp] theorem State.setChan_readVal (s : State) (cl ch : Nat) (c : DmaChannel) : (s.setChan cl ch c).readVal = s.readVal := rfl
@[simp] theorem State.setChan_mem (s : State) (cl ch : Nat) (c : DmaChannel) : (s.setChan cl ch c).mem = s.mem := rfl
@[simp] theorem State.setChan_keep (s : State) (cl ch : Nat) (c : DmaChannel) : (s.setChan cl ch c).keep = s.keep := rfl
@[simp] theorem State.setChan_strata (s : State) (cl ch : Nat) (c : DmaChannel) : (s.setChan cl ch c).strata = s.strata := rfl
@[simp] theorem State.setChan_sieve (s : State) (cl ch : Nat) (c : DmaChannel) : (s.setChan cl ch c).sieve = s.sieve := rfl
@[simp] theorem State.setChan_mbx (s : State) (cl ch : Nat) (c : DmaChannel) : (s.setChan cl ch c).mbx = s.mbx := rfl
@[simp] theorem State.setChan_fw (s : State) (cl ch : Nat) (c : DmaChannel) : (s.setChan cl ch c).fw = s.fw := rfl
@[simp] theorem State.setChan_irq (s : State) (cl ch : Nat) (c : DmaChannel) : (s.setChan cl ch c).irq = s.irq := rfl
@[simp] theorem State.setChan_pwr (s : State) (cl ch : Nat) (c : DmaChannel) : (s.setChan cl ch c).pwr = s.pwr := rfl
@[simp] theorem State.setChan_ft (s : State) (cl ch : Nat) (c : DmaChannel) : (s.setChan cl ch c).ft = s.ft := rfl
@[simp] theorem State.setChan_cmp (s : State) (cl ch : Nat) (c : DmaChannel) : (s.setChan cl ch c).cmp = s.cmp := rfl
@[simp] theorem State.setChan_frozen (s : State) (cl ch : Nat) (c : DmaChannel) : (s.setChan cl ch c).frozen = s.frozen := rfl
@[simp] theorem State.setChan_cores (s : State) (cl ch : Nat) (c : DmaChannel) : (s.setChan cl ch c).cores = s.cores := rfl
@[simp] theorem State.setChan_work (s : State) (cl ch : Nat) (c : DmaChannel) : (s.setChan cl ch c).work = s.work := rfl
@[simp] theorem State.setChan_doms (s : State) (cl ch : Nat) (c : DmaChannel) : (s.setChan cl ch c).doms = s.doms := rfl
@[simp] theorem State.setChan_job (s : State) (cl ch : Nat) (c : DmaChannel) : (s.setChan cl ch c).job = s.job := rfl
@[simp] theorem State.setChan_pci (s : State) (cl ch : Nat) (c : DmaChannel) : (s.setChan cl ch c).pci = s.pci := rfl
@[simp] theorem State.setChan_slices (s : State) (cl ch : Nat) (c : DmaChannel) : (s.setChan cl ch c).slices = s.slices := rfl
@[simp] theorem State.setChan_windows (s : State) (cl ch : Nat) (c : DmaChannel) : (s.setChan cl ch c).windows = s.windows := rfl
@[simp] theorem State.setChan_accel (s : State) (cl ch : Nat) (c : DmaChannel) : (s.setChan cl ch c).accel = s.accel := rfl
@[simp] theorem State.setChan_sec (s : State) (cl ch : Nat) (c : DmaChannel) : (s.setChan cl ch c).sec = s.sec := rfl
@[simp] theorem State.setChan_vrm (s : State) (cl ch : Nat) (c : DmaChannel) : (s.setChan cl ch c).vrm = s.vrm := rfl
@[simp] theorem State.setChan_net (s : State) (cl ch : Nat) (c : DmaChannel) : (s.setChan cl ch c).net = s.net := rfl
@[simp] theorem State.setChan_sto (s : State) (cl ch : Nat) (c : DmaChannel) : (s.setChan cl ch c).sto = s.sto := rfl
@[simp] theorem State.setChan_out (s : State) (cl ch : Nat) (c : DmaChannel) : (s.setChan cl ch c).out = s.out := rfl
@[simp] theorem State.setChan_fresh (s : State) (cl ch : Nat) (c : DmaChannel) : (s.setChan cl ch c).fresh = s.fresh := rfl

/-! State.modJob -/

@[simp] theorem State.modJob_pending (s : State) (f : Job → Job) : (s.modJob f).pending = s.pending := rfl
@[simp] theorem State.modJob_regs (s : State) (f : Job → Job) : (s.modJob f).regs = s.regs := rfl
@[simp] theorem State.modJob_latch (s : State) (f : Job → Job) : (s.modJob f).latch = s.latch := rfl
@[simp] theorem State.modJob_readVal (s : State) (f : Job → Job) : (s.modJob f).readVal = s.readVal := rfl
@[simp] theorem State.modJob_mem (s : State) (f : Job → Job) : (s.modJob f).mem = s.mem := rfl
@[simp] theorem State.modJob_keep (s : State) (f : Job → Job) : (s.modJob f).keep = s.keep := rfl
@[simp] theorem State.modJob_strata (s : State) (f : Job → Job) : (s.modJob f).strata = s.strata := rfl
@[simp] theorem State.modJob_sieve (s : State) (f : Job → Job) : (s.modJob f).sieve = s.sieve := rfl
@[simp] theorem State.modJob_mbx (s : State) (f : Job → Job) : (s.modJob f).mbx = s.mbx := rfl
@[simp] theorem State.modJob_fw (s : State) (f : Job → Job) : (s.modJob f).fw = s.fw := rfl
@[simp] theorem State.modJob_irq (s : State) (f : Job → Job) : (s.modJob f).irq = s.irq := rfl
@[simp] theorem State.modJob_pwr (s : State) (f : Job → Job) : (s.modJob f).pwr = s.pwr := rfl
@[simp] theorem State.modJob_ft (s : State) (f : Job → Job) : (s.modJob f).ft = s.ft := rfl
@[simp] theorem State.modJob_cmp (s : State) (f : Job → Job) : (s.modJob f).cmp = s.cmp := rfl
@[simp] theorem State.modJob_frozen (s : State) (f : Job → Job) : (s.modJob f).frozen = s.frozen := rfl
@[simp] theorem State.modJob_cores (s : State) (f : Job → Job) : (s.modJob f).cores = s.cores := rfl
@[simp] theorem State.modJob_arr (s : State) (f : Job → Job) : (s.modJob f).arr = s.arr := rfl
@[simp] theorem State.modJob_work (s : State) (f : Job → Job) : (s.modJob f).work = s.work := rfl
@[simp] theorem State.modJob_doms (s : State) (f : Job → Job) : (s.modJob f).doms = s.doms := rfl
@[simp] theorem State.modJob_pci (s : State) (f : Job → Job) : (s.modJob f).pci = s.pci := rfl
@[simp] theorem State.modJob_slices (s : State) (f : Job → Job) : (s.modJob f).slices = s.slices := rfl
@[simp] theorem State.modJob_windows (s : State) (f : Job → Job) : (s.modJob f).windows = s.windows := rfl
@[simp] theorem State.modJob_accel (s : State) (f : Job → Job) : (s.modJob f).accel = s.accel := rfl
@[simp] theorem State.modJob_sec (s : State) (f : Job → Job) : (s.modJob f).sec = s.sec := rfl
@[simp] theorem State.modJob_vrm (s : State) (f : Job → Job) : (s.modJob f).vrm = s.vrm := rfl
@[simp] theorem State.modJob_net (s : State) (f : Job → Job) : (s.modJob f).net = s.net := rfl
@[simp] theorem State.modJob_sto (s : State) (f : Job → Job) : (s.modJob f).sto = s.sto := rfl
@[simp] theorem State.modJob_out (s : State) (f : Job → Job) : (s.modJob f).out = s.out := rfl
@[simp] theorem State.modJob_fresh (s : State) (f : Job → Job) : (s.modJob f).fresh = s.fresh := rfl

/-! State.modSec -/

@[simp] theorem State.modSec_pending (s : State) (f : Security → Security) : (s.modSec f).pending = s.pending := rfl
@[simp] theorem State.modSec_regs (s : State) (f : Security → Security) : (s.modSec f).regs = s.regs := rfl
@[simp] theorem State.modSec_latch (s : State) (f : Security → Security) : (s.modSec f).latch = s.latch := rfl
@[simp] theorem State.modSec_readVal (s : State) (f : Security → Security) : (s.modSec f).readVal = s.readVal := rfl
@[simp] theorem State.modSec_mem (s : State) (f : Security → Security) : (s.modSec f).mem = s.mem := rfl
@[simp] theorem State.modSec_keep (s : State) (f : Security → Security) : (s.modSec f).keep = s.keep := rfl
@[simp] theorem State.modSec_strata (s : State) (f : Security → Security) : (s.modSec f).strata = s.strata := rfl
@[simp] theorem State.modSec_sieve (s : State) (f : Security → Security) : (s.modSec f).sieve = s.sieve := rfl
@[simp] theorem State.modSec_mbx (s : State) (f : Security → Security) : (s.modSec f).mbx = s.mbx := rfl
@[simp] theorem State.modSec_fw (s : State) (f : Security → Security) : (s.modSec f).fw = s.fw := rfl
@[simp] theorem State.modSec_irq (s : State) (f : Security → Security) : (s.modSec f).irq = s.irq := rfl
@[simp] theorem State.modSec_pwr (s : State) (f : Security → Security) : (s.modSec f).pwr = s.pwr := rfl
@[simp] theorem State.modSec_ft (s : State) (f : Security → Security) : (s.modSec f).ft = s.ft := rfl
@[simp] theorem State.modSec_cmp (s : State) (f : Security → Security) : (s.modSec f).cmp = s.cmp := rfl
@[simp] theorem State.modSec_frozen (s : State) (f : Security → Security) : (s.modSec f).frozen = s.frozen := rfl
@[simp] theorem State.modSec_cores (s : State) (f : Security → Security) : (s.modSec f).cores = s.cores := rfl
@[simp] theorem State.modSec_arr (s : State) (f : Security → Security) : (s.modSec f).arr = s.arr := rfl
@[simp] theorem State.modSec_work (s : State) (f : Security → Security) : (s.modSec f).work = s.work := rfl
@[simp] theorem State.modSec_doms (s : State) (f : Security → Security) : (s.modSec f).doms = s.doms := rfl
@[simp] theorem State.modSec_job (s : State) (f : Security → Security) : (s.modSec f).job = s.job := rfl
@[simp] theorem State.modSec_pci (s : State) (f : Security → Security) : (s.modSec f).pci = s.pci := rfl
@[simp] theorem State.modSec_slices (s : State) (f : Security → Security) : (s.modSec f).slices = s.slices := rfl
@[simp] theorem State.modSec_windows (s : State) (f : Security → Security) : (s.modSec f).windows = s.windows := rfl
@[simp] theorem State.modSec_accel (s : State) (f : Security → Security) : (s.modSec f).accel = s.accel := rfl
@[simp] theorem State.modSec_vrm (s : State) (f : Security → Security) : (s.modSec f).vrm = s.vrm := rfl
@[simp] theorem State.modSec_net (s : State) (f : Security → Security) : (s.modSec f).net = s.net := rfl
@[simp] theorem State.modSec_sto (s : State) (f : Security → Security) : (s.modSec f).sto = s.sto := rfl
@[simp] theorem State.modSec_out (s : State) (f : Security → Security) : (s.modSec f).out = s.out := rfl
@[simp] theorem State.modSec_fresh (s : State) (f : Security → Security) : (s.modSec f).fresh = s.fresh := rfl

/-! State.setSlot -/

@[simp] theorem State.setSlot_pending (s : State) (k : Nat) (t : KeySlot) : (s.setSlot k t).pending = s.pending := rfl
@[simp] theorem State.setSlot_regs (s : State) (k : Nat) (t : KeySlot) : (s.setSlot k t).regs = s.regs := rfl
@[simp] theorem State.setSlot_latch (s : State) (k : Nat) (t : KeySlot) : (s.setSlot k t).latch = s.latch := rfl
@[simp] theorem State.setSlot_readVal (s : State) (k : Nat) (t : KeySlot) : (s.setSlot k t).readVal = s.readVal := rfl
@[simp] theorem State.setSlot_mem (s : State) (k : Nat) (t : KeySlot) : (s.setSlot k t).mem = s.mem := rfl
@[simp] theorem State.setSlot_keep (s : State) (k : Nat) (t : KeySlot) : (s.setSlot k t).keep = s.keep := rfl
@[simp] theorem State.setSlot_strata (s : State) (k : Nat) (t : KeySlot) : (s.setSlot k t).strata = s.strata := rfl
@[simp] theorem State.setSlot_sieve (s : State) (k : Nat) (t : KeySlot) : (s.setSlot k t).sieve = s.sieve := rfl
@[simp] theorem State.setSlot_mbx (s : State) (k : Nat) (t : KeySlot) : (s.setSlot k t).mbx = s.mbx := rfl
@[simp] theorem State.setSlot_fw (s : State) (k : Nat) (t : KeySlot) : (s.setSlot k t).fw = s.fw := rfl
@[simp] theorem State.setSlot_irq (s : State) (k : Nat) (t : KeySlot) : (s.setSlot k t).irq = s.irq := rfl
@[simp] theorem State.setSlot_pwr (s : State) (k : Nat) (t : KeySlot) : (s.setSlot k t).pwr = s.pwr := rfl
@[simp] theorem State.setSlot_ft (s : State) (k : Nat) (t : KeySlot) : (s.setSlot k t).ft = s.ft := rfl
@[simp] theorem State.setSlot_cmp (s : State) (k : Nat) (t : KeySlot) : (s.setSlot k t).cmp = s.cmp := rfl
@[simp] theorem State.setSlot_frozen (s : State) (k : Nat) (t : KeySlot) : (s.setSlot k t).frozen = s.frozen := rfl
@[simp] theorem State.setSlot_cores (s : State) (k : Nat) (t : KeySlot) : (s.setSlot k t).cores = s.cores := rfl
@[simp] theorem State.setSlot_arr (s : State) (k : Nat) (t : KeySlot) : (s.setSlot k t).arr = s.arr := rfl
@[simp] theorem State.setSlot_work (s : State) (k : Nat) (t : KeySlot) : (s.setSlot k t).work = s.work := rfl
@[simp] theorem State.setSlot_doms (s : State) (k : Nat) (t : KeySlot) : (s.setSlot k t).doms = s.doms := rfl
@[simp] theorem State.setSlot_job (s : State) (k : Nat) (t : KeySlot) : (s.setSlot k t).job = s.job := rfl
@[simp] theorem State.setSlot_pci (s : State) (k : Nat) (t : KeySlot) : (s.setSlot k t).pci = s.pci := rfl
@[simp] theorem State.setSlot_slices (s : State) (k : Nat) (t : KeySlot) : (s.setSlot k t).slices = s.slices := rfl
@[simp] theorem State.setSlot_windows (s : State) (k : Nat) (t : KeySlot) : (s.setSlot k t).windows = s.windows := rfl
@[simp] theorem State.setSlot_accel (s : State) (k : Nat) (t : KeySlot) : (s.setSlot k t).accel = s.accel := rfl
@[simp] theorem State.setSlot_vrm (s : State) (k : Nat) (t : KeySlot) : (s.setSlot k t).vrm = s.vrm := rfl
@[simp] theorem State.setSlot_net (s : State) (k : Nat) (t : KeySlot) : (s.setSlot k t).net = s.net := rfl
@[simp] theorem State.setSlot_sto (s : State) (k : Nat) (t : KeySlot) : (s.setSlot k t).sto = s.sto := rfl
@[simp] theorem State.setSlot_out (s : State) (k : Nat) (t : KeySlot) : (s.setSlot k t).out = s.out := rfl
@[simp] theorem State.setSlot_fresh (s : State) (k : Nat) (t : KeySlot) : (s.setSlot k t).fresh = s.fresh := rfl

/-! State.modFw -/

@[simp] theorem State.modFw_pending (s : State) (f : Firmware → Firmware) : (s.modFw f).pending = s.pending := rfl
@[simp] theorem State.modFw_regs (s : State) (f : Firmware → Firmware) : (s.modFw f).regs = s.regs := rfl
@[simp] theorem State.modFw_latch (s : State) (f : Firmware → Firmware) : (s.modFw f).latch = s.latch := rfl
@[simp] theorem State.modFw_readVal (s : State) (f : Firmware → Firmware) : (s.modFw f).readVal = s.readVal := rfl
@[simp] theorem State.modFw_mem (s : State) (f : Firmware → Firmware) : (s.modFw f).mem = s.mem := rfl
@[simp] theorem State.modFw_keep (s : State) (f : Firmware → Firmware) : (s.modFw f).keep = s.keep := rfl
@[simp] theorem State.modFw_strata (s : State) (f : Firmware → Firmware) : (s.modFw f).strata = s.strata := rfl
@[simp] theorem State.modFw_sieve (s : State) (f : Firmware → Firmware) : (s.modFw f).sieve = s.sieve := rfl
@[simp] theorem State.modFw_mbx (s : State) (f : Firmware → Firmware) : (s.modFw f).mbx = s.mbx := rfl
@[simp] theorem State.modFw_irq (s : State) (f : Firmware → Firmware) : (s.modFw f).irq = s.irq := rfl
@[simp] theorem State.modFw_pwr (s : State) (f : Firmware → Firmware) : (s.modFw f).pwr = s.pwr := rfl
@[simp] theorem State.modFw_ft (s : State) (f : Firmware → Firmware) : (s.modFw f).ft = s.ft := rfl
@[simp] theorem State.modFw_cmp (s : State) (f : Firmware → Firmware) : (s.modFw f).cmp = s.cmp := rfl
@[simp] theorem State.modFw_frozen (s : State) (f : Firmware → Firmware) : (s.modFw f).frozen = s.frozen := rfl
@[simp] theorem State.modFw_cores (s : State) (f : Firmware → Firmware) : (s.modFw f).cores = s.cores := rfl
@[simp] theorem State.modFw_arr (s : State) (f : Firmware → Firmware) : (s.modFw f).arr = s.arr := rfl
@[simp] theorem State.modFw_work (s : State) (f : Firmware → Firmware) : (s.modFw f).work = s.work := rfl
@[simp] theorem State.modFw_doms (s : State) (f : Firmware → Firmware) : (s.modFw f).doms = s.doms := rfl
@[simp] theorem State.modFw_job (s : State) (f : Firmware → Firmware) : (s.modFw f).job = s.job := rfl
@[simp] theorem State.modFw_pci (s : State) (f : Firmware → Firmware) : (s.modFw f).pci = s.pci := rfl
@[simp] theorem State.modFw_slices (s : State) (f : Firmware → Firmware) : (s.modFw f).slices = s.slices := rfl
@[simp] theorem State.modFw_windows (s : State) (f : Firmware → Firmware) : (s.modFw f).windows = s.windows := rfl
@[simp] theorem State.modFw_accel (s : State) (f : Firmware → Firmware) : (s.modFw f).accel = s.accel := rfl
@[simp] theorem State.modFw_sec (s : State) (f : Firmware → Firmware) : (s.modFw f).sec = s.sec := rfl
@[simp] theorem State.modFw_vrm (s : State) (f : Firmware → Firmware) : (s.modFw f).vrm = s.vrm := rfl
@[simp] theorem State.modFw_net (s : State) (f : Firmware → Firmware) : (s.modFw f).net = s.net := rfl
@[simp] theorem State.modFw_sto (s : State) (f : Firmware → Firmware) : (s.modFw f).sto = s.sto := rfl
@[simp] theorem State.modFw_out (s : State) (f : Firmware → Firmware) : (s.modFw f).out = s.out := rfl
@[simp] theorem State.modFw_fresh (s : State) (f : Firmware → Firmware) : (s.modFw f).fresh = s.fresh := rfl

/-! State.modPwr -/

@[simp] theorem State.modPwr_pending (s : State) (f : Power → Power) : (s.modPwr f).pending = s.pending := rfl
@[simp] theorem State.modPwr_regs (s : State) (f : Power → Power) : (s.modPwr f).regs = s.regs := rfl
@[simp] theorem State.modPwr_latch (s : State) (f : Power → Power) : (s.modPwr f).latch = s.latch := rfl
@[simp] theorem State.modPwr_readVal (s : State) (f : Power → Power) : (s.modPwr f).readVal = s.readVal := rfl
@[simp] theorem State.modPwr_mem (s : State) (f : Power → Power) : (s.modPwr f).mem = s.mem := rfl
@[simp] theorem State.modPwr_keep (s : State) (f : Power → Power) : (s.modPwr f).keep = s.keep := rfl
@[simp] theorem State.modPwr_strata (s : State) (f : Power → Power) : (s.modPwr f).strata = s.strata := rfl
@[simp] theorem State.modPwr_sieve (s : State) (f : Power → Power) : (s.modPwr f).sieve = s.sieve := rfl
@[simp] theorem State.modPwr_mbx (s : State) (f : Power → Power) : (s.modPwr f).mbx = s.mbx := rfl
@[simp] theorem State.modPwr_fw (s : State) (f : Power → Power) : (s.modPwr f).fw = s.fw := rfl
@[simp] theorem State.modPwr_irq (s : State) (f : Power → Power) : (s.modPwr f).irq = s.irq := rfl
@[simp] theorem State.modPwr_ft (s : State) (f : Power → Power) : (s.modPwr f).ft = s.ft := rfl
@[simp] theorem State.modPwr_cmp (s : State) (f : Power → Power) : (s.modPwr f).cmp = s.cmp := rfl
@[simp] theorem State.modPwr_frozen (s : State) (f : Power → Power) : (s.modPwr f).frozen = s.frozen := rfl
@[simp] theorem State.modPwr_cores (s : State) (f : Power → Power) : (s.modPwr f).cores = s.cores := rfl
@[simp] theorem State.modPwr_arr (s : State) (f : Power → Power) : (s.modPwr f).arr = s.arr := rfl
@[simp] theorem State.modPwr_work (s : State) (f : Power → Power) : (s.modPwr f).work = s.work := rfl
@[simp] theorem State.modPwr_doms (s : State) (f : Power → Power) : (s.modPwr f).doms = s.doms := rfl
@[simp] theorem State.modPwr_job (s : State) (f : Power → Power) : (s.modPwr f).job = s.job := rfl
@[simp] theorem State.modPwr_pci (s : State) (f : Power → Power) : (s.modPwr f).pci = s.pci := rfl
@[simp] theorem State.modPwr_slices (s : State) (f : Power → Power) : (s.modPwr f).slices = s.slices := rfl
@[simp] theorem State.modPwr_windows (s : State) (f : Power → Power) : (s.modPwr f).windows = s.windows := rfl
@[simp] theorem State.modPwr_accel (s : State) (f : Power → Power) : (s.modPwr f).accel = s.accel := rfl
@[simp] theorem State.modPwr_sec (s : State) (f : Power → Power) : (s.modPwr f).sec = s.sec := rfl
@[simp] theorem State.modPwr_vrm (s : State) (f : Power → Power) : (s.modPwr f).vrm = s.vrm := rfl
@[simp] theorem State.modPwr_net (s : State) (f : Power → Power) : (s.modPwr f).net = s.net := rfl
@[simp] theorem State.modPwr_sto (s : State) (f : Power → Power) : (s.modPwr f).sto = s.sto := rfl
@[simp] theorem State.modPwr_out (s : State) (f : Power → Power) : (s.modPwr f).out = s.out := rfl
@[simp] theorem State.modPwr_fresh (s : State) (f : Power → Power) : (s.modPwr f).fresh = s.fresh := rfl

/-! State.modNet -/

@[simp] theorem State.modNet_pending (s : State) (f : Net → Net) : (s.modNet f).pending = s.pending := rfl
@[simp] theorem State.modNet_regs (s : State) (f : Net → Net) : (s.modNet f).regs = s.regs := rfl
@[simp] theorem State.modNet_latch (s : State) (f : Net → Net) : (s.modNet f).latch = s.latch := rfl
@[simp] theorem State.modNet_readVal (s : State) (f : Net → Net) : (s.modNet f).readVal = s.readVal := rfl
@[simp] theorem State.modNet_mem (s : State) (f : Net → Net) : (s.modNet f).mem = s.mem := rfl
@[simp] theorem State.modNet_keep (s : State) (f : Net → Net) : (s.modNet f).keep = s.keep := rfl
@[simp] theorem State.modNet_strata (s : State) (f : Net → Net) : (s.modNet f).strata = s.strata := rfl
@[simp] theorem State.modNet_sieve (s : State) (f : Net → Net) : (s.modNet f).sieve = s.sieve := rfl
@[simp] theorem State.modNet_mbx (s : State) (f : Net → Net) : (s.modNet f).mbx = s.mbx := rfl
@[simp] theorem State.modNet_fw (s : State) (f : Net → Net) : (s.modNet f).fw = s.fw := rfl
@[simp] theorem State.modNet_irq (s : State) (f : Net → Net) : (s.modNet f).irq = s.irq := rfl
@[simp] theorem State.modNet_pwr (s : State) (f : Net → Net) : (s.modNet f).pwr = s.pwr := rfl
@[simp] theorem State.modNet_ft (s : State) (f : Net → Net) : (s.modNet f).ft = s.ft := rfl
@[simp] theorem State.modNet_cmp (s : State) (f : Net → Net) : (s.modNet f).cmp = s.cmp := rfl
@[simp] theorem State.modNet_frozen (s : State) (f : Net → Net) : (s.modNet f).frozen = s.frozen := rfl
@[simp] theorem State.modNet_cores (s : State) (f : Net → Net) : (s.modNet f).cores = s.cores := rfl
@[simp] theorem State.modNet_arr (s : State) (f : Net → Net) : (s.modNet f).arr = s.arr := rfl
@[simp] theorem State.modNet_work (s : State) (f : Net → Net) : (s.modNet f).work = s.work := rfl
@[simp] theorem State.modNet_doms (s : State) (f : Net → Net) : (s.modNet f).doms = s.doms := rfl
@[simp] theorem State.modNet_job (s : State) (f : Net → Net) : (s.modNet f).job = s.job := rfl
@[simp] theorem State.modNet_pci (s : State) (f : Net → Net) : (s.modNet f).pci = s.pci := rfl
@[simp] theorem State.modNet_slices (s : State) (f : Net → Net) : (s.modNet f).slices = s.slices := rfl
@[simp] theorem State.modNet_windows (s : State) (f : Net → Net) : (s.modNet f).windows = s.windows := rfl
@[simp] theorem State.modNet_accel (s : State) (f : Net → Net) : (s.modNet f).accel = s.accel := rfl
@[simp] theorem State.modNet_sec (s : State) (f : Net → Net) : (s.modNet f).sec = s.sec := rfl
@[simp] theorem State.modNet_vrm (s : State) (f : Net → Net) : (s.modNet f).vrm = s.vrm := rfl
@[simp] theorem State.modNet_sto (s : State) (f : Net → Net) : (s.modNet f).sto = s.sto := rfl
@[simp] theorem State.modNet_out (s : State) (f : Net → Net) : (s.modNet f).out = s.out := rfl
@[simp] theorem State.modNet_fresh (s : State) (f : Net → Net) : (s.modNet f).fresh = s.fresh := rfl

/-! State.setDom -/

@[simp] theorem State.setDom_pending (s : State) (d : Nat) (D : Domain) : (s.setDom d D).pending = s.pending := rfl
@[simp] theorem State.setDom_regs (s : State) (d : Nat) (D : Domain) : (s.setDom d D).regs = s.regs := rfl
@[simp] theorem State.setDom_latch (s : State) (d : Nat) (D : Domain) : (s.setDom d D).latch = s.latch := rfl
@[simp] theorem State.setDom_readVal (s : State) (d : Nat) (D : Domain) : (s.setDom d D).readVal = s.readVal := rfl
@[simp] theorem State.setDom_mem (s : State) (d : Nat) (D : Domain) : (s.setDom d D).mem = s.mem := rfl
@[simp] theorem State.setDom_keep (s : State) (d : Nat) (D : Domain) : (s.setDom d D).keep = s.keep := rfl
@[simp] theorem State.setDom_strata (s : State) (d : Nat) (D : Domain) : (s.setDom d D).strata = s.strata := rfl
@[simp] theorem State.setDom_sieve (s : State) (d : Nat) (D : Domain) : (s.setDom d D).sieve = s.sieve := rfl
@[simp] theorem State.setDom_mbx (s : State) (d : Nat) (D : Domain) : (s.setDom d D).mbx = s.mbx := rfl
@[simp] theorem State.setDom_fw (s : State) (d : Nat) (D : Domain) : (s.setDom d D).fw = s.fw := rfl
@[simp] theorem State.setDom_irq (s : State) (d : Nat) (D : Domain) : (s.setDom d D).irq = s.irq := rfl
@[simp] theorem State.setDom_pwr (s : State) (d : Nat) (D : Domain) : (s.setDom d D).pwr = s.pwr := rfl
@[simp] theorem State.setDom_ft (s : State) (d : Nat) (D : Domain) : (s.setDom d D).ft = s.ft := rfl
@[simp] theorem State.setDom_cmp (s : State) (d : Nat) (D : Domain) : (s.setDom d D).cmp = s.cmp := rfl
@[simp] theorem State.setDom_frozen (s : State) (d : Nat) (D : Domain) : (s.setDom d D).frozen = s.frozen := rfl
@[simp] theorem State.setDom_cores (s : State) (d : Nat) (D : Domain) : (s.setDom d D).cores = s.cores := rfl
@[simp] theorem State.setDom_arr (s : State) (d : Nat) (D : Domain) : (s.setDom d D).arr = s.arr := rfl
@[simp] theorem State.setDom_work (s : State) (d : Nat) (D : Domain) : (s.setDom d D).work = s.work := rfl
@[simp] theorem State.setDom_job (s : State) (d : Nat) (D : Domain) : (s.setDom d D).job = s.job := rfl
@[simp] theorem State.setDom_pci (s : State) (d : Nat) (D : Domain) : (s.setDom d D).pci = s.pci := rfl
@[simp] theorem State.setDom_slices (s : State) (d : Nat) (D : Domain) : (s.setDom d D).slices = s.slices := rfl
@[simp] theorem State.setDom_windows (s : State) (d : Nat) (D : Domain) : (s.setDom d D).windows = s.windows := rfl
@[simp] theorem State.setDom_accel (s : State) (d : Nat) (D : Domain) : (s.setDom d D).accel = s.accel := rfl
@[simp] theorem State.setDom_sec (s : State) (d : Nat) (D : Domain) : (s.setDom d D).sec = s.sec := rfl
@[simp] theorem State.setDom_vrm (s : State) (d : Nat) (D : Domain) : (s.setDom d D).vrm = s.vrm := rfl
@[simp] theorem State.setDom_net (s : State) (d : Nat) (D : Domain) : (s.setDom d D).net = s.net := rfl
@[simp] theorem State.setDom_sto (s : State) (d : Nat) (D : Domain) : (s.setDom d D).sto = s.sto := rfl
@[simp] theorem State.setDom_out (s : State) (d : Nat) (D : Domain) : (s.setDom d D).out = s.out := rfl
@[simp] theorem State.setDom_fresh (s : State) (d : Nat) (D : Domain) : (s.setDom d D).fresh = s.fresh := rfl

/-! State.modDom -/

@[simp] theorem State.modDom_pending (s : State) (d : Nat) (f : Domain → Domain) : (s.modDom d f).pending = s.pending := by unfold State.modDom; split <;> rfl
@[simp] theorem State.modDom_regs (s : State) (d : Nat) (f : Domain → Domain) : (s.modDom d f).regs = s.regs := by unfold State.modDom; split <;> rfl
@[simp] theorem State.modDom_latch (s : State) (d : Nat) (f : Domain → Domain) : (s.modDom d f).latch = s.latch := by unfold State.modDom; split <;> rfl
@[simp] theorem State.modDom_readVal (s : State) (d : Nat) (f : Domain → Domain) : (s.modDom d f).readVal = s.readVal := by unfold State.modDom; split <;> rfl
@[simp] theorem State.modDom_mem (s : State) (d : Nat) (f : Domain → Domain) : (s.modDom d f).mem = s.mem := by unfold State.modDom; split <;> rfl
@[simp] theorem State.modDom_keep (s : State) (d : Nat) (f : Domain → Domain) : (s.modDom d f).keep = s.keep := by unfold State.modDom; split <;> rfl
@[simp] theorem State.modDom_strata (s : State) (d : Nat) (f : Domain → Domain) : (s.modDom d f).strata = s.strata := by unfold State.modDom; split <;> rfl
@[simp] theorem State.modDom_sieve (s : State) (d : Nat) (f : Domain → Domain) : (s.modDom d f).sieve = s.sieve := by unfold State.modDom; split <;> rfl
@[simp] theorem State.modDom_mbx (s : State) (d : Nat) (f : Domain → Domain) : (s.modDom d f).mbx = s.mbx := by unfold State.modDom; split <;> rfl
@[simp] theorem State.modDom_fw (s : State) (d : Nat) (f : Domain → Domain) : (s.modDom d f).fw = s.fw := by unfold State.modDom; split <;> rfl
@[simp] theorem State.modDom_irq (s : State) (d : Nat) (f : Domain → Domain) : (s.modDom d f).irq = s.irq := by unfold State.modDom; split <;> rfl
@[simp] theorem State.modDom_pwr (s : State) (d : Nat) (f : Domain → Domain) : (s.modDom d f).pwr = s.pwr := by unfold State.modDom; split <;> rfl
@[simp] theorem State.modDom_ft (s : State) (d : Nat) (f : Domain → Domain) : (s.modDom d f).ft = s.ft := by unfold State.modDom; split <;> rfl
@[simp] theorem State.modDom_cmp (s : State) (d : Nat) (f : Domain → Domain) : (s.modDom d f).cmp = s.cmp := by unfold State.modDom; split <;> rfl
@[simp] theorem State.modDom_frozen (s : State) (d : Nat) (f : Domain → Domain) : (s.modDom d f).frozen = s.frozen := by unfold State.modDom; split <;> rfl
@[simp] theorem State.modDom_cores (s : State) (d : Nat) (f : Domain → Domain) : (s.modDom d f).cores = s.cores := by unfold State.modDom; split <;> rfl
@[simp] theorem State.modDom_arr (s : State) (d : Nat) (f : Domain → Domain) : (s.modDom d f).arr = s.arr := by unfold State.modDom; split <;> rfl
@[simp] theorem State.modDom_work (s : State) (d : Nat) (f : Domain → Domain) : (s.modDom d f).work = s.work := by unfold State.modDom; split <;> rfl
@[simp] theorem State.modDom_job (s : State) (d : Nat) (f : Domain → Domain) : (s.modDom d f).job = s.job := by unfold State.modDom; split <;> rfl
@[simp] theorem State.modDom_pci (s : State) (d : Nat) (f : Domain → Domain) : (s.modDom d f).pci = s.pci := by unfold State.modDom; split <;> rfl
@[simp] theorem State.modDom_slices (s : State) (d : Nat) (f : Domain → Domain) : (s.modDom d f).slices = s.slices := by unfold State.modDom; split <;> rfl
@[simp] theorem State.modDom_windows (s : State) (d : Nat) (f : Domain → Domain) : (s.modDom d f).windows = s.windows := by unfold State.modDom; split <;> rfl
@[simp] theorem State.modDom_accel (s : State) (d : Nat) (f : Domain → Domain) : (s.modDom d f).accel = s.accel := by unfold State.modDom; split <;> rfl
@[simp] theorem State.modDom_sec (s : State) (d : Nat) (f : Domain → Domain) : (s.modDom d f).sec = s.sec := by unfold State.modDom; split <;> rfl
@[simp] theorem State.modDom_vrm (s : State) (d : Nat) (f : Domain → Domain) : (s.modDom d f).vrm = s.vrm := by unfold State.modDom; split <;> rfl
@[simp] theorem State.modDom_net (s : State) (d : Nat) (f : Domain → Domain) : (s.modDom d f).net = s.net := by unfold State.modDom; split <;> rfl
@[simp] theorem State.modDom_sto (s : State) (d : Nat) (f : Domain → Domain) : (s.modDom d f).sto = s.sto := by unfold State.modDom; split <;> rfl
@[simp] theorem State.modDom_out (s : State) (d : Nat) (f : Domain → Domain) : (s.modDom d f).out = s.out := by unfold State.modDom; split <;> rfl
@[simp] theorem State.modDom_fresh (s : State) (d : Nat) (f : Domain → Domain) : (s.modDom d f).fresh = s.fresh := by unfold State.modDom; split <;> rfl

/-! State.setGrain -/

@[simp] theorem State.setGrain_pending (s : State) (d k : Nat) (g : Grain) : (s.setGrain d k g).pending = s.pending := by unfold State.setGrain State.modDom; split <;> rfl
@[simp] theorem State.setGrain_regs (s : State) (d k : Nat) (g : Grain) : (s.setGrain d k g).regs = s.regs := by unfold State.setGrain State.modDom; split <;> rfl
@[simp] theorem State.setGrain_latch (s : State) (d k : Nat) (g : Grain) : (s.setGrain d k g).latch = s.latch := by unfold State.setGrain State.modDom; split <;> rfl
@[simp] theorem State.setGrain_readVal (s : State) (d k : Nat) (g : Grain) : (s.setGrain d k g).readVal = s.readVal := by unfold State.setGrain State.modDom; split <;> rfl
@[simp] theorem State.setGrain_mem (s : State) (d k : Nat) (g : Grain) : (s.setGrain d k g).mem = s.mem := by unfold State.setGrain State.modDom; split <;> rfl
@[simp] theorem State.setGrain_keep (s : State) (d k : Nat) (g : Grain) : (s.setGrain d k g).keep = s.keep := by unfold State.setGrain State.modDom; split <;> rfl
@[simp] theorem State.setGrain_strata (s : State) (d k : Nat) (g : Grain) : (s.setGrain d k g).strata = s.strata := by unfold State.setGrain State.modDom; split <;> rfl
@[simp] theorem State.setGrain_sieve (s : State) (d k : Nat) (g : Grain) : (s.setGrain d k g).sieve = s.sieve := by unfold State.setGrain State.modDom; split <;> rfl
@[simp] theorem State.setGrain_mbx (s : State) (d k : Nat) (g : Grain) : (s.setGrain d k g).mbx = s.mbx := by unfold State.setGrain State.modDom; split <;> rfl
@[simp] theorem State.setGrain_fw (s : State) (d k : Nat) (g : Grain) : (s.setGrain d k g).fw = s.fw := by unfold State.setGrain State.modDom; split <;> rfl
@[simp] theorem State.setGrain_irq (s : State) (d k : Nat) (g : Grain) : (s.setGrain d k g).irq = s.irq := by unfold State.setGrain State.modDom; split <;> rfl
@[simp] theorem State.setGrain_pwr (s : State) (d k : Nat) (g : Grain) : (s.setGrain d k g).pwr = s.pwr := by unfold State.setGrain State.modDom; split <;> rfl
@[simp] theorem State.setGrain_ft (s : State) (d k : Nat) (g : Grain) : (s.setGrain d k g).ft = s.ft := by unfold State.setGrain State.modDom; split <;> rfl
@[simp] theorem State.setGrain_cmp (s : State) (d k : Nat) (g : Grain) : (s.setGrain d k g).cmp = s.cmp := by unfold State.setGrain State.modDom; split <;> rfl
@[simp] theorem State.setGrain_frozen (s : State) (d k : Nat) (g : Grain) : (s.setGrain d k g).frozen = s.frozen := by unfold State.setGrain State.modDom; split <;> rfl
@[simp] theorem State.setGrain_cores (s : State) (d k : Nat) (g : Grain) : (s.setGrain d k g).cores = s.cores := by unfold State.setGrain State.modDom; split <;> rfl
@[simp] theorem State.setGrain_arr (s : State) (d k : Nat) (g : Grain) : (s.setGrain d k g).arr = s.arr := by unfold State.setGrain State.modDom; split <;> rfl
@[simp] theorem State.setGrain_work (s : State) (d k : Nat) (g : Grain) : (s.setGrain d k g).work = s.work := by unfold State.setGrain State.modDom; split <;> rfl
@[simp] theorem State.setGrain_job (s : State) (d k : Nat) (g : Grain) : (s.setGrain d k g).job = s.job := by unfold State.setGrain State.modDom; split <;> rfl
@[simp] theorem State.setGrain_pci (s : State) (d k : Nat) (g : Grain) : (s.setGrain d k g).pci = s.pci := by unfold State.setGrain State.modDom; split <;> rfl
@[simp] theorem State.setGrain_slices (s : State) (d k : Nat) (g : Grain) : (s.setGrain d k g).slices = s.slices := by unfold State.setGrain State.modDom; split <;> rfl
@[simp] theorem State.setGrain_windows (s : State) (d k : Nat) (g : Grain) : (s.setGrain d k g).windows = s.windows := by unfold State.setGrain State.modDom; split <;> rfl
@[simp] theorem State.setGrain_accel (s : State) (d k : Nat) (g : Grain) : (s.setGrain d k g).accel = s.accel := by unfold State.setGrain State.modDom; split <;> rfl
@[simp] theorem State.setGrain_sec (s : State) (d k : Nat) (g : Grain) : (s.setGrain d k g).sec = s.sec := by unfold State.setGrain State.modDom; split <;> rfl
@[simp] theorem State.setGrain_vrm (s : State) (d k : Nat) (g : Grain) : (s.setGrain d k g).vrm = s.vrm := by unfold State.setGrain State.modDom; split <;> rfl
@[simp] theorem State.setGrain_net (s : State) (d k : Nat) (g : Grain) : (s.setGrain d k g).net = s.net := by unfold State.setGrain State.modDom; split <;> rfl
@[simp] theorem State.setGrain_sto (s : State) (d k : Nat) (g : Grain) : (s.setGrain d k g).sto = s.sto := by unfold State.setGrain State.modDom; split <;> rfl
@[simp] theorem State.setGrain_out (s : State) (d k : Nat) (g : Grain) : (s.setGrain d k g).out = s.out := by unfold State.setGrain State.modDom; split <;> rfl
@[simp] theorem State.setGrain_fresh (s : State) (d k : Nat) (g : Grain) : (s.setGrain d k g).fresh = s.fresh := by unfold State.setGrain State.modDom; split <;> rfl

/-! State.setSlice -/

@[simp] theorem State.setSlice_pending (s : State) (n : Nat) (S : Slice) : (s.setSlice n S).pending = s.pending := rfl
@[simp] theorem State.setSlice_regs (s : State) (n : Nat) (S : Slice) : (s.setSlice n S).regs = s.regs := rfl
@[simp] theorem State.setSlice_latch (s : State) (n : Nat) (S : Slice) : (s.setSlice n S).latch = s.latch := rfl
@[simp] theorem State.setSlice_readVal (s : State) (n : Nat) (S : Slice) : (s.setSlice n S).readVal = s.readVal := rfl
@[simp] theorem State.setSlice_mem (s : State) (n : Nat) (S : Slice) : (s.setSlice n S).mem = s.mem := rfl
@[simp] theorem State.setSlice_keep (s : State) (n : Nat) (S : Slice) : (s.setSlice n S).keep = s.keep := rfl
@[simp] theorem State.setSlice_strata (s : State) (n : Nat) (S : Slice) : (s.setSlice n S).strata = s.strata := rfl
@[simp] theorem State.setSlice_sieve (s : State) (n : Nat) (S : Slice) : (s.setSlice n S).sieve = s.sieve := rfl
@[simp] theorem State.setSlice_mbx (s : State) (n : Nat) (S : Slice) : (s.setSlice n S).mbx = s.mbx := rfl
@[simp] theorem State.setSlice_fw (s : State) (n : Nat) (S : Slice) : (s.setSlice n S).fw = s.fw := rfl
@[simp] theorem State.setSlice_irq (s : State) (n : Nat) (S : Slice) : (s.setSlice n S).irq = s.irq := rfl
@[simp] theorem State.setSlice_pwr (s : State) (n : Nat) (S : Slice) : (s.setSlice n S).pwr = s.pwr := rfl
@[simp] theorem State.setSlice_ft (s : State) (n : Nat) (S : Slice) : (s.setSlice n S).ft = s.ft := rfl
@[simp] theorem State.setSlice_cmp (s : State) (n : Nat) (S : Slice) : (s.setSlice n S).cmp = s.cmp := rfl
@[simp] theorem State.setSlice_frozen (s : State) (n : Nat) (S : Slice) : (s.setSlice n S).frozen = s.frozen := rfl
@[simp] theorem State.setSlice_cores (s : State) (n : Nat) (S : Slice) : (s.setSlice n S).cores = s.cores := rfl
@[simp] theorem State.setSlice_arr (s : State) (n : Nat) (S : Slice) : (s.setSlice n S).arr = s.arr := rfl
@[simp] theorem State.setSlice_work (s : State) (n : Nat) (S : Slice) : (s.setSlice n S).work = s.work := rfl
@[simp] theorem State.setSlice_doms (s : State) (n : Nat) (S : Slice) : (s.setSlice n S).doms = s.doms := rfl
@[simp] theorem State.setSlice_job (s : State) (n : Nat) (S : Slice) : (s.setSlice n S).job = s.job := rfl
@[simp] theorem State.setSlice_pci (s : State) (n : Nat) (S : Slice) : (s.setSlice n S).pci = s.pci := rfl
@[simp] theorem State.setSlice_windows (s : State) (n : Nat) (S : Slice) : (s.setSlice n S).windows = s.windows := rfl
@[simp] theorem State.setSlice_accel (s : State) (n : Nat) (S : Slice) : (s.setSlice n S).accel = s.accel := rfl
@[simp] theorem State.setSlice_sec (s : State) (n : Nat) (S : Slice) : (s.setSlice n S).sec = s.sec := rfl
@[simp] theorem State.setSlice_vrm (s : State) (n : Nat) (S : Slice) : (s.setSlice n S).vrm = s.vrm := rfl
@[simp] theorem State.setSlice_net (s : State) (n : Nat) (S : Slice) : (s.setSlice n S).net = s.net := rfl
@[simp] theorem State.setSlice_sto (s : State) (n : Nat) (S : Slice) : (s.setSlice n S).sto = s.sto := rfl
@[simp] theorem State.setSlice_out (s : State) (n : Nat) (S : Slice) : (s.setSlice n S).out = s.out := rfl
@[simp] theorem State.setSlice_fresh (s : State) (n : Nat) (S : Slice) : (s.setSlice n S).fresh = s.fresh := rfl

/-! State.modSto -/

@[simp] theorem State.modSto_pending (s : State) (f : Storage → Storage) : (s.modSto f).pending = s.pending := rfl
@[simp] theorem State.modSto_regs (s : State) (f : Storage → Storage) : (s.modSto f).regs = s.regs := rfl
@[simp] theorem State.modSto_latch (s : State) (f : Storage → Storage) : (s.modSto f).latch = s.latch := rfl
@[simp] theorem State.modSto_readVal (s : State) (f : Storage → Storage) : (s.modSto f).readVal = s.readVal := rfl
@[simp] theorem State.modSto_mem (s : State) (f : Storage → Storage) : (s.modSto f).mem = s.mem := rfl
@[simp] theorem State.modSto_keep (s : State) (f : Storage → Storage) : (s.modSto f).keep = s.keep := rfl
@[simp] theorem State.modSto_strata (s : State) (f : Storage → Storage) : (s.modSto f).strata = s.strata := rfl
@[simp] theorem State.modSto_sieve (s : State) (f : Storage → Storage) : (s.modSto f).sieve = s.sieve := rfl
@[simp] theorem State.modSto_mbx (s : State) (f : Storage → Storage) : (s.modSto f).mbx = s.mbx := rfl
@[simp] theorem State.modSto_fw (s : State) (f : Storage → Storage) : (s.modSto f).fw = s.fw := rfl
@[simp] theorem State.modSto_irq (s : State) (f : Storage → Storage) : (s.modSto f).irq = s.irq := rfl
@[simp] theorem State.modSto_pwr (s : State) (f : Storage → Storage) : (s.modSto f).pwr = s.pwr := rfl
@[simp] theorem State.modSto_ft (s : State) (f : Storage → Storage) : (s.modSto f).ft = s.ft := rfl
@[simp] theorem State.modSto_cmp (s : State) (f : Storage → Storage) : (s.modSto f).cmp = s.cmp := rfl
@[simp] theorem State.modSto_frozen (s : State) (f : Storage → Storage) : (s.modSto f).frozen = s.frozen := rfl
@[simp] theorem State.modSto_cores (s : State) (f : Storage → Storage) : (s.modSto f).cores = s.cores := rfl
@[simp] theorem State.modSto_arr (s : State) (f : Storage → Storage) : (s.modSto f).arr = s.arr := rfl
@[simp] theorem State.modSto_work (s : State) (f : Storage → Storage) : (s.modSto f).work = s.work := rfl
@[simp] theorem State.modSto_doms (s : State) (f : Storage → Storage) : (s.modSto f).doms = s.doms := rfl
@[simp] theorem State.modSto_job (s : State) (f : Storage → Storage) : (s.modSto f).job = s.job := rfl
@[simp] theorem State.modSto_pci (s : State) (f : Storage → Storage) : (s.modSto f).pci = s.pci := rfl
@[simp] theorem State.modSto_slices (s : State) (f : Storage → Storage) : (s.modSto f).slices = s.slices := rfl
@[simp] theorem State.modSto_windows (s : State) (f : Storage → Storage) : (s.modSto f).windows = s.windows := rfl
@[simp] theorem State.modSto_accel (s : State) (f : Storage → Storage) : (s.modSto f).accel = s.accel := rfl
@[simp] theorem State.modSto_sec (s : State) (f : Storage → Storage) : (s.modSto f).sec = s.sec := rfl
@[simp] theorem State.modSto_vrm (s : State) (f : Storage → Storage) : (s.modSto f).vrm = s.vrm := rfl
@[simp] theorem State.modSto_net (s : State) (f : Storage → Storage) : (s.modSto f).net = s.net := rfl
@[simp] theorem State.modSto_out (s : State) (f : Storage → Storage) : (s.modSto f).out = s.out := rfl
@[simp] theorem State.modSto_fresh (s : State) (f : Storage → Storage) : (s.modSto f).fresh = s.fresh := rfl

/-! State.setNvme -/

@[simp] theorem State.setNvme_pending (s : State) (k : Nat) (c : Nvme) : (s.setNvme k c).pending = s.pending := rfl
@[simp] theorem State.setNvme_regs (s : State) (k : Nat) (c : Nvme) : (s.setNvme k c).regs = s.regs := rfl
@[simp] theorem State.setNvme_latch (s : State) (k : Nat) (c : Nvme) : (s.setNvme k c).latch = s.latch := rfl
@[simp] theorem State.setNvme_readVal (s : State) (k : Nat) (c : Nvme) : (s.setNvme k c).readVal = s.readVal := rfl
@[simp] theorem State.setNvme_mem (s : State) (k : Nat) (c : Nvme) : (s.setNvme k c).mem = s.mem := rfl
@[simp] theorem State.setNvme_keep (s : State) (k : Nat) (c : Nvme) : (s.setNvme k c).keep = s.keep := rfl
@[simp] theorem State.setNvme_strata (s : State) (k : Nat) (c : Nvme) : (s.setNvme k c).strata = s.strata := rfl
@[simp] theorem State.setNvme_sieve (s : State) (k : Nat) (c : Nvme) : (s.setNvme k c).sieve = s.sieve := rfl
@[simp] theorem State.setNvme_mbx (s : State) (k : Nat) (c : Nvme) : (s.setNvme k c).mbx = s.mbx := rfl
@[simp] theorem State.setNvme_fw (s : State) (k : Nat) (c : Nvme) : (s.setNvme k c).fw = s.fw := rfl
@[simp] theorem State.setNvme_irq (s : State) (k : Nat) (c : Nvme) : (s.setNvme k c).irq = s.irq := rfl
@[simp] theorem State.setNvme_pwr (s : State) (k : Nat) (c : Nvme) : (s.setNvme k c).pwr = s.pwr := rfl
@[simp] theorem State.setNvme_ft (s : State) (k : Nat) (c : Nvme) : (s.setNvme k c).ft = s.ft := rfl
@[simp] theorem State.setNvme_cmp (s : State) (k : Nat) (c : Nvme) : (s.setNvme k c).cmp = s.cmp := rfl
@[simp] theorem State.setNvme_frozen (s : State) (k : Nat) (c : Nvme) : (s.setNvme k c).frozen = s.frozen := rfl
@[simp] theorem State.setNvme_cores (s : State) (k : Nat) (c : Nvme) : (s.setNvme k c).cores = s.cores := rfl
@[simp] theorem State.setNvme_arr (s : State) (k : Nat) (c : Nvme) : (s.setNvme k c).arr = s.arr := rfl
@[simp] theorem State.setNvme_work (s : State) (k : Nat) (c : Nvme) : (s.setNvme k c).work = s.work := rfl
@[simp] theorem State.setNvme_doms (s : State) (k : Nat) (c : Nvme) : (s.setNvme k c).doms = s.doms := rfl
@[simp] theorem State.setNvme_job (s : State) (k : Nat) (c : Nvme) : (s.setNvme k c).job = s.job := rfl
@[simp] theorem State.setNvme_pci (s : State) (k : Nat) (c : Nvme) : (s.setNvme k c).pci = s.pci := rfl
@[simp] theorem State.setNvme_slices (s : State) (k : Nat) (c : Nvme) : (s.setNvme k c).slices = s.slices := rfl
@[simp] theorem State.setNvme_windows (s : State) (k : Nat) (c : Nvme) : (s.setNvme k c).windows = s.windows := rfl
@[simp] theorem State.setNvme_accel (s : State) (k : Nat) (c : Nvme) : (s.setNvme k c).accel = s.accel := rfl
@[simp] theorem State.setNvme_sec (s : State) (k : Nat) (c : Nvme) : (s.setNvme k c).sec = s.sec := rfl
@[simp] theorem State.setNvme_vrm (s : State) (k : Nat) (c : Nvme) : (s.setNvme k c).vrm = s.vrm := rfl
@[simp] theorem State.setNvme_net (s : State) (k : Nat) (c : Nvme) : (s.setNvme k c).net = s.net := rfl
@[simp] theorem State.setNvme_out (s : State) (k : Nat) (c : Nvme) : (s.setNvme k c).out = s.out := rfl
@[simp] theorem State.setNvme_fresh (s : State) (k : Nat) (c : Nvme) : (s.setNvme k c).fresh = s.fresh := rfl

/-! State.modFt -/

@[simp] theorem State.modFt_pending (s : State) (f : FabricTime → FabricTime) : (s.modFt f).pending = s.pending := rfl
@[simp] theorem State.modFt_regs (s : State) (f : FabricTime → FabricTime) : (s.modFt f).regs = s.regs := rfl
@[simp] theorem State.modFt_latch (s : State) (f : FabricTime → FabricTime) : (s.modFt f).latch = s.latch := rfl
@[simp] theorem State.modFt_readVal (s : State) (f : FabricTime → FabricTime) : (s.modFt f).readVal = s.readVal := rfl
@[simp] theorem State.modFt_mem (s : State) (f : FabricTime → FabricTime) : (s.modFt f).mem = s.mem := rfl
@[simp] theorem State.modFt_keep (s : State) (f : FabricTime → FabricTime) : (s.modFt f).keep = s.keep := rfl
@[simp] theorem State.modFt_strata (s : State) (f : FabricTime → FabricTime) : (s.modFt f).strata = s.strata := rfl
@[simp] theorem State.modFt_sieve (s : State) (f : FabricTime → FabricTime) : (s.modFt f).sieve = s.sieve := rfl
@[simp] theorem State.modFt_mbx (s : State) (f : FabricTime → FabricTime) : (s.modFt f).mbx = s.mbx := rfl
@[simp] theorem State.modFt_fw (s : State) (f : FabricTime → FabricTime) : (s.modFt f).fw = s.fw := rfl
@[simp] theorem State.modFt_irq (s : State) (f : FabricTime → FabricTime) : (s.modFt f).irq = s.irq := rfl
@[simp] theorem State.modFt_pwr (s : State) (f : FabricTime → FabricTime) : (s.modFt f).pwr = s.pwr := rfl
@[simp] theorem State.modFt_cmp (s : State) (f : FabricTime → FabricTime) : (s.modFt f).cmp = s.cmp := rfl
@[simp] theorem State.modFt_frozen (s : State) (f : FabricTime → FabricTime) : (s.modFt f).frozen = s.frozen := rfl
@[simp] theorem State.modFt_cores (s : State) (f : FabricTime → FabricTime) : (s.modFt f).cores = s.cores := rfl
@[simp] theorem State.modFt_arr (s : State) (f : FabricTime → FabricTime) : (s.modFt f).arr = s.arr := rfl
@[simp] theorem State.modFt_work (s : State) (f : FabricTime → FabricTime) : (s.modFt f).work = s.work := rfl
@[simp] theorem State.modFt_doms (s : State) (f : FabricTime → FabricTime) : (s.modFt f).doms = s.doms := rfl
@[simp] theorem State.modFt_job (s : State) (f : FabricTime → FabricTime) : (s.modFt f).job = s.job := rfl
@[simp] theorem State.modFt_pci (s : State) (f : FabricTime → FabricTime) : (s.modFt f).pci = s.pci := rfl
@[simp] theorem State.modFt_slices (s : State) (f : FabricTime → FabricTime) : (s.modFt f).slices = s.slices := rfl
@[simp] theorem State.modFt_windows (s : State) (f : FabricTime → FabricTime) : (s.modFt f).windows = s.windows := rfl
@[simp] theorem State.modFt_accel (s : State) (f : FabricTime → FabricTime) : (s.modFt f).accel = s.accel := rfl
@[simp] theorem State.modFt_sec (s : State) (f : FabricTime → FabricTime) : (s.modFt f).sec = s.sec := rfl
@[simp] theorem State.modFt_vrm (s : State) (f : FabricTime → FabricTime) : (s.modFt f).vrm = s.vrm := rfl
@[simp] theorem State.modFt_net (s : State) (f : FabricTime → FabricTime) : (s.modFt f).net = s.net := rfl
@[simp] theorem State.modFt_sto (s : State) (f : FabricTime → FabricTime) : (s.modFt f).sto = s.sto := rfl
@[simp] theorem State.modFt_out (s : State) (f : FabricTime → FabricTime) : (s.modFt f).out = s.out := rfl
@[simp] theorem State.modFt_fresh (s : State) (f : FabricTime → FabricTime) : (s.modFt f).fresh = s.fresh := rfl

/-! State.setArmed -/

@[simp] theorem State.setArmed_pending (s : State) (k : Nat) (a : Armed) : (s.setArmed k a).pending = s.pending := rfl
@[simp] theorem State.setArmed_regs (s : State) (k : Nat) (a : Armed) : (s.setArmed k a).regs = s.regs := rfl
@[simp] theorem State.setArmed_latch (s : State) (k : Nat) (a : Armed) : (s.setArmed k a).latch = s.latch := rfl
@[simp] theorem State.setArmed_readVal (s : State) (k : Nat) (a : Armed) : (s.setArmed k a).readVal = s.readVal := rfl
@[simp] theorem State.setArmed_mem (s : State) (k : Nat) (a : Armed) : (s.setArmed k a).mem = s.mem := rfl
@[simp] theorem State.setArmed_keep (s : State) (k : Nat) (a : Armed) : (s.setArmed k a).keep = s.keep := rfl
@[simp] theorem State.setArmed_strata (s : State) (k : Nat) (a : Armed) : (s.setArmed k a).strata = s.strata := rfl
@[simp] theorem State.setArmed_sieve (s : State) (k : Nat) (a : Armed) : (s.setArmed k a).sieve = s.sieve := rfl
@[simp] theorem State.setArmed_mbx (s : State) (k : Nat) (a : Armed) : (s.setArmed k a).mbx = s.mbx := rfl
@[simp] theorem State.setArmed_fw (s : State) (k : Nat) (a : Armed) : (s.setArmed k a).fw = s.fw := rfl
@[simp] theorem State.setArmed_irq (s : State) (k : Nat) (a : Armed) : (s.setArmed k a).irq = s.irq := rfl
@[simp] theorem State.setArmed_pwr (s : State) (k : Nat) (a : Armed) : (s.setArmed k a).pwr = s.pwr := rfl
@[simp] theorem State.setArmed_ft (s : State) (k : Nat) (a : Armed) : (s.setArmed k a).ft = s.ft := rfl
@[simp] theorem State.setArmed_frozen (s : State) (k : Nat) (a : Armed) : (s.setArmed k a).frozen = s.frozen := rfl
@[simp] theorem State.setArmed_cores (s : State) (k : Nat) (a : Armed) : (s.setArmed k a).cores = s.cores := rfl
@[simp] theorem State.setArmed_arr (s : State) (k : Nat) (a : Armed) : (s.setArmed k a).arr = s.arr := rfl
@[simp] theorem State.setArmed_work (s : State) (k : Nat) (a : Armed) : (s.setArmed k a).work = s.work := rfl
@[simp] theorem State.setArmed_doms (s : State) (k : Nat) (a : Armed) : (s.setArmed k a).doms = s.doms := rfl
@[simp] theorem State.setArmed_job (s : State) (k : Nat) (a : Armed) : (s.setArmed k a).job = s.job := rfl
@[simp] theorem State.setArmed_pci (s : State) (k : Nat) (a : Armed) : (s.setArmed k a).pci = s.pci := rfl
@[simp] theorem State.setArmed_slices (s : State) (k : Nat) (a : Armed) : (s.setArmed k a).slices = s.slices := rfl
@[simp] theorem State.setArmed_windows (s : State) (k : Nat) (a : Armed) : (s.setArmed k a).windows = s.windows := rfl
@[simp] theorem State.setArmed_accel (s : State) (k : Nat) (a : Armed) : (s.setArmed k a).accel = s.accel := rfl
@[simp] theorem State.setArmed_sec (s : State) (k : Nat) (a : Armed) : (s.setArmed k a).sec = s.sec := rfl
@[simp] theorem State.setArmed_vrm (s : State) (k : Nat) (a : Armed) : (s.setArmed k a).vrm = s.vrm := rfl
@[simp] theorem State.setArmed_net (s : State) (k : Nat) (a : Armed) : (s.setArmed k a).net = s.net := rfl
@[simp] theorem State.setArmed_sto (s : State) (k : Nat) (a : Armed) : (s.setArmed k a).sto = s.sto := rfl
@[simp] theorem State.setArmed_out (s : State) (k : Nat) (a : Armed) : (s.setArmed k a).out = s.out := rfl
@[simp] theorem State.setArmed_fresh (s : State) (k : Nat) (a : Armed) : (s.setArmed k a).fresh = s.fresh := rfl

/-! State.modVrm -/

@[simp] theorem State.modVrm_pending (s : State) (f : Vrmt → Vrmt) : (s.modVrm f).pending = s.pending := rfl
@[simp] theorem State.modVrm_regs (s : State) (f : Vrmt → Vrmt) : (s.modVrm f).regs = s.regs := rfl
@[simp] theorem State.modVrm_latch (s : State) (f : Vrmt → Vrmt) : (s.modVrm f).latch = s.latch := rfl
@[simp] theorem State.modVrm_readVal (s : State) (f : Vrmt → Vrmt) : (s.modVrm f).readVal = s.readVal := rfl
@[simp] theorem State.modVrm_mem (s : State) (f : Vrmt → Vrmt) : (s.modVrm f).mem = s.mem := rfl
@[simp] theorem State.modVrm_keep (s : State) (f : Vrmt → Vrmt) : (s.modVrm f).keep = s.keep := rfl
@[simp] theorem State.modVrm_strata (s : State) (f : Vrmt → Vrmt) : (s.modVrm f).strata = s.strata := rfl
@[simp] theorem State.modVrm_sieve (s : State) (f : Vrmt → Vrmt) : (s.modVrm f).sieve = s.sieve := rfl
@[simp] theorem State.modVrm_mbx (s : State) (f : Vrmt → Vrmt) : (s.modVrm f).mbx = s.mbx := rfl
@[simp] theorem State.modVrm_fw (s : State) (f : Vrmt → Vrmt) : (s.modVrm f).fw = s.fw := rfl
@[simp] theorem State.modVrm_irq (s : State) (f : Vrmt → Vrmt) : (s.modVrm f).irq = s.irq := rfl
@[simp] theorem State.modVrm_pwr (s : State) (f : Vrmt → Vrmt) : (s.modVrm f).pwr = s.pwr := rfl
@[simp] theorem State.modVrm_ft (s : State) (f : Vrmt → Vrmt) : (s.modVrm f).ft = s.ft := rfl
@[simp] theorem State.modVrm_cmp (s : State) (f : Vrmt → Vrmt) : (s.modVrm f).cmp = s.cmp := rfl
@[simp] theorem State.modVrm_frozen (s : State) (f : Vrmt → Vrmt) : (s.modVrm f).frozen = s.frozen := rfl
@[simp] theorem State.modVrm_cores (s : State) (f : Vrmt → Vrmt) : (s.modVrm f).cores = s.cores := rfl
@[simp] theorem State.modVrm_arr (s : State) (f : Vrmt → Vrmt) : (s.modVrm f).arr = s.arr := rfl
@[simp] theorem State.modVrm_work (s : State) (f : Vrmt → Vrmt) : (s.modVrm f).work = s.work := rfl
@[simp] theorem State.modVrm_doms (s : State) (f : Vrmt → Vrmt) : (s.modVrm f).doms = s.doms := rfl
@[simp] theorem State.modVrm_job (s : State) (f : Vrmt → Vrmt) : (s.modVrm f).job = s.job := rfl
@[simp] theorem State.modVrm_pci (s : State) (f : Vrmt → Vrmt) : (s.modVrm f).pci = s.pci := rfl
@[simp] theorem State.modVrm_slices (s : State) (f : Vrmt → Vrmt) : (s.modVrm f).slices = s.slices := rfl
@[simp] theorem State.modVrm_windows (s : State) (f : Vrmt → Vrmt) : (s.modVrm f).windows = s.windows := rfl
@[simp] theorem State.modVrm_accel (s : State) (f : Vrmt → Vrmt) : (s.modVrm f).accel = s.accel := rfl
@[simp] theorem State.modVrm_sec (s : State) (f : Vrmt → Vrmt) : (s.modVrm f).sec = s.sec := rfl
@[simp] theorem State.modVrm_net (s : State) (f : Vrmt → Vrmt) : (s.modVrm f).net = s.net := rfl
@[simp] theorem State.modVrm_sto (s : State) (f : Vrmt → Vrmt) : (s.modVrm f).sto = s.sto := rfl
@[simp] theorem State.modVrm_out (s : State) (f : Vrmt → Vrmt) : (s.modVrm f).out = s.out := rfl
@[simp] theorem State.modVrm_fresh (s : State) (f : Vrmt → Vrmt) : (s.modVrm f).fresh = s.fresh := rfl

/-! State.setConn -/

@[simp] theorem State.setConn_pending (s : State) (cn : Nat) (c : Conn) : (s.setConn cn c).pending = s.pending := rfl
@[simp] theorem State.setConn_regs (s : State) (cn : Nat) (c : Conn) : (s.setConn cn c).regs = s.regs := rfl
@[simp] theorem State.setConn_latch (s : State) (cn : Nat) (c : Conn) : (s.setConn cn c).latch = s.latch := rfl
@[simp] theorem State.setConn_readVal (s : State) (cn : Nat) (c : Conn) : (s.setConn cn c).readVal = s.readVal := rfl
@[simp] theorem State.setConn_mem (s : State) (cn : Nat) (c : Conn) : (s.setConn cn c).mem = s.mem := rfl
@[simp] theorem State.setConn_keep (s : State) (cn : Nat) (c : Conn) : (s.setConn cn c).keep = s.keep := rfl
@[simp] theorem State.setConn_strata (s : State) (cn : Nat) (c : Conn) : (s.setConn cn c).strata = s.strata := rfl
@[simp] theorem State.setConn_sieve (s : State) (cn : Nat) (c : Conn) : (s.setConn cn c).sieve = s.sieve := rfl
@[simp] theorem State.setConn_mbx (s : State) (cn : Nat) (c : Conn) : (s.setConn cn c).mbx = s.mbx := rfl
@[simp] theorem State.setConn_fw (s : State) (cn : Nat) (c : Conn) : (s.setConn cn c).fw = s.fw := rfl
@[simp] theorem State.setConn_irq (s : State) (cn : Nat) (c : Conn) : (s.setConn cn c).irq = s.irq := rfl
@[simp] theorem State.setConn_pwr (s : State) (cn : Nat) (c : Conn) : (s.setConn cn c).pwr = s.pwr := rfl
@[simp] theorem State.setConn_ft (s : State) (cn : Nat) (c : Conn) : (s.setConn cn c).ft = s.ft := rfl
@[simp] theorem State.setConn_cmp (s : State) (cn : Nat) (c : Conn) : (s.setConn cn c).cmp = s.cmp := rfl
@[simp] theorem State.setConn_frozen (s : State) (cn : Nat) (c : Conn) : (s.setConn cn c).frozen = s.frozen := rfl
@[simp] theorem State.setConn_cores (s : State) (cn : Nat) (c : Conn) : (s.setConn cn c).cores = s.cores := rfl
@[simp] theorem State.setConn_arr (s : State) (cn : Nat) (c : Conn) : (s.setConn cn c).arr = s.arr := rfl
@[simp] theorem State.setConn_work (s : State) (cn : Nat) (c : Conn) : (s.setConn cn c).work = s.work := rfl
@[simp] theorem State.setConn_doms (s : State) (cn : Nat) (c : Conn) : (s.setConn cn c).doms = s.doms := rfl
@[simp] theorem State.setConn_job (s : State) (cn : Nat) (c : Conn) : (s.setConn cn c).job = s.job := rfl
@[simp] theorem State.setConn_pci (s : State) (cn : Nat) (c : Conn) : (s.setConn cn c).pci = s.pci := rfl
@[simp] theorem State.setConn_slices (s : State) (cn : Nat) (c : Conn) : (s.setConn cn c).slices = s.slices := rfl
@[simp] theorem State.setConn_windows (s : State) (cn : Nat) (c : Conn) : (s.setConn cn c).windows = s.windows := rfl
@[simp] theorem State.setConn_accel (s : State) (cn : Nat) (c : Conn) : (s.setConn cn c).accel = s.accel := rfl
@[simp] theorem State.setConn_sec (s : State) (cn : Nat) (c : Conn) : (s.setConn cn c).sec = s.sec := rfl
@[simp] theorem State.setConn_net (s : State) (cn : Nat) (c : Conn) : (s.setConn cn c).net = s.net := rfl
@[simp] theorem State.setConn_sto (s : State) (cn : Nat) (c : Conn) : (s.setConn cn c).sto = s.sto := rfl
@[simp] theorem State.setConn_out (s : State) (cn : Nat) (c : Conn) : (s.setConn cn c).out = s.out := rfl
@[simp] theorem State.setConn_fresh (s : State) (cn : Nat) (c : Conn) : (s.setConn cn c).fresh = s.fresh := rfl
/-! The field that an update changes. -/

@[simp] theorem State.emit_out (s : State) (e : Emit) : (s.emit e).out = e :: s.out := rfl
@[simp] theorem State.draw_fresh (s : State) (w : Nat) : (s.draw w).2.fresh = s.fresh + 1 := rfl
@[simp] theorem State.setMailbox_mbx (s : State) (c : Caller) (m : Mailbox) : (s.setMailbox c m).mbx = s.mbx.set c m := rfl
@[simp] theorem State.setPart_work (s : State) (p : Nat) (P : Partition) : (s.setPart p P).work = { s.work with parts := s.work.parts.set p P } := rfl
@[simp] theorem State.setItem_work (s : State) (i : Nat) (w : WorkItem) : (s.setItem i w).work = { s.work with items := s.work.items.set i w } := rfl
@[simp] theorem State.modJob_job (s : State) (f : Job → Job) : (s.modJob f).job = f s.job := rfl
@[simp] theorem State.modSec_sec (s : State) (f : Security → Security) : (s.modSec f).sec = f s.sec := rfl
@[simp] theorem State.setSlot_sec (s : State) (k : Nat) (t : KeySlot) : (s.setSlot k t).sec = { s.sec with slots := s.sec.slots.set k t } := rfl
@[simp] theorem State.modFw_fw (s : State) (f : Firmware → Firmware) : (s.modFw f).fw = f s.fw := rfl
@[simp] theorem State.modPwr_pwr (s : State) (f : Power → Power) : (s.modPwr f).pwr = f s.pwr := rfl
@[simp] theorem State.modNet_net (s : State) (f : Net → Net) : (s.modNet f).net = f s.net := rfl
@[simp] theorem State.setDom_doms (s : State) (d : Nat) (D : Domain) : (s.setDom d D).doms = s.doms.set d D := rfl
@[simp] theorem State.setSlice_slices (s : State) (n : Nat) (S : Slice) : (s.setSlice n S).slices = s.slices.set n S := rfl
@[simp] theorem State.modSto_sto (s : State) (f : Storage → Storage) : (s.modSto f).sto = f s.sto := rfl
@[simp] theorem State.setNvme_sto (s : State) (k : Nat) (c : Nvme) : (s.setNvme k c).sto = { s.sto with ctrls := s.sto.ctrls.set k c } := rfl
@[simp] theorem State.modFt_ft (s : State) (f : FabricTime → FabricTime) : (s.modFt f).ft = f s.ft := rfl
@[simp] theorem State.setArmed_cmp (s : State) (k : Nat) (a : Armed) : (s.setArmed k a).cmp = { s.cmp with armed := s.cmp.armed.set k a } := rfl
@[simp] theorem State.modVrm_vrm (s : State) (f : Vrmt → Vrmt) : (s.modVrm f).vrm = f s.vrm := rfl
@[simp] theorem State.setConn_vrm (s : State) (cn : Nat) (c : Conn) : (s.setConn cn c).vrm = { s.vrm with conns := s.vrm.conns.set cn c } := rfl

/-! Registers. -/

/-- A register reads the value that hardware gave it, reduced to its width; every other register reads as before. -/
theorem State.reg_setReg (s : State) (n m : RegName) (v i j : Nat) :
    (s.setReg n v i).reg m j = if m = n ∧ j = i then v % 2 ^ n.info.width else s.reg m j := by
  unfold State.reg State.setReg
  simp only [Tab.get_set, Reg.mk.injEq]

@[simp] theorem State.reg_setReg_same (s : State) (n : RegName) (v i : Nat) : (s.setReg n v i).reg n i = v % 2 ^ n.info.width := by
  simp [State.reg_setReg]

@[simp] theorem State.reg_setReg_name (s : State) (n m : RegName) (v i j : Nat) (h : m ≠ n) : (s.setReg n v i).reg m j = s.reg m j := by
  simp [State.reg_setReg, h]

/-- A field of one register written: another register's fields stay. -/
@[simp] theorem State.reg_setFld_name (s : State) (n m : RegName) (hi lo v i j : Nat) (h : m ≠ n) :
    (s.setFld n hi lo v i).reg m j = s.reg m j := State.reg_setReg_name s n m _ i j h

@[simp] theorem State.reg_bump_name (s : State) (n m : RegName) (i j k : Nat) (h : m ≠ n) : (s.bump n i k).reg m j = s.reg m j :=
  State.reg_setReg_name s n m _ i j h

/-- The field written reads as the value written, where it lies within the register. -/
theorem State.fld_setFld_same (s : State) (n : RegName) (hi lo v i : Nat) (hw : hi < n.info.width) :
    (s.setFld n hi lo v i).fld n hi lo i = v % 2 ^ (hi + 1 - lo) := by
  unfold State.fld State.setFld
  rw [State.reg_setReg_same]
  generalize s.reg n i = r
  by_cases hl : lo ≤ hi + 1
  · apply Nat.eq_of_testBit_eq
    intro k
    rw [natBits_testBit, Nat.testBit_mod_two_pow, natSetBits_testBit _ _ _ _ _ hl, Nat.testBit_mod_two_pow]
    by_cases hk : k < hi + 1 - lo
    · have h1 : k + lo < n.info.width := by omega
      have h2 : lo ≤ k + lo ∧ k + lo ≤ hi := by omega
      simp [hk, h1, h2.2]
    · simp [hk]
  · have : hi + 1 - lo = 0 := by omega
    simp [natBits, this, Nat.mod_one]

/-- A field of the same register apart from the one written keeps its value. -/
theorem State.fld_setFld_apart (s : State) (n : RegName) (hi lo v hi' lo' i : Nat) (hl : lo ≤ hi + 1) (hd : hi < lo' ∨ hi' < lo)
    (hw : hi' < n.info.width) : (s.setFld n hi lo v i).fld n hi' lo' i = s.fld n hi' lo' i := by
  unfold State.fld State.setFld
  rw [State.reg_setReg_same]
  generalize s.reg n i = r
  apply Nat.eq_of_testBit_eq
  intro k
  rw [natBits_testBit, natBits_testBit, Nat.testBit_mod_two_pow, natSetBits_testBit _ _ _ _ _ hl]
  by_cases hk : k < hi' + 1 - lo'
  · have h1 : k + lo' < n.info.width := by omega
    have h2 : ¬ (lo ≤ k + lo' ∧ k + lo' ≤ hi) := by omega
    simp [hk, h1, h2]
  · simp [hk]

/-- A counter that rose reads one more until its width is full. -/
theorem State.reg_bump_same (s : State) (n : RegName) (i k : Nat) : (s.bump n i k).reg n i = satAdd n.info.width (s.reg n i) k := by
  unfold State.bump
  rw [State.reg_setReg_same]
  apply Nat.mod_eq_of_lt
  unfold satAdd
  have : 0 < 2 ^ n.info.width := by positivity
  omega

/-- A register at its reset value. -/
theorem State.reg_clearReg_same (s : State) (n : RegName) (i : Nat) : (s.clearReg n i).reg n i = Reg.reset ⟨n, i⟩ := by
  simp [State.reg, State.clearReg]

/-! Cores. -/

@[simp] theorem State.core_setCore_same (s : State) (id : Nat) (c : Core) : (s.setCore id c).core id = c := by
  simp [State.core, State.setCore]

theorem State.core_setCore_ne (s : State) (id j : Nat) (c : Core) (h : j ≠ id) : (s.setCore id c).core j = s.core j := by
  simp [State.core, State.setCore, Tab.get_set_ne _ _ _ h]

@[simp] theorem State.core_modCore_same (s : State) (id : Nat) (f : Core → Core) : (s.modCore id f).core id = f (s.core id) := by
  simp [State.modCore]

/-! When a command acts. -/

@[simp] theorem whenOn_on (s : State) (f : State → State) (h : s.pwr.state = .on) : whenOn s f = .next (f s) := by simp [whenOn, h]

theorem whenOn_off (s : State) (f : State → State) (h : s.pwr.state ≠ .on) : whenOn s f = .next s := by simp [whenOn, h]

/-- A command that acts while the device is ON always completes. -/
theorem whenOn_next (s : State) (f : State → State) : ∃ t, whenOn s f = .next t := ⟨_, rfl⟩

theorem whenMain_next (s : State) (f : State → State) : ∃ t, whenMain s f = .next t := ⟨_, rfl⟩

end Sys2Proof.Machine
end

