-- ==== Sys2Proof/Laws/Touch.lean ====
section
/-! SUPPORT. What a function of the model may touch. `Touch F s t` says of a change from `s` to `t` that the queue stays, the memory keeps its canonical form,
what was sent stays sent, free values are only drawn, and everything that the footprint `F` does not name is as it was. Bits 0 to 31 of a footprint name
fields of State (bit 30: the power state itself), bits from 32 on register names in their order. -/

namespace Sys2Proof.Machine

open Sys2Proof

/-- The number of a register name. -/
abbrev regNo (n : RegName) : Nat := n.ctorIdx

/-- The footprint of a register. -/
def regFoot (n : RegName) : Nat := 2 ^ (32 + regNo n)

/-- Every register. -/
def regsFoot : Nat := (2 ^ 152 - 1) * 2 ^ 32

/-- `G` lies within `F`. -/
abbrev Within (G F : Nat) : Prop := Nat.land G F = G

theorem Within.testBit {G F : Nat} (h : Within G F) {i : Nat} (hi : F.testBit i = false) : G.testBit i = false := by
  have e : Nat.land G F = G := h
  rw [← e]
  show (G &&& F).testBit i = false
  rw [Nat.testBit_and, hi, Bool.and_false]

theorem Within.refl (F : Nat) : Within F F := Nat.and_self F

theorem Within.trans {G F E : Nat} (a : Within G F) (b : Within F E) : Within G E := by
  have a' : G &&& F = G := a
  have b' : F &&& E = F := b
  show G &&& E = G
  rw [← a', Nat.and_assoc, b']

structure Touch (F : Nat) (s t : State) : Prop where
  pending : t.pending = s.pending
  canonical : Memory.wf s.mem = true → Memory.wf t.mem = true
  sent : s.out <:+ t.out
  drawn : s.fresh ≤ t.fresh
  pwrState : F.testBit 30 = false → t.pwr.state = s.pwr.state
  reg : ∀ r : Reg, F.testBit (32 + regNo r.name) = false → Tab.find r t.regs = Tab.find r s.regs
  latch' : F.testBit 1 = false → t.latch = s.latch
  readVal' : F.testBit 2 = false → t.readVal = s.readVal
  mem' : F.testBit 3 = false → t.mem = s.mem
  keep' : F.testBit 4 = false → t.keep = s.keep
  strata' : F.testBit 5 = false → t.strata = s.strata
  sieve' : F.testBit 6 = false → t.sieve = s.sieve
  mbx' : F.testBit 7 = false → t.mbx = s.mbx
  fw' : F.testBit 8 = false → t.fw = s.fw
  irq' : F.testBit 9 = false → t.irq = s.irq
  pwr' : F.testBit 10 = false → t.pwr = s.pwr
  ft' : F.testBit 11 = false → t.ft = s.ft
  cmp' : F.testBit 12 = false → t.cmp = s.cmp
  frozen' : F.testBit 13 = false → t.frozen = s.frozen
  cores' : F.testBit 14 = false → t.cores = s.cores
  arr' : F.testBit 15 = false → t.arr = s.arr
  work' : F.testBit 16 = false → t.work = s.work
  doms' : F.testBit 17 = false → t.doms = s.doms
  job' : F.testBit 18 = false → t.job = s.job
  pci' : F.testBit 19 = false → t.pci = s.pci
  slices' : F.testBit 20 = false → t.slices = s.slices
  windows' : F.testBit 21 = false → t.windows = s.windows
  accel' : F.testBit 22 = false → t.accel = s.accel
  sec' : F.testBit 23 = false → t.sec = s.sec
  vrm' : F.testBit 24 = false → t.vrm = s.vrm
  net' : F.testBit 25 = false → t.net = s.net
  sto' : F.testBit 26 = false → t.sto = s.sto
  out' : F.testBit 27 = false → t.out = s.out
  fresh' : F.testBit 28 = false → t.fresh = s.fresh

theorem Touch.refl (F : Nat) (s : State) : Touch F s s :=
  ⟨rfl, id, List.suffix_rfl, le_refl _, fun _ => rfl, fun _ _ => rfl, fun _ => rfl, fun _ => rfl, fun _ => rfl, fun _ => rfl, fun _ => rfl, fun _ => rfl, fun _ => rfl, fun _ => rfl, fun _ => rfl, fun _ => rfl, fun _ => rfl, fun _ => rfl, fun _ => rfl, fun _ => rfl, fun _ => rfl, fun _ => rfl, fun _ => rfl, fun _ => rfl, fun _ => rfl, fun _ => rfl, fun _ => rfl, fun _ => rfl, fun _ => rfl, fun _ => rfl, fun _ => rfl, fun _ => rfl, fun _ => rfl, fun _ => rfl⟩

theorem Touch.trans {F : Nat} {s t u : State} (a : Touch F s t) (b : Touch F t u) : Touch F s u :=
  ⟨b.pending.trans a.pending, fun h => b.canonical (a.canonical h), a.sent.trans b.sent, le_trans a.drawn b.drawn, fun h => (b.pwrState h).trans (a.pwrState h), fun r h => (b.reg r h).trans (a.reg r h),
    fun h => (b.latch' h).trans (a.latch' h),
    fun h => (b.readVal' h).trans (a.readVal' h),
    fun h => (b.mem' h).trans (a.mem' h),
    fun h => (b.keep' h).trans (a.keep' h),
    fun h => (b.strata' h).trans (a.strata' h),
    fun h => (b.sieve' h).trans (a.sieve' h),
    fun h => (b.mbx' h).trans (a.mbx' h),
    fun h => (b.fw' h).trans (a.fw' h),
    fun h => (b.irq' h).trans (a.irq' h),
    fun h => (b.pwr' h).trans (a.pwr' h),
    fun h => (b.ft' h).trans (a.ft' h),
    fun h => (b.cmp' h).trans (a.cmp' h),
    fun h => (b.frozen' h).trans (a.frozen' h),
    fun h => (b.cores' h).trans (a.cores' h),
    fun h => (b.arr' h).trans (a.arr' h),
    fun h => (b.work' h).trans (a.work' h),
    fun h => (b.doms' h).trans (a.doms' h),
    fun h => (b.job' h).trans (a.job' h),
    fun h => (b.pci' h).trans (a.pci' h),
    fun h => (b.slices' h).trans (a.slices' h),
    fun h => (b.windows' h).trans (a.windows' h),
    fun h => (b.accel' h).trans (a.accel' h),
    fun h => (b.sec' h).trans (a.sec' h),
    fun h => (b.vrm' h).trans (a.vrm' h),
    fun h => (b.net' h).trans (a.net' h),
    fun h => (b.sto' h).trans (a.sto' h),
    fun h => (b.out' h).trans (a.out' h),
    fun h => (b.fresh' h).trans (a.fresh' h)⟩

theorem Touch.mono {G F : Nat} {s t : State} (a : Touch G s t) (h : Within G F) : Touch F s t :=
  ⟨a.pending, a.canonical, a.sent, a.drawn, fun k => a.pwrState (h.testBit k), fun r k => a.reg r (h.testBit k),
    fun k => a.latch' (h.testBit k),
    fun k => a.readVal' (h.testBit k),
    fun k => a.mem' (h.testBit k),
    fun k => a.keep' (h.testBit k),
    fun k => a.strata' (h.testBit k),
    fun k => a.sieve' (h.testBit k),
    fun k => a.mbx' (h.testBit k),
    fun k => a.fw' (h.testBit k),
    fun k => a.irq' (h.testBit k),
    fun k => a.pwr' (h.testBit k),
    fun k => a.ft' (h.testBit k),
    fun k => a.cmp' (h.testBit k),
    fun k => a.frozen' (h.testBit k),
    fun k => a.cores' (h.testBit k),
    fun k => a.arr' (h.testBit k),
    fun k => a.work' (h.testBit k),
    fun k => a.doms' (h.testBit k),
    fun k => a.job' (h.testBit k),
    fun k => a.pci' (h.testBit k),
    fun k => a.slices' (h.testBit k),
    fun k => a.windows' (h.testBit k),
    fun k => a.accel' (h.testBit k),
    fun k => a.sec' (h.testBit k),
    fun k => a.vrm' (h.testBit k),
    fun k => a.net' (h.testBit k),
    fun k => a.sto' (h.testBit k),
    fun k => a.out' (h.testBit k),
    fun k => a.fresh' (h.testBit k)⟩

/-- A change of `G` after a change of `F` is a change of `F` where `G` lies within it. -/
theorem Touch.step {G F : Nat} {s t u : State} (b : Touch G t u) (h : Within G F) (a : Touch F s t) : Touch F s u := a.trans (b.mono h)

/-- `t` with everything that the footprint does not name taken from `s`. -/
def overlay (F : Nat) (s t : State) : State := { t with
  pending := s.pending
  mem := s.mem
  out := s.out
  fresh := s.fresh
  regs := if Nat.land regsFoot F = regsFoot then t.regs else s.regs
  latch := if F.testBit 1 then t.latch else s.latch
  readVal := if F.testBit 2 then t.readVal else s.readVal
  keep := if F.testBit 4 then t.keep else s.keep
  strata := if F.testBit 5 then t.strata else s.strata
  sieve := if F.testBit 6 then t.sieve else s.sieve
  mbx := if F.testBit 7 then t.mbx else s.mbx
  fw := if F.testBit 8 then t.fw else s.fw
  irq := if F.testBit 9 then t.irq else s.irq
  pwr := if F.testBit 10 then t.pwr else s.pwr
  ft := if F.testBit 11 then t.ft else s.ft
  cmp := if F.testBit 12 then t.cmp else s.cmp
  frozen := if F.testBit 13 then t.frozen else s.frozen
  cores := if F.testBit 14 then t.cores else s.cores
  arr := if F.testBit 15 then t.arr else s.arr
  work := if F.testBit 16 then t.work else s.work
  doms := if F.testBit 17 then t.doms else s.doms
  job := if F.testBit 18 then t.job else s.job
  pci := if F.testBit 19 then t.pci else s.pci
  slices := if F.testBit 20 then t.slices else s.slices
  windows := if F.testBit 21 then t.windows else s.windows
  accel := if F.testBit 22 then t.accel else s.accel
  sec := if F.testBit 23 then t.sec else s.sec
  vrm := if F.testBit 24 then t.vrm else s.vrm
  net := if F.testBit 25 then t.net else s.net
  sto := if F.testBit 26 then t.sto else s.sto }

/-- A record update that leaves the queue, memory, output and free values alone touches what it names. -/
theorem Touch.upd {F : Nat} {s t : State} (h : t = overlay F s t) (hp : F.testBit 30 = true ∨ t.pwr.state = s.pwr.state) : Touch F s t := by
  have reg : ∀ r : Reg, F.testBit (32 + regNo r.name) = false → Tab.find r t.regs = Tab.find r s.regs := by
    intro r hr
    rw [h]
    show Tab.find r (if Nat.land regsFoot F = regsFoot then t.regs else s.regs) = _
    rw [if_neg]
    intro hf
    have hg : regsFoot.testBit (32 + regNo r.name) = true := by cases r.name <;> decide
    rw [← hf] at hg
    have : (regsFoot &&& F).testBit (32 + regNo r.name) = true := hg
    rw [Nat.testBit_and, hr, Bool.and_false] at this
    exact absurd this (by decide)
  have hm : t.mem = s.mem := by rw [h]; rfl
  have ho : t.out = s.out := by rw [h]; rfl
  have hf : t.fresh = s.fresh := by rw [h]; rfl
  refine ⟨by rw [h]; rfl, fun k => hm ▸ k, ho ▸ List.suffix_rfl, le_of_eq hf.symm, fun k => hp.resolve_left (by rw [k]; decide), reg,
    fun k => by rw [h]; show (if F.testBit 1 then t.latch else s.latch) = _; rw [k]; rfl,
    fun k => by rw [h]; show (if F.testBit 2 then t.readVal else s.readVal) = _; rw [k]; rfl, fun _ => hm,
    fun k => by rw [h]; show (if F.testBit 4 then t.keep else s.keep) = _; rw [k]; rfl,
    fun k => by rw [h]; show (if F.testBit 5 then t.strata else s.strata) = _; rw [k]; rfl,
    fun k => by rw [h]; show (if F.testBit 6 then t.sieve else s.sieve) = _; rw [k]; rfl,
    fun k => by rw [h]; show (if F.testBit 7 then t.mbx else s.mbx) = _; rw [k]; rfl,
    fun k => by rw [h]; show (if F.testBit 8 then t.fw else s.fw) = _; rw [k]; rfl,
    fun k => by rw [h]; show (if F.testBit 9 then t.irq else s.irq) = _; rw [k]; rfl,
    fun k => by rw [h]; show (if F.testBit 10 then t.pwr else s.pwr) = _; rw [k]; rfl,
    fun k => by rw [h]; show (if F.testBit 11 then t.ft else s.ft) = _; rw [k]; rfl,
    fun k => by rw [h]; show (if F.testBit 12 then t.cmp else s.cmp) = _; rw [k]; rfl,
    fun k => by rw [h]; show (if F.testBit 13 then t.frozen else s.frozen) = _; rw [k]; rfl,
    fun k => by rw [h]; show (if F.testBit 14 then t.cores else s.cores) = _; rw [k]; rfl,
    fun k => by rw [h]; show (if F.testBit 15 then t.arr else s.arr) = _; rw [k]; rfl,
    fun k => by rw [h]; show (if F.testBit 16 then t.work else s.work) = _; rw [k]; rfl,
    fun k => by rw [h]; show (if F.testBit 17 then t.doms else s.doms) = _; rw [k]; rfl,
    fun k => by rw [h]; show (if F.testBit 18 then t.job else s.job) = _; rw [k]; rfl,
    fun k => by rw [h]; show (if F.testBit 19 then t.pci else s.pci) = _; rw [k]; rfl,
    fun k => by rw [h]; show (if F.testBit 20 then t.slices else s.slices) = _; rw [k]; rfl,
    fun k => by rw [h]; show (if F.testBit 21 then t.windows else s.windows) = _; rw [k]; rfl,
    fun k => by rw [h]; show (if F.testBit 22 then t.accel else s.accel) = _; rw [k]; rfl,
    fun k => by rw [h]; show (if F.testBit 23 then t.sec else s.sec) = _; rw [k]; rfl,
    fun k => by rw [h]; show (if F.testBit 24 then t.vrm else s.vrm) = _; rw [k]; rfl,
    fun k => by rw [h]; show (if F.testBit 25 then t.net else s.net) = _; rw [k]; rfl,
    fun k => by rw [h]; show (if F.testBit 26 then t.sto else s.sto) = _; rw [k]; rfl, fun _ => ho, fun _ => hf⟩

theorem Touch.ite {F : Nat} {s t u : State} {p : Prop} [Decidable p] (a : Touch F s t) (b : Touch F s u) : Touch F s (if p then t else u) := by
  split <;> assumption

theorem Touch.foldl {α : Type} {F : Nat} {s u : State} {l : List α} {f : State → α → State} (a : Touch F s u)
    (h : ∀ t x, Touch F s t → Touch F s (f t x)) : Touch F s (l.foldl f u) := by
  induction l generalizing u with
  | nil => exact a
  | cons x l ih => exact ih (h u x a)

theorem Touch.foldlSnd {α β : Type} {F : Nat} {s : State} {u : β × State} {l : List α} {f : β × State → α → β × State} (a : Touch F s u.2)
    (h : ∀ t x, Touch F s t.2 → Touch F s (f t x).2) : Touch F s (l.foldl f u).2 := by
  induction l generalizing u with
  | nil => exact a
  | cons x l ih => exact ih (h u x a)

theorem Touch.foldlFst {α β : Type} {F : Nat} {s : State} {u : State × β} {l : List α} {f : State × β → α → State × β} (a : Touch F s u.1)
    (h : ∀ t x, Touch F s t.1 → Touch F s (f t x).1) : Touch F s (l.foldl f u).1 := by
  induction l generalizing u with
  | nil => exact a
  | cons x l ih => exact ih (h u x a)

/-! The other shapes of result. -/

def TouchO (F : Nat) (s : State) (o : Option State) : Prop := ∀ t, o = some t → Touch F s t

def TouchOO (F : Nat) (s : State) (o : Option (Option State)) : Prop := ∀ t, o = some (some t) → Touch F s t

def TouchP {α : Type} (F : Nat) (s : State) (p : α × State) : Prop := Touch F s p.2

def TouchQ {α β : Type} (F : Nat) (s : State) (p : α × β × State) : Prop := Touch F s p.2.2

def TouchR {α β γ : Type} (F : Nat) (s : State) (p : α × β × γ × State) : Prop := Touch F s p.2.2.2

def TouchOP {α : Type} (F : Nat) (s : State) (o : Option (α × State)) : Prop := ∀ x t, o = some (x, t) → Touch F s t

def TouchOut (F : Nat) (s : State) (o : Out) : Prop := ∀ t, o = .next t → Touch F s t

theorem TouchO.some' {F : Nat} {s t : State} (a : Touch F s t) : TouchO F s (some t) := fun _ h => Option.some.inj h ▸ a
theorem TouchO.none' (F : Nat) (s : State) : TouchO F s none := fun _ h => nomatch h
theorem TouchO.eq {F : Nat} {s t : State} {o : Option State} (a : TouchO F s o) (h : o = some t) : Touch F s t := a t h
theorem TouchO.ite {F : Nat} {s : State} {t u : Option State} {p : Prop} [Decidable p] (a : TouchO F s t) (b : TouchO F s u) : TouchO F s (if p then t else u) := by
  split <;> assumption
theorem TouchO.step {G F : Nat} {s t : State} {o : Option State} (b : TouchO G t o) (h : Within G F) (a : Touch F s t) : TouchO F s o :=
  fun u hu => a.trans ((b u hu).mono h)
theorem TouchO.getD {F : Nat} {s t : State} {o : Option State} (a : TouchO F s o) (b : Touch F s t) : Touch F s (o.getD t) := by
  cases o with
  | none => exact b
  | some u => exact a u rfl
theorem TouchOO.some' {F : Nat} {s : State} {o : Option State} (a : TouchO F s o) : TouchOO F s (some o) := fun t h => a t (Option.some.inj h)
theorem TouchOO.none' (F : Nat) (s : State) : TouchOO F s none := fun _ h => nomatch h
theorem TouchOO.eq {F : Nat} {s t : State} {o : Option (Option State)} (a : TouchOO F s o) (h : o = some (some t)) : Touch F s t := a t h
theorem TouchOO.ite {F : Nat} {s : State} {t u : Option (Option State)} {p : Prop} [Decidable p] (a : TouchOO F s t) (b : TouchOO F s u) : TouchOO F s (if p then t else u) := by
  split <;> assumption
theorem TouchOO.step {G F : Nat} {s t : State} {o : Option (Option State)} (b : TouchOO G t o) (h : Within G F) (a : Touch F s t) : TouchOO F s o :=
  fun u hu => a.trans ((b u hu).mono h)
theorem TouchP.mk' {α : Type} {F : Nat} {s t : State} {x : α} (a : Touch F s t) : TouchP F s (x, t) := a
theorem TouchP.eq {α : Type} {F : Nat} {s t : State} {p : α × State} {x : α} (a : TouchP F s p) (h : p = (x, t)) : Touch F s t := by rw [h] at a; exact a
theorem TouchP.step {α : Type} {G F : Nat} {s t : State} {p : α × State} (b : TouchP G t p) (h : Within G F) (a : Touch F s t) : TouchP F s p :=
  a.trans (Touch.mono b h)
theorem TouchP.foldl {α β : Type} {F : Nat} {s : State} {u : β × State} {l : List α} {f : β × State → α → β × State} (a : TouchP F s u)
    (h : ∀ t x, TouchP F s t → TouchP F s (f t x)) : TouchP F s (l.foldl f u) := Touch.foldlSnd a h
theorem TouchP.ite {α : Type} {F : Nat} {s : State} {t u : α × State} {p : Prop} [Decidable p] (a : TouchP F s t) (b : TouchP F s u) :
    TouchP F s (if p then t else u) := by split <;> assumption
theorem TouchQ.mk' {α β : Type} {F : Nat} {s t : State} {x : α} {y : β} (a : Touch F s t) : TouchQ F s (x, y, t) := a
theorem TouchQ.eq {α β : Type} {F : Nat} {s t : State} {p : α × β × State} {x : α} {y : β} (a : TouchQ F s p) (h : p = (x, y, t)) : Touch F s t := by
  rw [h] at a; exact a
theorem TouchQ.ite {α β : Type} {F : Nat} {s : State} {t u : α × β × State} {p : Prop} [Decidable p] (a : TouchQ F s t) (b : TouchQ F s u) :
    TouchQ F s (if p then t else u) := by split <;> assumption
theorem TouchQ.step {α β : Type} {G F : Nat} {s t : State} {p : α × β × State} (b : TouchQ G t p) (h : Within G F) (a : Touch F s t) : TouchQ F s p :=
  a.trans (Touch.mono b h)
theorem TouchQ.foldl {α β δ : Type} {F : Nat} {s : State} {u : β × δ × State} {l : List α} {f : β × δ × State → α → β × δ × State} (a : TouchQ F s u)
    (h : ∀ t x, TouchQ F s t → TouchQ F s (f t x)) : TouchQ F s (l.foldl f u) := by
  induction l generalizing u with
  | nil => exact a
  | cons x l ih => exact ih (h u x a)
theorem TouchR.mk' {α β γ : Type} {F : Nat} {s t : State} {x : α} {y : β} {z : γ} (a : Touch F s t) : TouchR F s (x, y, z, t) := a
theorem TouchR.eq {α β γ : Type} {F : Nat} {s t : State} {p : α × β × γ × State} {x : α} {y : β} {z : γ} (a : TouchR F s p) (h : p = (x, y, z, t)) :
    Touch F s t := by rw [h] at a; exact a
theorem TouchR.ite {α β γ : Type} {F : Nat} {s : State} {t u : α × β × γ × State} {p : Prop} [Decidable p] (a : TouchR F s t)
    (b : TouchR F s u) : TouchR F s (if p then t else u) := by split <;> assumption
theorem TouchR.step {α β γ : Type} {G F : Nat} {s t : State} {p : α × β × γ × State} (b : TouchR G t p) (h : Within G F) (a : Touch F s t) :
    TouchR F s p := a.trans (Touch.mono b h)
theorem TouchR.foldl {α β γ δ : Type} {F : Nat} {s : State} {u : β × γ × δ × State} {l : List α} {f : β × γ × δ × State → α → β × γ × δ × State}
    (a : TouchR F s u) (h : ∀ t x, TouchR F s t → TouchR F s (f t x)) : TouchR F s (l.foldl f u) := by
  induction l generalizing u with
  | nil => exact a
  | cons x l ih => exact ih (h u x a)
theorem TouchOP.some' {α : Type} {F : Nat} {s t : State} {x : α} (a : Touch F s t) : TouchOP F s (some (x, t)) :=
  fun _ _ h => (Prod.mk.inj (Option.some.inj h)).2 ▸ a
theorem TouchOP.none' {α : Type} (F : Nat) (s : State) : TouchOP F s (none : Option (α × State)) := fun _ _ h => nomatch h
theorem TouchOP.someP {α : Type} {F : Nat} {s : State} {p : α × State} (a : TouchP F s p) : TouchOP F s (some p) :=
  fun _ _ h => by cases h; exact a
theorem TouchOP.eq {α : Type} {F : Nat} {s t : State} {o : Option (α × State)} {x : α} (a : TouchOP F s o) (h : o = some (x, t)) : Touch F s t := a x t h
theorem TouchOP.ite {α : Type} {F : Nat} {s : State} {t u : Option (α × State)} {p : Prop} [Decidable p] (a : TouchOP F s t) (b : TouchOP F s u) :
    TouchOP F s (if p then t else u) := by split <;> assumption
theorem TouchOP.step {α : Type} {G F : Nat} {s t : State} {o : Option (α × State)} (b : TouchOP G t o) (h : Within G F) (a : Touch F s t) :
    TouchOP F s o := fun x u hu => a.trans ((b x u hu).mono h)
theorem TouchOut.next {F : Nat} {s t : State} (a : Touch F s t) : TouchOut F s (.next t) := fun _ h => Host.Outcome.next.inj h ▸ a
theorem TouchOut.fault (F : Nat) (s : State) (e : Fault) : TouchOut F s (.fault e) := fun _ h => nomatch h
theorem TouchOut.refused (F : Nat) (s : State) (e : Refusal) : TouchOut F s (.refused e) := fun _ h => nomatch h
theorem TouchOut.ite {F : Nat} {s : State} {t u : Out} {p : Prop} [Decidable p] (a : TouchOut F s t) (b : TouchOut F s u) : TouchOut F s (if p then t else u) := by
  split <;> assumption
theorem TouchOut.step {G F : Nat} {s t : State} {o : Out} (b : TouchOut G t o) (h : Within G F) (a : Touch F s t) : TouchOut F s o :=
  fun u hu => a.trans ((b u hu).mono h)
theorem TouchOut.eq {F : Nat} {s t : State} {o : Out} (a : TouchOut F s o) (h : o = .next t) : Touch F s t := a t h

theorem touchAll {i : Nat} {p : Prop} (hi : i < 184) (h : Nat.testBit 24519928653854221733733552434404946937899825954937634815 i = false) : p := by
  rw [show (24519928653854221733733552434404946937899825954937634815 : Nat) = 2 ^ 184 - 1 from rfl, Nat.testBit_two_pow_sub_one] at h
  exact absurd (decide_eq_true hi) (by rw [h]; decide)

theorem touchReg {r : Reg} {p : Prop} (h : Nat.testBit 24519928653854221733733552434404946937899825954937634815 (32 + regNo r.name) = false) : p :=
  touchAll (Nat.add_lt_add_left (show regNo r.name < 152 by cases r.name <;> decide) 32) h

theorem regNo_lt (n : RegName) : regNo n < 152 := by cases n <;> decide

/-! The named operations. -/

theorem find_set_ne {r : Reg} {n : RegName} {i : Nat} {v : Nat} {t : Tab Reg Nat} (h : (regFoot n).testBit (32 + regNo r.name) = false) :
    Tab.find r (t.set ⟨n, i⟩ v) = Tab.find r t := by
  apply Tab.find_set_ne
  rintro rfl
  simp [regFoot] at h

theorem regFoot_within (n : RegName) : Within (regFoot n) regsFoot := by cases n <;> rfl

theorem setReg_touch (s : State) (n : RegName) (v i : Nat) : Touch (regFoot n) s (s.setReg n v i) :=
  ⟨rfl, id, List.suffix_rfl, le_refl _, fun _ => rfl, fun _ h => find_set_ne h, fun _ => rfl, fun _ => rfl, fun _ => rfl, fun _ => rfl, fun _ => rfl, fun _ => rfl, fun _ => rfl, fun _ => rfl, fun _ => rfl, fun _ => rfl, fun _ => rfl, fun _ => rfl, fun _ => rfl, fun _ => rfl, fun _ => rfl, fun _ => rfl, fun _ => rfl, fun _ => rfl, fun _ => rfl, fun _ => rfl, fun _ => rfl, fun _ => rfl, fun _ => rfl, fun _ => rfl, fun _ => rfl, fun _ => rfl, fun _ => rfl, fun _ => rfl⟩

theorem setFld_touch (s : State) (n : RegName) (hi lo v i : Nat) : Touch (regFoot n) s (s.setFld n hi lo v i) := setReg_touch s n _ i

theorem bump_touch (s : State) (n : RegName) (i k : Nat) : Touch (regFoot n) s (s.bump n i k) := setReg_touch s n _ i

theorem bumpFld_touch (s : State) (n : RegName) (hi lo i : Nat) : Touch (regFoot n) s (s.bumpFld n hi lo i) := setReg_touch s n _ i

theorem setEicBit_touch (s : State) (n : RegName) (cl src : Nat) (v : Bool) : Touch (regFoot n) s (s.setEicBit n cl src v) := setReg_touch s n _ _

theorem clearReg_touch (s : State) (n : RegName) (i : Nat) : Touch (regFoot n) s (s.clearReg n i) :=
  ⟨rfl, id, List.suffix_rfl, le_refl _, fun _ => rfl, fun r h => Tab.find_del_ne _ (by rintro rfl; simp [regFoot] at h), fun _ => rfl, fun _ => rfl, fun _ => rfl, fun _ => rfl, fun _ => rfl, fun _ => rfl, fun _ => rfl, fun _ => rfl, fun _ => rfl, fun _ => rfl, fun _ => rfl, fun _ => rfl, fun _ => rfl, fun _ => rfl, fun _ => rfl, fun _ => rfl, fun _ => rfl, fun _ => rfl, fun _ => rfl, fun _ => rfl, fun _ => rfl, fun _ => rfl, fun _ => rfl, fun _ => rfl, fun _ => rfl, fun _ => rfl, fun _ => rfl, fun _ => rfl⟩

theorem emit_touch (s : State) (e : Emit) : Touch 134217728 s (s.emit e) :=
  ⟨rfl, id, List.suffix_cons _ _, le_refl _, fun _ => rfl, fun _ _ => rfl, fun _ => rfl, fun _ => rfl, fun _ => rfl, fun _ => rfl, fun _ => rfl, fun _ => rfl, fun _ => rfl, fun _ => rfl, fun _ => rfl, fun _ => rfl, fun _ => rfl, fun _ => rfl, fun _ => rfl, fun _ => rfl, fun _ => rfl, fun _ => rfl, fun _ => rfl, fun _ => rfl, fun _ => rfl, fun _ => rfl, fun _ => rfl, fun _ => rfl, fun _ => rfl, fun _ => rfl, fun _ => rfl, fun _ => rfl, fun h => absurd h (by decide), fun _ => rfl⟩

theorem draw_touch (s : State) (w : Nat) : TouchP 268435456 s (s.draw w) :=
  ⟨rfl, id, List.suffix_rfl, Nat.le_succ _, fun _ => rfl, fun _ _ => rfl, fun _ => rfl, fun _ => rfl, fun _ => rfl, fun _ => rfl, fun _ => rfl, fun _ => rfl, fun _ => rfl, fun _ => rfl, fun _ => rfl, fun _ => rfl, fun _ => rfl, fun _ => rfl, fun _ => rfl, fun _ => rfl, fun _ => rfl, fun _ => rfl, fun _ => rfl, fun _ => rfl, fun _ => rfl, fun _ => rfl, fun _ => rfl, fun _ => rfl, fun _ => rfl, fun _ => rfl, fun _ => rfl, fun _ => rfl, fun _ => rfl, fun h => absurd h (by decide)⟩

theorem store_touch (s : State) (sp : Space) (a : Nat) (l : List Byte) : Touch 8 s (s.store sp a l) :=
  ⟨rfl, Memory.writeN_wf l s.mem _, List.suffix_rfl, le_refl _, fun _ => rfl, fun _ _ => rfl, fun _ => rfl, fun _ => rfl, fun h => absurd h (by decide), fun _ => rfl, fun _ => rfl, fun _ => rfl, fun _ => rfl, fun _ => rfl, fun _ => rfl, fun _ => rfl, fun _ => rfl, fun _ => rfl, fun _ => rfl, fun _ => rfl, fun _ => rfl, fun _ => rfl, fun _ => rfl, fun _ => rfl, fun _ => rfl, fun _ => rfl, fun _ => rfl, fun _ => rfl, fun _ => rfl, fun _ => rfl, fun _ => rfl, fun _ => rfl, fun _ => rfl, fun _ => rfl⟩

theorem zero_touch (s : State) (sp : Space) (a n : Nat) : Touch 8 s (s.zero sp a n) :=
  ⟨rfl, Memory.clear_wf s.mem _ n, List.suffix_rfl, le_refl _, fun _ => rfl, fun _ _ => rfl, fun _ => rfl, fun _ => rfl, fun h => absurd h (by decide), fun _ => rfl, fun _ => rfl, fun _ => rfl, fun _ => rfl, fun _ => rfl, fun _ => rfl, fun _ => rfl, fun _ => rfl, fun _ => rfl, fun _ => rfl, fun _ => rfl, fun _ => rfl, fun _ => rfl, fun _ => rfl, fun _ => rfl, fun _ => rfl, fun _ => rfl, fun _ => rfl, fun _ => rfl, fun _ => rfl, fun _ => rfl, fun _ => rfl, fun _ => rfl, fun _ => rfl, fun _ => rfl⟩

theorem copy_touch (s : State) (dst : Space) (d : Nat) (src : Space) (a n : Nat) : Touch 8 s (s.copy dst d src a n) :=
  ⟨rfl, Memory.copy_wf s.mem _ _ n, List.suffix_rfl, le_refl _, fun _ => rfl, fun _ _ => rfl, fun _ => rfl, fun _ => rfl, fun h => absurd h (by decide), fun _ => rfl, fun _ => rfl, fun _ => rfl, fun _ => rfl, fun _ => rfl, fun _ => rfl, fun _ => rfl, fun _ => rfl, fun _ => rfl, fun _ => rfl, fun _ => rfl, fun _ => rfl, fun _ => rfl, fun _ => rfl, fun _ => rfl, fun _ => rfl, fun _ => rfl, fun _ => rfl, fun _ => rfl, fun _ => rfl, fun _ => rfl, fun _ => rfl, fun _ => rfl, fun _ => rfl, fun _ => rfl⟩

theorem setCore_touch (s : State) (id : Nat) (c : Core) : Touch 16384 s (s.setCore id c) := Touch.upd rfl (Or.inr rfl)

theorem modPwr_touch {s : State} {f : Power → Power} (h : (f s.pwr).state = s.pwr.state) : Touch 1024 s (s.modPwr f) := Touch.upd rfl (Or.inr h)

theorem modPwr_touch_all (s : State) (f : Power → Power) : Touch (1024 + 2 ^ 30) s (s.modPwr f) := Touch.upd rfl (Or.inl (by decide))

/-- A free value drawn, in the form of a record update. -/
theorem fresh_touch (s : State) : Touch 268435456 s { s with fresh := s.fresh + 1 } := draw_touch s 0

end Sys2Proof.Machine
end

