-- ==== Sys2Proof/Laws/TouchBase.lean ====
section
/-! SUPPORT. What each function of the model may touch (Laws/Touch.lean): the shared services: registers, records, keep words, interrupts, mailboxes, messages, time and Caddy. One lemma for each function; the footprint is the union of what its body writes. -/

namespace Sys2Proof.Machine

open Sys2Proof

theorem whenOn_touch {s : State} {f : State → State} {F : Nat} (hF : Within 0 F) (hf : ∀ (y0 : State), Touch F y0 (f y0)) : TouchOut F s (whenOn s f) := by
  unfold whenOn
  refine TouchOut.next ?_
  refine Touch.ite ?_ ?_
  · refine Touch.step (hf ..) (Within.refl _) ?_
    exact Touch.refl _ _
  · exact Touch.refl _ _

theorem whenMain_touch {s : State} {f : State → State} {F : Nat} (hF : Within 0 F) (hf : ∀ (y0 : State), Touch F y0 (f y0)) : TouchOut F s (whenMain s f) := by
  unfold whenMain
  refine TouchOut.next ?_
  refine Touch.ite ?_ ?_
  · refine Touch.step (hf ..) (Within.refl _) ?_
    exact Touch.refl _ _
  · exact Touch.refl _ _

theorem ignored_touch {s : State} : Touch 17179869184 s (State.ignored s) := by
  unfold State.ignored
  refine Touch.step (bump_touch ..) rfl ?_
  exact Touch.refl _ _

theorem drbg_touch : ∀ {s : State} {w : Nat}, TouchP 174224571863520493293247799005065601089536 s (State.drbg s w) := by
  intro s w
  unfold State.drbg
  extract_lets ok n src t
  have h : Touch 174224571863520493293247799005065601089536 s t := Touch.step (Touch.upd (F := 8388608) (s := { s with fresh := s.fresh + 1 }) rfl (Or.inr rfl)) rfl
    ((fresh_touch s).mono rfl)
  refine TouchP.mk' ?_
  refine Touch.ite ?_ h
  exact Touch.step (setFld_touch ..) rfl h

theorem modCore_touch {s : State} {id : Nat} {f : Core → Core} : Touch 16384 s (State.modCore s id f) := by
  unfold State.modCore
  refine Touch.step (setCore_touch ..) rfl ?_
  exact Touch.refl _ _

theorem sieveStore_touch {die : Nat} {r : SieveRec} {s : State} : Touch 1502423683176168199913388008032338944206298654179392 s (sieveStore die r s) := by
  unfold sieveStore
  extract_lets -merge +onlyGivenNames x0
  clear_value x0
  extract_lets -merge +onlyGivenNames x1
  subst x1
  extract_lets -merge +onlyGivenNames x2
  subst x2
  extract_lets -merge +onlyGivenNames x3
  clear_value x3
  split
  · rename_i x4 x5 h6 h7
    extract_lets -merge +onlyGivenNames x8
    clear_value x8
    beta_reduce
    refine Touch.step (setFld_touch ..) rfl ?_
    refine Touch.step (t := s) (Touch.upd (F := 64) rfl (Or.inr rfl)) rfl ?_
    exact Touch.refl _ _
  · rename_i x9 x10 h11 h12
    extract_lets -merge +onlyGivenNames x13
    have h14 : Touch 1502423683176168199913388008032338944206298654179392 s x13 := by
      unfold x13
      beta_reduce
      refine Touch.step (setFld_touch ..) rfl ?_
      refine Touch.step (t := s) (Touch.upd (F := 64) rfl (Or.inr rfl)) rfl ?_
      exact Touch.refl _ _
    clear_value x13
    refine Touch.ite ?_ ?_
    · refine Touch.step (setFld_touch ..) rfl ?_
      exact h14
    · exact h14
  · rename_i x15 x16 h17
    refine Touch.ite ?_ ?_
    · extract_lets -merge +onlyGivenNames x18
      clear_value x18
      extract_lets -merge +onlyGivenNames x19
      clear_value x19
      refine Touch.ite ?_ ?_
      · refine Touch.step (t := s) (Touch.upd (F := 64) rfl (Or.inr rfl)) rfl ?_
        exact Touch.refl _ _
      · refine Touch.ite ?_ ?_
        · refine Touch.step (t := s) (Touch.upd (F := 64) rfl (Or.inr rfl)) rfl ?_
          exact Touch.refl _ _
        · refine Touch.step (bump_touch ..) rfl ?_
          exact Touch.refl _ _
    · refine Touch.ite ?_ ?_
      · beta_reduce
        refine Touch.step (setFld_touch ..) rfl ?_
        refine Touch.step (t := s) (Touch.upd (F := 64) rfl (Or.inr rfl)) rfl ?_
        exact Touch.refl _ _
      · refine Touch.ite ?_ ?_
        · beta_reduce
          refine Touch.step (setFld_touch ..) rfl ?_
          refine Touch.step (t := s) (Touch.upd (F := 64) rfl (Or.inr rfl)) rfl ?_
          exact Touch.refl _ _
        · refine Touch.step (bump_touch ..) rfl ?_
          exact Touch.refl _ _
  · rename_i x20 x21 h22 h23 h24
    exact Touch.refl _ _

theorem sieveTrigger_touch {die : Nat} {bit : Nat} {s : State} {orig : Nat} : Touch 5992156713056701964635107814136760380589323426209856 s (sieveTrigger die bit s orig) := by
  unfold sieveTrigger
  refine Touch.ite ?_ ?_
  · refine Touch.ite ?_ ?_
    · extract_lets -merge +onlyGivenNames x0
      clear_value x0
      extract_lets -merge +onlyGivenNames x1
      subst x1
      extract_lets -merge +onlyGivenNames x2
      have h3 : Touch 5992156713056701964635107814136760380589323426209856 s x2 := by
        unfold x2
        refine Touch.step (t := s) (Touch.upd (F := 64) rfl (Or.inr rfl)) rfl ?_
        exact Touch.refl _ _
      extract_lets -merge +onlyGivenNames x4
      have h5 : Touch 5992156713056701964635107814136760380589323426209856 s x4 := by
        unfold x4
        refine Touch.step (setFld_touch ..) rfl ?_
        exact h3
      refine Touch.ite ?_ ?_
      · refine Touch.step (t := x4) (Touch.upd (F := 8192) rfl (Or.inr rfl)) rfl ?_
        exact h5
      · exact h5
    · refine Touch.ite ?_ ?_
      · refine Touch.step (bump_touch ..) rfl ?_
        exact Touch.refl _ _
      · exact Touch.refl _ _
  · exact Touch.refl _ _

theorem sieveRecord_touch {die : Nat} {src : Nat} {p : SievePayload} {s : State} : Touch 7488734389683546552875681082838234192716998350217280 s (sieveRecord die src p s) := by
  unfold sieveRecord
  extract_lets -merge +onlyGivenNames x0
  clear_value x0
  refine Touch.ite ?_ ?_
  · extract_lets -merge +onlyGivenNames x1
    clear_value x1
    extract_lets -merge +onlyGivenNames x2
    clear_value x2
    extract_lets -merge +onlyGivenNames x3
    clear_value x3
    extract_lets -merge +onlyGivenNames x4
    clear_value x4
    extract_lets -merge +onlyGivenNames x5
    subst x5
    extract_lets -merge +onlyGivenNames x6
    clear_value x6
    extract_lets -merge +onlyGivenNames x7
    clear_value x7
    extract_lets -merge +onlyGivenNames x8
    have h9 : Touch 7488734389683546552875681082838234192716998350217280 s x8 := by
      unfold x8
      refine Touch.step (bump_touch ..) rfl ?_
      exact Touch.refl _ _
    clear_value x8
    extract_lets -merge +onlyGivenNames x10
    subst x10
    extract_lets -merge +onlyGivenNames x11
    have h12 : Touch 7488734389683546552875681082838234192716998350217280 s x11 := by
      unfold x11
      refine Touch.ite ?_ ?_
      · refine Touch.step (t := s) (Touch.upd (F := 64) rfl (Or.inr rfl)) rfl ?_
        exact Touch.refl _ _
      · refine Touch.step (t := x8) (Touch.upd (F := 64) rfl (Or.inr rfl)) rfl ?_
        exact h9
    clear_value x11
    extract_lets -merge +onlyGivenNames x13
    clear_value x13
    refine Touch.ite ?_ ?_
    · refine Touch.step (sieveTrigger_touch ..) rfl ?_
      exact h12
    · exact h12
  · exact Touch.refl _ _

theorem sieveDrainOne_touch {k : Nat} {s : State} : Touch 4495579036429857376394534545435286568461648502194240 s (sieveDrainOne k s) := by
  unfold sieveDrainOne
  split
  · rename_i x0 x1 x2 h3
    refine Touch.step (sieveStore_touch ..) rfl ?_
    refine Touch.step (t := s) (Touch.upd (F := 64) rfl (Or.inr rfl)) rfl ?_
    exact Touch.refl _ _
  · rename_i x4 h5
    split
    · rename_i x6 x7 h8
      extract_lets -merge +onlyGivenNames x9
      clear_value x9
      refine Touch.step (bump_touch ..) rfl ?_
      refine Touch.step (sieveStore_touch ..) rfl ?_
      refine Touch.step (t := s) (Touch.upd (F := 64) rfl (Or.inr rfl)) rfl ?_
      exact Touch.refl _ _
    · rename_i x10 h11
      exact Touch.refl _ _

theorem sieveDrain_touch {s : State} : Touch 4495579036429857376394534545435286568461648502194240 s (sieveDrain s) := by
  unfold sieveDrain
  refine Touch.foldl ?_ (fun x0 x1 h2 => ?_)
  · exact Touch.refl _ _
  · refine Touch.step (sieveDrainOne_touch ..) rfl ?_
    exact h2

theorem pmcAdd_touch {cl : Nat} {ev : Nat} {n : Nat} {s : State} {unit : Nat} : Touch 23945242826029513411849172299223580994042798784118848 s (pmcAdd cl ev n s unit) := by
  unfold pmcAdd
  refine Touch.foldl ?_ (fun x0 x1 h2 => ?_)
  · exact Touch.refl _ _
  · extract_lets -merge +onlyGivenNames x3
    clear_value x3
    refine Touch.ite ?_ ?_
    · extract_lets -merge +onlyGivenNames x4
      clear_value x4
      extract_lets -merge +onlyGivenNames x5
      subst x5
      extract_lets -merge +onlyGivenNames x6
      have h7 : Touch 23945242826029513411849172299223580994042798784118848 s x6 := by
        unfold x6
        refine Touch.ite ?_ ?_
        · exact h2
        · refine Touch.step (t := x0) (Touch.upd (F := 64) rfl (Or.inr rfl)) rfl ?_
          exact h2
      clear_value x6
      refine Touch.step (bump_touch ..) rfl ?_
      exact h7
    · exact h2

theorem strataSync_touch {s : State} : Touch 32 s (strataSync s) := by
  unfold strataSync
  split
  · rename_i x0 h1
    exact Touch.refl _ _
  · rename_i x2 x3 h4
    extract_lets -merge +onlyGivenNames x5
    clear_value x5
    split
    · rename_i x6 x7 h8
      refine Touch.ite ?_ ?_
      · refine Touch.step (t := s) (Touch.upd (F := 32) rfl (Or.inr rfl)) rfl ?_
        exact Touch.refl _ _
      · exact Touch.refl _ _
    · rename_i x9 h10
      exact Touch.refl _ _

theorem strataIntake_touch {r : StrataRec} {s : State} : Touch 32 s (strataIntake r s) := by
  unfold strataIntake
  extract_lets -merge +onlyGivenNames x0
  have h1 : Touch 32 s x0 := by
    unfold x0
    refine Touch.step (strataSync_touch ..) rfl ?_
    exact Touch.refl _ _
  clear_value x0
  extract_lets -merge +onlyGivenNames x2
  clear_value x2
  refine Touch.step (t := x0) (Touch.upd (F := 32) rfl (Or.inr rfl)) rfl ?_
  exact h1

theorem strataLoss_touch {s : State} : Touch 32 s (strataLoss s) := by
  unfold strataLoss
  refine Touch.ite ?_ ?_
  · exact Touch.refl _ _
  · extract_lets -merge +onlyGivenNames x0
    subst x0
    extract_lets -merge +onlyGivenNames x1
    have h2 : Touch 32 s x1 := by
      unfold x1
      refine Touch.step (t := s) (Touch.upd (F := 32) rfl (Or.inr rfl)) rfl ?_
      exact Touch.refl _ _
    clear_value x1
    refine Touch.ite ?_ ?_
    · exact h2
    · extract_lets -merge +onlyGivenNames x3
      clear_value x3
      extract_lets -merge +onlyGivenNames x4
      clear_value x4
      extract_lets -merge +onlyGivenNames x5
      subst x5
      extract_lets -merge +onlyGivenNames x6
      have h7 : Touch 32 s x6 := by
        unfold x6
        refine Touch.step (t := x1) (Touch.upd (F := 32) rfl (Or.inr rfl)) rfl ?_
        exact h2
      clear_value x6
      refine Touch.step (strataIntake_touch ..) rfl ?_
      exact h7

theorem logRec_touch {r : StrataRec} {s : State} : Touch 5992156713056701964635107814136760380589323426209888 s (logRec r s) := by
  unfold logRec
  extract_lets -merge +onlyGivenNames x0
  have h1 : Touch 5992156713056701964635107814136760380589323426209888 s x0 := by
    unfold x0
    refine Touch.step (strataLoss_touch ..) rfl ?_
    exact Touch.refl _ _
  extract_lets -merge +onlyGivenNames x2
  extract_lets -merge +onlyGivenNames x3
  subst x3
  extract_lets -merge +onlyGivenNames x4
  subst x4
  extract_lets -merge +onlyGivenNames x5
  have h6 : Touch 5992156713056701964635107814136760380589323426209888 s x5 := by
    unfold x5
    refine Touch.ite ?_ ?_
    · refine Touch.step (t := x0) (Touch.upd (F := 32) rfl (Or.inr rfl)) rfl ?_
      exact h1
    · refine Touch.ite ?_ ?_
      · refine Touch.step (strataIntake_touch ..) rfl ?_
        exact h1
      · refine Touch.step (t := x0) (Touch.upd (F := 32) rfl (Or.inr rfl)) rfl ?_
        exact h1
  clear_value x5
  refine Touch.ite ?_ ?_
  · refine Touch.step (sieveTrigger_touch ..) rfl ?_
    refine Touch.step (sieveTrigger_touch ..) rfl ?_
    refine Touch.step (sieveTrigger_touch ..) rfl ?_
    exact h6
  · exact h6

theorem log_touch {code : Status} {sev : Sev} {s : State} {a32 : Nat} {a0 : Nat} {a1 : Nat} {inst : Nat} {origin : Nat} : Touch 5992156713056701964635107814136760380589323426209888 s (log code sev s a32 a0 a1 inst origin) := by
  unfold log
  refine Touch.step (logRec_touch ..) rfl ?_
  exact Touch.refl _ _

theorem strataWrite_touch {s : State} : Touch 32 s (strataWrite s) := by
  unfold strataWrite
  split
  · rename_i x0 h1
    exact Touch.refl _ _
  · rename_i x2 x3 x4 h5
    extract_lets -merge +onlyGivenNames x6
    clear_value x6
    refine Touch.step (t := s) (Touch.upd (F := 32) rfl (Or.inr rfl)) rfl ?_
    exact Touch.refl _ _

theorem timeMark_touch {s : State} : Touch 5992156713056701964635107814136760380589323426209888 s (timeMark s) := by
  unfold timeMark
  extract_lets -merge +onlyGivenNames x0
  have h1 : Touch 5992156713056701964635107814136760380589323426209888 s x0 := by
    unfold x0
    refine Touch.step (strataLoss_touch ..) rfl ?_
    exact Touch.refl _ _
  extract_lets -merge +onlyGivenNames x2
  clear_value x2
  extract_lets -merge +onlyGivenNames x3
  refine Touch.ite ?_ ?_
  · refine Touch.step (strataSync_touch ..) rfl ?_
    refine Touch.step (t := x0) (Touch.upd (F := 32) rfl (Or.inr rfl)) rfl ?_
    exact h1
  · refine Touch.step (logRec_touch ..) rfl ?_
    exact h1

theorem bootRecord_touch {s : State} : Touch 5992156713056701964635107814136760380589323426209888 s (bootRecord s) := by
  unfold bootRecord
  extract_lets -merge +onlyGivenNames x0
  subst x0
  extract_lets -merge +onlyGivenNames x1
  have h2 : Touch 5992156713056701964635107814136760380589323426209888 s x1 := by
    unfold x1
    refine Touch.step (t := s) (Touch.upd (F := 32) rfl (Or.inr rfl)) rfl ?_
    exact Touch.refl _ _
  clear_value x1
  refine Touch.step (timeMark_touch ..) rfl ?_
  refine Touch.step (logRec_touch ..) rfl ?_
  exact h2

theorem keepAccept_touch {w : Nat} {v : Nat} {s : State} : Touch 18395938647103723002264799433617846963805458789629436016 s (keepAccept w v s) := by
  unfold keepAccept
  extract_lets -merge +onlyGivenNames x0
  clear_value x0
  refine Touch.ite ?_ ?_
  · exact Touch.refl _ _
  · extract_lets -merge +onlyGivenNames x1
    clear_value x1
    extract_lets -merge +onlyGivenNames x2
    have h3 : Touch 18395938647103723002264799433617846963805458789629436016 s x2 := by
      unfold x2
      refine Touch.step (t := s) (Touch.upd (F := 16) rfl (Or.inr rfl)) rfl ?_
      exact Touch.refl _ _
    clear_value x2
    refine Touch.ite ?_ ?_
    · refine Touch.step (bump_touch ..) rfl ?_
      refine Touch.step (log_touch ..) rfl ?_
      exact h3
    · refine Touch.ite ?_ ?_
      · refine Touch.step (bump_touch ..) rfl ?_
        refine Touch.step (log_touch ..) rfl ?_
        exact h3
      · exact h3

theorem keepWinResult_touch {f : Nat} {w : Nat} {st : Option Status} {s : State} : Touch 4597486622597666575075041081450927550856217366550806528 s (keepWinResult f w st s) := by
  unfold keepWinResult
  split
  · rename_i x0
    refine Touch.step (setFld_touch ..) rfl ?_
    exact Touch.refl _ _
  · rename_i x1 x2
    extract_lets -merge +onlyGivenNames x3
    have h4 : Touch 4597486622597666575075041081450927550856217366550806528 s x3 := by
      unfold x3
      refine Touch.step (setFld_touch ..) rfl ?_
      exact Touch.refl _ _
    clear_value x3
    refine Touch.step (setReg_touch ..) rfl ?_
    refine Touch.step (bumpFld_touch ..) rfl ?_
    exact h4

theorem keepWrite_touch {a : Agent} {w : Nat} {v : Nat} {s : State} : Touch 22993425269701389577339840515068774514661676173360111728 s (keepWrite a w v s) := by
  unfold keepWrite
  extract_lets -merge +onlyGivenNames x0
  clear_value x0
  extract_lets -merge +onlyGivenNames x1
  have h2 : Touch 22993425269701389577339840515068774514661676173360111728 s x1 := by
    unfold x1
    split
    · rename_i x3
      refine Touch.step (keepAccept_touch ..) rfl ?_
      exact Touch.refl _ _
    · rename_i x4 x5
      refine Touch.ite ?_ ?_
      · refine Touch.step (ignored_touch ..) rfl ?_
        exact Touch.refl _ _
      · exact Touch.refl _ _
  clear_value x1
  split
  · rename_i x6
    refine Touch.step (keepWinResult_touch ..) rfl ?_
    exact h2
  · rename_i x7
    refine Touch.step (keepWinResult_touch ..) rfl ?_
    exact h2
  · rename_i x8 h9 h10
    exact h2

theorem setKw_touch {s : State} {w : Nat} {v : Nat} : Touch 18395938647103723002264799433617846963805458789629436016 s (State.setKw s w v) := by
  unfold State.setKw
  refine Touch.ite ?_ ?_
  · exact Touch.refl _ _
  · refine Touch.step (keepAccept_touch ..) rfl ?_
    exact Touch.refl _ _

theorem keepPersist_touch {w : Nat} {s : State} : Touch 16 s (keepPersist w s) := by
  unfold keepPersist
  extract_lets -merge +onlyGivenNames x0
  clear_value x0
  refine Touch.ite ?_ ?_
  · refine Touch.step (t := s) (Touch.upd (F := 16) rfl (Or.inr rfl)) rfl ?_
    exact Touch.refl _ _
  · exact Touch.refl _ _

theorem eicEvent_touch {cl : Nat} {src : Nat} {s : State} : Touch 2854495385411919762116571938898990272765493760 s (eicEvent cl src s) := by
  unfold eicEvent
  extract_lets -merge +onlyGivenNames x0
  have h1 : Touch 2854495385411919762116571938898990272765493760 s x0 := by
    unfold x0
    refine Touch.step (setEicBit_touch ..) rfl ?_
    exact Touch.refl _ _
  clear_value x0
  extract_lets -merge +onlyGivenNames x2
  clear_value x2
  split
  · rename_i x3 x4 x5 x6 h7
    refine Touch.step (t := x0) (Touch.upd (F := 512) rfl (Or.inr rfl)) rfl ?_
    exact h1
  · rename_i x8 h9
    exact h1

theorem eicComplete_touch {cl : Nat} {src : Nat} {s : State} : Touch 17126972312471518572699431633393941636592959488 s (eicComplete cl src s) := by
  unfold eicComplete
  refine Touch.ite ?_ ?_
  · refine Touch.step (setEicBit_touch ..) rfl ?_
    exact Touch.refl _ _
  · refine Touch.step (bump_touch ..) rfl ?_
    exact Touch.refl _ _

theorem eicRelease_touch {cl : Nat} {c : Nat} {s : State} : Touch 5708990770823839524233143877797980545530986496 s (eicRelease cl c s) := by
  unfold eicRelease
  refine Touch.foldl ?_ (fun x0 x1 h2 => ?_)
  · exact Touch.refl _ _
  · refine Touch.ite ?_ ?_
    · refine Touch.step (setEicBit_touch ..) rfl ?_
      exact h2
    · exact h2

theorem eicReset_touch {cl : Nat} {s : State} : Touch 24519928653854221733733552434404946937899825950642668032 s (eicReset cl s) := by
  unfold eicReset
  refine Touch.step (t := s) (Touch.upd (F := 24519928653854221733733552434404946937899825950642668032) rfl (Or.inr rfl)) rfl ?_
  exact Touch.refl _ _

theorem irqSend_touch {o : Caller} {i : Nat} {s : State} : Touch 134218240 s (irqSend o i s) := by
  unfold irqSend
  extract_lets -merge +onlyGivenNames x0
  clear_value x0
  refine Touch.ite ?_ ?_
  · refine Touch.step (t := s) (Touch.upd (F := 512) rfl (Or.inr rfl)) rfl ?_
    exact Touch.refl _ _
  · refine Touch.step (emit_touch ..) rfl ?_
    refine Touch.step (t := s) (Touch.upd (F := 512) rfl (Or.inr rfl)) rfl ?_
    exact Touch.refl _ _

theorem irqEvent_touch {o : Caller} {i : Nat} {s : State} : Touch 134218240 s (irqEvent o i s) := by
  unfold irqEvent
  extract_lets -merge +onlyGivenNames x0
  clear_value x0
  extract_lets -merge +onlyGivenNames x1
  clear_value x1
  refine Touch.ite ?_ ?_
  · extract_lets -merge +onlyGivenNames x2
    clear_value x2
    extract_lets -merge +onlyGivenNames x3
    subst x3
    extract_lets -merge +onlyGivenNames x4
    have h5 : Touch 134218240 s x4 := by
      unfold x4
      refine Touch.step (t := s) (Touch.upd (F := 512) rfl (Or.inr rfl)) rfl ?_
      exact Touch.refl _ _
    clear_value x4
    refine Touch.ite ?_ ?_
    · refine Touch.step (irqSend_touch ..) rfl ?_
      exact h5
    · refine Touch.ite ?_ ?_
      · refine Touch.step (t := x4) (Touch.upd (F := 512) rfl (Or.inr rfl)) rfl ?_
        exact h5
      · exact h5
  · exact Touch.refl _ _

theorem irqSource_touch {src : IrqSource} {s : State} : Touch 134218240 s (irqSource src s) := by
  unfold irqSource
  refine Touch.foldl ?_ (fun x0 x1 h2 => ?_)
  · exact Touch.refl _ _
  · refine Touch.ite ?_ ?_
    · refine Touch.step (irqEvent_touch ..) rfl ?_
      exact h2
    · exact h2

theorem setMailbox_touch {s : State} {c : Caller} {m : Mailbox} : Touch 128 s (State.setMailbox s c m) := by
  unfold State.setMailbox
  refine Touch.step (t := s) (Touch.upd (F := 128) rfl (Or.inr rfl)) rfl ?_
  exact Touch.refl _ _

theorem mbxInterrupt_touch {c : Caller} {s : State} : Touch 134218240 s (mbxInterrupt c s) := by
  unfold mbxInterrupt
  split
  · rename_i x0 x1
    refine Touch.foldl ?_ (fun x2 x3 h4 => ?_)
    · exact Touch.refl _ _
    · refine Touch.ite ?_ ?_
      · refine Touch.step (irqEvent_touch ..) rfl ?_
        exact h4
      · exact h4
  · rename_i x5 h6
    refine Touch.step (irqEvent_touch ..) rfl ?_
    exact Touch.refl _ _

theorem mbxEvent_touch {c : Caller} {code : Nat} {arg : Nat} {s : State} : Touch 134218368 s (mbxEvent c code arg s) := by
  unfold mbxEvent
  extract_lets -merge +onlyGivenNames x0
  clear_value x0
  split
  · rename_i x1 x2 x3 h4
    refine Touch.ite ?_ ?_
    · refine Touch.ite ?_ ?_
      · extract_lets -merge +onlyGivenNames x5
        have h6 : Touch 134218368 s x5 := by
          unfold x5
          refine Touch.step (setMailbox_touch ..) rfl ?_
          exact Touch.refl _ _
        clear_value x5
        refine Touch.ite ?_ ?_
        · refine Touch.step (mbxInterrupt_touch ..) rfl ?_
          exact h6
        · exact h6
      · refine Touch.step (setMailbox_touch ..) rfl ?_
        exact Touch.refl _ _
    · exact Touch.refl _ _
  · rename_i x7 h8
    exact Touch.refl _ _

theorem mbxReply_touch {c : Caller} {r : Reply} {s : State} : Touch 134218368 s (mbxReply c r s) := by
  unfold mbxReply
  extract_lets -merge +onlyGivenNames x0
  clear_value x0
  split
  · rename_i x1 x2 x3 h4
    extract_lets -merge +onlyGivenNames x5
    clear_value x5
    refine Touch.ite ?_ ?_
    · exact Touch.refl _ _
    · extract_lets -merge +onlyGivenNames x6
      have h7 : Touch 134218368 s x6 := by
        unfold x6
        refine Touch.step (setMailbox_touch ..) rfl ?_
        exact Touch.refl _ _
      clear_value x6
      refine Touch.ite ?_ ?_
      · refine Touch.step (mbxInterrupt_touch ..) rfl ?_
        exact h7
      · exact h7

theorem mbxDoorbell_touch {c : Caller} {v : Word} {f : Frame} {s : State} : Touch 128 s (mbxDoorbell c v f s) := by
  unfold mbxDoorbell
  extract_lets -merge +onlyGivenNames x0
  clear_value x0
  refine Touch.ite ?_ ?_
  · exact Touch.refl _ _
  · refine Touch.ite ?_ ?_
    · refine Touch.step (setMailbox_touch ..) rfl ?_
      exact Touch.refl _ _
    · refine Touch.step (setMailbox_touch ..) rfl ?_
      exact Touch.refl _ _

theorem mbxTakeHeld_touch {c : Caller} {s : State} : Touch 128 s (mbxTakeHeld c s) := by
  unfold mbxTakeHeld
  extract_lets -merge +onlyGivenNames x0
  clear_value x0
  refine Touch.ite ?_ ?_
  · refine Touch.step (setMailbox_touch ..) rfl ?_
    exact Touch.refl _ _
  · exact Touch.refl _ _

theorem mbxServe_touch {c : Caller} {op : Nat} {s : State} {body : Frame → State → Option Reply × State} {F : Nat} (hF : Within 134218368 F) (hbody : ∀ (y0 : Frame) (y1 : State), TouchP F y1 (body y0 y1)) : Touch F s (mbxServe c op s body) := by
  unfold mbxServe
  split
  · rename_i x0 h1
    exact Touch.refl _ _
  · rename_i x2 x3 h4
    split
    · rename_i x5 x6 h7
      refine Touch.step (mbxReply_touch ..) (.trans rfl hF) ?_
      exact Touch.refl _ _
    · rename_i x8 h9
      split
      · rename_i x10 h11
        refine Touch.step (mbxReply_touch ..) (.trans rfl hF) ?_
        exact Touch.refl _ _
      · rename_i x12 h13
        split
        · rename_i x14 x15 x16 h17
          have h18 : Touch F s x16 := by
            refine TouchP.eq ?_ h17
            refine TouchP.step (hbody ..) (Within.refl _) ?_
            exact Touch.refl _ _
          refine Touch.step (mbxReply_touch ..) (.trans rfl hF) ?_
          exact h18
        · rename_i x19 x20 h21
          have h22 : Touch F s x20 := by
            refine TouchP.eq ?_ h21
            refine TouchP.step (hbody ..) (Within.refl _) ?_
            exact Touch.refl _ _
          refine Touch.step (setMailbox_touch ..) (.trans rfl hF) ?_
          exact h22
      · rename_i x23 h24 h25
        exact Touch.refl _ _

theorem refuse_touch {st : Status} {s : State} {field : Nat} : TouchP 0 s (refuse st s field) := by
  unfold refuse
  refine TouchP.mk' ?_
  exact Touch.refl _ _

theorem refuseAt_touch {op : Nat} {i : Nat} {st : Status} {s : State} : TouchP 0 s (refuseAt op i st s) := by
  unfold refuseAt
  refine TouchP.step (refuse_touch ..) rfl ?_
  exact Touch.refl _ _

theorem accept_touch {s : State} {results : List Nat} : TouchP 0 s (accept s results) := by
  unfold accept
  refine TouchP.mk' ?_
  exact Touch.refl _ _

theorem negotiateReq_touch {c : Caller} {major : Byte} {minor : Byte} {features : BitVec 256} {s : State} : TouchP 128 s (negotiateReq c major minor features s) := by
  unfold negotiateReq
  extract_lets -merge +onlyGivenNames x0
  clear_value x0
  refine TouchP.ite ?_ ?_
  · refine TouchP.mk' ?_
    exact Touch.refl _ _
  · extract_lets -merge +onlyGivenNames x1
    clear_value x1
    refine TouchP.step (accept_touch ..) rfl ?_
    refine Touch.step (setMailbox_touch ..) rfl ?_
    exact Touch.refl _ _

theorem mbxEvtPop_touch {c : Caller} {s : State} : Touch 128 s (mbxEvtPop c s) := by
  unfold mbxEvtPop
  refine Touch.step (setMailbox_touch ..) rfl ?_
  exact Touch.refl _ _

theorem mbxForget_touch {c : Caller} {s : State} : Touch 128 s (mbxForget c s) := by
  unfold mbxForget
  refine Touch.step (setMailbox_touch ..) rfl ?_
  exact Touch.refl _ _

theorem setDom_touch {s : State} {d : Nat} {D : Domain} : Touch 131072 s (State.setDom s d D) := by
  unfold State.setDom
  refine Touch.step (t := s) (Touch.upd (F := 131072) rfl (Or.inr rfl)) rfl ?_
  exact Touch.refl _ _

theorem modDom_touch {s : State} {d : Nat} {f : Domain → Domain} : Touch 131072 s (State.modDom s d f) := by
  unfold State.modDom
  split
  · rename_i x0 x1 h2
    refine Touch.step (setDom_touch ..) rfl ?_
    exact Touch.refl _ _
  · rename_i x3 h4
    exact Touch.refl _ _

theorem setGrain_touch {s : State} {d : Nat} {k : Nat} {g : Grain} : Touch 131072 s (State.setGrain s d k g) := by
  unfold State.setGrain
  refine Touch.step (modDom_touch ..) rfl ?_
  exact Touch.refl _ _

theorem grainWrite_touch {d : Nat} {k : Nat} {s : State} : TouchO 258254417031933853704 s (grainWrite d k s) := by
  unfold grainWrite
  split
  · rename_i x0 h1
    refine TouchO.some' ?_
    exact Touch.refl _ _
  · rename_i x2 x3 h4
    extract_lets -merge +onlyGivenNames x5
    clear_value x5
    extract_lets -merge +onlyGivenNames x6
    clear_value x6
    split
    · rename_i x7 h8
      refine TouchO.some' ?_
      refine Touch.step (setGrain_touch ..) rfl ?_
      exact Touch.refl _ _
    · rename_i x9 h10
      refine TouchO.some' ?_
      refine Touch.step (setGrain_touch ..) rfl ?_
      exact Touch.refl _ _
    · rename_i x11 h12
      refine TouchO.some' ?_
      refine Touch.step (setGrain_touch ..) rfl ?_
      exact Touch.refl _ _
    · rename_i x13 h14
      split
      · rename_i x15 h16
        exact TouchO.none' _ _
      · rename_i x17 x18 h19
        extract_lets -merge +onlyGivenNames x20
        have h21 : Touch 258254417031933853704 s x20 := by
          unfold x20
          refine Touch.step (copy_touch ..) rfl ?_
          exact Touch.refl _ _
        clear_value x20
        extract_lets -merge +onlyGivenNames x22
        have h23 : Touch 258254417031933853704 s x22 := by
          unfold x22
          refine Touch.step (setGrain_touch ..) rfl ?_
          exact h21
        clear_value x22
        extract_lets -merge +onlyGivenNames x24
        have h25 : Touch 258254417031933853704 s x24 := by
          unfold x24
          refine Touch.step (modDom_touch ..) rfl ?_
          exact h23
        clear_value x24
        extract_lets -merge +onlyGivenNames x26
        clear_value x26
        extract_lets -merge +onlyGivenNames x27
        have h28 : Touch 258254417031933853704 s x27 := by
          unfold x27
          refine Touch.step (setReg_touch ..) rfl ?_
          exact h25
        clear_value x27
        extract_lets -merge +onlyGivenNames x29
        have h30 : Touch 258254417031933853704 s x29 := by
          unfold x29
          refine Touch.step (setReg_touch ..) rfl ?_
          exact h28
        clear_value x29
        refine TouchO.some' ?_
        refine Touch.step (bump_touch ..) rfl ?_
        exact h30

theorem endReservations_touch {a : Nat} {len : Nat} {s : State} : Touch 16384 s (endReservations a len s) := by
  unfold endReservations
  refine Touch.step (t := s) (Touch.upd (F := 16384) rfl (Or.inr rfl)) rfl ?_
  exact Touch.refl _ _

theorem rawStore_touch {a : Nat} {l : List Byte} {s : State} : Touch 49160 s (rawStore a l s) := by
  unfold rawStore
  extract_lets -merge +onlyGivenNames x0
  have h1 : Touch 49160 s x0 := by
    unfold x0
    refine Touch.step (endReservations_touch ..) rfl ?_
    exact Touch.refl _ _
  clear_value x0
  extract_lets -merge +onlyGivenNames x2
  subst x2
  extract_lets -merge +onlyGivenNames x3
  have h4 : Touch 49160 s x3 := by
    unfold x3
    refine Touch.step (t := x0) (Touch.upd (F := 32768) rfl (Or.inr rfl)) rfl ?_
    exact h1
  clear_value x3
  extract_lets -merge +onlyGivenNames x5
  clear_value x5
  refine Touch.step (store_touch ..) rfl ?_
  exact h4

theorem storeIn_touch {who : Agent} {a : Nat} {l : List Byte} {s : State} : Touch 553402322211420946440 s (storeIn who a l s) := by
  unfold storeIn
  split
  · rename_i x0 h1
    exact Touch.refl _ _
  · rename_i x2 x3 x4 h5
    refine Touch.step (emit_touch ..) rfl ?_
    exact Touch.refl _ _
  · rename_i x6 x7 h8
    split
    · rename_i x9 h10
      refine Touch.step (rawStore_touch ..) rfl ?_
      exact Touch.refl _ _
    · rename_i x11 x12 x13 h14
      split
      · rename_i x15 h16
        refine Touch.step (rawStore_touch ..) rfl ?_
        exact Touch.refl _ _
      · rename_i x17 x18 h19
        refine Touch.ite ?_ ?_
        · exact Touch.refl _ _
        · extract_lets -merge +onlyGivenNames x20
          subst x20
          refine Touch.ite ?_ ?_
          · beta_reduce
            refine Touch.step (modDom_touch ..) rfl ?_
            exact Touch.refl _ _
          · split
            · rename_i x21 x22 h23
              have h24 : Touch 553402322211420946440 s x22 := by
                refine TouchO.eq ?_ h23
                refine TouchO.step (grainWrite_touch) rfl ?_
                exact Touch.refl _ _
              refine Touch.step (rawStore_touch ..) rfl ?_
              exact h24
            · rename_i x25 h26
              refine Touch.step (bump_touch ..) rfl ?_
              beta_reduce
              refine Touch.step (modDom_touch ..) rfl ?_
              exact Touch.refl _ _
  · rename_i x27 h28 h29 h30
    refine Touch.step (rawStore_touch ..) rfl ?_
    exact Touch.refl _ _

theorem storeBlocks_touch {who : Agent} {a : Nat} {a2 : Nat} {a3 : List Byte} {s : State} : Touch 553402322211420946440 s (storeBlocks who a a2 a3 s) := by
  induction a generalizing a2 a3 s
  · rw [storeBlocks]
    exact Touch.refl _ _
  · rename_i w0 ih
    rw [storeBlocks]
    refine Touch.ite ?_ ?_
    · exact Touch.refl _ _
    · extract_lets -merge +onlyGivenNames x0
      clear_value x0
      refine Touch.step (ih ..) (Within.refl _) ?_
      refine Touch.step (storeIn_touch ..) rfl ?_
      exact Touch.refl _ _

theorem memStore_touch {who : Agent} {a : Nat} {l : List Byte} {s : State} : Touch 553402322211420946440 s (memStore who a l s) := by
  unfold memStore
  refine Touch.step (storeBlocks_touch ..) rfl ?_
  exact Touch.refl _ _

theorem zeroRange_touch {a : Nat} {len : Nat} {s : State} : Touch 49160 s (zeroRange a len s) := by
  unfold zeroRange
  extract_lets -merge +onlyGivenNames x0
  have h1 : Touch 49160 s x0 := by
    unfold x0
    refine Touch.step (endReservations_touch ..) rfl ?_
    exact Touch.refl _ _
  clear_value x0
  extract_lets -merge +onlyGivenNames x2
  have h3 : Touch 49160 s x2 := by
    unfold x2
    refine Touch.step (zero_touch ..) rfl ?_
    exact h1
  clear_value x2
  refine Touch.step (t := x2) (Touch.upd (F := 32768) rfl (Or.inr rfl)) rfl ?_
  exact h3

theorem endStalls_touch {d : Nat} {k : Nat} {s : State} : Touch 1143698132570126598152 s (endStalls d k s) := by
  unfold endStalls
  split
  · rename_i x0 h1
    exact Touch.refl _ _
  · rename_i x2 x3 h4
    extract_lets -merge +onlyGivenNames x5
    clear_value x5
    extract_lets -merge +onlyGivenNames x6
    clear_value x6
    extract_lets -merge +onlyGivenNames x7
    have h8 : Touch 1143698132570126598152 s x7 := by
      unfold x7
      refine Touch.step (setDom_touch ..) rfl ?_
      exact Touch.refl _ _
    clear_value x7
    refine Touch.foldl ?_ (fun x9 x10 h11 => ?_)
    · refine Touch.step (bump_touch ..) rfl ?_
      exact h8
    · refine Touch.step (storeIn_touch ..) rfl ?_
      exact h11

theorem nsPut_touch {ns : Nat} {off : Nat} {l : List Byte} {s : State} : Touch 49160 s (nsPut ns off l s) := by
  unfold nsPut
  split
  · rename_i x0 x1 h2
    refine Touch.ite ?_ ?_
    · refine Touch.step (rawStore_touch ..) rfl ?_
      exact Touch.refl _ _
    · refine Touch.step (store_touch ..) rfl ?_
      refine Touch.step (store_touch ..) rfl ?_
      exact Touch.refl _ _
  · rename_i x3 h4
    refine Touch.step (store_touch ..) rfl ?_
    exact Touch.refl _ _

theorem sendMsg_touch {dest : Nat} {m : Msg} {s : State} : Touch 134479872 s (sendMsg dest m s) := by
  unfold sendMsg
  extract_lets -merge +onlyGivenNames x0
  clear_value x0
  extract_lets -merge +onlyGivenNames x1
  clear_value x1
  extract_lets -merge +onlyGivenNames x2
  subst x2
  extract_lets -merge +onlyGivenNames x3
  have h4 : Touch 134479872 s x3 := by
    unfold x3
    refine Touch.step (t := s) (Touch.upd (F := 262144) rfl (Or.inr rfl)) rfl ?_
    exact Touch.refl _ _
  clear_value x3
  refine Touch.step (emit_touch ..) rfl ?_
  exact h4

theorem sendDown_touch {m : Msg} {s : State} : Touch 134479872 s (sendDown m s) := by
  unfold sendDown
  extract_lets -merge +onlyGivenNames x0
  clear_value x0
  extract_lets -merge +onlyGivenNames x1
  clear_value x1
  extract_lets -merge +onlyGivenNames x2
  clear_value x2
  refine Touch.foldl ?_ (fun x3 x4 h5 => ?_)
  · exact Touch.refl _ _
  · refine Touch.step (sendMsg_touch ..) rfl ?_
    exact h5

theorem sendCoord_touch {D : Domain} {m : Msg} {both : Bool} {s : State} : Touch 134479872 s (sendCoord D m both s) := by
  unfold sendCoord
  refine Touch.ite ?_ ?_
  · refine Touch.ite ?_ ?_
    · exact Touch.refl _ _
    · refine Touch.step (sendMsg_touch ..) rfl ?_
      exact Touch.refl _ _
  · refine Touch.ite ?_ ?_
    · refine Touch.step (sendMsg_touch ..) rfl ?_
      exact Touch.refl _ _
    · refine Touch.ite ?_ ?_
      · refine Touch.step (sendMsg_touch ..) rfl ?_
        exact Touch.refl _ _
      · exact Touch.refl _ _

theorem moveHop_touch {i : Nat} {q : Nat} {s : State} : Touch 262144 s (moveHop i q s) := by
  unfold moveHop
  extract_lets -merge +onlyGivenNames x0
  clear_value x0
  refine Touch.step (t := s) (Touch.upd (F := 262144) rfl (Or.inr rfl)) rfl ?_
  exact Touch.refl _ _

theorem moveBack_touch {i : Nat} {q : Nat} {s : State} : Touch 262144 s (moveBack i q s) := by
  unfold moveBack
  extract_lets -merge +onlyGivenNames x0
  clear_value x0
  refine Touch.step (t := s) (Touch.upd (F := 262144) rfl (Or.inr rfl)) rfl ?_
  exact Touch.refl _ _

theorem discard_touch {s : State} : Touch 262144 s (discard s) := by
  unfold discard
  refine Touch.step (t := s) (Touch.upd (F := 262144) rfl (Or.inr rfl)) rfl ?_
  exact Touch.refl _ _

theorem receive_touch {m : Msg} {s : State} {f : Domain → State → State} {F : Nat} (hF : Within 262144 F) (hf : ∀ (y0 : Domain) (y1 : State), Touch F y1 (f y0 y1)) : Touch F s (receive m s f) := by
  unfold receive
  extract_lets -merge +onlyGivenNames x0
  clear_value x0
  split
  · rename_i x1 h2
    refine Touch.step (discard_touch ..) (.trans rfl hF) ?_
    exact Touch.refl _ _
  · rename_i x3 x4 h5
    extract_lets -merge +onlyGivenNames x6
    clear_value x6
    refine Touch.ite ?_ ?_
    · exact Touch.refl _ _
    · refine Touch.ite ?_ ?_
      · refine Touch.step (discard_touch ..) (.trans rfl hF) ?_
        exact Touch.refl _ _
      · refine Touch.ite ?_ ?_
        · refine Touch.step (discard_touch ..) (.trans rfl hF) ?_
          exact Touch.refl _ _
        · refine Touch.ite ?_ ?_
          · refine Touch.step (discard_touch ..) (.trans rfl hF) ?_
            exact Touch.refl _ _
          · refine Touch.step (hf ..) (Within.refl _) ?_
            refine Touch.step (t := s) (Touch.upd (F := 262144) rfl (Or.inr rfl)) (.trans rfl hF) ?_
            exact Touch.refl _ _

theorem relayUp_touch {m : Msg} {s : State} : Touch 134479872 s (relayUp m s) := by
  unfold relayUp
  refine Touch.ite ?_ ?_
  · exact Touch.refl _ _
  · refine Touch.step (sendMsg_touch ..) rfl ?_
    exact Touch.refl _ _

theorem modFt_touch {s : State} {f : FabricTime → FabricTime} : Touch 2048 s (State.modFt s f) := by
  unfold State.modFt
  refine Touch.step (t := s) (Touch.upd (F := 2048) rfl (Or.inr rfl)) rfl ?_
  exact Touch.refl _ _

theorem setArmed_touch {s : State} {k : Nat} {a : Armed} : Touch 4096 s (State.setArmed s k a) := by
  unfold State.setArmed
  refine Touch.step (t := s) (Touch.upd (F := 4096) rfl (Or.inr rfl)) rfl ?_
  exact Touch.refl _ _

theorem cmpPassed_touch {k : Nat} {a : Armed} {now : Nat} {s : State} : Touch 549755817984 s (cmpPassed k a now s) := by
  unfold cmpPassed
  refine Touch.ite ?_ ?_
  · extract_lets -merge +onlyGivenNames x0
    clear_value x0
    extract_lets -merge +onlyGivenNames x1
    have h2 : Touch 549755817984 s x1 := by
      unfold x1
      refine Touch.step (setFld_touch ..) rfl ?_
      exact Touch.refl _ _
    clear_value x1
    refine Touch.step (setArmed_touch ..) rfl ?_
    exact h2
  · refine Touch.step (setArmed_touch ..) rfl ?_
    exact Touch.refl _ _

theorem cmpTimePassed_touch {s : State} : Touch 549755817984 s (cmpTimePassed s) := by
  unfold cmpTimePassed
  refine Touch.foldl ?_ (fun x0 x1 h2 => ?_)
  · exact Touch.refl _ _
  · refine Touch.ite ?_ ?_
    · refine Touch.step (cmpPassed_touch ..) rfl ?_
      exact h2
    · exact h2

theorem ftCorrect_touch {delta : ℤ} {s : State} : Touch 5992156713056701964635107814136760380589873182029920 s (ftCorrect delta s) := by
  unfold ftCorrect
  refine Touch.ite ?_ ?_
  · extract_lets -merge +onlyGivenNames x0
    have h1 : Touch 5992156713056701964635107814136760380589873182029920 s x0 := by
      unfold x0
      refine Touch.step (modFt_touch ..) rfl ?_
      exact Touch.refl _ _
    clear_value x0
    refine Touch.step (cmpTimePassed_touch ..) rfl ?_
    refine Touch.step (log_touch ..) rfl ?_
    exact h1
  · refine Touch.step (modFt_touch ..) rfl ?_
    exact Touch.refl _ _

theorem ftLock_touch {s : State} : Touch 5992156713056701964635107814136760380589873316248160 s (ftLock s) := by
  unfold ftLock
  extract_lets -merge +onlyGivenNames x0
  clear_value x0
  extract_lets -merge +onlyGivenNames x1
  have h2 : Touch 5992156713056701964635107814136760380589873316248160 s x1 := by
    unfold x1
    refine Touch.step (modFt_touch ..) rfl ?_
    exact Touch.refl _ _
  clear_value x1
  extract_lets -merge +onlyGivenNames x3
  have h4 : Touch 5992156713056701964635107814136760380589873316248160 s x3 := by
    unfold x3
    refine Touch.ite ?_ ?_
    · refine Touch.step (modFt_touch ..) rfl ?_
      exact Touch.refl _ _
    · refine Touch.step (cmpTimePassed_touch ..) rfl ?_
      exact h2
  clear_value x3
  extract_lets -merge +onlyGivenNames x5
  have h6 : Touch 5992156713056701964635107814136760380589873316248160 s x5 := by
    unfold x5
    refine Touch.step (modFt_touch ..) rfl ?_
    exact h4
  clear_value x5
  refine Touch.step (irqSource_touch ..) rfl ?_
  refine Touch.step (log_touch ..) rfl ?_
  exact h6

theorem ftHoldover_touch {s : State} : Touch 5992156713056701964635107814136760380589323560430176 s (ftHoldover s) := by
  unfold ftHoldover
  extract_lets -merge +onlyGivenNames x0
  have h1 : Touch 5992156713056701964635107814136760380589323560430176 s x0 := by
    unfold x0
    refine Touch.step (modFt_touch ..) rfl ?_
    exact Touch.refl _ _
  clear_value x0
  refine Touch.step (irqSource_touch ..) rfl ?_
  refine Touch.step (log_touch ..) rfl ?_
  exact h1

theorem ftInterval_touch {off : ℤ} {s : State} : Touch 5992156713056701964635107814136760380589873316248160 s (ftInterval off s) := by
  unfold ftInterval
  split
  · rename_i x0 h1
    exact Touch.refl _ _
  · rename_i x2 h3
    refine Touch.ite ?_ ?_
    · refine Touch.step (ftHoldover_touch ..) rfl ?_
      exact Touch.refl _ _
    · extract_lets -merge +onlyGivenNames x4
      have h5 : Touch 5992156713056701964635107814136760380589873316248160 s x4 := by
        unfold x4
        refine Touch.ite ?_ ?_
        · exact Touch.refl _ _
        · refine Touch.step (ftCorrect_touch ..) rfl ?_
          exact Touch.refl _ _
      clear_value x4
      refine Touch.step (modFt_touch ..) rfl ?_
      exact h5
  · rename_i x6 h7 h8
    extract_lets -merge +onlyGivenNames x9
    have h10 : Touch 5992156713056701964635107814136760380589873316248160 s x9 := by
      unfold x9
      refine Touch.step (modFt_touch ..) rfl ?_
      exact Touch.refl _ _
    clear_value x9
    extract_lets -merge +onlyGivenNames x11
    have h12 : Touch 5992156713056701964635107814136760380589873316248160 s x11 := by
      unfold x11
      refine Touch.ite ?_ ?_
      · refine Touch.step (ftCorrect_touch ..) rfl ?_
        exact h10
      · exact h10
    clear_value x11
    refine Touch.ite ?_ ?_
    · refine Touch.step (ftLock_touch ..) rfl ?_
      exact h12
    · exact h12

theorem ptpSync_touch {off : ℤ} {s : State} : Touch 5992156713056701964635107814136760380589873316248160 s (ptpSync off s) := by
  unfold ptpSync
  split
  · rename_i x0 h1
    refine Touch.ite ?_ ?_
    · refine Touch.step (ftInterval_touch ..) rfl ?_
      exact Touch.refl _ _
    · extract_lets -merge +onlyGivenNames x2
      clear_value x2
      refine Touch.step (ftInterval_touch ..) rfl ?_
      refine Touch.step (modFt_touch ..) rfl ?_
      exact Touch.refl _ _
  · rename_i x3 h4
    refine Touch.step (modFt_touch ..) rfl ?_
    exact Touch.refl _ _
  · rename_i x5 h6 h7
    exact Touch.refl _ _

theorem ppsEdge_touch {s : State} : Touch 5992156713056701964635107814136760380589873316248288 s (ppsEdge s) := by
  unfold ppsEdge
  refine Touch.ite ?_ ?_
  · split
    · rename_i x0 x1 x2 h3
      extract_lets -merge +onlyGivenNames x4
      clear_value x4
      extract_lets -merge +onlyGivenNames x5
      have h6 : Touch 5992156713056701964635107814136760380589873316248288 s x5 := by
        unfold x5
        refine Touch.step (modFt_touch ..) rfl ?_
        exact Touch.refl _ _
      clear_value x5
      extract_lets -merge +onlyGivenNames x7
      have h8 : Touch 5992156713056701964635107814136760380589873316248288 s x7 := by
        unfold x7
        refine Touch.ite ?_ ?_
        · refine Touch.step (ftInterval_touch ..) rfl ?_
          refine Touch.step (ftCorrect_touch ..) rfl ?_
          exact h6
        · refine Touch.step (ftInterval_touch ..) rfl ?_
          refine Touch.step (modFt_touch ..) rfl ?_
          exact h6
      clear_value x7
      refine Touch.step (mbxReply_touch ..) rfl ?_
      exact h8
    · rename_i x9 h10
      refine Touch.ite ?_ ?_
      · refine Touch.step (ftInterval_touch ..) rfl ?_
        exact Touch.refl _ _
      · extract_lets -merge +onlyGivenNames x11
        clear_value x11
        extract_lets -merge +onlyGivenNames x12
        clear_value x12
        extract_lets -merge +onlyGivenNames x13
        clear_value x13
        refine Touch.step (ftInterval_touch ..) rfl ?_
        refine Touch.step (modFt_touch ..) rfl ?_
        exact Touch.refl _ _
  · exact Touch.refl _ _

theorem ftLoss_touch {s : State} : Touch 5992156713056701964635107814136760380589323560430176 s (ftLoss s) := by
  unfold ftLoss
  refine Touch.ite ?_ ?_
  · refine Touch.step (ftHoldover_touch ..) rfl ?_
    exact Touch.refl _ _
  · exact Touch.refl _ _

theorem ftSourceChanged_touch {old : Nat} {s : State} : Touch 5992156713056701964635107814136760380589323560430176 s (ftSourceChanged old s) := by
  unfold ftSourceChanged
  extract_lets -merge +onlyGivenNames x0
  subst x0
  refine Touch.ite ?_ ?_
  · exact Touch.refl _ _
  · extract_lets -merge +onlyGivenNames x1
    have h2 : Touch 5992156713056701964635107814136760380589323560430176 s x1 := by
      unfold x1
      refine Touch.step (modFt_touch ..) rfl ?_
      exact Touch.refl _ _
    clear_value x1
    refine Touch.ite ?_ ?_
    · refine Touch.step (modFt_touch ..) rfl ?_
      exact h2
    · split
      · rename_i x3 h4
        refine Touch.step (modFt_touch ..) rfl ?_
        exact h2
      · rename_i x5 h6
        refine Touch.step (ftHoldover_touch ..) rfl ?_
        exact h2
      · rename_i x7 h8 h9
        exact h2

theorem ftTick_touch {s : State} : Touch 2048 s (ftTick s) := by
  unfold ftTick
  refine Touch.step (modFt_touch ..) rfl ?_
  exact Touch.refl _ _

theorem ftReach_touch {t : Nat} {s : State} : Touch 2048 s (ftReach t s) := by
  unfold ftReach
  refine Touch.step (modFt_touch ..) rfl ?_
  exact Touch.refl _ _

theorem cmpBoundary_touch {d : Nat} {count : Nat} {tb : Nat} {s : State} : Touch 4096 s (cmpBoundary d count tb s) := by
  unfold cmpBoundary
  refine Touch.foldl ?_ (fun x0 x1 h2 => ?_)
  · exact Touch.refl _ _
  · extract_lets -merge +onlyGivenNames x3
    clear_value x3
    extract_lets -merge +onlyGivenNames x4
    refine Touch.ite ?_ ?_
    · exact h2
    · split
      · rename_i x5 h6
        refine Touch.ite ?_ ?_
        · extract_lets -merge +onlyGivenNames x7
          clear_value x7
          refine Touch.ite ?_ ?_
          · refine Touch.step (setArmed_touch ..) rfl ?_
            exact h2
          · refine Touch.step (setArmed_touch ..) rfl ?_
            exact h2
        · exact h2
      · rename_i x8 h9
        exact h2
      · rename_i x10 h11
        exact h2

theorem cmpCountSet_touch {d : Nat} {count : Nat} {s : State} : Touch 4096 s (cmpCountSet d count s) := by
  unfold cmpCountSet
  refine Touch.foldl ?_ (fun x0 x1 h2 => ?_)
  · exact Touch.refl _ _
  · extract_lets -merge +onlyGivenNames x3
    refine Touch.ite ?_ ?_
    · refine Touch.ite ?_ ?_
      · refine Touch.step (setArmed_touch ..) rfl ?_
        exact h2
      · refine Touch.ite ?_ ?_
        · refine Touch.step (setArmed_touch ..) rfl ?_
          exact h2
        · exact h2
    · exact h2

theorem cmpTake_touch {die : Nat} {l : List Nat} {o : CmpOwner} {s : State} : Touch 4096 s (cmpTake die l o s) := by
  unfold cmpTake
  refine Touch.step (t := s) (Touch.upd (F := 4096) rfl (Or.inr rfl)) rfl ?_
  exact Touch.refl _ _

theorem cmpDisarm_touch {k : Nat} {s : State} : Touch 549755817984 s (cmpDisarm k s) := by
  unfold cmpDisarm
  extract_lets -merge +onlyGivenNames x0
  have h1 : Touch 549755817984 s x0 := by
    unfold x0
    refine Touch.step (setFld_touch ..) rfl ?_
    refine Touch.step (setFld_touch ..) rfl ?_
    exact Touch.refl _ _
  clear_value x0
  refine Touch.step (t := x0) (Touch.upd (F := 4096) rfl (Or.inr rfl)) rfl ?_
  exact h1

theorem cmpRelease_touch {o : CmpOwner} {free : Bool} {s : State} : Touch 549755817984 s (cmpRelease o free s) := by
  unfold cmpRelease
  refine Touch.foldl ?_ (fun x0 x1 h2 => ?_)
  · exact Touch.refl _ _
  · refine Touch.ite ?_ ?_
    · extract_lets -merge +onlyGivenNames x3
      have h4 : Touch 549755817984 s x3 := by
        unfold x3
        refine Touch.step (cmpDisarm_touch ..) rfl ?_
        exact h2
      clear_value x3
      refine Touch.ite ?_ ?_
      · refine Touch.step (t := x3) (Touch.upd (F := 4096) rfl (Or.inr rfl)) rfl ?_
        exact h4
      · exact h4
    · exact h2

theorem tcmpWrite_touch {k : Nat} {v : Nat} {s : State} {who : Option Nat} : Touch 549755817984 s (tcmpWrite k v s who) := by
  unfold tcmpWrite
  extract_lets -merge +onlyGivenNames x0
  clear_value x0
  refine Touch.ite ?_ ?_
  · exact Touch.refl _ _
  · refine Touch.ite ?_ ?_
    · extract_lets -merge +onlyGivenNames x1
      have h2 : Touch 549755817984 s x1 := by
        unfold x1
        refine Touch.step (setReg_touch ..) rfl ?_
        exact Touch.refl _ _
      clear_value x1
      refine Touch.step (t := x1) (Touch.upd (F := 4096) rfl (Or.inr rfl)) rfl ?_
      exact h2
    · extract_lets -merge +onlyGivenNames x3
      clear_value x3
      extract_lets -merge +onlyGivenNames x4
      clear_value x4
      refine Touch.ite ?_ ?_
      · exact Touch.refl _ _
      · extract_lets -merge +onlyGivenNames x5
        have h6 : Touch 549755817984 s x5 := by
          unfold x5
          refine Touch.step (setReg_touch ..) rfl ?_
          exact Touch.refl _ _
        clear_value x5
        extract_lets -merge +onlyGivenNames x7
        have h8 : Touch 549755817984 s x7 := by
          unfold x7
          refine Touch.step (setFld_touch ..) rfl ?_
          exact h6
        clear_value x7
        extract_lets -merge +onlyGivenNames x9
        clear_value x9
        extract_lets -merge +onlyGivenNames x10
        clear_value x10
        extract_lets -merge +onlyGivenNames x11
        have h12 : Touch 549755817984 s x11 := by
          unfold x11
          refine Touch.step (setArmed_touch ..) rfl ?_
          exact h8
        clear_value x11
        extract_lets -merge +onlyGivenNames x13
        clear_value x13
        split
        · rename_i x14 h15
          refine Touch.ite ?_ ?_
          · refine Touch.step (cmpPassed_touch ..) rfl ?_
            exact h12
          · exact h12
        · rename_i x16 h17
          refine Touch.ite ?_ ?_
          · refine Touch.step (cmpPassed_touch ..) rfl ?_
            exact h12
          · exact h12
        · rename_i x18 h19
          refine Touch.ite ?_ ?_
          · exact h12
          · split
            · rename_i x20 x21 h22
              extract_lets -merge +onlyGivenNames x23
              clear_value x23
              refine Touch.step (setArmed_touch ..) rfl ?_
              exact h12
            · rename_i x24 h25
              exact h12

theorem pauseWait_touch {d : Nat} {s : State} : Touch 562949953421312 s (pauseWait d s) := by
  unfold pauseWait
  split
  · rename_i x0 h1
    exact Touch.refl _ _
  · rename_i x2 x3 h4
    extract_lets -merge +onlyGivenNames x5
    clear_value x5
    refine Touch.step (setFld_touch ..) rfl ?_
    exact Touch.refl _ _

theorem popBoundary_touch {d : Nat} {s : State} : Touch 562949953552384 s (popBoundary d s) := by
  unfold popBoundary
  refine Touch.step (pauseWait_touch ..) rfl ?_
  refine Touch.step (modDom_touch ..) rfl ?_
  exact Touch.refl _ _

theorem applyBoundary_touch {d : Nat} {count : Nat} {tb : Nat} {flag : Bool} {s : State} : Touch 37717646879363072 s (applyBoundary d count tb flag s) := by
  unfold applyBoundary
  extract_lets -merge +onlyGivenNames x0
  have h1 : Touch 37717646879363072 s x0 := by
    unfold x0
    refine Touch.step (setReg_touch ..) rfl ?_
    exact Touch.refl _ _
  clear_value x0
  extract_lets -merge +onlyGivenNames x2
  have h3 : Touch 37717646879363072 s x2 := by
    unfold x2
    refine Touch.step (setReg_touch ..) rfl ?_
    exact h1
  clear_value x2
  extract_lets -merge +onlyGivenNames x4
  have h5 : Touch 37717646879363072 s x4 := by
    unfold x4
    refine Touch.step (modDom_touch ..) rfl ?_
    exact h3
  clear_value x4
  refine Touch.step (cmpBoundary_touch ..) rfl ?_
  refine Touch.step (pauseWait_touch ..) rfl ?_
  exact h5

theorem deferTrigger_touch {d : Nat} {s : State} : Touch 1180591620717411434496 s (deferTrigger d s) := by
  unfold deferTrigger
  refine Touch.step (modDom_touch ..) rfl ?_
  refine Touch.step (bump_touch ..) rfl ?_
  exact Touch.refl _ _

theorem caddyTrigger_touch {d : Nat} {s : State} : Touch 1180591620717411434496 s (caddyTrigger d s) := by
  unfold caddyTrigger
  split
  · rename_i x0 x1 h2
    refine Touch.ite ?_ ?_
    · refine Touch.ite ?_ ?_
      · refine Touch.step (deferTrigger_touch ..) rfl ?_
        exact Touch.refl _ _
      · refine Touch.step (setDom_touch ..) rfl ?_
        exact Touch.refl _ _
    · exact Touch.refl _ _
  · rename_i x3 h4
    exact Touch.refl _ _

theorem stampBoundary_touch {d : Nat} {s : State} : Touch 5992156713056701964635107814137941009927687851094752 s (stampBoundary d s) := by
  unfold stampBoundary
  split
  · rename_i x0 h1
    exact Touch.refl _ _
  · rename_i x2 x3 h4
    extract_lets -merge +onlyGivenNames x5
    clear_value x5
    refine Touch.ite ?_ ?_
    · refine Touch.step (mbxEvent_touch ..) rfl ?_
      refine Touch.step (log_touch ..) rfl ?_
      exact Touch.refl _ _
    · extract_lets -merge +onlyGivenNames x6
      clear_value x6
      extract_lets -merge +onlyGivenNames x7
      clear_value x7
      extract_lets -merge +onlyGivenNames x8
      clear_value x8
      extract_lets -merge +onlyGivenNames x9
      clear_value x9
      extract_lets -merge +onlyGivenNames x10
      have h11 : Touch 5992156713056701964635107814137941009927687851094752 s x10 := by
        unfold x10
        refine Touch.ite ?_ ?_
        · refine Touch.step (deferTrigger_touch ..) rfl ?_
          exact Touch.refl _ _
        · exact Touch.refl _ _
      clear_value x10
      extract_lets -merge +onlyGivenNames x12
      clear_value x12
      extract_lets -merge +onlyGivenNames x13
      clear_value x13
      extract_lets -merge +onlyGivenNames x14
      have h15 : Touch 5992156713056701964635107814137941009927687851094752 s x14 := by
        unfold x14
        refine Touch.step (modDom_touch ..) rfl ?_
        exact h11
      clear_value x14
      extract_lets -merge +onlyGivenNames x16
      have h17 : Touch 5992156713056701964635107814137941009927687851094752 s x16 := by
        unfold x16
        refine Touch.step (applyBoundary_touch ..) rfl ?_
        exact h15
      clear_value x16
      refine Touch.foldl ?_ (fun x18 x19 h20 => ?_)
      · exact h17
      · refine Touch.step (emit_touch ..) rfl ?_
        exact h20

theorem matchDoorbell_touch {d : Nat} {v : Nat} {s : State} : Touch 5992156713056701964635107814137941018934887105835744 s (matchDoorbell d v s) := by
  unfold matchDoorbell
  refine Touch.ite ?_ ?_
  · refine Touch.step (bump_touch ..) rfl ?_
    exact Touch.refl _ _
  · refine Touch.step (stampBoundary_touch ..) rfl ?_
    exact Touch.refl _ _

theorem ringDoorbell_touch {d : Nat} {v : Nat} {s : State} : Touch 5992156713056701964635107814137941018934887105835744 s (ringDoorbell d v s) := by
  unfold ringDoorbell
  split
  · rename_i x0 h1
    exact Touch.refl _ _
  · rename_i x2 x3 h4
    refine Touch.ite ?_ ?_
    · refine Touch.step (matchDoorbell_touch ..) rfl ?_
      exact Touch.refl _ _
    · refine Touch.ite ?_ ?_
      · refine Touch.step (bump_touch ..) rfl ?_
        exact Touch.refl _ _
      · refine Touch.step (emit_touch ..) rfl ?_
        exact Touch.refl _ _

theorem declare_touch {d : Nat} {s : State} : Touch 14190158441651026132992 s (declare d s) := by
  unfold declare
  split
  · rename_i x0 h1
    exact Touch.refl _ _
  · rename_i x2 x3 h4
    split
    · rename_i x5 h6
      exact Touch.refl _ _
    · rename_i x7 x8 x9 h10
      extract_lets -merge +onlyGivenNames x11
      clear_value x11
      extract_lets -merge +onlyGivenNames x12
      clear_value x12
      extract_lets -merge +onlyGivenNames x13
      clear_value x13
      extract_lets -merge +onlyGivenNames x14
      clear_value x14
      extract_lets -merge +onlyGivenNames x15
      have h16 : Touch 14190158441651026132992 s x15 := by
        unfold x15
        refine Touch.step (setDom_touch ..) rfl ?_
        exact Touch.refl _ _
      clear_value x15
      extract_lets -merge +onlyGivenNames x17
      have h18 : Touch 14190158441651026132992 s x17 := by
        unfold x17
        refine Touch.step (setReg_touch ..) rfl ?_
        exact h16
      clear_value x17
      extract_lets -merge +onlyGivenNames x19
      have h20 : Touch 14190158441651026132992 s x19 := by
        unfold x19
        refine Touch.step (setReg_touch ..) rfl ?_
        exact h18
      clear_value x19
      extract_lets -merge +onlyGivenNames x21
      have h22 : Touch 14190158441651026132992 s x21 := by
        unfold x21
        refine Touch.step (setReg_touch ..) rfl ?_
        exact h20
      clear_value x21
      extract_lets -merge +onlyGivenNames x23
      have h24 : Touch 14190158441651026132992 s x23 := by
        unfold x23
        refine Touch.step (setFld_touch ..) rfl ?_
        exact h22
      clear_value x23
      refine Touch.step (popBoundary_touch ..) rfl ?_
      exact h24

theorem freeCow_touch {d : Nat} {s : State} : Touch 36893488147419234304 s (freeCow d s) := by
  unfold freeCow
  refine Touch.step (setReg_touch ..) rfl ?_
  refine Touch.step (modDom_touch ..) rfl ?_
  exact Touch.refl _ _

theorem endAllStalls_touch {d : Nat} {s : State} : Touch 1143698132570126598152 s (endAllStalls d s) := by
  unfold endAllStalls
  split
  · rename_i x0 x1 h2
    refine Touch.foldl ?_ (fun x3 x4 h5 => ?_)
    · exact Touch.refl _ _
    · refine Touch.step (endStalls_touch ..) rfl ?_
      exact h5
  · rename_i x6 h7
    exact Touch.refl _ _

theorem startDeep_touch {d : Nat} {k : Nat} {s : State} : Touch 18446744073709731848 s (startDeep d k s) := by
  unfold startDeep
  split
  · rename_i x0 h1
    exact Touch.refl _ _
  · rename_i x2 x3 h4
    split
    · rename_i x5 h6
      exact Touch.refl _ _
    · rename_i x7 x8 x9 h10
      extract_lets -merge +onlyGivenNames x11
      clear_value x11
      extract_lets -merge +onlyGivenNames x12
      clear_value x12
      extract_lets -merge +onlyGivenNames x13
      clear_value x13
      extract_lets -merge +onlyGivenNames x14
      have h15 : Touch 18446744073709731848 s x14 := by
        unfold x14
        refine Touch.step (nsPut_touch ..) rfl ?_
        exact Touch.refl _ _
      clear_value x14
      refine Touch.step (setFld_touch ..) rfl ?_
      refine Touch.step (setDom_touch ..) rfl ?_
      exact h15

theorem applyCommit_touch {d : Nat} {k : Nat} {deep : Bool} {s : State} : Touch 1164450719653049844232 s (applyCommit d k deep s) := by
  unfold applyCommit
  extract_lets -merge +onlyGivenNames x0
  clear_value x0
  extract_lets -merge +onlyGivenNames x1
  have h2 : Touch 1164450719653049844232 s x1 := by
    unfold x1
    refine Touch.step (modDom_touch ..) rfl ?_
    exact Touch.refl _ _
  clear_value x1
  extract_lets -merge +onlyGivenNames x3
  have h4 : Touch 1164450719653049844232 s x3 := by
    unfold x3
    refine Touch.step (endAllStalls_touch ..) rfl ?_
    refine Touch.step (freeCow_touch ..) rfl ?_
    exact h2
  clear_value x3
  extract_lets -merge +onlyGivenNames x5
  have h6 : Touch 1164450719653049844232 s x5 := by
    unfold x5
    refine Touch.step (setReg_touch ..) rfl ?_
    exact h4
  clear_value x5
  extract_lets -merge +onlyGivenNames x7
  have h8 : Touch 1164450719653049844232 s x7 := by
    unfold x7
    refine Touch.step (setFld_touch ..) rfl ?_
    exact h6
  clear_value x7
  extract_lets -merge +onlyGivenNames x9
  have h10 : Touch 1164450719653049844232 s x9 := by
    unfold x9
    refine Touch.step (setFld_touch ..) rfl ?_
    exact h8
  clear_value x9
  extract_lets -merge +onlyGivenNames x11
  have h12 : Touch 1164450719653049844232 s x11 := by
    unfold x11
    refine Touch.step (setFld_touch ..) rfl ?_
    exact h10
  clear_value x11
  extract_lets -merge +onlyGivenNames x13
  have h14 : Touch 1164450719653049844232 s x13 := by
    unfold x13
    refine Touch.step (irqSource_touch ..) rfl ?_
    exact h12
  clear_value x13
  refine Touch.ite ?_ ?_
  · refine Touch.step (startDeep_touch ..) rfl ?_
    exact h14
  · exact h14

theorem dropGens_touch {d : Nat} {p : GenSlot → Bool} {s : State} : Touch 131072 s (dropGens d p s) := by
  unfold dropGens
  refine Touch.step (modDom_touch ..) rfl ?_
  exact Touch.refl _ _

theorem applyAbort_touch {d : Nat} {k : Nat} {st : Status} {s : State} : Touch 5992156713056701964635107814137922526028917215781480 s (applyAbort d k st s) := by
  unfold applyAbort
  extract_lets -merge +onlyGivenNames x0
  clear_value x0
  extract_lets -merge +onlyGivenNames x1
  have h2 : Touch 5992156713056701964635107814137922526028917215781480 s x1 := by
    unfold x1
    refine Touch.step (modDom_touch ..) rfl ?_
    exact Touch.refl _ _
  clear_value x1
  extract_lets -merge +onlyGivenNames x3
  have h4 : Touch 5992156713056701964635107814137922526028917215781480 s x3 := by
    unfold x3
    refine Touch.step (dropGens_touch ..) rfl ?_
    refine Touch.step (freeCow_touch ..) rfl ?_
    exact h2
  clear_value x3
  extract_lets -merge +onlyGivenNames x5
  have h6 : Touch 5992156713056701964635107814137922526028917215781480 s x5 := by
    unfold x5
    refine Touch.step (pauseWait_touch ..) rfl ?_
    refine Touch.step (endAllStalls_touch ..) rfl ?_
    exact h4
  clear_value x5
  extract_lets -merge +onlyGivenNames x7
  have h8 : Touch 5992156713056701964635107814137922526028917215781480 s x7 := by
    unfold x7
    refine Touch.step (log_touch ..) rfl ?_
    exact h6
  clear_value x7
  extract_lets -merge +onlyGivenNames x9
  have h10 : Touch 5992156713056701964635107814137922526028917215781480 s x9 := by
    unfold x9
    refine Touch.step (setFld_touch ..) rfl ?_
    exact h8
  clear_value x9
  extract_lets -merge +onlyGivenNames x11
  have h12 : Touch 5992156713056701964635107814137922526028917215781480 s x11 := by
    unfold x11
    refine Touch.step (setFld_touch ..) rfl ?_
    exact h10
  clear_value x11
  extract_lets -merge +onlyGivenNames x13
  have h14 : Touch 5992156713056701964635107814137922526028917215781480 s x13 := by
    unfold x13
    refine Touch.step (bumpFld_touch ..) rfl ?_
    exact h12
  clear_value x13
  extract_lets -merge +onlyGivenNames x15
  have h16 : Touch 5992156713056701964635107814137922526028917215781480 s x15 := by
    unfold x15
    refine Touch.ite ?_ ?_
    · refine Touch.step (log_touch ..) rfl ?_
      exact h14
    · exact h14
  clear_value x15
  refine Touch.step (irqSource_touch ..) rfl ?_
  exact h16

theorem resolve_touch {d : Nat} {s : State} : Touch 5992156713056701964635107814137924831871926429737576 s (resolve d s) := by
  unfold resolve
  split
  · rename_i x0 h1
    exact Touch.refl _ _
  · rename_i x2 x3 h4
    split
    · rename_i x5 x6 x7 x8 x9 x10 h11
      refine Touch.ite ?_ ?_
      · extract_lets -merge +onlyGivenNames x12
        clear_value x12
        extract_lets -merge +onlyGivenNames x13
        have h14 : Touch 5992156713056701964635107814137924831871926429737576 s x13 := by
          unfold x13
          refine Touch.step (setDom_touch ..) rfl ?_
          exact Touch.refl _ _
        clear_value x13
        extract_lets -merge +onlyGivenNames x15
        have h16 : Touch 5992156713056701964635107814137924831871926429737576 s x15 := by
          unfold x15
          refine Touch.step (sendDown_touch ..) rfl ?_
          exact h14
        clear_value x15
        refine Touch.step (applyCommit_touch ..) rfl ?_
        exact h16
      · extract_lets -merge +onlyGivenNames x17
        have h18 : Touch 5992156713056701964635107814137924831871926429737576 s x17 := by
          unfold x17
          refine Touch.step (setDom_touch ..) rfl ?_
          exact Touch.refl _ _
        clear_value x17
        extract_lets -merge +onlyGivenNames x19
        have h20 : Touch 5992156713056701964635107814137924831871926429737576 s x19 := by
          unfold x19
          refine Touch.step (sendDown_touch ..) rfl ?_
          exact h18
        clear_value x19
        refine Touch.step (applyAbort_touch ..) rfl ?_
        exact h20
    · rename_i x21 h22
      exact Touch.refl _ _

theorem decideSnap_touch {d : Nat} {st : Status} {who : Nat} {s : State} : Touch 5992156713056701964635107814137924831871926429737576 s (decideSnap d st who s) := by
  unfold decideSnap
  split
  · rename_i x0 h1
    exact Touch.refl _ _
  · rename_i x2 x3 h4
    split
    · rename_i x5 x6 h7
      refine Touch.ite ?_ ?_
      · exact Touch.refl _ _
      · extract_lets -merge +onlyGivenNames x8
        have h9 : Touch 5992156713056701964635107814137924831871926429737576 s x8 := by
          unfold x8
          refine Touch.step (setDom_touch ..) rfl ?_
          exact Touch.refl _ _
        clear_value x8
        refine Touch.ite ?_ ?_
        · refine Touch.step (sendMsg_touch ..) rfl ?_
          exact h9
        · refine Touch.step (resolve_touch ..) rfl ?_
          exact h9
    · rename_i x10 h11
      exact Touch.refl _ _

theorem heldAt_touch {d : Nat} {k : Nat} {owner : Nat} {s : State} : Touch 5992156713056701964635107814137924831871926429737576 s (heldAt d k owner s) := by
  unfold heldAt
  split
  · rename_i x0 h1
    exact Touch.refl _ _
  · rename_i x2 x3 h4
    split
    · rename_i x5 x6 h7
      refine Touch.ite ?_ ?_
      · exact Touch.refl _ _
      · extract_lets -merge +onlyGivenNames x8
        clear_value x8
        extract_lets -merge +onlyGivenNames x9
        have h10 : Touch 5992156713056701964635107814137924831871926429737576 s x9 := by
          unfold x9
          refine Touch.step (setDom_touch ..) rfl ?_
          exact Touch.refl _ _
        clear_value x9
        refine Touch.ite ?_ ?_
        · refine Touch.step (decideSnap_touch ..) rfl ?_
          exact h10
        · exact h10
    · rename_i x11 h12
      exact Touch.refl _ _

theorem abandonAt_touch {d : Nat} {k : Nat} {owner : Nat} {st : Status} {s : State} : Touch 5992156713056701964635107814137924831871926429737576 s (abandonAt d k owner st s) := by
  unfold abandonAt
  split
  · rename_i x0 x1 h2
    split
    · rename_i x3 x4 h5
      refine Touch.ite ?_ ?_
      · refine Touch.step (decideSnap_touch ..) rfl ?_
        exact Touch.refl _ _
      · exact Touch.refl _ _
    · rename_i x6 h7
      exact Touch.refl _ _
  · rename_i x8 h9
    exact Touch.refl _ _

theorem sendAbandon_touch {d : Nat} {k : Nat} {owner : Nat} {st : Status} {s : State} : Touch 5992156713056701964635107814137924831871926429737576 s (sendAbandon d k owner st s) := by
  unfold sendAbandon
  split
  · rename_i x0 x1 h2
    refine Touch.ite ?_ ?_
    · refine Touch.step (abandonAt_touch ..) rfl ?_
      exact Touch.refl _ _
    · refine Touch.step (sendCoord_touch ..) rfl ?_
      exact Touch.refl _ _
  · rename_i x3 h4
    exact Touch.refl _ _

theorem abandonSnapshot_touch {d : Nat} {s : State} : Touch 5992156713056701964635107814137924831871926429737576 s (abandonSnapshot d s) := by
  unfold abandonSnapshot
  split
  · rename_i x0 h1
    exact Touch.refl _ _
  · rename_i x2 x3 h4
    split
    · rename_i x5 x6 x7 h8
      extract_lets -merge +onlyGivenNames x9
      have h10 : Touch 5992156713056701964635107814137924831871926429737576 s x9 := by
        unfold x9
        refine Touch.step (log_touch ..) rfl ?_
        refine Touch.step (popBoundary_touch ..) rfl ?_
        exact Touch.refl _ _
      clear_value x9
      refine Touch.step (sendAbandon_touch ..) rfl ?_
      exact h10
    · rename_i x11 h12
      exact Touch.refl _ _

theorem sendGrain_touch {d : Nat} {k : Nat} {first : Bool} {s : State} : Touch 4722366482869779562496 s (sendGrain d k first s) := by
  unfold sendGrain
  split
  · rename_i x0 h1
    exact Touch.refl _ _
  · rename_i x2 x3 h4
    split
    · rename_i x5 h6
      exact Touch.refl _ _
    · rename_i x7 x8 h9
      extract_lets -merge +onlyGivenNames x10
      clear_value x10
      extract_lets -merge +onlyGivenNames x11
      clear_value x11
      extract_lets -merge +onlyGivenNames x12
      clear_value x12
      extract_lets -merge +onlyGivenNames x13
      clear_value x13
      extract_lets -merge +onlyGivenNames x14
      have h15 : Touch 4722366482869779562496 s x14 := by
        unfold x14
        refine Touch.step (setDom_touch ..) rfl ?_
        exact Touch.refl _ _
      clear_value x14
      extract_lets -merge +onlyGivenNames x16
      have h17 : Touch 4722366482869779562496 s x16 := by
        unfold x16
        refine Touch.ite ?_ ?_
        · refine Touch.step (setReg_touch ..) rfl ?_
          exact h15
        · exact h15
      clear_value x16
      extract_lets -merge +onlyGivenNames x18
      clear_value x18
      refine Touch.step (emit_touch ..) rfl ?_
      exact h17

theorem sendSeal_touch {d : Nat} {s : State} : Touch 18446744073844162560 s (sendSeal d s) := by
  unfold sendSeal
  split
  · rename_i x0 h1
    exact Touch.refl _ _
  · rename_i x2 x3 h4
    split
    · rename_i x5 x6 h7
      refine Touch.ite ?_ ?_
      · exact Touch.refl _ _
      · extract_lets -merge +onlyGivenNames x8
        have h9 : Touch 18446744073844162560 s x8 := by
          unfold x8
          refine Touch.step (setDom_touch ..) rfl ?_
          exact Touch.refl _ _
        clear_value x8
        extract_lets -merge +onlyGivenNames x10
        have h11 : Touch 18446744073844162560 s x10 := by
          unfold x10
          refine Touch.step (setFld_touch ..) rfl ?_
          exact h9
        clear_value x10
        refine Touch.step (sendMsg_touch ..) rfl ?_
        exact h11
    · rename_i x12 h13
      exact Touch.refl _ _

theorem copierSend_touch {d : Nat} {s : State} : Touch 4740813226943489376256 s (copierSend d s) := by
  unfold copierSend
  split
  · rename_i x0 h1
    exact Touch.refl _ _
  · rename_i x2 x3 h4
    split
    · rename_i x5 h6
      exact Touch.refl _ _
    · rename_i x7 x8 h9
      refine Touch.ite ?_ ?_
      · exact Touch.refl _ _
      · split
        · rename_i x10 x11 x12 h13
          refine Touch.step (sendSeal_touch ..) rfl ?_
          refine Touch.step (sendGrain_touch ..) rfl ?_
          exact Touch.refl _ _
        · rename_i x14 x15 x16 x17 h18 h19
          refine Touch.step (sendGrain_touch ..) rfl ?_
          refine Touch.step (setDom_touch ..) rfl ?_
          exact Touch.refl _ _
        · rename_i x20 x21 h22 h23
          split
          · rename_i x24 x25 h26
            refine Touch.step (sendSeal_touch ..) rfl ?_
            refine Touch.step (sendGrain_touch ..) rfl ?_
            exact Touch.refl _ _
          · rename_i x27 h28
            refine Touch.step (sendSeal_touch ..) rfl ?_
            exact Touch.refl _ _

theorem ackGrain_touch {d : Nat} {s : State} {k : Nat} : Touch 1143698132570126598152 s (ackGrain d s k) := by
  unfold ackGrain
  split
  · rename_i x0 h1
    exact Touch.refl _ _
  · rename_i x2 x3 h4
    extract_lets -merge +onlyGivenNames x5
    clear_value x5
    extract_lets -merge +onlyGivenNames x6
    have h7 : Touch 1143698132570126598152 s x6 := by
      unfold x6
      refine Touch.step (setGrain_touch ..) rfl ?_
      exact Touch.refl _ _
    clear_value x6
    extract_lets -merge +onlyGivenNames x8
    clear_value x8
    extract_lets -merge +onlyGivenNames x9
    have h10 : Touch 1143698132570126598152 s x9 := by
      unfold x9
      split
      · rename_i x11 h12
        refine Touch.step (setGrain_touch ..) rfl ?_
        exact Touch.refl _ _
      · rename_i x13 h14
        refine Touch.step (setReg_touch ..) rfl ?_
        refine Touch.step (modDom_touch ..) rfl ?_
        exact h7
      · rename_i x15 h16 h17
        exact Touch.refl _ _
    clear_value x9
    refine Touch.ite ?_ ?_
    · refine Touch.step (endStalls_touch ..) rfl ?_
      exact h10
    · exact h10

theorem nakGrain_touch {d : Nat} {st : Status} {s : State} {k : Nat} : Touch 5992156713056701964635107814140286015113361252344424 s (nakGrain d st s k) := by
  unfold nakGrain
  extract_lets -merge +onlyGivenNames x0
  have h1 : Touch 5992156713056701964635107814140286015113361252344424 s x0 := by
    unfold x0
    refine Touch.step (bump_touch ..) rfl ?_
    exact Touch.refl _ _
  clear_value x0
  split
  · rename_i x2 h3
    exact h1
  · rename_i x4 x5 h6
    split
    · rename_i x7 h8
      exact h1
    · rename_i x9 x10 h11
      extract_lets -merge +onlyGivenNames x12
      clear_value x12
      refine Touch.ite ?_ ?_
      · exact h1
      · refine Touch.ite ?_ ?_
        · extract_lets -merge +onlyGivenNames x13
          have h14 : Touch 5992156713056701964635107814140286015113361252344424 s x13 := by
            unfold x13
            refine Touch.step (setDom_touch ..) rfl ?_
            exact h1
          clear_value x13
          refine Touch.step (sendAbandon_touch ..) rfl ?_
          exact h14
        · refine Touch.step (setDom_touch ..) rfl ?_
          exact h1

theorem compareSeal_touch {d : Nat} {s : State} : Touch 5992156713056701964635107814137924831871926429737576 s (compareSeal d s) := by
  unfold compareSeal
  split
  · rename_i x0 h1
    exact Touch.refl _ _
  · rename_i x2 x3 h4
    split
    · rename_i x5 x6 h7
      split
      · rename_i x8 x9 x10 h11
        extract_lets -merge +onlyGivenNames x12
        clear_value x12
        refine Touch.ite ?_ ?_
        · exact Touch.refl _ _
        · extract_lets -merge +onlyGivenNames x13
          have h14 : Touch 5992156713056701964635107814137924831871926429737576 s x13 := by
            unfold x13
            refine Touch.step (setDom_touch ..) rfl ?_
            exact Touch.refl _ _
          clear_value x13
          extract_lets -merge +onlyGivenNames x15
          clear_value x15
          refine Touch.ite ?_ ?_
          · refine Touch.ite ?_ ?_
            · refine Touch.step (heldAt_touch ..) rfl ?_
              exact h14
            · refine Touch.step (sendCoord_touch ..) rfl ?_
              exact h14
          · refine Touch.step (sendAbandon_touch ..) rfl ?_
            exact h14
      · rename_i x16 h17
        exact Touch.refl _ _
    · rename_i x18 h19
      exact Touch.refl _ _

theorem ackBatch_touch {d : Nat} {s : State} : Touch 134610944 s (ackBatch d s) := by
  unfold ackBatch
  split
  · rename_i x0 h1
    exact Touch.refl _ _
  · rename_i x2 x3 h4
    split
    · rename_i x5 h6
      exact Touch.refl _ _
    · rename_i x7 x8 h9
      extract_lets -merge +onlyGivenNames x10
      clear_value x10
      extract_lets -merge +onlyGivenNames x11
      clear_value x11
      extract_lets -merge +onlyGivenNames x12
      clear_value x12
      extract_lets -merge +onlyGivenNames x13
      clear_value x13
      extract_lets -merge +onlyGivenNames x14
      have h15 : Touch 134610944 s x14 := by
        unfold x14
        refine Touch.step (setDom_touch ..) rfl ?_
        exact Touch.refl _ _
      clear_value x14
      extract_lets -merge +onlyGivenNames x16
      have h17 : Touch 134610944 s x16 := by
        unfold x16
        refine Touch.ite ?_ ?_
        · exact h15
        · refine Touch.step (sendMsg_touch ..) rfl ?_
          exact h15
      clear_value x16
      refine Touch.ite ?_ ?_
      · exact h17
      · refine Touch.step (sendMsg_touch ..) rfl ?_
        exact h17

theorem addNak_touch {d : Nat} {k : Nat} {st : Status} {s : State} : Touch 134610944 s (addNak d k st s) := by
  unfold addNak
  extract_lets -merge +onlyGivenNames x0
  have h1 : Touch 134610944 s x0 := by
    unfold x0
    refine Touch.step (modDom_touch ..) rfl ?_
    exact Touch.refl _ _
  clear_value x0
  split
  · rename_i x2 x3 h4
    split
    · rename_i x5 x6 h7
      refine Touch.ite ?_ ?_
      · refine Touch.step (ackBatch_touch ..) rfl ?_
        exact h1
      · exact h1
    · rename_i x8 h9
      exact h1
  · rename_i x10 h11
    exact h1

theorem recvGrain_touch {m : Msg} {s : State} : Touch 5992156713056701964635107814137924831871926429737576 s (recvGrain m s) := by
  unfold recvGrain
  extract_lets -merge +onlyGivenNames x0
  clear_value x0
  split
  · rename_i x1 h2
    refine Touch.step (discard_touch ..) rfl ?_
    exact Touch.refl _ _
  · rename_i x3 x4 h5
    extract_lets -merge +onlyGivenNames x6
    clear_value x6
    refine Touch.ite ?_ ?_
    · refine Touch.step (discard_touch ..) rfl ?_
      exact Touch.refl _ _
    · split
      · rename_i x7 h8
        refine Touch.step (discard_touch ..) rfl ?_
        exact Touch.refl _ _
      · rename_i x9 x10 h11
        refine Touch.ite ?_ ?_
        · refine Touch.step (discard_touch ..) rfl ?_
          exact Touch.refl _ _
        · refine Touch.ite ?_ ?_
          · refine Touch.step (addNak_touch ..) rfl ?_
            exact Touch.refl _ _
          · refine Touch.ite ?_ ?_
            · refine Touch.step (addNak_touch ..) rfl ?_
              exact Touch.refl _ _
            · split
              · rename_i x12 h13
                refine Touch.step (addNak_touch ..) rfl ?_
                exact Touch.refl _ _
              · rename_i x14 x15 h16
                refine Touch.ite ?_ ?_
                · refine Touch.step (addNak_touch ..) rfl ?_
                  exact Touch.refl _ _
                · extract_lets -merge +onlyGivenNames x17
                  clear_value x17
                  extract_lets -merge +onlyGivenNames x18
                  have h19 : Touch 5992156713056701964635107814137924831871926429737576 s x18 := by
                    unfold x18
                    refine Touch.step (store_touch ..) rfl ?_
                    exact Touch.refl _ _
                  clear_value x18
                  extract_lets -merge +onlyGivenNames x20
                  clear_value x20
                  extract_lets -merge +onlyGivenNames x21
                  have h22 : Touch 5992156713056701964635107814137924831871926429737576 s x21 := by
                    unfold x21
                    refine Touch.step (setDom_touch ..) rfl ?_
                    exact h19
                  clear_value x21
                  extract_lets -merge +onlyGivenNames x23
                  have h24 : Touch 5992156713056701964635107814137924831871926429737576 s x23 := by
                    unfold x23
                    refine Touch.ite ?_ ?_
                    · refine Touch.step (ackBatch_touch ..) rfl ?_
                      exact h22
                    · exact h22
                  clear_value x23
                  refine Touch.step (compareSeal_touch ..) rfl ?_
                  exact h24

theorem atCoord_touch {m : Msg} {D : Domain} {s : State} {f : State → State} {F : Nat} (hF : Within 134479872 F) (hf : ∀ (y0 : State), Touch F y0 (f y0)) : Touch F s (atCoord m D s f) := by
  unfold atCoord
  refine Touch.ite ?_ ?_
  · refine Touch.step (hf ..) (Within.refl _) ?_
    exact Touch.refl _ _
  · refine Touch.step (relayUp_touch ..) (.trans rfl hF) ?_
    exact Touch.refl _ _

theorem spread_touch {m : Msg} {f : State → State} {s : State} {F : Nat} (hF : Within 134479872 F) (hf : ∀ (y0 : State), Touch F y0 (f y0)) : Touch F s (spread m f s) := by
  unfold spread
  refine Touch.step (hf ..) (Within.refl _) ?_
  refine Touch.step (sendDown_touch ..) (.trans rfl hF) ?_
  exact Touch.refl _ _

theorem scrubBuddy_touch {d : Nat} {region : Nat} {grain : Nat} {s : State} : Touch 5992156713056701964635107814136760380589323560820832 s (scrubBuddy d region grain s) := by
  unfold scrubBuddy
  extract_lets -merge +onlyGivenNames x0
  clear_value x0
  split
  · rename_i x1 h2
    exact Touch.refl _ _
  · rename_i x3 x4 h5
    split
    · rename_i x6 h7
      exact Touch.refl _ _
    · rename_i x8 x9 h10
      split
      · rename_i x11 h12
        exact Touch.refl _ _
      · rename_i x13 x14 h15
        extract_lets -merge +onlyGivenNames x16
        clear_value x16
        refine Touch.ite ?_ ?_
        · exact Touch.refl _ _
        · extract_lets -merge +onlyGivenNames x17
          have h18 : Touch 5992156713056701964635107814136760380589323560820832 s x17 := by
            unfold x17
            refine Touch.step (setDom_touch ..) rfl ?_
            exact Touch.refl _ _
          clear_value x17
          extract_lets -merge +onlyGivenNames x19
          have h20 : Touch 5992156713056701964635107814136760380589323560820832 s x19 := by
            unfold x19
            refine Touch.step (log_touch ..) rfl ?_
            exact h18
          clear_value x19
          refine Touch.step (sendMsg_touch ..) rfl ?_
          exact h20

theorem sideRecord_touch {d : Nat} {k : Nat} {gen : Nat} {g : GenSlot} {s : State} : TouchP 268435456 s (sideRecord d k gen g s) := by
  unfold sideRecord
  split
  · rename_i x0 x1 x2 h3
    have h4 : Touch 268435456 s x2 := by
      refine TouchP.eq ?_ h3
      refine TouchP.step (draw_touch ..) rfl ?_
      exact Touch.refl _ _
    refine TouchP.mk' ?_
    exact h4

theorem deepArea_touch {d : Nat} {k : Nat} {sl : Nat} {D : Domain} {nsid : Nat} {off : Nat} {s : State} : Touch 268484616 s (deepArea d k sl D nsid off s) := by
  unfold deepArea
  extract_lets -merge +onlyGivenNames x0
  clear_value x0
  extract_lets -merge +onlyGivenNames x1
  clear_value x1
  extract_lets -merge +onlyGivenNames x2
  clear_value x2
  extract_lets -merge +onlyGivenNames x3
  clear_value x3
  extract_lets -merge +onlyGivenNames x4
  have h5 : Touch 268484616 s x4 := by
    unfold x4
    refine Touch.step (nsPut_touch ..) rfl ?_
    exact Touch.refl _ _
  clear_value x4
  split
  · rename_i x6 x7 x8 h9
    have h10 : Touch 268484616 s x8 := by
      refine TouchP.eq ?_ h9
      refine TouchP.foldl ?_ (fun x11 x12 h13 => ?_)
      · refine TouchP.mk' ?_
        exact h5
      · extract_lets -merge +onlyGivenNames x14
        clear_value x14
        split
        · rename_i x15 x16 x17 h18
          have h19 : Touch 268484616 s x17 := by
            refine TouchP.eq ?_ h18
            refine TouchP.step (sideRecord_touch ..) rfl ?_
            show TouchP _ _ _
            exact h13
          refine TouchP.mk' ?_
          exact h19
    extract_lets -merge +onlyGivenNames x20
    have h21 : Touch 268484616 s x20 := by
      unfold x20
      refine Touch.step (nsPut_touch ..) rfl ?_
      exact h10
    clear_value x20
    extract_lets -merge +onlyGivenNames x22
    clear_value x22
    extract_lets -merge +onlyGivenNames x23
    have h24 : Touch 268484616 s x23 := by
      unfold x23
      refine Touch.foldl ?_ (fun x25 x26 h27 => ?_)
      · exact h21
      · extract_lets -merge +onlyGivenNames x28
        clear_value x28
        refine Touch.step (nsPut_touch ..) rfl ?_
        exact h27
    clear_value x23
    extract_lets -merge +onlyGivenNames x29
    clear_value x29
    refine Touch.step (nsPut_touch ..) rfl ?_
    exact h24

theorem deepComplete_touch {d : Nat} {k : Nat} {s : State} : Touch 9223372036989386752 s (deepComplete d k s) := by
  unfold deepComplete
  extract_lets -merge +onlyGivenNames x0
  have h1 : Touch 9223372036989386752 s x0 := by
    unfold x0
    refine Touch.step (sendDown_touch ..) rfl ?_
    exact Touch.refl _ _
  clear_value x0
  refine Touch.step (setReg_touch ..) rfl ?_
  refine Touch.step (modDom_touch ..) rfl ?_
  exact h1

theorem deepStop_touch {d : Nat} {s : State} : Touch 18446744073709682688 s (deepStop d s) := by
  unfold deepStop
  refine Touch.step (setFld_touch ..) rfl ?_
  refine Touch.step (modDom_touch ..) rfl ?_
  exact Touch.refl _ _

theorem deepCancelAll_touch {d : Nat} {s : State} : Touch 5992156713056701964635107814136778827333397270372448 s (deepCancelAll d s) := by
  unfold deepCancelAll
  split
  · rename_i x0 x1 h2
    split
    · rename_i x3 x4 x5 h6
      extract_lets -merge +onlyGivenNames x7
      have h8 : Touch 5992156713056701964635107814136778827333397270372448 s x7 := by
        unfold x7
        refine Touch.step (sendDown_touch ..) rfl ?_
        exact Touch.refl _ _
      clear_value x7
      extract_lets -merge +onlyGivenNames x9
      have h10 : Touch 5992156713056701964635107814136778827333397270372448 s x9 := by
        unfold x9
        refine Touch.step (modDom_touch ..) rfl ?_
        exact h8
      clear_value x9
      refine Touch.step (deepStop_touch ..) rfl ?_
      refine Touch.step (log_touch ..) rfl ?_
      exact h10
    · rename_i x11 h12
      exact Touch.refl _ _
  · rename_i x13 h14
    exact Touch.refl _ _

theorem deepDoneAt_touch {d : Nat} {k : Nat} {owner : Nat} {st : Status} {s : State} : Touch 5992156713056701964635107814136788050705434125148256 s (deepDoneAt d k owner st s) := by
  unfold deepDoneAt
  split
  · rename_i x0 x1 h2
    split
    · rename_i x3 x4 x5 h6
      refine Touch.ite ?_ ?_
      · exact Touch.refl _ _
      · refine Touch.ite ?_ ?_
        · refine Touch.step (deepCancelAll_touch ..) rfl ?_
          exact Touch.refl _ _
        · extract_lets -merge +onlyGivenNames x7
          clear_value x7
          extract_lets -merge +onlyGivenNames x8
          have h9 : Touch 5992156713056701964635107814136788050705434125148256 s x8 := by
            unfold x8
            refine Touch.step (setDom_touch ..) rfl ?_
            exact Touch.refl _ _
          clear_value x8
          refine Touch.ite ?_ ?_
          · refine Touch.step (deepComplete_touch ..) rfl ?_
            exact h9
          · exact h9
    · rename_i x10 h11
      exact Touch.refl _ _
  · rename_i x12 h13
    exact Touch.refl _ _

theorem deepWriteEnd_touch {d : Nat} {ok : Bool} {s : State} : Touch 5992156713056701964635107814136788050705434393632872 s (deepWriteEnd d ok s) := by
  unfold deepWriteEnd
  split
  · rename_i x0 h1
    exact Touch.refl _ _
  · rename_i x2 x3 h4
    split
    · rename_i x5 x6 x7 x8 x9 x10 h11 h12
      extract_lets -merge +onlyGivenNames x13
      clear_value x13
      extract_lets -merge +onlyGivenNames x14
      clear_value x14
      extract_lets -merge +onlyGivenNames x15
      have h16 : Touch 5992156713056701964635107814136788050705434393632872 s x15 := by
        unfold x15
        refine Touch.step (deepStop_touch ..) rfl ?_
        refine Touch.ite ?_ ?_
        · refine Touch.step (deepArea_touch ..) rfl ?_
          exact Touch.refl _ _
        · exact Touch.refl _ _
      clear_value x15
      refine Touch.ite ?_ ?_
      · refine Touch.step (deepDoneAt_touch ..) rfl ?_
        exact h16
      · refine Touch.step (sendCoord_touch ..) rfl ?_
        exact h16
    · rename_i x17 x18 h19
      exact Touch.refl _ _

theorem whenEngine_touch {s : State} {f : State → State} {F : Nat} (hF : Within 0 F) (hf : ∀ (y0 : State), Touch F y0 (f y0)) : TouchOut F s (whenEngine s f) := by
  unfold whenEngine
  refine TouchOut.step (whenOn_touch (.trans rfl hF) (fun x0 => ?_)) (Within.refl _) ?_
  · refine Touch.ite ?_ ?_
    · exact Touch.refl _ _
    · refine Touch.step (hf ..) (Within.refl _) ?_
      exact Touch.refl _ _
  · exact Touch.refl _ _

theorem withDom_touch {d : Nat} {s : State} {f : Domain → State → State} {F : Nat} (hF : Within 0 F) (hf : ∀ (y0 : Domain) (y1 : State), Touch F y1 (f y0 y1)) : Touch F s (withDom d s f) := by
  unfold withDom
  split
  · rename_i x0 x1 h2
    refine Touch.step (hf ..) (Within.refl _) ?_
    exact Touch.refl _ _
  · rename_i x3 h4
    exact Touch.refl _ _

theorem execSteepDoorbellForward_touch {d : Nat} {v : Word} {s : State} : TouchOut 5992156713056701964635107814137941018934887105835744 s (execSteepDoorbellForward d v s) := by
  unfold execSteepDoorbellForward
  refine TouchOut.step (whenOn_touch rfl (fun x0 => ?_)) (Within.refl _) ?_
  · refine Touch.step (withDom_touch rfl (fun x1 x2 => ?_)) (Within.refl _) ?_
    · refine Touch.ite ?_ ?_
      · refine Touch.step (matchDoorbell_touch ..) rfl ?_
        exact Touch.refl _ _
      · refine Touch.step (emit_touch ..) rfl ?_
        exact Touch.refl _ _
    · exact Touch.refl _ _
  · exact Touch.refl _ _

theorem execSteepBoundary_touch {d : Nat} {count : Nat} {tb : Nat} {flag : Bool} {s : State} : TouchOut 37717647013580800 s (execSteepBoundary d count tb flag s) := by
  unfold execSteepBoundary
  refine TouchOut.step (whenOn_touch rfl (fun x0 => ?_)) (Within.refl _) ?_
  · refine Touch.step (withDom_touch rfl (fun x1 x2 => ?_)) (Within.refl _) ?_
    · refine Touch.ite ?_ ?_
      · exact Touch.refl _ _
      · extract_lets -merge +onlyGivenNames x3
        have h4 : Touch 37717647013580800 x2 x3 := by
          unfold x3
          refine Touch.foldl ?_ (fun x5 x6 h7 => ?_)
          · exact Touch.refl _ _
          · refine Touch.step (emit_touch ..) rfl ?_
            exact h7
        clear_value x3
        refine Touch.step (applyBoundary_touch ..) rfl ?_
        exact h4
    · exact Touch.refl _ _
  · exact Touch.refl _ _

theorem execSnapshotDeclare_touch {d : Nat} {s : State} : TouchOut 14190158441651026132992 s (execSnapshotDeclare d s) := by
  unfold execSnapshotDeclare
  refine TouchOut.step (whenEngine_touch rfl (fun x0 => ?_)) (Within.refl _) ?_
  · refine Touch.step (withDom_touch rfl (fun x1 x2 => ?_)) (Within.refl _) ?_
    · split
      · rename_i x3 x4 x5 h6
        refine Touch.ite ?_ ?_
        · refine Touch.step (declare_touch ..) rfl ?_
          exact Touch.refl _ _
        · exact Touch.refl _ _
      · rename_i x7 h8
        exact Touch.refl _ _
    · exact Touch.refl _ _
  · exact Touch.refl _ _

theorem execBoundaryPass_touch {d : Nat} {s : State} : TouchOut 562949953552384 s (execBoundaryPass d s) := by
  unfold execBoundaryPass
  refine TouchOut.step (whenEngine_touch rfl (fun x0 => ?_)) (Within.refl _) ?_
  · refine Touch.step (withDom_touch rfl (fun x1 x2 => ?_)) (Within.refl _) ?_
    · split
      · rename_i x3 x4 x5 h6
        refine Touch.ite ?_ ?_
        · refine Touch.step (popBoundary_touch ..) rfl ?_
          exact Touch.refl _ _
        · exact Touch.refl _ _
      · rename_i x7 h8
        exact Touch.refl _ _
    · exact Touch.refl _ _
  · exact Touch.refl _ _

theorem execSnapshotAbandon_touch {d : Nat} {s : State} : TouchOut 5992156713056701964635107814137924831871926429737576 s (execSnapshotAbandon d s) := by
  unfold execSnapshotAbandon
  refine TouchOut.step (whenOn_touch rfl (fun x0 => ?_)) (Within.refl _) ?_
  · refine Touch.step (withDom_touch rfl (fun x1 x2 => ?_)) (Within.refl _) ?_
    · split
      · rename_i x3 x4 x5 h6
        refine Touch.ite ?_ ?_
        · refine Touch.step (abandonSnapshot_touch ..) rfl ?_
          exact Touch.refl _ _
        · exact Touch.refl _ _
      · rename_i x7 h8
        exact Touch.refl _ _
    · exact Touch.refl _ _
  · exact Touch.refl _ _

theorem execCopierSendGrain_touch {d : Nat} {s : State} : TouchOut 4740813226943489376256 s (execCopierSendGrain d s) := by
  unfold execCopierSendGrain
  refine TouchOut.step (whenEngine_touch rfl (fun x0 => ?_)) (Within.refl _) ?_
  · refine Touch.step (copierSend_touch ..) rfl ?_
    exact Touch.refl _ _
  · exact Touch.refl _ _

theorem execGrain_touch {m : Msg} {s : State} : TouchOut 5992156713056701964635107814137924831871926429737576 s (execGrain m s) := by
  unfold execGrain
  refine TouchOut.step (whenEngine_touch rfl (fun x0 => ?_)) (Within.refl _) ?_
  · refine Touch.step (recvGrain_touch ..) rfl ?_
    exact Touch.refl _ _
  · exact Touch.refl _ _

theorem execGrainAckBatch_touch {d : Nat} {s : State} : TouchOut 134610944 s (execGrainAckBatch d s) := by
  unfold execGrainAckBatch
  refine TouchOut.step (whenEngine_touch rfl (fun x0 => ?_)) (Within.refl _) ?_
  · refine Touch.step (ackBatch_touch ..) rfl ?_
    exact Touch.refl _ _
  · exact Touch.refl _ _

theorem execGrainAck_touch {m : Msg} {s : State} : TouchOut 1143698132570126860296 s (execGrainAck m s) := by
  unfold execGrainAck
  refine TouchOut.step (whenEngine_touch rfl (fun x0 => ?_)) (Within.refl _) ?_
  · refine Touch.step (receive_touch rfl (fun x1 x2 => ?_)) (Within.refl _) ?_
    · split
      · rename_i x3 x4 h5
        refine Touch.ite ?_ ?_
        · refine Touch.foldl ?_ (fun x6 x7 h8 => ?_)
          · exact Touch.refl _ _
          · refine Touch.step (ackGrain_touch ..) rfl ?_
            exact h8
        · exact Touch.refl _ _
      · rename_i x9 h10
        exact Touch.refl _ _
    · exact Touch.refl _ _
  · exact Touch.refl _ _

theorem execGrainNak_touch {m : Msg} {s : State} : TouchOut 5992156713056701964635107814140286015113361252344424 s (execGrainNak m s) := by
  unfold execGrainNak
  refine TouchOut.step (whenEngine_touch rfl (fun x0 => ?_)) (Within.refl _) ?_
  · refine Touch.step (receive_touch rfl (fun x1 x2 => ?_)) (Within.refl _) ?_
    · split
      · rename_i x3 x4 h5
        refine Touch.ite ?_ ?_
        · refine Touch.foldl ?_ (fun x6 x7 h8 => ?_)
          · exact Touch.refl _ _
          · refine Touch.step (nakGrain_touch ..) rfl ?_
            exact h8
        · exact Touch.refl _ _
      · rename_i x9 h10
        exact Touch.refl _ _
    · exact Touch.refl _ _
  · exact Touch.refl _ _

theorem execSealMsg_touch {m : Msg} {s : State} : TouchOut 5992156713056701964635107814137924831871926429737576 s (execSealMsg m s) := by
  unfold execSealMsg
  refine TouchOut.step (whenEngine_touch rfl (fun x0 => ?_)) (Within.refl _) ?_
  · refine Touch.step (receive_touch rfl (fun x1 x2 => ?_)) (Within.refl _) ?_
    · split
      · rename_i x3 x4 h5
        refine Touch.ite ?_ ?_
        · refine Touch.step (compareSeal_touch ..) rfl ?_
          refine Touch.step (setDom_touch ..) rfl ?_
          exact Touch.refl _ _
        · exact Touch.refl _ _
      · rename_i x6 h7
        exact Touch.refl _ _
    · exact Touch.refl _ _
  · exact Touch.refl _ _

theorem execHeld_touch {m : Msg} {s : State} : TouchOut 5992156713056701964635107814137924831871926429737576 s (execHeld m s) := by
  unfold execHeld
  refine TouchOut.step (whenEngine_touch rfl (fun x0 => ?_)) (Within.refl _) ?_
  · refine Touch.step (receive_touch rfl (fun x1 x2 => ?_)) (Within.refl _) ?_
    · refine Touch.step (atCoord_touch rfl (fun x3 => ?_)) (Within.refl _) ?_
      · refine Touch.step (heldAt_touch ..) rfl ?_
        exact Touch.refl _ _
      · exact Touch.refl _ _
    · exact Touch.refl _ _
  · exact Touch.refl _ _

theorem execAbandon_touch {m : Msg} {s : State} : TouchOut 5992156713056701964635107814137924831871926429737576 s (execAbandon m s) := by
  unfold execAbandon
  refine TouchOut.step (whenEngine_touch rfl (fun x0 => ?_)) (Within.refl _) ?_
  · refine Touch.step (receive_touch rfl (fun x1 x2 => ?_)) (Within.refl _) ?_
    · refine Touch.step (atCoord_touch rfl (fun x3 => ?_)) (Within.refl _) ?_
      · refine Touch.step (abandonAt_touch ..) rfl ?_
        exact Touch.refl _ _
      · exact Touch.refl _ _
    · exact Touch.refl _ _
  · exact Touch.refl _ _

theorem execDecideMsg_touch {m : Msg} {s : State} : TouchOut 134610944 s (execDecideMsg m s) := by
  unfold execDecideMsg
  refine TouchOut.step (whenEngine_touch rfl (fun x0 => ?_)) (Within.refl _) ?_
  · refine Touch.step (receive_touch rfl (fun x1 x2 => ?_)) (Within.refl _) ?_
    · extract_lets -merge +onlyGivenNames x3
      clear_value x3
      extract_lets -merge +onlyGivenNames x4
      have h5 : Touch 134610944 x2 x4 := by
        unfold x4
        refine Touch.step (setDom_touch ..) rfl ?_
        exact Touch.refl _ _
      clear_value x4
      refine Touch.step (sendMsg_touch ..) rfl ?_
      exact h5
    · exact Touch.refl _ _
  · exact Touch.refl _ _

theorem execDecideAck_touch {m : Msg} {s : State} : TouchOut 5992156713056701964635107814137924831871926429737576 s (execDecideAck m s) := by
  unfold execDecideAck
  refine TouchOut.step (whenEngine_touch rfl (fun x0 => ?_)) (Within.refl _) ?_
  · refine Touch.step (receive_touch rfl (fun x1 x2 => ?_)) (Within.refl _) ?_
    · split
      · rename_i x3 x4 h5
        refine Touch.ite ?_ ?_
        · refine Touch.step (resolve_touch ..) rfl ?_
          exact Touch.refl _ _
        · exact Touch.refl _ _
      · rename_i x6 h7
        exact Touch.refl _ _
    · exact Touch.refl _ _
  · exact Touch.refl _ _

theorem execDecideResend_touch {d : Nat} {s : State} : TouchOut 134479872 s (execDecideResend d s) := by
  unfold execDecideResend
  refine TouchOut.step (whenEngine_touch rfl (fun x0 => ?_)) (Within.refl _) ?_
  · refine Touch.step (withDom_touch rfl (fun x1 x2 => ?_)) (Within.refl _) ?_
    · split
      · rename_i x3 x4 h5
        split
        · rename_i x6 x7 x8 h9
          refine Touch.ite ?_ ?_
          · refine Touch.step (sendMsg_touch ..) rfl ?_
            exact Touch.refl _ _
          · exact Touch.refl _ _
        · rename_i x10 h11
          exact Touch.refl _ _
      · rename_i x12 h13
        exact Touch.refl _ _
    · exact Touch.refl _ _
  · exact Touch.refl _ _

theorem execCommitDeadline_touch {d : Nat} {s : State} : TouchOut 5992156713056701964635107814137924831871926429739624 s (execCommitDeadline d s) := by
  unfold execCommitDeadline
  refine TouchOut.step (whenEngine_touch rfl (fun x0 => ?_)) (Within.refl _) ?_
  · refine Touch.step (withDom_touch rfl (fun x1 x2 => ?_)) (Within.refl _) ?_
    · split
      · rename_i x3 x4 h5
        split
        · rename_i x6 x7 x8 h9 h10
          refine Touch.step (decideSnap_touch ..) rfl ?_
          refine Touch.step (ftReach_touch ..) rfl ?_
          exact Touch.refl _ _
        · rename_i x11 x12 h13
          exact Touch.refl _ _
      · rename_i x14 h15
        exact Touch.refl _ _
    · exact Touch.refl _ _
  · exact Touch.refl _ _

theorem execCommit_touch {m : Msg} {s : State} : TouchOut 1164450719653050106376 s (execCommit m s) := by
  unfold execCommit
  refine TouchOut.step (whenEngine_touch rfl (fun x0 => ?_)) (Within.refl _) ?_
  · refine Touch.step (receive_touch rfl (fun x1 x2 => ?_)) (Within.refl _) ?_
    · refine Touch.step (spread_touch rfl (fun x3 => ?_)) (Within.refl _) ?_
      · refine Touch.step (applyCommit_touch ..) rfl ?_
        exact Touch.refl _ _
      · exact Touch.refl _ _
    · exact Touch.refl _ _
  · exact Touch.refl _ _

theorem execAbortMsg_touch {m : Msg} {s : State} : TouchOut 5992156713056701964635107814137922526028917216043624 s (execAbortMsg m s) := by
  unfold execAbortMsg
  refine TouchOut.step (whenEngine_touch rfl (fun x0 => ?_)) (Within.refl _) ?_
  · refine Touch.step (receive_touch rfl (fun x1 x2 => ?_)) (Within.refl _) ?_
    · refine Touch.step (spread_touch rfl (fun x3 => ?_)) (Within.refl _) ?_
      · refine Touch.step (applyAbort_touch ..) rfl ?_
        exact Touch.refl _ _
      · exact Touch.refl _ _
    · exact Touch.refl _ _
  · exact Touch.refl _ _

theorem execRepairReq_touch {m : Msg} {s : State} : TouchOut 393216 s (execRepairReq m s) := by
  unfold execRepairReq
  refine TouchOut.step (whenEngine_touch rfl (fun x0 => ?_)) (Within.refl _) ?_
  · refine Touch.step (receive_touch rfl (fun x1 x2 => ?_)) (Within.refl _) ?_
    · extract_lets -merge +onlyGivenNames x3
      clear_value x3
      extract_lets -merge +onlyGivenNames x4
      clear_value x4
      extract_lets -merge +onlyGivenNames x5
      clear_value x5
      refine Touch.ite ?_ ?_
      · refine Touch.step (setGrain_touch ..) rfl ?_
        exact Touch.refl _ _
      · exact Touch.refl _ _
    · exact Touch.refl _ _
  · exact Touch.refl _ _

theorem execBuddyCrcScrub_touch {d : Nat} {region : Nat} {grain : Nat} {s : State} : TouchOut 5992156713056701964635107814136760380589323560820832 s (execBuddyCrcScrub d region grain s) := by
  unfold execBuddyCrcScrub
  refine TouchOut.step (whenEngine_touch rfl (fun x0 => ?_)) (Within.refl _) ?_
  · refine Touch.step (scrubBuddy_touch ..) rfl ?_
    exact Touch.refl _ _
  · exact Touch.refl _ _

theorem execDeepWriteDone_touch {d : Nat} {ok : Bool} {s : State} : TouchOut 5992156713056701964635107814136788050705434393632872 s (execDeepWriteDone d ok s) := by
  unfold execDeepWriteDone
  refine TouchOut.step (whenEngine_touch rfl (fun x0 => ?_)) (Within.refl _) ?_
  · refine Touch.step (deepWriteEnd_touch ..) rfl ?_
    exact Touch.refl _ _
  · exact Touch.refl _ _

theorem execDeepDone_touch {m : Msg} {s : State} : TouchOut 5992156713056701964635107814136788050705434125148256 s (execDeepDone m s) := by
  unfold execDeepDone
  refine TouchOut.step (whenEngine_touch rfl (fun x0 => ?_)) (Within.refl _) ?_
  · refine Touch.step (receive_touch rfl (fun x1 x2 => ?_)) (Within.refl _) ?_
    · extract_lets -merge +onlyGivenNames x3
      clear_value x3
      refine Touch.ite ?_ ?_
      · refine Touch.step (spread_touch rfl (fun x4 => ?_)) (Within.refl _) ?_
        · refine Touch.step (setReg_touch ..) rfl ?_
          exact Touch.refl _ _
        · exact Touch.refl _ _
      · refine Touch.step (atCoord_touch rfl (fun x5 => ?_)) (Within.refl _) ?_
        · refine Touch.step (deepDoneAt_touch ..) rfl ?_
          exact Touch.refl _ _
        · exact Touch.refl _ _
    · exact Touch.refl _ _
  · exact Touch.refl _ _

theorem execDeepTimeout_touch {d : Nat} {s : State} : TouchOut 5992156713056701964635107814136778827333397270372448 s (execDeepTimeout d s) := by
  unfold execDeepTimeout
  refine TouchOut.step (whenEngine_touch rfl (fun x0 => ?_)) (Within.refl _) ?_
  · refine Touch.step (withDom_touch rfl (fun x1 x2 => ?_)) (Within.refl _) ?_
    · refine Touch.step (deepCancelAll_touch ..) rfl ?_
      exact Touch.refl _ _
    · exact Touch.refl _ _
  · exact Touch.refl _ _

theorem execDeepCancel_touch {m : Msg} {s : State} : TouchOut 18446744073844162560 s (execDeepCancel m s) := by
  unfold execDeepCancel
  refine TouchOut.step (whenEngine_touch rfl (fun x0 => ?_)) (Within.refl _) ?_
  · refine Touch.step (receive_touch rfl (fun x1 x2 => ?_)) (Within.refl _) ?_
    · refine Touch.step (spread_touch rfl (fun x3 => ?_)) (Within.refl _) ?_
      · refine Touch.step (deepStop_touch ..) rfl ?_
        exact Touch.refl _ _
      · exact Touch.refl _ _
    · exact Touch.refl _ _
  · exact Touch.refl _ _

theorem execRelayFallback_touch {a0 : Nat} {a1 : Nat} {s : State} : TouchOut 262144 s (execRelayFallback a0 a1 s) := by
  unfold execRelayFallback
  refine TouchOut.step (whenOn_touch rfl (fun x0 => ?_)) (Within.refl _) ?_
  · refine Touch.step (t := x0) (Touch.upd (F := 262144) rfl (Or.inr rfl)) rfl ?_
    exact Touch.refl _ _
  · exact Touch.refl _ _

end Sys2Proof.Machine
end

