-- ==== Sys2Proof/Laws/TouchArray.lean ====
section
/-! SUPPORT. What each function of the model may touch (Laws/Touch.lean): the array: matrix engines, DMA, work rings, samples and remaps. One lemma for each function; the footprint is the union of what its body writes. -/

namespace Sys2Proof.Machine

open Sys2Proof

theorem setPart_touch {s : State} {p : Nat} {P : Partition} : Touch 65536 s (State.setPart s p P) := by
  unfold State.setPart
  refine Touch.step (t := s) (Touch.upd (F := 65536) rfl (Or.inr rfl)) rfl ?_
  exact Touch.refl _ _

theorem eccReport_touch {cl : Nat} {word : Nat} {s : State} : Touch 5992159567552087376554869930708699279579596191703648 s (eccReport cl word s) := by
  unfold eccReport
  extract_lets -merge +onlyGivenNames x0
  clear_value x0
  extract_lets -merge +onlyGivenNames x1
  clear_value x1
  extract_lets -merge +onlyGivenNames x2
  have h3 : Touch 5992159567552087376554869930708699279579596191703648 s x2 := by
    unfold x2
    refine Touch.step (log_touch ..) rfl ?_
    exact Touch.refl _ _
  clear_value x2
  refine Touch.ite ?_ ?_
  · refine Touch.step (eicEvent_touch ..) rfl ?_
    exact h3
  · refine Touch.ite ?_ ?_
    · refine Touch.step (eicEvent_touch ..) rfl ?_
      exact h3
    · refine Touch.ite ?_ ?_
      · refine Touch.step (eicEvent_touch ..) rfl ?_
        exact h3
      · exact h3

theorem resetLocal_touch {id : Nat} {s : State} : Touch 24519928653854221733733552434404946937899825950642667520 s (resetLocal id s) := by
  unfold resetLocal
  refine Touch.step (t := s) (Touch.upd (F := 24519928653854221733733552434404946937899825950642667520) rfl (Or.inr rfl)) rfl ?_
  exact Touch.refl _ _

theorem resetCore_touch {id : Nat} {s : State} : Touch 24519928653854221733733552434404946937899825950642683904 s (resetCore id s) := by
  unfold resetCore
  refine Touch.step (resetLocal_touch ..) rfl ?_
  refine Touch.step (setCore_touch ..) rfl ?_
  exact Touch.refl _ _

theorem setItem_touch {s : State} {i : Nat} {w : WorkItem} : Touch 65536 s (State.setItem s i w) := by
  unfold State.setItem
  refine Touch.step (t := s) (Touch.upd (F := 65536) rfl (Or.inr rfl)) rfl ?_
  exact Touch.refl _ _

theorem finishItem_touch {i : Nat} {st : Status} {field : Nat} {who : Nat} {s : State} : Touch 65536 s (finishItem i st field who s) := by
  unfold finishItem
  split
  · rename_i x0 x1 h2
    refine Touch.step (setItem_touch ..) rfl ?_
    exact Touch.refl _ _
  · rename_i x3 h4
    exact Touch.refl _ _

theorem emptyPort_touch {id : Nat} {s : State} : Touch 24519928653854221733733552434404946937899825950642683904 s (emptyPort id s) := by
  unfold emptyPort
  extract_lets -merge +onlyGivenNames x0
  have h1 : Touch 24519928653854221733733552434404946937899825950642683904 s x0 := by
    unfold x0
    refine Touch.step (t := s) (Touch.upd (F := 24519928653854221733733552434404946937899825950642667520) rfl (Or.inr rfl)) rfl ?_
    exact Touch.refl _ _
  clear_value x0
  refine Touch.step (modCore_touch ..) rfl ?_
  exact h1

theorem dmaDrop_touch {cores : List Nat} {s : State} : Touch 32768 s (dmaDrop cores s) := by
  unfold dmaDrop
  refine Touch.step (t := s) (Touch.upd (F := 32768) rfl (Or.inr rfl)) rfl ?_
  exact Touch.refl _ _

theorem dropLoads_touch {cores : List Nat} {s : State} : Touch 524288 s (dropLoads cores s) := by
  unfold dropLoads
  refine Touch.step (t := s) (Touch.upd (F := 524288) rfl (Or.inr rfl)) rfl ?_
  exact Touch.refl _ _

theorem abortKernel_touch {item : Nat} {st : Status} {who : Nat} {s : State} : Touch 24519928653854221733733552434404946937899825950643306496 s (abortKernel item st who s) := by
  unfold abortKernel
  split
  · rename_i x0 h1
    exact Touch.refl _ _
  · rename_i x2 x3 h4
    extract_lets -merge +onlyGivenNames x5
    have h6 : Touch 24519928653854221733733552434404946937899825950643306496 s x5 := by
      unfold x5
      refine Touch.foldl ?_ (fun x7 x8 h9 => ?_)
      · exact Touch.refl _ _
      · refine Touch.step (emptyPort_touch ..) rfl ?_
        refine Touch.step (modCore_touch ..) rfl ?_
        exact h9
    clear_value x5
    extract_lets -merge +onlyGivenNames x10
    have h11 : Touch 24519928653854221733733552434404946937899825950643306496 s x10 := by
      unfold x10
      refine Touch.step (dropLoads_touch ..) rfl ?_
      refine Touch.step (dmaDrop_touch ..) rfl ?_
      exact h6
    clear_value x10
    extract_lets -merge +onlyGivenNames x12
    subst x12
    extract_lets -merge +onlyGivenNames x13
    have h14 : Touch 24519928653854221733733552434404946937899825950643306496 s x13 := by
      unfold x13
      refine Touch.step (t := x10) (Touch.upd (F := 65536) rfl (Or.inr rfl)) rfl ?_
      exact h11
    clear_value x13
    refine Touch.step (finishItem_touch ..) rfl ?_
    exact h14

theorem excEnter_touch {id : Nat} {code : Nat} {sub : Nat} {a3 : Word} {epc : Word} {s : State} : Touch 24519928653854221733733552434404946937899825950643306496 s (excEnter id code sub a3 epc s) := by
  unfold excEnter
  extract_lets -merge +onlyGivenNames x0
  clear_value x0
  refine Touch.ite ?_ ?_
  · extract_lets -merge +onlyGivenNames x1
    have h2 : Touch 24519928653854221733733552434404946937899825950643306496 s x1 := by
      unfold x1
      refine Touch.step (setCore_touch ..) rfl ?_
      exact Touch.refl _ _
    clear_value x1
    split
    · rename_i x3 x4 x5 h6
      refine Touch.step (abortKernel_touch ..) rfl ?_
      exact h2
    · rename_i x7 h8
      exact h2
  · refine Touch.step (setCore_touch ..) rfl ?_
    exact Touch.refl _ _

theorem regPut_touch {r : Reg} {a1 : Bool} {v : Nat} {s : State} : Touch 24519928653854221733733552434404946937899825950642667520 s (regPut r a1 v s) := by
  unfold regPut
  extract_lets -merge +onlyGivenNames x0
  clear_value x0
  extract_lets -merge +onlyGivenNames x1
  clear_value x1
  extract_lets -merge +onlyGivenNames x2
  clear_value x2
  refine Touch.ite ?_ ?_
  · refine Touch.ite ?_ ?_
    · exact Touch.refl _ _
    · refine Touch.step (setReg_touch ..) (.trans (regFoot_within _) rfl) ?_
      exact Touch.refl _ _
  · extract_lets -merge +onlyGivenNames x3
    clear_value x3
    refine Touch.step (setReg_touch ..) (.trans (regFoot_within _) rfl) ?_
    exact Touch.refl _ _

theorem setChan_touch {s : State} {cl : Nat} {ch : Nat} {c : DmaChannel} : Touch 32768 s (State.setChan s cl ch c) := by
  unfold State.setChan
  refine Touch.step (t := s) (Touch.upd (F := 32768) rfl (Or.inr rfl)) rfl ?_
  exact Touch.refl _ _

theorem reachWrite_touch {id : Nat} {n : Nat} {v : Nat} {s : State} : Touch 4398046511104 s (reachWrite id n v s) := by
  unfold reachWrite
  extract_lets -merge +onlyGivenNames x0
  clear_value x0
  extract_lets -merge +onlyGivenNames x1
  have h2 : Touch 4398046511104 s x1 := by
    unfold x1
    refine Touch.step (setReg_touch ..) rfl ?_
    exact Touch.refl _ _
  clear_value x1
  refine Touch.ite ?_ ?_
  · refine Touch.step (setFld_touch ..) rfl ?_
    exact h2
  · refine Touch.step (setFld_touch ..) rfl ?_
    refine Touch.step (setFld_touch ..) rfl ?_
    exact h2

theorem dmaSubmit_touch {id : Nat} {v : Nat} {s : State} : TouchO 17592186077184 s (dmaSubmit id v s) := by
  unfold dmaSubmit
  refine TouchO.ite ?_ ?_
  · refine TouchO.some' ?_
    exact Touch.refl _ _
  · extract_lets -merge +onlyGivenNames x0
    clear_value x0
    extract_lets -merge +onlyGivenNames x1
    clear_value x1
    refine TouchO.ite ?_ ?_
    · exact TouchO.none' _ _
    · extract_lets -merge +onlyGivenNames x2
      clear_value x2
      extract_lets -merge +onlyGivenNames x3
      have h4 : Touch 17592186077184 s x3 := by
        unfold x3
        refine Touch.step (setChan_touch ..) rfl ?_
        exact Touch.refl _ _
      clear_value x3
      refine TouchO.some' ?_
      refine Touch.step (bump_touch ..) rfl ?_
      exact h4

theorem meSubmit_touch {id : Nat} {s : State} : TouchO 16384 s (meSubmit id s) := by
  unfold meSubmit
  extract_lets -merge +onlyGivenNames x0
  clear_value x0
  refine TouchO.ite ?_ ?_
  · exact TouchO.none' _ _
  · extract_lets -merge +onlyGivenNames x1
    clear_value x1
    refine TouchO.some' ?_
    refine Touch.step (setCore_touch ..) rfl ?_
    exact Touch.refl _ _

theorem mePop_touch {id : Nat} {s : State} : Touch 16384 s (mePop id s) := by
  unfold mePop
  refine Touch.step (modCore_touch ..) rfl ?_
  exact Touch.refl _ _

theorem kernelEnd_touch {id : Nat} {code : Nat} {s : State} : Touch 17179951104 s (kernelEnd id code s) := by
  unfold kernelEnd
  split
  · rename_i x0 x1 x2 h3
    refine Touch.ite ?_ ?_
    · refine Touch.step (ignored_touch ..) rfl ?_
      exact Touch.refl _ _
    · extract_lets -merge +onlyGivenNames x4
      subst x4
      extract_lets -merge +onlyGivenNames x5
      have h6 : Touch 17179951104 s x5 := by
        unfold x5
        refine Touch.step (t := s) (Touch.upd (F := 65536) rfl (Or.inr rfl)) rfl ?_
        exact Touch.refl _ _
      clear_value x5
      refine Touch.step (modCore_touch ..) rfl ?_
      exact h6
  · rename_i x7 h8
    refine Touch.step (ignored_touch ..) rfl ?_
    exact Touch.refl _ _

theorem traceStore_touch {id : Nat} {v : Nat} {s : State} : Touch 7488734389683546552875681082838234192716998618652736 s (traceStore id v s) := by
  unfold traceStore
  split
  · rename_i x0 x1 x2 h3
    have h4 : Touch 7488734389683546552875681082838234192716998618652736 s x2 := by
      refine TouchP.eq ?_ h3
      refine TouchP.step (draw_touch ..) rfl ?_
      exact Touch.refl _ _
    extract_lets -merge +onlyGivenNames x5
    clear_value x5
    extract_lets -merge +onlyGivenNames x6
    clear_value x6
    refine Touch.step (sieveRecord_touch ..) rfl ?_
    exact h4

theorem whenArray_touch {s : State} {f : State → State} {F : Nat} (hF : Within 0 F) (hf : ∀ (y0 : State), Touch F y0 (f y0)) : TouchOut F s (whenArray s f) := by
  unfold whenArray
  refine TouchOut.step (whenOn_touch (.trans rfl hF) (fun x0 => ?_)) (Within.refl _) ?_
  · refine Touch.ite ?_ ?_
    · exact Touch.refl _ _
    · refine Touch.step (hf ..) (Within.refl _) ?_
      exact Touch.refl _ _
  · exact Touch.refl _ _

theorem correctedError_touch {id : Nat} {s : State} : Touch 5992156713056701964635107814136760380589323426242656 s (correctedError id s) := by
  unfold correctedError
  extract_lets -merge +onlyGivenNames x0
  extract_lets -merge +onlyGivenNames x1
  extract_lets -merge +onlyGivenNames x2
  extract_lets -merge +onlyGivenNames x3
  subst x3
  extract_lets -merge +onlyGivenNames x4
  have h5 : Touch 5992156713056701964635107814136760380589323426242656 s x4 := by
    unfold x4
    refine Touch.step (t := s) (Touch.upd (F := 32768) rfl (Or.inr rfl)) rfl ?_
    exact Touch.refl _ _
  refine Touch.ite ?_ ?_
  · refine Touch.ite ?_ ?_
    · refine Touch.step (t := x4) (Touch.upd (F := 32768) rfl (Or.inr rfl)) rfl ?_
      exact h5
    · refine Touch.step (log_touch ..) rfl ?_
      exact h5
  · exact h5

theorem execTnsReachWrite_touch {core : Nat} {n : BitVec 4} {v : Word} {s : State} : TouchOut 4398046511104 s (execTnsReachWrite core n v s) := by
  unfold execTnsReachWrite
  refine TouchOut.ite ?_ ?_
  · exact TouchOut.fault _ _ _
  · refine TouchOut.step (whenArray_touch rfl (fun x0 => ?_)) (Within.refl _) ?_
    · refine Touch.ite ?_ ?_
      · exact Touch.refl _ _
      · refine Touch.step (reachWrite_touch ..) rfl ?_
        exact Touch.refl _ _
    · exact Touch.refl _ _

theorem execRouteHopTimeout_touch {link : Nat} {who : Agent} {channel : Nat} {s : State} : TouchOut 24519928653854221733733552434404946937899825950643315296 s (execRouteHopTimeout link who channel s) := by
  unfold execRouteHopTimeout
  refine TouchOut.step (whenOn_touch rfl (fun x0 => ?_)) (Within.refl _) ?_
  · extract_lets -merge +onlyGivenNames x1
    clear_value x1
    extract_lets -merge +onlyGivenNames x2
    subst x2
    extract_lets -merge +onlyGivenNames x3
    have h4 : Touch 24519928653854221733733552434404946937899825950643315296 x0 x3 := by
      unfold x3
      refine Touch.step (t := x0) (Touch.upd (F := 32768) rfl (Or.inr rfl)) rfl ?_
      exact Touch.refl _ _
    clear_value x3
    extract_lets -merge +onlyGivenNames x5
    subst x5
    extract_lets -merge +onlyGivenNames x6
    have h7 : Touch 24519928653854221733733552434404946937899825950643315296 x0 x6 := by
      unfold x6
      refine Touch.ite ?_ ?_
      · refine Touch.step (log_touch ..) rfl ?_
        refine Touch.step (t := x3) (Touch.upd (F := 32768) rfl (Or.inr rfl)) rfl ?_
        exact h4
      · exact h4
    clear_value x6
    split
    · rename_i x8 x9
      extract_lets -merge +onlyGivenNames x10
      clear_value x10
      split
      · rename_i x11 x12 x13 h14
        refine Touch.ite ?_ ?_
        · refine Touch.step (eicEvent_touch ..) rfl ?_
          refine Touch.step (setChan_touch ..) rfl ?_
          exact h7
        · exact h7
      · rename_i x15 h16
        exact h7
    · rename_i x17 x18
      extract_lets -merge +onlyGivenNames x19
      clear_value x19
      split
      · rename_i x20 h21
        refine Touch.step (eicEvent_touch ..) rfl ?_
        refine Touch.step (excEnter_touch ..) rfl ?_
        exact h7
      · rename_i x22 x23 x24 h25
        refine Touch.step (eicEvent_touch ..) rfl ?_
        refine Touch.step (excEnter_touch ..) rfl ?_
        exact h7
      · rename_i x26 h27 h28
        exact h7
    · rename_i x29 h30 h31
      exact h7
  · exact Touch.refl _ _

theorem execTnsMeSubmit_touch {a0 : Agent} {core : Nat} {s : State} : TouchOut 17179885568 s (execTnsMeSubmit a0 core s) := by
  unfold execTnsMeSubmit
  refine TouchOut.ite ?_ ?_
  · exact TouchOut.fault _ _ _
  · refine TouchOut.step (whenArray_touch rfl (fun x0 => ?_)) (Within.refl _) ?_
    · split
      · rename_i x1 x2 h3
        have h4 : Touch 17179885568 x0 x2 := by
          refine TouchO.eq ?_ h3
          refine TouchO.step (meSubmit_touch) rfl ?_
          exact Touch.refl _ _
        exact h4
      · rename_i x5 h6
        refine Touch.step (ignored_touch ..) rfl ?_
        exact Touch.refl _ _
    · exact Touch.refl _ _

theorem execTnsMePop_touch {a0 : Agent} {core : Nat} {s : State} : TouchOut 16384 s (execTnsMePop a0 core s) := by
  unfold execTnsMePop
  refine TouchOut.ite ?_ ?_
  · exact TouchOut.fault _ _ _
  · refine TouchOut.step (whenArray_touch rfl (fun x0 => ?_)) (Within.refl _) ?_
    · refine Touch.step (mePop_touch ..) rfl ?_
      exact Touch.refl _ _
    · exact Touch.refl _ _

theorem execTnsDmaSubmit_touch {core : Nat} {v : Word} {s : State} : TouchOut 17592186077184 s (execTnsDmaSubmit core v s) := by
  unfold execTnsDmaSubmit
  refine TouchOut.ite ?_ ?_
  · exact TouchOut.fault _ _ _
  · refine TouchOut.step (whenArray_touch rfl (fun x0 => ?_)) (Within.refl _) ?_
    · refine TouchO.getD ?_ ?_
      · refine TouchO.step (dmaSubmit_touch) rfl ?_
        exact Touch.refl _ _
      · exact Touch.refl _ _
    · exact Touch.refl _ _

theorem srSeedLoad_touch {core : Nat} {a1 : Nat} {s : State} : Touch 70368744194048 s (srSeedLoad core a1 s) := by
  unfold srSeedLoad
  refine Touch.step (modCore_touch ..) rfl ?_
  refine Touch.step (setReg_touch ..) rfl ?_
  exact Touch.refl _ _

theorem execSrSeedLoad_touch {core : Nat} {a1 : Word} {s : State} : TouchOut 70368744194048 s (execSrSeedLoad core a1 s) := by
  unfold execSrSeedLoad
  refine TouchOut.ite ?_ ?_
  · exact TouchOut.fault _ _ _
  · refine TouchOut.step (whenArray_touch rfl (fun x0 => ?_)) (Within.refl _) ?_
    · refine Touch.step (srSeedLoad_touch ..) rfl ?_
      exact Touch.refl _ _
    · exact Touch.refl _ _

theorem meStore_touch {id : Nat} {a : List (Nat × List Byte)} {s : State} : TouchP 5992159567552087376554869930709252681901807612650088 s (meStore id a s) := by
  induction a generalizing s
  · rw [meStore]
    refine TouchP.mk' ?_
    exact Touch.refl _ _
  · rename_i w0 w1 ih
    rw [meStore]
    split
    · rename_i x0 x1 h2
      refine TouchP.mk' ?_
      refine Touch.step (eccReport_touch ..) rfl ?_
      exact Touch.refl _ _
    · rename_i x3 h4
      refine TouchP.step (ih ..) (Within.refl _) ?_
      refine Touch.step (memStore_touch ..) rfl ?_
      exact Touch.refl _ _

theorem meRun_touch {id : Nat} {s : State} : Touch 29937402393581600788404042229932833675944606396768872 s (meRun id s) := by
  unfold meRun
  extract_lets -merge +onlyGivenNames x0
  clear_value x0
  split
  · rename_i x1 h2
    exact Touch.refl _ _
  · rename_i x3 x4 x5 h6
    extract_lets -merge +onlyGivenNames x7
    clear_value x7
    extract_lets -merge +onlyGivenNames x8
    clear_value x8
    extract_lets -merge +onlyGivenNames x9
    subst x9
    extract_lets -merge +onlyGivenNames x10
    split
    · rename_i x11 x12 x13 x14 h15
      split
      · rename_i x16 x17 x18
        beta_reduce
        refine Touch.step (modCore_touch ..) rfl ?_
        exact Touch.refl _ _
      · rename_i x19
        extract_lets -merge +onlyGivenNames x20
        clear_value x20
        split
        · rename_i x21 x22 h23
          beta_reduce
          refine Touch.step (modCore_touch ..) rfl ?_
          refine Touch.step (eccReport_touch ..) rfl ?_
          exact Touch.refl _ _
        · rename_i x24 h25
          extract_lets -merge +onlyGivenNames x26
          clear_value x26
          extract_lets -merge +onlyGivenNames x27
          clear_value x27
          split
          · rename_i x28 x29 x30 h31
            have h32 : Touch 29937402393581600788404042229932833675944606396768872 s x30 := by
              refine TouchP.eq ?_ h31
              refine TouchP.step (meStore_touch ..) rfl ?_
              exact Touch.refl _ _
            extract_lets -merge +onlyGivenNames x33
            have h34 : Touch 29937402393581600788404042229932833675944606396768872 s x33 := by
              unfold x33
              refine Touch.ite ?_ ?_
              · refine Touch.step (pmcAdd_touch ..) rfl ?_
                exact h32
              · refine Touch.step (pmcAdd_touch ..) rfl ?_
                exact h32
            clear_value x33
            beta_reduce
            refine Touch.step (modCore_touch ..) rfl ?_
            exact h34

theorem laneRow_touch {id : Nat} {op : Nat} {s : State} : TouchOut 29937402393581600788404042229932833675944606396768872 s (laneRow id op s) := by
  unfold laneRow
  refine TouchOut.ite ?_ ?_
  · exact TouchOut.fault _ _ _
  · refine TouchOut.step (whenArray_touch rfl (fun x0 => ?_)) (Within.refl _) ?_
    · refine Touch.ite ?_ ?_
      · refine Touch.step (meRun_touch ..) rfl ?_
        exact Touch.refl _ _
      · exact Touch.refl _ _
    · exact Touch.refl _ _

theorem execMeTileOp_touch {id : Nat} {s : State} : TouchOut 29937402393581600788404042229932833675944606396768872 s (execMeTileOp id s) := by
  unfold execMeTileOp
  refine TouchOut.ite ?_ ?_
  · exact TouchOut.fault _ _ _
  · refine TouchOut.step (whenArray_touch rfl (fun x0 => ?_)) (Within.refl _) ?_
    · split
      · rename_i x1 x2 x3 h4
        refine Touch.ite ?_ ?_
        · refine Touch.step (meRun_touch ..) rfl ?_
          exact Touch.refl _ _
        · exact Touch.refl _ _
      · rename_i x5 h6
        exact Touch.refl _ _
    · exact Touch.refl _ _

theorem execLaneFma_touch {id : Nat} {s : State} : TouchOut 29937402393581600788404042229932833675944606396768872 s (execLaneFma id s) := by
  unfold execLaneFma
  refine TouchOut.step (laneRow_touch) rfl ?_
  exact Touch.refl _ _

theorem execLaneAxpby_touch {id : Nat} {s : State} : TouchOut 29937402393581600788404042229932833675944606396768872 s (execLaneAxpby id s) := by
  unfold execLaneAxpby
  refine TouchOut.step (laneRow_touch) rfl ?_
  exact Touch.refl _ _

theorem execLaneScaleAdd_touch {id : Nat} {s : State} : TouchOut 29937402393581600788404042229932833675944606396768872 s (execLaneScaleAdd id s) := by
  unfold execLaneScaleAdd
  refine TouchOut.step (laneRow_touch) rfl ?_
  exact Touch.refl _ _

theorem execLaneMul_touch {id : Nat} {s : State} : TouchOut 29937402393581600788404042229932833675944606396768872 s (execLaneMul id s) := by
  unfold execLaneMul
  refine TouchOut.step (laneRow_touch) rfl ?_
  exact Touch.refl _ _

theorem execLaneMin_touch {id : Nat} {s : State} : TouchOut 29937402393581600788404042229932833675944606396768872 s (execLaneMin id s) := by
  unfold execLaneMin
  refine TouchOut.step (laneRow_touch) rfl ?_
  exact Touch.refl _ _

theorem execLaneMax_touch {id : Nat} {s : State} : TouchOut 29937402393581600788404042229932833675944606396768872 s (execLaneMax id s) := by
  unfold execLaneMax
  refine TouchOut.step (laneRow_touch) rfl ?_
  exact Touch.refl _ _

theorem execLaneAbs_touch {id : Nat} {s : State} : TouchOut 29937402393581600788404042229932833675944606396768872 s (execLaneAbs id s) := by
  unfold execLaneAbs
  refine TouchOut.step (laneRow_touch) rfl ?_
  exact Touch.refl _ _

theorem execLaneConvert_touch {id : Nat} {s : State} : TouchOut 29937402393581600788404042229932833675944606396768872 s (execLaneConvert id s) := by
  unfold execLaneConvert
  refine TouchOut.step (laneRow_touch) rfl ?_
  exact Touch.refl _ _

theorem execLaneSqrt_touch {id : Nat} {s : State} : TouchOut 29937402393581600788404042229932833675944606396768872 s (execLaneSqrt id s) := by
  unfold execLaneSqrt
  refine TouchOut.step (laneRow_touch) rfl ?_
  exact Touch.refl _ _

theorem execLaneRsqrt_touch {id : Nat} {s : State} : TouchOut 29937402393581600788404042229932833675944606396768872 s (execLaneRsqrt id s) := by
  unfold execLaneRsqrt
  refine TouchOut.step (laneRow_touch) rfl ?_
  exact Touch.refl _ _

theorem execLaneRecip_touch {id : Nat} {s : State} : TouchOut 29937402393581600788404042229932833675944606396768872 s (execLaneRecip id s) := by
  unfold execLaneRecip
  refine TouchOut.step (laneRow_touch) rfl ?_
  exact Touch.refl _ _

theorem execLaneExp_touch {id : Nat} {s : State} : TouchOut 29937402393581600788404042229932833675944606396768872 s (execLaneExp id s) := by
  unfold execLaneExp
  refine TouchOut.step (laneRow_touch) rfl ?_
  exact Touch.refl _ _

theorem execLaneLog_touch {id : Nat} {s : State} : TouchOut 29937402393581600788404042229932833675944606396768872 s (execLaneLog id s) := by
  unfold execLaneLog
  refine TouchOut.step (laneRow_touch) rfl ?_
  exact Touch.refl _ _

theorem execLaneSum_touch {id : Nat} {s : State} : TouchOut 29937402393581600788404042229932833675944606396768872 s (execLaneSum id s) := by
  unfold execLaneSum
  refine TouchOut.step (laneRow_touch) rfl ?_
  exact Touch.refl _ _

theorem execLaneSumsq_touch {id : Nat} {s : State} : TouchOut 29937402393581600788404042229932833675944606396768872 s (execLaneSumsq id s) := by
  unfold execLaneSumsq
  refine TouchOut.step (laneRow_touch) rfl ?_
  exact Touch.refl _ _

theorem execLaneRmax_touch {id : Nat} {s : State} : TouchOut 29937402393581600788404042229932833675944606396768872 s (execLaneRmax id s) := by
  unfold execLaneRmax
  refine TouchOut.step (laneRow_touch) rfl ?_
  exact Touch.refl _ _

theorem execLaneArgmax_touch {id : Nat} {s : State} : TouchOut 29937402393581600788404042229932833675944606396768872 s (execLaneArgmax id s) := by
  unfold execLaneArgmax
  refine TouchOut.step (laneRow_touch) rfl ?_
  exact Touch.refl _ _

theorem execOptAdamw_touch {id : Nat} {s : State} : TouchOut 29937402393581600788404042229932833675944606396768872 s (execOptAdamw id s) := by
  unfold execOptAdamw
  refine TouchOut.step (laneRow_touch) rfl ?_
  exact Touch.refl _ _

theorem execOptSgdm_touch {id : Nat} {s : State} : TouchOut 29937402393581600788404042229932833675944606396768872 s (execOptSgdm id s) := by
  unfold execOptSgdm
  refine TouchOut.step (laneRow_touch) rfl ?_
  exact Touch.refl _ _

theorem execOptLion_touch {id : Nat} {s : State} : TouchOut 29937402393581600788404042229932833675944606396768872 s (execOptLion id s) := by
  unfold execOptLion
  refine TouchOut.step (laneRow_touch) rfl ?_
  exact Touch.refl _ _

theorem execMeCompletionPosted_touch {id : Nat} {s : State} : TouchOut 16384 s (execMeCompletionPosted id s) := by
  unfold execMeCompletionPosted
  refine TouchOut.ite ?_ ?_
  · exact TouchOut.fault _ _ _
  · refine TouchOut.step (whenArray_touch rfl (fun x0 => ?_)) (Within.refl _) ?_
    · extract_lets -merge +onlyGivenNames x1
      clear_value x1
      split
      · rename_i x2 h3
        exact Touch.refl _ _
      · rename_i x4 x5 x6 h7
        extract_lets -merge +onlyGivenNames x8
        clear_value x8
        refine Touch.step (setCore_touch ..) rfl ?_
        exact Touch.refl _ _
    · exact Touch.refl _ _

theorem issueRead_touch {l : Link} {o : Caller} {addr : Nat} {len : Nat} {use : BusUse} {s : State} : TouchOP 134742016 s (issueRead l o addr len use s) := by
  unfold issueRead
  split
  · rename_i x0 h1
    exact TouchOP.none' _ _
  · rename_i x2 x3 h4
    extract_lets -merge +onlyGivenNames x5
    clear_value x5
    refine TouchOP.some' ?_
    refine Touch.step (emit_touch ..) rfl ?_
    refine Touch.step (t := s) (Touch.upd (F := 524288) rfl (Or.inr rfl)) rfl ?_
    exact Touch.refl _ _

theorem drawList_touch {a : Nat} {s : State} : TouchP 268435456 s (drawList a s) := by
  induction a generalizing s
  · rw [drawList]
    refine TouchP.mk' ?_
    exact Touch.refl _ _
  · rename_i w0 ih
    rw [drawList]
    split
    · rename_i x0 x1 x2 h3
      have h4 : Touch 268435456 s x2 := by
        refine TouchP.eq ?_ h3
        refine TouchP.step (draw_touch ..) rfl ?_
        exact Touch.refl _ _
      split
      · rename_i x5 x6 x7 h8
        have h9 : Touch 268435456 s x7 := by
          refine TouchP.eq ?_ h8
          refine TouchP.step (ih ..) (Within.refl _) ?_
          exact h4
        refine TouchP.mk' ?_
        exact h9

theorem convertElems_touch {sel : Nat} {n : Nat} {elems : List Byte} {scales : List Byte} {s : State} : TouchR 268435456 s (convertElems sel n elems scales s) := by
  unfold convertElems
  extract_lets -merge +onlyGivenNames x0
  clear_value x0
  extract_lets -merge +onlyGivenNames x1
  clear_value x1
  extract_lets -merge +onlyGivenNames x2
  clear_value x2
  split
  · rename_i x3 x4 x5 h6
    split
    · rename_i x7 h8
      refine TouchR.mk' ?_
      exact Touch.refl _ _
    · rename_i x9 x10 h11
      split
      · rename_i x12 x13 x14 h15
        have h16 : Touch 268435456 s x14 := by
          refine TouchP.eq ?_ h15
          refine TouchP.ite ?_ ?_
          · refine TouchP.step (drawList_touch ..) rfl ?_
            exact Touch.refl _ _
          · refine TouchP.mk' ?_
            exact Touch.refl _ _
        refine TouchR.ite ?_ ?_
        · extract_lets -merge +onlyGivenNames x17
          clear_value x17
          refine TouchR.mk' ?_
          exact h16
        · extract_lets -merge +onlyGivenNames x18
          clear_value x18
          refine TouchR.mk' ?_
          exact h16

theorem dmaRows_touch {cl : Nat} {q : DmaDesc} {get : State → Nat → Nat → List Byte} {check : Bool} {a : Nat} {a5 : Nat} {a6 : Nat} {s : State} : TouchQ 5992159567552087376554869930709252681901807881085544 s (dmaRows cl q get check a a5 a6 s) := by
  induction a generalizing a5 a6 s
  · rw [dmaRows]
    refine TouchQ.mk' ?_
    exact Touch.refl _ _
  · rename_i w0 ih
    rw [dmaRows]
    split
    · rename_i x0 x1 x2 h3
      have h4 : Touch 5992159567552087376554869930709252681901807881085544 s x2 := by
        refine TouchP.eq ?_ h3
        refine TouchP.ite ?_ ?_
        · refine TouchP.mk' ?_
          exact Touch.refl _ _
        · refine TouchP.ite ?_ ?_
          · refine TouchP.ite ?_ ?_
            · refine TouchP.mk' ?_
              exact Touch.refl _ _
            · extract_lets -merge +onlyGivenNames x5
              clear_value x5
              split
              · rename_i x6 x7 x8 x9 x10 h11
                have h12 : Touch 5992159567552087376554869930709252681901807881085544 s x10 := by
                  refine TouchR.eq ?_ h11
                  refine TouchR.step (convertElems_touch ..) rfl ?_
                  exact Touch.refl _ _
                refine TouchP.mk' ?_
                exact h12
          · refine TouchP.mk' ?_
            exact Touch.refl _ _
      split
      · rename_i x13 x14 h15
        refine TouchQ.mk' ?_
        refine Touch.step (eccReport_touch ..) rfl ?_
        exact h4
      · rename_i x16 h17
        extract_lets -merge +onlyGivenNames x18
        have h19 : Touch 5992159567552087376554869930709252681901807881085544 s x18 := by
          unfold x18
          refine Touch.step (memStore_touch ..) rfl ?_
          exact h4
        clear_value x18
        extract_lets -merge +onlyGivenNames x20
        clear_value x20
        split
        · rename_i x21 x22 h23
          refine TouchQ.mk' ?_
          refine Touch.step (eccReport_touch ..) rfl ?_
          exact h19
        · rename_i x24 h25
          refine TouchQ.step (ih ..) (Within.refl _) ?_
          exact h19

theorem dmaResult_touch {cl : Nat} {k : Nat} {i : Nat} {st : Status} {field : Nat} {bytes : Nat} {s : State} : Touch 32768 s (dmaResult cl k i st field bytes s) := by
  unfold dmaResult
  extract_lets -merge +onlyGivenNames x0
  clear_value x0
  extract_lets -merge +onlyGivenNames x1
  clear_value x1
  refine Touch.step (setChan_touch ..) rfl ?_
  exact Touch.refl _ _

theorem dmaStart_touch {cl : Nat} {k : Nat} {i : Nat} {e : DmaEntry} {s : State} : Touch 5992159567552087376554869930709252681901807881609832 s (dmaStart cl k i e s) := by
  unfold dmaStart
  extract_lets -merge +onlyGivenNames x0
  clear_value x0
  extract_lets -merge +onlyGivenNames x1
  clear_value x1
  refine Touch.ite ?_ ?_
  · refine Touch.step (dmaResult_touch ..) rfl ?_
    exact Touch.refl _ _
  · split
    · rename_i x2 x3 x4 h5
      refine Touch.step (dmaResult_touch ..) rfl ?_
      exact Touch.refl _ _
    · rename_i x6 h7
      extract_lets -merge +onlyGivenNames x8
      clear_value x8
      extract_lets -merge +onlyGivenNames x9
      clear_value x9
      refine Touch.ite ?_ ?_
      · refine Touch.step (dmaResult_touch ..) rfl ?_
        exact Touch.refl _ _
      · split
        · rename_i x10 x11 x12 h13
          refine Touch.step (dmaResult_touch ..) rfl ?_
          exact Touch.refl _ _
        · rename_i x14 x15 x16 h17 h18
          refine Touch.step (dmaResult_touch ..) rfl ?_
          exact Touch.refl _ _
        · rename_i x19 x20 h21 h22
          split
          · rename_i x23 x24 x25 h26
            extract_lets -merge +onlyGivenNames x27
            clear_value x27
            split
            · rename_i x28 x29 x30 h31
              have h32 : Touch 5992159567552087376554869930709252681901807881609832 s x30 := by
                refine TouchOP.eq ?_ h31
                refine TouchOP.step (issueRead_touch) rfl ?_
                exact Touch.refl _ _
              exact h32
            · rename_i x33 h34
              exact Touch.refl _ _
          · rename_i x35 h36
            extract_lets -merge +onlyGivenNames x37
            clear_value x37
            split
            · rename_i x38 x39 x40 x41 h42
              have h43 : Touch 5992159567552087376554869930709252681901807881609832 s x41 := by
                refine TouchQ.eq ?_ h42
                refine TouchQ.step (dmaRows_touch ..) rfl ?_
                exact Touch.refl _ _
              refine Touch.step (dmaResult_touch ..) rfl ?_
              exact h43

theorem dmaFinishRead_touch {cl : Nat} {k : Nat} {st : Status} {data : List Byte} {s : State} : Touch 5992159567552087376554869930709252681901807881085544 s (dmaFinishRead cl k st data s) := by
  unfold dmaFinishRead
  split
  · rename_i x0 h1
    exact Touch.refl _ _
  · rename_i x2 x3 h4
    extract_lets -merge +onlyGivenNames x5
    clear_value x5
    refine Touch.ite ?_ ?_
    · refine Touch.step (dmaResult_touch ..) rfl ?_
      exact Touch.refl _ _
    · split
      · rename_i x6 x7 x8 x9 h10
        have h11 : Touch 5992159567552087376554869930709252681901807881085544 s x9 := by
          refine TouchQ.eq ?_ h10
          refine TouchQ.step (dmaRows_touch ..) rfl ?_
          exact Touch.refl _ _
        refine Touch.step (dmaResult_touch ..) rfl ?_
        exact h11

theorem dmaRow_touch {cl : Nat} {k : Nat} {ops : Nat → Bool} {s : State} : TouchOut 5992159567552087376554869930709252681901807881609832 s (dmaRow cl k ops s) := by
  unfold dmaRow
  refine TouchOut.ite ?_ ?_
  · exact TouchOut.fault _ _ _
  · refine TouchOut.step (whenArray_touch rfl (fun x0 => ?_)) (Within.refl _) ?_
    · extract_lets -merge +onlyGivenNames x1
      clear_value x1
      split
      · rename_i x2 x3 h4
        extract_lets -merge +onlyGivenNames x5
        clear_value x5
        refine Touch.ite ?_ ?_
        · refine Touch.step (dmaStart_touch ..) rfl ?_
          exact Touch.refl _ _
        · exact Touch.refl _ _
      · rename_i x6 h7
        exact Touch.refl _ _
    · exact Touch.refl _ _

theorem execDmaCopy_touch {cl : Nat} {k : Nat} {s : State} : TouchOut 5992159567552087376554869930709252681901807881609832 s (execDmaCopy cl k s) := by
  unfold execDmaCopy
  refine TouchOut.step (dmaRow_touch) rfl ?_
  exact Touch.refl _ _

theorem execDmaFill_touch {cl : Nat} {k : Nat} {s : State} : TouchOut 5992159567552087376554869930709252681901807881609832 s (execDmaFill cl k s) := by
  unfold execDmaFill
  refine TouchOut.step (dmaRow_touch) rfl ?_
  exact Touch.refl _ _

theorem execDmaCopyConvert_touch {cl : Nat} {k : Nat} {s : State} : TouchOut 5992159567552087376554869930709252681901807881609832 s (execDmaCopyConvert cl k s) := by
  unfold execDmaCopyConvert
  refine TouchOut.step (dmaRow_touch) rfl ?_
  exact Touch.refl _ _

theorem dmaWorkEnd_touch {item : Nat} {st : Status} {field : Nat} {s : State} : Touch 65536 s (dmaWorkEnd item st field s) := by
  unfold dmaWorkEnd
  refine Touch.step (finishItem_touch ..) rfl ?_
  exact Touch.refl _ _

theorem dmaComplete_touch {cl : Nat} {k : Nat} {s : State} : Touch 23945245680524898823768934415796073295355282970624584 s (dmaComplete cl k s) := by
  unfold dmaComplete
  extract_lets -merge +onlyGivenNames x0
  clear_value x0
  split
  · rename_i x1 h2
    exact Touch.refl _ _
  · rename_i x3 x4 x5 h6
    split
    · rename_i x7 h8
      exact Touch.refl _ _
    · rename_i x9 x10 x11 x12 h13
      extract_lets -merge +onlyGivenNames x14
      clear_value x14
      extract_lets -merge +onlyGivenNames x15
      have h16 : Touch 23945245680524898823768934415796073295355282970624584 s x15 := by
        unfold x15
        refine Touch.step (pmcAdd_touch ..) rfl ?_
        refine Touch.step (setChan_touch ..) rfl ?_
        exact Touch.refl _ _
      clear_value x15
      extract_lets -merge +onlyGivenNames x17
      have h18 : Touch 23945245680524898823768934415796073295355282970624584 s x17 := by
        unfold x17
        split
        · rename_i x19 x20 h21
          refine Touch.step (dmaWorkEnd_touch ..) rfl ?_
          exact h16
        · rename_i x22 x23 h24
          refine Touch.ite ?_ ?_
          · refine Touch.step (memStore_touch ..) rfl ?_
            exact h16
          · exact h16
      clear_value x17
      extract_lets -merge +onlyGivenNames x25
      have h26 : Touch 23945245680524898823768934415796073295355282970624584 s x25 := by
        unfold x25
        refine Touch.ite ?_ ?_
        · refine Touch.step (eicEvent_touch ..) rfl ?_
          exact h18
        · exact h18
      clear_value x25
      refine Touch.ite ?_ ?_
      · exact h26
      · refine Touch.step (eicEvent_touch ..) rfl ?_
        exact h26

theorem execDmaTransferComplete_touch {cl : Nat} {k : Nat} {s : State} : TouchOut 23945245680524898823768934415796073295355282970624584 s (execDmaTransferComplete cl k s) := by
  unfold execDmaTransferComplete
  refine TouchOut.ite ?_ ?_
  · exact TouchOut.fault _ _ _
  · refine TouchOut.step (whenOn_touch rfl (fun x0 => ?_)) (Within.refl _) ?_
    · refine Touch.step (dmaComplete_touch ..) rfl ?_
      exact Touch.refl _ _
    · exact Touch.refl _ _

theorem setSlice_touch {s : State} {n : Nat} {S : Slice} : Touch 1048576 s (State.setSlice s n S) := by
  unfold State.setSlice
  refine Touch.step (t := s) (Touch.upd (F := 1048576) rfl (Or.inr rfl)) rfl ?_
  exact Touch.refl _ _

theorem pageIgnored_touch {n : Nat} {s : State} : Touch 2475880078570760566978117632 s (pageIgnored n s) := by
  unfold pageIgnored
  refine Touch.ite ?_ ?_
  · refine Touch.step (bump_touch ..) rfl ?_
    exact Touch.refl _ _
  · refine Touch.step (ignored_touch ..) rfl ?_
    exact Touch.refl _ _

theorem whenPage_touch {n : Nat} {s : State} {f : State → State} {F : Nat} (hF : Within 2475880078570760566978117632 F) (hf : ∀ (y0 : State), Touch F y0 (f y0)) : TouchOut F s (whenPage n s f) := by
  unfold whenPage
  refine TouchOut.next ?_
  refine Touch.ite ?_ ?_
  · refine Touch.step (hf ..) (Within.refl _) ?_
    exact Touch.refl _ _
  · refine Touch.ite ?_ ?_
    · refine Touch.step (pageIgnored_touch ..) (.trans rfl hF) ?_
      exact Touch.refl _ _
    · exact Touch.refl _ _

theorem modSec_touch {s : State} {f : Security → Security} : Touch 8388608 s (State.modSec s f) := by
  unfold State.modSec
  refine Touch.step (t := s) (Touch.upd (F := 8388608) rfl (Or.inr rfl)) rfl ?_
  exact Touch.refl _ _

theorem irqSourceOf_touch {c : Caller} {src : IrqSource} {s : State} : Touch 134218240 s (irqSourceOf c src s) := by
  unfold irqSourceOf
  refine Touch.foldl ?_ (fun x0 x1 h2 => ?_)
  · exact Touch.refl _ _
  · refine Touch.ite ?_ ?_
    · refine Touch.step (irqEvent_touch ..) rfl ?_
      exact h2
    · exact h2

theorem setSlot_touch {s : State} {k : Nat} {t : KeySlot} : Touch 8388608 s (State.setSlot s k t) := by
  unfold State.setSlot
  refine Touch.step (modSec_touch ..) rfl ?_
  exact Touch.refl _ _

theorem slotInvoke_touch {k : Nat} {n : Nat} {s : State} : TouchP 5575186299632655785383929568162090519101952 s (slotInvoke k n s) := by
  unfold slotInvoke
  refine TouchP.ite ?_ ?_
  · refine TouchP.mk' ?_
    exact Touch.refl _ _
  · split
    · rename_i x0 h1
      refine TouchP.mk' ?_
      exact Touch.refl _ _
    · rename_i x2 x3 h4
      split
      · rename_i x5 h6
        refine TouchP.mk' ?_
        exact Touch.refl _ _
      · rename_i x7 h8
        refine TouchP.mk' ?_
        exact Touch.refl _ _
      · rename_i x9 h10
        refine TouchP.ite ?_ ?_
        · refine TouchP.mk' ?_
          refine Touch.step (bump_touch ..) rfl ?_
          refine Touch.step (setSlot_touch ..) rfl ?_
          exact Touch.refl _ _
        · extract_lets -merge +onlyGivenNames x11
          clear_value x11
          extract_lets -merge +onlyGivenNames x12
          clear_value x12
          extract_lets -merge +onlyGivenNames x13
          have h14 : Touch 5575186299632655785383929568162090519101952 s x13 := by
            unfold x13
            refine Touch.step (setSlot_touch ..) rfl ?_
            exact Touch.refl _ _
          clear_value x13
          refine TouchP.mk' ?_
          refine Touch.ite ?_ ?_
          · refine Touch.step (irqSourceOf_touch ..) rfl ?_
            exact h14
          · exact h14

theorem zeroRecord_touch {scope : Nat} {who : Nat} {s : State} : Touch 5992156713056701964635107814136760380589323426209888 s (zeroRecord scope who s) := by
  unfold zeroRecord
  refine Touch.step (log_touch ..) rfl ?_
  exact Touch.refl _ _

theorem slotZeroize_touch {k : Nat} {s : State} : Touch 8388608 s (slotZeroize k s) := by
  unfold slotZeroize
  split
  · rename_i x0 x1 h2
    refine Touch.step (setSlot_touch ..) rfl ?_
    exact Touch.refl _ _
  · rename_i x3 h4
    exact Touch.refl _ _

theorem slotLoad_touch {k : Nat} {mode : KeyMode} {limit : Nat} {key : List Byte} {exportable : Bool} {persistent : Bool} {s : State} : Touch 8388608 s (slotLoad k mode limit key exportable persistent s) := by
  unfold slotLoad
  split
  · rename_i x0 x1 h2
    refine Touch.step (setSlot_touch ..) rfl ?_
    exact Touch.refl _ _
  · rename_i x3 h4
    exact Touch.refl _ _

theorem secSliceClear_touch {n : Nat} {free : Bool} {s : State} : Touch 5992156713056701964635107814136760380589323434598496 s (secSliceClear n free s) := by
  unfold secSliceClear
  extract_lets -merge +onlyGivenNames x0
  clear_value x0
  extract_lets -merge +onlyGivenNames x1
  have h2 : Touch 5992156713056701964635107814136760380589323434598496 s x1 := by
    unfold x1
    refine Touch.foldl ?_ (fun x3 x4 h5 => ?_)
    · exact Touch.refl _ _
    · refine Touch.step (slotZeroize_touch ..) rfl ?_
      exact h5
  clear_value x1
  refine Touch.step (zeroRecord_touch ..) rfl ?_
  refine Touch.step (modSec_touch ..) rfl ?_
  exact h2

theorem newKey_touch {mode : KeyMode} {s : State} : TouchP 174224571863520493293247799005065601089536 s (newKey mode s) := by
  unfold newKey
  extract_lets -merge +onlyGivenNames x0
  clear_value x0
  split
  · rename_i x1 x2 x3 h4
    have h5 : Touch 174224571863520493293247799005065601089536 s x3 := by
      refine TouchP.eq ?_ h4
      refine TouchP.step (drbg_touch ..) rfl ?_
      exact Touch.refl _ _
    refine TouchP.mk' ?_
    exact h5

theorem modNet_touch {s : State} {f : Net → Net} : Touch 33554432 s (State.modNet s f) := by
  unfold State.modNet
  refine Touch.step (t := s) (Touch.upd (F := 33554432) rfl (Or.inr rfl)) rfl ?_
  exact Touch.refl _ _

theorem netQueue_touch {lp : Nat} {q : Nat} {f : TxFrame} {s : State} : Touch 33554432 s (netQueue lp q f s) := by
  unfold netQueue
  extract_lets -merge +onlyGivenNames x0
  clear_value x0
  refine Touch.step (modNet_touch ..) rfl ?_
  exact Touch.refl _ _

theorem fetchBytes_touch {a : Nat} {n : Nat} {s : State} : TouchP 268435456 s (fetchBytes a n s) := by
  unfold fetchBytes
  split
  · rename_i x0 x1 x2 h3
    split
    · rename_i x4 x5 x6 h7
      have h8 : Touch 268435456 s x6 := by
        refine TouchP.eq ?_ h7
        refine TouchP.step (draw_touch ..) rfl ?_
        exact Touch.refl _ _
      refine TouchP.mk' ?_
      exact h8
  · rename_i x9 h10
    refine TouchP.mk' ?_
    exact Touch.refl _ _

theorem startCore_touch {d : List Byte} {idx : Nat} {n : Nat} {id : Nat} {s : State} : Touch 24519928653854221733733552434404946937899825950919507968 s (startCore d idx n id s) := by
  unfold startCore
  extract_lets -merge +onlyGivenNames x0
  clear_value x0
  extract_lets -merge +onlyGivenNames x1
  clear_value x1
  split
  · rename_i x2 x3 x4 h5
    have h6 : Touch 24519928653854221733733552434404946937899825950919507968 s x4 := by
      refine TouchP.eq ?_ h5
      refine TouchP.ite ?_ ?_
      · refine TouchP.mk' ?_
        exact Touch.refl _ _
      · refine TouchP.step (drbg_touch ..) rfl ?_
        exact Touch.refl _ _
    extract_lets -merge +onlyGivenNames x7
    have h8 : Touch 24519928653854221733733552434404946937899825950919507968 s x7 := by
      unfold x7
      refine Touch.step (t := x4) (Touch.upd (F := 24519928653854221733733552434404946937899825950642667520) rfl (Or.inr rfl)) rfl ?_
      exact h6
    clear_value x7
    extract_lets -merge +onlyGivenNames x9
    have h10 : Touch 24519928653854221733733552434404946937899825950919507968 s x9 := by
      unfold x9
      refine Touch.step (emptyPort_touch ..) rfl ?_
      refine Touch.step (setReg_touch ..) rfl ?_
      exact h8
    clear_value x9
    extract_lets -merge +onlyGivenNames x11
    have h12 : Touch 24519928653854221733733552434404946937899825950919507968 s x11 := by
      unfold x11
      refine Touch.step (modCore_touch ..) rfl ?_
      exact h10
    clear_value x11
    refine Touch.step (eicRelease_touch ..) rfl ?_
    exact h12

theorem startGroup_touch {d : List Byte} {s : State} : Touch 24519928653854221733733552434404946937899825951053889544 s (startGroup d s) := by
  unfold startGroup
  extract_lets -merge +onlyGivenNames x0
  clear_value x0
  split
  · rename_i x1 x2 x3 h4
    have h5 : Touch 24519928653854221733733552434404946937899825951053889544 s x3 := by
      refine TouchP.eq ?_ h4
      refine TouchP.step (fetchBytes_touch ..) rfl ?_
      exact Touch.refl _ _
    extract_lets -merge +onlyGivenNames x6
    have h7 : Touch 24519928653854221733733552434404946937899825951053889544 s x6 := by
      unfold x6
      refine Touch.foldl ?_ (fun x8 x9 h10 => ?_)
      · exact h5
      · refine Touch.ite ?_ ?_
        · refine Touch.step (memStore_touch ..) rfl ?_
          exact h10
        · exact h10
    clear_value x6
    refine Touch.foldl ?_ (fun x11 x12 h13 => ?_)
    · exact h7
    · refine Touch.step (startCore_touch ..) rfl ?_
      exact h13

theorem zeroPart_touch {P : Partition} {s : State} : Touch 49160 s (zeroPart P s) := by
  unfold zeroPart
  extract_lets -merge +onlyGivenNames x0
  have h1 : Touch 49160 s x0 := by
    unfold x0
    refine Touch.foldl ?_ (fun x2 x3 h4 => ?_)
    · exact Touch.refl _ _
    · refine Touch.step (zeroRange_touch ..) rfl ?_
      refine Touch.step (zeroRange_touch ..) rfl ?_
      exact h4
  clear_value x0
  refine Touch.foldl ?_ (fun x5 x6 h7 => ?_)
  · exact h1
  · refine Touch.step (zeroRange_touch ..) rfl ?_
    exact h7

theorem restCores_touch {P : Partition} {r : RunState} {s : State} : Touch 16384 s (restCores P r s) := by
  unfold restCores
  refine Touch.foldl ?_ (fun x0 x1 h2 => ?_)
  · exact Touch.refl _ _
  · refine Touch.foldl ?_ (fun x3 x4 h5 => ?_)
    · exact h2
    · refine Touch.step (modCore_touch ..) rfl ?_
      exact h5

theorem writeCompletion_touch {id : Nat} {s : State} : Touch 553402322211421536776 s (writeCompletion id s) := by
  unfold writeCompletion
  split
  · rename_i x0 h1
    exact Touch.refl _ _
  · rename_i x2 x3 h4
    split
    · rename_i x5 x6 x7 x8 x9 x10 h11 h12
      split
      · rename_i x13 h14
        exact Touch.refl _ _
      · rename_i x15 x16 h17
        extract_lets -merge +onlyGivenNames x18
        clear_value x18
        extract_lets -merge +onlyGivenNames x19
        clear_value x19
        extract_lets -merge +onlyGivenNames x20
        clear_value x20
        extract_lets -merge +onlyGivenNames x21
        clear_value x21
        extract_lets -merge +onlyGivenNames x22
        clear_value x22
        extract_lets -merge +onlyGivenNames x23
        have h24 : Touch 553402322211421536776 s x23 := by
          unfold x23
          refine Touch.step (setPart_touch ..) rfl ?_
          exact Touch.refl _ _
        clear_value x23
        extract_lets -merge +onlyGivenNames x25
        subst x25
        extract_lets -merge +onlyGivenNames x26
        have h27 : Touch 553402322211421536776 s x26 := by
          unfold x26
          refine Touch.step (t := x23) (Touch.upd (F := 65536) rfl (Or.inr rfl)) rfl ?_
          exact h24
        clear_value x26
        extract_lets -merge +onlyGivenNames x28
        clear_value x28
        extract_lets -merge +onlyGivenNames x29
        subst x29
        extract_lets -merge +onlyGivenNames x30
        have h31 : Touch 553402322211421536776 s x30 := by
          unfold x30
          split
          · rename_i x32 h33
            refine Touch.step (memStore_touch ..) rfl ?_
            exact h27
          · rename_i x34 h35
            refine Touch.ite ?_ ?_
            · refine Touch.step (t := x26) (Touch.upd (F := 524288) rfl (Or.inr rfl)) rfl ?_
              exact h27
            · refine Touch.step (store_touch ..) rfl ?_
              exact h27
        clear_value x30
        refine Touch.ite ?_ ?_
        · refine Touch.step (irqSource_touch ..) rfl ?_
          exact h31
        · exact h31
    · rename_i x36 x37 h38
      exact Touch.refl _ _

theorem squashPart_touch {pn : Nat} {s : State} : Touch 24519928653854221733733552434404946937899825950777655816 s (squashPart pn s) := by
  unfold squashPart
  extract_lets -merge +onlyGivenNames x0
  clear_value x0
  extract_lets -merge +onlyGivenNames x1
  have h2 : Touch 24519928653854221733733552434404946937899825950777655816 s x1 := by
    unfold x1
    refine Touch.foldl ?_ (fun x3 x4 h5 => ?_)
    · exact Touch.refl _ _
    · refine Touch.step (abortKernel_touch ..) rfl ?_
      exact h5
  clear_value x1
  extract_lets -merge +onlyGivenNames x6
  clear_value x6
  extract_lets -merge +onlyGivenNames x7
  have h8 : Touch 24519928653854221733733552434404946937899825950777655816 s x7 := by
    unfold x7
    refine Touch.foldl ?_ (fun x9 x10 h11 => ?_)
    · exact h2
    · refine Touch.step (writeCompletion_touch ..) rfl ?_
      exact h11
  clear_value x7
  extract_lets -merge +onlyGivenNames x12
  subst x12
  extract_lets -merge +onlyGivenNames x13
  subst x13
  extract_lets -merge +onlyGivenNames x14
  have h15 : Touch 24519928653854221733733552434404946937899825950777655816 s x14 := by
    unfold x14
    refine Touch.step (t := x7) (Touch.upd (F := 98304) rfl (Or.inr rfl)) rfl ?_
    exact h8
  clear_value x14
  split
  · rename_i x16 x17 h18
    refine Touch.step (setPart_touch ..) rfl ?_
    exact h15
  · rename_i x19 h20
    exact h15

theorem destroyPart_touch {pn : Nat} {s : State} : Touch 24519928653854221733733552434404946937899825950778708488 s (destroyPart pn s) := by
  unfold destroyPart
  split
  · rename_i x0 h1
    exact Touch.refl _ _
  · rename_i x2 x3 h4
    extract_lets -merge +onlyGivenNames x5
    have h6 : Touch 24519928653854221733733552434404946937899825950778708488 s x5 := by
      unfold x5
      refine Touch.step (squashPart_touch ..) rfl ?_
      exact Touch.refl _ _
    clear_value x5
    extract_lets -merge +onlyGivenNames x7
    clear_value x7
    extract_lets -merge +onlyGivenNames x8
    have h9 : Touch 24519928653854221733733552434404946937899825950778708488 s x8 := by
      unfold x8
      refine Touch.step (dmaDrop_touch ..) rfl ?_
      exact h6
    clear_value x8
    extract_lets -merge +onlyGivenNames x10
    subst x10
    extract_lets -merge +onlyGivenNames x11
    subst x11
    extract_lets -merge +onlyGivenNames x12
    have h13 : Touch 24519928653854221733733552434404946937899825950778708488 s x12 := by
      unfold x12
      refine Touch.step (t := x8) (Touch.upd (F := 557056) rfl (Or.inr rfl)) rfl ?_
      exact h9
    clear_value x12
    extract_lets -merge +onlyGivenNames x14
    have h15 : Touch 24519928653854221733733552434404946937899825950778708488 s x14 := by
      unfold x14
      refine Touch.step (restCores_touch ..) rfl ?_
      refine Touch.step (zeroPart_touch ..) rfl ?_
      exact h13
    clear_value x14
    extract_lets -merge +onlyGivenNames x16
    have h17 : Touch 24519928653854221733733552434404946937899825950778708488 s x16 := by
      unfold x16
      refine Touch.foldl ?_ (fun x18 x19 h20 => ?_)
      · exact h15
      · refine Touch.step (eicReset_touch ..) rfl ?_
        exact h20
    clear_value x16
    extract_lets -merge +onlyGivenNames x21
    have h22 : Touch 24519928653854221733733552434404946937899825950778708488 s x21 := by
      unfold x21
      refine Touch.step (cmpRelease_touch ..) rfl ?_
      exact h17
    clear_value x21
    extract_lets -merge +onlyGivenNames x23
    subst x23
    extract_lets -merge +onlyGivenNames x24
    have h25 : Touch 24519928653854221733733552434404946937899825950778708488 s x24 := by
      unfold x24
      refine Touch.step (t := x21) (Touch.upd (F := 65536) rfl (Or.inr rfl)) rfl ?_
      exact h22
    clear_value x24
    refine Touch.step (setSlice_touch ..) rfl ?_
    exact h25

theorem partitionReq_touch {c : Caller} {q : PartitionReq} {s : State} : TouchP 1163272 s (partitionReq c q s) := by
  unfold partitionReq
  refine TouchP.ite ?_ ?_
  · refine TouchP.step (refuse_touch ..) rfl ?_
    exact Touch.refl _ _
  · split
    · rename_i x0 x1 x2 h3
      refine TouchP.step (refuseAt_touch ..) rfl ?_
      exact Touch.refl _ _
    · rename_i x4 h5
      split
      · rename_i x6 x7 x8 x9 h10 h11
        extract_lets -merge +onlyGivenNames x12
        clear_value x12
        extract_lets -merge +onlyGivenNames x13
        have h14 : Touch 1163272 s x13 := by
          unfold x13
          refine Touch.step (restCores_touch ..) rfl ?_
          refine Touch.step (zeroPart_touch ..) rfl ?_
          refine Touch.step (setPart_touch ..) rfl ?_
          exact Touch.refl _ _
        clear_value x13
        extract_lets -merge +onlyGivenNames x15
        clear_value x15
        refine TouchP.step (accept_touch ..) rfl ?_
        refine Touch.step (setSlice_touch ..) rfl ?_
        exact h14
      · rename_i x16 x17 h18
        refine TouchP.step (refuse_touch ..) rfl ?_
        exact Touch.refl _ _

theorem execPartitionCreate_touch {c : Caller} {q : PartitionReq} {s : State} : TouchOut 135381640 s (execPartitionCreate c q s) := by
  unfold execPartitionCreate
  refine TouchOut.step (whenOn_touch rfl (fun x0 => ?_)) (Within.refl _) ?_
  · refine Touch.step (mbxServe_touch rfl (fun x1 x2 => ?_)) (Within.refl _) ?_
    · refine TouchP.step (partitionReq_touch ..) rfl ?_
      exact Touch.refl _ _
    · exact Touch.refl _ _
  · exact Touch.refl _ _

theorem execPartitionDestroy_touch {c : Caller} {a1 : Nat} {s : State} : TouchOut 24519928653854221733733552434404946937899825950778708616 s (execPartitionDestroy c a1 s) := by
  unfold execPartitionDestroy
  refine TouchOut.step (whenOn_touch rfl (fun x0 => ?_)) (Within.refl _) ?_
  · refine Touch.step (mbxServe_touch rfl (fun x1 x2 => ?_)) (Within.refl _) ?_
    · split
      · rename_i x3 x4 h5
        refine TouchP.step (accept_touch ..) rfl ?_
        refine Touch.step (destroyPart_touch ..) rfl ?_
        exact Touch.refl _ _
      · rename_i x6 h7
        refine TouchP.step (refuseAt_touch ..) rfl ?_
        exact Touch.refl _ _
    · exact Touch.refl _ _
  · exact Touch.refl _ _

theorem ringDoor_touch {n : Nat} {a1 : Nat} {j : Nat} {v : Nat} {s : State} {f : WorkRing → WorkRing} : Touch 2475880078570760566978183168 s (ringDoor n a1 j v s f) := by
  unfold ringDoor
  refine Touch.ite ?_ ?_
  · refine Touch.step (pageIgnored_touch ..) rfl ?_
    exact Touch.refl _ _
  · split
    · rename_i x0 h1
      refine Touch.step (ignored_touch ..) rfl ?_
      refine Touch.step (pageIgnored_touch ..) rfl ?_
      exact Touch.refl _ _
    · rename_i x2 x3 h4
      split
      · rename_i x5 h6
        refine Touch.step (ignored_touch ..) rfl ?_
        refine Touch.step (pageIgnored_touch ..) rfl ?_
        exact Touch.refl _ _
      · rename_i x7 x8 h9
        split
        · rename_i x10 h11
          refine Touch.step (pageIgnored_touch ..) rfl ?_
          exact Touch.refl _ _
        · rename_i x12 x13 h14
          refine Touch.ite ?_ ?_
          · refine Touch.step (pageIgnored_touch ..) rfl ?_
            exact Touch.refl _ _
          · refine Touch.step (setPart_touch ..) rfl ?_
            exact Touch.refl _ _

theorem execWorkRingTailDoorbell_touch {n : Nat} {a1 : Nat} {j : Nat} {v : Word} {s : State} : TouchOut 2475880078570760566978183168 s (execWorkRingTailDoorbell n a1 j v s) := by
  unfold execWorkRingTailDoorbell
  refine TouchOut.step (whenPage_touch rfl (fun x0 => ?_)) (Within.refl _) ?_
  · refine Touch.step (ringDoor_touch ..) rfl ?_
    exact Touch.refl _ _
  · exact Touch.refl _ _

theorem execWorkRingHeadDoorbell_touch {n : Nat} {a1 : Nat} {j : Nat} {v : Word} {s : State} : TouchOut 2475880078570760566978183168 s (execWorkRingHeadDoorbell n a1 j v s) := by
  unfold execWorkRingHeadDoorbell
  refine TouchOut.step (whenPage_touch rfl (fun x0 => ?_)) (Within.refl _) ?_
  · refine Touch.step (ringDoor_touch ..) rfl ?_
    exact Touch.refl _ _
  · exact Touch.refl _ _

theorem execDispatchDescriptor_touch {pn : Nat} {j : Nat} {s : State} : TouchOut 65536 s (execDispatchDescriptor pn j s) := by
  unfold execDispatchDescriptor
  refine TouchOut.step (whenArray_touch rfl (fun x0 => ?_)) (Within.refl _) ?_
  · split
    · rename_i x1 h2
      exact Touch.refl _ _
    · rename_i x3 x4 h5
      refine Touch.ite ?_ ?_
      · exact Touch.refl _ _
      · split
        · rename_i x6 h7
          exact Touch.refl _ _
        · rename_i x8 x9 h10
          extract_lets -merge +onlyGivenNames x11
          clear_value x11
          extract_lets -merge +onlyGivenNames x12
          clear_value x12
          extract_lets -merge +onlyGivenNames x13
          clear_value x13
          extract_lets -merge +onlyGivenNames x14
          clear_value x14
          extract_lets -merge +onlyGivenNames x15
          have h16 : Touch 65536 x0 x15 := by
            unfold x15
            refine Touch.step (setPart_touch ..) rfl ?_
            exact Touch.refl _ _
          clear_value x15
          refine Touch.step (t := x15) (Touch.upd (F := 65536) rfl (Or.inr rfl)) rfl ?_
          exact h16
  · exact Touch.refl _ _

theorem withItem_touch {id : Nat} {ty : Nat} {s : State} {f : WorkItem → Partition → State → State} {F : Nat} (hF : Within 0 F) (hf : ∀ (y0 : WorkItem) (y1 : Partition) (y2 : State), Touch F y2 (f y0 y1 y2)) : TouchOut F s (withItem id ty s f) := by
  unfold withItem
  refine TouchOut.step (whenArray_touch (.trans rfl hF) (fun x0 => ?_)) (Within.refl _) ?_
  · split
    · rename_i x1 x2 h3
      split
      · rename_i x4 x5 h6
        refine Touch.ite ?_ ?_
        · refine Touch.step (hf ..) (Within.refl _) ?_
          exact Touch.refl _ _
        · exact Touch.refl _ _
      · rename_i x7 h8
        exact Touch.refl _ _
    · rename_i x9 h10
      exact Touch.refl _ _
  · exact Touch.refl _ _

theorem execWorkKernel_touch {id : Nat} {s : State} : TouchOut 24519928653854221733733552434404946937899825951053955080 s (execWorkKernel id s) := by
  unfold execWorkKernel
  refine TouchOut.step (withItem_touch rfl (fun x0 x1 x2 => ?_)) (Within.refl _) ?_
  · split
    · rename_i x3 x4 x5 x6 h7
      refine Touch.step (finishItem_touch ..) rfl ?_
      exact Touch.refl _ _
    · rename_i x8 h9
      refine Touch.ite ?_ ?_
      · refine Touch.step (finishItem_touch ..) rfl ?_
        exact Touch.refl _ _
      · extract_lets -merge +onlyGivenNames x10
        clear_value x10
        extract_lets -merge +onlyGivenNames x11
        have h12 : Touch 24519928653854221733733552434404946937899825951053955080 x2 x11 := by
          unfold x11
          refine Touch.step (setItem_touch ..) rfl ?_
          exact Touch.refl _ _
        clear_value x11
        refine Touch.step (startGroup_touch ..) rfl ?_
        refine Touch.step (t := x11) (Touch.upd (F := 65536) rfl (Or.inr rfl)) rfl ?_
        exact h12
  · exact Touch.refl _ _

theorem execWorkDma_touch {id : Nat} {s : State} : TouchOut 98304 s (execWorkDma id s) := by
  unfold execWorkDma
  refine TouchOut.step (withItem_touch rfl (fun x0 x1 x2 => ?_)) (Within.refl _) ?_
  · extract_lets -merge +onlyGivenNames x3
    clear_value x3
    extract_lets -merge +onlyGivenNames x4
    clear_value x4
    split
    · rename_i x5 x6 h7
      refine Touch.step (finishItem_touch ..) rfl ?_
      exact Touch.refl _ _
    · rename_i x8 h9
      refine Touch.ite ?_ ?_
      · refine Touch.step (finishItem_touch ..) rfl ?_
        exact Touch.refl _ _
      · extract_lets -merge +onlyGivenNames x10
        clear_value x10
        refine Touch.ite ?_ ?_
        · exact Touch.refl _ _
        · extract_lets -merge +onlyGivenNames x11
          have h12 : Touch 98304 x2 x11 := by
            unfold x11
            refine Touch.step (setItem_touch ..) rfl ?_
            exact Touch.refl _ _
          clear_value x11
          refine Touch.step (setChan_touch ..) rfl ?_
          exact h12
  · exact Touch.refl _ _

theorem execWorkConvert_touch {id : Nat} {s : State} : TouchOut 5992159567552087376554869930709252681901807881151080 s (execWorkConvert id s) := by
  unfold execWorkConvert
  refine TouchOut.step (withItem_touch rfl (fun x0 x1 x2 => ?_)) (Within.refl _) ?_
  · extract_lets -merge +onlyGivenNames x3
    clear_value x3
    extract_lets -merge +onlyGivenNames x4
    clear_value x4
    extract_lets -merge +onlyGivenNames x5
    clear_value x5
    extract_lets -merge +onlyGivenNames x6
    clear_value x6
    extract_lets -merge +onlyGivenNames x7
    clear_value x7
    split
    · rename_i x8 x9 h10
      refine Touch.step (finishItem_touch ..) rfl ?_
      exact Touch.refl _ _
    · rename_i x11 h12
      extract_lets -merge +onlyGivenNames x13
      clear_value x13
      extract_lets -merge +onlyGivenNames x14
      clear_value x14
      extract_lets -merge +onlyGivenNames x15
      clear_value x15
      extract_lets -merge +onlyGivenNames x16
      clear_value x16
      extract_lets -merge +onlyGivenNames x17
      clear_value x17
      extract_lets -merge +onlyGivenNames x18
      clear_value x18
      extract_lets -merge +onlyGivenNames x19
      clear_value x19
      extract_lets -merge +onlyGivenNames x20
      clear_value x20
      split
      · rename_i x21 x22 x23 h24
        refine Touch.step (finishItem_touch ..) rfl ?_
        exact Touch.refl _ _
      · rename_i x25 h26
        extract_lets -merge +onlyGivenNames x27
        clear_value x27
        refine Touch.ite ?_ ?_
        · refine Touch.step (finishItem_touch ..) rfl ?_
          exact Touch.refl _ _
        · split
          · rename_i x28 x29 h30
            refine Touch.step (finishItem_touch ..) rfl ?_
            refine Touch.step (eccReport_touch ..) rfl ?_
            exact Touch.refl _ _
          · rename_i x31 h32
            split
            · rename_i x33 x34 x35 h36
              have h37 : Touch 5992159567552087376554869930709252681901807881151080 x2 x35 := by
                refine TouchP.eq ?_ h36
                refine TouchP.step (fetchBytes_touch ..) rfl ?_
                exact Touch.refl _ _
              split
              · rename_i x38 x39 x40 h41
                have h42 : Touch 5992159567552087376554869930709252681901807881151080 x2 x40 := by
                  refine TouchP.eq ?_ h41
                  refine TouchP.step (fetchBytes_touch ..) rfl ?_
                  exact h37
                split
                · rename_i x43 x44 x45 x46 x47 h48
                  have h49 : Touch 5992159567552087376554869930709252681901807881151080 x2 x47 := by
                    refine TouchR.eq ?_ h48
                    refine TouchR.step (convertElems_touch ..) rfl ?_
                    exact h42
                  refine Touch.step (finishItem_touch ..) rfl ?_
                  refine Touch.step (memStore_touch ..) rfl ?_
                  refine Touch.step (memStore_touch ..) rfl ?_
                  exact h49
  · exact Touch.refl _ _

theorem execWorkReside_touch {id : Nat} {s : State} : TouchOut 5992159567552087376554869930709252681901807881151080 s (execWorkReside id s) := by
  unfold execWorkReside
  refine TouchOut.step (withItem_touch rfl (fun x0 x1 x2 => ?_)) (Within.refl _) ?_
  · extract_lets -merge +onlyGivenNames x3
    clear_value x3
    extract_lets -merge +onlyGivenNames x4
    clear_value x4
    extract_lets -merge +onlyGivenNames x5
    clear_value x5
    extract_lets -merge +onlyGivenNames x6
    clear_value x6
    split
    · rename_i x7 x8 h9
      refine Touch.step (finishItem_touch ..) rfl ?_
      exact Touch.refl _ _
    · rename_i x10 h11
      refine Touch.ite ?_ ?_
      · refine Touch.step (finishItem_touch ..) rfl ?_
        exact Touch.refl _ _
      · split
        · rename_i x12 x13 x14 h15
          refine Touch.step (finishItem_touch ..) rfl ?_
          exact Touch.refl _ _
        · rename_i x16 h17
          split
          · rename_i x18 x19 x20 h21
            have h22 : Touch 5992159567552087376554869930709252681901807881151080 x2 x20 := by
              refine TouchP.eq ?_ h21
              refine TouchP.step (fetchBytes_touch ..) rfl ?_
              exact Touch.refl _ _
            split
            · rename_i x23 x24 x25 x26 h27
              refine Touch.ite ?_ ?_
              · refine Touch.step (finishItem_touch ..) rfl ?_
                exact h22
              · split
                · rename_i x28 x29 h30
                  refine Touch.step (finishItem_touch ..) rfl ?_
                  refine Touch.step (eccReport_touch ..) rfl ?_
                  exact h22
                · rename_i x31 h32
                  extract_lets -merge +onlyGivenNames x33
                  have h34 : Touch 5992159567552087376554869930709252681901807881151080 x2 x33 := by
                    unfold x33
                    refine Touch.foldl ?_ (fun x35 x36 h37 => ?_)
                    · exact h22
                    · extract_lets -merge +onlyGivenNames x38
                      have h39 : Touch 5992159567552087376554869930709252681901807881151080 x2 x38 := by
                        unfold x38
                        refine Touch.ite ?_ ?_
                        · exact h37
                        · split
                          · rename_i x40 x41 x42 h43
                            have h44 : Touch 5992159567552087376554869930709252681901807881151080 x2 x42 := by
                              refine TouchP.eq ?_ h43
                              refine TouchP.step (fetchBytes_touch ..) rfl ?_
                              exact h37
                            refine Touch.step (memStore_touch ..) rfl ?_
                            exact h44
                      clear_value x38
                      refine Touch.step (memStore_touch ..) rfl ?_
                      exact h39
                  clear_value x33
                  extract_lets -merge +onlyGivenNames x45
                  clear_value x45
                  refine Touch.step (finishItem_touch ..) rfl ?_
                  refine Touch.step (setPart_touch ..) rfl ?_
                  exact h34
  · exact Touch.refl _ _

theorem execWorkRelease_touch {id : Nat} {s : State} : TouchOut 114696 s (execWorkRelease id s) := by
  unfold execWorkRelease
  refine TouchOut.step (withItem_touch rfl (fun x0 x1 x2 => ?_)) (Within.refl _) ?_
  · extract_lets -merge +onlyGivenNames x3
    clear_value x3
    split
    · rename_i x4 x5 h6
      refine Touch.step (finishItem_touch ..) rfl ?_
      exact Touch.refl _ _
    · rename_i x7 h8
      split
      · rename_i x9 h10
        refine Touch.step (finishItem_touch ..) rfl ?_
        exact Touch.refl _ _
      · rename_i x11 x12 h13
        extract_lets -merge +onlyGivenNames x14
        have h15 : Touch 114696 x2 x14 := by
          unfold x14
          refine Touch.foldl ?_ (fun x16 x17 h18 => ?_)
          · exact Touch.refl _ _
          · refine Touch.ite ?_ ?_
            · exact h18
            · refine Touch.step (zeroRange_touch ..) rfl ?_
              exact h18
        clear_value x14
        refine Touch.step (finishItem_touch ..) rfl ?_
        refine Touch.step (setPart_touch ..) rfl ?_
        exact h15
  · exact Touch.refl _ _

theorem execWorkMarker_touch {id : Nat} {s : State} : TouchOut 65536 s (execWorkMarker id s) := by
  unfold execWorkMarker
  refine TouchOut.step (withItem_touch rfl (fun x0 x1 x2 => ?_)) (Within.refl _) ?_
  · split
    · rename_i x3 x4 h5
      refine Touch.step (finishItem_touch ..) rfl ?_
      exact Touch.refl _ _
    · rename_i x6 h7
      refine Touch.step (finishItem_touch ..) rfl ?_
      exact Touch.refl _ _
  · exact Touch.refl _ _

theorem execWorkCompletionWrite_touch {id : Nat} {s : State} : TouchOut 553402322211421536776 s (execWorkCompletionWrite id s) := by
  unfold execWorkCompletionWrite
  refine TouchOut.step (whenOn_touch rfl (fun x0 => ?_)) (Within.refl _) ?_
  · refine Touch.step (writeCompletion_touch ..) rfl ?_
    exact Touch.refl _ _
  · exact Touch.refl _ _

theorem execKernelComplete_touch {id : Nat} {s : State} : TouchOut 65536 s (execKernelComplete id s) := by
  unfold execKernelComplete
  refine TouchOut.step (whenArray_touch rfl (fun x0 => ?_)) (Within.refl _) ?_
  · split
    · rename_i x1 h2
      exact Touch.refl _ _
    · rename_i x3 x4 h5
      refine Touch.ite ?_ ?_
      · extract_lets -merge +onlyGivenNames x6
        subst x6
        extract_lets -merge +onlyGivenNames x7
        have h8 : Touch 65536 x0 x7 := by
          unfold x7
          refine Touch.step (t := x0) (Touch.upd (F := 65536) rfl (Or.inr rfl)) rfl ?_
          exact Touch.refl _ _
        clear_value x7
        split
        · rename_i x9 h10
          refine Touch.step (finishItem_touch ..) rfl ?_
          exact h8
        · rename_i x11 x12 x13 h14
          refine Touch.step (finishItem_touch ..) rfl ?_
          exact h8
      · exact Touch.refl _ _
  · exact Touch.refl _ _

theorem execKernelDeadline_touch {id : Nat} {s : State} : TouchOut 24519928653854221733733552434404946937899825950643306496 s (execKernelDeadline id s) := by
  unfold execKernelDeadline
  refine TouchOut.step (whenArray_touch rfl (fun x0 => ?_)) (Within.refl _) ?_
  · split
    · rename_i x1 x2 h3
      refine Touch.ite ?_ ?_
      · exact Touch.refl _ _
      · refine Touch.step (abortKernel_touch ..) rfl ?_
        exact Touch.refl _ _
    · rename_i x4 h5
      exact Touch.refl _ _
  · exact Touch.refl _ _

theorem execSiltLineUncorrectable_touch {die : Nat} {line : Nat} {s : State} : TouchOut 18395938647103723002264799433617846963805458789629501552 s (execSiltLineUncorrectable die line s) := by
  unfold execSiltLineUncorrectable
  refine TouchOut.ite ?_ ?_
  · exact TouchOut.fault _ _ _
  · refine TouchOut.step (whenOn_touch rfl (fun x0 => ?_)) (Within.refl _) ?_
    · refine Touch.ite ?_ ?_
      · exact Touch.refl _ _
      · extract_lets -merge +onlyGivenNames x1
        clear_value x1
        extract_lets -merge +onlyGivenNames x2
        clear_value x2
        extract_lets -merge +onlyGivenNames x3
        have h4 : Touch 18395938647103723002264799433617846963805458789629501552 x0 x3 := by
          unfold x3
          split
          · rename_i x5 x6 h7
            refine Touch.step (setKw_touch ..) rfl ?_
            exact Touch.refl _ _
          · rename_i x8 h9
            refine Touch.step (setKw_touch ..) rfl ?_
            exact Touch.refl _ _
        clear_value x3
        extract_lets -merge +onlyGivenNames x10
        clear_value x10
        refine Touch.step (t := x3) (Touch.upd (F := 65536) rfl (Or.inr rfl)) rfl ?_
        exact h4
    · exact Touch.refl _ _

theorem repairLine_touch {a : Nat} {f : Nat} {a2 : ResidentSet} {e : Placed} {pn : Nat} {P : Partition} {s : State} : Touch 268550152 s (repairLine a f a2 e pn P s) := by
  unfold repairLine
  extract_lets -merge +onlyGivenNames x0
  clear_value x0
  split
  · rename_i x1 x2 x3 h4
    have h5 : Touch 268550152 s x3 := by
      refine TouchP.eq ?_ h4
      refine TouchP.step (fetchBytes_touch ..) rfl ?_
      exact Touch.refl _ _
    extract_lets -merge +onlyGivenNames x6
    have h7 : Touch 268550152 s x6 := by
      unfold x6
      refine Touch.step (rawStore_touch ..) rfl ?_
      exact h5
    clear_value x6
    extract_lets -merge +onlyGivenNames x8
    clear_value x8
    extract_lets -merge +onlyGivenNames x9
    clear_value x9
    refine Touch.step (setPart_touch ..) rfl ?_
    exact h7

theorem execSiltLineRepaired_touch {die : Nat} {line : Nat} {s : State} : TouchOut 268550152 s (execSiltLineRepaired die line s) := by
  unfold execSiltLineRepaired
  refine TouchOut.ite ?_ ?_
  · exact TouchOut.fault _ _ _
  · refine TouchOut.step (whenOn_touch rfl (fun x0 => ?_)) (Within.refl _) ?_
    · extract_lets -merge +onlyGivenNames x1
      clear_value x1
      refine Touch.ite ?_ ?_
      · exact Touch.refl _ _
      · refine Touch.foldl ?_ (fun x2 x3 h4 => ?_)
        · exact Touch.refl _ _
        · split
          · rename_i x5 x6 x7 x8 h9 h10
            split
            · rename_i x11 h12
              exact h4
            · rename_i x13 x14 h15
              refine Touch.step (repairLine_touch ..) rfl ?_
              exact h4
          · rename_i x16 x17 h18
            exact h4
    · exact Touch.refl _ _

theorem unitSeed_touch {d : List Byte} {s : State} : TouchP 174224571863520493293247799005065601089536 s (unitSeed d s) := by
  unfold unitSeed
  refine TouchP.ite ?_ ?_
  · refine TouchP.mk' ?_
    exact Touch.refl _ _
  · split
    · rename_i x0 x1 x2 h3
      have h4 : Touch 174224571863520493293247799005065601089536 s x2 := by
        refine TouchP.eq ?_ h3
        refine TouchP.step (drbg_touch ..) rfl ?_
        exact Touch.refl _ _
      refine TouchP.mk' ?_
      exact h4

theorem execWorkSample_touch {id : Nat} {s : State} : TouchOut 5992159567726311948418390424002500480906873213805160 s (execWorkSample id s) := by
  unfold execWorkSample
  refine TouchOut.step (withItem_touch rfl (fun x0 x1 x2 => ?_)) (Within.refl _) ?_
  · extract_lets -merge +onlyGivenNames x3
    clear_value x3
    split
    · rename_i x4 x5 x6 h7
      refine Touch.step (finishItem_touch ..) rfl ?_
      exact Touch.refl _ _
    · rename_i x8 x9 x10 h11 h12
      refine Touch.step (finishItem_touch ..) rfl ?_
      exact Touch.refl _ _
    · rename_i x13 x14 h15 h16
      extract_lets -merge +onlyGivenNames x17
      clear_value x17
      extract_lets -merge +onlyGivenNames x18
      clear_value x18
      extract_lets -merge +onlyGivenNames x19
      clear_value x19
      extract_lets -merge +onlyGivenNames x20
      clear_value x20
      extract_lets -merge +onlyGivenNames x21
      clear_value x21
      split
      · rename_i x22 x23 x24 h25
        refine Touch.step (finishItem_touch ..) rfl ?_
        exact Touch.refl _ _
      · rename_i x26 h27
        refine Touch.ite ?_ ?_
        · refine Touch.step (finishItem_touch ..) rfl ?_
          exact Touch.refl _ _
        · split
          · rename_i x28 x29 h30
            refine Touch.step (finishItem_touch ..) rfl ?_
            refine Touch.step (eccReport_touch ..) rfl ?_
            exact Touch.refl _ _
          · rename_i x31 h32
            split
            · rename_i x33 x34 x35 h36
              have h37 : Touch 5992159567726311948418390424002500480906873213805160 x2 x35 := by
                refine TouchP.eq ?_ h36
                refine TouchP.step (fetchBytes_touch ..) rfl ?_
                exact Touch.refl _ _
              split
              · rename_i x38 x39 x40 h41
                have h42 : Touch 5992159567726311948418390424002500480906873213805160 x2 x40 := by
                  refine TouchP.eq ?_ h41
                  refine TouchP.step (unitSeed_touch ..) rfl ?_
                  exact h37
                extract_lets -merge +onlyGivenNames x43
                clear_value x43
                extract_lets -merge +onlyGivenNames x44
                clear_value x44
                extract_lets -merge +onlyGivenNames x45
                have h46 : Touch 5992159567726311948418390424002500480906873213805160 x2 x45 := by
                  unfold x45
                  refine Touch.step (memStore_touch ..) rfl ?_
                  exact h42
                clear_value x45
                split
                · rename_i x47 x48 h49
                  refine Touch.step (finishItem_touch ..) rfl ?_
                  exact h46
                · rename_i x50 h51
                  refine Touch.step (finishItem_touch ..) rfl ?_
                  exact h46
  · exact Touch.refl _ _

theorem execWorkVerify_touch {id : Nat} {s : State} : TouchOut 5992159567726311948418390424002500480906873213805160 s (execWorkVerify id s) := by
  unfold execWorkVerify
  refine TouchOut.step (withItem_touch rfl (fun x0 x1 x2 => ?_)) (Within.refl _) ?_
  · extract_lets -merge +onlyGivenNames x3
    clear_value x3
    extract_lets -merge +onlyGivenNames x4
    clear_value x4
    split
    · rename_i x5 x6 x7 h8
      refine Touch.step (finishItem_touch ..) rfl ?_
      exact Touch.refl _ _
    · rename_i x9 x10 x11 h12 h13
      refine Touch.step (finishItem_touch ..) rfl ?_
      exact Touch.refl _ _
    · rename_i x14 x15 h16 h17
      extract_lets -merge +onlyGivenNames x18
      clear_value x18
      extract_lets -merge +onlyGivenNames x19
      clear_value x19
      extract_lets -merge +onlyGivenNames x20
      clear_value x20
      extract_lets -merge +onlyGivenNames x21
      clear_value x21
      extract_lets -merge +onlyGivenNames x22
      clear_value x22
      extract_lets -merge +onlyGivenNames x23
      clear_value x23
      extract_lets -merge +onlyGivenNames x24
      clear_value x24
      extract_lets -merge +onlyGivenNames x25
      clear_value x25
      split
      · rename_i x26 x27 x28 h29
        refine Touch.step (finishItem_touch ..) rfl ?_
        exact Touch.refl _ _
      · rename_i x30 h31
        refine Touch.ite ?_ ?_
        · refine Touch.step (finishItem_touch ..) rfl ?_
          exact Touch.refl _ _
        · split
          · rename_i x32 x33 h34
            refine Touch.step (finishItem_touch ..) rfl ?_
            refine Touch.step (eccReport_touch ..) rfl ?_
            exact Touch.refl _ _
          · rename_i x35 h36
            split
            · rename_i x37 x38 x39 h40
              have h41 : Touch 5992159567726311948418390424002500480906873213805160 x2 x39 := by
                refine TouchP.eq ?_ h40
                refine TouchP.step (fetchBytes_touch ..) rfl ?_
                exact Touch.refl _ _
              split
              · rename_i x42 x43 x44 h45
                have h46 : Touch 5992159567726311948418390424002500480906873213805160 x2 x44 := by
                  refine TouchP.eq ?_ h45
                  refine TouchP.step (fetchBytes_touch ..) rfl ?_
                  exact h41
                split
                · rename_i x47 x48 x49 h50
                  have h51 : Touch 5992159567726311948418390424002500480906873213805160 x2 x49 := by
                    refine TouchP.eq ?_ h50
                    refine TouchP.step (fetchBytes_touch ..) rfl ?_
                    exact h46
                  extract_lets -merge +onlyGivenNames x52
                  clear_value x52
                  split
                  · rename_i x53 x54 h55
                    refine Touch.step (finishItem_touch ..) rfl ?_
                    exact h51
                  · rename_i x56 h57
                    split
                    · rename_i x58 x59 x60 h61
                      have h62 : Touch 5992159567726311948418390424002500480906873213805160 x2 x60 := by
                        refine TouchP.eq ?_ h61
                        refine TouchP.step (unitSeed_touch ..) rfl ?_
                        exact h51
                      extract_lets -merge +onlyGivenNames x63
                      clear_value x63
                      extract_lets -merge +onlyGivenNames x64
                      clear_value x64
                      extract_lets -merge +onlyGivenNames x65
                      have h66 : Touch 5992159567726311948418390424002500480906873213805160 x2 x65 := by
                        unfold x65
                        refine Touch.step (memStore_touch ..) rfl ?_
                        exact h62
                      clear_value x65
                      split
                      · rename_i x67 x68 h69
                        refine Touch.step (finishItem_touch ..) rfl ?_
                        exact h66
                      · rename_i x70 h71
                        refine Touch.step (finishItem_touch ..) rfl ?_
                        exact h66
  · exact Touch.refl _ _

theorem setMapEntry_touch {id : Nat} {v : Nat} {s : State} : Touch 18395938647103723002264799433617846963805458789629436016 s (setMapEntry id v s) := by
  unfold setMapEntry
  extract_lets -merge +onlyGivenNames x0
  clear_value x0
  refine Touch.step (setKw_touch ..) rfl ?_
  exact Touch.refl _ _

theorem retireSlot_touch {cl : Nat} {slot : Nat} {s : State} : Touch 18395938647103723002264799433617846963805458789629436016 s (retireSlot cl slot s) := by
  unfold retireSlot
  refine Touch.step (setKw_touch ..) rfl ?_
  exact Touch.refl _ _

theorem moveCore_touch {id : Nat} {old : Nat} {new : Nat} {cause : Nat} {s : State} : Touch 24519928653854221733733552434404946937899825950642725496 s (moveCore id old new cause s) := by
  unfold moveCore
  extract_lets -merge +onlyGivenNames x0
  clear_value x0
  extract_lets -merge +onlyGivenNames x1
  have h2 : Touch 24519928653854221733733552434404946937899825950642725496 s x1 := by
    unfold x1
    refine Touch.step (setMapEntry_touch ..) rfl ?_
    refine Touch.step (retireSlot_touch ..) rfl ?_
    exact Touch.refl _ _
  clear_value x1
  extract_lets -merge +onlyGivenNames x3
  have h4 : Touch 24519928653854221733733552434404946937899825950642725496 s x3 := by
    unfold x3
    refine Touch.step (resetCore_touch ..) rfl ?_
    refine Touch.step (zeroRange_touch ..) rfl ?_
    exact h2
  clear_value x3
  extract_lets -merge +onlyGivenNames x5
  have h6 : Touch 24519928653854221733733552434404946937899825950642725496 s x5 := by
    unfold x5
    refine Touch.step (modCore_touch ..) rfl ?_
    exact h4
  clear_value x5
  extract_lets -merge +onlyGivenNames x7
  subst x7
  extract_lets -merge +onlyGivenNames x8
  have h9 : Touch 24519928653854221733733552434404946937899825950642725496 s x8 := by
    unfold x8
    refine Touch.step (t := x5) (Touch.upd (F := 32768) rfl (Or.inr rfl)) rfl ?_
    exact h6
  clear_value x8
  extract_lets -merge +onlyGivenNames x10
  have h11 : Touch 24519928653854221733733552434404946937899825950642725496 s x10 := by
    unfold x10
    refine Touch.step (eicRelease_touch ..) rfl ?_
    exact h9
  clear_value x10
  extract_lets -merge +onlyGivenNames x12
  have h13 : Touch 24519928653854221733733552434404946937899825950642725496 s x12 := by
    unfold x12
    refine Touch.step (logRec_touch ..) rfl ?_
    exact h11
  clear_value x12
  refine Touch.step (eicEvent_touch ..) rfl ?_
  exact h13

theorem stopGroup_touch {id : Nat} {s : State} : Touch 540672 s (stopGroup id s) := by
  unfold stopGroup
  extract_lets -merge +onlyGivenNames x0
  clear_value x0
  extract_lets -merge +onlyGivenNames x1
  have h2 : Touch 540672 s x1 := by
    unfold x1
    refine Touch.foldl ?_ (fun x3 x4 h5 => ?_)
    · exact Touch.refl _ _
    · refine Touch.step (modCore_touch ..) rfl ?_
      exact h5
  clear_value x1
  refine Touch.step (dropLoads_touch ..) rfl ?_
  exact h2

theorem loseCore_touch {id : Nat} {slot : Nat} {s : State} : Touch 24519928653854221733733552434404946937899825950643314800 s (loseCore id slot s) := by
  unfold loseCore
  extract_lets -merge +onlyGivenNames x0
  clear_value x0
  extract_lets -merge +onlyGivenNames x1
  clear_value x1
  extract_lets -merge +onlyGivenNames x2
  have h3 : Touch 24519928653854221733733552434404946937899825950643314800 s x2 := by
    unfold x2
    refine Touch.step (setMapEntry_touch ..) rfl ?_
    refine Touch.step (retireSlot_touch ..) rfl ?_
    exact Touch.refl _ _
  clear_value x2
  extract_lets -merge +onlyGivenNames x4
  have h5 : Touch 24519928653854221733733552434404946937899825950643314800 s x4 := by
    unfold x4
    split
    · rename_i x6 x7 x8 h9
      refine Touch.step (abortKernel_touch ..) rfl ?_
      exact h3
    · rename_i x10 h11
      exact h3
  clear_value x4
  extract_lets -merge +onlyGivenNames x12
  have h13 : Touch 24519928653854221733733552434404946937899825950643314800 s x12 := by
    unfold x12
    refine Touch.step (resetCore_touch ..) rfl ?_
    exact h5
  clear_value x12
  extract_lets -merge +onlyGivenNames x14
  subst x14
  extract_lets -merge +onlyGivenNames x15
  have h16 : Touch 24519928653854221733733552434404946937899825950643314800 s x15 := by
    unfold x15
    refine Touch.step (t := x12) (Touch.upd (F := 32768) rfl (Or.inr rfl)) rfl ?_
    exact h13
  clear_value x15
  refine Touch.step (log_touch ..) rfl ?_
  exact h16

theorem coreFault_touch {id : Nat} {cause : CoreFault} {s : State} : Touch 24519928653854221733733552434404946937899825950643314800 s (coreFault id cause s) := by
  unfold coreFault
  extract_lets -merge +onlyGivenNames x0
  clear_value x0
  split
  · rename_i x1 h2
    exact Touch.refl _ _
  · rename_i x3 x4 h5
    refine Touch.ite ?_ ?_
    · exact Touch.refl _ _
    · extract_lets -merge +onlyGivenNames x6
      have h7 : Touch 24519928653854221733733552434404946937899825950643314800 s x6 := by
        unfold x6
        refine Touch.step (stopGroup_touch ..) rfl ?_
        exact Touch.refl _ _
      clear_value x6
      extract_lets -merge +onlyGivenNames x8
      clear_value x8
      refine Touch.ite ?_ ?_
      · refine Touch.step (t := x6) (Touch.upd (F := 32768) rfl (Or.inr rfl)) rfl ?_
        exact h7
      · refine Touch.step (loseCore_touch ..) rfl ?_
        exact h7

theorem execCoreFaultDetected_touch {id : Nat} {cause : CoreFault} {s : State} : TouchOut 24519928653854221733733552434404946937899825950643314800 s (execCoreFaultDetected id cause s) := by
  unfold execCoreFaultDetected
  refine TouchOut.ite ?_ ?_
  · exact TouchOut.fault _ _ _
  · refine TouchOut.step (whenOn_touch rfl (fun x0 => ?_)) (Within.refl _) ?_
    · refine Touch.step (coreFault_touch ..) rfl ?_
      exact Touch.refl _ _
    · exact Touch.refl _ _

theorem execCoreRemapRestart_touch {id : Nat} {s : State} : TouchOut 24519928653854221733733552434404946937899825951054488184 s (execCoreRemapRestart id s) := by
  unfold execCoreRemapRestart
  refine TouchOut.ite ?_ ?_
  · exact TouchOut.fault _ _ _
  · refine TouchOut.step (whenOn_touch rfl (fun x0 => ?_)) (Within.refl _) ?_
    · split
      · rename_i x1 x2 x3 x4 x5 h6
        extract_lets -merge +onlyGivenNames x7
        clear_value x7
        extract_lets -merge +onlyGivenNames x8
        subst x8
        extract_lets -merge +onlyGivenNames x9
        have h10 : Touch 24519928653854221733733552434404946937899825951054488184 x0 x9 := by
          unfold x9
          refine Touch.step (t := x0) (Touch.upd (F := 32768) rfl (Or.inr rfl)) rfl ?_
          exact Touch.refl _ _
        clear_value x9
        extract_lets -merge +onlyGivenNames x11
        have h12 : Touch 24519928653854221733733552434404946937899825951054488184 x0 x11 := by
          unfold x11
          refine Touch.step (moveCore_touch ..) rfl ?_
          exact h10
        clear_value x11
        split
        · rename_i x13
          exact h12
        · rename_i x14 x15 x16
          refine Touch.ite ?_ ?_
          · extract_lets -merge +onlyGivenNames x17
            subst x17
            extract_lets -merge +onlyGivenNames x18
            have h19 : Touch 24519928653854221733733552434404946937899825951054488184 x0 x18 := by
              unfold x18
              refine Touch.step (t := x11) (Touch.upd (F := 65536) rfl (Or.inr rfl)) rfl ?_
              exact h12
            clear_value x18
            refine Touch.step (startGroup_touch ..) rfl ?_
            exact h19
          · refine Touch.step (abortKernel_touch ..) rfl ?_
            exact h12
      · rename_i x20 h21
        exact Touch.refl _ _
    · exact Touch.refl _ _

theorem execCoreRemapAtKernelEnd_touch {id : Nat} {s : State} : TouchOut 24519928653854221733733552434404946937899825950642725496 s (execCoreRemapAtKernelEnd id s) := by
  unfold execCoreRemapAtKernelEnd
  refine TouchOut.ite ?_ ?_
  · exact TouchOut.fault _ _ _
  · refine TouchOut.step (whenOn_touch rfl (fun x0 => ?_)) (Within.refl _) ?_
    · extract_lets -merge +onlyGivenNames x1
      clear_value x1
      split
      · rename_i x2 x3 h4
        refine Touch.ite ?_ ?_
        · refine Touch.ite ?_ ?_
          · refine Touch.step (moveCore_touch ..) rfl ?_
            exact Touch.refl _ _
          · refine Touch.step (log_touch ..) rfl ?_
            refine Touch.step (t := x0) (Touch.upd (F := 32768) rfl (Or.inr rfl)) rfl ?_
            exact Touch.refl _ _
        · exact Touch.refl _ _
      · rename_i x5 h6
        exact Touch.refl _ _
    · exact Touch.refl _ _

theorem execSpareSelfTest_touch {cl : Nat} {pass : Bool} {s : State} : TouchOut 18395938647103723002264799433617846963805458789629436016 s (execSpareSelfTest cl pass s) := by
  unfold execSpareSelfTest
  refine TouchOut.ite ?_ ?_
  · exact TouchOut.fault _ _ _
  · refine TouchOut.step (whenOn_touch rfl (fun x0 => ?_)) (Within.refl _) ?_
    · refine Touch.ite ?_ ?_
      · refine Touch.step (log_touch ..) rfl ?_
        refine Touch.step (retireSlot_touch ..) rfl ?_
        exact Touch.refl _ _
      · exact Touch.refl _ _
    · exact Touch.refl _ _

theorem execMeDescriptorTimeout_touch {id : Nat} {s : State} : TouchOut 24519928653854221733733552434404946937899825950643314800 s (execMeDescriptorTimeout id s) := by
  unfold execMeDescriptorTimeout
  refine TouchOut.ite ?_ ?_
  · exact TouchOut.fault _ _ _
  · refine TouchOut.step (whenArray_touch rfl (fun x0 => ?_)) (Within.refl _) ?_
    · refine Touch.ite ?_ ?_
      · exact Touch.refl _ _
      · refine Touch.step (coreFault_touch ..) rfl ?_
        exact Touch.refl _ _
    · exact Touch.refl _ _

end Sys2Proof.Machine
end

