-- ==== Sys2Proof/Laws/TouchDomain.lean ====
section
/-! SUPPORT. What each function of the model may touch (Laws/Touch.lean): domains: state keeping, the layer pipeline and recovery. One lemma for each function; the footprint is the union of what its body writes. -/

namespace Sys2Proof.Machine

open Sys2Proof

theorem doorGate_touch {a : Agent} {d : Nat} {s : State} {f : Domain → State → State} {F : Nat} (hF : Within 2475880078570760566978117632 F) (hf : ∀ (y0 : Domain) (y1 : State), Touch F y1 (f y0 y1)) : Touch F s (doorGate a d s f) := by
  unfold doorGate
  extract_lets -merge +onlyGivenNames x0
  subst x0
  split
  · rename_i x1 x2
    beta_reduce
    split
    · rename_i x3 x4 h5
      refine Touch.ite ?_ ?_
      · refine Touch.step (hf ..) (Within.refl _) ?_
        exact Touch.refl _ _
      · refine Touch.step (pageIgnored_touch ..) (.trans rfl hF) ?_
        exact Touch.refl _ _
    · rename_i x6 h7
      refine Touch.step (pageIgnored_touch ..) (.trans rfl hF) ?_
      exact Touch.refl _ _
  · rename_i x8
    beta_reduce
    split
    · rename_i x9 x10 h11
      refine Touch.ite ?_ ?_
      · refine Touch.step (hf ..) (Within.refl _) ?_
        exact Touch.refl _ _
      · refine Touch.step (pageIgnored_touch ..) (.trans rfl hF) ?_
        exact Touch.refl _ _
    · rename_i x12 h13
      refine Touch.step (pageIgnored_touch ..) (.trans rfl hF) ?_
      exact Touch.refl _ _
  · rename_i x14 x15
    refine Touch.step (withDom_touch (.trans rfl hF) (fun x16 x17 => ?_)) (Within.refl _) ?_
    · refine Touch.step (hf ..) (Within.refl _) ?_
      exact Touch.refl _ _
    · exact Touch.refl _ _
  · rename_i x18
    refine Touch.step (withDom_touch (.trans rfl hF) (fun x19 x20 => ?_)) (Within.refl _) ?_
    · refine Touch.step (hf ..) (Within.refl _) ?_
      exact Touch.refl _ _
    · exact Touch.refl _ _
  · rename_i x21 h22 h23 h24 h25
    exact Touch.refl _ _

theorem whenDoor_touch {a : Agent} {s : State} {f : State → State} {F : Nat} (hF : Within 2475880078570760566978117632 F) (hf : ∀ (y0 : State), Touch F y0 (f y0)) : TouchOut F s (whenDoor a s f) := by
  unfold whenDoor
  split
  · rename_i x0 x1
    refine TouchOut.step (whenPage_touch (.trans rfl hF) (fun x2 => ?_)) (Within.refl _) ?_
    · refine Touch.step (hf ..) (Within.refl _) ?_
      exact Touch.refl _ _
    · exact Touch.refl _ _
  · rename_i x3
    refine TouchOut.step (whenPage_touch (.trans rfl hF) (fun x4 => ?_)) (Within.refl _) ?_
    · refine Touch.step (hf ..) (Within.refl _) ?_
      exact Touch.refl _ _
    · exact Touch.refl _ _
  · rename_i x5 h6 h7
    refine TouchOut.step (whenOn_touch (.trans rfl hF) (fun x8 => ?_)) (Within.refl _) ?_
    · refine Touch.step (hf ..) (Within.refl _) ?_
      exact Touch.refl _ _
    · exact Touch.refl _ _

theorem execSteepDoorbell_touch {origin : Agent} {d : Nat} {v : Word} {s : State} : TouchOut 5992156713056701964635110290018019589695454083953376 s (execSteepDoorbell origin d v s) := by
  unfold execSteepDoorbell
  refine TouchOut.step (whenDoor_touch rfl (fun x0 => ?_)) (Within.refl _) ?_
  · refine Touch.step (doorGate_touch rfl (fun x1 x2 => ?_)) (Within.refl _) ?_
    · refine Touch.step (ringDoorbell_touch ..) rfl ?_
      exact Touch.refl _ _
    · exact Touch.refl _ _
  · exact Touch.refl _ _

theorem cadGate_touch {a : Agent} {d : Nat} {s : State} {f : State → State} {F : Nat} (hF : Within 17179869184 F) (hf : ∀ (y0 : State), Touch F y0 (f y0)) : Touch F s (cadGate a d s f) := by
  unfold cadGate
  split
  · rename_i x0
    refine Touch.step (hf ..) (Within.refl _) ?_
    exact Touch.refl _ _
  · rename_i x1
    refine Touch.step (hf ..) (Within.refl _) ?_
    exact Touch.refl _ _
  · rename_i x2
    refine Touch.step (ignored_touch ..) (.trans rfl hF) ?_
    exact Touch.refl _ _
  · rename_i x3 x4
    split
    · rename_i x5 x6 x7 x8 x9 h10 h11
      refine Touch.ite ?_ ?_
      · refine Touch.step (hf ..) (Within.refl _) ?_
        exact Touch.refl _ _
      · exact Touch.refl _ _
    · rename_i x12 x13 h14
      exact Touch.refl _ _
  · rename_i x15 h16 h17 h18 h19
    exact Touch.refl _ _

theorem clearCad_touch {d : Nat} {s : State} : Touch 24519928653854221733733552434404946937899825950642667520 s (clearCad d s) := by
  unfold clearCad
  refine Touch.foldl ?_ (fun x0 x1 h2 => ?_)
  · exact Touch.refl _ _
  · refine Touch.step (clearReg_touch ..) (.trans (regFoot_within _) rfl) ?_
    exact h2

theorem armHeartbeat_touch {s : State} : Touch 3848290701312 s (armHeartbeat s) := by
  unfold armHeartbeat
  extract_lets -merge +onlyGivenNames x0
  clear_value x0
  refine Touch.ite ?_ ?_
  · exact Touch.refl _ _
  · extract_lets -merge +onlyGivenNames x1
    have h2 : Touch 3848290701312 s x1 := by
      unfold x1
      refine Touch.step (setReg_touch ..) rfl ?_
      exact Touch.refl _ _
    clear_value x1
    extract_lets -merge +onlyGivenNames x3
    have h4 : Touch 3848290701312 s x3 := by
      unfold x3
      refine Touch.step (setReg_touch ..) rfl ?_
      exact h2
    clear_value x3
    refine Touch.step (tcmpWrite_touch ..) rfl ?_
    exact h4

theorem domainReq_touch {c : Caller} {q : DomainReq} {s : State} : TouchP 24519928653854221733733552434404946937899825950912286720 s (domainReq c q s) := by
  unfold domainReq
  extract_lets -merge +onlyGivenNames x0
  clear_value x0
  refine TouchP.ite ?_ ?_
  · refine TouchP.step (refuse_touch ..) rfl ?_
    exact Touch.refl _ _
  · split
    · rename_i x1 x2 x3 h4
      refine TouchP.step (refuseAt_touch ..) rfl ?_
      exact Touch.refl _ _
    · rename_i x5 h6
      split
      · rename_i x7 x8 x9 x10 h11 h12
        extract_lets -merge +onlyGivenNames x13
        clear_value x13
        extract_lets -merge +onlyGivenNames x14
        clear_value x14
        split
        · rename_i x15 x16 x17 h18
          have h19 : Touch 24519928653854221733733552434404946937899825950912286720 s x17 := by
            refine TouchP.eq ?_ h18
            refine TouchP.foldl ?_ (fun x20 x21 h22 => ?_)
            · refine TouchP.mk' ?_
              exact Touch.refl _ _
            · split
              · rename_i x23 x24 x25 h26
                have h27 : Touch 24519928653854221733733552434404946937899825950912286720 s x25 := by
                  refine TouchP.eq ?_ h26
                  refine TouchP.step (draw_touch ..) rfl ?_
                  show TouchP _ _ _
                  exact h22
                split
                · rename_i x28 x29 x30 h31
                  have h32 : Touch 24519928653854221733733552434404946937899825950912286720 s x30 := by
                    refine TouchP.eq ?_ h31
                    refine TouchP.step (draw_touch ..) rfl ?_
                    exact h27
                  refine TouchP.mk' ?_
                  exact h32
          extract_lets -merge +onlyGivenNames x33
          clear_value x33
          extract_lets -merge +onlyGivenNames x34
          have h35 : Touch 24519928653854221733733552434404946937899825950912286720 s x34 := by
            unfold x34
            refine Touch.step (clearCad_touch ..) rfl ?_
            refine Touch.step (setDom_touch ..) rfl ?_
            exact h19
          clear_value x34
          extract_lets -merge +onlyGivenNames x36
          clear_value x36
          extract_lets -merge +onlyGivenNames x37
          have h38 : Touch 24519928653854221733733552434404946937899825950912286720 s x37 := by
            unfold x37
            refine Touch.step (setSlice_touch ..) rfl ?_
            exact h35
          clear_value x37
          extract_lets -merge +onlyGivenNames x39
          have h40 : Touch 24519928653854221733733552434404946937899825950912286720 s x39 := by
            unfold x39
            refine Touch.ite ?_ ?_
            · refine Touch.step (armHeartbeat_touch ..) rfl ?_
              exact h38
            · exact h38
          clear_value x39
          refine TouchP.step (accept_touch ..) rfl ?_
          exact h40
      · rename_i x41 x42 h43
        refine TouchP.step (refuse_touch ..) rfl ?_
        exact Touch.refl _ _

theorem execDomainCreate_touch {c : Caller} {q : DomainReq} {s : State} : TouchOut 24519928653854221733733552434404946937899825951046505088 s (execDomainCreate c q s) := by
  unfold execDomainCreate
  refine TouchOut.step (whenOn_touch rfl (fun x0 => ?_)) (Within.refl _) ?_
  · refine Touch.step (mbxServe_touch rfl (fun x1 x2 => ?_)) (Within.refl _) ?_
    · refine TouchP.step (domainReq_touch ..) rfl ?_
      exact Touch.refl _ _
    · exact Touch.refl _ _
  · exact Touch.refl _ _

theorem withOwnDom_touch {c : Caller} {op : Nat} {d : Nat} {s : State} {f : Domain → State → Option Reply × State} {F : Nat} (hF : Within 0 F) (hf : ∀ (y0 : Domain) (y1 : State), TouchP F y1 (f y0 y1)) : TouchP F s (withOwnDom c op d s f) := by
  unfold withOwnDom
  split
  · rename_i x0 h1
    refine TouchP.step (refuseAt_touch ..) (.trans rfl hF) ?_
    exact Touch.refl _ _
  · rename_i x2 x3 h4
    refine TouchP.ite ?_ ?_
    · refine TouchP.step (refuseAt_touch ..) (.trans rfl hF) ?_
      exact Touch.refl _ _
    · refine TouchP.ite ?_ ?_
      · refine TouchP.step (refuse_touch ..) (.trans rfl hF) ?_
        exact Touch.refl _ _
      · refine TouchP.step (hf ..) (Within.refl _) ?_
        exact Touch.refl _ _

theorem domainDrop_touch {d : Nat} {s : State} : Touch 24519928653854221733733552434404946937899825950643847168 s (domainDrop d s) := by
  unfold domainDrop
  split
  · rename_i x0 h1
    exact Touch.refl _ _
  · rename_i x2 x3 h4
    extract_lets -merge +onlyGivenNames x5
    have h6 : Touch 24519928653854221733733552434404946937899825950643847168 s x5 := by
      unfold x5
      refine Touch.step (t := s) (Touch.upd (F := 131072) rfl (Or.inr rfl)) rfl ?_
      exact Touch.refl _ _
    clear_value x5
    extract_lets -merge +onlyGivenNames x7
    clear_value x7
    refine Touch.step (clearCad_touch ..) rfl ?_
    refine Touch.step (setSlice_touch ..) rfl ?_
    exact h6

theorem execDomainDestroy_touch {c : Caller} {d : Nat} {s : State} : TouchOut 24519928653854221733733552434404946937899825950778065536 s (execDomainDestroy c d s) := by
  unfold execDomainDestroy
  refine TouchOut.step (whenOn_touch rfl (fun x0 => ?_)) (Within.refl _) ?_
  · refine Touch.step (mbxServe_touch rfl (fun x1 x2 => ?_)) (Within.refl _) ?_
    · refine TouchP.step (withOwnDom_touch rfl (fun x3 x4 => ?_)) (Within.refl _) ?_
      · refine TouchP.step (accept_touch ..) rfl ?_
        refine Touch.step (domainDrop_touch ..) rfl ?_
        exact Touch.refl _ _
      · exact Touch.refl _ _
    · exact Touch.refl _ _
  · exact Touch.refl _ _

theorem regionReq_touch {q : RegionReq} {D : Domain} {s : State} : TouchP 131072 s (regionReq q D s) := by
  unfold regionReq
  split
  · rename_i x0 x1 x2 h3
    refine TouchP.step (refuseAt_touch ..) rfl ?_
    exact Touch.refl _ _
  · rename_i x4 h5
    extract_lets -merge +onlyGivenNames x6
    clear_value x6
    extract_lets -merge +onlyGivenNames x7
    clear_value x7
    refine TouchP.step (accept_touch ..) rfl ?_
    refine Touch.step (setDom_touch ..) rfl ?_
    exact Touch.refl _ _

theorem execRegionAdd_touch {c : Caller} {q : RegionReq} {s : State} : TouchOut 134349440 s (execRegionAdd c q s) := by
  unfold execRegionAdd
  refine TouchOut.step (whenOn_touch rfl (fun x0 => ?_)) (Within.refl _) ?_
  · refine Touch.step (mbxServe_touch rfl (fun x1 x2 => ?_)) (Within.refl _) ?_
    · refine TouchP.step (withOwnDom_touch rfl (fun x3 x4 => ?_)) (Within.refl _) ?_
      · refine TouchP.step (regionReq_touch ..) rfl ?_
        exact Touch.refl _ _
      · exact Touch.refl _ _
    · exact Touch.refl _ _
  · exact Touch.refl _ _

theorem execRegionRemove_touch {c : Caller} {d : Nat} {region : Nat} {s : State} : TouchOut 134349440 s (execRegionRemove c d region s) := by
  unfold execRegionRemove
  refine TouchOut.step (whenOn_touch rfl (fun x0 => ?_)) (Within.refl _) ?_
  · refine Touch.step (mbxServe_touch rfl (fun x1 x2 => ?_)) (Within.refl _) ?_
    · refine TouchP.step (withOwnDom_touch rfl (fun x3 x4 => ?_)) (Within.refl _) ?_
      · refine TouchP.ite ?_ ?_
        · refine TouchP.step (accept_touch ..) rfl ?_
          refine Touch.step (setDom_touch ..) rfl ?_
          exact Touch.refl _ _
        · refine TouchP.step (refuseAt_touch ..) rfl ?_
          exact Touch.refl _ _
      · exact Touch.refl _ _
    · exact Touch.refl _ _
  · exact Touch.refl _ _

theorem execLayerAdd_touch {c : Caller} {d : Nat} {q : LayerReq} {s : State} : TouchOut 134349440 s (execLayerAdd c d q s) := by
  unfold execLayerAdd
  refine TouchOut.step (whenOn_touch rfl (fun x0 => ?_)) (Within.refl _) ?_
  · refine Touch.step (mbxServe_touch rfl (fun x1 x2 => ?_)) (Within.refl _) ?_
    · refine TouchP.step (withOwnDom_touch rfl (fun x3 x4 => ?_)) (Within.refl _) ?_
      · split
        · rename_i x5 x6 x7 h8
          refine TouchP.step (refuseAt_touch ..) rfl ?_
          exact Touch.refl _ _
        · rename_i x9 h10
          refine TouchP.step (accept_touch ..) rfl ?_
          refine Touch.step (setDom_touch ..) rfl ?_
          exact Touch.refl _ _
      · exact Touch.refl _ _
    · exact Touch.refl _ _
  · exact Touch.refl _ _

theorem execLayerRemove_touch {c : Caller} {d : Nat} {layer : Nat} {s : State} : TouchOut 134349440 s (execLayerRemove c d layer s) := by
  unfold execLayerRemove
  refine TouchOut.step (whenOn_touch rfl (fun x0 => ?_)) (Within.refl _) ?_
  · refine Touch.step (mbxServe_touch rfl (fun x1 x2 => ?_)) (Within.refl _) ?_
    · refine TouchP.step (withOwnDom_touch rfl (fun x3 x4 => ?_)) (Within.refl _) ?_
      · refine TouchP.ite ?_ ?_
        · refine TouchP.step (accept_touch ..) rfl ?_
          refine Touch.step (setDom_touch ..) rfl ?_
          exact Touch.refl _ _
        · refine TouchP.step (refuseAt_touch ..) rfl ?_
          exact Touch.refl _ _
      · exact Touch.refl _ _
    · exact Touch.refl _ _
  · exact Touch.refl _ _

theorem zeroCredits_touch {D : Domain} {s : State} : Touch 553402322211420946440 s (zeroCredits D s) := by
  unfold zeroCredits
  refine Touch.foldl ?_ (fun x0 x1 h2 => ?_)
  · exact Touch.refl _ _
  · refine Touch.step (memStore_touch ..) rfl ?_
    exact h2

theorem armCaddyCmp_touch {d : Nat} {s : State} : Touch 3848290832384 s (armCaddyCmp d s) := by
  unfold armCaddyCmp
  split
  · rename_i x0 x1 h2
    extract_lets -merge +onlyGivenNames x3
    clear_value x3
    extract_lets -merge +onlyGivenNames x4
    clear_value x4
    extract_lets -merge +onlyGivenNames x5
    have h6 : Touch 3848290832384 s x5 := by
      unfold x5
      refine Touch.step (cmpTake_touch ..) rfl ?_
      exact Touch.refl _ _
    clear_value x5
    extract_lets -merge +onlyGivenNames x7
    have h8 : Touch 3848290832384 s x7 := by
      unfold x7
      refine Touch.step (setReg_touch ..) rfl ?_
      exact h6
    clear_value x7
    extract_lets -merge +onlyGivenNames x9
    have h10 : Touch 3848290832384 s x9 := by
      unfold x9
      refine Touch.step (setReg_touch ..) rfl ?_
      exact h8
    clear_value x9
    extract_lets -merge +onlyGivenNames x11
    have h12 : Touch 3848290832384 s x11 := by
      unfold x11
      refine Touch.step (tcmpWrite_touch ..) rfl ?_
      exact h10
    clear_value x11
    refine Touch.step (modDom_touch ..) rfl ?_
    exact h12
  · rename_i x13 h14
    exact Touch.refl _ _

theorem releaseCaddyCmp_touch {d : Nat} {s : State} : Touch 549755949056 s (releaseCaddyCmp d s) := by
  unfold releaseCaddyCmp
  split
  · rename_i x0 x1 h2
    split
    · rename_i x3 x4 h5
      extract_lets -merge +onlyGivenNames x6
      have h7 : Touch 549755949056 s x6 := by
        unfold x6
        refine Touch.step (cmpDisarm_touch ..) rfl ?_
        exact Touch.refl _ _
      clear_value x6
      refine Touch.step (modDom_touch ..) rfl ?_
      refine Touch.step (t := x6) (Touch.upd (F := 4096) rfl (Or.inr rfl)) rfl ?_
      exact h7
    · rename_i x8 h9
      exact Touch.refl _ _
  · rename_i x10 h11
    exact Touch.refl _ _

theorem armDomain_touch {d : Nat} {D : Domain} {s : State} : Touch 38357699025068513218568 s (armDomain d D s) := by
  unfold armDomain
  extract_lets -merge +onlyGivenNames x0
  clear_value x0
  extract_lets -merge +onlyGivenNames x1
  have h2 : Touch 38357699025068513218568 s x1 := by
    unfold x1
    refine Touch.step (setDom_touch ..) rfl ?_
    exact Touch.refl _ _
  clear_value x1
  extract_lets -merge +onlyGivenNames x3
  have h4 : Touch 38357699025068513218568 s x3 := by
    unfold x3
    refine Touch.step (t := x1) (fresh_touch x1) rfl ?_
    exact h2
  clear_value x3
  extract_lets -merge +onlyGivenNames x5
  have h6 : Touch 38357699025068513218568 s x5 := by
    unfold x5
    refine Touch.step (setReg_touch ..) rfl ?_
    exact h4
  clear_value x5
  extract_lets -merge +onlyGivenNames x7
  have h8 : Touch 38357699025068513218568 s x7 := by
    unfold x7
    refine Touch.step (setReg_touch ..) rfl ?_
    exact h6
  clear_value x7
  extract_lets -merge +onlyGivenNames x9
  have h10 : Touch 38357699025068513218568 s x9 := by
    unfold x9
    refine Touch.step (setReg_touch ..) rfl ?_
    exact h8
  clear_value x9
  extract_lets -merge +onlyGivenNames x11
  have h12 : Touch 38357699025068513218568 s x11 := by
    unfold x11
    refine Touch.step (setReg_touch ..) rfl ?_
    exact h10
  clear_value x11
  extract_lets -merge +onlyGivenNames x13
  have h14 : Touch 38357699025068513218568 s x13 := by
    unfold x13
    refine Touch.step (setReg_touch ..) rfl ?_
    exact h12
  clear_value x13
  extract_lets -merge +onlyGivenNames x15
  have h16 : Touch 38357699025068513218568 s x15 := by
    unfold x15
    refine Touch.step (setReg_touch ..) rfl ?_
    exact h14
  clear_value x15
  extract_lets -merge +onlyGivenNames x17
  subst x17
  extract_lets -merge +onlyGivenNames x18
  subst x18
  extract_lets -merge +onlyGivenNames x19
  have h20 : Touch 38357699025068513218568 s x19 := by
    unfold x19
    refine Touch.step (t := x15) (Touch.upd (F := 67371008) rfl (Or.inr rfl)) rfl ?_
    exact h16
  clear_value x19
  extract_lets -merge +onlyGivenNames x21
  have h22 : Touch 38357699025068513218568 s x21 := by
    unfold x21
    refine Touch.step (zeroCredits_touch ..) rfl ?_
    exact h20
  clear_value x21
  extract_lets -merge +onlyGivenNames x23
  have h24 : Touch 38357699025068513218568 s x23 := by
    unfold x23
    refine Touch.ite ?_ ?_
    · refine Touch.step (armCaddyCmp_touch ..) rfl ?_
      exact h22
    · exact h22
  clear_value x23
  refine Touch.step (armHeartbeat_touch ..) rfl ?_
  exact h24

theorem disarmDomain_touch {d : Nat} {s : State} : Touch 76720009166057935917064 s (disarmDomain d s) := by
  unfold disarmDomain
  extract_lets -merge +onlyGivenNames x0
  have h1 : Touch 76720009166057935917064 s x0 := by
    unfold x0
    refine Touch.step (releaseCaddyCmp_touch ..) rfl ?_
    exact Touch.refl _ _
  clear_value x0
  extract_lets -merge +onlyGivenNames x2
  have h3 : Touch 76720009166057935917064 s x2 := by
    unfold x2
    refine Touch.step (modDom_touch ..) rfl ?_
    exact h1
  clear_value x2
  extract_lets -merge +onlyGivenNames x4
  have h5 : Touch 76720009166057935917064 s x4 := by
    unfold x4
    refine Touch.step (endAllStalls_touch ..) rfl ?_
    exact h3
  clear_value x4
  extract_lets -merge +onlyGivenNames x6
  have h7 : Touch 76720009166057935917064 s x6 := by
    unfold x6
    refine Touch.step (setReg_touch ..) rfl ?_
    exact h5
  clear_value x6
  extract_lets -merge +onlyGivenNames x8
  have h9 : Touch 76720009166057935917064 s x8 := by
    unfold x8
    refine Touch.step (setReg_touch ..) rfl ?_
    exact h7
  clear_value x8
  extract_lets -merge +onlyGivenNames x10
  have h11 : Touch 76720009166057935917064 s x10 := by
    unfold x10
    refine Touch.step (setReg_touch ..) rfl ?_
    exact h9
  clear_value x10
  extract_lets -merge +onlyGivenNames x12
  subst x12
  extract_lets -merge +onlyGivenNames x13
  have h14 : Touch 76720009166057935917064 s x13 := by
    unfold x13
    refine Touch.ite ?_ ?_
    · refine Touch.step (t := x10) (Touch.upd (F := 67108864) rfl (Or.inr rfl)) rfl ?_
      exact h11
    · exact h11
  clear_value x13
  refine Touch.step (setFld_touch ..) rfl ?_
  exact h14

theorem pipeBusy_touch {d : Nat} {s : State} : Touch 562949953421312 s (pipeBusy d s) := by
  unfold pipeBusy
  split
  · rename_i x0 h1
    exact Touch.refl _ _
  · rename_i x2 x3 h4
    extract_lets -merge +onlyGivenNames x5
    clear_value x5
    refine Touch.step (setFld_touch ..) rfl ?_
    exact Touch.refl _ _

theorem cadCtlWrite_touch {d : Nat} {v : Nat} {s : State} : Touch 114505858842816519000072 s (cadCtlWrite d v s) := by
  unfold cadCtlWrite
  extract_lets -merge +onlyGivenNames x0
  clear_value x0
  extract_lets -merge +onlyGivenNames x1
  have h2 : Touch 114505858842816519000072 s x1 := by
    unfold x1
    refine Touch.step (setReg_touch ..) rfl ?_
    exact Touch.refl _ _
  clear_value x1
  refine Touch.ite ?_ ?_
  · refine Touch.step (pipeBusy_touch ..) rfl ?_
    exact h2
  · refine Touch.ite ?_ ?_
    · refine Touch.step (disarmDomain_touch ..) rfl ?_
      refine Touch.step (setFld_touch ..) rfl ?_
      exact h2
    · split
      · rename_i x3 x4 h5
        refine Touch.ite ?_ ?_
        · refine Touch.step (armDomain_touch ..) rfl ?_
          refine Touch.step (setFld_touch ..) rfl ?_
          exact h2
        · refine Touch.step (setFld_touch ..) rfl ?_
          exact h2
      · rename_i x6 h7
        refine Touch.step (setFld_touch ..) rfl ?_
        exact h2

theorem execDomainArm_touch {a : Agent} {d : Nat} {v : Word} {s : State} : TouchOut 114505858842833698869256 s (execDomainArm a d v s) := by
  unfold execDomainArm
  refine TouchOut.step (whenOn_touch rfl (fun x0 => ?_)) (Within.refl _) ?_
  · refine Touch.ite ?_ ?_
    · refine Touch.step (cadGate_touch rfl (fun x1 => ?_)) (Within.refl _) ?_
      · refine Touch.step (cadCtlWrite_touch ..) rfl ?_
        exact Touch.refl _ _
      · exact Touch.refl _ _
    · exact Touch.refl _ _
  · exact Touch.refl _ _

theorem execDomainDisarm_touch {a : Agent} {d : Nat} {v : Word} {s : State} : TouchOut 114505858842833698869256 s (execDomainDisarm a d v s) := by
  unfold execDomainDisarm
  refine TouchOut.step (whenOn_touch rfl (fun x0 => ?_)) (Within.refl _) ?_
  · refine Touch.ite ?_ ?_
    · refine Touch.step (cadGate_touch rfl (fun x1 => ?_)) (Within.refl _) ?_
      · refine Touch.step (cadCtlWrite_touch ..) rfl ?_
        exact Touch.refl _ _
      · exact Touch.refl _ _
    · exact Touch.refl _ _
  · exact Touch.refl _ _

theorem execDomainLrWrite_touch {a : Agent} {d : Nat} {v : Word} {s : State} : TouchOut 74309411031482368 s (execDomainLrWrite a d v s) := by
  unfold execDomainLrWrite
  refine TouchOut.step (whenOn_touch rfl (fun x0 => ?_)) (Within.refl _) ?_
  · refine Touch.step (cadGate_touch rfl (fun x1 => ?_)) (Within.refl _) ?_
    · unfold scalarWrite
      refine Touch.ite ?_ ?_
      · refine Touch.step (setReg_touch ..) rfl ?_
        exact Touch.refl _ _
      · refine Touch.step (bump_touch ..) rfl ?_
        exact Touch.refl _ _
    · exact Touch.refl _ _
  · exact Touch.refl _ _

theorem execDomainGscaleWrite_touch {a : Agent} {d : Nat} {v : Word} {s : State} : TouchOut 76561210845167616 s (execDomainGscaleWrite a d v s) := by
  unfold execDomainGscaleWrite
  refine TouchOut.step (whenOn_touch rfl (fun x0 => ?_)) (Within.refl _) ?_
  · refine Touch.step (cadGate_touch rfl (fun x1 => ?_)) (Within.refl _) ?_
    · unfold scalarWrite
      refine Touch.ite ?_ ?_
      · refine Touch.step (setReg_touch ..) rfl ?_
        exact Touch.refl _ _
      · refine Touch.step (bump_touch ..) rfl ?_
        exact Touch.refl _ _
    · exact Touch.refl _ _
  · exact Touch.refl _ _

theorem cadWrite_touch {d : Nat} {n : RegName} {a2 : Bool} {v : Nat} {s : State} : Touch 24519928653854221733733552434404946937899825951112876040 s (cadWrite d n a2 v s) := by
  unfold cadWrite
  split
  · rename_i x0
    refine Touch.step (cadCtlWrite_touch ..) rfl ?_
    exact Touch.refl _ _
  · rename_i x1
    unfold scalarWrite
    refine Touch.ite ?_ ?_
    · refine Touch.step (setReg_touch ..) rfl ?_
      exact Touch.refl _ _
    · refine Touch.step (bump_touch ..) rfl ?_
      exact Touch.refl _ _
  · rename_i x2
    unfold scalarWrite
    refine Touch.ite ?_ ?_
    · refine Touch.step (setReg_touch ..) rfl ?_
      exact Touch.refl _ _
    · refine Touch.step (bump_touch ..) rfl ?_
      exact Touch.refl _ _
  · rename_i x3
    refine Touch.ite ?_ ?_
    · refine Touch.step (ignored_touch ..) rfl ?_
      exact Touch.refl _ _
    · refine Touch.ite ?_ ?_
      · exact Touch.refl _ _
      · refine Touch.ite ?_ ?_
        · refine Touch.step (ignored_touch ..) rfl ?_
          exact Touch.refl _ _
        · extract_lets -merge +onlyGivenNames x4
          have h5 : Touch 24519928653854221733733552434404946937899825951112876040 s x4 := by
            unfold x4
            refine Touch.step (regPut_touch ..) rfl ?_
            exact Touch.refl _ _
          clear_value x4
          refine Touch.ite ?_ ?_
          · exact Touch.refl _ _
          · exact h5
  · rename_i x6
    refine Touch.ite ?_ ?_
    · refine Touch.step (ignored_touch ..) rfl ?_
      exact Touch.refl _ _
    · refine Touch.ite ?_ ?_
      · exact Touch.refl _ _
      · refine Touch.ite ?_ ?_
        · refine Touch.step (ignored_touch ..) rfl ?_
          exact Touch.refl _ _
        · extract_lets -merge +onlyGivenNames x7
          have h8 : Touch 24519928653854221733733552434404946937899825951112876040 s x7 := by
            unfold x7
            refine Touch.step (regPut_touch ..) rfl ?_
            exact Touch.refl _ _
          clear_value x7
          refine Touch.ite ?_ ?_
          · exact Touch.refl _ _
          · exact h8
  · rename_i x9
    refine Touch.ite ?_ ?_
    · refine Touch.step (ignored_touch ..) rfl ?_
      exact Touch.refl _ _
    · refine Touch.ite ?_ ?_
      · exact Touch.refl _ _
      · refine Touch.ite ?_ ?_
        · refine Touch.step (ignored_touch ..) rfl ?_
          exact Touch.refl _ _
        · extract_lets -merge +onlyGivenNames x10
          have h11 : Touch 24519928653854221733733552434404946937899825951112876040 s x10 := by
            unfold x10
            refine Touch.step (regPut_touch ..) rfl ?_
            exact Touch.refl _ _
          clear_value x10
          refine Touch.ite ?_ ?_
          · exact Touch.refl _ _
          · exact h11
  · rename_i x12
    refine Touch.ite ?_ ?_
    · refine Touch.step (ignored_touch ..) rfl ?_
      exact Touch.refl _ _
    · refine Touch.ite ?_ ?_
      · exact Touch.refl _ _
      · refine Touch.ite ?_ ?_
        · refine Touch.step (ignored_touch ..) rfl ?_
          exact Touch.refl _ _
        · extract_lets -merge +onlyGivenNames x13
          have h14 : Touch 24519928653854221733733552434404946937899825951112876040 s x13 := by
            unfold x13
            refine Touch.step (regPut_touch ..) rfl ?_
            exact Touch.refl _ _
          clear_value x13
          refine Touch.ite ?_ ?_
          · exact Touch.refl _ _
          · exact h14
  · rename_i x15
    refine Touch.ite ?_ ?_
    · refine Touch.step (ignored_touch ..) rfl ?_
      exact Touch.refl _ _
    · refine Touch.ite ?_ ?_
      · exact Touch.refl _ _
      · refine Touch.ite ?_ ?_
        · refine Touch.step (ignored_touch ..) rfl ?_
          exact Touch.refl _ _
        · extract_lets -merge +onlyGivenNames x16
          have h17 : Touch 24519928653854221733733552434404946937899825951112876040 s x16 := by
            unfold x16
            refine Touch.step (regPut_touch ..) rfl ?_
            exact Touch.refl _ _
          clear_value x16
          refine Touch.ite ?_ ?_
          · exact Touch.refl _ _
          · exact h17
  · rename_i x18 h19 h20 h21 h22 h23 h24 h25 h26
    refine Touch.step (regPut_touch ..) rfl ?_
    exact Touch.refl _ _

theorem execProtectedWrite_touch {a : Agent} {off : Nat} {data : List Byte} {s : State} : TouchOut 553402322211420946440 s (execProtectedWrite a off data s) := by
  unfold execProtectedWrite
  refine TouchOut.step (whenOn_touch rfl (fun x0 => ?_)) (Within.refl _) ?_
  · refine Touch.ite ?_ ?_
    · refine Touch.step (memStore_touch ..) rfl ?_
      exact Touch.refl _ _
    · exact Touch.refl _ _
  · exact Touch.refl _ _

theorem execPageDoorbell_touch {a : Agent} {d : Nat} {region : Nat} {page : Word} {s : State} : TouchOut 2475880078588774965487730688 s (execPageDoorbell a d region page s) := by
  unfold execPageDoorbell
  refine TouchOut.step (whenDoor_touch rfl (fun x0 => ?_)) (Within.refl _) ?_
  · refine Touch.step (doorGate_touch rfl (fun x1 x2 => ?_)) (Within.refl _) ?_
    · split
      · rename_i x3 x4 h5
        refine Touch.ite ?_ ?_
        · exact Touch.refl _ _
        · refine Touch.ite ?_ ?_
          · refine Touch.step (bump_touch ..) rfl ?_
            exact Touch.refl _ _
          · refine Touch.step (setDom_touch ..) rfl ?_
            exact Touch.refl _ _
      · rename_i x6 h7
        exact Touch.refl _ _
    · exact Touch.refl _ _
  · exact Touch.refl _ _

theorem execPageCopyComplete_touch {d : Nat} {region : Nat} {s : State} : TouchOut 553402322211689381896 s (execPageCopyComplete d region s) := by
  unfold execPageCopyComplete
  refine TouchOut.step (whenEngine_touch rfl (fun x0 => ?_)) (Within.refl _) ?_
  · refine Touch.step (withDom_touch rfl (fun x1 x2 => ?_)) (Within.refl _) ?_
    · split
      · rename_i x3 x4 h5
        split
        · rename_i x6 x7 x8 x9 h10
          extract_lets -merge +onlyGivenNames x11
          clear_value x11
          extract_lets -merge +onlyGivenNames x12
          have h13 : Touch 553402322211689381896 x2 x12 := by
            unfold x12
            refine Touch.step (setDom_touch ..) rfl ?_
            exact Touch.refl _ _
          clear_value x12
          split
          · rename_i x14 x15 x16 h17
            have h18 : Touch 553402322211689381896 x2 x16 := by
              refine TouchP.eq ?_ h17
              refine TouchP.step (fetchBytes_touch ..) rfl ?_
              exact h13
            extract_lets -merge +onlyGivenNames x19
            have h20 : Touch 553402322211689381896 x2 x19 := by
              unfold x19
              refine Touch.step (memStore_touch ..) rfl ?_
              exact h18
            clear_value x19
            refine Touch.step (memStore_touch ..) rfl ?_
            exact h20
        · rename_i x21 h22
          exact Touch.refl _ _
      · rename_i x23 h24
        exact Touch.refl _ _
    · exact Touch.refl _ _
  · exact Touch.refl _ _

theorem execPauseDoorbell_touch {a : Agent} {d : Nat} {v : Word} {s : State} : TouchOut 2475880078588774965487730688 s (execPauseDoorbell a d v s) := by
  unfold execPauseDoorbell
  refine TouchOut.step (whenDoor_touch rfl (fun x0 => ?_)) (Within.refl _) ?_
  · refine Touch.step (doorGate_touch rfl (fun x1 x2 => ?_)) (Within.refl _) ?_
    · split
      · rename_i x3 x4 x5 h6
        refine Touch.ite ?_ ?_
        · refine Touch.step (setDom_touch ..) rfl ?_
          exact Touch.refl _ _
        · refine Touch.step (bump_touch ..) rfl ?_
          exact Touch.refl _ _
      · rename_i x7 h8
        refine Touch.step (bump_touch ..) rfl ?_
        exact Touch.refl _ _
    · exact Touch.refl _ _
  · exact Touch.refl _ _

theorem execPauseCopyComplete_touch {d : Nat} {s : State} : TouchOut 553402885161642803208 s (execPauseCopyComplete d s) := by
  unfold execPauseCopyComplete
  refine TouchOut.step (whenEngine_touch rfl (fun x0 => ?_)) (Within.refl _) ?_
  · refine Touch.step (withDom_touch rfl (fun x1 x2 => ?_)) (Within.refl _) ?_
    · split
      · rename_i x3 x4 x5 h6
        refine Touch.ite ?_ ?_
        · extract_lets -merge +onlyGivenNames x7
          clear_value x7
          extract_lets -merge +onlyGivenNames x8
          have h9 : Touch 553402885161642803208 x2 x8 := by
            unfold x8
            refine Touch.step (setDom_touch ..) rfl ?_
            exact Touch.refl _ _
          clear_value x8
          extract_lets -merge +onlyGivenNames x10
          have h11 : Touch 553402885161642803208 x2 x10 := by
            unfold x10
            refine Touch.foldl ?_ (fun x12 x13 h14 => ?_)
            · exact h9
            · split
              · rename_i x15 x16 x17 h18
                have h19 : Touch 553402885161642803208 x2 x17 := by
                  refine TouchP.eq ?_ h18
                  refine TouchP.step (fetchBytes_touch ..) rfl ?_
                  exact h14
                refine Touch.step (memStore_touch ..) rfl ?_
                exact h19
          clear_value x10
          extract_lets -merge +onlyGivenNames x20
          have h21 : Touch 553402885161642803208 x2 x20 := by
            unfold x20
            refine Touch.foldl ?_ (fun x22 x23 h24 => ?_)
            · exact h11
            · refine Touch.step (memStore_touch ..) rfl ?_
              exact h24
          clear_value x20
          refine Touch.step (pauseWait_touch ..) rfl ?_
          exact h21
        · exact Touch.refl _ _
      · rename_i x25 h26
        exact Touch.refl _ _
    · exact Touch.refl _ _
  · exact Touch.refl _ _

theorem haltPipe_touch {d : Nat} {st : Status} {s : State} : Touch 562949953421312 s (haltPipe d st s) := by
  unfold haltPipe
  refine Touch.step (pipeBusy_touch ..) rfl ?_
  refine Touch.step (setFld_touch ..) rfl ?_
  refine Touch.step (setFld_touch ..) rfl ?_
  exact Touch.refl _ _

theorem execIntakeDoorbell_touch {a : Agent} {d : Nat} {c : Nat} {q : Word} {s : State} : TouchOut 18014398509613056 s (execIntakeDoorbell a d c q s) := by
  unfold execIntakeDoorbell
  refine TouchOut.step (whenOn_touch rfl (fun x0 => ?_)) (Within.refl _) ?_
  · refine Touch.step (withDom_touch rfl (fun x1 x2 => ?_)) (Within.refl _) ?_
    · split
      · rename_i x3 x4 x5 x6 h7
        refine Touch.ite ?_ ?_
        · exact Touch.refl _ _
        · refine Touch.ite ?_ ?_
          · refine Touch.step (setDom_touch ..) rfl ?_
            exact Touch.refl _ _
          · refine Touch.step (bump_touch ..) rfl ?_
            exact Touch.refl _ _
      · rename_i x8 x9 x10 h11
        exact Touch.refl _ _
    · exact Touch.refl _ _
  · exact Touch.refl _ _

theorem setStage_touch {d : Nat} {l : Nat} {f : LayerStage → LayerStage} {s : State} : Touch 131072 s (setStage d l f s) := by
  unfold setStage
  refine Touch.step (modDom_touch ..) rfl ?_
  exact Touch.refl _ _

theorem consumeSlots_touch {d : Nat} {c : Nat} {q : LayerReq} {s : State} : Touch 553402322211420946440 s (consumeSlots d c q s) := by
  unfold consumeSlots
  split
  · rename_i x0 h1
    exact Touch.refl _ _
  · rename_i x2 x3 h4
    split
    · rename_i x5 h6
      exact Touch.refl _ _
    · rename_i x7 x8 h9
      extract_lets -merge +onlyGivenNames x10
      clear_value x10
      extract_lets -merge +onlyGivenNames x11
      have h12 : Touch 553402322211420946440 s x11 := by
        unfold x11
        refine Touch.foldl ?_ (fun x13 x14 h15 => ?_)
        · exact Touch.refl _ _
        · refine Touch.step (memStore_touch ..) rfl ?_
          exact h15
      clear_value x11
      refine Touch.step (modDom_touch ..) rfl ?_
      exact h12

theorem restartIntake_touch {d : Nat} {s : State} : Touch 553402322211420946440 s (restartIntake d s) := by
  unfold restartIntake
  split
  · rename_i x0 h1
    exact Touch.refl _ _
  · rename_i x2 x3 h4
    refine Touch.step (zeroCredits_touch ..) rfl ?_
    refine Touch.step (setDom_touch ..) rfl ?_
    exact Touch.refl _ _

theorem sendChunks_touch {dest : Nat} {d : Nat} {layer : Nat} {gather : Bool} {per : Nat} {data : Nat → Nat → List Byte} {a : Nat} {a7 : Nat} {a8 : Nat} {s : State} : Touch 134217728 s (sendChunks dest d layer gather per data a a7 a8 s) := by
  induction a generalizing a7 a8 s
  · rw [sendChunks]
    exact Touch.refl _ _
  · rename_i w0 ih
    rw [sendChunks]
    refine Touch.ite ?_ ?_
    · exact Touch.refl _ _
    · extract_lets -merge +onlyGivenNames x0
      clear_value x0
      extract_lets -merge +onlyGivenNames x1
      have h2 : Touch 134217728 s x1 := by
        unfold x1
        refine Touch.step (emit_touch ..) rfl ?_
        exact Touch.refl _ _
      clear_value x1
      refine Touch.step (ih ..) (Within.refl _) ?_
      exact h2

theorem sendPartial_touch {dest : Nat} {d : Nat} {layer : Nat} {q : LayerReq} {p : Nat} {n : Nat} {s : State} : Touch 134217728 s (sendPartial dest d layer q p n s) := by
  unfold sendPartial
  extract_lets -merge +onlyGivenNames x0
  clear_value x0
  extract_lets -merge +onlyGivenNames x1
  clear_value x1
  refine Touch.step (sendChunks_touch ..) rfl ?_
  exact Touch.refl _ _

theorem sendHigh_touch {dest : Nat} {d : Nat} {layer : Nat} {p : Nat} {n : Nat} {s : State} : Touch 134217728 s (sendHigh dest d layer p n s) := by
  unfold sendHigh
  refine Touch.step (sendChunks_touch ..) rfl ?_
  exact Touch.refl _ _

theorem startRing_touch {d : Nat} {layer : Nat} {q : LayerReq} {s : State} : Touch 134217728 s (startRing d layer q s) := by
  unfold startRing
  extract_lets -merge +onlyGivenNames x0
  clear_value x0
  extract_lets -merge +onlyGivenNames x1
  clear_value x1
  extract_lets -merge +onlyGivenNames x2
  subst x2
  refine Touch.ite ?_ ?_
  · exact Touch.refl _ _
  · refine Touch.ite ?_ ?_
    · beta_reduce
      extract_lets -merge +onlyGivenNames x3
      clear_value x3
      refine Touch.step (sendPartial_touch ..) rfl ?_
      exact Touch.refl _ _
    · extract_lets -merge +onlyGivenNames x4
      clear_value x4
      refine Touch.foldl ?_ (fun x5 x6 h7 => ?_)
      · exact Touch.refl _ _
      · beta_reduce
        extract_lets -merge +onlyGivenNames x8
        clear_value x8
        refine Touch.step (sendPartial_touch ..) rfl ?_
        exact h7

theorem combineLayer_touch {d : Nat} {l : Nat} {q : LayerReq} {s : State} : Touch 553402885161374367752 s (combineLayer d l q s) := by
  unfold combineLayer
  split
  · rename_i x0 h1
    exact Touch.refl _ _
  · rename_i x2 x3 h4
    extract_lets -merge +onlyGivenNames x5
    clear_value x5
    extract_lets -merge +onlyGivenNames x6
    have h7 : Touch 553402885161374367752 s x6 := by
      unfold x6
      refine Touch.step (store_touch ..) rfl ?_
      exact Touch.refl _ _
    clear_value x6
    extract_lets -merge +onlyGivenNames x8
    have h9 : Touch 553402885161374367752 s x8 := by
      unfold x8
      refine Touch.step (modDom_touch ..) rfl ?_
      exact h7
    clear_value x8
    extract_lets -merge +onlyGivenNames x10
    have h11 : Touch 553402885161374367752 s x10 := by
      unfold x10
      refine Touch.foldl ?_ (fun x12 x13 h14 => ?_)
      · exact h9
      · refine Touch.step (consumeSlots_touch ..) rfl ?_
        exact h14
    clear_value x10
    extract_lets -merge +onlyGivenNames x15
    have h16 : Touch 553402885161374367752 s x15 := by
      unfold x15
      refine Touch.step (setStage_touch ..) rfl ?_
      exact h11
    clear_value x15
    extract_lets -merge +onlyGivenNames x17
    have h18 : Touch 553402885161374367752 s x17 := by
      unfold x17
      refine Touch.ite ?_ ?_
      · refine Touch.step (restartIntake_touch ..) rfl ?_
        exact h16
      · exact h16
    clear_value x17
    refine Touch.step (pipeBusy_touch ..) rfl ?_
    refine Touch.step (startRing_touch ..) rfl ?_
    exact h18

theorem execLayerGradientCombine_touch {d : Nat} {l : Nat} {s : State} : TouchOut 553402885161374367752 s (execLayerGradientCombine d l s) := by
  unfold execLayerGradientCombine
  refine TouchOut.step (whenEngine_touch rfl (fun x0 => ?_)) (Within.refl _) ?_
  · refine Touch.step (withDom_touch rfl (fun x1 x2 => ?_)) (Within.refl _) ?_
    · split
      · rename_i x3 x4 h5
        refine Touch.ite ?_ ?_
        · refine Touch.step (combineLayer_touch ..) rfl ?_
          exact Touch.refl _ _
        · exact Touch.refl _ _
      · rename_i x6 h7
        exact Touch.refl _ _
    · exact Touch.refl _ _
  · exact Touch.refl _ _

theorem reduceChunk_touch {d : Nat} {l : Nat} {q : LayerReq} {off : Nat} {final : Bool} {data : List Byte} {s : State} : Touch 134348808 s (reduceChunk d l q off final data s) := by
  unfold reduceChunk
  extract_lets -merge +onlyGivenNames x0
  clear_value x0
  extract_lets -merge +onlyGivenNames x1
  clear_value x1
  extract_lets -merge +onlyGivenNames x2
  clear_value x2
  extract_lets -merge +onlyGivenNames x3
  clear_value x3
  extract_lets -merge +onlyGivenNames x4
  clear_value x4
  extract_lets -merge +onlyGivenNames x5
  clear_value x5
  extract_lets -merge +onlyGivenNames x6
  clear_value x6
  extract_lets -merge +onlyGivenNames x7
  clear_value x7
  extract_lets -merge +onlyGivenNames x8
  have h9 : Touch 134348808 s x8 := by
    unfold x8
    refine Touch.step (store_touch ..) rfl ?_
    exact Touch.refl _ _
  clear_value x8
  extract_lets -merge +onlyGivenNames x10
  subst x10
  refine Touch.ite ?_ ?_
  · refine Touch.ite ?_ ?_
    · refine Touch.step (setStage_touch ..) rfl ?_
      exact h9
    · refine Touch.ite ?_ ?_
      · beta_reduce
        refine Touch.step (emit_touch ..) rfl ?_
        exact h9
      · exact h9
  · refine Touch.ite ?_ ?_
    · beta_reduce
      refine Touch.step (emit_touch ..) rfl ?_
      exact h9
    · refine Touch.ite ?_ ?_
      · beta_reduce
        refine Touch.step (emit_touch ..) rfl ?_
        exact h9
      · beta_reduce
        refine Touch.step (emit_touch ..) rfl ?_
        exact h9

theorem gatherPass_touch {j : Nat} {pass : Nat → State → State} {s : State} {F : Nat} (hF : Within 0 F) (hpass : ∀ (y0 : Nat) (y1 : State), Touch F y1 (pass y0 y1)) : Touch F s (gatherPass j pass s) := by
  unfold gatherPass
  extract_lets -merge +onlyGivenNames x0
  clear_value x0
  extract_lets -merge +onlyGivenNames x1
  clear_value x1
  refine Touch.ite ?_ ?_
  · refine Touch.ite ?_ ?_
    · exact Touch.refl _ _
    · refine Touch.step (hpass ..) (Within.refl _) ?_
      exact Touch.refl _ _
  · refine Touch.ite ?_ ?_
    · extract_lets -merge +onlyGivenNames x2
      have h3 : Touch F s x2 := by
        unfold x2
        refine Touch.ite ?_ ?_
        · exact Touch.refl _ _
        · refine Touch.step (hpass ..) (Within.refl _) ?_
          exact Touch.refl _ _
      clear_value x2
      refine Touch.step (hpass ..) (Within.refl _) ?_
      exact h3
    · refine Touch.ite ?_ ?_
      · exact Touch.refl _ _
      · refine Touch.step (hpass ..) (Within.refl _) ?_
        exact Touch.refl _ _

theorem gatherChunk_touch {d : Nat} {l : Nat} {q : LayerReq} {off : Nat} {data : List Byte} {s : State} : Touch 562950087770120 s (gatherChunk d l q off data s) := by
  unfold gatherChunk
  extract_lets -merge +onlyGivenNames x0
  clear_value x0
  extract_lets -merge +onlyGivenNames x1
  clear_value x1
  extract_lets -merge +onlyGivenNames x2
  have h3 : Touch 562950087770120 s x2 := by
    unfold x2
    refine Touch.step (store_touch ..) rfl ?_
    exact Touch.refl _ _
  clear_value x2
  extract_lets -merge +onlyGivenNames x4
  have h5 : Touch 562950087770120 s x4 := by
    unfold x4
    refine Touch.step (setStage_touch ..) rfl ?_
    exact h3
  clear_value x4
  refine Touch.step (pipeBusy_touch ..) rfl ?_
  refine Touch.step (gatherPass_touch rfl (fun x6 x7 => ?_)) (Within.refl _) ?_
  · refine Touch.step (emit_touch ..) rfl ?_
    exact Touch.refl _ _
  · exact h5

theorem bcastChunk_touch {d : Nat} {off : Nat} {data : List Byte} {s : State} : Touch 553402322211420947080 s (bcastChunk d off data s) := by
  unfold bcastChunk
  split
  · rename_i x0 h1
    exact Touch.refl _ _
  · rename_i x2 x3 h4
    split
    · rename_i x5 h6
      exact Touch.refl _ _
    · rename_i x7 x8 x9 x10 x11 x12 h13
      refine Touch.ite ?_ ?_
      · exact Touch.refl _ _
      · extract_lets -merge +onlyGivenNames x14
        have h15 : Touch 553402322211420947080 s x14 := by
          unfold x14
          refine Touch.step (memStore_touch ..) rfl ?_
          exact Touch.refl _ _
        clear_value x14
        extract_lets -merge +onlyGivenNames x16
        have h17 : Touch 553402322211420947080 s x16 := by
          unfold x16
          refine Touch.step (gatherPass_touch rfl (fun x18 x19 => ?_)) (Within.refl _) ?_
          · refine Touch.step (emit_touch ..) rfl ?_
            exact Touch.refl _ _
          · exact h15
        clear_value x16
        extract_lets -merge +onlyGivenNames x20
        clear_value x20
        refine Touch.ite ?_ ?_
        · refine Touch.step (mbxReply_touch ..) rfl ?_
          refine Touch.step (modDom_touch ..) rfl ?_
          exact h17
        · refine Touch.step (modDom_touch ..) rfl ?_
          exact h17

theorem bcastReq_touch {c : Caller} {d : Nat} {src : Nat} {addr : Nat} {len : Nat} {s : State} : TouchP 134348800 s (bcastReq c d src addr len s) := by
  unfold bcastReq
  split
  · rename_i x0 h1
    refine TouchP.step (refuseAt_touch ..) rfl ?_
    exact Touch.refl _ _
  · rename_i x2 x3 h4
    refine TouchP.ite ?_ ?_
    · refine TouchP.step (refuseAt_touch ..) rfl ?_
      exact Touch.refl _ _
    · refine TouchP.ite ?_ ?_
      · refine TouchP.step (refuseAt_touch ..) rfl ?_
        exact Touch.refl _ _
      · refine TouchP.ite ?_ ?_
        · refine TouchP.step (refuseAt_touch ..) rfl ?_
          exact Touch.refl _ _
        · refine TouchP.ite ?_ ?_
          · refine TouchP.step (refuseAt_touch ..) rfl ?_
            exact Touch.refl _ _
          · refine TouchP.ite ?_ ?_
            · refine TouchP.step (refuse_touch ..) rfl ?_
              exact Touch.refl _ _
            · refine TouchP.ite ?_ ?_
              · refine TouchP.step (accept_touch ..) rfl ?_
                exact Touch.refl _ _
              · refine TouchP.ite ?_ ?_
                · extract_lets -merge +onlyGivenNames x5
                  subst x5
                  refine TouchP.step (accept_touch ..) rfl ?_
                  refine Touch.step (gatherPass_touch rfl (fun x6 x7 => ?_)) (Within.refl _) ?_
                  · refine Touch.step (sendChunks_touch ..) rfl ?_
                    exact Touch.refl _ _
                  · exact Touch.refl _ _
                · refine TouchP.mk' ?_
                  refine Touch.step (modDom_touch ..) rfl ?_
                  exact Touch.refl _ _

theorem execBroadcast_touch {c : Caller} {d : Nat} {src : Nat} {addr : Nat} {len : Nat} {s : State} : TouchOut 134349440 s (execBroadcast c d src addr len s) := by
  unfold execBroadcast
  refine TouchOut.step (whenOn_touch rfl (fun x0 => ?_)) (Within.refl _) ?_
  · refine Touch.step (mbxServe_touch rfl (fun x1 x2 => ?_)) (Within.refl _) ?_
    · refine TouchP.step (bcastReq_touch ..) rfl ?_
      exact Touch.refl _ _
    · exact Touch.refl _ _
  · exact Touch.refl _ _

theorem execCollectiveChunkReceive_touch {d : Nat} {l : Nat} {gather : Bool} {off : Nat} {final : Bool} {data : List Byte} {s : State} : TouchOut 553402885161374368392 s (execCollectiveChunkReceive d l gather off final data s) := by
  unfold execCollectiveChunkReceive
  refine TouchOut.step (whenEngine_touch rfl (fun x0 => ?_)) (Within.refl _) ?_
  · refine Touch.step (withDom_touch rfl (fun x1 x2 => ?_)) (Within.refl _) ?_
    · split
      · rename_i x3 x4 h5
        extract_lets -merge +onlyGivenNames x6
        clear_value x6
        refine Touch.ite ?_ ?_
        · exact Touch.refl _ _
        · refine Touch.ite ?_ ?_
          · refine Touch.ite ?_ ?_
            · refine Touch.step (gatherChunk_touch ..) rfl ?_
              exact Touch.refl _ _
            · exact Touch.refl _ _
          · refine Touch.ite ?_ ?_
            · refine Touch.step (reduceChunk_touch ..) rfl ?_
              exact Touch.refl _ _
            · exact Touch.refl _ _
      · rename_i x7 h8
        refine Touch.ite ?_ ?_
        · refine Touch.step (bcastChunk_touch ..) rfl ?_
          exact Touch.refl _ _
        · exact Touch.refl _ _
    · exact Touch.refl _ _
  · exact Touch.refl _ _

theorem execCollTimeout_touch {d : Nat} {l : Nat} {s : State} : TouchOut 5992156713056701964635107814136760381152273379631200 s (execCollTimeout d l s) := by
  unfold execCollTimeout
  refine TouchOut.step (whenEngine_touch rfl (fun x0 => ?_)) (Within.refl _) ?_
  · refine Touch.step (withDom_touch rfl (fun x1 x2 => ?_)) (Within.refl _) ?_
    · extract_lets -merge +onlyGivenNames x3
      clear_value x3
      refine Touch.ite ?_ ?_
      · refine Touch.step (haltPipe_touch ..) rfl ?_
        refine Touch.step (log_touch ..) rfl ?_
        exact Touch.refl _ _
      · exact Touch.refl _ _
    · exact Touch.refl _ _
  · exact Touch.refl _ _

theorem updateLayer_touch {d : Nat} {l : Nat} {q : LayerReq} {s : State} : Touch 553438351008708345864 s (updateLayer d l q s) := by
  unfold updateLayer
  split
  · rename_i x0 h1
    exact Touch.refl _ _
  · rename_i x2 x3 h4
    split
    · rename_i x5 h6
      exact Touch.refl _ _
    · rename_i x7 x8 h9
      split
      · rename_i x10 x11 x12 h13
        extract_lets -merge +onlyGivenNames x14
        clear_value x14
        extract_lets -merge +onlyGivenNames x15
        clear_value x15
        extract_lets -merge +onlyGivenNames x16
        clear_value x16
        extract_lets -merge +onlyGivenNames x17
        extract_lets -merge +onlyGivenNames x18
        clear_value x18
        extract_lets -merge +onlyGivenNames x19
        clear_value x19
        extract_lets -merge +onlyGivenNames x20
        clear_value x20
        extract_lets -merge +onlyGivenNames x21
        clear_value x21
        extract_lets -merge +onlyGivenNames x22
        clear_value x22
        extract_lets -merge +onlyGivenNames x23
        clear_value x23
        extract_lets -merge +onlyGivenNames x24
        clear_value x24
        split
        · rename_i x25 x26 x27 h28
          split
          · rename_i x29 x30 x31 h32
            have h33 : Touch 553438351008708345864 s x31 := by
              refine TouchP.eq ?_ h32
              refine TouchP.step (draw_touch ..) rfl ?_
              exact Touch.refl _ _
            extract_lets -merge +onlyGivenNames x34
            clear_value x34
            split
            · rename_i x35 x36 x37 h38
              split
              · rename_i x39 x40 x41 x42 h43
                extract_lets -merge +onlyGivenNames x44
                have h45 : Touch 553438351008708345864 s x44 := by
                  unfold x44
                  refine Touch.step (memStore_touch ..) rfl ?_
                  exact h33
                clear_value x44
                extract_lets -merge +onlyGivenNames x46
                have h47 : Touch 553438351008708345864 s x46 := by
                  unfold x46
                  refine Touch.step (memStore_touch ..) rfl ?_
                  exact h45
                clear_value x46
                extract_lets -merge +onlyGivenNames x48
                have h49 : Touch 553438351008708345864 s x48 := by
                  unfold x48
                  refine Touch.step (memStore_touch ..) rfl ?_
                  exact h47
                clear_value x48
                extract_lets -merge +onlyGivenNames x50
                have h51 : Touch 553438351008708345864 s x50 := by
                  unfold x50
                  refine Touch.step (memStore_touch ..) rfl ?_
                  exact h49
                clear_value x50
                extract_lets -merge +onlyGivenNames x52
                have h53 : Touch 553438351008708345864 s x52 := by
                  unfold x52
                  refine Touch.ite ?_ ?_
                  · split
                    · rename_i x54 x55 x56 x57 h58
                      refine Touch.step (memStore_touch ..) rfl ?_
                      refine Touch.step (memStore_touch ..) rfl ?_
                      exact h51
                  · exact h51
                clear_value x52
                extract_lets -merge +onlyGivenNames x59
                have h60 : Touch 553438351008708345864 s x59 := by
                  unfold x59
                  refine Touch.step (bump_touch ..) rfl ?_
                  exact h53
                clear_value x59
                extract_lets -merge +onlyGivenNames x61
                have h62 : Touch 553438351008708345864 s x61 := by
                  unfold x61
                  refine Touch.step (store_touch ..) rfl ?_
                  exact h60
                clear_value x61
                refine Touch.step (setStage_touch ..) rfl ?_
                exact h62

theorem startGather_touch {d : Nat} {l : Nat} {q : LayerReq} {s : State} : Touch 134217728 s (startGather d l q s) := by
  unfold startGather
  extract_lets -merge +onlyGivenNames x0
  clear_value x0
  extract_lets -merge +onlyGivenNames x1
  clear_value x1
  split
  · rename_i x2 x3 x4 h5
    refine Touch.ite ?_ ?_
    · exact Touch.refl _ _
    · refine Touch.ite ?_ ?_
      · refine Touch.step (sendHigh_touch ..) rfl ?_
        exact Touch.refl _ _
      · refine Touch.step (sendHigh_touch ..) rfl ?_
        refine Touch.step (sendHigh_touch ..) rfl ?_
        exact Touch.refl _ _

theorem execLayerUpdate_touch {d : Nat} {l : Nat} {s : State} : TouchOut 5992156713056701964635107814138494421257098660868840 s (execLayerUpdate d l s) := by
  unfold execLayerUpdate
  refine TouchOut.step (whenEngine_touch rfl (fun x0 => ?_)) (Within.refl _) ?_
  · refine Touch.step (withDom_touch rfl (fun x1 x2 => ?_)) (Within.refl _) ?_
    · split
      · rename_i x3 x4 h5
        extract_lets -merge +onlyGivenNames x6
        clear_value x6
        refine Touch.ite ?_ ?_
        · extract_lets -merge +onlyGivenNames x7
          have h8 : Touch 5992156713056701964635107814138494421257098660868840 x2 x7 := by
            unfold x7
            refine Touch.step (pipeBusy_touch ..) rfl ?_
            refine Touch.step (startGather_touch ..) rfl ?_
            refine Touch.step (updateLayer_touch ..) rfl ?_
            exact Touch.refl _ _
          clear_value x7
          refine Touch.ite ?_ ?_
          · refine Touch.step (ringDoorbell_touch ..) rfl ?_
            exact h8
          · exact h8
        · exact Touch.refl _ _
      · rename_i x9 h10
        exact Touch.refl _ _
    · exact Touch.refl _ _
  · exact Touch.refl _ _

theorem pushPart_touch {d : Nat} {l : Nat} {c : Nat} {q : LayerReq} {k : Nat} {s : State} : Touch 553402322211420946440 s (pushPart d l c q k s) := by
  unfold pushPart
  split
  · rename_i x0 x1 x2 h3
    extract_lets -merge +onlyGivenNames x4
    clear_value x4
    split
    · rename_i x5 x6 h7
      extract_lets -merge +onlyGivenNames x8
      have h9 : Touch 553402322211420946440 s x8 := by
        unfold x8
        refine Touch.step (memStore_touch ..) rfl ?_
        exact Touch.refl _ _
      clear_value x8
      refine Touch.step (memStore_touch ..) rfl ?_
      exact h9
    · rename_i x10 h11
      exact Touch.refl _ _

theorem execPushHighPlane_touch {d : Nat} {l : Nat} {c : Nat} {s : State} : TouchOut 553402885161374367752 s (execPushHighPlane d l c s) := by
  unfold execPushHighPlane
  refine TouchOut.step (whenEngine_touch rfl (fun x0 => ?_)) (Within.refl _) ?_
  · refine Touch.step (withDom_touch rfl (fun x1 x2 => ?_)) (Within.refl _) ?_
    · split
      · rename_i x3 x4 h5
        extract_lets -merge +onlyGivenNames x6
        clear_value x6
        refine Touch.ite ?_ ?_
        · refine Touch.step (setStage_touch ..) rfl ?_
          refine Touch.step (pushPart_touch ..) rfl ?_
          exact Touch.refl _ _
        · refine Touch.ite ?_ ?_
          · extract_lets -merge +onlyGivenNames x7
            have h8 : Touch 553402885161374367752 x2 x7 := by
              unfold x7
              refine Touch.step (pushPart_touch ..) rfl ?_
              exact Touch.refl _ _
            clear_value x7
            extract_lets -merge +onlyGivenNames x9
            have h10 : Touch 553402885161374367752 x2 x9 := by
              unfold x9
              refine Touch.step (modDom_touch ..) rfl ?_
              exact h8
            clear_value x9
            refine Touch.step (pipeBusy_touch ..) rfl ?_
            refine Touch.step (setStage_touch ..) rfl ?_
            exact h10
          · exact Touch.refl _ _
      · rename_i x11 h12
        exact Touch.refl _ _
    · exact Touch.refl _ _
  · exact Touch.refl _ _

theorem setPhase_touch {d : Nat} {v : Nat} {s : State} : Touch 75557863725914323419136 s (setPhase d v s) := by
  unfold setPhase
  refine Touch.step (setFld_touch ..) rfl ?_
  exact Touch.refl _ _

theorem modRec_touch {d : Nat} {f : Recovery → Recovery} {s : State} : Touch 131072 s (modRec d f s) := by
  unfold modRec
  refine Touch.step (modDom_touch ..) rfl ?_
  exact Touch.refl _ _

theorem fence_touch {d : Nat} {st : Status} {s : State} : Touch 5992156713056701964635107814136760381152273379762272 s (fence d st s) := by
  unfold fence
  extract_lets -merge +onlyGivenNames x0
  have h1 : Touch 5992156713056701964635107814136760381152273379762272 s x0 := by
    unfold x0
    refine Touch.step (modDom_touch ..) rfl ?_
    exact Touch.refl _ _
  clear_value x0
  refine Touch.step (log_touch ..) rfl ?_
  refine Touch.step (haltPipe_touch ..) rfl ?_
  exact h1

theorem sendHeartbeat_touch {d : Nat} {s : State} : Touch 134479872 s (sendHeartbeat d s) := by
  unfold sendHeartbeat
  split
  · rename_i x0 h1
    exact Touch.refl _ _
  · rename_i x2 x3 h4
    refine Touch.ite ?_ ?_
    · exact Touch.refl _ _
    · extract_lets -merge +onlyGivenNames x5
      clear_value x5
      extract_lets -merge +onlyGivenNames x6
      clear_value x6
      extract_lets -merge +onlyGivenNames x7
      clear_value x7
      refine Touch.ite ?_ ?_
      · refine Touch.step (sendMsg_touch ..) rfl ?_
        exact Touch.refl _ _
      · refine Touch.ite ?_ ?_
        · exact Touch.refl _ _
        · extract_lets -merge +onlyGivenNames x8
          have h9 : Touch 134479872 s x8 := by
            unfold x8
            refine Touch.step (sendMsg_touch ..) rfl ?_
            exact Touch.refl _ _
          clear_value x8
          refine Touch.ite ?_ ?_
          · exact h9
          · refine Touch.step (sendMsg_touch ..) rfl ?_
            exact h9

theorem assignSpares_touch {d : Nat} {s : State} : Touch 131072 s (assignSpares d s) := by
  unfold assignSpares
  split
  · rename_i x0 h1
    exact Touch.refl _ _
  · rename_i x2 x3 h4
    refine Touch.foldl ?_ (fun x5 x6 h7 => ?_)
    · exact Touch.refl _ _
    · split
      · rename_i x8 x9 x10 h11 h12
        split
        · rename_i x13 x14 h15
          refine Touch.step (modRec_touch ..) rfl ?_
          exact h7
        · rename_i x16 h17
          exact h7
      · rename_i x18 x19 h20
        exact h7

theorem applyFail_touch {d : Nat} {st : Status} {who : Nat} {s : State} : Touch 5992156713056701964635107814250097176741144998978144 s (applyFail d st who s) := by
  unfold applyFail
  extract_lets -merge +onlyGivenNames x0
  have h1 : Touch 5992156713056701964635107814250097176741144998978144 s x0 := by
    unfold x0
    refine Touch.step (haltPipe_touch ..) rfl ?_
    exact Touch.refl _ _
  clear_value x0
  extract_lets -merge +onlyGivenNames x2
  have h3 : Touch 5992156713056701964635107814250097176741144998978144 s x2 := by
    unfold x2
    refine Touch.step (setPhase_touch ..) rfl ?_
    exact h1
  clear_value x2
  extract_lets -merge +onlyGivenNames x4
  have h5 : Touch 5992156713056701964635107814250097176741144998978144 s x4 := by
    unfold x4
    refine Touch.step (setFld_touch ..) rfl ?_
    exact h3
  clear_value x4
  refine Touch.step (irqSource_touch ..) rfl ?_
  refine Touch.step (log_touch ..) rfl ?_
  exact h5

theorem failRecovery_touch {d : Nat} {st : Status} {who : Nat} {s : State} : Touch 5992156713056701964635107814250097176741144999240288 s (failRecovery d st who s) := by
  unfold failRecovery
  refine Touch.ite ?_ ?_
  · exact Touch.refl _ _
  · refine Touch.step (applyFail_touch ..) rfl ?_
    refine Touch.step (sendDown_touch ..) rfl ?_
    exact Touch.refl _ _

theorem stopNow_touch {d : Nat} {s : State} : Touch 562949953552384 s (stopNow d s) := by
  unfold stopNow
  split
  · rename_i x0 h1
    exact Touch.refl _ _
  · rename_i x2 x3 h4
    refine Touch.ite ?_ ?_
    · exact Touch.refl _ _
    · extract_lets -merge +onlyGivenNames x5
      have h6 : Touch 562949953552384 s x5 := by
        unfold x5
        refine Touch.ite ?_ ?_
        · refine Touch.step (setFld_touch ..) rfl ?_
          exact Touch.refl _ _
        · exact Touch.refl _ _
      clear_value x5
      extract_lets -merge +onlyGivenNames x7
      have h8 : Touch 562949953552384 s x7 := by
        unfold x7
        refine Touch.step (setFld_touch ..) rfl ?_
        exact h6
      clear_value x7
      refine Touch.step (pipeBusy_touch ..) rfl ?_
      refine Touch.step (modRec_touch ..) rfl ?_
      exact h8

theorem askGrains_touch {d : Nat} {l : List Nat} {s : State} : Touch 134479872 s (askGrains d l s) := by
  unfold askGrains
  split
  · rename_i x0 h1
    exact Touch.refl _ _
  · rename_i x2 x3 h4
    extract_lets -merge +onlyGivenNames x5
    clear_value x5
    extract_lets -merge +onlyGivenNames x6
    clear_value x6
    refine Touch.foldl ?_ (fun x7 x8 h9 => ?_)
    · exact Touch.refl _ _
    · refine Touch.step (sendMsg_touch ..) rfl ?_
      exact h9

theorem resumeAll_touch {d : Nat} {s : State} : Touch 134610944 s (resumeAll d s) := by
  unfold resumeAll
  split
  · rename_i x0 h1
    exact Touch.refl _ _
  · rename_i x2 x3 h4
    extract_lets -merge +onlyGivenNames x5
    clear_value x5
    extract_lets -merge +onlyGivenNames x6
    have h7 : Touch 134610944 s x6 := by
      unfold x6
      refine Touch.step (sendDown_touch ..) rfl ?_
      exact Touch.refl _ _
    clear_value x6
    refine Touch.step (modRec_touch ..) rfl ?_
    exact h7

theorem sendReady_touch {d : Nat} {s : State} : Touch 134610944 s (sendReady d s) := by
  unfold sendReady
  split
  · rename_i x0 h1
    exact Touch.refl _ _
  · rename_i x2 x3 h4
    extract_lets -merge +onlyGivenNames x5
    clear_value x5
    extract_lets -merge +onlyGivenNames x6
    clear_value x6
    refine Touch.ite ?_ ?_
    · exact Touch.refl _ _
    · extract_lets -merge +onlyGivenNames x7
      have h8 : Touch 134610944 s x7 := by
        unfold x7
        refine Touch.step (modRec_touch ..) rfl ?_
        exact Touch.refl _ _
      clear_value x7
      extract_lets -merge +onlyGivenNames x9
      clear_value x9
      refine Touch.ite ?_ ?_
      · refine Touch.ite ?_ ?_
        · refine Touch.step (resumeAll_touch ..) rfl ?_
          exact h8
        · exact h8
      · refine Touch.step (sendMsg_touch ..) rfl ?_
        exact h8

theorem checkReady_touch {d : Nat} {s : State} : Touch 134610944 s (checkReady d s) := by
  unfold checkReady
  split
  · rename_i x0 h1
    exact Touch.refl _ _
  · rename_i x2 x3 h4
    refine Touch.ite ?_ ?_
    · refine Touch.step (sendReady_touch ..) rfl ?_
      refine Touch.step (modRec_touch ..) rfl ?_
      exact Touch.refl _ _
    · exact Touch.refl _ _

theorem copyBack_touch {d : Nat} {s : State} : Touch 553402322211420946440 s (copyBack d s) := by
  unfold copyBack
  split
  · rename_i x0 h1
    exact Touch.refl _ _
  · rename_i x2 x3 h4
    refine Touch.foldl ?_ (fun x5 x6 h7 => ?_)
    · exact Touch.refl _ _
    · refine Touch.ite ?_ ?_
      · extract_lets -merge +onlyGivenNames x8
        have h9 : Touch 553402322211420946440 s x8 := by
          unfold x8
          refine Touch.step (memStore_touch ..) rfl ?_
          exact h7
        clear_value x8
        refine Touch.step (memStore_touch ..) rfl ?_
        exact h9
      · exact h7

theorem restoresDone_touch {d : Nat} {s : State} : Touch 76111266048125744627720 s (restoresDone d s) := by
  unfold restoresDone
  extract_lets -merge +onlyGivenNames x0
  have h1 : Touch 76111266048125744627720 s x0 := by
    unfold x0
    refine Touch.step (copyBack_touch ..) rfl ?_
    exact Touch.refl _ _
  clear_value x0
  split
  · rename_i x2 h3
    exact h1
  · rename_i x4 x5 h6
    extract_lets -merge +onlyGivenNames x7
    have h8 : Touch 76111266048125744627720 s x7 := by
      unfold x7
      refine Touch.ite ?_ ?_
      · exact h1
      · refine Touch.foldl ?_ (fun x9 x10 h11 => ?_)
        · exact h1
        · split
          · rename_i x12 h13
            exact h11
          · rename_i x14 x15 h16
            split
            · rename_i x17 x18 x19 h20
              extract_lets -merge +onlyGivenNames x21
              clear_value x21
              extract_lets -merge +onlyGivenNames x22
              have h23 : Touch 76111266048125744627720 s x22 := by
                unfold x22
                refine Touch.step (store_touch ..) rfl ?_
                exact h11
              clear_value x22
              extract_lets -merge +onlyGivenNames x24
              have h25 : Touch 76111266048125744627720 s x24 := by
                unfold x24
                refine Touch.step (setStage_touch ..) rfl ?_
                exact h23
              clear_value x24
              refine Touch.step (startGather_touch ..) rfl ?_
              exact h25
    clear_value x7
    refine Touch.step (checkReady_touch ..) rfl ?_
    refine Touch.step (setPhase_touch ..) rfl ?_
    exact h8

theorem takeIndex_touch {d : Nat} {i : Nat} {t : Tables} {s : State} : Touch 281474977103872 s (takeIndex d i t s) := by
  unfold takeIndex
  extract_lets -merge +onlyGivenNames x0
  subst x0
  extract_lets -merge +onlyGivenNames x1
  have h2 : Touch 281474977103872 s x1 := by
    unfold x1
    refine Touch.step (t := s) (Touch.upd (F := 262144) rfl (Or.inr rfl)) rfl ?_
    exact Touch.refl _ _
  clear_value x1
  extract_lets -merge +onlyGivenNames x3
  have h4 : Touch 281474977103872 s x3 := by
    unfold x3
    refine Touch.step (modDom_touch ..) rfl ?_
    exact h2
  clear_value x3
  refine Touch.step (setFld_touch ..) rfl ?_
  exact h4

theorem rollMember_touch {d : Nat} {c : Nat} {taken : Bool} {s : State} : Touch 5992156713056701964635107814552884340935922700182120 s (rollMember d c taken s) := by
  unfold rollMember
  extract_lets -merge +onlyGivenNames x0
  have h1 : Touch 5992156713056701964635107814552884340935922700182120 s x0 := by
    unfold x0
    refine Touch.step (dropGens_touch ..) rfl ?_
    exact Touch.refl _ _
  clear_value x0
  split
  · rename_i x2 h3
    exact h1
  · rename_i x4 x5 h6
    extract_lets -merge +onlyGivenNames x7
    clear_value x7
    extract_lets -merge +onlyGivenNames x8
    have h9 : Touch 5992156713056701964635107814552884340935922700182120 s x8 := by
      unfold x8
      refine Touch.step (setDom_touch ..) rfl ?_
      exact h1
    clear_value x8
    extract_lets -merge +onlyGivenNames x10
    have h11 : Touch 5992156713056701964635107814552884340935922700182120 s x10 := by
      unfold x10
      refine Touch.ite ?_ ?_
      · exact h9
      · refine Touch.step (setReg_touch ..) rfl ?_
        exact h9
    clear_value x10
    extract_lets -merge +onlyGivenNames x12
    have h13 : Touch 5992156713056701964635107814552884340935922700182120 s x12 := by
      unfold x12
      refine Touch.step (setReg_touch ..) rfl ?_
      exact h11
    clear_value x12
    extract_lets -merge +onlyGivenNames x14
    have h15 : Touch 5992156713056701964635107814552884340935922700182120 s x14 := by
      unfold x14
      refine Touch.ite ?_ ?_
      · refine Touch.step (setReg_touch ..) rfl ?_
        exact h13
      · exact h13
    clear_value x14
    extract_lets -merge +onlyGivenNames x16
    clear_value x16
    extract_lets -merge +onlyGivenNames x17
    clear_value x17
    extract_lets -merge +onlyGivenNames x18
    have h19 : Touch 5992156713056701964635107814552884340935922700182120 s x18 := by
      unfold x18
      refine Touch.step (modRec_touch ..) rfl ?_
      exact h15
    clear_value x18
    extract_lets -merge +onlyGivenNames x20
    have h21 : Touch 5992156713056701964635107814552884340935922700182120 s x20 := by
      unfold x20
      refine Touch.step (setPhase_touch ..) rfl ?_
      exact h19
    clear_value x20
    extract_lets -merge +onlyGivenNames x22
    clear_value x22
    split
    · rename_i x23
      refine Touch.step (restoresDone_touch ..) rfl ?_
      exact h21
    · rename_i x24 x25 x26
      refine Touch.ite ?_ ?_
      · extract_lets -merge +onlyGivenNames x27
        clear_value x27
        refine Touch.ite ?_ ?_
        · refine Touch.step (failRecovery_touch ..) rfl ?_
          exact h21
        · refine Touch.step (sendCoord_touch ..) rfl ?_
          exact h21
      · refine Touch.step (askGrains_touch ..) rfl ?_
        exact h21

theorem moveHops_touch {d : Nat} {l : List Departed} {s : State} : Touch 393216 s (moveHops d l s) := by
  unfold moveHops
  refine Touch.foldl ?_ (fun x0 x1 h2 => ?_)
  · exact Touch.refl _ _
  · split
    · rename_i x3 x4 x5 x6 h7 h8
      refine Touch.ite ?_ ?_
      · exact h2
      · refine Touch.step (modRec_touch ..) rfl ?_
        refine Touch.step (moveHop_touch ..) rfl ?_
        exact h2
    · rename_i x9 x10 h11
      exact h2

theorem sendRollback_touch {d : Nat} {s : State} : Touch 5992156713056701964635107814552884340935922700182120 s (sendRollback d s) := by
  unfold sendRollback
  extract_lets -merge +onlyGivenNames x0
  have h1 : Touch 5992156713056701964635107814552884340935922700182120 s x0 := by
    unfold x0
    refine Touch.step (assignSpares_touch ..) rfl ?_
    exact Touch.refl _ _
  clear_value x0
  split
  · rename_i x2 h3
    exact h1
  · rename_i x4 x5 h6
    split
    · rename_i x7 x8 h9
      refine Touch.step (failRecovery_touch ..) rfl ?_
      exact h1
    · rename_i x10 h11
      split
      · rename_i x12 h13
        refine Touch.step (failRecovery_touch ..) rfl ?_
        exact h1
      · rename_i x14 x15 h16
        refine Touch.ite ?_ ?_
        · refine Touch.ite ?_ ?_
          · refine Touch.step (irqSource_touch ..) rfl ?_
            refine Touch.step (setFld_touch ..) rfl ?_
            refine Touch.step (setPhase_touch ..) rfl ?_
            exact h1
          · exact h1
        · extract_lets -merge +onlyGivenNames x17
          clear_value x17
          extract_lets -merge +onlyGivenNames x18
          have h19 : Touch 5992156713056701964635107814552884340935922700182120 s x18 := by
            unfold x18
            refine Touch.step (sendDown_touch ..) rfl ?_
            exact h1
          clear_value x18
          refine Touch.step (rollMember_touch ..) rfl ?_
          refine Touch.step (moveHops_touch ..) rfl ?_
          exact h19

theorem resolveFlight_touch {d : Nat} {s : State} : Touch 5992156713056701964635107814137924831871926429737576 s (resolveFlight d s) := by
  unfold resolveFlight
  split
  · rename_i x0 h1
    exact Touch.refl _ _
  · rename_i x2 x3 h4
    extract_lets -merge +onlyGivenNames x5
    subst x5
    refine Touch.ite ?_ ?_
    · split
      · rename_i x6 x7 x8 x9 x10 h11
        refine Touch.step (resolve_touch ..) rfl ?_
        refine Touch.step (setDom_touch ..) rfl ?_
        exact Touch.refl _ _
      · rename_i x12 x13 x14 h15 h16
        beta_reduce
        extract_lets -merge +onlyGivenNames x17
        have h18 : Touch 5992156713056701964635107814137924831871926429737576 s x17 := by
          unfold x17
          refine Touch.step (modDom_touch ..) rfl ?_
          exact Touch.refl _ _
        clear_value x17
        refine Touch.step (applyAbort_touch ..) rfl ?_
        refine Touch.step (sendDown_touch ..) rfl ?_
        exact h18
      · rename_i x19 x20 h21 h22
        exact Touch.refl _ _
    · split
      · rename_i x23 x24 h25
        refine Touch.ite ?_ ?_
        · refine Touch.step (resolve_touch ..) rfl ?_
          exact Touch.refl _ _
        · beta_reduce
          extract_lets -merge +onlyGivenNames x26
          have h27 : Touch 5992156713056701964635107814137924831871926429737576 s x26 := by
            unfold x26
            refine Touch.step (modDom_touch ..) rfl ?_
            exact Touch.refl _ _
          clear_value x26
          refine Touch.step (applyAbort_touch ..) rfl ?_
          refine Touch.step (sendDown_touch ..) rfl ?_
          exact h27
      · rename_i x28 h29
        exact Touch.refl _ _

theorem stoppedAll_touch {d : Nat} {s : State} : Touch 5992156713056701964635107814553493083490355115385448 s (stoppedAll d s) := by
  unfold stoppedAll
  refine Touch.step (sendRollback_touch ..) rfl ?_
  refine Touch.step (resolveFlight_touch ..) rfl ?_
  exact Touch.refl _ _

theorem sendStopped_touch {d : Nat} {s : State} : Touch 5992156713056701964635107814553493083490355115385448 s (sendStopped d s) := by
  unfold sendStopped
  split
  · rename_i x0 h1
    exact Touch.refl _ _
  · rename_i x2 x3 h4
    extract_lets -merge +onlyGivenNames x5
    clear_value x5
    extract_lets -merge +onlyGivenNames x6
    clear_value x6
    extract_lets -merge +onlyGivenNames x7
    clear_value x7
    extract_lets -merge +onlyGivenNames x8
    clear_value x8
    refine Touch.ite ?_ ?_
    · exact Touch.refl _ _
    · extract_lets -merge +onlyGivenNames x9
      have h10 : Touch 5992156713056701964635107814553493083490355115385448 s x9 := by
        unfold x9
        refine Touch.step (modRec_touch ..) rfl ?_
        exact Touch.refl _ _
      clear_value x9
      extract_lets -merge +onlyGivenNames x11
      clear_value x11
      refine Touch.ite ?_ ?_
      · refine Touch.ite ?_ ?_
        · refine Touch.step (stoppedAll_touch ..) rfl ?_
          exact h10
        · exact h10
      · refine Touch.ite ?_ ?_
        · refine Touch.step (sendMsg_touch ..) rfl ?_
          exact h10
        · refine Touch.step (sendMsg_touch ..) rfl ?_
          exact h10

theorem applyStop_touch {d : Nat} {epoch : Nat} {ts : Nat} {l : List Departed} {s : State} : Touch 5992156713056701964635107814553493083490355115385448 s (applyStop d epoch ts l s) := by
  unfold applyStop
  extract_lets -merge +onlyGivenNames x0
  have h1 : Touch 5992156713056701964635107814553493083490355115385448 s x0 := by
    unfold x0
    refine Touch.step (setFld_touch ..) rfl ?_
    exact Touch.refl _ _
  clear_value x0
  split
  · rename_i x2 h3
    exact h1
  · rename_i x4 x5 h6
    extract_lets -merge +onlyGivenNames x7
    clear_value x7
    extract_lets -merge +onlyGivenNames x8
    clear_value x8
    extract_lets -merge +onlyGivenNames x9
    have h10 : Touch 5992156713056701964635107814553493083490355115385448 s x9 := by
      unfold x9
      refine Touch.step (setDom_touch ..) rfl ?_
      exact h1
    clear_value x9
    extract_lets -merge +onlyGivenNames x11
    subst x11
    extract_lets -merge +onlyGivenNames x12
    have h13 : Touch 5992156713056701964635107814553493083490355115385448 s x12 := by
      unfold x12
      refine Touch.step (t := x9) (Touch.upd (F := 262144) rfl (Or.inr rfl)) rfl ?_
      exact h10
    clear_value x12
    extract_lets -merge +onlyGivenNames x14
    have h15 : Touch 5992156713056701964635107814553493083490355115385448 s x14 := by
      unfold x14
      refine Touch.step (setFld_touch ..) rfl ?_
      exact h13
    clear_value x14
    extract_lets -merge +onlyGivenNames x16
    have h17 : Touch 5992156713056701964635107814553493083490355115385448 s x16 := by
      unfold x16
      refine Touch.step (setPhase_touch ..) rfl ?_
      refine Touch.step (setFld_touch ..) rfl ?_
      exact h15
    clear_value x16
    refine Touch.ite ?_ ?_
    · refine Touch.step (fence_touch ..) rfl ?_
      exact h17
    · refine Touch.ite ?_ ?_
      · refine Touch.step (sendStopped_touch ..) rfl ?_
        refine Touch.step (stopNow_touch ..) rfl ?_
        exact h17
      · exact h17

theorem declareGone_touch {d : Nat} {i : Nat} {evicted : Bool} {s : State} : Touch 5992156713056701964635107814704608810942183762223720 s (declareGone d i evicted s) := by
  unfold declareGone
  split
  · rename_i x0 h1
    exact Touch.refl _ _
  · rename_i x2 x3 h4
    refine Touch.ite ?_ ?_
    · exact Touch.refl _ _
    · extract_lets -merge +onlyGivenNames x5
      clear_value x5
      extract_lets -merge +onlyGivenNames x6
      clear_value x6
      extract_lets -merge +onlyGivenNames x7
      have h8 : Touch 5992156713056701964635107814704608810942183762223720 s x7 := by
        unfold x7
        refine Touch.step (setDom_touch ..) rfl ?_
        exact Touch.refl _ _
      clear_value x7
      refine Touch.ite ?_ ?_
      · refine Touch.step (failRecovery_touch ..) rfl ?_
        exact h8
      · extract_lets -merge +onlyGivenNames x9
        have h10 : Touch 5992156713056701964635107814704608810942183762223720 s x9 := by
          unfold x9
          refine Touch.step (assignSpares_touch ..) rfl ?_
          exact h8
        clear_value x9
        extract_lets -merge +onlyGivenNames x11
        clear_value x11
        extract_lets -merge +onlyGivenNames x12
        clear_value x12
        split
        · rename_i x13 h14
          exact h10
        · rename_i x15 x16 h17
          extract_lets -merge +onlyGivenNames x18
          clear_value x18
          extract_lets -merge +onlyGivenNames x19
          have h20 : Touch 5992156713056701964635107814704608810942183762223720 s x19 := by
            unfold x19
            refine Touch.step (setFld_touch ..) rfl ?_
            exact h10
          clear_value x19
          extract_lets -merge +onlyGivenNames x21
          have h22 : Touch 5992156713056701964635107814704608810942183762223720 s x21 := by
            unfold x21
            refine Touch.step (sendDown_touch ..) rfl ?_
            exact h20
          clear_value x21
          refine Touch.step (applyStop_touch ..) rfl ?_
          refine Touch.step (bump_touch ..) rfl ?_
          exact h22

theorem silentAt_touch {d : Nat} {i : Nat} {obs : Nat} {t : Nat} {s : State} : Touch 5992156713056701964635107814704608810942183762223720 s (silentAt d i obs t s) := by
  unfold silentAt
  split
  · rename_i x0 h1
    exact Touch.refl _ _
  · rename_i x2 x3 h4
    extract_lets -merge +onlyGivenNames x5
    clear_value x5
    extract_lets -merge +onlyGivenNames x6
    have h7 : Touch 5992156713056701964635107814704608810942183762223720 s x6 := by
      unfold x6
      refine Touch.step (setDom_touch ..) rfl ?_
      exact Touch.refl _ _
    clear_value x6
    refine Touch.ite ?_ ?_
    · exact h7
    · extract_lets -merge +onlyGivenNames x8
      clear_value x8
      extract_lets -merge +onlyGivenNames x9
      clear_value x9
      refine Touch.ite ?_ ?_
      · refine Touch.step (declareGone_touch ..) rfl ?_
        exact h7
      · exact h7

theorem suspectAt_touch {d : Nat} {i : Nat} {s : State} : Touch 134610944 s (suspectAt d i s) := by
  unfold suspectAt
  split
  · rename_i x0 h1
    exact Touch.refl _ _
  · rename_i x2 x3 h4
    refine Touch.ite ?_ ?_
    · exact Touch.refl _ _
    · split
      · rename_i x5 x6 h7
        extract_lets -merge +onlyGivenNames x8
        have h9 : Touch 134610944 s x8 := by
          unfold x8
          refine Touch.step (setDom_touch ..) rfl ?_
          exact Touch.refl _ _
        clear_value x8
        refine Touch.step (sendMsg_touch ..) rfl ?_
        exact h9
      · rename_i x10 h11
        exact Touch.refl _ _

theorem evictAt_touch {d : Nat} {i : Nat} {s : State} : Touch 5992156713056701964635107814704608810942183762223720 s (evictAt d i s) := by
  unfold evictAt
  split
  · rename_i x0 x1 h2
    refine Touch.ite ?_ ?_
    · refine Touch.step (declareGone_touch ..) rfl ?_
      exact Touch.refl _ _
    · exact Touch.refl _ _
  · rename_i x3 h4
    exact Touch.refl _ _

theorem report_touch {d : Nat} {m : Msg} {act : State → State} {s : State} {F : Nat} (hF : Within 134479872 F) (hact : ∀ (y0 : State), Touch F y0 (act y0)) : Touch F s (report d m act s) := by
  unfold report
  split
  · rename_i x0 x1 h2
    refine Touch.step (sendCoord_touch ..) (.trans rfl hF) ?_
    refine Touch.ite ?_ ?_
    · refine Touch.step (hact ..) (Within.refl _) ?_
      exact Touch.refl _ _
    · exact Touch.refl _ _
  · rename_i x3 h4
    exact Touch.refl _ _

theorem atBoth_touch {m : Msg} {D : Domain} {s : State} {act : State → State} {F : Nat} (hF : Within 134479872 F) (hact : ∀ (y0 : State), Touch F y0 (act y0)) : Touch F s (atBoth m D s act) := by
  unfold atBoth
  extract_lets -merge +onlyGivenNames x0
  clear_value x0
  refine Touch.ite ?_ ?_
  · refine Touch.step (hact ..) (Within.refl _) ?_
    refine Touch.ite ?_ ?_
    · refine Touch.step (sendMsg_touch ..) (.trans rfl hF) ?_
      exact Touch.refl _ _
    · exact Touch.refl _ _
  · refine Touch.ite ?_ ?_
    · refine Touch.step (hact ..) (Within.refl _) ?_
      refine Touch.ite ?_ ?_
      · exact Touch.refl _ _
      · refine Touch.step (sendMsg_touch ..) (.trans rfl hF) ?_
        exact Touch.refl _ _
    · refine Touch.step (relayUp_touch ..) (.trans rfl hF) ?_
      exact Touch.refl _ _

theorem execHeartbeat_touch {m : Msg} {s : State} : TouchOut 5992156713056701964635107814552884340935922700182120 s (execHeartbeat m s) := by
  unfold execHeartbeat
  refine TouchOut.step (whenOn_touch rfl (fun x0 => ?_)) (Within.refl _) ?_
  · refine Touch.step (receive_touch rfl (fun x1 x2 => ?_)) (Within.refl _) ?_
    · extract_lets -merge +onlyGivenNames x3
      clear_value x3
      extract_lets -merge +onlyGivenNames x4
      clear_value x4
      extract_lets -merge +onlyGivenNames x5
      subst x5
      extract_lets -merge +onlyGivenNames x6
      subst x6
      refine Touch.ite ?_ ?_
      · beta_reduce
        split
        · rename_i x7 x8 h9
          refine Touch.ite ?_ ?_
          · refine Touch.step (sendRollback_touch ..) rfl ?_
            refine Touch.step (modDom_touch ..) rfl ?_
            exact Touch.refl _ _
          · refine Touch.step (modDom_touch ..) rfl ?_
            exact Touch.refl _ _
        · rename_i x10 h11
          refine Touch.step (modDom_touch ..) rfl ?_
          exact Touch.refl _ _
      · split
        · rename_i x12 x13 h14
          refine Touch.step (atBoth_touch rfl (fun x15 => ?_)) (Within.refl _) ?_
          · beta_reduce
            split
            · rename_i x16 x17 h18
              refine Touch.ite ?_ ?_
              · refine Touch.step (sendRollback_touch ..) rfl ?_
                refine Touch.step (modDom_touch ..) rfl ?_
                exact Touch.refl _ _
              · refine Touch.step (modDom_touch ..) rfl ?_
                exact Touch.refl _ _
            · rename_i x19 h20
              refine Touch.step (modDom_touch ..) rfl ?_
              exact Touch.refl _ _
          · exact Touch.refl _ _
        · rename_i x21 h22
          exact Touch.refl _ _
    · exact Touch.refl _ _
  · exact Touch.refl _ _

theorem execSpareHeartbeatRelay_touch {d : Nat} {s : State} : TouchOut 134479872 s (execSpareHeartbeatRelay d s) := by
  unfold execSpareHeartbeatRelay
  refine TouchOut.step (whenOn_touch rfl (fun x0 => ?_)) (Within.refl _) ?_
  · refine Touch.step (withDom_touch rfl (fun x1 x2 => ?_)) (Within.refl _) ?_
    · refine Touch.foldl ?_ (fun x3 x4 h5 => ?_)
      · exact Touch.refl _ _
      · split
        · rename_i x6 x7 x8 x9 h10 h11
          refine Touch.ite ?_ ?_
          · exact h5
          · refine Touch.step (sendCoord_touch ..) rfl ?_
            exact h5
        · rename_i x12 x13 h14
          exact h5
    · exact Touch.refl _ _
  · exact Touch.refl _ _

theorem silentFor_touch {D : Domain} {i : Nat} {ns : Nat} {s : State} : TouchO 2048 s (silentFor D i ns s) := by
  unfold silentFor
  split
  · rename_i x0 x1 h2
    refine TouchO.some' ?_
    refine Touch.step (ftReach_touch ..) rfl ?_
    exact Touch.refl _ _
  · rename_i x3 h4
    exact TouchO.none' _ _

theorem execSilenceSuspect_touch {d : Nat} {i : Nat} {s : State} : TouchOut 134612992 s (execSilenceSuspect d i s) := by
  unfold execSilenceSuspect
  refine TouchOut.step (whenOn_touch rfl (fun x0 => ?_)) (Within.refl _) ?_
  · refine Touch.step (withDom_touch rfl (fun x1 x2 => ?_)) (Within.refl _) ?_
    · refine Touch.ite ?_ ?_
      · exact Touch.refl _ _
      · split
        · rename_i x3 x4 h5
          have h6 : Touch 134612992 x2 x4 := by
            refine TouchO.eq ?_ h5
            refine TouchO.step (silentFor_touch) rfl ?_
            exact Touch.refl _ _
          extract_lets -merge +onlyGivenNames x7
          have h8 : Touch 134612992 x2 x7 := by
            unfold x7
            refine Touch.step (modDom_touch ..) rfl ?_
            exact h6
          clear_value x7
          refine Touch.step (report_touch rfl (fun x9 => ?_)) (Within.refl _) ?_
          · refine Touch.step (suspectAt_touch ..) rfl ?_
            exact Touch.refl _ _
          · exact h8
        · rename_i x10 h11
          exact Touch.refl _ _
    · exact Touch.refl _ _
  · exact Touch.refl _ _

theorem execSilenceSilent_touch {d : Nat} {i : Nat} {s : State} : TouchOut 5992156713056701964635107814704608810942183762225768 s (execSilenceSilent d i s) := by
  unfold execSilenceSilent
  refine TouchOut.step (whenOn_touch rfl (fun x0 => ?_)) (Within.refl _) ?_
  · refine Touch.step (withDom_touch rfl (fun x1 x2 => ?_)) (Within.refl _) ?_
    · refine Touch.ite ?_ ?_
      · exact Touch.refl _ _
      · split
        · rename_i x3 x4 h5
          have h6 : Touch 5992156713056701964635107814704608810942183762225768 x2 x4 := by
            refine TouchO.eq ?_ h5
            refine TouchO.step (silentFor_touch) rfl ?_
            exact Touch.refl _ _
          extract_lets -merge +onlyGivenNames x7
          have h8 : Touch 5992156713056701964635107814704608810942183762225768 x2 x7 := by
            unfold x7
            refine Touch.step (modDom_touch ..) rfl ?_
            exact h6
          clear_value x7
          refine Touch.step (report_touch rfl (fun x9 => ?_)) (Within.refl _) ?_
          · refine Touch.step (silentAt_touch ..) rfl ?_
            exact Touch.refl _ _
          · exact h8
        · rename_i x10 h11
          exact Touch.refl _ _
    · exact Touch.refl _ _
  · exact Touch.refl _ _

theorem execFenceTimeout_touch {d : Nat} {s : State} : TouchOut 5992156713056701964635107814136760381152273379764320 s (execFenceTimeout d s) := by
  unfold execFenceTimeout
  refine TouchOut.step (whenOn_touch rfl (fun x0 => ?_)) (Within.refl _) ?_
  · refine Touch.step (withDom_touch rfl (fun x1 x2 => ?_)) (Within.refl _) ?_
    · extract_lets -merge +onlyGivenNames x3
      clear_value x3
      extract_lets -merge +onlyGivenNames x4
      clear_value x4
      refine Touch.ite ?_ ?_
      · exact Touch.refl _ _
      · extract_lets -merge +onlyGivenNames x5
        clear_value x5
        refine Touch.step (fence_touch ..) rfl ?_
        refine Touch.step (ftReach_touch ..) rfl ?_
        exact Touch.refl _ _
    · exact Touch.refl _ _
  · exact Touch.refl _ _

theorem execSuspect_touch {m : Msg} {s : State} : TouchOut 134610944 s (execSuspect m s) := by
  unfold execSuspect
  refine TouchOut.step (whenOn_touch rfl (fun x0 => ?_)) (Within.refl _) ?_
  · refine Touch.step (receive_touch rfl (fun x1 x2 => ?_)) (Within.refl _) ?_
    · refine Touch.step (atBoth_touch rfl (fun x3 => ?_)) (Within.refl _) ?_
      · refine Touch.step (suspectAt_touch ..) rfl ?_
        exact Touch.refl _ _
      · exact Touch.refl _ _
    · exact Touch.refl _ _
  · exact Touch.refl _ _

theorem execSilent_touch {m : Msg} {s : State} : TouchOut 5992156713056701964635107814704608810942183762223720 s (execSilent m s) := by
  unfold execSilent
  refine TouchOut.step (whenOn_touch rfl (fun x0 => ?_)) (Within.refl _) ?_
  · refine Touch.step (receive_touch rfl (fun x1 x2 => ?_)) (Within.refl _) ?_
    · refine Touch.step (atBoth_touch rfl (fun x3 => ?_)) (Within.refl _) ?_
      · refine Touch.step (silentAt_touch ..) rfl ?_
        exact Touch.refl _ _
      · exact Touch.refl _ _
    · exact Touch.refl _ _
  · exact Touch.refl _ _

theorem execEvict_touch {m : Msg} {s : State} : TouchOut 5992156713056701964635107814704608810942183762223720 s (execEvict m s) := by
  unfold execEvict
  refine TouchOut.step (whenOn_touch rfl (fun x0 => ?_)) (Within.refl _) ?_
  · refine Touch.step (receive_touch rfl (fun x1 x2 => ?_)) (Within.refl _) ?_
    · refine Touch.step (atBoth_touch rfl (fun x3 => ?_)) (Within.refl _) ?_
      · refine Touch.step (evictAt_touch ..) rfl ?_
        exact Touch.refl _ _
      · exact Touch.refl _ _
    · exact Touch.refl _ _
  · exact Touch.refl _ _

theorem execEvictMailbox_touch {c : Caller} {d : Nat} {i : Nat} {s : State} : TouchOut 5992156713056701964635107814704608810942183762223848 s (execEvictMailbox c d i s) := by
  unfold execEvictMailbox
  refine TouchOut.step (whenOn_touch rfl (fun x0 => ?_)) (Within.refl _) ?_
  · refine Touch.step (mbxServe_touch rfl (fun x1 x2 => ?_)) (Within.refl _) ?_
    · split
      · rename_i x3 h4
        refine TouchP.step (refuseAt_touch ..) rfl ?_
        exact Touch.refl _ _
      · rename_i x5 x6 h7
        refine TouchP.ite ?_ ?_
        · refine TouchP.step (refuseAt_touch ..) rfl ?_
          exact Touch.refl _ _
        · refine TouchP.ite ?_ ?_
          · refine TouchP.step (refuseAt_touch ..) rfl ?_
            exact Touch.refl _ _
          · refine TouchP.step (accept_touch ..) rfl ?_
            refine Touch.step (report_touch rfl (fun x8 => ?_)) (Within.refl _) ?_
            · refine Touch.step (evictAt_touch ..) rfl ?_
              exact Touch.refl _ _
            · exact Touch.refl _ _
    · exact Touch.refl _ _
  · exact Touch.refl _ _

theorem execPushFailed_touch {d : Nat} {l : Nat} {c : Nat} {s : State} : TouchOut 5992156713056701964635107814704608810942183762223720 s (execPushFailed d l c s) := by
  unfold execPushFailed
  refine TouchOut.step (whenEngine_touch rfl (fun x0 => ?_)) (Within.refl _) ?_
  · refine Touch.step (withDom_touch rfl (fun x1 x2 => ?_)) (Within.refl _) ?_
    · split
      · rename_i x3 x4 h5
        extract_lets -merge +onlyGivenNames x6
        clear_value x6
        refine Touch.ite ?_ ?_
        · extract_lets -merge +onlyGivenNames x7
          have h8 : Touch 5992156713056701964635107814704608810942183762223720 x2 x7 := by
            unfold x7
            refine Touch.step (haltPipe_touch ..) rfl ?_
            refine Touch.step (log_touch ..) rfl ?_
            exact Touch.refl _ _
          clear_value x7
          refine Touch.step (report_touch rfl (fun x9 => ?_)) (Within.refl _) ?_
          · refine Touch.step (evictAt_touch ..) rfl ?_
            exact Touch.refl _ _
          · exact h8
        · exact Touch.refl _ _
      · rename_i x10 h11
        exact Touch.refl _ _
    · exact Touch.refl _ _
  · exact Touch.refl _ _

theorem toOne_touch {dest : Nat} {m : Msg} {s : State} {f : State → State} {F : Nat} (hF : Within 134479872 F) (hf : ∀ (y0 : State), Touch F y0 (f y0)) : Touch F s (toOne dest m s f) := by
  unfold toOne
  refine Touch.ite ?_ ?_
  · refine Touch.step (hf ..) (Within.refl _) ?_
    exact Touch.refl _ _
  · refine Touch.step (sendMsg_touch ..) (.trans rfl hF) ?_
    exact Touch.refl _ _

theorem execPrepare_touch {m : Msg} {t : Tables} {s : State} : TouchOut 393216 s (execPrepare m t s) := by
  unfold execPrepare
  refine TouchOut.step (whenOn_touch rfl (fun x0 => ?_)) (Within.refl _) ?_
  · refine Touch.step (receive_touch rfl (fun x1 x2 => ?_)) (Within.refl _) ?_
    · refine Touch.ite ?_ ?_
      · refine Touch.step (setDom_touch ..) rfl ?_
        exact Touch.refl _ _
      · exact Touch.refl _ _
    · exact Touch.refl _ _
  · exact Touch.refl _ _

theorem execPrepareExpiry_touch {d : Nat} {s : State} : TouchOut 131072 s (execPrepareExpiry d s) := by
  unfold execPrepareExpiry
  refine TouchOut.step (whenOn_touch rfl (fun x0 => ?_)) (Within.refl _) ?_
  · refine Touch.step (withDom_touch rfl (fun x1 x2 => ?_)) (Within.refl _) ?_
    · split
      · rename_i x3 x4 x5 x6 h7
        refine Touch.ite ?_ ?_
        · exact Touch.refl _ _
        · refine Touch.step (setDom_touch ..) rfl ?_
          exact Touch.refl _ _
      · rename_i x8 h9
        exact Touch.refl _ _
    · exact Touch.refl _ _
  · exact Touch.refl _ _

theorem execStop_touch {m : Msg} {s : State} : TouchOut 5992156713056701964635107814553493083490355115385448 s (execStop m s) := by
  unfold execStop
  refine TouchOut.step (whenOn_touch rfl (fun x0 => ?_)) (Within.refl _) ?_
  · refine Touch.step (receive_touch rfl (fun x1 x2 => ?_)) (Within.refl _) ?_
    · refine Touch.step (spread_touch rfl (fun x3 => ?_)) (Within.refl _) ?_
      · refine Touch.step (applyStop_touch ..) rfl ?_
        exact Touch.refl _ _
      · exact Touch.refl _ _
    · exact Touch.refl _ _
  · exact Touch.refl _ _

theorem execRecoveryStopTime_touch {d : Nat} {s : State} : TouchOut 5992156713056701964635107814553493083490355115387496 s (execRecoveryStopTime d s) := by
  unfold execRecoveryStopTime
  refine TouchOut.step (whenOn_touch rfl (fun x0 => ?_)) (Within.refl _) ?_
  · refine Touch.step (withDom_touch rfl (fun x1 x2 => ?_)) (Within.refl _) ?_
    · split
      · rename_i x3 x4 h5
        refine Touch.ite ?_ ?_
        · exact Touch.refl _ _
        · refine Touch.step (sendStopped_touch ..) rfl ?_
          refine Touch.step (stopNow_touch ..) rfl ?_
          refine Touch.step (ftReach_touch ..) rfl ?_
          exact Touch.refl _ _
      · rename_i x6 h7
        exact Touch.refl _ _
    · exact Touch.refl _ _
  · exact Touch.refl _ _

theorem execRecoveryStopKernelAbort_touch {d : Nat} {s : State} : TouchOut 24519928653854221733733552434404946937899825951046363752 s (execRecoveryStopKernelAbort d s) := by
  unfold execRecoveryStopKernelAbort
  refine TouchOut.step (whenOn_touch rfl (fun x0 => ?_)) (Within.refl _) ?_
  · refine Touch.step (withDom_touch rfl (fun x1 x2 => ?_)) (Within.refl _) ?_
    · split
      · rename_i x3 x4 h5
        refine Touch.ite ?_ ?_
        · extract_lets -merge +onlyGivenNames x6
          have h7 : Touch 24519928653854221733733552434404946937899825951046363752 x2 x6 := by
            unfold x6
            refine Touch.step (ftReach_touch ..) rfl ?_
            exact Touch.refl _ _
          clear_value x6
          refine Touch.step (sendStopped_touch ..) rfl ?_
          refine Touch.foldl ?_ (fun x8 x9 h10 => ?_)
          · exact h7
          · split
            · rename_i x11 x12 x13 h14
              have h15 : Touch 24519928653854221733733552434404946937899825951046363752 x2 x13 := by
                refine TouchP.eq ?_ h14
                refine TouchP.step (draw_touch ..) rfl ?_
                exact h10
              refine Touch.step (abortKernel_touch ..) rfl ?_
              exact h15
        · exact Touch.refl _ _
      · rename_i x16 h17
        exact Touch.refl _ _
    · exact Touch.refl _ _
  · exact Touch.refl _ _

theorem execStopped_touch {m : Msg} {s : State} : TouchOut 5992156713056701964635107814553493083490355115385448 s (execStopped m s) := by
  unfold execStopped
  refine TouchOut.step (whenOn_touch rfl (fun x0 => ?_)) (Within.refl _) ?_
  · refine Touch.step (receive_touch rfl (fun x1 x2 => ?_)) (Within.refl _) ?_
    · extract_lets -merge +onlyGivenNames x3
      clear_value x3
      refine Touch.ite ?_ ?_
      · exact Touch.refl _ _
      · refine Touch.step (sendStopped_touch ..) rfl ?_
        refine Touch.step (modRec_touch ..) rfl ?_
        exact Touch.refl _ _
    · exact Touch.refl _ _
  · exact Touch.refl _ _

theorem execRollback_touch {m : Msg} {t : Tables} {s : State} : TouchOut 5992156713056701964635107814552884341217397676892776 s (execRollback m t s) := by
  unfold execRollback
  refine TouchOut.step (whenOn_touch rfl (fun x0 => ?_)) (Within.refl _) ?_
  · refine Touch.step (receive_touch rfl (fun x1 x2 => ?_)) (Within.refl _) ?_
    · extract_lets -merge +onlyGivenNames x3
      clear_value x3
      extract_lets -merge +onlyGivenNames x4
      clear_value x4
      extract_lets -merge +onlyGivenNames x5
      clear_value x5
      extract_lets -merge +onlyGivenNames x6
      have h7 : Touch 5992156713056701964635107814552884341217397676892776 x2 x6 := by
        unfold x6
        refine Touch.step (moveHops_touch ..) rfl ?_
        refine Touch.step (sendDown_touch ..) rfl ?_
        exact Touch.refl _ _
      clear_value x6
      extract_lets -merge +onlyGivenNames x8
      have h9 : Touch 5992156713056701964635107814552884341217397676892776 x2 x8 := by
        unfold x8
        refine Touch.step (modRec_touch ..) rfl ?_
        exact h7
      clear_value x8
      split
      · rename_i x10 x11 h12
        split
        · rename_i x13 h14
          exact h9
        · rename_i x15 x16 h17
          extract_lets -merge +onlyGivenNames x18
          clear_value x18
          refine Touch.ite ?_ ?_
          · refine Touch.step (rollMember_touch ..) rfl ?_
            refine Touch.step (setFld_touch ..) rfl ?_
            refine Touch.step (takeIndex_touch ..) rfl ?_
            exact h9
          · refine Touch.step (sendMsg_touch ..) rfl ?_
            exact h9
      · rename_i x19 h20
        split
        · rename_i x21 x22 h23
          refine Touch.ite ?_ ?_
          · exact h9
          · refine Touch.step (fence_touch ..) rfl ?_
            exact h9
        · rename_i x24 h25
          refine Touch.step (rollMember_touch ..) rfl ?_
          exact h9
    · exact Touch.refl _ _
  · exact Touch.refl _ _

theorem sendMissing_touch {d : Nat} {c : Nat} {k : Nat} {owner : Nat} {st : Status} {s : State} : Touch 5992156713056701964635107814250097176741144999240288 s (sendMissing d c k owner st s) := by
  unfold sendMissing
  split
  · rename_i x0 h1
    exact Touch.refl _ _
  · rename_i x2 x3 h4
    extract_lets -merge +onlyGivenNames x5
    clear_value x5
    extract_lets -merge +onlyGivenNames x6
    have h7 : Touch 5992156713056701964635107814250097176741144999240288 s x6 := by
      unfold x6
      refine Touch.step (sendMsg_touch ..) rfl ?_
      exact Touch.refl _ _
    clear_value x6
    refine Touch.ite ?_ ?_
    · refine Touch.step (failRecovery_touch ..) rfl ?_
      exact h7
    · refine Touch.step (sendCoord_touch ..) rfl ?_
      exact h7

theorem serveGrain_touch {d : Nat} {c : Nat} {k : Nat} {owner : Nat} {s : State} : Touch 5992156713056701964635107814250097176741144999240288 s (serveGrain d c k owner s) := by
  unfold serveGrain
  split
  · rename_i x0 h1
    exact Touch.refl _ _
  · rename_i x2 x3 h4
    refine Touch.ite ?_ ?_
    · refine Touch.step (sendMissing_touch ..) rfl ?_
      exact Touch.refl _ _
    · split
      · rename_i x5 h6
        refine Touch.step (sendMissing_touch ..) rfl ?_
        exact Touch.refl _ _
      · rename_i x7 x8 h9
        extract_lets -merge +onlyGivenNames x10
        clear_value x10
        refine Touch.ite ?_ ?_
        · refine Touch.step (sendMissing_touch ..) rfl ?_
          exact Touch.refl _ _
        · extract_lets -merge +onlyGivenNames x11
          clear_value x11
          extract_lets -merge +onlyGivenNames x12
          clear_value x12
          refine Touch.step (emit_touch ..) rfl ?_
          exact Touch.refl _ _

theorem execRestoreReq_touch {m : Msg} {s : State} : TouchOut 5992156713056701964635107814250097176741144999240288 s (execRestoreReq m s) := by
  unfold execRestoreReq
  refine TouchOut.step (whenEngine_touch rfl (fun x0 => ?_)) (Within.refl _) ?_
  · refine Touch.step (receive_touch rfl (fun x1 x2 => ?_)) (Within.refl _) ?_
    · extract_lets -merge +onlyGivenNames x3
      clear_value x3
      refine Touch.ite ?_ ?_
      · exact Touch.refl _ _
      · refine Touch.foldl ?_ (fun x4 x5 h6 => ?_)
        · exact Touch.refl _ _
        · refine Touch.step (serveGrain_touch ..) rfl ?_
          exact h6
    · exact Touch.refl _ _
  · exact Touch.refl _ _

theorem restoreFailed_touch {d : Nat} {k : Nat} {s : State} : Touch 5992156713056701964635107814250097176741144999371360 s (restoreFailed d k s) := by
  unfold restoreFailed
  split
  · rename_i x0 h1
    exact Touch.refl _ _
  · rename_i x2 x3 h4
    extract_lets -merge +onlyGivenNames x5
    clear_value x5
    extract_lets -merge +onlyGivenNames x6
    have h7 : Touch 5992156713056701964635107814250097176741144999371360 s x6 := by
      unfold x6
      refine Touch.step (modRec_touch ..) rfl ?_
      exact Touch.refl _ _
    clear_value x6
    refine Touch.ite ?_ ?_
    · refine Touch.step (askGrains_touch ..) rfl ?_
      exact h7
    · extract_lets -merge +onlyGivenNames x8
      clear_value x8
      refine Touch.ite ?_ ?_
      · refine Touch.step (failRecovery_touch ..) rfl ?_
        exact h7
      · refine Touch.step (sendCoord_touch ..) rfl ?_
        exact h7

theorem execRestoreGrain_touch {m : Msg} {s : State} : TouchOut 5992156713056701964635107814552882033967013579645544 s (execRestoreGrain m s) := by
  unfold execRestoreGrain
  refine TouchOut.step (whenEngine_touch rfl (fun x0 => ?_)) (Within.refl _) ?_
  · extract_lets -merge +onlyGivenNames x1
    clear_value x1
    split
    · rename_i x2 h3
      refine Touch.step (discard_touch ..) rfl ?_
      exact Touch.refl _ _
    · rename_i x4 x5 h6
      extract_lets -merge +onlyGivenNames x7
      clear_value x7
      split
      · rename_i x8 h9
        refine Touch.step (discard_touch ..) rfl ?_
        exact Touch.refl _ _
      · rename_i x10 x11 h12
        refine Touch.ite ?_ ?_
        · refine Touch.step (discard_touch ..) rfl ?_
          exact Touch.refl _ _
        · refine Touch.ite ?_ ?_
          · refine Touch.step (restoreFailed_touch ..) rfl ?_
            exact Touch.refl _ _
          · split
            · rename_i x13 h14
              refine Touch.step (restoreFailed_touch ..) rfl ?_
              exact Touch.refl _ _
            · rename_i x15 x16 h17
              refine Touch.ite ?_ ?_
              · refine Touch.step (restoreFailed_touch ..) rfl ?_
                exact Touch.refl _ _
              · extract_lets -merge +onlyGivenNames x18
                have h19 : Touch 5992156713056701964635107814552882033967013579645544 x0 x18 := by
                  unfold x18
                  refine Touch.step (rawStore_touch ..) rfl ?_
                  exact Touch.refl _ _
                clear_value x18
                extract_lets -merge +onlyGivenNames x20
                clear_value x20
                extract_lets -merge +onlyGivenNames x21
                have h22 : Touch 5992156713056701964635107814552882033967013579645544 x0 x21 := by
                  unfold x21
                  refine Touch.step (setDom_touch ..) rfl ?_
                  exact h19
                clear_value x21
                extract_lets -merge +onlyGivenNames x23
                have h24 : Touch 5992156713056701964635107814552882033967013579645544 x0 x23 := by
                  unfold x23
                  refine Touch.step (bump_touch ..) rfl ?_
                  exact h22
                clear_value x23
                refine Touch.ite ?_ ?_
                · refine Touch.step (restoresDone_touch ..) rfl ?_
                  exact h24
                · exact h24
  · exact Touch.refl _ _

theorem execRestoreMissing_touch {m : Msg} {s : State} : TouchOut 5992156713056701964635107814250097176741144999240288 s (execRestoreMissing m s) := by
  unfold execRestoreMissing
  refine TouchOut.step (whenOn_touch rfl (fun x0 => ?_)) (Within.refl _) ?_
  · refine Touch.step (receive_touch rfl (fun x1 x2 => ?_)) (Within.refl _) ?_
    · extract_lets -merge +onlyGivenNames x3
      clear_value x3
      refine Touch.ite ?_ ?_
      · refine Touch.step (failRecovery_touch ..) rfl ?_
        exact Touch.refl _ _
      · refine Touch.ite ?_ ?_
        · exact Touch.refl _ _
        · refine Touch.step (relayUp_touch ..) rfl ?_
          exact Touch.refl _ _
    · exact Touch.refl _ _
  · exact Touch.refl _ _

theorem spareRefused_touch {d : Nat} {q : Nat} {s : State} : Touch 5992156713056701964635107814552884340935922700182120 s (spareRefused d q s) := by
  unfold spareRefused
  extract_lets -merge +onlyGivenNames x0
  subst x0
  extract_lets -merge +onlyGivenNames x1
  have h2 : Touch 5992156713056701964635107814552884340935922700182120 s x1 := by
    unfold x1
    refine Touch.step (t := s) (Touch.upd (F := 262144) rfl (Or.inr rfl)) rfl ?_
    exact Touch.refl _ _
  clear_value x1
  extract_lets -merge +onlyGivenNames x3
  have h4 : Touch 5992156713056701964635107814552884340935922700182120 s x3 := by
    unfold x3
    split
    · rename_i x5 x6 h7
      split
      · rename_i x8 x9 h10
        refine Touch.step (moveBack_touch ..) rfl ?_
        exact h2
      · rename_i x11 h12
        exact h2
    · rename_i x13 h14
      exact h2
  clear_value x3
  extract_lets -merge +onlyGivenNames x15
  have h16 : Touch 5992156713056701964635107814552884340935922700182120 s x15 := by
    unfold x15
    refine Touch.step (modRec_touch ..) rfl ?_
    exact h4
  clear_value x15
  refine Touch.step (sendRollback_touch ..) rfl ?_
  exact h16

theorem execReady_touch {m : Msg} {s : State} : TouchOut 5992156713056701964635107814552884340935922700182120 s (execReady m s) := by
  unfold execReady
  refine TouchOut.step (whenOn_touch rfl (fun x0 => ?_)) (Within.refl _) ?_
  · refine Touch.step (receive_touch rfl (fun x1 x2 => ?_)) (Within.refl _) ?_
    · extract_lets -merge +onlyGivenNames x3
      clear_value x3
      refine Touch.ite ?_ ?_
      · refine Touch.step (atCoord_touch rfl (fun x4 => ?_)) (Within.refl _) ?_
        · refine Touch.step (spareRefused_touch ..) rfl ?_
          exact Touch.refl _ _
        · exact Touch.refl _ _
      · refine Touch.ite ?_ ?_
        · exact Touch.refl _ _
        · refine Touch.step (sendReady_touch ..) rfl ?_
          refine Touch.step (modRec_touch ..) rfl ?_
          exact Touch.refl _ _
    · exact Touch.refl _ _
  · exact Touch.refl _ _

theorem execResume_touch {m : Msg} {s : State} : TouchOut 5992156713056701964635107814136760381152273514242144 s (execResume m s) := by
  unfold execResume
  refine TouchOut.step (whenOn_touch rfl (fun x0 => ?_)) (Within.refl _) ?_
  · refine Touch.step (receive_touch rfl (fun x1 x2 => ?_)) (Within.refl _) ?_
    · extract_lets -merge +onlyGivenNames x3
      clear_value x3
      extract_lets -merge +onlyGivenNames x4
      have h5 : Touch 5992156713056701964635107814136760381152273514242144 x2 x4 := by
        unfold x4
        refine Touch.step (sendDown_touch ..) rfl ?_
        exact Touch.refl _ _
      clear_value x4
      split
      · rename_i x6 x7 h8
        refine Touch.ite ?_ ?_
        · refine Touch.step (fence_touch ..) rfl ?_
          exact h5
        · refine Touch.step (modRec_touch ..) rfl ?_
          exact h5
      · rename_i x9 h10
        refine Touch.step (modRec_touch ..) rfl ?_
        exact h5
    · exact Touch.refl _ _
  · exact Touch.refl _ _

theorem resumeNow_touch {d : Nat} {tr : Nat} {s : State} : Touch 718353145436044372922888 s (resumeNow d tr s) := by
  unfold resumeNow
  split
  · rename_i x0 h1
    exact Touch.refl _ _
  · rename_i x2 x3 h4
    extract_lets -merge +onlyGivenNames x5
    clear_value x5
    extract_lets -merge +onlyGivenNames x6
    extract_lets -merge +onlyGivenNames x7
    clear_value x7
    extract_lets -merge +onlyGivenNames x8
    clear_value x8
    extract_lets -merge +onlyGivenNames x9
    clear_value x9
    extract_lets -merge +onlyGivenNames x10
    clear_value x10
    extract_lets -merge +onlyGivenNames x11
    have h12 : Touch 718353145436044372922888 s x11 := by
      unfold x11
      refine Touch.step (setDom_touch ..) rfl ?_
      exact Touch.refl _ _
    clear_value x11
    extract_lets -merge +onlyGivenNames x13
    subst x13
    extract_lets -merge +onlyGivenNames x14
    have h15 : Touch 718353145436044372922888 s x14 := by
      unfold x14
      refine Touch.step (t := x11) (Touch.upd (F := 262144) rfl (Or.inr rfl)) rfl ?_
      exact h12
    clear_value x14
    extract_lets -merge +onlyGivenNames x16
    have h17 : Touch 718353145436044372922888 s x16 := by
      unfold x16
      refine Touch.step (zeroCredits_touch ..) rfl ?_
      exact h15
    clear_value x16
    extract_lets -merge +onlyGivenNames x18
    have h19 : Touch 718353145436044372922888 s x18 := by
      unfold x18
      refine Touch.step (setReg_touch ..) rfl ?_
      exact h17
    clear_value x18
    extract_lets -merge +onlyGivenNames x20
    have h21 : Touch 718353145436044372922888 s x20 := by
      unfold x20
      refine Touch.step (setPhase_touch ..) rfl ?_
      refine Touch.step (setFld_touch ..) rfl ?_
      exact h19
    clear_value x20
    extract_lets -merge +onlyGivenNames x22
    have h23 : Touch 718353145436044372922888 s x22 := by
      unfold x22
      refine Touch.step (setReg_touch ..) rfl ?_
      exact h21
    clear_value x22
    extract_lets -merge +onlyGivenNames x24
    have h25 : Touch 718353145436044372922888 s x24 := by
      unfold x24
      refine Touch.step (cmpCountSet_touch ..) rfl ?_
      exact h23
    clear_value x24
    extract_lets -merge +onlyGivenNames x26
    have h27 : Touch 718353145436044372922888 s x26 := by
      unfold x26
      refine Touch.ite ?_ ?_
      · exact h25
      · refine Touch.step (applyBoundary_touch ..) rfl ?_
        exact h25
    clear_value x26
    refine Touch.step (irqSource_touch ..) rfl ?_
    exact h27

theorem execResumeTime_touch {d : Nat} {s : State} : TouchOut 718353145436044372924936 s (execResumeTime d s) := by
  unfold execResumeTime
  refine TouchOut.step (whenOn_touch rfl (fun x0 => ?_)) (Within.refl _) ?_
  · refine Touch.step (withDom_touch rfl (fun x1 x2 => ?_)) (Within.refl _) ?_
    · split
      · rename_i x3 x4 h5
        refine Touch.ite ?_ ?_
        · exact Touch.refl _ _
        · refine Touch.step (resumeNow_touch ..) rfl ?_
          refine Touch.step (ftReach_touch ..) rfl ?_
          exact Touch.refl _ _
      · rename_i x6 h7
        exact Touch.refl _ _
    · exact Touch.refl _ _
  · exact Touch.refl _ _

theorem execRecoveryFail_touch {m : Msg} {s : State} : TouchOut 5992156713056701964635107814250097176741144999240288 s (execRecoveryFail m s) := by
  unfold execRecoveryFail
  refine TouchOut.step (whenOn_touch rfl (fun x0 => ?_)) (Within.refl _) ?_
  · refine Touch.step (receive_touch rfl (fun x1 x2 => ?_)) (Within.refl _) ?_
    · extract_lets -merge +onlyGivenNames x3
      clear_value x3
      extract_lets -merge +onlyGivenNames x4
      clear_value x4
      extract_lets -merge +onlyGivenNames x5
      clear_value x5
      refine Touch.ite ?_ ?_
      · exact Touch.refl _ _
      · extract_lets -merge +onlyGivenNames x6
        have h7 : Touch 5992156713056701964635107814250097176741144999240288 x2 x6 := by
          unfold x6
          refine Touch.ite ?_ ?_
          · refine Touch.ite ?_ ?_
            · refine Touch.step (sendMsg_touch ..) rfl ?_
              exact Touch.refl _ _
            · refine Touch.step (sendMsg_touch ..) rfl ?_
              exact Touch.refl _ _
          · refine Touch.step (sendDown_touch ..) rfl ?_
            exact Touch.refl _ _
        clear_value x6
        refine Touch.step (applyFail_touch ..) rfl ?_
        exact h7
    · exact Touch.refl _ _
  · exact Touch.refl _ _

theorem execCoordinatorLostTimeout_touch {d : Nat} {s : State} : TouchOut 5992156713056701964635107814250097176741144999240288 s (execCoordinatorLostTimeout d s) := by
  unfold execCoordinatorLostTimeout
  refine TouchOut.step (whenOn_touch rfl (fun x0 => ?_)) (Within.refl _) ?_
  · refine Touch.step (withDom_touch rfl (fun x1 x2 => ?_)) (Within.refl _) ?_
    · extract_lets -merge +onlyGivenNames x3
      clear_value x3
      refine Touch.ite ?_ ?_
      · extract_lets -merge +onlyGivenNames x4
        clear_value x4
        extract_lets -merge +onlyGivenNames x5
        have h6 : Touch 5992156713056701964635107814250097176741144999240288 x2 x5 := by
          unfold x5
          refine Touch.step (sendMsg_touch ..) rfl ?_
          exact Touch.refl _ _
        clear_value x5
        extract_lets -merge +onlyGivenNames x7
        have h8 : Touch 5992156713056701964635107814250097176741144999240288 x2 x7 := by
          unfold x7
          refine Touch.ite ?_ ?_
          · exact h6
          · refine Touch.step (sendMsg_touch ..) rfl ?_
            exact h6
        clear_value x7
        refine Touch.step (applyFail_touch ..) rfl ?_
        exact h8
      · exact Touch.refl _ _
    · exact Touch.refl _ _
  · exact Touch.refl _ _

theorem execSpareWaitTimeout_touch {d : Nat} {s : State} : TouchOut 113336795588871619346944 s (execSpareWaitTimeout d s) := by
  unfold execSpareWaitTimeout
  refine TouchOut.step (whenOn_touch rfl (fun x0 => ?_)) (Within.refl _) ?_
  · refine Touch.step (withDom_touch rfl (fun x1 x2 => ?_)) (Within.refl _) ?_
    · refine Touch.ite ?_ ?_
      · refine Touch.step (irqSource_touch ..) rfl ?_
        refine Touch.step (setFld_touch ..) rfl ?_
        refine Touch.step (setPhase_touch ..) rfl ?_
        exact Touch.refl _ _
      · exact Touch.refl _ _
    · exact Touch.refl _ _
  · exact Touch.refl _ _

theorem execRecoveryLimitTimeout_touch {d : Nat} {s : State} : TouchOut 5992156713056701964635107814250097176741144999242336 s (execRecoveryLimitTimeout d s) := by
  unfold execRecoveryLimitTimeout
  refine TouchOut.step (whenOn_touch rfl (fun x0 => ?_)) (Within.refl _) ?_
  · refine Touch.step (withDom_touch rfl (fun x1 x2 => ?_)) (Within.refl _) ?_
    · refine Touch.ite ?_ ?_
      · refine Touch.step (failRecovery_touch ..) rfl ?_
        refine Touch.step (ftReach_touch ..) rfl ?_
        exact Touch.refl _ _
      · exact Touch.refl _ _
    · exact Touch.refl _ _
  · exact Touch.refl _ _

end Sys2Proof.Machine
end

