-- ==== Sys2Proof/Laws/TouchNet.lean ====
section
/-! SUPPORT. What each function of the model may touch (Laws/Touch.lean): VRMT and the packet path. One lemma for each function; the footprint is the union of what its body writes. -/

namespace Sys2Proof.Machine

open Sys2Proof

theorem modVrm_touch {s : State} {f : Vrmt → Vrmt} : Touch 16777216 s (State.modVrm s f) := by
  unfold State.modVrm
  refine Touch.step (t := s) (Touch.upd (F := 16777216) rfl (Or.inr rfl)) rfl ?_
  exact Touch.refl _ _

theorem setConn_touch {s : State} {cn : Nat} {c : Conn} : Touch 16777216 s (State.setConn s cn c) := by
  unfold State.setConn
  refine Touch.step (modVrm_touch ..) rfl ?_
  exact Touch.refl _ _

theorem modConn_touch {s : State} {cn : Nat} {f : Conn → Conn} : Touch 16777216 s (State.modConn s cn f) := by
  unfold State.modConn
  split
  · rename_i x0 x1 h2
    refine Touch.step (setConn_touch ..) rfl ?_
    exact Touch.refl _ _
  · rename_i x3 h4
    exact Touch.refl _ _

theorem withConn_touch {cn : Nat} {s : State} {f : Conn → State → State} {F : Nat} (hF : Within 0 F) (hf : ∀ (y0 : Conn) (y1 : State), Touch F y1 (f y0 y1)) : Touch F s (withConn cn s f) := by
  unfold withConn
  split
  · rename_i x0 x1 h2
    refine Touch.step (hf ..) (Within.refl _) ?_
    exact Touch.refl _ _
  · rename_i x3 h4
    exact Touch.refl _ _

theorem vRead_touch {n : Nat} {sp : Nat} {a : Nat} {len : Nat} {s : State} : TouchP 268435456 s (vRead n sp a len s) := by
  unfold vRead
  split
  · rename_i x0 x1 h2
    refine TouchP.step (fetchBytes_touch ..) rfl ?_
    exact Touch.refl _ _
  · rename_i x3 x4 x5 h6 h7
    refine TouchP.mk' ?_
    exact Touch.refl _ _

theorem vWrite_touch {n : Nat} {sp : Nat} {a : Nat} {data : List Byte} {s : State} : Touch 553402322211420946440 s (vWrite n sp a data s) := by
  unfold vWrite
  split
  · rename_i x0 x1 h2
    refine Touch.step (memStore_touch ..) rfl ?_
    exact Touch.refl _ _
  · rename_i x3 x4 x5 h6 h7
    refine Touch.step (store_touch ..) rfl ?_
    exact Touch.refl _ _

theorem vRecord_touch {n : Nat} {sp : Nat} {a : Nat} {data : List Byte} {s : State} : Touch 553402322211421470728 s (vRecord n sp a data s) := by
  unfold vRecord
  refine Touch.ite ?_ ?_
  · refine Touch.step (t := s) (Touch.upd (F := 524288) rfl (Or.inr rfl)) rfl ?_
    exact Touch.refl _ _
  · refine Touch.step (vWrite_touch ..) rfl ?_
    exact Touch.refl _ _

theorem deliver_touch {cn : Nat} {v : VCpl} {s : State} : Touch 553402322211438248456 s (deliver cn v s) := by
  unfold deliver
  refine Touch.step (withConn_touch rfl (fun x0 x1 => ?_)) (Within.refl _) ?_
  · split
    · rename_i x2 h3
      exact Touch.refl _ _
    · rename_i x4 x5 h6
      refine Touch.ite ?_ ?_
      · refine Touch.step (setConn_touch ..) rfl ?_
        exact Touch.refl _ _
      · extract_lets -merge +onlyGivenNames x7
        have h8 : Touch 553402322211438248456 x1 x7 := by
          unfold x7
          refine Touch.step (vRecord_touch ..) rfl ?_
          exact Touch.refl _ _
        clear_value x7
        extract_lets -merge +onlyGivenNames x9
        have h10 : Touch 553402322211438248456 x1 x9 := by
          unfold x9
          refine Touch.step (modVrm_touch ..) rfl ?_
          exact h8
        clear_value x9
        refine Touch.ite ?_ ?_
        · refine Touch.step (irqEvent_touch ..) rfl ?_
          exact h10
        · exact h10
  · exact Touch.refl _ _

theorem drainHeld_touch {cn : Nat} {s : State} : Touch 553402322211438248456 s (drainHeld cn s) := by
  unfold drainHeld
  refine Touch.step (withConn_touch rfl (fun x0 x1 => ?_)) (Within.refl _) ?_
  · refine Touch.foldl ?_ (fun x2 x3 h4 => ?_)
    · refine Touch.step (setConn_touch ..) rfl ?_
      exact Touch.refl _ _
    · refine Touch.step (deliver_touch ..) rfl ?_
      exact h4
  · exact Touch.refl _ _

theorem wrAdvance_touch {cn : Nat} {a : Nat} {s : State} : Touch 553402322211438248456 s (wrAdvance cn a s) := by
  induction a generalizing s
  · rw [wrAdvance]
    exact Touch.refl _ _
  · rename_i w0 ih
    rw [wrAdvance]
    split
    · rename_i x0 h1
      exact Touch.refl _ _
    · rename_i x2 x3 h4
      split
      · rename_i x5 h6
        exact Touch.refl _ _
      · rename_i x7 x8 x9 h10
        split
        · rename_i x11 h12
          exact Touch.refl _ _
        · rename_i x13 x14 x15 x16 h17
          refine Touch.ite ?_ ?_
          · exact Touch.refl _ _
          · extract_lets -merge +onlyGivenNames x18
            have h19 : Touch 553402322211438248456 s x18 := by
              unfold x18
              refine Touch.step (setConn_touch ..) rfl ?_
              exact Touch.refl _ _
            clear_value x18
            extract_lets -merge +onlyGivenNames x20
            have h21 : Touch 553402322211438248456 s x20 := by
              unfold x20
              refine Touch.ite ?_ ?_
              · refine Touch.step (deliver_touch ..) rfl ?_
                exact h19
              · exact h19
            clear_value x20
            refine Touch.step (ih ..) (Within.refl _) ?_
            exact h21

theorem wrDone_touch {cn : Nat} {s : State} : Touch 553402322211438248456 s (wrDone cn s) := by
  unfold wrDone
  split
  · rename_i x0 x1 h2
    refine Touch.step (wrAdvance_touch ..) rfl ?_
    exact Touch.refl _ _
  · rename_i x3 h4
    exact Touch.refl _ _

theorem flushRing_touch {cn : Nat} {a : Nat} {s : State} : Touch 285212672 s (flushRing cn a s) := by
  induction a generalizing s
  · rw [flushRing]
    exact Touch.refl _ _
  · rename_i w0 ih
    rw [flushRing]
    split
    · rename_i x0 h1
      exact Touch.refl _ _
    · rename_i x2 x3 h4
      refine Touch.ite ?_ ?_
      · exact Touch.refl _ _
      · split
        · rename_i x5 x6 x7 h8
          have h9 : Touch 285212672 s x7 := by
            refine TouchP.eq ?_ h8
            refine TouchP.step (vRead_touch ..) rfl ?_
            exact Touch.refl _ _
          extract_lets -merge +onlyGivenNames x10
          clear_value x10
          refine Touch.step (ih ..) (Within.refl _) ?_
          refine Touch.step (modConn_touch ..) rfl ?_
          exact h9

theorem flushConn_touch {cn : Nat} {s : State} : Touch 553402322211706683912 s (flushConn cn s) := by
  unfold flushConn
  refine Touch.step (withConn_touch rfl (fun x0 x1 => ?_)) (Within.refl _) ?_
  · extract_lets -merge +onlyGivenNames x2
    have h3 : Touch 553402322211706683912 x1 x2 := by
      unfold x2
      refine Touch.step (setConn_touch ..) rfl ?_
      exact Touch.refl _ _
    clear_value x2
    extract_lets -merge +onlyGivenNames x4
    have h5 : Touch 553402322211706683912 x1 x4 := by
      unfold x4
      refine Touch.step (wrDone_touch ..) rfl ?_
      refine Touch.step (flushRing_touch ..) rfl ?_
      exact h3
    clear_value x4
    extract_lets -merge +onlyGivenNames x6
    clear_value x6
    extract_lets -merge +onlyGivenNames x7
    have h8 : Touch 553402322211706683912 x1 x7 := by
      unfold x7
      refine Touch.step (modConn_touch ..) rfl ?_
      exact h5
    clear_value x7
    refine Touch.foldl ?_ (fun x9 x10 h11 => ?_)
    · exact h8
    · refine Touch.step (deliver_touch ..) rfl ?_
      exact h11
  · exact Touch.refl _ _

theorem connError_touch {cn : Nat} {s : State} : Touch 553402322211706683912 s (connError cn s) := by
  unfold connError
  refine Touch.step (withConn_touch rfl (fun x0 x1 => ?_)) (Within.refl _) ?_
  · refine Touch.ite ?_ ?_
    · refine Touch.step (flushConn_touch ..) rfl ?_
      refine Touch.step (setConn_touch ..) rfl ?_
      exact Touch.refl _ _
    · exact Touch.refl _ _
  · exact Touch.refl _ _

theorem vCipher_touch {cn : Nat} {msn : Option Nat} {s : State} : TouchP 5575186299632655785384482970484302091567624 s (vCipher cn msn s) := by
  unfold vCipher
  split
  · rename_i x0 h1
    refine TouchP.mk' ?_
    exact Touch.refl _ _
  · rename_i x2 x3 h4
    split
    · rename_i x5 h6
      refine TouchP.mk' ?_
      exact Touch.refl _ _
    · rename_i x7 x8 h9
      split
      · rename_i x10 x11 h12
        have h13 : Touch 5575186299632655785384482970484302091567624 s x11 := by
          refine TouchP.eq ?_ h12
          refine TouchP.step (slotInvoke_touch ..) rfl ?_
          exact Touch.refl _ _
        refine TouchP.mk' ?_
        exact h13
      · rename_i x14 x15 x16 h17
        have h18 : Touch 5575186299632655785384482970484302091567624 s x16 := by
          refine TouchP.eq ?_ h17
          refine TouchP.step (slotInvoke_touch ..) rfl ?_
          exact Touch.refl _ _
        extract_lets -merge +onlyGivenNames x19
        have h20 : Touch 5575186299632655785384482970484302091567624 s x19 := by
          unfold x19
          split
          · rename_i x21 x22
            refine Touch.step (modConn_touch ..) rfl ?_
            exact h18
          · rename_i x23
            exact h18
        clear_value x19
        refine TouchP.mk' ?_
        refine Touch.step (connError_touch ..) rfl ?_
        exact h20

theorem launch_touch {cn : Nat} {path : Nat} {len : Nat} {what : Nat → Emit} {s : State} : Touch 33554432 s (launch cn path len what s) := by
  unfold launch
  refine Touch.step (withConn_touch rfl (fun x0 x1 => ?_)) (Within.refl _) ?_
  · split
    · rename_i x2 x3 h4
      refine Touch.step (netQueue_touch ..) rfl ?_
      exact Touch.refl _ _
    · rename_i x5 h6
      exact Touch.refl _ _
  · exact Touch.refl _ _

theorem sendData_touch {cn : Nat} {f : Flying} {s : State} : Touch 5575186299632655785384482970484302125122056 s (sendData cn f s) := by
  unfold sendData
  split
  · rename_i x0 x1 h2
    have h3 : Touch 5575186299632655785384482970484302125122056 s x1 := by
      refine TouchP.eq ?_ h2
      refine TouchP.step (vCipher_touch ..) rfl ?_
      exact Touch.refl _ _
    exact h3
  · rename_i x4 x5 h6
    have h7 : Touch 5575186299632655785384482970484302125122056 s x5 := by
      refine TouchP.eq ?_ h6
      refine TouchP.step (vCipher_touch ..) rfl ?_
      exact Touch.refl _ _
    refine Touch.step (withConn_touch rfl (fun x8 x9 => ?_)) (Within.refl _) ?_
    · extract_lets -merge +onlyGivenNames x10
      clear_value x10
      extract_lets -merge +onlyGivenNames x11
      clear_value x11
      extract_lets -merge +onlyGivenNames x12
      clear_value x12
      extract_lets -merge +onlyGivenNames x13
      clear_value x13
      extract_lets -merge +onlyGivenNames x14
      have h15 : Touch 5575186299632655785384482970484302125122056 x9 x14 := by
        unfold x14
        refine Touch.step (setConn_touch ..) rfl ?_
        exact Touch.refl _ _
      clear_value x14
      refine Touch.step (launch_touch ..) rfl ?_
      exact h15
    · exact h7

theorem pump_touch {cn : Nat} {a : Nat} {s : State} : Touch 5575186299632655785384482970484302125122056 s (pump cn a s) := by
  induction a generalizing s
  · rw [pump]
    exact Touch.refl _ _
  · rename_i w0 ih
    rw [pump]
    split
    · rename_i x0 h1
      exact Touch.refl _ _
    · rename_i x2 x3 h4
      refine Touch.ite ?_ ?_
      · exact Touch.refl _ _
      · split
        · rename_i x5 h6
          exact Touch.refl _ _
        · rename_i x7 x8 h9
          extract_lets -merge +onlyGivenNames x10
          clear_value x10
          extract_lets -merge +onlyGivenNames x11
          have h12 : Touch 5575186299632655785384482970484302125122056 s x11 := by
            unfold x11
            refine Touch.step (setConn_touch ..) rfl ?_
            exact Touch.refl _ _
          clear_value x11
          extract_lets -merge +onlyGivenNames x13
          clear_value x13
          refine Touch.step (ih ..) (Within.refl _) ?_
          refine Touch.ite ?_ ?_
          · split
            · rename_i x14 x15 h16
              have h17 : Touch 5575186299632655785384482970484302125122056 s x15 := by
                refine TouchP.eq ?_ h16
                refine TouchP.step (vCipher_touch ..) rfl ?_
                exact h12
              exact h17
            · rename_i x18 x19 h20
              have h21 : Touch 5575186299632655785384482970484302125122056 s x19 := by
                refine TouchP.eq ?_ h20
                refine TouchP.step (vCipher_touch ..) rfl ?_
                exact h12
              refine Touch.step (withConn_touch rfl (fun x22 x23 => ?_)) (Within.refl _) ?_
              · extract_lets -merge +onlyGivenNames x24
                clear_value x24
                extract_lets -merge +onlyGivenNames x25
                have h26 : Touch 5575186299632655785384482970484302125122056 x23 x25 := by
                  unfold x25
                  refine Touch.step (setConn_touch ..) rfl ?_
                  exact Touch.refl _ _
                clear_value x25
                refine Touch.step (launch_touch ..) rfl ?_
                exact h26
              · exact h21
          · refine Touch.step (sendData_touch ..) rfl ?_
            exact h12

theorem pumpAll_touch {cn : Nat} {s : State} : Touch 5575186299632655785384482970484302125122056 s (pumpAll cn s) := by
  unfold pumpAll
  refine Touch.step (pump_touch ..) rfl ?_
  exact Touch.refl _ _

theorem startMsg_touch {cn : Nat} {t : TxMsg} {s : State} : Touch 5575186299632655785384482970484302125122056 s (startMsg cn t s) := by
  unfold startMsg
  refine Touch.step (withConn_touch rfl (fun x0 x1 => ?_)) (Within.refl _) ?_
  · extract_lets -merge +onlyGivenNames x2
    clear_value x2
    refine Touch.step (pumpAll_touch ..) rfl ?_
    refine Touch.step (setConn_touch ..) rfl ?_
    exact Touch.refl _ _
  · exact Touch.refl _ _

theorem sendAck_touch {cn : Nat} {path : Nat} {answers : Option Nat} {s : State} : Touch 5575186299632655785384482970484302125122056 s (sendAck cn path answers s) := by
  unfold sendAck
  split
  · rename_i x0 x1 h2
    have h3 : Touch 5575186299632655785384482970484302125122056 s x1 := by
      refine TouchP.eq ?_ h2
      refine TouchP.step (vCipher_touch ..) rfl ?_
      exact Touch.refl _ _
    exact h3
  · rename_i x4 x5 h6
    have h7 : Touch 5575186299632655785384482970484302125122056 s x5 := by
      refine TouchP.eq ?_ h6
      refine TouchP.step (vCipher_touch ..) rfl ?_
      exact Touch.refl _ _
    refine Touch.step (withConn_touch rfl (fun x8 x9 => ?_)) (Within.refl _) ?_
    · extract_lets -merge +onlyGivenNames x10
      clear_value x10
      extract_lets -merge +onlyGivenNames x11
      clear_value x11
      extract_lets -merge +onlyGivenNames x12
      have h13 : Touch 5575186299632655785384482970484302125122056 x9 x12 := by
        unfold x12
        refine Touch.step (setConn_touch ..) rfl ?_
        exact Touch.refl _ _
      clear_value x12
      refine Touch.step (launch_touch ..) rfl ?_
      exact h13
    · exact h7

theorem sendNak_touch {cn : Nat} {path : Nat} {msn : Nat} {st : Status} {kind : Nat} {missing : List Nat} {s : State} : Touch 5575186299632655785384482970484302125122056 s (sendNak cn path msn st kind missing s) := by
  unfold sendNak
  split
  · rename_i x0 x1 h2
    have h3 : Touch 5575186299632655785384482970484302125122056 s x1 := by
      refine TouchP.eq ?_ h2
      refine TouchP.step (vCipher_touch ..) rfl ?_
      exact Touch.refl _ _
    exact h3
  · rename_i x4 x5 h6
    have h7 : Touch 5575186299632655785384482970484302125122056 s x5 := by
      refine TouchP.eq ?_ h6
      refine TouchP.step (vCipher_touch ..) rfl ?_
      exact Touch.refl _ _
    refine Touch.step (withConn_touch rfl (fun x8 x9 => ?_)) (Within.refl _) ?_
    · extract_lets -merge +onlyGivenNames x10
      clear_value x10
      extract_lets -merge +onlyGivenNames x11
      clear_value x11
      refine Touch.step (launch_touch ..) rfl ?_
      refine Touch.step (setConn_touch ..) rfl ?_
      exact Touch.refl _ _
    · exact h7

theorem refuseMsg_touch {cn : Nat} {r : RxMsg} {st : Status} {path : Nat} {s : State} : Touch 5575186299632655785384482970484302125122056 s (refuseMsg cn r st path s) := by
  unfold refuseMsg
  extract_lets -merge +onlyGivenNames x0
  have h1 : Touch 5575186299632655785384482970484302125122056 s x0 := by
    unfold x0
    refine Touch.step (modConn_touch ..) rfl ?_
    exact Touch.refl _ _
  clear_value x0
  refine Touch.step (sendNak_touch ..) rfl ?_
  exact h1

theorem placeBytes_touch {cn : Nat} {m : Nat} {offset : Nat} {data : List Byte} {s : State} : Touch 5575186299632655785384482970484302125122056 s (placeBytes cn m offset data s) := by
  unfold placeBytes
  refine Touch.step (withConn_touch rfl (fun x0 x1 => ?_)) (Within.refl _) ?_
  · split
    · rename_i x2 h3
      exact Touch.refl _ _
    · rename_i x4 x5 h6
      extract_lets -merge +onlyGivenNames x7
      clear_value x7
      split
      · rename_i x8 x9 h10
        refine Touch.ite ?_ ?_
        · exact Touch.refl _ _
        · refine Touch.step (refuseMsg_touch ..) rfl ?_
          exact Touch.refl _ _
      · rename_i x11 h12
        extract_lets -merge +onlyGivenNames x13
        have h14 : Touch 5575186299632655785384482970484302125122056 x1 x13 := by
          unfold x13
          refine Touch.step (setConn_touch ..) rfl ?_
          exact Touch.refl _ _
        clear_value x13
        refine Touch.ite ?_ ?_
        · split
          · rename_i x15 x16 h17
            refine Touch.ite ?_ ?_
            · refine Touch.step (modConn_touch ..) rfl ?_
              exact h14
            · refine Touch.step (vWrite_touch ..) rfl ?_
              exact h14
          · rename_i x18 h19
            exact h14
        · refine Touch.step (vWrite_touch ..) rfl ?_
          exact h14
  · exact Touch.refl _ _

theorem releaseHeld_touch {cn : Nat} {s : State} : Touch 5575186299632655785384482970484302125122056 s (releaseHeld cn s) := by
  unfold releaseHeld
  split
  · rename_i x0 h1
    exact Touch.refl _ _
  · rename_i x2 x3 h4
    refine Touch.foldl ?_ (fun x5 x6 h7 => ?_)
    · exact Touch.refl _ _
    · refine Touch.step (withConn_touch rfl (fun x8 x9 => ?_)) (Within.refl _) ?_
      · split
        · rename_i x10 x11 h12
          refine Touch.ite ?_ ?_
          · exact Touch.refl _ _
          · refine Touch.step (placeBytes_touch ..) rfl ?_
            refine Touch.step (setConn_touch ..) rfl ?_
            exact Touch.refl _ _
        · rename_i x13 h14
          refine Touch.step (setConn_touch ..) rfl ?_
          exact Touch.refl _ _
      · exact h7

theorem convertBuf_touch {sel : Nat} {n : Nat} {buf : List Byte} {s : State} : TouchQ 268435456 s (convertBuf sel n buf s) := by
  unfold convertBuf
  extract_lets -merge +onlyGivenNames x0
  clear_value x0
  split
  · rename_i x1 x2 x3 x4 x5 h6
    have h7 : Touch 268435456 s x5 := by
      refine TouchR.eq ?_ h6
      refine TouchR.step (convertElems_touch ..) rfl ?_
      exact Touch.refl _ _
    refine TouchQ.mk' ?_
    exact h7

theorem readDone_touch {cn : Nat} {r : RxMsg} {s : State} : Touch 553402322211706159112 s (readDone cn r s) := by
  unfold readDone
  refine Touch.step (withConn_touch rfl (fun x0 x1 => ?_)) (Within.refl _) ?_
  · split
    · rename_i x2 h3
      exact Touch.refl _ _
    · rename_i x4 x5 h6
      split
      · rename_i x7 h8
        refine Touch.step (setConn_touch ..) rfl ?_
        exact Touch.refl _ _
      · rename_i x9 x10 x11 h12
        split
        · rename_i x13 x14 x15 x16 h17
          have h18 : Touch 553402322211706159112 x1 x16 := by
            refine TouchQ.eq ?_ h17
            refine TouchQ.step (convertBuf_touch ..) rfl ?_
            exact Touch.refl _ _
          extract_lets -merge +onlyGivenNames x19
          have h20 : Touch 553402322211706159112 x1 x19 := by
            unfold x19
            refine Touch.step (vWrite_touch ..) rfl ?_
            exact h18
          clear_value x19
          refine Touch.step (modConn_touch ..) rfl ?_
          exact h20
  · exact Touch.refl _ _

theorem serveRead_touch {cn : Nat} {r : RxMsg} {s : State} : Touch 5575186299632655785384482970484302125122056 s (serveRead cn r s) := by
  unfold serveRead
  refine Touch.step (withConn_touch rfl (fun x0 x1 => ?_)) (Within.refl _) ?_
  · extract_lets -merge +onlyGivenNames x2
    clear_value x2
    extract_lets -merge +onlyGivenNames x3
    clear_value x3
    extract_lets -merge +onlyGivenNames x4
    have h5 : Touch 5575186299632655785384482970484302125122056 x1 x4 := by
      unfold x4
      refine Touch.step (setConn_touch ..) rfl ?_
      exact Touch.refl _ _
    clear_value x4
    refine Touch.ite ?_ ?_
    · refine Touch.step (startMsg_touch ..) rfl ?_
      exact h5
    · split
      · rename_i x6 x7 x8 h9
        have h10 : Touch 5575186299632655785384482970484302125122056 x1 x8 := by
          refine TouchP.eq ?_ h9
          refine TouchP.step (vRead_touch ..) rfl ?_
          exact h5
        refine Touch.step (startMsg_touch ..) rfl ?_
        exact h10
  · exact Touch.refl _ _

theorem rxAdvance_touch : ∀ {cn n : Nat} {x : Bool × State}, TouchP 5575186299632655785384482970484302125122056 x.2 (rxAdvance cn n x) := by
  intro cn n
  induction n with
  | zero => intro x; exact Touch.refl _ _
  | succ n ih =>
    intro x
    obtain ⟨done, s⟩ := x
    rw [rxAdvance]
    split
    · exact Touch.refl _ _
    · split
      · exact Touch.refl _ _
      · dsimp only
        refine TouchP.ite (Touch.refl _ _) ?_
        · refine TouchP.step (ih (x := (true, _))) (Within.refl _) ?_
          refine Touch.step releaseHeld_touch rfl ?_
          refine Touch.ite (Touch.step sendNak_touch rfl ?_) ?_ <;>
          · refine Touch.ite (Touch.step serveRead_touch rfl ?_)
              (Touch.ite (Touch.step wrDone_touch rfl (Touch.step readDone_touch rfl ?_)) ?_) <;>
            · split
              · exact Touch.step deliver_touch rfl (Touch.step setConn_touch rfl (Touch.refl _ _))
              · exact Touch.step setConn_touch rfl (Touch.refl _ _)

theorem rxSettle_touch {cn : Nat} {path : Nat} {answers : Option Nat} {ack : Bool} {s : State} : Touch 5575186299632655785384482970484302125122056 s (rxSettle cn path answers ack s) := by
  unfold rxSettle
  split
  · rename_i x0 h1
    exact Touch.refl _ _
  · rename_i x2 x3 h4
    split
    · rename_i x5 x6 x7 h8
      have h9 : Touch 5575186299632655785384482970484302125122056 s x7 := by
        refine TouchP.eq ?_ h8
        refine TouchP.step (rxAdvance_touch ..) rfl ?_
        dsimp only
        exact Touch.refl _ _
      refine Touch.ite ?_ ?_
      · split
        · rename_i x10 x11 h12
          refine Touch.ite ?_ ?_
          · refine Touch.step (sendAck_touch ..) rfl ?_
            exact h9
          · exact h9
        · rename_i x13 h14
          exact h9
      · exact h9

theorem admitMsg_touch {c : Conn} {kind : Nat} {p : Pkt} {psn : Nat} {msn : Nat} {s : State} : TouchP 268435456 s (admitMsg c kind p psn msn s) := by
  unfold admitMsg
  extract_lets -merge +onlyGivenNames x0
  clear_value x0
  extract_lets -merge +onlyGivenNames x1
  clear_value x1
  extract_lets -merge +onlyGivenNames x2
  clear_value x2
  extract_lets -merge +onlyGivenNames x3
  clear_value x3
  split
  · rename_i x4
    split
    · rename_i x5 x6 h7
      refine TouchP.mk' ?_
      exact Touch.refl _ _
    · rename_i x8 x9 x10 h11
      split
      · rename_i x12 x13 h14
        refine TouchP.mk' ?_
        exact Touch.refl _ _
      · rename_i x15 h16
        refine TouchP.mk' ?_
        exact Touch.refl _ _
  · rename_i x17
    extract_lets -merge +onlyGivenNames x18
    clear_value x18
    extract_lets -merge +onlyGivenNames x19
    clear_value x19
    refine TouchP.ite ?_ ?_
    · refine TouchP.mk' ?_
      exact Touch.refl _ _
    · refine TouchP.ite ?_ ?_
      · refine TouchP.mk' ?_
        exact Touch.refl _ _
      · split
        · rename_i x20 x21 x22 h23
          have h24 : Touch 268435456 s x22 := by
            refine TouchP.eq ?_ h23
            refine TouchP.step (vRead_touch ..) rfl ?_
            exact Touch.refl _ _
          extract_lets -merge +onlyGivenNames x25
          clear_value x25
          split
          · rename_i x26 x27 h28
            refine TouchP.mk' ?_
            exact h24
          · rename_i x29 x30 x31 x32 h33
            refine TouchP.mk' ?_
            exact h24
  · rename_i x34
    split
    · rename_i x35 x36 h37
      refine TouchP.mk' ?_
      exact Touch.refl _ _
    · rename_i x38 x39 x40 h41
      split
      · rename_i x42 x43 h44
        refine TouchP.mk' ?_
        exact Touch.refl _ _
      · rename_i x45 h46
        refine TouchP.mk' ?_
        exact Touch.refl _ _
  · rename_i x47 h48 h49 h50
    split
    · rename_i x51 x52 h53
      refine TouchP.mk' ?_
      exact Touch.refl _ _
    · rename_i x54 h55
      refine TouchP.mk' ?_
      exact Touch.refl _ _

theorem placePacket_touch {cn : Nat} {m : Nat} {p : Pkt} {s : State} : TouchP 5575186299632814241709511499159489213022728 s (placePacket cn m p s) := by
  unfold placePacket
  split
  · rename_i x0 h1
    refine TouchP.mk' ?_
    exact Touch.refl _ _
  · rename_i x2 x3 h4
    split
    · rename_i x5 h6
      refine TouchP.mk' ?_
      exact Touch.refl _ _
    · rename_i x7 x8 h9
      refine TouchP.ite ?_ ?_
      · refine TouchP.mk' ?_
        exact Touch.refl _ _
      · extract_lets -merge +onlyGivenNames x10
        clear_value x10
        extract_lets -merge +onlyGivenNames x11
        clear_value x11
        refine TouchP.ite ?_ ?_
        · refine TouchP.ite ?_ ?_
          · refine TouchP.mk' ?_
            refine Touch.step (bump_touch ..) rfl ?_
            exact Touch.refl _ _
          · refine TouchP.mk' ?_
            refine Touch.step (setConn_touch ..) rfl ?_
            exact Touch.refl _ _
        · refine TouchP.mk' ?_
          refine Touch.step (placeBytes_touch ..) rfl ?_
          refine Touch.step (setConn_touch ..) rfl ?_
          exact Touch.refl _ _

theorem accepted_touch {cn : Nat} {p : Pkt} {psn : Nat} {s : State} : Touch 5575186299632655785384482970484302125122056 s (accepted cn p psn s) := by
  unfold accepted
  split
  · rename_i x0 h1
    exact Touch.refl _ _
  · rename_i x2 x3 h4
    extract_lets -merge +onlyGivenNames x5
    clear_value x5
    extract_lets -merge +onlyGivenNames x6
    have h7 : Touch 5575186299632655785384482970484302125122056 s x6 := by
      unfold x6
      refine Touch.step (setConn_touch ..) rfl ?_
      exact Touch.refl _ _
    clear_value x6
    refine Touch.step (rxSettle_touch ..) rfl ?_
    exact h7

theorem takeData_touch {cn : Nat} {kind : Nat} {p : Pkt} {s : State} : Touch 5575186299632893469872025763497082756973064 s (takeData cn kind p s) := by
  unfold takeData
  split
  · rename_i x0 x1 h2
    have h3 : Touch 5575186299632893469872025763497082756973064 s x1 := by
      refine TouchP.eq ?_ h2
      refine TouchP.step (vCipher_touch ..) rfl ?_
      exact Touch.refl _ _
    exact h3
  · rename_i x4 x5 h6
    have h7 : Touch 5575186299632893469872025763497082756973064 s x5 := by
      refine TouchP.eq ?_ h6
      refine TouchP.step (vCipher_touch ..) rfl ?_
      exact Touch.refl _ _
    refine Touch.step (withConn_touch rfl (fun x8 x9 => ?_)) (Within.refl _) ?_
    · split
      · rename_i x10 h11
        refine Touch.step (bump_touch ..) rfl ?_
        exact Touch.refl _ _
      · rename_i x12 x13 h14
        extract_lets -merge +onlyGivenNames x15
        have h16 : Touch 5575186299632893469872025763497082756973064 x9 x15 := by
          unfold x15
          refine Touch.step (setConn_touch ..) rfl ?_
          exact Touch.refl _ _
        clear_value x15
        refine Touch.ite ?_ ?_
        · refine Touch.step (sendAck_touch ..) rfl ?_
          exact h16
        · extract_lets -merge +onlyGivenNames x17
          clear_value x17
          extract_lets -merge +onlyGivenNames x18
          clear_value x18
          refine Touch.ite ?_ ?_
          · refine Touch.step (accepted_touch ..) rfl ?_
            exact h16
          · split
            · rename_i x19 x20 h21
              split
              · rename_i x22 x23 h24
                have h25 : Touch 5575186299632893469872025763497082756973064 x9 x23 := by
                  refine TouchP.eq ?_ h24
                  refine TouchP.step (placePacket_touch ..) rfl ?_
                  exact h16
                refine Touch.step (accepted_touch ..) rfl ?_
                exact h25
              · rename_i x26 x27 h28
                have h29 : Touch 5575186299632893469872025763497082756973064 x9 x27 := by
                  refine TouchP.eq ?_ h28
                  refine TouchP.step (placePacket_touch ..) rfl ?_
                  exact h16
                exact h29
            · rename_i x30 h31
              split
              · rename_i x32 x33 h34
                have h35 : Touch 5575186299632893469872025763497082756973064 x9 x33 := by
                  refine TouchP.eq ?_ h34
                  refine TouchP.step (admitMsg_touch ..) rfl ?_
                  exact h16
                refine Touch.step (sendNak_touch ..) rfl ?_
                exact h35
              · rename_i x36 x37 x38 x39 h40
                have h41 : Touch 5575186299632893469872025763497082756973064 x9 x39 := by
                  refine TouchP.eq ?_ h40
                  refine TouchP.step (admitMsg_touch ..) rfl ?_
                  exact h16
                extract_lets -merge +onlyGivenNames x42
                have h43 : Touch 5575186299632893469872025763497082756973064 x9 x42 := by
                  unfold x42
                  refine Touch.step (modConn_touch ..) rfl ?_
                  exact h41
                clear_value x42
                extract_lets -merge +onlyGivenNames x44
                have h45 : Touch 5575186299632893469872025763497082756973064 x9 x44 := by
                  unfold x44
                  split
                  · rename_i x46 x47
                    have h48 : Touch 5575186299632893469872025763497082756973064 x9 x39 := by
                      refine TouchP.eq ?_ h40
                      refine TouchP.step (admitMsg_touch ..) rfl ?_
                      exact h16
                    refine Touch.step (sendNak_touch ..) rfl ?_
                    exact h43
                  · rename_i x49
                    have h50 : Touch 5575186299632893469872025763497082756973064 x9 x39 := by
                      refine TouchP.eq ?_ h40
                      refine TouchP.step (admitMsg_touch ..) rfl ?_
                      exact h16
                    exact h43
                clear_value x44
                refine Touch.ite ?_ ?_
                · refine Touch.step (accepted_touch ..) rfl ?_
                  exact h45
                · split
                  · rename_i x51 x52 h53
                    have h54 : Touch 5575186299632893469872025763497082756973064 x9 x52 := by
                      refine TouchP.eq ?_ h53
                      refine TouchP.step (placePacket_touch ..) rfl ?_
                      exact h45
                    refine Touch.step (accepted_touch ..) rfl ?_
                    exact h54
                  · rename_i x55 x56 h57
                    have h58 : Touch 5575186299632893469872025763497082756973064 x9 x56 := by
                      refine TouchP.eq ?_ h57
                      refine TouchP.step (placePacket_touch ..) rfl ?_
                      exact h45
                    exact h58
    · exact h7

theorem takeAbort_touch {cn : Nat} {p : Pkt} {st : Status} {s : State} : Touch 5575186299632735013546997234821895669072392 s (takeAbort cn p st s) := by
  unfold takeAbort
  split
  · rename_i x0 x1 h2
    have h3 : Touch 5575186299632735013546997234821895669072392 s x1 := by
      refine TouchP.eq ?_ h2
      refine TouchP.step (vCipher_touch ..) rfl ?_
      exact Touch.refl _ _
    exact h3
  · rename_i x4 x5 h6
    have h7 : Touch 5575186299632735013546997234821895669072392 s x5 := by
      refine TouchP.eq ?_ h6
      refine TouchP.step (vCipher_touch ..) rfl ?_
      exact Touch.refl _ _
    refine Touch.step (withConn_touch rfl (fun x8 x9 => ?_)) (Within.refl _) ?_
    · split
      · rename_i x10 h11
        refine Touch.step (bump_touch ..) rfl ?_
        exact Touch.refl _ _
      · rename_i x12 x13 h14
        extract_lets -merge +onlyGivenNames x15
        have h16 : Touch 5575186299632735013546997234821895669072392 x9 x15 := by
          unfold x15
          refine Touch.step (setConn_touch ..) rfl ?_
          exact Touch.refl _ _
        clear_value x15
        refine Touch.ite ?_ ?_
        · refine Touch.step (sendAck_touch ..) rfl ?_
          exact h16
        · extract_lets -merge +onlyGivenNames x17
          clear_value x17
          extract_lets -merge +onlyGivenNames x18
          clear_value x18
          refine Touch.ite ?_ ?_
          · refine Touch.step (accepted_touch ..) rfl ?_
            exact h16
          · extract_lets -merge +onlyGivenNames x19
            clear_value x19
            extract_lets -merge +onlyGivenNames x20
            clear_value x20
            extract_lets -merge +onlyGivenNames x21
            have h22 : Touch 5575186299632735013546997234821895669072392 x9 x21 := by
              unfold x21
              refine Touch.step (modConn_touch ..) rfl ?_
              exact h16
            clear_value x21
            refine Touch.step (accepted_touch ..) rfl ?_
            refine Touch.step (wrDone_touch ..) rfl ?_
            exact h22
    · exact h7

theorem takeAck_touch {cn : Nat} {a : AckPkt} {s : State} : Touch 5575186299632655785384482970484302125122056 s (takeAck cn a s) := by
  unfold takeAck
  split
  · rename_i x0 x1 h2
    have h3 : Touch 5575186299632655785384482970484302125122056 s x1 := by
      refine TouchP.eq ?_ h2
      refine TouchP.step (vCipher_touch ..) rfl ?_
      exact Touch.refl _ _
    exact h3
  · rename_i x4 x5 h6
    have h7 : Touch 5575186299632655785384482970484302125122056 s x5 := by
      refine TouchP.eq ?_ h6
      refine TouchP.step (vCipher_touch ..) rfl ?_
      exact Touch.refl _ _
    refine Touch.step (withConn_touch rfl (fun x8 x9 => ?_)) (Within.refl _) ?_
    · extract_lets -merge +onlyGivenNames x10
      clear_value x10
      extract_lets -merge +onlyGivenNames x11
      clear_value x11
      extract_lets -merge +onlyGivenNames x12
      clear_value x12
      extract_lets -merge +onlyGivenNames x13
      clear_value x13
      extract_lets -merge +onlyGivenNames x14
      clear_value x14
      extract_lets -merge +onlyGivenNames x15
      clear_value x15
      extract_lets -merge +onlyGivenNames x16
      clear_value x16
      extract_lets -merge +onlyGivenNames x17
      clear_value x17
      extract_lets -merge +onlyGivenNames x18
      clear_value x18
      extract_lets -merge +onlyGivenNames x19
      clear_value x19
      extract_lets -merge +onlyGivenNames x20
      clear_value x20
      refine Touch.step (pumpAll_touch ..) rfl ?_
      refine Touch.step (wrDone_touch ..) rfl ?_
      refine Touch.step (setConn_touch ..) rfl ?_
      exact Touch.refl _ _
    · exact h7

theorem resend_touch {cn : Nat} {which : Flying → Bool} {s : State} : Touch 5575186299633923435984711199885798828327432 s (resend cn which s) := by
  unfold resend
  refine Touch.step (withConn_touch rfl (fun x0 x1 => ?_)) (Within.refl _) ?_
  · refine Touch.foldl ?_ (fun x2 x3 h4 => ?_)
    · exact Touch.refl _ _
    · split
      · rename_i x5 x6 h7
        refine Touch.ite ?_ ?_
        · refine Touch.step (sendData_touch ..) rfl ?_
          refine Touch.step (bump_touch ..) rfl ?_
          exact h4
        · refine Touch.ite ?_ ?_
          · refine Touch.step (launch_touch ..) rfl ?_
            refine Touch.step (bump_touch ..) rfl ?_
            exact h4
          · exact h4
      · rename_i x8 h9
        exact h4
  · exact Touch.refl _ _

theorem takeNak_touch {cn : Nat} {n : NakPkt} {s : State} : Touch 5575186299633923435984711199885798828327432 s (takeNak cn n s) := by
  unfold takeNak
  split
  · rename_i x0 x1 h2
    have h3 : Touch 5575186299633923435984711199885798828327432 s x1 := by
      refine TouchP.eq ?_ h2
      refine TouchP.step (vCipher_touch ..) rfl ?_
      exact Touch.refl _ _
    exact h3
  · rename_i x4 x5 h6
    have h7 : Touch 5575186299633923435984711199885798828327432 s x5 := by
      refine TouchP.eq ?_ h6
      refine TouchP.step (vCipher_touch ..) rfl ?_
      exact Touch.refl _ _
    refine Touch.step (withConn_touch rfl (fun x8 x9 => ?_)) (Within.refl _) ?_
    · extract_lets -merge +onlyGivenNames x10
      clear_value x10
      refine Touch.ite ?_ ?_
      · refine Touch.step (resend_touch ..) rfl ?_
        exact Touch.refl _ _
      · refine Touch.ite ?_ ?_
        · split
          · rename_i x11 h12
            exact Touch.refl _ _
          · rename_i x13 x14 h15
            extract_lets -merge +onlyGivenNames x16
            clear_value x16
            refine Touch.ite ?_ ?_
            · refine Touch.step (connError_touch ..) rfl ?_
              refine Touch.step (setConn_touch ..) rfl ?_
              exact Touch.refl _ _
            · refine Touch.step (setConn_touch ..) rfl ?_
              exact Touch.refl _ _
        · refine Touch.ite ?_ ?_
          · split
            · rename_i x17 x18 x19 h20
              have h21 : Touch 5575186299633923435984711199885798828327432 x9 x19 := by
                refine TouchP.eq ?_ h20
                refine TouchP.ite ?_ ?_
                · refine TouchP.step (draw_touch ..) rfl ?_
                  exact Touch.refl _ _
                · refine TouchP.mk' ?_
                  exact Touch.refl _ _
              refine Touch.step (wrDone_touch ..) rfl ?_
              refine Touch.step (modConn_touch ..) rfl ?_
              exact h21
          · exact Touch.refl _ _
    · exact h7

theorem vReceive_touch {dst : BitVec 22} {srcIp : Nat} {checkOk : Bool} {encrypted : Bool} {path : Nat} {dataMsn : Option Nat} {s : State} {f : Nat → Conn → State → State} {F : Nat} (hF : Within 5575186299633368838847111349522644020675080 F) (hf : ∀ (y0 : Nat) (y1 : Conn) (y2 : State), Touch F y2 (f y0 y1 y2)) : Touch F s (vReceive dst srcIp checkOk encrypted path dataMsn s f) := by
  unfold vReceive
  refine Touch.ite ?_ ?_
  · refine Touch.step (bump_touch ..) (.trans rfl hF) ?_
    exact Touch.refl _ _
  · extract_lets -merge +onlyGivenNames x0
    clear_value x0
    split
    · rename_i x1 h2
      refine Touch.step (bump_touch ..) (.trans rfl hF) ?_
      exact Touch.refl _ _
    · rename_i x3 x4 h5
      refine Touch.ite ?_ ?_
      · refine Touch.step (bump_touch ..) (.trans rfl hF) ?_
        exact Touch.refl _ _
      · refine Touch.ite ?_ ?_
        · split
          · rename_i x6 x7
            refine Touch.step (sendNak_touch ..) (.trans rfl hF) ?_
            refine Touch.step (bump_touch ..) (.trans rfl hF) ?_
            exact Touch.refl _ _
          · rename_i x8
            refine Touch.step (bump_touch ..) (.trans rfl hF) ?_
            exact Touch.refl _ _
        · refine Touch.step (hf ..) (Within.refl _) ?_
          exact Touch.refl _ _

theorem cacheRoom_touch {n : Nat} {s : State} : TouchP 16777216 s (cacheRoom n s) := by
  unfold cacheRoom
  refine TouchP.ite ?_ ?_
  · refine TouchP.mk' ?_
    exact Touch.refl _ _
  · extract_lets -merge +onlyGivenNames x0
    clear_value x0
    split
    · rename_i x1 x2 x3
      refine TouchP.mk' ?_
      refine Touch.step (modConn_touch ..) rfl ?_
      exact Touch.refl _ _
    · rename_i x4
      refine TouchP.mk' ?_
      exact Touch.refl _ _

theorem takeDoorbell_touch {cn : Nat} {snd : Bool} {rcv : Bool} {s : State} : Touch 553402322211706683912 s (takeDoorbell cn snd rcv s) := by
  unfold takeDoorbell
  refine Touch.step (withConn_touch rfl (fun x0 x1 => ?_)) (Within.refl _) ?_
  · refine Touch.ite ?_ ?_
    · exact Touch.refl _ _
    · split
      · rename_i x2 x3 x4 h5
        have h6 : Touch 553402322211706683912 x1 x4 := by
          refine TouchP.eq ?_ h5
          refine TouchP.step (vRead_touch ..) rfl ?_
          exact Touch.refl _ _
        extract_lets -merge +onlyGivenNames x7
        clear_value x7
        extract_lets -merge +onlyGivenNames x8
        clear_value x8
        extract_lets -merge +onlyGivenNames x9
        clear_value x9
        extract_lets -merge +onlyGivenNames x10
        clear_value x10
        extract_lets -merge +onlyGivenNames x11
        have h12 : Touch 553402322211706683912 x1 x11 := by
          unfold x11
          refine Touch.step (setConn_touch ..) rfl ?_
          exact h6
        clear_value x11
        refine Touch.ite ?_ ?_
        · refine Touch.step (flushConn_touch ..) rfl ?_
          exact h12
        · exact h12
  · exact Touch.refl _ _

theorem vHandle_touch {cn : Nat} {w : CtxWait} {s : State} : Touch 5575186299634161120472253992898579460178440 s (vHandle cn w s) := by
  unfold vHandle
  extract_lets -merge +onlyGivenNames x0
  clear_value x0
  split
  · rename_i x1 x2 x3
    refine Touch.step (takeDoorbell_touch ..) rfl ?_
    exact Touch.refl _ _
  · rename_i x4 x5 x6
    refine Touch.ite ?_ ?_
    · refine Touch.step (takeData_touch ..) rfl ?_
      exact Touch.refl _ _
    · exact Touch.refl _ _
  · rename_i x7 x8
    refine Touch.ite ?_ ?_
    · refine Touch.step (takeAck_touch ..) rfl ?_
      exact Touch.refl _ _
    · exact Touch.refl _ _
  · rename_i x9 x10
    refine Touch.ite ?_ ?_
    · refine Touch.step (takeNak_touch ..) rfl ?_
      exact Touch.refl _ _
    · exact Touch.refl _ _
  · rename_i x11 x12 x13
    refine Touch.ite ?_ ?_
    · refine Touch.step (takeAbort_touch ..) rfl ?_
      exact Touch.refl _ _
    · exact Touch.refl _ _

theorem withCtx_touch {cn : Nat} {w : CtxWait} {s : State} : Touch 5575186299634478033122311050248953635979784 s (withCtx cn w s) := by
  unfold withCtx
  refine Touch.step (withConn_touch rfl (fun x0 x1 => ?_)) (Within.refl _) ?_
  · refine Touch.ite ?_ ?_
    · extract_lets -merge +onlyGivenNames x2
      clear_value x2
      refine Touch.step (vHandle_touch ..) rfl ?_
      refine Touch.step (modVrm_touch ..) rfl ?_
      refine Touch.step (setConn_touch ..) rfl ?_
      exact Touch.refl _ _
    · refine Touch.ite ?_ ?_
      · refine Touch.step (connError_touch ..) rfl ?_
        exact Touch.refl _ _
      · refine Touch.ite ?_ ?_
        · refine Touch.step (bump_touch ..) rfl ?_
          exact Touch.refl _ _
        · refine Touch.step (setConn_touch ..) rfl ?_
          exact Touch.refl _ _
  · exact Touch.refl _ _

theorem ctxFetched_touch {cn : Nat} {ok : Bool} {s : State} : Touch 5575186299634478033122311050248953635979784 s (ctxFetched cn ok s) := by
  unfold ctxFetched
  refine Touch.step (withConn_touch rfl (fun x0 x1 => ?_)) (Within.refl _) ?_
  · refine Touch.ite ?_ ?_
    · exact Touch.refl _ _
    · refine Touch.ite ?_ ?_
      · refine Touch.step (connError_touch ..) rfl ?_
        exact Touch.refl _ _
      · split
        · rename_i x2 x3 h4
          have h5 : Touch 5575186299634478033122311050248953635979784 x1 x3 := by
            refine TouchP.eq ?_ h4
            refine TouchP.step (cacheRoom_touch ..) rfl ?_
            exact Touch.refl _ _
          exact h5
        · rename_i x6 x7 h8
          have h9 : Touch 5575186299634478033122311050248953635979784 x1 x7 := by
            refine TouchP.eq ?_ h8
            refine TouchP.step (cacheRoom_touch ..) rfl ?_
            exact Touch.refl _ _
          extract_lets -merge +onlyGivenNames x10
          have h11 : Touch 5575186299634478033122311050248953635979784 x1 x10 := by
            unfold x10
            refine Touch.step (modConn_touch ..) rfl ?_
            exact h9
          clear_value x10
          refine Touch.foldl ?_ (fun x12 x13 h14 => ?_)
          · exact h11
          · refine Touch.step (withCtx_touch ..) rfl ?_
            exact h14
  · exact Touch.refl _ _

theorem closeConn_touch {cn : Nat} {flush : Bool} {s : State} : Touch 553402322211706683912 s (closeConn cn flush s) := by
  unfold closeConn
  refine Touch.step (withConn_touch rfl (fun x0 x1 => ?_)) (Within.refl _) ?_
  · extract_lets -merge +onlyGivenNames x2
    have h3 : Touch 553402322211706683912 x1 x2 := by
      unfold x2
      refine Touch.ite ?_ ?_
      · refine Touch.step (flushConn_touch ..) rfl ?_
        refine Touch.step (setConn_touch ..) rfl ?_
        exact Touch.refl _ _
      · exact Touch.refl _ _
    clear_value x2
    refine Touch.step (modVrm_touch ..) rfl ?_
    exact h3
  · exact Touch.refl _ _

theorem portPathsDown_touch {up : Nat → Bool} {s : State} : Touch 5575186299636458737185167658688792234738184 s (portPathsDown up s) := by
  unfold portPathsDown
  refine Touch.foldl ?_ (fun x0 x1 h2 => ?_)
  · exact Touch.refl _ _
  · extract_lets -merge +onlyGivenNames x3
    clear_value x3
    extract_lets -merge +onlyGivenNames x4
    clear_value x4
    extract_lets -merge +onlyGivenNames x5
    clear_value x5
    extract_lets -merge +onlyGivenNames x6
    clear_value x6
    extract_lets -merge +onlyGivenNames x7
    clear_value x7
    refine Touch.ite ?_ ?_
    · exact h2
    · extract_lets -merge +onlyGivenNames x8
      have h9 : Touch 5575186299636458737185167658688792234738184 s x8 := by
        unfold x8
        refine Touch.step (modConn_touch ..) rfl ?_
        exact h2
      clear_value x8
      refine Touch.step (resend_touch ..) rfl ?_
      refine Touch.step (bump_touch ..) rfl ?_
      exact h9

theorem vrmtInitReq_touch {n : Nat} {q : VrmtInitReq} {s : State} : TouchP 16777216 s (vrmtInitReq n q s) := by
  unfold vrmtInitReq
  extract_lets -merge +onlyGivenNames x0
  clear_value x0
  extract_lets -merge +onlyGivenNames x1
  clear_value x1
  extract_lets -merge +onlyGivenNames x2
  clear_value x2
  refine TouchP.ite ?_ ?_
  · refine TouchP.step (refuseAt_touch ..) rfl ?_
    exact Touch.refl _ _
  · split
    · rename_i x3 x4 h5
      refine TouchP.step (refuseAt_touch ..) rfl ?_
      exact Touch.refl _ _
    · rename_i x6 h7
      refine TouchP.ite ?_ ?_
      · refine TouchP.step (refuseAt_touch ..) rfl ?_
        exact Touch.refl _ _
      · refine TouchP.ite ?_ ?_
        · refine TouchP.step (refuseAt_touch ..) rfl ?_
          exact Touch.refl _ _
        · refine TouchP.ite ?_ ?_
          · refine TouchP.step (refuseAt_touch ..) rfl ?_
            exact Touch.refl _ _
          · refine TouchP.ite ?_ ?_
            · refine TouchP.step (refuseAt_touch ..) rfl ?_
              exact Touch.refl _ _
            · extract_lets -merge +onlyGivenNames x8
              clear_value x8
              refine TouchP.step (accept_touch ..) rfl ?_
              refine Touch.step (modVrm_touch ..) rfl ?_
              exact Touch.refl _ _

theorem execVrmtInit_touch {c : Caller} {q : VrmtInitReq} {s : State} : TouchOut 150995584 s (execVrmtInit c q s) := by
  unfold execVrmtInit
  refine TouchOut.step (whenOn_touch rfl (fun x0 => ?_)) (Within.refl _) ?_
  · refine Touch.step (mbxServe_touch rfl (fun x1 x2 => ?_)) (Within.refl _) ?_
    · refine TouchP.step (vrmtInitReq_touch ..) rfl ?_
      exact Touch.refl _ _
    · exact Touch.refl _ _
  · exact Touch.refl _ _

theorem execOwnAddressSet_touch {c : Caller} {addrs : List Nat} {s : State} : TouchOut 150995584 s (execOwnAddressSet c addrs s) := by
  unfold execOwnAddressSet
  refine TouchOut.step (whenOn_touch rfl (fun x0 => ?_)) (Within.refl _) ?_
  · refine Touch.step (mbxServe_touch rfl (fun x1 x2 => ?_)) (Within.refl _) ?_
    · refine TouchP.step (accept_touch ..) rfl ?_
      refine Touch.step (modVrm_touch ..) rfl ?_
      exact Touch.refl _ _
    · exact Touch.refl _ _
  · exact Touch.refl _ _

theorem execSliceQueueSet_touch {c : Caller} {slice : Nat} {queue : Nat} {s : State} : TouchOut 167772800 s (execSliceQueueSet c slice queue s) := by
  unfold execSliceQueueSet
  refine TouchOut.step (whenOn_touch rfl (fun x0 => ?_)) (Within.refl _) ?_
  · refine Touch.step (mbxServe_touch rfl (fun x1 x2 => ?_)) (Within.refl _) ?_
    · refine TouchP.ite ?_ ?_
      · refine TouchP.step (refuseAt_touch ..) rfl ?_
        exact Touch.refl _ _
      · refine TouchP.ite ?_ ?_
        · refine TouchP.step (refuseAt_touch ..) rfl ?_
          exact Touch.refl _ _
        · refine TouchP.step (accept_touch ..) rfl ?_
          refine Touch.step (modNet_touch ..) rfl ?_
          exact Touch.refl _ _
    · exact Touch.refl _ _
  · exact Touch.refl _ _

theorem execVrmtCommandDoorbell_touch {slice : Nat} {v : Word} {s : State} : TouchOut 2475880078570760566994894848 s (execVrmtCommandDoorbell slice v s) := by
  unfold execVrmtCommandDoorbell
  refine TouchOut.step (whenPage_touch rfl (fun x0 => ?_)) (Within.refl _) ?_
  · refine Touch.ite ?_ ?_
    · refine Touch.step (pageIgnored_touch ..) rfl ?_
      exact Touch.refl _ _
    · split
      · rename_i x1 h2
        refine Touch.step (pageIgnored_touch ..) rfl ?_
        exact Touch.refl _ _
      · rename_i x3 x4 h5
        extract_lets -merge +onlyGivenNames x6
        clear_value x6
        refine Touch.ite ?_ ?_
        · refine Touch.step (pageIgnored_touch ..) rfl ?_
          exact Touch.refl _ _
        · refine Touch.step (modVrm_touch ..) rfl ?_
          exact Touch.refl _ _
  · exact Touch.refl _ _

theorem vrmtCommandDone_touch {slice : Nat} {tag : Nat} {st : Status} {field : Nat} {r1 : Nat} {r2 : Nat} {s : State} : Touch 553402322211438247944 s (vrmtCommandDone slice tag st field r1 r2 s) := by
  unfold vrmtCommandDone
  split
  · rename_i x0 h1
    exact Touch.refl _ _
  · rename_i x2 x3 h4
    extract_lets -merge +onlyGivenNames x5
    clear_value x5
    extract_lets -merge +onlyGivenNames x6
    clear_value x6
    refine Touch.step (vRecord_touch ..) rfl ?_
    refine Touch.step (modVrm_touch ..) rfl ?_
    exact Touch.refl _ _

theorem vrmtCommand_touch {slice : Nat} {code : Nat} {tag : Nat} {s : State} {f : State → CmdResult × State} {F : Nat} (hF : Within 553402322211438247944 F) (hf : ∀ (y0 : State), TouchP F y0 (f y0)) : TouchOut F s (vrmtCommand slice code tag s f) := by
  unfold vrmtCommand
  refine TouchOut.step (whenOn_touch (.trans rfl hF) (fun x0 => ?_)) (Within.refl _) ?_
  · split
    · rename_i x1 h2
      exact Touch.refl _ _
    · rename_i x3 x4 h5
      refine Touch.ite ?_ ?_
      · exact Touch.refl _ _
      · split
        · rename_i x6 x7 x8 x9 x10 x11 h12
          have h13 : Touch F x0 x11 := by
            refine TouchP.eq ?_ h12
            refine TouchP.step (hf ..) (Within.refl _) ?_
            exact Touch.refl _ _
          extract_lets -merge +onlyGivenNames x14
          clear_value x14
          refine Touch.step (vrmtCommandDone_touch ..) (.trans rfl hF) ?_
          exact h13
  · exact Touch.refl _ _

theorem cmdBad_touch {st : Status} {fld : Nat} {s : State} : TouchP 0 s (cmdBad st fld s) := by
  unfold cmdBad
  refine TouchP.mk' ?_
  exact Touch.refl _ _

theorem cmdOk_touch {s : State} {r1 : Nat} {r2 : Nat} : TouchP 0 s (cmdOk s r1 r2) := by
  unfold cmdOk
  refine TouchP.mk' ?_
  exact Touch.refl _ _

theorem execCqCreate_touch {slice : Nat} {cq : Nat} {ring : Nat} {space : Nat} {log2 : Nat} {irq : Nat} {tag : Nat} {s : State} : TouchOut 553402322211438247944 s (execCqCreate slice cq ring space log2 irq tag s) := by
  unfold execCqCreate
  refine TouchOut.step (vrmtCommand_touch rfl (fun x0 => ?_)) (Within.refl _) ?_
  · refine TouchP.ite ?_ ?_
    · refine TouchP.step (cmdBad_touch ..) rfl ?_
      exact Touch.refl _ _
    · refine TouchP.ite ?_ ?_
      · refine TouchP.step (cmdBad_touch ..) rfl ?_
        exact Touch.refl _ _
      · refine TouchP.ite ?_ ?_
        · refine TouchP.step (cmdBad_touch ..) rfl ?_
          exact Touch.refl _ _
        · refine TouchP.ite ?_ ?_
          · refine TouchP.step (cmdBad_touch ..) rfl ?_
            exact Touch.refl _ _
          · refine TouchP.ite ?_ ?_
            · refine TouchP.step (cmdBad_touch ..) rfl ?_
              exact Touch.refl _ _
            · refine TouchP.ite ?_ ?_
              · refine TouchP.step (cmdBad_touch ..) rfl ?_
                exact Touch.refl _ _
              · refine TouchP.step (cmdOk_touch ..) rfl ?_
                refine Touch.step (modVrm_touch ..) rfl ?_
                exact Touch.refl _ _
  · exact Touch.refl _ _

theorem execCqDestroy_touch {slice : Nat} {cq : Nat} {tag : Nat} {s : State} : TouchOut 553402322211438247944 s (execCqDestroy slice cq tag s) := by
  unfold execCqDestroy
  refine TouchOut.step (vrmtCommand_touch rfl (fun x0 => ?_)) (Within.refl _) ?_
  · refine TouchP.ite ?_ ?_
    · refine TouchP.step (cmdBad_touch ..) rfl ?_
      exact Touch.refl _ _
    · refine TouchP.step (cmdOk_touch ..) rfl ?_
      refine Touch.step (modVrm_touch ..) rfl ?_
      exact Touch.refl _ _
  · exact Touch.refl _ _

theorem connCreateCmd_touch {n : Nat} {q : ConnCreateReq} {s : State} : TouchP 16777216 s (connCreateCmd n q s) := by
  unfold connCreateCmd
  extract_lets -merge +onlyGivenNames x0
  clear_value x0
  split
  · rename_i x1 x2 h3
    refine TouchP.step (cmdBad_touch ..) rfl ?_
    exact Touch.refl _ _
  · rename_i x4 h5
    refine TouchP.ite ?_ ?_
    · refine TouchP.step (cmdBad_touch ..) rfl ?_
      exact Touch.refl _ _
    · refine TouchP.ite ?_ ?_
      · refine TouchP.step (cmdBad_touch ..) rfl ?_
        exact Touch.refl _ _
      · refine TouchP.ite ?_ ?_
        · refine TouchP.step (cmdBad_touch ..) rfl ?_
          exact Touch.refl _ _
        · refine TouchP.ite ?_ ?_
          · refine TouchP.step (cmdBad_touch ..) rfl ?_
            exact Touch.refl _ _
          · refine TouchP.ite ?_ ?_
            · refine TouchP.step (cmdBad_touch ..) rfl ?_
              exact Touch.refl _ _
            · refine TouchP.ite ?_ ?_
              · refine TouchP.step (cmdBad_touch ..) rfl ?_
                exact Touch.refl _ _
              · refine TouchP.ite ?_ ?_
                · refine TouchP.step (cmdBad_touch ..) rfl ?_
                  exact Touch.refl _ _
                · split
                  · rename_i x6 h7
                    refine TouchP.step (cmdBad_touch ..) rfl ?_
                    exact Touch.refl _ _
                  · rename_i x8 x9 h10
                    split
                    · rename_i x11 x12 x13 h14
                      have h15 : Touch 16777216 s x13 := by
                        refine TouchP.eq ?_ h14
                        refine TouchP.step (cacheRoom_touch ..) rfl ?_
                        exact Touch.refl _ _
                      extract_lets -merge +onlyGivenNames x16
                      clear_value x16
                      refine TouchP.step (cmdOk_touch ..) rfl ?_
                      refine Touch.step (setConn_touch ..) rfl ?_
                      exact h15

theorem execConnCreate_touch {slice : Nat} {q : ConnCreateReq} {tag : Nat} {s : State} : TouchOut 553402322211438247944 s (execConnCreate slice q tag s) := by
  unfold execConnCreate
  refine TouchOut.step (vrmtCommand_touch rfl (fun x0 => ?_)) (Within.refl _) ?_
  · refine TouchP.step (connCreateCmd_touch ..) rfl ?_
    exact Touch.refl _ _
  · exact Touch.refl _ _

theorem connConnectCmd_touch {n : Nat} {q : ConnectReq} {s : State} : TouchP 16777216 s (connConnectCmd n q s) := by
  unfold connConnectCmd
  split
  · rename_i x0 h1
    refine TouchP.step (cmdBad_touch ..) rfl ?_
    exact Touch.refl _ _
  · rename_i x2 x3 h4
    refine TouchP.ite ?_ ?_
    · refine TouchP.step (cmdBad_touch ..) rfl ?_
      exact Touch.refl _ _
    · refine TouchP.ite ?_ ?_
      · refine TouchP.step (cmdBad_touch ..) rfl ?_
        exact Touch.refl _ _
      · refine TouchP.ite ?_ ?_
        · refine TouchP.step (cmdBad_touch ..) rfl ?_
          exact Touch.refl _ _
        · refine TouchP.ite ?_ ?_
          · refine TouchP.step (cmdBad_touch ..) rfl ?_
            exact Touch.refl _ _
          · refine TouchP.ite ?_ ?_
            · refine TouchP.step (cmdBad_touch ..) rfl ?_
              exact Touch.refl _ _
            · refine TouchP.ite ?_ ?_
              · refine TouchP.step (cmdBad_touch ..) rfl ?_
                exact Touch.refl _ _
              · refine TouchP.ite ?_ ?_
                · refine TouchP.step (cmdBad_touch ..) rfl ?_
                  exact Touch.refl _ _
                · extract_lets -merge +onlyGivenNames x5
                  clear_value x5
                  refine TouchP.step (cmdOk_touch ..) rfl ?_
                  refine Touch.step (setConn_touch ..) rfl ?_
                  exact Touch.refl _ _

theorem execConnConnect_touch {slice : Nat} {q : ConnectReq} {tag : Nat} {s : State} : TouchOut 553402322211438247944 s (execConnConnect slice q tag s) := by
  unfold execConnConnect
  refine TouchOut.step (vrmtCommand_touch rfl (fun x0 => ?_)) (Within.refl _) ?_
  · refine TouchP.step (connConnectCmd_touch ..) rfl ?_
    exact Touch.refl _ _
  · exact Touch.refl _ _

theorem execConnDestroy_touch {slice : Nat} {cn : Nat} {tag : Nat} {s : State} : TouchOut 553402322211706683912 s (execConnDestroy slice cn tag s) := by
  unfold execConnDestroy
  refine TouchOut.step (vrmtCommand_touch rfl (fun x0 => ?_)) (Within.refl _) ?_
  · split
    · rename_i x1 h2
      refine TouchP.step (cmdBad_touch ..) rfl ?_
      exact Touch.refl _ _
    · rename_i x3 x4 h5
      refine TouchP.step (cmdOk_touch ..) rfl ?_
      refine Touch.step (closeConn_touch ..) rfl ?_
      exact Touch.refl _ _
  · exact Touch.refl _ _

theorem keyRegisterCmd_touch {n : Nat} {space : Nat} {rights : BitVec 2} {s : State} : TouchP 16777216 s (keyRegisterCmd n space rights s) := by
  unfold keyRegisterCmd
  extract_lets -merge +onlyGivenNames x0
  clear_value x0
  refine TouchP.ite ?_ ?_
  · refine TouchP.step (cmdBad_touch ..) rfl ?_
    exact Touch.refl _ _
  · refine TouchP.ite ?_ ?_
    · refine TouchP.step (cmdBad_touch ..) rfl ?_
      exact Touch.refl _ _
    · split
      · rename_i x1 h2
        refine TouchP.step (cmdBad_touch ..) rfl ?_
        exact Touch.refl _ _
      · rename_i x3 x4 h5
        extract_lets -merge +onlyGivenNames x6
        extract_lets -merge +onlyGivenNames x7
        clear_value x7
        refine TouchP.step (cmdOk_touch ..) rfl ?_
        refine Touch.step (modVrm_touch ..) rfl ?_
        exact Touch.refl _ _

theorem execKeyRegister_touch {slice : Nat} {space : Nat} {rights : BitVec 2} {tag : Nat} {s : State} : TouchOut 553402322211438247944 s (execKeyRegister slice space rights tag s) := by
  unfold execKeyRegister
  refine TouchOut.step (vrmtCommand_touch rfl (fun x0 => ?_)) (Within.refl _) ?_
  · refine TouchP.step (keyRegisterCmd_touch ..) rfl ?_
    exact Touch.refl _ _
  · exact Touch.refl _ _

theorem setKey_touch {s : State} {i : Nat} {k : VKey} : Touch 16777216 s (State.setKey s i k) := by
  unfold State.setKey
  refine Touch.step (modVrm_touch ..) rfl ?_
  exact Touch.refl _ _

theorem execKeyRevoke_touch {slice : Nat} {key : BitVec 32} {tag : Nat} {s : State} : TouchOut 553402322211438247944 s (execKeyRevoke slice key tag s) := by
  unfold execKeyRevoke
  refine TouchOut.step (whenOn_touch rfl (fun x0 => ?_)) (Within.refl _) ?_
  · split
    · rename_i x1 h2
      exact Touch.refl _ _
    · rename_i x3 x4 h5
      refine Touch.ite ?_ ?_
      · exact Touch.refl _ _
      · split
        · rename_i x6 x7 h8
          refine Touch.ite ?_ ?_
          · refine Touch.step (setKey_touch ..) rfl ?_
            exact Touch.refl _ _
          · refine Touch.step (vrmtCommandDone_touch ..) rfl ?_
            exact Touch.refl _ _
        · rename_i x9 h10
          refine Touch.step (vrmtCommandDone_touch ..) rfl ?_
          exact Touch.refl _ _
  · exact Touch.refl _ _

theorem drainAbort_touch {i : Nat} {s : State} : Touch 5575186299632655785384482970484302125122056 s (drainAbort i s) := by
  unfold drainAbort
  split
  · rename_i x0 h1
    exact Touch.refl _ _
  · rename_i x2 x3 h4
    extract_lets -merge +onlyGivenNames x5
    clear_value x5
    extract_lets -merge +onlyGivenNames x6
    clear_value x6
    extract_lets -merge +onlyGivenNames x7
    have h8 : Touch 5575186299632655785384482970484302125122056 s x7 := by
      unfold x7
      refine Touch.foldl ?_ (fun x9 x10 h11 => ?_)
      · exact Touch.refl _ _
      · refine Touch.step (rxSettle_touch ..) rfl ?_
        refine Touch.step (refuseMsg_touch ..) rfl ?_
        exact h11
    clear_value x7
    split
    · rename_i x12 x13 x14 x15 h16
      refine Touch.step (setKey_touch ..) rfl ?_
      exact h8
    · rename_i x17 h18
      exact h8

theorem execKeyDrainLimit_touch {key : BitVec 32} {s : State} : TouchOut 5575186299632655785384482970484302125122056 s (execKeyDrainLimit key s) := by
  unfold execKeyDrainLimit
  refine TouchOut.step (whenOn_touch rfl (fun x0 => ?_)) (Within.refl _) ?_
  · extract_lets -merge +onlyGivenNames x1
    clear_value x1
    split
    · rename_i x2 x3 h4
      refine Touch.ite ?_ ?_
      · refine Touch.step (drainAbort_touch ..) rfl ?_
        exact Touch.refl _ _
      · exact Touch.refl _ _
    · rename_i x5 h6
      exact Touch.refl _ _
  · exact Touch.refl _ _

theorem execKeyDead_touch {key : BitVec 32} {s : State} : TouchOut 553402322211438247944 s (execKeyDead key s) := by
  unfold execKeyDead
  refine TouchOut.step (whenOn_touch rfl (fun x0 => ?_)) (Within.refl _) ?_
  · extract_lets -merge +onlyGivenNames x1
    clear_value x1
    split
    · rename_i x2 x3 h4
      refine Touch.ite ?_ ?_
      · extract_lets -merge +onlyGivenNames x5
        have h6 : Touch 553402322211438247944 x0 x5 := by
          unfold x5
          refine Touch.step (setKey_touch ..) rfl ?_
          exact Touch.refl _ _
        clear_value x5
        split
        · rename_i x7 x8 x9 x10 h11
          refine Touch.step (vrmtCommandDone_touch ..) rfl ?_
          exact h6
        · rename_i x12 h13
          exact h6
      · exact Touch.refl _ _
    · rename_i x14 h15
      exact Touch.refl _ _
  · exact Touch.refl _ _

theorem execVrmtConnDoorbell_touch {slice : Nat} {v : Word} {s : State} : TouchOut 5575186299634480509002389621009520614097416 s (execVrmtConnDoorbell slice v s) := by
  unfold execVrmtConnDoorbell
  refine TouchOut.step (whenPage_touch rfl (fun x0 => ?_)) (Within.refl _) ?_
  · extract_lets -merge +onlyGivenNames x1
    clear_value x1
    extract_lets -merge +onlyGivenNames x2
    clear_value x2
    refine Touch.ite ?_ ?_
    · refine Touch.step (pageIgnored_touch ..) rfl ?_
      exact Touch.refl _ _
    · refine Touch.step (withCtx_touch ..) rfl ?_
      exact Touch.refl _ _
  · exact Touch.refl _ _

theorem cqRoom_touch {slice : Nat} {cq : Nat} {s : State} : Touch 5575186299632655785384482970484302125122056 s (cqRoom slice cq s) := by
  unfold cqRoom
  refine Touch.foldl ?_ (fun x0 x1 h2 => ?_)
  · exact Touch.refl _ _
  · refine Touch.ite ?_ ?_
    · refine Touch.step (rxSettle_touch ..) rfl ?_
      refine Touch.step (wrDone_touch ..) rfl ?_
      refine Touch.step (drainHeld_touch ..) rfl ?_
      exact h2
    · exact h2

theorem execVrmtCqDoorbell_touch {slice : Nat} {v : Word} {s : State} : TouchOut 5575186299632658261264561541244869103239688 s (execVrmtCqDoorbell slice v s) := by
  unfold execVrmtCqDoorbell
  refine TouchOut.step (whenPage_touch rfl (fun x0 => ?_)) (Within.refl _) ?_
  · extract_lets -merge +onlyGivenNames x1
    clear_value x1
    extract_lets -merge +onlyGivenNames x2
    clear_value x2
    refine Touch.ite ?_ ?_
    · refine Touch.step (pageIgnored_touch ..) rfl ?_
      exact Touch.refl _ _
    · split
      · rename_i x3 h4
        refine Touch.step (pageIgnored_touch ..) rfl ?_
        exact Touch.refl _ _
      · rename_i x5 x6 h7
        refine Touch.ite ?_ ?_
        · refine Touch.step (pageIgnored_touch ..) rfl ?_
          exact Touch.refl _ _
        · extract_lets -merge +onlyGivenNames x8
          clear_value x8
          refine Touch.step (cqRoom_touch ..) rfl ?_
          refine Touch.step (modVrm_touch ..) rfl ?_
          exact Touch.refl _ _
  · exact Touch.refl _ _

theorem startWr_touch {cn : Nat} {c : Conn} {b : List Byte} {s : State} : Touch 5575186299632655785384482970484302125122056 s (startWr cn c b s) := by
  unfold startWr
  extract_lets -merge +onlyGivenNames x0
  clear_value x0
  extract_lets -merge +onlyGivenNames x1
  clear_value x1
  extract_lets -merge +onlyGivenNames x2
  clear_value x2
  extract_lets -merge +onlyGivenNames x3
  clear_value x3
  extract_lets -merge +onlyGivenNames x4
  clear_value x4
  extract_lets -merge +onlyGivenNames x5
  clear_value x5
  extract_lets -merge +onlyGivenNames x6
  clear_value x6
  extract_lets -merge +onlyGivenNames x7
  clear_value x7
  extract_lets -merge +onlyGivenNames x8
  clear_value x8
  split
  · rename_i x9 x10 h11
    refine Touch.step (wrDone_touch ..) rfl ?_
    refine Touch.step (setConn_touch ..) rfl ?_
    exact Touch.refl _ _
  · rename_i x12 h13
    extract_lets -merge +onlyGivenNames x14
    clear_value x14
    extract_lets -merge +onlyGivenNames x15
    clear_value x15
    extract_lets -merge +onlyGivenNames x16
    clear_value x16
    refine Touch.ite ?_ ?_
    · refine Touch.step (startMsg_touch ..) rfl ?_
      refine Touch.step (setConn_touch ..) rfl ?_
      exact Touch.refl _ _
    · refine Touch.ite ?_ ?_
      · extract_lets -merge +onlyGivenNames x17
        have h18 : Touch 5575186299632655785384482970484302125122056 s x17 := by
          unfold x17
          refine Touch.step (setConn_touch ..) rfl ?_
          exact Touch.refl _ _
        clear_value x17
        refine Touch.step (wrDone_touch ..) rfl ?_
        refine Touch.step (startMsg_touch ..) rfl ?_
        exact h18
      · split
        · rename_i x19 x20 x21 h22
          have h23 : Touch 5575186299632655785384482970484302125122056 s x21 := by
            refine TouchP.eq ?_ h22
            refine TouchP.step (vRead_touch ..) rfl ?_
            exact Touch.refl _ _
          split
          · rename_i x24 x25 x26 x27 h28
            have h29 : Touch 5575186299632655785384482970484302125122056 s x27 := by
              refine TouchQ.eq ?_ h28
              refine TouchQ.ite ?_ ?_
              · refine TouchQ.step (convertBuf_touch ..) rfl ?_
                exact h23
              · refine TouchQ.mk' ?_
                exact h23
            extract_lets -merge +onlyGivenNames x30
            clear_value x30
            extract_lets -merge +onlyGivenNames x31
            have h32 : Touch 5575186299632655785384482970484302125122056 s x31 := by
              unfold x31
              refine Touch.step (setConn_touch ..) rfl ?_
              exact h29
            clear_value x31
            refine Touch.step (startMsg_touch ..) rfl ?_
            exact h32

theorem wrRow_touch {cn : Nat} {op : Nat} {s : State} : TouchOut 5575186299632655785384482970484302125122056 s (wrRow cn op s) := by
  unfold wrRow
  refine TouchOut.step (whenOn_touch rfl (fun x0 => ?_)) (Within.refl _) ?_
  · refine Touch.step (withConn_touch rfl (fun x1 x2 => ?_)) (Within.refl _) ?_
    · refine Touch.ite ?_ ?_
      · exact Touch.refl _ _
      · split
        · rename_i x3 x4 x5 h6
          have h7 : Touch 5575186299632655785384482970484302125122056 x2 x5 := by
            refine TouchP.eq ?_ h6
            refine TouchP.step (vRead_touch ..) rfl ?_
            exact Touch.refl _ _
          extract_lets -merge +onlyGivenNames x8
          clear_value x8
          extract_lets -merge +onlyGivenNames x9
          clear_value x9
          refine Touch.ite ?_ ?_
          · refine Touch.step (startWr_touch ..) rfl ?_
            exact h7
          · exact h7
    · exact Touch.refl _ _
  · exact Touch.refl _ _

theorem execWrWrite_touch {cn : Nat} {s : State} : TouchOut 5575186299632655785384482970484302125122056 s (execWrWrite cn s) := by
  unfold execWrWrite
  refine TouchOut.step (wrRow_touch) rfl ?_
  exact Touch.refl _ _

theorem execWrWriteImm_touch {cn : Nat} {s : State} : TouchOut 5575186299632655785384482970484302125122056 s (execWrWriteImm cn s) := by
  unfold execWrWriteImm
  refine TouchOut.step (wrRow_touch) rfl ?_
  exact Touch.refl _ _

theorem execWrSend_touch {cn : Nat} {s : State} : TouchOut 5575186299632655785384482970484302125122056 s (execWrSend cn s) := by
  unfold execWrSend
  refine TouchOut.step (wrRow_touch) rfl ?_
  exact Touch.refl _ _

theorem execWrSendImm_touch {cn : Nat} {s : State} : TouchOut 5575186299632655785384482970484302125122056 s (execWrSendImm cn s) := by
  unfold execWrSendImm
  refine TouchOut.step (wrRow_touch) rfl ?_
  exact Touch.refl _ _

theorem execWrRead_touch {cn : Nat} {s : State} : TouchOut 5575186299632655785384482970484302125122056 s (execWrRead cn s) := by
  unfold execWrRead
  refine TouchOut.step (wrRow_touch) rfl ?_
  exact Touch.refl _ _

theorem dataRow_touch {kind : Nat} {p : Pkt} {s : State} : TouchOut 5575186299635111858422425164949701987582472 s (dataRow kind p s) := by
  unfold dataRow
  refine TouchOut.step (whenOn_touch rfl (fun x0 => ?_)) (Within.refl _) ?_
  · refine Touch.step (vReceive_touch rfl (fun x1 x2 x3 => ?_)) (Within.refl _) ?_
    · refine Touch.step (withCtx_touch ..) rfl ?_
      exact Touch.refl _ _
    · exact Touch.refl _ _
  · exact Touch.refl _ _

theorem execVrmtWritePacket_touch {p : Pkt} {s : State} : TouchOut 5575186299635111858422425164949701987582472 s (execVrmtWritePacket p s) := by
  unfold execVrmtWritePacket
  refine TouchOut.step (dataRow_touch) rfl ?_
  exact Touch.refl _ _

theorem execVrmtSendPacket_touch {p : Pkt} {s : State} : TouchOut 5575186299635111858422425164949701987582472 s (execVrmtSendPacket p s) := by
  unfold execVrmtSendPacket
  refine TouchOut.step (dataRow_touch) rfl ?_
  exact Touch.refl _ _

theorem execVrmtReadReq_touch {p : Pkt} {s : State} : TouchOut 5575186299635111858422425164949701987582472 s (execVrmtReadReq p s) := by
  unfold execVrmtReadReq
  refine TouchOut.step (dataRow_touch) rfl ?_
  exact Touch.refl _ _

theorem execVrmtReadResp_touch {p : Pkt} {s : State} : TouchOut 5575186299635111858422425164949701987582472 s (execVrmtReadResp p s) := by
  unfold execVrmtReadResp
  refine TouchOut.step (dataRow_touch) rfl ?_
  exact Touch.refl _ _

theorem execVrmtMsgAbort_touch {p : Pkt} {status : Status} {s : State} : TouchOut 5575186299635111858422425164949701987582472 s (execVrmtMsgAbort p status s) := by
  unfold execVrmtMsgAbort
  refine TouchOut.step (whenOn_touch rfl (fun x0 => ?_)) (Within.refl _) ?_
  · refine Touch.step (vReceive_touch rfl (fun x1 x2 x3 => ?_)) (Within.refl _) ?_
    · refine Touch.step (withCtx_touch ..) rfl ?_
      exact Touch.refl _ _
    · exact Touch.refl _ _
  · exact Touch.refl _ _

theorem execVrmtAck_touch {p : AckPkt} {s : State} : TouchOut 5575186299635111858422425164949701987582472 s (execVrmtAck p s) := by
  unfold execVrmtAck
  refine TouchOut.step (whenOn_touch rfl (fun x0 => ?_)) (Within.refl _) ?_
  · refine Touch.step (vReceive_touch rfl (fun x1 x2 x3 => ?_)) (Within.refl _) ?_
    · refine Touch.step (withCtx_touch ..) rfl ?_
      exact Touch.refl _ _
    · exact Touch.refl _ _
  · exact Touch.refl _ _

theorem execVrmtNak_touch {p : NakPkt} {s : State} : TouchOut 5575186299635111858422425164949701987582472 s (execVrmtNak p s) := by
  unfold execVrmtNak
  refine TouchOut.step (whenOn_touch rfl (fun x0 => ?_)) (Within.refl _) ?_
  · refine Touch.step (vReceive_touch rfl (fun x1 x2 x3 => ?_)) (Within.refl _) ?_
    · refine Touch.step (withCtx_touch ..) rfl ?_
      exact Touch.refl _ _
    · exact Touch.refl _ _
  · exact Touch.refl _ _

theorem connTimer_touch {cn : Nat} {s : State} {f : Conn → State → State} {F : Nat} (hF : Within 0 F) (hf : ∀ (y0 : Conn) (y1 : State), Touch F y1 (f y0 y1)) : TouchOut F s (connTimer cn s f) := by
  unfold connTimer
  refine TouchOut.step (whenOn_touch (.trans rfl hF) (fun x0 => ?_)) (Within.refl _) ?_
  · refine Touch.step (withConn_touch (.trans rfl hF) (fun x1 x2 => ?_)) (Within.refl _) ?_
    · refine Touch.ite ?_ ?_
      · refine Touch.step (hf ..) (Within.refl _) ?_
        exact Touch.refl _ _
      · exact Touch.refl _ _
    · exact Touch.refl _ _
  · exact Touch.refl _ _

theorem execAckDelayTimer_touch {cn : Nat} {s : State} : TouchOut 5575186299632655785384482970484302125122056 s (execAckDelayTimer cn s) := by
  unfold execAckDelayTimer
  refine TouchOut.step (connTimer_touch rfl (fun x0 x1 => ?_)) (Within.refl _) ?_
  · refine Touch.ite ?_ ?_
    · refine Touch.step (sendAck_touch ..) rfl ?_
      exact Touch.refl _ _
    · exact Touch.refl _ _
  · exact Touch.refl _ _

theorem execRetransmitTimeout_touch {cn : Nat} {psn : BitVec 32} {s : State} : TouchOut 5575186299636458737185167658688792234738184 s (execRetransmitTimeout cn psn s) := by
  unfold execRetransmitTimeout
  refine TouchOut.step (connTimer_touch rfl (fun x0 x1 => ?_)) (Within.refl _) ?_
  · split
    · rename_i x2 h3
      exact Touch.refl _ _
    · rename_i x4 x5 h6
      extract_lets -merge +onlyGivenNames x7
      clear_value x7
      extract_lets -merge +onlyGivenNames x8
      clear_value x8
      extract_lets -merge +onlyGivenNames x9
      clear_value x9
      extract_lets -merge +onlyGivenNames x10
      have h11 : Touch 5575186299636458737185167658688792234738184 x1 x10 := by
        unfold x10
        refine Touch.step (setConn_touch ..) rfl ?_
        exact Touch.refl _ _
      clear_value x10
      extract_lets -merge +onlyGivenNames x12
      have h13 : Touch 5575186299636458737185167658688792234738184 x1 x12 := by
        unfold x12
        refine Touch.ite ?_ ?_
        · refine Touch.step (bump_touch ..) rfl ?_
          exact h11
        · exact h11
      clear_value x12
      refine Touch.step (resend_touch ..) rfl ?_
      exact h13
  · exact Touch.refl _ _

theorem execPathRestore_touch {cn : Nat} {path : Nat} {s : State} : TouchOut 16777216 s (execPathRestore cn path s) := by
  unfold execPathRestore
  refine TouchOut.step (whenOn_touch rfl (fun x0 => ?_)) (Within.refl _) ?_
  · refine Touch.step (modConn_touch ..) rfl ?_
    exact Touch.refl _ _
  · exact Touch.refl _ _

theorem execMessageIncompleteNak_touch {cn : Nat} {msn : BitVec 32} {s : State} : TouchOut 5575186299637726387785395888090288937943560 s (execMessageIncompleteNak cn msn s) := by
  unfold execMessageIncompleteNak
  refine TouchOut.step (connTimer_touch rfl (fun x0 x1 => ?_)) (Within.refl _) ?_
  · split
    · rename_i x2 h3
      exact Touch.refl _ _
    · rename_i x4 x5 h6
      extract_lets -merge +onlyGivenNames x7
      clear_value x7
      refine Touch.ite ?_ ?_
      · exact Touch.refl _ _
      · refine Touch.step (bump_touch ..) rfl ?_
        refine Touch.step (sendNak_touch ..) rfl ?_
        exact Touch.refl _ _
  · exact Touch.refl _ _

theorem execConnPeerTimeout_touch {cn : Nat} {s : State} : TouchOut 553402322211706683912 s (execConnPeerTimeout cn s) := by
  unfold execConnPeerTimeout
  refine TouchOut.step (connTimer_touch rfl (fun x0 x1 => ?_)) (Within.refl _) ?_
  · split
    · rename_i x2 h3
      exact Touch.refl _ _
    · rename_i x4 x5 x6 h7
      extract_lets -merge +onlyGivenNames x8
      clear_value x8
      refine Touch.step (connError_touch ..) rfl ?_
      refine Touch.step (setConn_touch ..) rfl ?_
      exact Touch.refl _ _
  · exact Touch.refl _ _

theorem execRnrRetry_touch {cn : Nat} {msn : BitVec 32} {s : State} : TouchOut 5575186299633923435984711199885798828327432 s (execRnrRetry cn msn s) := by
  unfold execRnrRetry
  refine TouchOut.step (connTimer_touch rfl (fun x0 x1 => ?_)) (Within.refl _) ?_
  · split
    · rename_i x2 h3
      exact Touch.refl _ _
    · rename_i x4 x5 h6
      extract_lets -merge +onlyGivenNames x7
      have h8 : Touch 5575186299633923435984711199885798828327432 x1 x7 := by
        unfold x7
        refine Touch.step (setConn_touch ..) rfl ?_
        exact Touch.refl _ _
      clear_value x7
      refine Touch.step (pumpAll_touch ..) rfl ?_
      refine Touch.step (resend_touch ..) rfl ?_
      exact h8
  · exact Touch.refl _ _

theorem execCcCutTimer_touch {cn : Nat} {s : State} : TouchOut 16777216 s (execCcCutTimer cn s) := by
  unfold execCcCutTimer
  refine TouchOut.step (connTimer_touch rfl (fun x0 x1 => ?_)) (Within.refl _) ?_
  · extract_lets -merge +onlyGivenNames x2
    clear_value x2
    extract_lets -merge +onlyGivenNames x3
    clear_value x3
    refine Touch.ite ?_ ?_
    · refine Touch.step (setConn_touch ..) rfl ?_
      exact Touch.refl _ _
    · refine Touch.step (setConn_touch ..) rfl ?_
      exact Touch.refl _ _
  · exact Touch.refl _ _

theorem execCcIncreaseTimer_touch {cn : Nat} {s : State} : TouchOut 16777216 s (execCcIncreaseTimer cn s) := by
  unfold execCcIncreaseTimer
  refine TouchOut.step (connTimer_touch rfl (fun x0 x1 => ?_)) (Within.refl _) ?_
  · extract_lets -merge +onlyGivenNames x2
    clear_value x2
    extract_lets -merge +onlyGivenNames x3
    clear_value x3
    extract_lets -merge +onlyGivenNames x4
    clear_value x4
    extract_lets -merge +onlyGivenNames x5
    clear_value x5
    refine Touch.ite ?_ ?_
    · refine Touch.step (setConn_touch ..) rfl ?_
      exact Touch.refl _ _
    · refine Touch.step (setConn_touch ..) rfl ?_
      exact Touch.refl _ _
  · exact Touch.refl _ _

theorem execContextFetchComplete_touch {cn : Nat} {ok : Bool} {s : State} : TouchOut 5575186299634478033122311050248953635979784 s (execContextFetchComplete cn ok s) := by
  unfold execContextFetchComplete
  refine TouchOut.step (whenOn_touch rfl (fun x0 => ?_)) (Within.refl _) ?_
  · refine Touch.step (ctxFetched_touch ..) rfl ?_
    exact Touch.refl _ _
  · exact Touch.refl _ _

theorem execConnectionNumberFree_touch {cn : Nat} {s : State} : TouchOut 16777216 s (execConnectionNumberFree cn s) := by
  unfold execConnectionNumberFree
  refine TouchOut.step (whenOn_touch rfl (fun x0 => ?_)) (Within.refl _) ?_
  · refine Touch.step (modVrm_touch ..) rfl ?_
    exact Touch.refl _ _
  · exact Touch.refl _ _

theorem vrmtSliceEnd_touch {n : Nat} {all : Bool} {s : State} : Touch 553402322211706683912 s (vrmtSliceEnd n all s) := by
  unfold vrmtSliceEnd
  extract_lets -merge +onlyGivenNames x0
  have h1 : Touch 553402322211706683912 s x0 := by
    unfold x0
    refine Touch.foldl ?_ (fun x2 x3 h4 => ?_)
    · exact Touch.refl _ _
    · refine Touch.step (closeConn_touch ..) rfl ?_
      exact h4
  clear_value x0
  refine Touch.step (modVrm_touch ..) rfl ?_
  exact h1

theorem slotConnsSpent_touch {k : Nat} {s : State} : Touch 553402322211706683912 s (slotConnsSpent k s) := by
  unfold slotConnsSpent
  refine Touch.foldl ?_ (fun x0 x1 h2 => ?_)
  · exact Touch.refl _ _
  · refine Touch.ite ?_ ?_
    · refine Touch.step (connError_touch ..) rfl ?_
      refine Touch.step (modConn_touch ..) rfl ?_
      exact h2
    · exact h2

theorem slowFrame_touch {reason : Nat} {f : RxFrame} {s : State} : Touch 10633823966279326983230456482276311040 s (slowFrame reason f s) := by
  unfold slowFrame
  refine Touch.ite ?_ ?_
  · refine Touch.step (bump_touch ..) rfl ?_
    exact Touch.refl _ _
  · refine Touch.step (modNet_touch ..) rfl ?_
    exact Touch.refl _ _

theorem pktStore_touch {a : Nat} {data : List Byte} {s : State} : Touch 553402322211420946440 s (pktStore a data s) := by
  unfold pktStore
  split
  · rename_i x0 h1
    refine Touch.step (memStore_touch ..) rfl ?_
    exact Touch.refl _ _
  · rename_i x2 h3
    refine Touch.step (store_touch ..) rfl ?_
    exact Touch.refl _ _

theorem rxComplete_touch {n : Nat} {body : List Byte} {s : State} : Touch 553402322211454501384 s (rxComplete n body s) := by
  unfold rxComplete
  split
  · rename_i x0 h1
    exact Touch.refl _ _
  · rename_i x2 x3 h4
    extract_lets -merge +onlyGivenNames x5
    have h6 : Touch 553402322211454501384 s x5 := by
      unfold x5
      refine Touch.step (pktStore_touch ..) rfl ?_
      exact Touch.refl _ _
    clear_value x5
    extract_lets -merge +onlyGivenNames x7
    have h8 : Touch 553402322211454501384 s x7 := by
      unfold x7
      refine Touch.step (modNet_touch ..) rfl ?_
      exact h6
    clear_value x7
    refine Touch.step (irqEvent_touch ..) rfl ?_
    exact h8

theorem rxDeliver_touch {n : Nat} {a1 : Nat} {reason : Nat} {f : RxFrame} {a : Nat} {s : State} : Touch 5316911983139664045017550452575879688 s (rxDeliver n a1 reason f a s) := by
  induction a generalizing s
  · rw [rxDeliver]
    refine Touch.step (bump_touch ..) rfl ?_
    exact Touch.refl _ _
  · rename_i w0 ih
    rw [rxDeliver]
    split
    · rename_i x0 h1
      refine Touch.step (bump_touch ..) rfl ?_
      exact Touch.refl _ _
    · rename_i x2 x3 h4
      extract_lets -merge +onlyGivenNames x5
      clear_value x5
      refine Touch.ite ?_ ?_
      · refine Touch.step (bump_touch ..) rfl ?_
        exact Touch.refl _ _
      · extract_lets -merge +onlyGivenNames x6
        clear_value x6
        extract_lets -merge +onlyGivenNames x7
        clear_value x7
        extract_lets -merge +onlyGivenNames x8
        clear_value x8
        extract_lets -merge +onlyGivenNames x9
        have h10 : Touch 5316911983139664045017550452575879688 s x9 := by
          unfold x9
          refine Touch.step (modNet_touch ..) rfl ?_
          exact Touch.refl _ _
        clear_value x9
        extract_lets -merge +onlyGivenNames x11
        clear_value x11
        refine Touch.ite ?_ ?_
        · extract_lets -merge +onlyGivenNames x12
          clear_value x12
          refine Touch.step (ih ..) (Within.refl _) ?_
          refine Touch.step (rxComplete_touch ..) rfl ?_
          exact h10
        · refine Touch.ite ?_ ?_
          · refine Touch.step (bump_touch ..) rfl ?_
            exact h10
          · extract_lets -merge +onlyGivenNames x13
            clear_value x13
            extract_lets -merge +onlyGivenNames x14
            clear_value x14
            refine Touch.step (rxComplete_touch ..) rfl ?_
            refine Touch.step (pktStore_touch ..) rfl ?_
            exact h10

theorem deliverFrame_touch {qset : Nat} {f : RxFrame} {p : Parsed} {s : State} : Touch 5316911983139664045017550452575879688 s (deliverFrame qset f p s) := by
  unfold deliverFrame
  extract_lets -merge +onlyGivenNames x0
  clear_value x0
  refine Touch.step (rxDeliver_touch ..) rfl ?_
  exact Touch.refl _ _

theorem police_touch {n : Nat} {f : RxFrame} {p : Parsed} {s : State} : TouchP 1993841993677373809355710590454071296 s (police n f p s) := by
  unfold police
  refine TouchP.ite ?_ ?_
  · refine TouchP.mk' ?_
    exact Touch.refl _ _
  · extract_lets -merge +onlyGivenNames x0
    clear_value x0
    extract_lets -merge +onlyGivenNames x1
    clear_value x1
    extract_lets -merge +onlyGivenNames x2
    clear_value x2
    refine TouchP.ite ?_ ?_
    · refine TouchP.mk' ?_
      refine Touch.step (modNet_touch ..) rfl ?_
      exact Touch.refl _ _
    · extract_lets -merge +onlyGivenNames x3
      clear_value x3
      refine TouchP.ite ?_ ?_
      · refine TouchP.mk' ?_
        refine Touch.step (bump_touch ..) rfl ?_
        exact Touch.refl _ _
      · refine TouchP.mk' ?_
        refine Touch.step (bump_touch ..) rfl ?_
        exact Touch.refl _ _

theorem pourFrame_touch {edits : Nat} {f : RxFrame} {p : Parsed} {s : State} : Touch 31901471898837980949691369446761824256 s (pourFrame edits f p s) := by
  unfold pourFrame
  refine Touch.ite ?_ ?_
  · refine Touch.step (slowFrame_touch ..) rfl ?_
    exact Touch.refl _ _
  · extract_lets -merge +onlyGivenNames x0
    clear_value x0
    refine Touch.ite ?_ ?_
    · refine Touch.step (bump_touch ..) rfl ?_
      exact Touch.refl _ _
    · refine Touch.step (modNet_touch ..) rfl ?_
      exact Touch.refl _ _

theorem classify_touch {f : RxFrame} {p : Parsed} {s : State} : Touch 39544532874601247772290582254794752520 s (classify f p s) := by
  unfold classify
  split
  · rename_i x0 x1 x2 h3
    extract_lets -merge +onlyGivenNames x4
    have h5 : Touch 39544532874601247772290582254794752520 s x4 := by
      unfold x4
      refine Touch.step (bump_touch ..) rfl ?_
      exact Touch.refl _ _
    clear_value x4
    extract_lets -merge +onlyGivenNames x6
    clear_value x6
    split
    · rename_i x7 x8 h9
      have h10 : Touch 39544532874601247772290582254794752520 s x8 := by
        refine TouchP.eq ?_ h9
        refine TouchP.step (police_touch ..) rfl ?_
        exact h5
      exact h10
    · rename_i x11 x12 x13 h14
      have h15 : Touch 39544532874601247772290582254794752520 s x13 := by
        refine TouchP.eq ?_ h14
        refine TouchP.step (police_touch ..) rfl ?_
        exact h5
      extract_lets -merge +onlyGivenNames x16
      clear_value x16
      split
      · rename_i x17 h18
        refine Touch.step (deliverFrame_touch ..) rfl ?_
        exact h15
      · rename_i x19 h20
        exact h15
      · rename_i x21 h22
        refine Touch.step (slowFrame_touch ..) rfl ?_
        exact h15
      · rename_i x23 h24 h25 h26
        refine Touch.step (pourFrame_touch ..) rfl ?_
        exact h15
  · rename_i x27 h28
    split
    · rename_i x29 h30
      refine Touch.step (deliverFrame_touch ..) rfl ?_
      exact Touch.refl _ _
    · rename_i x31 h32
      refine Touch.step (slowFrame_touch ..) rfl ?_
      exact Touch.refl _ _
    · rename_i x33 h34 h35
      exact Touch.refl _ _

theorem parseDispatch_touch {f : RxFrame} {s : State} : Touch 42202988866171079518098196375355441672 s (parseDispatch f s) := by
  unfold parseDispatch
  extract_lets -merge +onlyGivenNames x0
  clear_value x0
  extract_lets -merge +onlyGivenNames x1
  clear_value x1
  extract_lets -merge +onlyGivenNames x2
  clear_value x2
  refine Touch.ite ?_ ?_
  · refine Touch.step (bump_touch ..) rfl ?_
    exact Touch.refl _ _
  · refine Touch.ite ?_ ?_
    · exact Touch.refl _ _
    · refine Touch.ite ?_ ?_
      · exact Touch.refl _ _
      · refine Touch.ite ?_ ?_
        · exact Touch.refl _ _
        · split
          · rename_i x3 x4 h5
            refine Touch.step (slowFrame_touch ..) rfl ?_
            exact Touch.refl _ _
          · rename_i x6 h7
            refine Touch.ite ?_ ?_
            · refine Touch.step (slowFrame_touch ..) rfl ?_
              exact Touch.refl _ _
            · refine Touch.step (classify_touch ..) rfl ?_
              exact Touch.refl _ _

theorem macsecAccept_touch {lp : Nat} {eapol : Bool} {secured : Option (Nat × Nat × Bool)} {s : State} : TouchP 162259276829213363391578043842560 s (macsecAccept lp eapol secured s) := by
  unfold macsecAccept
  refine TouchP.ite ?_ ?_
  · refine TouchP.mk' ?_
    exact Touch.refl _ _
  · split
    · rename_i x0
      refine TouchP.ite ?_ ?_
      · refine TouchP.mk' ?_
        exact Touch.refl _ _
      · refine TouchP.mk' ?_
        refine Touch.step (bump_touch ..) rfl ?_
        exact Touch.refl _ _
    · rename_i x1 x2 x3 x4
      split
      · rename_i x5 h6
        refine TouchP.mk' ?_
        refine Touch.step (bump_touch ..) rfl ?_
        exact Touch.refl _ _
      · rename_i x7 x8 h9
        extract_lets -merge +onlyGivenNames x10
        clear_value x10
        extract_lets -merge +onlyGivenNames x11
        clear_value x11
        refine TouchP.ite ?_ ?_
        · refine TouchP.mk' ?_
          refine Touch.step (bump_touch ..) rfl ?_
          exact Touch.refl _ _
        · refine TouchP.mk' ?_
          refine Touch.step (modNet_touch ..) rfl ?_
          exact Touch.refl _ _

theorem receiveFrame_touch {lp : Nat} {bytes : List Byte} {phyError : Bool} {fcsOk : Bool} {secured : Option (Nat × Nat × Bool)} {s : State} : Touch 42203272819905530641484131636873445896 s (receiveFrame lp bytes phyError fcsOk secured s) := by
  unfold receiveFrame
  extract_lets -merge +onlyGivenNames x0
  clear_value x0
  extract_lets -merge +onlyGivenNames x1
  clear_value x1
  extract_lets -merge +onlyGivenNames x2
  clear_value x2
  refine Touch.ite ?_ ?_
  · exact Touch.refl _ _
  · refine Touch.ite ?_ ?_
    · refine Touch.step (bump_touch ..) rfl ?_
      exact Touch.refl _ _
    · refine Touch.ite ?_ ?_
      · refine Touch.step (bump_touch ..) rfl ?_
        exact Touch.refl _ _
      · refine Touch.ite ?_ ?_
        · exact Touch.refl _ _
        · split
          · rename_i x3 x4 h5
            have h6 : Touch 42203272819905530641484131636873445896 s x4 := by
              refine TouchP.eq ?_ h5
              refine TouchP.step (macsecAccept_touch ..) rfl ?_
              exact Touch.refl _ _
            exact h6
          · rename_i x7 x8 h9
            have h10 : Touch 42203272819905530641484131636873445896 s x8 := by
              refine TouchP.eq ?_ h9
              refine TouchP.step (macsecAccept_touch ..) rfl ?_
              exact Touch.refl _ _
            refine Touch.step (parseDispatch_touch ..) rfl ?_
            exact h10

theorem execFrameReceive_touch {port : Nat} {bytes : List Byte} {phyError : Bool} {fcsOk : Bool} {secured : Option (Nat × Nat × Bool)} {s : State} : TouchOut 42203272819905530641484131636873445896 s (execFrameReceive port bytes phyError fcsOk secured s) := by
  unfold execFrameReceive
  refine TouchOut.ite ?_ ?_
  · exact TouchOut.fault _ _ _
  · refine TouchOut.step (whenOn_touch rfl (fun x0 => ?_)) (Within.refl _) ?_
    · refine Touch.step (receiveFrame_touch ..) rfl ?_
      exact Touch.refl _ _
    · exact Touch.refl _ _

theorem execSecondPour_touch {s : State} : TouchOut 42202988866171079518098196375355441672 s (execSecondPour s) := by
  unfold execSecondPour
  refine TouchOut.step (whenOn_touch rfl (fun x0 => ?_)) (Within.refl _) ?_
  · split
    · rename_i x1 h2
      exact Touch.refl _ _
    · rename_i x3 x4 x5 h6
      refine Touch.step (parseDispatch_touch ..) rfl ?_
      refine Touch.step (modNet_touch ..) rfl ?_
      exact Touch.refl _ _
  · exact Touch.refl _ _

theorem sendReply_touch {lp : Nat} {bytes : List Byte} {s : State} : Touch 33554432 s (sendReply lp bytes s) := by
  unfold sendReply
  extract_lets -merge +onlyGivenNames x0
  clear_value x0
  refine Touch.step (netQueue_touch ..) rfl ?_
  exact Touch.refl _ _

theorem mkaStep_touch {lp : Nat} {s : State} : Touch 174224571863520493293247799005065634643968 s (mkaStep lp s) := by
  unfold mkaStep
  split
  · rename_i x0 x1 x2 h3
    have h4 : Touch 174224571863520493293247799005065634643968 s x2 := by
      refine TouchP.eq ?_ h3
      refine TouchP.step (draw_touch ..) rfl ?_
      exact Touch.refl _ _
    split
    · rename_i x5 x6 x7 h8
      have h9 : Touch 174224571863520493293247799005065634643968 s x7 := by
        refine TouchP.eq ?_ h8
        refine TouchP.step (draw_touch ..) rfl ?_
        exact h4
      refine Touch.ite ?_ ?_
      · split
        · rename_i x10 x11 x12 h13
          have h14 : Touch 174224571863520493293247799005065634643968 s x12 := by
            refine TouchP.eq ?_ h13
            refine TouchP.step (drbg_touch ..) rfl ?_
            exact h9
          extract_lets -merge +onlyGivenNames x15
          clear_value x15
          refine Touch.step (modNet_touch ..) rfl ?_
          exact h14
      · exact h9

theorem execSlowPathFrame_touch {s : State} : TouchOut 174229888775503632957292816555518176969224 s (execSlowPathFrame s) := by
  unfold execSlowPathFrame
  refine TouchOut.step (whenOn_touch rfl (fun x0 => ?_)) (Within.refl _) ?_
  · split
    · rename_i x1 h2
      exact Touch.refl _ _
    · rename_i x3 x4 x5 x6 h7
      refine Touch.ite ?_ ?_
      · exact Touch.refl _ _
      · extract_lets -merge +onlyGivenNames x8
        have h9 : Touch 174229888775503632957292816555518176969224 x0 x8 := by
          unfold x8
          refine Touch.step (modNet_touch ..) rfl ?_
          exact Touch.refl _ _
        clear_value x8
        extract_lets -merge +onlyGivenNames x10
        clear_value x10
        extract_lets -merge +onlyGivenNames x11
        clear_value x11
        split
        · rename_i x12 x13
          refine Touch.step (sendReply_touch ..) rfl ?_
          exact h9
        · rename_i x14
          refine Touch.ite ?_ ?_
          · exact h9
          · refine Touch.ite ?_ ?_
            · refine Touch.step (mkaStep_touch ..) rfl ?_
              exact h9
            · refine Touch.step (rxDeliver_touch ..) rfl ?_
              exact h9
  · exact Touch.refl _ _

theorem ruleStatus_touch {st : Status} {s : State} : Touch 166153499473114484112975882535043072 s (ruleStatus st s) := by
  unfold ruleStatus
  refine Touch.step (setFld_touch ..) rfl ?_
  exact Touch.refl _ _

theorem execRuleWrite_touch {idx : BitVec 12} {s : State} : TouchOut 166153499473114484112975882568597504 s (execRuleWrite idx s) := by
  unfold execRuleWrite
  refine TouchOut.step (whenOn_touch rfl (fun x0 => ?_)) (Within.refl _) ?_
  · extract_lets -merge +onlyGivenNames x1
    clear_value x1
    refine Touch.ite ?_ ?_
    · refine Touch.step (ruleStatus_touch ..) rfl ?_
      exact Touch.refl _ _
    · refine Touch.step (ruleStatus_touch ..) rfl ?_
      refine Touch.step (modNet_touch ..) rfl ?_
      exact Touch.refl _ _
  · exact Touch.refl _ _

theorem execRuleInvalidate_touch {idx : BitVec 12} {s : State} : TouchOut 166153499473114484112975882568597504 s (execRuleInvalidate idx s) := by
  unfold execRuleInvalidate
  refine TouchOut.step (whenOn_touch rfl (fun x0 => ?_)) (Within.refl _) ?_
  · refine Touch.step (ruleStatus_touch ..) rfl ?_
    refine Touch.step (modNet_touch ..) rfl ?_
    exact Touch.refl _ _
  · exact Touch.refl _ _

theorem execRuleRead_touch {idx : BitVec 12} {s : State} : TouchOut 249230249209671726169463823802564608 s (execRuleRead idx s) := by
  unfold execRuleRead
  refine TouchOut.step (whenOn_touch rfl (fun x0 => ?_)) (Within.refl _) ?_
  · extract_lets -merge +onlyGivenNames x1
    clear_value x1
    refine Touch.step (ruleStatus_touch ..) rfl ?_
    refine Touch.foldl ?_ (fun x2 x3 h4 => ?_)
    · exact Touch.refl _ _
    · refine Touch.step (setReg_touch ..) rfl ?_
      exact h4
  · exact Touch.refl _ _

theorem pktQueueReq_touch {q : PktQueueReq} {s : State} : TouchP 33554432 s (pktQueueReq q s) := by
  unfold pktQueueReq
  extract_lets -merge +onlyGivenNames x0
  clear_value x0
  extract_lets -merge +onlyGivenNames x1
  clear_value x1
  refine TouchP.ite ?_ ?_
  · refine TouchP.step (refuseAt_touch ..) rfl ?_
    exact Touch.refl _ _
  · refine TouchP.ite ?_ ?_
    · refine TouchP.step (refuseAt_touch ..) rfl ?_
      exact Touch.refl _ _
    · refine TouchP.ite ?_ ?_
      · refine TouchP.step (refuseAt_touch ..) rfl ?_
        exact Touch.refl _ _
      · refine TouchP.ite ?_ ?_
        · refine TouchP.step (refuseAt_touch ..) rfl ?_
          exact Touch.refl _ _
        · refine TouchP.ite ?_ ?_
          · refine TouchP.step (refuseAt_touch ..) rfl ?_
            exact Touch.refl _ _
          · refine TouchP.ite ?_ ?_
            · refine TouchP.step (refuseAt_touch ..) rfl ?_
              exact Touch.refl _ _
            · refine TouchP.ite ?_ ?_
              · refine TouchP.step (refuseAt_touch ..) rfl ?_
                exact Touch.refl _ _
              · extract_lets -merge +onlyGivenNames x2
                clear_value x2
                refine TouchP.step (accept_touch ..) rfl ?_
                refine Touch.step (modNet_touch ..) rfl ?_
                exact Touch.refl _ _

theorem execPktQueueCreate_touch {c : Caller} {q : PktQueueReq} {s : State} : TouchOut 167772800 s (execPktQueueCreate c q s) := by
  unfold execPktQueueCreate
  refine TouchOut.step (whenOn_touch rfl (fun x0 => ?_)) (Within.refl _) ?_
  · refine Touch.step (mbxServe_touch rfl (fun x1 x2 => ?_)) (Within.refl _) ?_
    · refine TouchP.step (pktQueueReq_touch ..) rfl ?_
      exact Touch.refl _ _
    · exact Touch.refl _ _
  · exact Touch.refl _ _

theorem dropTxOf_touch {p : Nat → Bool} {s : State} : Touch 33554432 s (dropTxOf p s) := by
  unfold dropTxOf
  refine Touch.step (modNet_touch ..) rfl ?_
  exact Touch.refl _ _

theorem execPktQueueDestroy_touch {c : Caller} {tx : Bool} {n : Nat} {s : State} : TouchOut 167772800 s (execPktQueueDestroy c tx n s) := by
  unfold execPktQueueDestroy
  refine TouchOut.step (whenOn_touch rfl (fun x0 => ?_)) (Within.refl _) ?_
  · refine Touch.step (mbxServe_touch rfl (fun x1 x2 => ?_)) (Within.refl _) ?_
    · refine TouchP.ite ?_ ?_
      · refine TouchP.step (refuseAt_touch ..) rfl ?_
        exact Touch.refl _ _
      · refine TouchP.ite ?_ ?_
        · refine TouchP.step (accept_touch ..) rfl ?_
          refine Touch.step (modNet_touch ..) rfl ?_
          refine Touch.step (dropTxOf_touch ..) rfl ?_
          exact Touch.refl _ _
        · refine TouchP.step (accept_touch ..) rfl ?_
          refine Touch.step (modNet_touch ..) rfl ?_
          exact Touch.refl _ _
    · exact Touch.refl _ _
  · exact Touch.refl _ _

theorem dropPktQueues_touch {s : State} : Touch 33554432 s (dropPktQueues s) := by
  unfold dropPktQueues
  refine Touch.step (modNet_touch ..) rfl ?_
  refine Touch.step (dropTxOf_touch ..) rfl ?_
  exact Touch.refl _ _

theorem execPktRxqDoorbell_touch {n : Nat} {a1 : Bool} {v : Word} {s : State} : TouchOut 17213423616 s (execPktRxqDoorbell n a1 v s) := by
  unfold execPktRxqDoorbell
  refine TouchOut.step (whenOn_touch rfl (fun x0 => ?_)) (Within.refl _) ?_
  · split
    · rename_i x1 h2
      refine Touch.step (ignored_touch ..) rfl ?_
      exact Touch.refl _ _
    · rename_i x3 x4 h5
      split
      · rename_i x6 h7
        refine Touch.step (ignored_touch ..) rfl ?_
        exact Touch.refl _ _
      · rename_i x8 x9 h10
        refine Touch.step (modNet_touch ..) rfl ?_
        exact Touch.refl _ _
  · exact Touch.refl _ _

theorem txComplete_touch {n : Nat} {tag : Nat} {stamp : Nat} {st : Status} {s : State} : Touch 553402322211455025672 s (txComplete n tag stamp st s) := by
  unfold txComplete
  split
  · rename_i x0 h1
    exact Touch.refl _ _
  · rename_i x2 x3 h4
    extract_lets -merge +onlyGivenNames x5
    clear_value x5
    extract_lets -merge +onlyGivenNames x6
    subst x6
    extract_lets -merge +onlyGivenNames x7
    have h8 : Touch 553402322211455025672 s x7 := by
      unfold x7
      refine Touch.ite ?_ ?_
      · refine Touch.step (pktStore_touch ..) rfl ?_
        exact Touch.refl _ _
      · refine Touch.step (t := s) (Touch.upd (F := 524288) rfl (Or.inr rfl)) rfl ?_
        exact Touch.refl _ _
    clear_value x7
    refine Touch.step (irqEvent_touch ..) rfl ?_
    refine Touch.step (modNet_touch ..) rfl ?_
    exact h8

theorem txDone_touch {src : Nat × Nat × Nat} {stamp : Nat} {st : Status} {s : State} : Touch 553402322211455025672 s (txDone src stamp st s) := by
  unfold txDone
  split
  · rename_i x0 x1 x2 x3
    extract_lets -merge +onlyGivenNames x4
    have h5 : Touch 553402322211455025672 s x4 := by
      unfold x4
      refine Touch.step (modNet_touch ..) rfl ?_
      exact Touch.refl _ _
    clear_value x4
    refine Touch.ite ?_ ?_
    · refine Touch.step (txComplete_touch ..) rfl ?_
      exact h5
    · exact h5

theorem txFetch_touch {n : Nat} {a : Nat} {s : State} : Touch 553402322211455025672 s (txFetch n a s) := by
  induction a generalizing s
  · rw [txFetch]
    exact Touch.refl _ _
  · rename_i w0 ih
    rw [txFetch]
    split
    · rename_i x0 h1
      exact Touch.refl _ _
    · rename_i x2 x3 h4
      refine Touch.ite ?_ ?_
      · exact Touch.refl _ _
      · extract_lets -merge +onlyGivenNames x5
        clear_value x5
        extract_lets -merge +onlyGivenNames x6
        clear_value x6
        extract_lets -merge +onlyGivenNames x7
        clear_value x7
        extract_lets -merge +onlyGivenNames x8
        clear_value x8
        extract_lets -merge +onlyGivenNames x9
        clear_value x9
        extract_lets -merge +onlyGivenNames x10
        have h11 : Touch 553402322211455025672 s x10 := by
          unfold x10
          refine Touch.step (modNet_touch ..) rfl ?_
          exact Touch.refl _ _
        clear_value x10
        extract_lets -merge +onlyGivenNames x12
        subst x12
        refine Touch.step (ih ..) (Within.refl _) ?_
        refine Touch.ite ?_ ?_
        · beta_reduce
          refine Touch.step (txDone_touch ..) rfl ?_
          exact h11
        · refine Touch.ite ?_ ?_
          · beta_reduce
            refine Touch.step (txDone_touch ..) rfl ?_
            exact h11
          · refine Touch.ite ?_ ?_
            · beta_reduce
              refine Touch.step (txDone_touch ..) rfl ?_
              exact h11
            · refine Touch.ite ?_ ?_
              · beta_reduce
                refine Touch.step (txDone_touch ..) rfl ?_
                exact h11
              · refine Touch.ite ?_ ?_
                · beta_reduce
                  refine Touch.step (txDone_touch ..) rfl ?_
                  exact h11
                · extract_lets -merge +onlyGivenNames x13
                  clear_value x13
                  extract_lets -merge +onlyGivenNames x14
                  clear_value x14
                  extract_lets -merge +onlyGivenNames x15
                  clear_value x15
                  refine Touch.step (netQueue_touch ..) rfl ?_
                  exact h11

theorem execPktTxqDoorbell_touch {n : Nat} {a1 : Bool} {v : Word} {s : State} : TouchOut 553402322228634894856 s (execPktTxqDoorbell n a1 v s) := by
  unfold execPktTxqDoorbell
  refine TouchOut.step (whenOn_touch rfl (fun x0 => ?_)) (Within.refl _) ?_
  · split
    · rename_i x1 h2
      refine Touch.step (ignored_touch ..) rfl ?_
      exact Touch.refl _ _
    · rename_i x3 x4 h5
      split
      · rename_i x6 h7
        refine Touch.step (ignored_touch ..) rfl ?_
        exact Touch.refl _ _
      · rename_i x8 x9 h10
        refine Touch.step (txFetch_touch ..) rfl ?_
        refine Touch.step (modNet_touch ..) rfl ?_
        exact Touch.refl _ _
  · exact Touch.refl _ _

theorem setShaper_touch {k : Nat} {a1 : Shaper} {s : State} : Touch 5192296858534827628530496362774528 s (setShaper k a1 s) := by
  unfold setShaper
  refine Touch.step (setReg_touch ..) rfl ?_
  refine Touch.step (modNet_touch ..) rfl ?_
  exact Touch.refl _ _

theorem startFrame_touch {lp : Nat} {q : Nat} {s : State} : Touch 5192296858535381030852707784245768 s (startFrame lp q s) := by
  unfold startFrame
  split
  · rename_i x0 h1
    exact Touch.refl _ _
  · rename_i x2 x3 x4 h5
    extract_lets -merge +onlyGivenNames x6
    have h7 : Touch 5192296858535381030852707784245768 s x6 := by
      unfold x6
      refine Touch.step (modNet_touch ..) rfl ?_
      exact Touch.refl _ _
    clear_value x6
    extract_lets -merge +onlyGivenNames x8
    clear_value x8
    refine Touch.ite ?_ ?_
    · split
      · rename_i x9 x10 h11
        refine Touch.step (txDone_touch ..) rfl ?_
        exact h7
      · rename_i x12 h13
        exact h7
    · extract_lets -merge +onlyGivenNames x14
      clear_value x14
      extract_lets -merge +onlyGivenNames x15
      subst x15
      extract_lets -merge +onlyGivenNames x16
      have h17 : Touch 5192296858535381030852707784245768 s x16 := by
        unfold x16
        beta_reduce
        extract_lets -merge +onlyGivenNames x18
        clear_value x18
        extract_lets -merge +onlyGivenNames x19
        clear_value x19
        refine Touch.step (setShaper_touch ..) rfl ?_
        refine Touch.step (setShaper_touch ..) rfl ?_
        exact h7
      clear_value x16
      extract_lets -merge +onlyGivenNames x20
      have h21 : Touch 5192296858535381030852707784245768 s x20 := by
        unfold x20
        refine Touch.ite ?_ ?_
        · refine Touch.step (modNet_touch ..) rfl ?_
          exact h17
        · exact h17
      clear_value x20
      refine Touch.step (emit_touch ..) rfl ?_
      refine Touch.step (modNet_touch ..) rfl ?_
      exact h21

theorem weighted_touch {lp : Nat} {a : Nat} {s : State} : Touch 5192296858535381030852707784245768 s (weighted lp a s) := by
  induction a generalizing s
  · rw [weighted]
    exact Touch.refl _ _
  · rename_i w0 ih
    rw [weighted]
    split
    · rename_i x0 x1 x2 h3
      extract_lets -merge +onlyGivenNames x4
      clear_value x4
      extract_lets -merge +onlyGivenNames x5
      clear_value x5
      refine Touch.ite ?_ ?_
      · refine Touch.step (startFrame_touch ..) rfl ?_
        refine Touch.step (modNet_touch ..) rfl ?_
        exact Touch.refl _ _
      · extract_lets -merge +onlyGivenNames x6
        have h7 : Touch 5192296858535381030852707784245768 s x6 := by
          unfold x6
          refine Touch.ite ?_ ?_
          · refine Touch.step (modNet_touch ..) rfl ?_
            exact Touch.refl _ _
          · exact Touch.refl _ _
        clear_value x6
        split
        · rename_i x8 h9
          refine Touch.step (modNet_touch ..) rfl ?_
          exact h7
        · rename_i x10 x11 h12
          extract_lets -merge +onlyGivenNames x13
          have h14 : Touch 5192296858535381030852707784245768 s x13 := by
            unfold x13
            refine Touch.step (modNet_touch ..) rfl ?_
            exact h7
          clear_value x13
          refine Touch.step (ih ..) (Within.refl _) ?_
          exact h14

theorem execTxScheduleStart_touch {port : Nat} {s : State} : TouchOut 5192296858535381030852707784245768 s (execTxScheduleStart port s) := by
  unfold execTxScheduleStart
  refine TouchOut.ite ?_ ?_
  · exact TouchOut.fault _ _ _
  · refine TouchOut.step (whenOn_touch rfl (fun x0 => ?_)) (Within.refl _) ?_
    · refine Touch.ite ?_ ?_
      · exact Touch.refl _ _
      · split
        · rename_i x1 x2 h3
          refine Touch.step (startFrame_touch ..) rfl ?_
          exact Touch.refl _ _
        · rename_i x4 h5
          refine Touch.step (weighted_touch ..) rfl ?_
          exact Touch.refl _ _
    · exact Touch.refl _ _

theorem execTxFrameComplete_touch {port : Nat} {s : State} : TouchOut 553402322211455025672 s (execTxFrameComplete port s) := by
  unfold execTxFrameComplete
  refine TouchOut.ite ?_ ?_
  · exact TouchOut.fault _ _ _
  · refine TouchOut.step (whenOn_touch rfl (fun x0 => ?_)) (Within.refl _) ?_
    · split
      · rename_i x1 h2
        exact Touch.refl _ _
      · rename_i x3 x4 h5
        extract_lets -merge +onlyGivenNames x6
        have h7 : Touch 553402322211455025672 x0 x6 := by
          unfold x6
          refine Touch.step (modNet_touch ..) rfl ?_
          exact Touch.refl _ _
        clear_value x6
        split
        · rename_i x8 x9 h10
          refine Touch.step (txFetch_touch ..) rfl ?_
          refine Touch.step (txDone_touch ..) rfl ?_
          exact h7
        · rename_i x11 h12
          exact h7
    · exact Touch.refl _ _

theorem refillOne_touch {lp : Nat} {q : Nat} {k : Nat} {s : State} : Touch 5192296858534827628530496362774528 s (refillOne lp q k s) := by
  unfold refillOne
  extract_lets -merge +onlyGivenNames x0
  extract_lets -merge +onlyGivenNames x1
  extract_lets -merge +onlyGivenNames x2
  refine Touch.ite ?_ ?_
  · refine Touch.step (setShaper_touch ..) rfl ?_
    exact Touch.refl _ _
  · refine Touch.ite ?_ ?_
    · extract_lets -merge +onlyGivenNames x3
      clear_value x3
      extract_lets -merge +onlyGivenNames x4
      clear_value x4
      refine Touch.step (setShaper_touch ..) rfl ?_
      exact Touch.refl _ _
    · refine Touch.step (setShaper_touch ..) rfl ?_
      exact Touch.refl _ _

theorem refillAll_touch {s : State} : Touch 5192296858534827628530496362774528 s (refillAll s) := by
  unfold refillAll
  extract_lets -merge +onlyGivenNames x0
  have h1 : Touch 5192296858534827628530496362774528 s x0 := by
    unfold x0
    refine Touch.step (modNet_touch ..) rfl ?_
    exact Touch.refl _ _
  clear_value x0
  extract_lets -merge +onlyGivenNames x2
  clear_value x2
  extract_lets -merge +onlyGivenNames x3
  have h4 : Touch 5192296858534827628530496362774528 s x3 := by
    unfold x3
    refine Touch.foldl ?_ (fun x5 x6 h7 => ?_)
    · refine Touch.step (modNet_touch ..) rfl ?_
      exact h1
    · refine Touch.step (refillOne_touch ..) rfl ?_
      exact h7
  clear_value x3
  extract_lets -merge +onlyGivenNames x8
  clear_value x8
  refine Touch.foldl ?_ (fun x9 x10 h11 => ?_)
  · exact h4
  · extract_lets -merge +onlyGivenNames x12
    clear_value x12
    extract_lets -merge +onlyGivenNames x13
    clear_value x13
    refine Touch.step (modNet_touch ..) rfl ?_
    exact h11

theorem execShaperRefill_touch {s : State} : TouchOut 5192296858534827628530496362774528 s (execShaperRefill s) := by
  unfold execShaperRefill
  refine TouchOut.step (whenOn_touch rfl (fun x0 => ?_)) (Within.refl _) ?_
  · refine Touch.ite ?_ ?_
    · exact Touch.refl _ _
    · refine Touch.step (refillAll_touch ..) rfl ?_
      exact Touch.refl _ _
  · exact Touch.refl _ _

theorem portDown_touch {lp : Nat} {s : State} : Touch 5575186299636458737185167658688792234738184 s (portDown lp s) := by
  unfold portDown
  refine Touch.ite ?_ ?_
  · exact Touch.refl _ _
  · extract_lets -merge +onlyGivenNames x0
    have h1 : Touch 5575186299636458737185167658688792234738184 s x0 := by
      unfold x0
      exact Touch.refl _ _
    clear_value x0
    extract_lets -merge +onlyGivenNames x2
    clear_value x2
    extract_lets -merge +onlyGivenNames x3
    have h4 : Touch 5575186299636458737185167658688792234738184 s x3 := by
      unfold x3
      refine Touch.step (modNet_touch ..) rfl ?_
      exact Touch.refl _ _
    clear_value x3
    extract_lets -merge +onlyGivenNames x5
    have h6 : Touch 5575186299636458737185167658688792234738184 s x5 := by
      unfold x5
      refine Touch.foldl ?_ (fun x7 x8 h9 => ?_)
      · exact h4
      · split
        · rename_i x10 x11 h12
          refine Touch.step (txDone_touch ..) rfl ?_
          exact h9
        · rename_i x13 h14
          exact h9
    clear_value x5
    refine Touch.step (portPathsDown_touch ..) rfl ?_
    exact h6

theorem execEthPortDown_touch {port : Nat} {s : State} : TouchOut 5992156718631888264271566551321928039278115660948072 s (execEthPortDown port s) := by
  unfold execEthPortDown
  refine TouchOut.ite ?_ ?_
  · exact TouchOut.fault _ _ _
  · refine TouchOut.step (whenOn_touch rfl (fun x0 => ?_)) (Within.refl _) ?_
    · refine Touch.ite ?_ ?_
      · refine Touch.step (portDown_touch ..) rfl ?_
        refine Touch.step (log_touch ..) rfl ?_
        exact Touch.refl _ _
      · exact Touch.refl _ _
    · exact Touch.refl _ _

theorem portUp_touch {port : Nat} {s : State} : Touch 33554432 s (portUp port s) := by
  unfold portUp
  refine Touch.ite ?_ ?_
  · refine Touch.step (modNet_touch ..) rfl ?_
    exact Touch.refl _ _
  · exact Touch.refl _ _

theorem execPortRestart_touch {c : Caller} {port : Nat} {s : State} : TouchOut 5575186299636458737185167658688792234738312 s (execPortRestart c port s) := by
  unfold execPortRestart
  refine TouchOut.step (whenOn_touch rfl (fun x0 => ?_)) (Within.refl _) ?_
  · refine Touch.step (mbxServe_touch rfl (fun x1 x2 => ?_)) (Within.refl _) ?_
    · refine TouchP.ite ?_ ?_
      · refine TouchP.step (refuseAt_touch ..) rfl ?_
        exact Touch.refl _ _
      · extract_lets -merge +onlyGivenNames x3
        have h4 : Touch 5575186299636458737185167658688792234738312 x2 x3 := by
          unfold x3
          refine Touch.foldl ?_ (fun x5 x6 h7 => ?_)
          · exact Touch.refl _ _
          · refine Touch.step (portDown_touch ..) rfl ?_
            exact h7
        clear_value x3
        refine TouchP.step (accept_touch ..) rfl ?_
        refine Touch.step (modNet_touch ..) rfl ?_
        exact h4
    · exact Touch.refl _ _
  · exact Touch.refl _ _

end Sys2Proof.Machine
end

