-- ==== Sys2Proof/Laws/TouchIo.lean ====
section
/-! SUPPORT. What each function of the model may touch (Laws/Touch.lean): storage, slices and PCI Express. One lemma for each function; the footprint is the union of what its body writes. -/

namespace Sys2Proof.Machine

open Sys2Proof

theorem modSto_touch {s : State} {f : Storage → Storage} : Touch 67108864 s (State.modSto s f) := by
  unfold State.modSto
  refine Touch.step (t := s) (Touch.upd (F := 67108864) rfl (Or.inr rfl)) rfl ?_
  exact Touch.refl _ _

theorem setNvme_touch {s : State} {k : Nat} {c : Nvme} : Touch 67108864 s (State.setNvme s k c) := by
  unfold State.setNvme
  refine Touch.step (modSto_touch ..) rfl ?_
  exact Touch.refl _ _

theorem modNvme_touch {s : State} {k : Nat} {f : Nvme → Nvme} : Touch 67108864 s (State.modNvme s k f) := by
  unfold State.modNvme
  split
  · rename_i x0 x1 h2
    refine Touch.step (setNvme_touch ..) rfl ?_
    exact Touch.refl _ _
  · rename_i x3 h4
    exact Touch.refl _ _

theorem nvmeRead_touch {c : Nvme} {a : Nat} {n : Nat} {s : State} : TouchP 268435456 s (nvmeRead c a n s) := by
  unfold nvmeRead
  split
  · rename_i x0 x1 h2
    split
    · rename_i x3 x4 x5 h6
      have h7 : Touch 268435456 s x5 := by
        refine TouchP.eq ?_ h6
        refine TouchP.step (draw_touch ..) rfl ?_
        exact Touch.refl _ _
      refine TouchP.mk' ?_
      exact h7
  · rename_i x8 h9
    refine TouchP.mk' ?_
    exact Touch.refl _ _

theorem nvmeStore_touch {c : Nvme} {a : Nat} {l : List Byte} {s : State} : Touch 134217736 s (nvmeStore c a l s) := by
  unfold nvmeStore
  split
  · rename_i x0 x1 h2
    refine Touch.step (emit_touch ..) rfl ?_
    exact Touch.refl _ _
  · rename_i x3 h4
    refine Touch.step (store_touch ..) rfl ?_
    exact Touch.refl _ _

theorem cqSignal_touch {c : Nvme} {irq : Option Nat} {s : State} : Touch 134218240 s (cqSignal c irq s) := by
  unfold cqSignal
  split
  · rename_i x0 x1 h2
    refine Touch.step (emit_touch ..) rfl ?_
    exact Touch.refl _ _
  · rename_i x3 h4
    split
    · rename_i x5 x6
      refine Touch.step (irqEvent_touch ..) rfl ?_
      exact Touch.refl _ _
    · rename_i x7
      exact Touch.refl _ _

theorem cqEvent_touch {k : Nat} {qid : Nat} {s : State} : Touch 201327104 s (cqEvent k qid s) := by
  unfold cqEvent
  split
  · rename_i x0 h1
    exact Touch.refl _ _
  · rename_i x2 x3 h4
    split
    · rename_i x5 h6
      exact Touch.refl _ _
    · rename_i x7 x8 h9
      extract_lets -merge +onlyGivenNames x10
      subst x10
      refine Touch.ite ?_ ?_
      · refine Touch.step (cqSignal_touch ..) rfl ?_
        beta_reduce
        refine Touch.step (setNvme_touch ..) rfl ?_
        exact Touch.refl _ _
      · beta_reduce
        refine Touch.step (setNvme_touch ..) rfl ?_
        exact Touch.refl _ _

theorem cqWrite_touch {k : Nat} {qid : Nat} {word : Nat} {body : List Byte} {s : State} : Touch 201327112 s (cqWrite k qid word body s) := by
  unfold cqWrite
  split
  · rename_i x0 h1
    exact Touch.refl _ _
  · rename_i x2 x3 h4
    split
    · rename_i x5 h6
      exact Touch.refl _ _
    · rename_i x7 x8 h9
      extract_lets -merge +onlyGivenNames x10
      have h11 : Touch 201327112 s x10 := by
        unfold x10
        refine Touch.step (nvmeStore_touch ..) rfl ?_
        exact Touch.refl _ _
      clear_value x10
      extract_lets -merge +onlyGivenNames x12
      clear_value x12
      extract_lets -merge +onlyGivenNames x13
      have h14 : Touch 201327112 s x13 := by
        unfold x13
        refine Touch.step (setNvme_touch ..) rfl ?_
        exact h11
      clear_value x13
      refine Touch.step (cqEvent_touch ..) rfl ?_
      exact h14

theorem cqFlush_touch {k : Nat} {qid : Nat} {a : Nat} {s : State} : Touch 201327112 s (cqFlush k qid a s) := by
  induction a generalizing s
  · rw [cqFlush]
    exact Touch.refl _ _
  · rename_i w0 ih
    rw [cqFlush]
    split
    · rename_i x0 h1
      exact Touch.refl _ _
    · rename_i x2 x3 h4
      split
      · rename_i x5 h6
        exact Touch.refl _ _
      · rename_i x7 x8 h9
        split
        · rename_i x10 h11
          exact Touch.refl _ _
        · rename_i x12 x13 x14 x15 h16
          refine Touch.ite ?_ ?_
          · exact Touch.refl _ _
          · refine Touch.step (ih ..) (Within.refl _) ?_
            refine Touch.step (cqWrite_touch ..) rfl ?_
            refine Touch.step (setNvme_touch ..) rfl ?_
            exact Touch.refl _ _

theorem nvmePost_touch {k : Nat} {sq : Nat} {cid : Nat} {dw0 : Nat} {e : Nat × Nat × Bool} {s : State} : Touch 201327112 s (nvmePost k sq cid dw0 e s) := by
  unfold nvmePost
  split
  · rename_i x0 h1
    exact Touch.refl _ _
  · rename_i x2 x3 h4
    split
    · rename_i x5 x6 x7 h8
      split
      · rename_i x9 h10
        exact Touch.refl _ _
      · rename_i x11 x12 h13
        extract_lets -merge +onlyGivenNames x14
        clear_value x14
        refine Touch.step (cqFlush_touch ..) rfl ?_
        refine Touch.step (setNvme_touch ..) rfl ?_
        exact Touch.refl _ _

theorem nvmeEvent_touch {k : Nat} {dw0 : Nat} {s : State} : Touch 201327112 s (nvmeEvent k dw0 s) := by
  unfold nvmeEvent
  split
  · rename_i x0 h1
    exact Touch.refl _ _
  · rename_i x2 x3 h4
    split
    · rename_i x5 x6 x7 h8
      refine Touch.step (nvmePost_touch ..) rfl ?_
      refine Touch.step (setNvme_touch ..) rfl ?_
      exact Touch.refl _ _
    · rename_i x9 h10
      refine Touch.step (setNvme_touch ..) rfl ?_
      exact Touch.refl _ _

theorem nsChanged_touch {ns : Nat} {s : State} : Touch 201327112 s (nsChanged ns s) := by
  unfold nsChanged
  split
  · rename_i x0 h1
    exact Touch.refl _ _
  · rename_i x2 x3 h4
    refine Touch.foldl ?_ (fun x5 x6 h7 => ?_)
    · exact Touch.refl _ _
    · split
      · rename_i x8 x9 h10
        extract_lets -merge +onlyGivenNames x11
        have h12 : Touch 201327112 s x11 := by
          unfold x11
          refine Touch.step (setNvme_touch ..) rfl ?_
          exact h7
        clear_value x11
        refine Touch.ite ?_ ?_
        · refine Touch.step (nvmeEvent_touch ..) rfl ?_
          exact h12
        · exact h12
      · rename_i x13 h14
        exact h7

theorem nvmeError_touch {k : Nat} {sq : Nat} {cid : Nat} {e : Nat × Nat × Bool} {code : Status} {s : State} {loc : Nat} {lba : Nat} {ns : Nat} : Touch 201327112 s (nvmeError k sq cid e code s loc lba ns) := by
  unfold nvmeError
  extract_lets -merge +onlyGivenNames x0
  have h1 : Touch 201327112 s x0 := by
    unfold x0
    refine Touch.step (modNvme_touch ..) rfl ?_
    exact Touch.refl _ _
  clear_value x0
  refine Touch.step (nvmePost_touch ..) rfl ?_
  exact h1

theorem nvmeFail_touch {k : Nat} {sq : Nat} {cid : Nat} {st : Status} {s : State} {loc : Nat} {lba : Nat} {ns : Nat} : Touch 201327112 s (nvmeFail k sq cid st s loc lba ns) := by
  unfold nvmeFail
  refine Touch.step (nvmeError_touch ..) rfl ?_
  exact Touch.refl _ _

theorem stoMode_touch {s : State} : Touch 85070591730234615865843651858009161728 s (stoMode s) := by
  unfold stoMode
  extract_lets -merge +onlyGivenNames x0
  have h1 : Touch 85070591730234615865843651858009161728 s x0 := by
    unfold x0
    split
    · rename_i x2 x3 x4 h5
      refine Touch.ite ?_ ?_
      · refine Touch.step (setFld_touch ..) rfl ?_
        refine Touch.step (modSto_touch ..) rfl ?_
        exact Touch.refl _ _
      · exact Touch.refl _ _
    · rename_i x6 h7
      exact Touch.refl _ _
  clear_value x0
  extract_lets -merge +onlyGivenNames x8
  clear_value x8
  refine Touch.ite ?_ ?_
  · refine Touch.step (modSto_touch ..) rfl ?_
    exact h1
  · split
    · rename_i x9 x10 h11
      exact h1
    · rename_i x12 h13
      refine Touch.step (modSto_touch ..) rfl ?_
      exact h1

theorem arbiter_touch {k : Nat} {sq : Nat} {s : State} : TouchO 67108864 s (arbiter k sq s) := by
  unfold arbiter
  extract_lets -merge +onlyGivenNames x0
  clear_value x0
  split
  · rename_i x1 h2
    exact TouchO.none' _ _
  · rename_i x3 x4 x5 x6 x7 h8
    extract_lets -merge +onlyGivenNames x9
    clear_value x9
    extract_lets -merge +onlyGivenNames x10
    clear_value x10
    refine TouchO.ite ?_ ?_
    · extract_lets -merge +onlyGivenNames x11
      clear_value x11
      refine TouchO.ite ?_ ?_
      · refine TouchO.some' ?_
        exact Touch.refl _ _
      · refine TouchO.ite ?_ ?_
        · exact TouchO.none' _ _
        · refine TouchO.ite ?_ ?_
          · refine TouchO.some' ?_
            exact Touch.refl _ _
          · refine TouchO.ite ?_ ?_
            · refine TouchO.some' ?_
              refine Touch.step (modSto_touch ..) rfl ?_
              exact Touch.refl _ _
            · exact TouchO.none' _ _
    · refine TouchO.ite ?_ ?_
      · refine TouchO.ite ?_ ?_
        · refine TouchO.some' ?_
          refine Touch.step (modSto_touch ..) rfl ?_
          exact Touch.refl _ _
        · exact TouchO.none' _ _
      · refine TouchO.ite ?_ ?_
        · exact TouchO.none' _ _
        · refine TouchO.some' ?_
          exact Touch.refl _ _

theorem nvmeFetch_touch {k : Nat} {sq : Nat} {s : State} : TouchO 67108864 s (nvmeFetch k sq s) := by
  unfold nvmeFetch
  split
  · rename_i x0 h1
    exact TouchO.none' _ _
  · rename_i x2 x3 h4
    have h5 : Touch 67108864 s x3 := by
      refine TouchO.eq ?_ h4
      refine TouchO.step (arbiter_touch) rfl ?_
      exact Touch.refl _ _
    split
    · rename_i x6 h7
      exact TouchO.none' _ _
    · rename_i x8 x9 h10
      split
      · rename_i x11 h12
        exact TouchO.none' _ _
      · rename_i x13 x14 h15
        extract_lets -merge +onlyGivenNames x16
        have h17 : Touch 67108864 s x16 := by
          unfold x16
          refine Touch.step (setNvme_touch ..) rfl ?_
          exact h5
        clear_value x16
        refine TouchO.some' ?_
        refine Touch.step (modSto_touch ..) rfl ?_
        exact h17

theorem cacheTrim_touch {a : Nat} {s : State} : Touch 67108864 s (cacheTrim a s) := by
  induction a generalizing s
  · rw [cacheTrim]
    exact Touch.refl _ _
  · rename_i w0 ih
    rw [cacheTrim]
    refine Touch.ite ?_ ?_
    · exact Touch.refl _ _
    · split
      · rename_i x0 x1 h2
        refine Touch.step (ih ..) (Within.refl _) ?_
        refine Touch.step (modSto_touch ..) rfl ?_
        exact Touch.refl _ _
      · rename_i x3 h4
        exact Touch.refl _ _

theorem cachePut_touch {ns : Nat} {lba : Nat} {n : Nat} {s : State} : Touch 67108864 s (cachePut ns lba n s) := by
  unfold cachePut
  refine Touch.step (cacheTrim_touch ..) rfl ?_
  refine Touch.step (modSto_touch ..) rfl ?_
  exact Touch.refl _ _

theorem markUnreadable_touch {ns : Nat} {lba : Nat} {n : Nat} {s : State} : Touch 5992156713059424223570475321844467377448777773228648 s (markUnreadable ns lba n s) := by
  unfold markUnreadable
  split
  · rename_i x0 h1
    exact Touch.refl _ _
  · rename_i x2 x3 h4
    extract_lets -merge +onlyGivenNames x5
    clear_value x5
    extract_lets -merge +onlyGivenNames x6
    have h7 : Touch 5992156713059424223570475321844467377448777773228648 s x6 := by
      unfold x6
      refine Touch.step (modSto_touch ..) rfl ?_
      exact Touch.refl _ _
    clear_value x6
    refine Touch.step (nsChanged_touch ..) rfl ?_
    refine Touch.step (bump_touch ..) rfl ?_
    refine Touch.step (log_touch ..) rfl ?_
    exact h7

theorem ioEnd_touch {id : Nat} {st : Status} {s : State} {lba : Nat} : Touch 201327112 s (ioEnd id st s lba) := by
  unfold ioEnd
  split
  · rename_i x0 h1
    exact Touch.refl _ _
  · rename_i x2 x3 h4
    extract_lets -merge +onlyGivenNames x5
    have h6 : Touch 201327112 s x5 := by
      unfold x5
      refine Touch.step (modSto_touch ..) rfl ?_
      exact Touch.refl _ _
    clear_value x5
    refine Touch.ite ?_ ?_
    · exact h6
    · refine Touch.ite ?_ ?_
      · refine Touch.step (nvmePost_touch ..) rfl ?_
        exact h6
      · refine Touch.step (nvmeFail_touch ..) rfl ?_
        exact h6

theorem serveNvmeRead_touch {id : Nat} {s : State} : Touch 469762568 s (serveNvmeRead id s) := by
  unfold serveNvmeRead
  split
  · rename_i x0 h1
    exact Touch.refl _ _
  · rename_i x2 x3 h4
    split
    · rename_i x5 x6 x7 x8 x9 x10 x11 x12 h13 h14 h15
      split
      · rename_i x16 x17 h18
        refine Touch.step (ioEnd_touch ..) rfl ?_
        exact Touch.refl _ _
      · rename_i x19 h20
        extract_lets -merge +onlyGivenNames x21
        clear_value x21
        split
        · rename_i x22 x23 x24 h25
          split
          · rename_i x26 x27 x28 h29
            have h30 : Touch 469762568 s x28 := by
              refine TouchP.eq ?_ h29
              refine TouchP.step (draw_touch ..) rfl ?_
              exact Touch.refl _ _
            extract_lets -merge +onlyGivenNames x31
            have h32 : Touch 469762568 s x31 := by
              unfold x31
              refine Touch.ite ?_ ?_
              · refine Touch.step (nvmeStore_touch ..) rfl ?_
                exact h30
              · exact h30
            clear_value x31
            refine Touch.step (ioEnd_touch ..) rfl ?_
            exact h32
        · rename_i x33 h34
          refine Touch.step (ioEnd_touch ..) rfl ?_
          refine Touch.step (nvmeStore_touch ..) rfl ?_
          exact Touch.refl _ _
    · rename_i x35 x36 x37 h38
      refine Touch.step (ioEnd_touch ..) rfl ?_
      exact Touch.refl _ _

theorem applyRange_touch {ns : Nat} {N : Nspace} {lba : Nat} {n : Nat} {data : List Byte} {s : State} : Touch 67158024 s (applyRange ns N lba n data s) := by
  unfold applyRange
  extract_lets -merge +onlyGivenNames x0
  clear_value x0
  extract_lets -merge +onlyGivenNames x1
  have h2 : Touch 67158024 s x1 := by
    unfold x1
    refine Touch.step (modSto_touch ..) rfl ?_
    exact Touch.refl _ _
  clear_value x1
  refine Touch.ite ?_ ?_
  · extract_lets -merge +onlyGivenNames x3
    clear_value x3
    refine Touch.ite ?_ ?_
    · refine Touch.step (zeroRange_touch ..) rfl ?_
      exact h2
    · refine Touch.step (rawStore_touch ..) rfl ?_
      exact h2
  · extract_lets -merge +onlyGivenNames x4
    have h5 : Touch 67158024 s x4 := by
      unfold x4
      refine Touch.ite ?_ ?_
      · refine Touch.step (zero_touch ..) rfl ?_
        exact h2
      · refine Touch.step (store_touch ..) rfl ?_
        exact h2
    clear_value x4
    refine Touch.step (cachePut_touch ..) rfl ?_
    exact h5

theorem makeEntries_touch {id : Nat} {s : State} : Touch 67108864 s (makeEntries id s) := by
  unfold makeEntries
  split
  · rename_i x0 h1
    exact Touch.refl _ _
  · rename_i x2 x3 h4
    extract_lets -merge +onlyGivenNames x5
    clear_value x5
    extract_lets -merge +onlyGivenNames x6
    have h7 : Touch 67108864 s x6 := by
      unfold x6
      refine Touch.step (modSto_touch ..) rfl ?_
      exact Touch.refl _ _
    clear_value x6
    refine Touch.foldl ?_ (fun x8 x9 h10 => ?_)
    · exact h7
    · refine Touch.foldl ?_ (fun x11 x12 h13 => ?_)
      · exact h10
      · extract_lets -merge +onlyGivenNames x14
        clear_value x14
        refine Touch.step (modSto_touch ..) rfl ?_
        exact h13

theorem applyWrite_touch {id : Nat} {s : State} : Touch 469811720 s (applyWrite id s) := by
  unfold applyWrite
  split
  · rename_i x0 h1
    exact Touch.refl _ _
  · rename_i x2 x3 h4
    split
    · rename_i x5 x6 x7 x8 h9 h10
      split
      · rename_i x11 x12 h13
        refine Touch.step (ioEnd_touch ..) rfl ?_
        exact Touch.refl _ _
      · rename_i x14 h15
        extract_lets -merge +onlyGivenNames x16
        clear_value x16
        split
        · rename_i x17 x18 x19 h20
          have h21 : Touch 469811720 s x19 := by
            refine TouchP.eq ?_ h20
            refine TouchP.ite ?_ ?_
            · refine TouchP.mk' ?_
              exact Touch.refl _ _
            · refine TouchP.step (nvmeRead_touch ..) rfl ?_
              exact Touch.refl _ _
          extract_lets -merge +onlyGivenNames x22
          have h23 : Touch 469811720 s x22 := by
            unfold x22
            refine Touch.step (modSto_touch ..) rfl ?_
            exact h21
          clear_value x22
          extract_lets -merge +onlyGivenNames x24
          have h25 : Touch 469811720 s x24 := by
            unfold x24
            refine Touch.foldl ?_ (fun x26 x27 h28 => ?_)
            · exact h23
            · split
              · rename_i x29 x30 h31
                refine Touch.step (applyRange_touch ..) rfl ?_
                exact h28
              · rename_i x32 h33
                exact h28
          clear_value x24
          refine Touch.ite ?_ ?_
          · refine Touch.step (makeEntries_touch ..) rfl ?_
            exact h25
          · exact h25
    · rename_i x34 x35 h36
      refine Touch.step (ioEnd_touch ..) rfl ?_
      exact Touch.refl _ _

theorem finishWrite_touch {id : Nat} {s : State} : Touch 680564733841876926926749214863737750024 s (finishWrite id s) := by
  unfold finishWrite
  split
  · rename_i x0 h1
    exact Touch.refl _ _
  · rename_i x2 x3 h4
    split
    · rename_i x5 h6
      refine Touch.step (ioEnd_touch ..) rfl ?_
      exact Touch.refl _ _
    · rename_i x7 x8 h9
      refine Touch.ite ?_ ?_
      · refine Touch.step (ioEnd_touch ..) rfl ?_
        exact Touch.refl _ _
      · refine Touch.ite ?_ ?_
        · refine Touch.ite ?_ ?_
          · exact Touch.refl _ _
          · refine Touch.step (ioEnd_touch ..) rfl ?_
            exact Touch.refl _ _
        · extract_lets -merge +onlyGivenNames x10
          clear_value x10
          extract_lets -merge +onlyGivenNames x11
          clear_value x11
          refine Touch.ite ?_ ?_
          · refine Touch.step (ioEnd_touch ..) rfl ?_
            refine Touch.step (makeEntries_touch ..) rfl ?_
            exact Touch.refl _ _
          · refine Touch.ite ?_ ?_
            · exact Touch.refl _ _
            · refine Touch.step (bump_touch ..) rfl ?_
              refine Touch.step (modSto_touch ..) rfl ?_
              exact Touch.refl _ _

theorem ioAdvance_touch {id : Nat} {s : State} : Touch 680564733841876926926749214864006234632 s (ioAdvance id s) := by
  unfold ioAdvance
  split
  · rename_i x0 h1
    exact Touch.refl _ _
  · rename_i x2 x3 h4
    split
    · rename_i x5 x6 h7
      refine Touch.step (ioEnd_touch ..) rfl ?_
      exact Touch.refl _ _
    · rename_i x8 x9 x10 h11 h12
      refine Touch.ite ?_ ?_
      · exact Touch.refl _ _
      · refine Touch.step (ioEnd_touch ..) rfl ?_
        exact Touch.refl _ _
    · rename_i x13 x14 x15 h16 h17
      refine Touch.ite ?_ ?_
      · refine Touch.step (ioEnd_touch ..) rfl ?_
        exact Touch.refl _ _
      · refine Touch.ite ?_ ?_
        · exact Touch.refl _ _
        · split
          · rename_i x18 x19 x20 x21 h22
            refine Touch.ite ?_ ?_
            · refine Touch.step (serveNvmeRead_touch ..) rfl ?_
              exact Touch.refl _ _
            · refine Touch.ite ?_ ?_
              · refine Touch.step (ioEnd_touch ..) rfl ?_
                exact Touch.refl _ _
              · refine Touch.ite ?_ ?_
                · exact Touch.refl _ _
                · refine Touch.step (emit_touch ..) rfl ?_
                  refine Touch.step (modSto_touch ..) rfl ?_
                  exact Touch.refl _ _
          · rename_i x23 h24
            refine Touch.step (ioEnd_touch ..) rfl ?_
            exact Touch.refl _ _
    · rename_i x25 x26 x27 h28 h29
      refine Touch.ite ?_ ?_
      · refine Touch.step (ioEnd_touch ..) rfl ?_
        exact Touch.refl _ _
      · refine Touch.ite ?_ ?_
        · refine Touch.step (finishWrite_touch ..) rfl ?_
          exact Touch.refl _ _
        · refine Touch.ite ?_ ?_
          · exact Touch.refl _ _
          · refine Touch.step (finishWrite_touch ..) rfl ?_
            refine Touch.step (applyWrite_touch ..) rfl ?_
            exact Touch.refl _ _

theorem shutAdvance_touch {s : State} : Touch 10889035741470030830827987437816582766592 s (shutAdvance s) := by
  unfold shutAdvance
  refine Touch.foldl ?_ (fun x0 x1 h2 => ?_)
  · exact Touch.refl _ _
  · refine Touch.ite ?_ ?_
    · refine Touch.step (setFld_touch ..) rfl ?_
      exact h2
    · exact h2

theorem stoAdvance_touch {s : State} : Touch 12080024025693315452949798563828241318408 s (stoAdvance s) := by
  unfold stoAdvance
  extract_lets -merge +onlyGivenNames x0
  have h1 : Touch 12080024025693315452949798563828241318408 s x0 := by
    unfold x0
    refine Touch.foldl ?_ (fun x2 x3 h4 => ?_)
    · exact Touch.refl _ _
    · refine Touch.step (ioAdvance_touch ..) rfl ?_
      exact h4
  clear_value x0
  extract_lets -merge +onlyGivenNames x5
  have h6 : Touch 12080024025693315452949798563828241318408 s x5 := by
    unfold x5
    refine Touch.step (setReg_touch ..) rfl ?_
    exact h1
  clear_value x5
  refine Touch.step (shutAdvance_touch ..) rfl ?_
  refine Touch.step (setReg_touch ..) rfl ?_
  exact h6

theorem ioStart_touch {c : IoCmd} {s : State} : Touch 12080024025693315452949798563828241318408 s (ioStart c s) := by
  unfold ioStart
  refine Touch.step (stoAdvance_touch ..) rfl ?_
  refine Touch.step (modSto_touch ..) rfl ?_
  exact Touch.refl _ _

theorem ioDiscard_touch {p : IoCmd → Bool} {s : State} : Touch 67108864 s (ioDiscard p s) := by
  unfold ioDiscard
  refine Touch.step (modSto_touch ..) rfl ?_
  exact Touch.refl _ _

theorem nvmeStop_touch {k : Nat} {s : State} : Touch 16333553612205046246241981156724941258752 s (nvmeStop k s) := by
  unfold nvmeStop
  extract_lets -merge +onlyGivenNames x0
  have h1 : Touch 16333553612205046246241981156724941258752 s x0 := by
    unfold x0
    refine Touch.step (ioDiscard_touch ..) rfl ?_
    exact Touch.refl _ _
  clear_value x0
  extract_lets -merge +onlyGivenNames x2
  have h3 : Touch 16333553612205046246241981156724941258752 s x2 := by
    unfold x2
    refine Touch.step (setFld_touch ..) rfl ?_
    refine Touch.step (clearReg_touch ..) rfl ?_
    exact h1
  clear_value x2
  split
  · rename_i x4 x5 h6
    refine Touch.step (setNvme_touch ..) rfl ?_
    exact h3
  · rename_i x7 h8
    exact h3

theorem nvmeReset_touch {k : Nat} {s : State} : Touch 169971042277008762499955616412168691433992 s (nvmeReset k s) := by
  unfold nvmeReset
  extract_lets -merge +onlyGivenNames x0
  have h1 : Touch 169971042277008762499955616412168691433992 s x0 := by
    unfold x0
    refine Touch.step (nvmeStop_touch ..) rfl ?_
    exact Touch.refl _ _
  clear_value x0
  refine Touch.step (stoAdvance_touch ..) rfl ?_
  refine Touch.step (clearReg_touch ..) rfl ?_
  refine Touch.step (clearReg_touch ..) rfl ?_
  refine Touch.step (clearReg_touch ..) rfl ?_
  refine Touch.step (clearReg_touch ..) rfl ?_
  refine Touch.step (clearReg_touch ..) rfl ?_
  exact h1

theorem nsLeave_touch {ns : Nat} {k : Nat} {s : State} : Touch 201327112 s (nsLeave ns k s) := by
  unfold nsLeave
  split
  · rename_i x0 x1 h2
    extract_lets -merge +onlyGivenNames x3
    have h4 : Touch 201327112 s x3 := by
      unfold x3
      refine Touch.step (nsChanged_touch ..) rfl ?_
      exact Touch.refl _ _
    clear_value x3
    refine Touch.step (modSto_touch ..) rfl ?_
    exact h4
  · rename_i x5 h6
    exact Touch.refl _ _

theorem nvmeGone_touch {k : Nat} {s : State} : Touch 169971042277008762499955616412168691433992 s (nvmeGone k s) := by
  unfold nvmeGone
  extract_lets -merge +onlyGivenNames x0
  have h1 : Touch 169971042277008762499955616412168691433992 s x0 := by
    unfold x0
    refine Touch.step (nvmeReset_touch ..) rfl ?_
    exact Touch.refl _ _
  clear_value x0
  extract_lets -merge +onlyGivenNames x2
  have h3 : Touch 169971042277008762499955616412168691433992 s x2 := by
    unfold x2
    refine Touch.foldl ?_ (fun x4 x5 h6 => ?_)
    · exact h1
    · split
      · rename_i x7 x8 h9
        refine Touch.step (modSto_touch ..) rfl ?_
        exact h6
      · rename_i x10 h11
        exact h6
  clear_value x2
  refine Touch.step (modSto_touch ..) rfl ?_
  exact h3

theorem destage_touch {e : JEntry} {s : State} : Touch 8 s (destage e s) := by
  unfold destage
  split
  · rename_i x0 h1
    exact Touch.refl _ _
  · rename_i x2 x3 h4
    extract_lets -merge +onlyGivenNames x5
    clear_value x5
    refine Touch.foldl ?_ (fun x6 x7 h8 => ?_)
    · exact Touch.refl _ _
    · extract_lets -merge +onlyGivenNames x9
      clear_value x9
      refine Touch.foldl ?_ (fun x10 x11 h12 => ?_)
      · exact h8
      · refine Touch.ite ?_ ?_
        · refine Touch.step (zero_touch ..) rfl ?_
          exact h12
        · refine Touch.step (store_touch ..) rfl ?_
          exact h12

theorem stoPowerLoss_touch {s : State} : Touch 67108872 s (stoPowerLoss s) := by
  unfold stoPowerLoss
  extract_lets -merge +onlyGivenNames x0
  have h1 : Touch 67108872 s x0 := by
    unfold x0
    refine Touch.foldl ?_ (fun x2 x3 h4 => ?_)
    · exact Touch.refl _ _
    · refine Touch.ite ?_ ?_
      · refine Touch.step (zero_touch ..) rfl ?_
        exact h4
      · refine Touch.step (zero_touch ..) rfl ?_
        exact h4
  clear_value x0
  refine Touch.step (modSto_touch ..) rfl ?_
  exact h1

theorem cacheUncorrectable_touch {o : Nat} {s : State} : Touch 5992156713071504247596168637297417176012605813219944 s (cacheUncorrectable o s) := by
  unfold cacheUncorrectable
  extract_lets -merge +onlyGivenNames x0
  clear_value x0
  refine Touch.ite ?_ ?_
  · exact Touch.refl _ _
  · split
    · rename_i x1 x2 x3 h4
      have h5 : Touch 5992156713071504247596168637297417176012605813219944 s x3 := by
        refine TouchP.eq ?_ h4
        refine TouchP.step (draw_touch ..) rfl ?_
        exact Touch.refl _ _
      split
      · rename_i x6 x7 x8 h9
        have h10 : Touch 5992156713071504247596168637297417176012605813219944 s x8 := by
          refine TouchP.eq ?_ h9
          refine TouchP.step (draw_touch ..) rfl ?_
          exact h5
        split
        · rename_i x11 h12
          exact h10
        · rename_i x13 x14 h15
          extract_lets -merge +onlyGivenNames x16
          clear_value x16
          refine Touch.ite ?_ ?_
          · refine Touch.step (stoAdvance_touch ..) rfl ?_
            refine Touch.step (markUnreadable_touch ..) rfl ?_
            exact h10
          · refine Touch.step (modSto_touch ..) rfl ?_
            exact h10

theorem nvmeGate_touch {k : Nat} {s : State} {f : Nvme → State → State} {F : Nat} (hF : Within 2475880078570760566978117632 F) (hf : ∀ (y0 : Nvme) (y1 : State), Touch F y1 (f y0 y1)) : Touch F s (nvmeGate k s f) := by
  unfold nvmeGate
  split
  · rename_i x0 h1
    refine Touch.step (pageIgnored_touch ..) (.trans rfl hF) ?_
    exact Touch.refl _ _
  · rename_i x2 x3 h4
    refine Touch.ite ?_ ?_
    · refine Touch.step (pageIgnored_touch ..) (.trans rfl hF) ?_
      exact Touch.refl _ _
    · refine Touch.step (hf ..) (Within.refl _) ?_
      exact Touch.refl _ _

theorem badDoorbell_touch {k : Nat} {value : Bool} {s : State} : Touch 201327112 s (badDoorbell k value s) := by
  unfold badDoorbell
  refine Touch.step (nvmeEvent_touch ..) rfl ?_
  exact Touch.refl _ _

theorem whenQueue_touch {ctrl : Nat} {s : State} {f : State → State} {F : Nat} (hF : Within 2475880078570760566978117632 F) (hf : ∀ (y0 : State), Touch F y0 (f y0)) : TouchOut F s (whenQueue ctrl s f) := by
  unfold whenQueue
  refine TouchOut.ite ?_ ?_
  · refine TouchOut.step (whenPage_touch (.trans rfl hF) (fun x0 => ?_)) (Within.refl _) ?_
    · refine Touch.step (hf ..) (Within.refl _) ?_
      exact Touch.refl _ _
    · exact Touch.refl _ _
  · refine TouchOut.step (whenOn_touch (.trans rfl hF) (fun x1 => ?_)) (Within.refl _) ?_
    · refine Touch.step (hf ..) (Within.refl _) ?_
      exact Touch.refl _ _
    · exact Touch.refl _ _

theorem execNvmeSqTailDoorbell_touch {ctrl : Nat} {y : Nat} {v : Word} {s : State} : TouchOut 2475880078570760567179444744 s (execNvmeSqTailDoorbell ctrl y v s) := by
  unfold execNvmeSqTailDoorbell
  refine TouchOut.step (whenQueue_touch rfl (fun x0 => ?_)) (Within.refl _) ?_
  · refine Touch.step (nvmeGate_touch rfl (fun x1 x2 => ?_)) (Within.refl _) ?_
    · split
      · rename_i x3 h4
        refine Touch.step (badDoorbell_touch ..) rfl ?_
        exact Touch.refl _ _
      · rename_i x5 x6 h7
        refine Touch.ite ?_ ?_
        · refine Touch.step (badDoorbell_touch ..) rfl ?_
          exact Touch.refl _ _
        · refine Touch.step (setNvme_touch ..) rfl ?_
          exact Touch.refl _ _
    · exact Touch.refl _ _
  · exact Touch.refl _ _

theorem execNvmeCqHeadDoorbell_touch {ctrl : Nat} {y : Nat} {v : Word} {s : State} : TouchOut 2475880078570760567179444744 s (execNvmeCqHeadDoorbell ctrl y v s) := by
  unfold execNvmeCqHeadDoorbell
  refine TouchOut.step (whenQueue_touch rfl (fun x0 => ?_)) (Within.refl _) ?_
  · refine Touch.step (nvmeGate_touch rfl (fun x1 x2 => ?_)) (Within.refl _) ?_
    · split
      · rename_i x3 h4
        refine Touch.step (badDoorbell_touch ..) rfl ?_
        exact Touch.refl _ _
      · rename_i x5 x6 h7
        refine Touch.ite ?_ ?_
        · refine Touch.step (badDoorbell_touch ..) rfl ?_
          exact Touch.refl _ _
        · refine Touch.step (cqFlush_touch ..) rfl ?_
          refine Touch.step (setNvme_touch ..) rfl ?_
          exact Touch.refl _ _
    · exact Touch.refl _ _
  · exact Touch.refl _ _

theorem execNvmeCcEnable_touch {ctrl : Nat} {cc : Word} {s : State} : TouchOut 16333553612207522126320551917291919376384 s (execNvmeCcEnable ctrl cc s) := by
  unfold execNvmeCcEnable
  refine TouchOut.step (whenOn_touch rfl (fun x0 => ?_)) (Within.refl _) ?_
  · refine Touch.step (nvmeGate_touch rfl (fun x1 x2 => ?_)) (Within.refl _) ?_
    · refine Touch.ite ?_ ?_
      · refine Touch.step (setReg_touch ..) rfl ?_
        exact Touch.refl _ _
      · extract_lets -merge +onlyGivenNames x3
        have h4 : Touch 16333553612207522126320551917291919376384 x2 x3 := by
          unfold x3
          refine Touch.step (setReg_touch ..) rfl ?_
          refine Touch.step (setReg_touch ..) rfl ?_
          exact Touch.refl _ _
        clear_value x3
        refine Touch.step (setNvme_touch ..) rfl ?_
        exact h4
    · exact Touch.refl _ _
  · exact Touch.refl _ _

theorem execNvmeCcDisable_touch {ctrl : Nat} {cc : Word} {s : State} : TouchOut 17524541896430806748442363043303510819336 s (execNvmeCcDisable ctrl cc s) := by
  unfold execNvmeCcDisable
  refine TouchOut.step (whenOn_touch rfl (fun x0 => ?_)) (Within.refl _) ?_
  · refine Touch.step (nvmeGate_touch rfl (fun x1 x2 => ?_)) (Within.refl _) ?_
    · refine Touch.ite ?_ ?_
      · refine Touch.step (setReg_touch ..) rfl ?_
        exact Touch.refl _ _
      · refine Touch.step (stoAdvance_touch ..) rfl ?_
        refine Touch.step (setReg_touch ..) rfl ?_
        refine Touch.step (nvmeStop_touch ..) rfl ?_
        exact Touch.refl _ _
    · exact Touch.refl _ _
  · exact Touch.refl _ _

theorem execNvmeCcShutdown_touch {ctrl : Nat} {cc : Word} {s : State} : TouchOut 17524541896430806748442363043303510819336 s (execNvmeCcShutdown ctrl cc s) := by
  unfold execNvmeCcShutdown
  refine TouchOut.step (whenOn_touch rfl (fun x0 => ?_)) (Within.refl _) ?_
  · refine Touch.step (nvmeGate_touch rfl (fun x1 x2 => ?_)) (Within.refl _) ?_
    · extract_lets -merge +onlyGivenNames x3
      have h4 : Touch 17524541896430806748442363043303510819336 x2 x3 := by
        unfold x3
        refine Touch.step (setReg_touch ..) rfl ?_
        exact Touch.refl _ _
      clear_value x3
      refine Touch.ite ?_ ?_
      · exact h4
      · refine Touch.step (stoAdvance_touch ..) rfl ?_
        refine Touch.step (setFld_touch ..) rfl ?_
        refine Touch.step (setNvme_touch ..) rfl ?_
        exact h4
    · exact Touch.refl _ _
  · exact Touch.refl _ _

theorem nvmeTake_touch {k : Nat} {sq : Nat} {cmd : NvmeCmd} {op : Nat} {s : State} {f : Nvme → State → State} {F : Nat} (hF : Within 201327112 F) (hf : ∀ (y0 : Nvme) (y1 : State), Touch F y1 (f y0 y1)) : Touch F s (nvmeTake k sq cmd op s f) := by
  unfold nvmeTake
  split
  · rename_i x0 h1
    exact Touch.refl _ _
  · rename_i x2 x3 h4
    have h5 : Touch F s x3 := by
      refine TouchO.eq ?_ h4
      refine TouchO.step (nvmeFetch_touch) (.trans rfl hF) ?_
      exact Touch.refl _ _
    split
    · rename_i x6 h7
      exact h5
    · rename_i x8 x9 h10
      refine Touch.ite ?_ ?_
      · refine Touch.step (nvmeFail_touch ..) (.trans rfl hF) ?_
        exact h5
      · refine Touch.step (hf ..) (Within.refl _) ?_
        exact h5

theorem nvmeAdmin_touch {k : Nat} {cmd : NvmeCmd} {op : Nat} {s : State} {f : Nvme → State → State} {F : Nat} (hF : Within 201327112 F) (hf : ∀ (y0 : Nvme) (y1 : State), Touch F y1 (f y0 y1)) : TouchOut F s (nvmeAdmin k cmd op s f) := by
  unfold nvmeAdmin
  refine TouchOut.step (whenEngine_touch (.trans rfl hF) (fun x0 => ?_)) (Within.refl _) ?_
  · refine Touch.step (nvmeTake_touch (.trans rfl hF) (fun x1 x2 => ?_)) (Within.refl _) ?_
    · refine Touch.step (hf ..) (Within.refl _) ?_
      exact Touch.refl _ _
    · exact Touch.refl _ _
  · exact Touch.refl _ _

theorem adminOk_touch {k : Nat} {cmd : NvmeCmd} {s : State} {dw0 : Nat} : Touch 201327112 s (adminOk k cmd s dw0) := by
  unfold adminOk
  refine Touch.step (nvmePost_touch ..) rfl ?_
  exact Touch.refl _ _

theorem adminBad_touch {k : Nat} {cmd : NvmeCmd} {st : Status} {s : State} {loc : Nat} : Touch 201327112 s (adminBad k cmd st s loc) := by
  unfold adminBad
  refine Touch.step (nvmeFail_touch ..) rfl ?_
  exact Touch.refl _ _

theorem adminSpecific_touch {k : Nat} {cmd : NvmeCmd} {sc : Nat} {code : Status} {s : State} {loc : Nat} : Touch 201327112 s (adminSpecific k cmd sc code s loc) := by
  unfold adminSpecific
  refine Touch.step (nvmeError_touch ..) rfl ?_
  exact Touch.refl _ _

theorem execNvmeCreateIoSq_touch {ctrl : Nat} {cmd : NvmeCmd} {s : State} : TouchOut 201327112 s (execNvmeCreateIoSq ctrl cmd s) := by
  unfold execNvmeCreateIoSq
  refine TouchOut.step (nvmeAdmin_touch rfl (fun x0 x1 => ?_)) (Within.refl _) ?_
  · extract_lets -merge +onlyGivenNames x2
    clear_value x2
    extract_lets -merge +onlyGivenNames x3
    clear_value x3
    split
    · rename_i x4 x5 x6 x7 h8
      refine Touch.step (adminSpecific_touch ..) rfl ?_
      exact Touch.refl _ _
    · rename_i x9 h10
      refine Touch.ite ?_ ?_
      · refine Touch.step (adminBad_touch ..) rfl ?_
        exact Touch.refl _ _
      · refine Touch.ite ?_ ?_
        · refine Touch.step (adminSpecific_touch ..) rfl ?_
          exact Touch.refl _ _
        · refine Touch.step (adminOk_touch ..) rfl ?_
          refine Touch.step (setNvme_touch ..) rfl ?_
          exact Touch.refl _ _
  · exact Touch.refl _ _

theorem execNvmeDeleteIoSq_touch {ctrl : Nat} {cmd : NvmeCmd} {s : State} : TouchOut 12080024025693315452949798563828241318408 s (execNvmeDeleteIoSq ctrl cmd s) := by
  unfold execNvmeDeleteIoSq
  refine TouchOut.step (nvmeAdmin_touch rfl (fun x0 x1 => ?_)) (Within.refl _) ?_
  · extract_lets -merge +onlyGivenNames x2
    clear_value x2
    refine Touch.ite ?_ ?_
    · refine Touch.step (adminSpecific_touch ..) rfl ?_
      exact Touch.refl _ _
    · extract_lets -merge +onlyGivenNames x3
      clear_value x3
      extract_lets -merge +onlyGivenNames x4
      have h5 : Touch 12080024025693315452949798563828241318408 x1 x4 := by
        unfold x4
        refine Touch.step (ioDiscard_touch ..) rfl ?_
        exact Touch.refl _ _
      clear_value x4
      extract_lets -merge +onlyGivenNames x6
      have h7 : Touch 12080024025693315452949798563828241318408 x1 x6 := by
        unfold x6
        refine Touch.foldl ?_ (fun x8 x9 h10 => ?_)
        · exact h5
        · refine Touch.step (nvmePost_touch ..) rfl ?_
          exact h10
      clear_value x6
      refine Touch.step (stoAdvance_touch ..) rfl ?_
      refine Touch.step (adminOk_touch ..) rfl ?_
      refine Touch.step (modNvme_touch ..) rfl ?_
      exact h7
  · exact Touch.refl _ _

theorem execNvmeCreateIoCq_touch {ctrl : Nat} {cmd : NvmeCmd} {s : State} : TouchOut 201327112 s (execNvmeCreateIoCq ctrl cmd s) := by
  unfold execNvmeCreateIoCq
  refine TouchOut.step (nvmeAdmin_touch rfl (fun x0 x1 => ?_)) (Within.refl _) ?_
  · extract_lets -merge +onlyGivenNames x2
    clear_value x2
    extract_lets -merge +onlyGivenNames x3
    clear_value x3
    extract_lets -merge +onlyGivenNames x4
    clear_value x4
    split
    · rename_i x5 x6 x7 x8 h9
      refine Touch.step (adminSpecific_touch ..) rfl ?_
      exact Touch.refl _ _
    · rename_i x10 h11
      refine Touch.ite ?_ ?_
      · refine Touch.step (adminBad_touch ..) rfl ?_
        exact Touch.refl _ _
      · refine Touch.ite ?_ ?_
        · refine Touch.step (adminSpecific_touch ..) rfl ?_
          exact Touch.refl _ _
        · refine Touch.step (adminOk_touch ..) rfl ?_
          refine Touch.step (setNvme_touch ..) rfl ?_
          exact Touch.refl _ _
  · exact Touch.refl _ _

theorem execNvmeDeleteIoCq_touch {ctrl : Nat} {cmd : NvmeCmd} {s : State} : TouchOut 201327112 s (execNvmeDeleteIoCq ctrl cmd s) := by
  unfold execNvmeDeleteIoCq
  refine TouchOut.step (nvmeAdmin_touch rfl (fun x0 x1 => ?_)) (Within.refl _) ?_
  · extract_lets -merge +onlyGivenNames x2
    clear_value x2
    refine Touch.ite ?_ ?_
    · refine Touch.step (adminSpecific_touch ..) rfl ?_
      exact Touch.refl _ _
    · refine Touch.ite ?_ ?_
      · refine Touch.step (adminSpecific_touch ..) rfl ?_
        exact Touch.refl _ _
      · refine Touch.step (adminOk_touch ..) rfl ?_
        refine Touch.step (setNvme_touch ..) rfl ?_
        exact Touch.refl _ _
  · exact Touch.refl _ _

theorem freeBytes_touch {n : Nat} {s : State} : TouchP 268435456 s (freeBytes n s) := by
  unfold freeBytes
  split
  · rename_i x0 x1 x2 h3
    have h4 : Touch 268435456 s x2 := by
      refine TouchP.eq ?_ h3
      refine TouchP.step (draw_touch ..) rfl ?_
      exact Touch.refl _ _
    refine TouchP.mk' ?_
    exact h4

theorem logPage_touch {lid : Nat} {c : Nvme} {s : State} : TouchOP 268435456 s (logPage lid c s) := by
  unfold logPage
  split
  · rename_i x0
    refine TouchOP.some' ?_
    exact Touch.refl _ _
  · rename_i x1
    refine TouchOP.someP ?_
    refine TouchP.step (freeBytes_touch ..) rfl ?_
    exact Touch.refl _ _
  · rename_i x2
    refine TouchOP.some' ?_
    exact Touch.refl _ _
  · rename_i x3
    refine TouchOP.some' ?_
    exact Touch.refl _ _
  · rename_i x4 h5 h6 h7 h8
    exact TouchOP.none' _ _

theorem adminData_touch {k : Nat} {cmd : NvmeCmd} {l : List Byte} {s : State} : Touch 201327112 s (adminData k cmd l s) := by
  unfold adminData
  split
  · rename_i x0 h1
    exact Touch.refl _ _
  · rename_i x2 x3 h4
    refine Touch.ite ?_ ?_
    · refine Touch.step (nvmeError_touch ..) rfl ?_
      exact Touch.refl _ _
    · split
      · rename_i x5 x6 h7
        refine Touch.step (adminBad_touch ..) rfl ?_
        exact Touch.refl _ _
      · rename_i x8 h9
        refine Touch.step (adminOk_touch ..) rfl ?_
        refine Touch.step (nvmeStore_touch ..) rfl ?_
        exact Touch.refl _ _

theorem execNvmeGetLogPage_touch {ctrl : Nat} {cmd : NvmeCmd} {s : State} : TouchOut 469762568 s (execNvmeGetLogPage ctrl cmd s) := by
  unfold execNvmeGetLogPage
  refine TouchOut.step (nvmeAdmin_touch rfl (fun x0 x1 => ?_)) (Within.refl _) ?_
  · extract_lets -merge +onlyGivenNames x2
    clear_value x2
    extract_lets -merge +onlyGivenNames x3
    clear_value x3
    extract_lets -merge +onlyGivenNames x4
    clear_value x4
    split
    · rename_i x5 h6
      refine Touch.step (adminBad_touch ..) rfl ?_
      exact Touch.refl _ _
    · rename_i x7 x8 x9 h10
      have h11 : Touch 469762568 x1 x9 := by
        refine TouchOP.eq ?_ h10
        refine TouchOP.step (logPage_touch) rfl ?_
        exact Touch.refl _ _
      refine Touch.ite ?_ ?_
      · refine Touch.step (adminBad_touch ..) rfl ?_
        exact h11
      · extract_lets -merge +onlyGivenNames x12
        have h13 : Touch 469762568 x1 x12 := by
          unfold x12
          refine Touch.step (adminData_touch ..) rfl ?_
          exact h11
        clear_value x12
        refine Touch.ite ?_ ?_
        · refine Touch.step (modNvme_touch ..) rfl ?_
          exact h13
        · exact h13
  · exact Touch.refl _ _

theorem identifyData_touch {cns : Nat} {nsid : Nat} {k : Nat} {c : Nvme} {s : State} : TouchOP 268435456 s (identifyData cns nsid k c s) := by
  unfold identifyData
  extract_lets -merge +onlyGivenNames x0
  clear_value x0
  split
  · rename_i x1
    split
    · rename_i x2 x3 h4
      refine TouchOP.ite ?_ ?_
      · split
        · rename_i x5 x6 x7 h8
          have h9 : Touch 268435456 s x7 := by
            refine TouchP.eq ?_ h8
            refine TouchP.step (freeBytes_touch ..) rfl ?_
            exact Touch.refl _ _
          extract_lets -merge +onlyGivenNames x10
          clear_value x10
          extract_lets -merge +onlyGivenNames x11
          clear_value x11
          extract_lets -merge +onlyGivenNames x12
          clear_value x12
          extract_lets -merge +onlyGivenNames x13
          clear_value x13
          extract_lets -merge +onlyGivenNames x14
          clear_value x14
          refine TouchOP.some' ?_
          exact h9
      · refine TouchOP.some' ?_
        exact Touch.refl _ _
    · rename_i x15 h16
      refine TouchOP.some' ?_
      exact Touch.refl _ _
  · rename_i x17
    split
    · rename_i x18 x19 x20 h21
      have h22 : Touch 268435456 s x20 := by
        refine TouchP.eq ?_ h21
        refine TouchP.step (freeBytes_touch ..) rfl ?_
        exact Touch.refl _ _
      extract_lets -merge +onlyGivenNames x23
      clear_value x23
      extract_lets -merge +onlyGivenNames x24
      clear_value x24
      extract_lets -merge +onlyGivenNames x25
      clear_value x25
      extract_lets -merge +onlyGivenNames x26
      clear_value x26
      extract_lets -merge +onlyGivenNames x27
      clear_value x27
      extract_lets -merge +onlyGivenNames x28
      clear_value x28
      refine TouchOP.some' ?_
      exact h22
  · rename_i x29
    refine TouchOP.some' ?_
    exact Touch.refl _ _
  · rename_i x30
    refine TouchOP.someP ?_
    refine TouchP.step (freeBytes_touch ..) rfl ?_
    exact Touch.refl _ _
  · rename_i x31 h32 h33 h34 h35
    exact TouchOP.none' _ _

theorem execNvmeIdentify_touch {ctrl : Nat} {cmd : NvmeCmd} {s : State} : TouchOut 469762568 s (execNvmeIdentify ctrl cmd s) := by
  unfold execNvmeIdentify
  refine TouchOut.step (nvmeAdmin_touch rfl (fun x0 x1 => ?_)) (Within.refl _) ?_
  · split
    · rename_i x2 h3
      refine Touch.step (adminBad_touch ..) rfl ?_
      exact Touch.refl _ _
    · rename_i x4 x5 x6 h7
      have h8 : Touch 469762568 x1 x6 := by
        refine TouchOP.eq ?_ h7
        refine TouchOP.step (identifyData_touch) rfl ?_
        exact Touch.refl _ _
      refine Touch.step (adminData_touch ..) rfl ?_
      exact h8
  · exact Touch.refl _ _

theorem execNvmeAbort_touch {ctrl : Nat} {cmd : NvmeCmd} {s : State} : TouchOut 12080024025693315452949798563828241318408 s (execNvmeAbort ctrl cmd s) := by
  unfold execNvmeAbort
  refine TouchOut.step (nvmeAdmin_touch rfl (fun x0 x1 => ?_)) (Within.refl _) ?_
  · extract_lets -merge +onlyGivenNames x2
    clear_value x2
    extract_lets -merge +onlyGivenNames x3
    clear_value x3
    split
    · rename_i x4 x5 x6 h7
      extract_lets -merge +onlyGivenNames x8
      have h9 : Touch 12080024025693315452949798563828241318408 x1 x8 := by
        unfold x8
        refine Touch.step (modSto_touch ..) rfl ?_
        exact Touch.refl _ _
      clear_value x8
      refine Touch.step (stoAdvance_touch ..) rfl ?_
      refine Touch.step (adminOk_touch ..) rfl ?_
      refine Touch.step (nvmePost_touch ..) rfl ?_
      exact h9
    · rename_i x10 h11
      refine Touch.ite ?_ ?_
      · refine Touch.step (adminOk_touch ..) rfl ?_
        refine Touch.step (nvmePost_touch ..) rfl ?_
        refine Touch.step (setNvme_touch ..) rfl ?_
        exact Touch.refl _ _
      · refine Touch.step (adminOk_touch ..) rfl ?_
        exact Touch.refl _ _
  · exact Touch.refl _ _

theorem execNvmeSetFeatures_touch {ctrl : Nat} {cmd : NvmeCmd} {s : State} : TouchOut 201327112 s (execNvmeSetFeatures ctrl cmd s) := by
  unfold execNvmeSetFeatures
  refine TouchOut.step (nvmeAdmin_touch rfl (fun x0 x1 => ?_)) (Within.refl _) ?_
  · extract_lets -merge +onlyGivenNames x2
    clear_value x2
    extract_lets -merge +onlyGivenNames x3
    subst x3
    split
    · rename_i x4 h5
      beta_reduce
      refine Touch.step (adminOk_touch ..) rfl ?_
      refine Touch.step (setNvme_touch ..) rfl ?_
      exact Touch.refl _ _
    · rename_i x6 h7
      refine Touch.ite ?_ ?_
      · refine Touch.step (adminOk_touch ..) rfl ?_
        exact Touch.refl _ _
      · refine Touch.step (adminBad_touch ..) rfl ?_
        exact Touch.refl _ _
    · rename_i x8 h9
      beta_reduce
      refine Touch.step (adminOk_touch ..) rfl ?_
      refine Touch.step (setNvme_touch ..) rfl ?_
      exact Touch.refl _ _
    · rename_i x10 h11
      refine Touch.ite ?_ ?_
      · refine Touch.step (adminBad_touch ..) rfl ?_
        exact Touch.refl _ _
      · extract_lets -merge +onlyGivenNames x12
        clear_value x12
        extract_lets -merge +onlyGivenNames x13
        have h14 : Touch 201327112 x1 x13 := by
          unfold x13
          refine Touch.step (setNvme_touch ..) rfl ?_
          exact Touch.refl _ _
        clear_value x13
        refine Touch.step (adminOk_touch ..) rfl ?_
        exact h14
    · rename_i x15 h16
      beta_reduce
      refine Touch.step (adminOk_touch ..) rfl ?_
      refine Touch.step (setNvme_touch ..) rfl ?_
      exact Touch.refl _ _
    · rename_i x17 h18
      beta_reduce
      refine Touch.step (adminOk_touch ..) rfl ?_
      refine Touch.step (setNvme_touch ..) rfl ?_
      exact Touch.refl _ _
    · rename_i x19 h20 h21 h22 h23 h24 h25
      refine Touch.step (adminBad_touch ..) rfl ?_
      exact Touch.refl _ _
  · exact Touch.refl _ _

theorem execNvmeGetFeatures_touch {ctrl : Nat} {cmd : NvmeCmd} {s : State} : TouchOut 201327112 s (execNvmeGetFeatures ctrl cmd s) := by
  unfold execNvmeGetFeatures
  refine TouchOut.step (nvmeAdmin_touch rfl (fun x0 x1 => ?_)) (Within.refl _) ?_
  · split
    · rename_i x2 x3 h4
      refine Touch.step (adminOk_touch ..) rfl ?_
      exact Touch.refl _ _
    · rename_i x5 h6
      refine Touch.step (adminBad_touch ..) rfl ?_
      exact Touch.refl _ _
  · exact Touch.refl _ _

theorem execNvmeAsyncEventRequest_touch {ctrl : Nat} {cmd : NvmeCmd} {s : State} : TouchOut 201327112 s (execNvmeAsyncEventRequest ctrl cmd s) := by
  unfold execNvmeAsyncEventRequest
  refine TouchOut.step (nvmeAdmin_touch rfl (fun x0 x1 => ?_)) (Within.refl _) ?_
  · split
    · rename_i x2 x3 x4 h5
      refine Touch.step (adminOk_touch ..) rfl ?_
      refine Touch.step (setNvme_touch ..) rfl ?_
      exact Touch.refl _ _
    · rename_i x6 h7
      refine Touch.step (setNvme_touch ..) rfl ?_
      exact Touch.refl _ _
  · exact Touch.refl _ _

theorem nvmeIo_touch {ctrl : Nat} {sq : Nat} {cmd : NvmeCmd} {op : Nat} {s : State} {f : Nvme → Nspace → State → State} {F : Nat} (hF : Within 201327112 F) (hf : ∀ (y0 : Nvme) (y1 : Nspace) (y2 : State), Touch F y2 (f y0 y1 y2)) : TouchOut F s (nvmeIo ctrl sq cmd op s f) := by
  unfold nvmeIo
  refine TouchOut.step (whenEngine_touch (.trans rfl hF) (fun x0 => ?_)) (Within.refl _) ?_
  · refine Touch.ite ?_ ?_
    · exact Touch.refl _ _
    · refine Touch.step (nvmeTake_touch (.trans rfl hF) (fun x1 x2 => ?_)) (Within.refl _) ?_
      · split
        · rename_i x3 h4
          refine Touch.step (nvmeError_touch ..) (.trans rfl hF) ?_
          exact Touch.refl _ _
        · rename_i x5 x6 h7
          refine Touch.ite ?_ ?_
          · refine Touch.step (nvmeError_touch ..) (.trans rfl hF) ?_
            exact Touch.refl _ _
          · refine Touch.ite ?_ ?_
            · refine Touch.step (nvmeFail_touch ..) (.trans rfl hF) ?_
              exact Touch.refl _ _
            · refine Touch.ite ?_ ?_
              · refine Touch.step (nvmeFail_touch ..) (.trans rfl hF) ?_
                exact Touch.refl _ _
              · refine Touch.step (hf ..) (Within.refl _) ?_
                exact Touch.refl _ _
      · exact Touch.refl _ _
  · exact Touch.refl _ _

theorem ioCheck_touch {ctrl : Nat} {sq : Nat} {cmd : NvmeCmd} {N : Nspace} {moves : Bool} {s : State} : TouchO 201327112 s (ioCheck ctrl sq cmd N moves s) := by
  unfold ioCheck
  extract_lets -merge +onlyGivenNames x0
  clear_value x0
  refine TouchO.ite ?_ ?_
  · refine TouchO.some' ?_
    refine Touch.step (nvmeFail_touch ..) rfl ?_
    exact Touch.refl _ _
  · refine TouchO.ite ?_ ?_
    · refine TouchO.some' ?_
      refine Touch.step (nvmeFail_touch ..) rfl ?_
      exact Touch.refl _ _
    · refine TouchO.ite ?_ ?_
      · refine TouchO.some' ?_
        refine Touch.step (nvmeError_touch ..) rfl ?_
        exact Touch.refl _ _
      · exact TouchO.none' _ _

theorem execNvmeRead_touch {ctrl : Nat} {sq : Nat} {cmd : NvmeCmd} {s : State} : TouchOut 12080024025693315452949798563828241318408 s (execNvmeRead ctrl sq cmd s) := by
  unfold execNvmeRead
  refine TouchOut.step (nvmeIo_touch rfl (fun x0 x1 x2 => ?_)) (Within.refl _) ?_
  · split
    · rename_i x3 x4 h5
      have h6 : Touch 12080024025693315452949798563828241318408 x2 x4 := by
        refine TouchO.eq ?_ h5
        refine TouchO.step (ioCheck_touch) rfl ?_
        exact Touch.refl _ _
      exact h6
    · rename_i x7 h8
      refine Touch.step (ioStart_touch ..) rfl ?_
      exact Touch.refl _ _
  · exact Touch.refl _ _

theorem execNvmeWrite_touch {ctrl : Nat} {sq : Nat} {cmd : NvmeCmd} {s : State} : TouchOut 12080024025693315452949798563828241318408 s (execNvmeWrite ctrl sq cmd s) := by
  unfold execNvmeWrite
  refine TouchOut.step (nvmeIo_touch rfl (fun x0 x1 x2 => ?_)) (Within.refl _) ?_
  · split
    · rename_i x3 x4 h5
      have h6 : Touch 12080024025693315452949798563828241318408 x2 x4 := by
        refine TouchO.eq ?_ h5
        refine TouchO.step (ioCheck_touch) rfl ?_
        exact Touch.refl _ _
      exact h6
    · rename_i x7 h8
      refine Touch.step (ioStart_touch ..) rfl ?_
      exact Touch.refl _ _
  · exact Touch.refl _ _

theorem execNvmeWriteZeroes_touch {ctrl : Nat} {sq : Nat} {cmd : NvmeCmd} {s : State} : TouchOut 12080024025693315452949798563828241318408 s (execNvmeWriteZeroes ctrl sq cmd s) := by
  unfold execNvmeWriteZeroes
  refine TouchOut.step (nvmeIo_touch rfl (fun x0 x1 x2 => ?_)) (Within.refl _) ?_
  · split
    · rename_i x3 x4 h5
      have h6 : Touch 12080024025693315452949798563828241318408 x2 x4 := by
        refine TouchO.eq ?_ h5
        refine TouchO.step (ioCheck_touch) rfl ?_
        exact Touch.refl _ _
      exact h6
    · rename_i x7 h8
      refine Touch.step (ioStart_touch ..) rfl ?_
      exact Touch.refl _ _
  · exact Touch.refl _ _

theorem execNvmeDatasetManagement_touch {ctrl : Nat} {sq : Nat} {cmd : NvmeCmd} {s : State} : TouchOut 12080024025693315452949798563828241318408 s (execNvmeDatasetManagement ctrl sq cmd s) := by
  unfold execNvmeDatasetManagement
  refine TouchOut.step (nvmeIo_touch rfl (fun x0 x1 x2 => ?_)) (Within.refl _) ?_
  · extract_lets -merge +onlyGivenNames x3
    clear_value x3
    split
    · rename_i x4 x5 h6
      refine Touch.step (nvmeFail_touch ..) rfl ?_
      exact Touch.refl _ _
    · rename_i x7 h8
      refine Touch.ite ?_ ?_
      · refine Touch.step (nvmeError_touch ..) rfl ?_
        exact Touch.refl _ _
      · split
        · rename_i x9 x10 x11 h12
          have h13 : Touch 12080024025693315452949798563828241318408 x2 x11 := by
            refine TouchP.eq ?_ h12
            refine TouchP.step (nvmeRead_touch ..) rfl ?_
            exact Touch.refl _ _
          extract_lets -merge +onlyGivenNames x14
          clear_value x14
          refine Touch.ite ?_ ?_
          · refine Touch.step (nvmeFail_touch ..) rfl ?_
            exact h13
          · refine Touch.step (ioStart_touch ..) rfl ?_
            exact h13
  · exact Touch.refl _ _

theorem execNvmeFlush_touch {ctrl : Nat} {sq : Nat} {cmd : NvmeCmd} {s : State} : TouchOut 12080024025693315452949798563828241318408 s (execNvmeFlush ctrl sq cmd s) := by
  unfold execNvmeFlush
  refine TouchOut.step (nvmeIo_touch rfl (fun x0 x1 x2 => ?_)) (Within.refl _) ?_
  · extract_lets -merge +onlyGivenNames x3
    clear_value x3
    refine Touch.step (ioStart_touch ..) rfl ?_
    exact Touch.refl _ _
  · exact Touch.refl _ _

theorem execJournalEntrySealed_touch {entry : Nat} {s : State} : TouchOut 12080024025693315452949798563828241318408 s (execJournalEntrySealed entry s) := by
  unfold execJournalEntrySealed
  refine TouchOut.step (whenEngine_touch rfl (fun x0 => ?_)) (Within.refl _) ?_
  · split
    · rename_i x1 h2
      exact Touch.refl _ _
    · rename_i x3 x4 h5
      refine Touch.ite ?_ ?_
      · exact Touch.refl _ _
      · refine Touch.ite ?_ ?_
        · refine Touch.ite ?_ ?_
          · exact Touch.refl _ _
          · refine Touch.step (bump_touch ..) rfl ?_
            refine Touch.step (modSto_touch ..) rfl ?_
            exact Touch.refl _ _
        · extract_lets -merge +onlyGivenNames x6
          have h7 : Touch 12080024025693315452949798563828241318408 x0 x6 := by
            unfold x6
            refine Touch.step (modSto_touch ..) rfl ?_
            exact Touch.refl _ _
          clear_value x6
          refine Touch.step (stoAdvance_touch ..) rfl ?_
          refine Touch.step (emit_touch ..) rfl ?_
          exact h7
  · exact Touch.refl _ _

theorem execDestageComplete_touch {entry : Nat} {s : State} : TouchOut 12080024025693315452949798563828241318408 s (execDestageComplete entry s) := by
  unfold execDestageComplete
  refine TouchOut.step (whenEngine_touch rfl (fun x0 => ?_)) (Within.refl _) ?_
  · split
    · rename_i x1 h2
      exact Touch.refl _ _
    · rename_i x3 x4 h5
      extract_lets -merge +onlyGivenNames x6
      clear_value x6
      refine Touch.ite ?_ ?_
      · extract_lets -merge +onlyGivenNames x7
        have h8 : Touch 12080024025693315452949798563828241318408 x0 x7 := by
          unfold x7
          refine Touch.step (destage_touch ..) rfl ?_
          exact Touch.refl _ _
        clear_value x7
        refine Touch.step (stoAdvance_touch ..) rfl ?_
        refine Touch.step (modSto_touch ..) rfl ?_
        exact h8
      · exact Touch.refl _ _
  · exact Touch.refl _ _

theorem setHealth_touch {ns : Nat} {a1 : NsHealth} {s : State} : Touch 201327112 s (setHealth ns a1 s) := by
  unfold setHealth
  split
  · rename_i x0 x1 h2
    refine Touch.step (nsChanged_touch ..) rfl ?_
    refine Touch.step (modSto_touch ..) rfl ?_
    exact Touch.refl _ _
  · rename_i x3 h4
    exact Touch.refl _ _

theorem execBackingTimeout_touch {nsid : Nat} {s : State} : TouchOut 13441153493377069306803296993555314164232 s (execBackingTimeout nsid s) := by
  unfold execBackingTimeout
  refine TouchOut.step (whenEngine_touch rfl (fun x0 => ?_)) (Within.refl _) ?_
  · split
    · rename_i x1 h2
      exact Touch.refl _ _
    · rename_i x3 x4 h5
      refine Touch.ite ?_ ?_
      · exact Touch.refl _ _
      · extract_lets -merge +onlyGivenNames x6
        have h7 : Touch 13441153493377069306803296993555314164232 x0 x6 := by
          unfold x6
          refine Touch.step (bump_touch ..) rfl ?_
          exact Touch.refl _ _
        clear_value x6
        extract_lets -merge +onlyGivenNames x8
        have h9 : Touch 13441153493377069306803296993555314164232 x0 x8 := by
          unfold x8
          refine Touch.ite ?_ ?_
          · refine Touch.step (setHealth_touch ..) rfl ?_
            exact h7
          · exact h7
        clear_value x8
        refine Touch.step (stoAdvance_touch ..) rfl ?_
        refine Touch.foldl ?_ (fun x10 x11 h12 => ?_)
        · exact h9
        · refine Touch.step (ioEnd_touch ..) rfl ?_
          exact h12
  · exact Touch.refl _ _

theorem execBackingRecovered_touch {nsid : Nat} {s : State} : TouchOut 12080024025693315452949798563828241318408 s (execBackingRecovered nsid s) := by
  unfold execBackingRecovered
  refine TouchOut.step (whenEngine_touch rfl (fun x0 => ?_)) (Within.refl _) ?_
  · split
    · rename_i x1 x2 h3
      refine Touch.ite ?_ ?_
      · refine Touch.step (stoAdvance_touch ..) rfl ?_
        refine Touch.step (setHealth_touch ..) rfl ?_
        exact Touch.refl _ _
      · exact Touch.refl _ _
    · rename_i x4 h5
      exact Touch.refl _ _
  · exact Touch.refl _ _

theorem execBackingReadComplete_touch {nsid : Nat} {s : State} : TouchOut 12080024025693315452949798563828241318408 s (execBackingReadComplete nsid s) := by
  unfold execBackingReadComplete
  refine TouchOut.step (whenEngine_touch rfl (fun x0 => ?_)) (Within.refl _) ?_
  · split
    · rename_i x1 x2 x3 h4
      split
      · rename_i x5 x6 x7 x8 x9 x10 h11 h12
        extract_lets -merge +onlyGivenNames x13
        clear_value x13
        extract_lets -merge +onlyGivenNames x14
        have h15 : Touch 12080024025693315452949798563828241318408 x0 x14 := by
          unfold x14
          refine Touch.foldl ?_ (fun x16 x17 h18 => ?_)
          · exact Touch.refl _ _
          · refine Touch.ite ?_ ?_
            · exact h18
            · refine Touch.step (modSto_touch ..) rfl ?_
              refine Touch.step (copy_touch ..) rfl ?_
              exact h18
        clear_value x14
        refine Touch.step (cacheTrim_touch ..) rfl ?_
        refine Touch.step (stoAdvance_touch ..) rfl ?_
        refine Touch.step (serveNvmeRead_touch ..) rfl ?_
        exact h15
      · rename_i x19 x20 h21
        exact Touch.refl _ _
    · rename_i x22 h23
      exact Touch.refl _ _
  · exact Touch.refl _ _

theorem execJournalReplay_touch {s : State} : TouchOut 5992156713071504247596168637297417176012605813219944 s (execJournalReplay s) := by
  unfold execJournalReplay
  refine TouchOut.step (whenEngine_touch rfl (fun x0 => ?_)) (Within.refl _) ?_
  · refine Touch.ite ?_ ?_
    · exact Touch.refl _ _
    · extract_lets -merge +onlyGivenNames x1
      have h2 : Touch 5992156713071504247596168637297417176012605813219944 x0 x1 := by
        unfold x1
        refine Touch.step (modSto_touch ..) rfl ?_
        exact Touch.refl _ _
      clear_value x1
      refine Touch.step (stoAdvance_touch ..) rfl ?_
      refine Touch.foldl ?_ (fun x3 x4 h5 => ?_)
      · exact h2
      · extract_lets -merge +onlyGivenNames x6
        clear_value x6
        split
        · rename_i x7 x8 x9 h10
          have h11 : Touch 5992156713071504247596168637297417176012605813219944 x0 x9 := by
            refine TouchP.eq ?_ h10
            refine TouchP.step (draw_touch ..) rfl ?_
            exact h5
          split
          · rename_i x12 h13
            refine Touch.step (modSto_touch ..) rfl ?_
            exact h11
          · rename_i x14 x15 h16
            refine Touch.ite ?_ ?_
            · refine Touch.step (markUnreadable_touch ..) rfl ?_
              refine Touch.step (modSto_touch ..) rfl ?_
              exact h11
            · refine Touch.step (emit_touch ..) rfl ?_
              refine Touch.step (applyRange_touch ..) rfl ?_
              exact h11
  · exact Touch.refl _ _

theorem nsCreateReq_touch {q : NsReq} {s : State} : TouchP 67158024 s (nsCreateReq q s) := by
  unfold nsCreateReq
  extract_lets -merge +onlyGivenNames x0
  clear_value x0
  extract_lets -merge +onlyGivenNames x1
  clear_value x1
  refine TouchP.ite ?_ ?_
  · refine TouchP.step (refuseAt_touch ..) rfl ?_
    exact Touch.refl _ _
  · refine TouchP.ite ?_ ?_
    · refine TouchP.step (refuseAt_touch ..) rfl ?_
      exact Touch.refl _ _
    · refine TouchP.ite ?_ ?_
      · refine TouchP.step (refuseAt_touch ..) rfl ?_
        exact Touch.refl _ _
      · extract_lets -merge +onlyGivenNames x2
        clear_value x2
        extract_lets -merge +onlyGivenNames x3
        have h4 : Touch 67158024 s x3 := by
          unfold x3
          refine Touch.ite ?_ ?_
          · refine Touch.step (zeroRange_touch ..) rfl ?_
            exact Touch.refl _ _
          · exact Touch.refl _ _
        clear_value x3
        extract_lets -merge +onlyGivenNames x5
        have h6 : TouchP 67158024 s x5 := by
          unfold x5
          refine TouchP.step (accept_touch ..) rfl ?_
          refine Touch.step (modSto_touch ..) rfl ?_
          exact h4
        clear_value x5
        split
        · rename_i x7 h8
          extract_lets -merge +onlyGivenNames x9
          clear_value x9
          refine TouchP.ite ?_ ?_
          · refine TouchP.step (refuseAt_touch ..) rfl ?_
            exact Touch.refl _ _
          · refine TouchP.ite ?_ ?_
            · refine TouchP.step (refuseAt_touch ..) rfl ?_
              exact Touch.refl _ _
            · exact h6
        · rename_i x10 h11
          refine TouchP.ite ?_ ?_
          · refine TouchP.step (refuseAt_touch ..) rfl ?_
            exact Touch.refl _ _
          · refine TouchP.ite ?_ ?_
            · refine TouchP.step (refuseAt_touch ..) rfl ?_
              exact Touch.refl _ _
            · refine TouchP.ite ?_ ?_
              · refine TouchP.step (refuseAt_touch ..) rfl ?_
                exact Touch.refl _ _
              · refine TouchP.ite ?_ ?_
                · refine TouchP.step (refuseAt_touch ..) rfl ?_
                  exact Touch.refl _ _
                · refine TouchP.ite ?_ ?_
                  · refine TouchP.step (refuseAt_touch ..) rfl ?_
                    exact Touch.refl _ _
                  · exact h6

theorem execNsCreate_touch {c : Caller} {q : NsReq} {s : State} : TouchOut 201376392 s (execNsCreate c q s) := by
  unfold execNsCreate
  refine TouchOut.step (whenOn_touch rfl (fun x0 => ?_)) (Within.refl _) ?_
  · refine Touch.step (mbxServe_touch rfl (fun x1 x2 => ?_)) (Within.refl _) ?_
    · refine TouchP.step (nsCreateReq_touch ..) rfl ?_
      exact Touch.refl _ _
    · exact Touch.refl _ _
  · exact Touch.refl _ _

theorem nsDrop_touch {ns : Nat} {s : State} : Touch 12080024025693315452949798563828241318408 s (nsDrop ns s) := by
  unfold nsDrop
  extract_lets -merge +onlyGivenNames x0
  have h1 : Touch 12080024025693315452949798563828241318408 s x0 := by
    unfold x0
    refine Touch.step (nsChanged_touch ..) rfl ?_
    exact Touch.refl _ _
  clear_value x0
  extract_lets -merge +onlyGivenNames x2
  clear_value x2
  extract_lets -merge +onlyGivenNames x3
  have h4 : Touch 12080024025693315452949798563828241318408 s x3 := by
    unfold x3
    refine Touch.foldl ?_ (fun x5 x6 h7 => ?_)
    · exact h1
    · refine Touch.step (ioEnd_touch ..) rfl ?_
      exact h7
  clear_value x3
  extract_lets -merge +onlyGivenNames x8
  have h9 : Touch 12080024025693315452949798563828241318408 s x8 := by
    unfold x8
    refine Touch.foldl ?_ (fun x10 x11 h12 => ?_)
    · exact h4
    · refine Touch.ite ?_ ?_
      · refine Touch.step (destage_touch ..) rfl ?_
        exact h12
      · exact h12
  clear_value x8
  refine Touch.step (stoAdvance_touch ..) rfl ?_
  refine Touch.step (modSto_touch ..) rfl ?_
  exact h9

theorem execNsDestroy_touch {c : Caller} {nsid : Nat} {s : State} : TouchOut 12080024025693315452949798563828241318536 s (execNsDestroy c nsid s) := by
  unfold execNsDestroy
  refine TouchOut.step (whenOn_touch rfl (fun x0 => ?_)) (Within.refl _) ?_
  · refine Touch.step (mbxServe_touch rfl (fun x1 x2 => ?_)) (Within.refl _) ?_
    · refine TouchP.ite ?_ ?_
      · refine TouchP.step (refuseAt_touch ..) rfl ?_
        exact Touch.refl _ _
      · refine TouchP.step (accept_touch ..) rfl ?_
        refine Touch.step (nsDrop_touch ..) rfl ?_
        exact Touch.refl _ _
    · exact Touch.refl _ _
  · exact Touch.refl _ _

theorem execNsAttach_touch {c : Caller} {nsid : Nat} {ctrl : Nat} {s : State} : TouchOut 201327240 s (execNsAttach c nsid ctrl s) := by
  unfold execNsAttach
  refine TouchOut.step (whenOn_touch rfl (fun x0 => ?_)) (Within.refl _) ?_
  · refine Touch.step (mbxServe_touch rfl (fun x1 x2 => ?_)) (Within.refl _) ?_
    · split
      · rename_i x3 x4 x5 x6 h7 h8
        extract_lets -merge +onlyGivenNames x9
        clear_value x9
        refine TouchP.ite ?_ ?_
        · refine TouchP.step (accept_touch ..) rfl ?_
          exact Touch.refl _ _
        · refine TouchP.ite ?_ ?_
          · refine TouchP.step (refuseAt_touch ..) rfl ?_
            exact Touch.refl _ _
          · refine TouchP.step (accept_touch ..) rfl ?_
            refine Touch.step (nsChanged_touch ..) rfl ?_
            refine Touch.step (modSto_touch ..) rfl ?_
            exact Touch.refl _ _
      · rename_i x10 x11 h12
        refine TouchP.step (refuseAt_touch ..) rfl ?_
        exact Touch.refl _ _
      · rename_i x13 x14 h15 h16
        refine TouchP.step (refuseAt_touch ..) rfl ?_
        exact Touch.refl _ _
    · exact Touch.refl _ _
  · exact Touch.refl _ _

theorem execNsDetach_touch {c : Caller} {nsid : Nat} {ctrl : Nat} {s : State} : TouchOut 201327240 s (execNsDetach c nsid ctrl s) := by
  unfold execNsDetach
  refine TouchOut.step (whenOn_touch rfl (fun x0 => ?_)) (Within.refl _) ?_
  · refine Touch.step (mbxServe_touch rfl (fun x1 x2 => ?_)) (Within.refl _) ?_
    · split
      · rename_i x3 h4
        refine TouchP.step (refuseAt_touch ..) rfl ?_
        exact Touch.refl _ _
      · rename_i x5 x6 h7
        refine TouchP.ite ?_ ?_
        · refine TouchP.step (refuseAt_touch ..) rfl ?_
          exact Touch.refl _ _
        · extract_lets -merge +onlyGivenNames x8
          clear_value x8
          refine TouchP.step (accept_touch ..) rfl ?_
          refine Touch.step (nsLeave_touch ..) rfl ?_
          refine Touch.foldl ?_ (fun x9 x10 h11 => ?_)
          · exact Touch.refl _ _
          · refine Touch.step (ioEnd_touch ..) rfl ?_
            exact h11
    · exact Touch.refl _ _
  · exact Touch.refl _ _

theorem execTargetRegister_touch {c : Caller} {entry : Nat} {addr : Nat} {s : State} : TouchOut 201327232 s (execTargetRegister c entry addr s) := by
  unfold execTargetRegister
  refine TouchOut.step (whenOn_touch rfl (fun x0 => ?_)) (Within.refl _) ?_
  · refine Touch.step (mbxServe_touch rfl (fun x1 x2 => ?_)) (Within.refl _) ?_
    · refine TouchP.ite ?_ ?_
      · refine TouchP.step (refuseAt_touch ..) rfl ?_
        exact Touch.refl _ _
      · refine TouchP.step (accept_touch ..) rfl ?_
        refine Touch.step (modSto_touch ..) rfl ?_
        exact Touch.refl _ _
    · exact Touch.refl _ _
  · exact Touch.refl _ _

theorem execNsExport_touch {c : Caller} {nsid : Nat} {peers : List Nat} {s : State} : TouchOut 201327232 s (execNsExport c nsid peers s) := by
  unfold execNsExport
  refine TouchOut.step (whenOn_touch rfl (fun x0 => ?_)) (Within.refl _) ?_
  · refine Touch.step (mbxServe_touch rfl (fun x1 x2 => ?_)) (Within.refl _) ?_
    · split
      · rename_i x3 h4
        refine TouchP.step (refuseAt_touch ..) rfl ?_
        exact Touch.refl _ _
      · rename_i x5 x6 h7
        refine TouchP.step (accept_touch ..) rfl ?_
        refine Touch.step (modSto_touch ..) rfl ?_
        exact Touch.refl _ _
    · exact Touch.refl _ _
  · exact Touch.refl _ _

theorem execAccelCtrlCreate_touch {c : Caller} {sub : Nat} {cplAddr : Nat} {cplData : Nat} {qpairs : Nat} {s : State} : TouchOut 469762688 s (execAccelCtrlCreate c sub cplAddr cplData qpairs s) := by
  unfold execAccelCtrlCreate
  refine TouchOut.step (whenOn_touch rfl (fun x0 => ?_)) (Within.refl _) ?_
  · refine Touch.step (mbxServe_touch rfl (fun x1 x2 => ?_)) (Within.refl _) ?_
    · extract_lets -merge +onlyGivenNames x3
      clear_value x3
      extract_lets -merge +onlyGivenNames x4
      clear_value x4
      split
      · rename_i x5 h6
        refine TouchP.step (refuse_touch ..) rfl ?_
        exact Touch.refl _ _
      · rename_i x7 x8 h9
        refine TouchP.ite ?_ ?_
        · refine TouchP.step (refuseAt_touch ..) rfl ?_
          exact Touch.refl _ _
        · refine TouchP.ite ?_ ?_
          · refine TouchP.step (refuseAt_touch ..) rfl ?_
            exact Touch.refl _ _
          · refine TouchP.ite ?_ ?_
            · refine TouchP.step (refuseAt_touch ..) rfl ?_
              exact Touch.refl _ _
            · refine TouchP.ite ?_ ?_
              · refine TouchP.step (refuseAt_touch ..) rfl ?_
                exact Touch.refl _ _
              · split
                · rename_i x10 x11 x12 h13
                  have h14 : Touch 469762688 x2 x12 := by
                    refine TouchP.eq ?_ h13
                    refine TouchP.step (draw_touch ..) rfl ?_
                    exact Touch.refl _ _
                  refine TouchP.step (accept_touch ..) rfl ?_
                  refine Touch.step (setNvme_touch ..) rfl ?_
                  exact h14
    · exact Touch.refl _ _
  · exact Touch.refl _ _

theorem execEccScrubRead_touch {addr : Nat} {res : EccResult} {s : State} : TouchOut 29937402393596403071365103053092937069045677362831976 s (execEccScrubRead addr res s) := by
  unfold execEccScrubRead
  refine TouchOut.step (whenOn_touch rfl (fun x0 => ?_)) (Within.refl _) ?_
  · extract_lets -merge +onlyGivenNames x1
    clear_value x1
    split
    · rename_i x2
      exact Touch.refl _ _
    · rename_i x3
      extract_lets -merge +onlyGivenNames x4
      subst x4
      extract_lets -merge +onlyGivenNames x5
      have h6 : Touch 29937402393596403071365103053092937069045677362831976 x0 x5 := by
        unfold x5
        refine Touch.step (t := x0) (Touch.upd (F := 32768) rfl (Or.inr rfl)) rfl ?_
        exact Touch.refl _ _
      clear_value x5
      split
      · rename_i x7 x8 h9
        refine Touch.step (pmcAdd_touch ..) rfl ?_
        exact h6
      · rename_i x10 x11 h12
        refine Touch.step (correctedError_touch ..) rfl ?_
        refine Touch.step (pmcAdd_touch ..) rfl ?_
        exact h6
      · rename_i x13 h14 h15
        exact h6
    · rename_i x16
      refine Touch.ite ?_ ?_
      · exact Touch.refl _ _
      · extract_lets -merge +onlyGivenNames x17
        subst x17
        extract_lets -merge +onlyGivenNames x18
        have h19 : Touch 29937402393596403071365103053092937069045677362831976 x0 x18 := by
          unfold x18
          refine Touch.step (eccReport_touch ..) rfl ?_
          refine Touch.step (t := x0) (Touch.upd (F := 32768) rfl (Or.inr rfl)) rfl ?_
          exact Touch.refl _ _
        clear_value x18
        refine Touch.ite ?_ ?_
        · refine Touch.step (cacheUncorrectable_touch ..) rfl ?_
          exact h19
        · exact h19
  · exact Touch.refl _ _

theorem execDdrUncorrectable_touch {off : Nat} {s : State} : TouchOut 5992159567566889659515930753869356075002878578713192 s (execDdrUncorrectable off s) := by
  unfold execDdrUncorrectable
  refine TouchOut.step (whenOn_touch rfl (fun x0 => ?_)) (Within.refl _) ?_
  · refine Touch.ite ?_ ?_
    · exact Touch.refl _ _
    · extract_lets -merge +onlyGivenNames x1
      clear_value x1
      extract_lets -merge +onlyGivenNames x2
      subst x2
      extract_lets -merge +onlyGivenNames x3
      have h4 : Touch 5992159567566889659515930753869356075002878578713192 x0 x3 := by
        unfold x3
        refine Touch.ite ?_ ?_
        · exact Touch.refl _ _
        · refine Touch.step (t := x0) (Touch.upd (F := 32768) rfl (Or.inr rfl)) rfl ?_
          exact Touch.refl _ _
      clear_value x3
      refine Touch.step (cacheUncorrectable_touch ..) rfl ?_
      refine Touch.step (eccReport_touch ..) rfl ?_
      exact h4
  · exact Touch.refl _ _

theorem execDeepTargetSet_touch {c : Caller} {domain : Nat} {nsid : Nat} {offset : Nat} {s : State} : TouchOut 134349440 s (execDeepTargetSet c domain nsid offset s) := by
  unfold execDeepTargetSet
  refine TouchOut.step (whenOn_touch rfl (fun x0 => ?_)) (Within.refl _) ?_
  · refine Touch.step (mbxServe_touch rfl (fun x1 x2 => ?_)) (Within.refl _) ?_
    · refine TouchP.step (withOwnDom_touch rfl (fun x3 x4 => ?_)) (Within.refl _) ?_
      · split
        · rename_i x5 h6
          refine TouchP.step (refuseAt_touch ..) rfl ?_
          exact Touch.refl _ _
        · rename_i x7 x8 h9
          refine TouchP.ite ?_ ?_
          · refine TouchP.step (refuseAt_touch ..) rfl ?_
            exact Touch.refl _ _
          · refine TouchP.step (accept_touch ..) rfl ?_
            refine Touch.step (setDom_touch ..) rfl ?_
            exact Touch.refl _ _
      · exact Touch.refl _ _
    · exact Touch.refl _ _
  · exact Touch.refl _ _

theorem mbxRetry_touch {c : Caller} {s : State} : Touch 134218368 s (mbxRetry c s) := by
  unfold mbxRetry
  extract_lets -merge +onlyGivenNames x0
  clear_value x0
  refine Touch.ite ?_ ?_
  · refine Touch.step (mbxReply_touch ..) rfl ?_
    exact Touch.refl _ _
  · exact Touch.refl _ _

theorem irqDiscard_touch {c : Caller} {s : State} : Touch 512 s (irqDiscard c s) := by
  unfold irqDiscard
  refine Touch.step (t := s) (Touch.upd (F := 512) rfl (Or.inr rfl)) rfl ?_
  exact Touch.refl _ _

theorem sliceUnits_touch {n : Nat} {s : State} : Touch 24519928653854221733733552434404946937899825951138378344 s (sliceUnits n s) := by
  unfold sliceUnits
  extract_lets -merge +onlyGivenNames x0
  clear_value x0
  extract_lets -merge +onlyGivenNames x1
  have h2 : Touch 24519928653854221733733552434404946937899825951138378344 s x1 := by
    unfold x1
    refine Touch.foldl ?_ (fun x3 x4 h5 => ?_)
    · exact Touch.refl _ _
    · refine Touch.step (squashPart_touch ..) rfl ?_
      exact h5
  clear_value x1
  extract_lets -merge +onlyGivenNames x6
  subst x6
  extract_lets -merge +onlyGivenNames x7
  have h8 : Touch 24519928653854221733733552434404946937899825951138378344 s x7 := by
    unfold x7
    refine Touch.step (t := x1) (Touch.upd (F := 524288) rfl (Or.inr rfl)) rfl ?_
    exact h2
  clear_value x7
  extract_lets -merge +onlyGivenNames x9
  have h10 : Touch 24519928653854221733733552434404946937899825951138378344 s x9 := by
    unfold x9
    refine Touch.step (nvmeReset_touch ..) rfl ?_
    exact h8
  clear_value x9
  extract_lets -merge +onlyGivenNames x11
  have h12 : Touch 24519928653854221733733552434404946937899825951138378344 s x11 := by
    unfold x11
    refine Touch.step (secSliceClear_touch ..) rfl ?_
    refine Touch.step (vrmtSliceEnd_touch ..) rfl ?_
    exact h10
  clear_value x11
  refine Touch.step (cmpRelease_touch ..) rfl ?_
  refine Touch.step (irqDiscard_touch ..) rfl ?_
  exact h12

theorem sliceResetStart_touch {n : Nat} {s : State} : Touch 24519928653854221733733552434404946937899825951139427048 s (sliceResetStart n s) := by
  unfold sliceResetStart
  extract_lets -merge +onlyGivenNames x0
  clear_value x0
  extract_lets -merge +onlyGivenNames x1
  have h2 : Touch 24519928653854221733733552434404946937899825951139427048 s x1 := by
    unfold x1
    refine Touch.step (setSlice_touch ..) rfl ?_
    exact Touch.refl _ _
  clear_value x1
  extract_lets -merge +onlyGivenNames x3
  have h4 : Touch 24519928653854221733733552434404946937899825951139427048 s x3 := by
    unfold x3
    refine Touch.step (sliceUnits_touch ..) rfl ?_
    exact h2
  clear_value x3
  refine Touch.step (mbxForget_touch ..) rfl ?_
  refine Touch.step (mbxRetry_touch ..) rfl ?_
  exact h4

theorem quarantineReads_touch {p : BusRead → Bool} {s : State} : Touch 524288 s (quarantineReads p s) := by
  unfold quarantineReads
  refine Touch.step (t := s) (Touch.upd (F := 524288) rfl (Or.inr rfl)) rfl ?_
  exact Touch.refl _ _

theorem sliceResetEnd_touch {n : Nat} {s : State} : Touch 135266944 s (sliceResetEnd n s) := by
  unfold sliceResetEnd
  extract_lets -merge +onlyGivenNames x0
  clear_value x0
  extract_lets -merge +onlyGivenNames x1
  have h2 : Touch 135266944 s x1 := by
    unfold x1
    refine Touch.step (setSlice_touch ..) rfl ?_
    exact Touch.refl _ _
  clear_value x1
  refine Touch.ite ?_ ?_
  · exact h2
  · refine Touch.foldl ?_ (fun x3 x4 h5 => ?_)
    · exact h2
    · refine Touch.step (mbxReply_touch ..) rfl ?_
      exact h5

theorem sliceCreateReq_touch {q : SliceReq} {s : State} : TouchP 8665580274997661924294918144 s (sliceCreateReq q s) := by
  unfold sliceCreateReq
  split
  · rename_i x0 x1 x2 x3 h4
    refine TouchP.step (refuseAt_touch ..) rfl ?_
    exact Touch.refl _ _
  · rename_i x5 x6 h7 h8
    refine TouchP.step (refuse_touch ..) rfl ?_
    exact Touch.refl _ _
  · rename_i x9 x10 x11 h12 h13
    extract_lets -merge +onlyGivenNames x14
    have h15 : Touch 8665580274997661924294918144 s x14 := by
      unfold x14
      refine Touch.step (setSlice_touch ..) rfl ?_
      exact Touch.refl _ _
    clear_value x14
    refine TouchP.step (accept_touch ..) rfl ?_
    refine Touch.step (clearReg_touch ..) rfl ?_
    refine Touch.step (clearReg_touch ..) rfl ?_
    refine Touch.step (clearReg_touch ..) rfl ?_
    exact h15

theorem execSliceCreate_touch {c : Caller} {q : SliceReq} {s : State} : TouchOut 8665580274997661924429136512 s (execSliceCreate c q s) := by
  unfold execSliceCreate
  refine TouchOut.step (whenOn_touch rfl (fun x0 => ?_)) (Within.refl _) ?_
  · refine Touch.step (mbxServe_touch rfl (fun x1 x2 => ?_)) (Within.refl _) ?_
    · refine TouchP.step (sliceCreateReq_touch ..) rfl ?_
      exact Touch.refl _ _
    · exact Touch.refl _ _
  · exact Touch.refl _ _

theorem sliceDestroyReq_touch {c : Caller} {n : Nat} {force : Bool} {s : State} : TouchP 24519928653854221733733552434404946937899825951139689192 s (sliceDestroyReq c n force s) := by
  unfold sliceDestroyReq
  refine TouchP.ite ?_ ?_
  · refine TouchP.step (refuseAt_touch ..) rfl ?_
    exact Touch.refl _ _
  · refine TouchP.ite ?_ ?_
    · refine TouchP.step (refuse_touch ..) rfl ?_
      exact Touch.refl _ _
    · extract_lets -merge +onlyGivenNames x0
      have h1 : Touch 24519928653854221733733552434404946937899825951139689192 s x0 := by
        unfold x0
        refine Touch.foldl ?_ (fun x2 x3 h4 => ?_)
        · exact Touch.refl _ _
        · refine Touch.step (cadCtlWrite_touch ..) rfl ?_
          exact h4
      clear_value x0
      extract_lets -merge +onlyGivenNames x5
      clear_value x5
      extract_lets -merge +onlyGivenNames x6
      have h7 : Touch 24519928653854221733733552434404946937899825951139689192 s x6 := by
        unfold x6
        refine Touch.step (setSlice_touch ..) rfl ?_
        exact h1
      clear_value x6
      refine TouchP.mk' ?_
      refine Touch.ite ?_ ?_
      · exact h7
      · refine Touch.step (sliceResetStart_touch ..) rfl ?_
        exact h7

theorem execSliceDestroy_touch {c : Caller} {n : Nat} {force : Bool} {s : State} : TouchOut 24519928653854221733733552434404946937899825951139689192 s (execSliceDestroy c n force s) := by
  unfold execSliceDestroy
  refine TouchOut.step (whenOn_touch rfl (fun x0 => ?_)) (Within.refl _) ?_
  · refine Touch.step (mbxServe_touch rfl (fun x1 x2 => ?_)) (Within.refl _) ?_
    · refine TouchP.step (sliceDestroyReq_touch ..) rfl ?_
      exact Touch.refl _ _
    · exact Touch.refl _ _
  · exact Touch.refl _ _

theorem sliceGone_touch {n : Nat} {s : State} : Touch 24519928653854221733733552434404946937899825951141524200 s (sliceGone n s) := by
  unfold sliceGone
  extract_lets -merge +onlyGivenNames x0
  clear_value x0
  extract_lets -merge +onlyGivenNames x1
  have h2 : Touch 24519928653854221733733552434404946937899825951141524200 s x1 := by
    unfold x1
    refine Touch.foldl ?_ (fun x3 x4 h5 => ?_)
    · exact Touch.refl _ _
    · refine Touch.step (destroyPart_touch ..) rfl ?_
      exact h5
  clear_value x1
  extract_lets -merge +onlyGivenNames x6
  have h7 : Touch 24519928653854221733733552434404946937899825951141524200 s x6 := by
    unfold x6
    refine Touch.foldl ?_ (fun x8 x9 h10 => ?_)
    · exact h2
    · refine Touch.step (domainDrop_touch ..) rfl ?_
      exact h10
  clear_value x6
  extract_lets -merge +onlyGivenNames x11
  subst x11
  extract_lets -merge +onlyGivenNames x12
  have h13 : Touch 24519928653854221733733552434404946937899825951141524200 s x12 := by
    unfold x12
    refine Touch.step (t := x6) (Touch.upd (F := 512) rfl (Or.inr rfl)) rfl ?_
    exact h7
  clear_value x12
  extract_lets -merge +onlyGivenNames x14
  have h15 : Touch 24519928653854221733733552434404946937899825951141524200 s x14 := by
    unfold x14
    split
    · rename_i x16 x17 h18
      refine Touch.step (zeroRange_touch ..) rfl ?_
      exact h13
    · rename_i x19 h20
      exact h13
  clear_value x14
  extract_lets -merge +onlyGivenNames x21
  have h22 : Touch 24519928653854221733733552434404946937899825951141524200 s x21 := by
    unfold x21
    refine Touch.step (secSliceClear_touch ..) rfl ?_
    refine Touch.step (vrmtSliceEnd_touch ..) rfl ?_
    refine Touch.step (nvmeGone_touch ..) rfl ?_
    exact h15
  clear_value x21
  extract_lets -merge +onlyGivenNames x23
  have h24 : Touch 24519928653854221733733552434404946937899825951141524200 s x23 := by
    unfold x23
    refine Touch.step (cmpRelease_touch ..) rfl ?_
    exact h22
  clear_value x23
  extract_lets -merge +onlyGivenNames x25
  have h26 : Touch 24519928653854221733733552434404946937899825951141524200 s x25 := by
    unfold x25
    refine Touch.step (t := x23) (Touch.upd (F := 3145856) rfl (Or.inr rfl)) rfl ?_
    exact h24
  clear_value x25
  refine Touch.foldl ?_ (fun x27 x28 h29 => ?_)
  · exact h26
  · refine Touch.step (mbxReply_touch ..) rfl ?_
    exact h29

theorem execSliceDestroyComplete_touch {n : Nat} {s : State} : TouchOut 24519928653854221733733552434404946937899825951141524200 s (execSliceDestroyComplete n s) := by
  unfold execSliceDestroyComplete
  refine TouchOut.step (whenOn_touch rfl (fun x0 => ?_)) (Within.refl _) ?_
  · extract_lets -merge +onlyGivenNames x1
    clear_value x1
    refine Touch.ite ?_ ?_
    · refine Touch.step (sliceGone_touch ..) rfl ?_
      exact Touch.refl _ _
    · exact Touch.refl _ _
  · exact Touch.refl _ _

theorem sliceResetReq_touch {c : Caller} {n : Nat} {s : State} : TouchP 24519928653854221733733552434404946937899825951139427048 s (sliceResetReq c n s) := by
  unfold sliceResetReq
  refine TouchP.ite ?_ ?_
  · refine TouchP.step (refuseAt_touch ..) rfl ?_
    exact Touch.refl _ _
  · extract_lets -merge +onlyGivenNames x0
    clear_value x0
    extract_lets -merge +onlyGivenNames x1
    have h2 : Touch 24519928653854221733733552434404946937899825951139427048 s x1 := by
      unfold x1
      refine Touch.step (setSlice_touch ..) rfl ?_
      exact Touch.refl _ _
    clear_value x1
    refine TouchP.mk' ?_
    refine Touch.ite ?_ ?_
    · exact h2
    · refine Touch.step (sliceResetStart_touch ..) rfl ?_
      exact h2

theorem execSliceReset_touch {c : Caller} {n : Nat} {s : State} : TouchOut 24519928653854221733733552434404946937899825951139427048 s (execSliceReset c n s) := by
  unfold execSliceReset
  refine TouchOut.step (whenOn_touch rfl (fun x0 => ?_)) (Within.refl _) ?_
  · refine Touch.step (mbxServe_touch rfl (fun x1 x2 => ?_)) (Within.refl _) ?_
    · refine TouchP.step (sliceResetReq_touch ..) rfl ?_
      exact Touch.refl _ _
    · exact Touch.refl _ _
  · exact Touch.refl _ _

theorem execSlcReset_touch {n : Nat} {v : Word} {s : State} : TouchOut 24519928653854221733733552434404946937899825951139427048 s (execSlcReset n v s) := by
  unfold execSlcReset
  refine TouchOut.step (whenPage_touch rfl (fun x0 => ?_)) (Within.refl _) ?_
  · refine Touch.ite ?_ ?_
    · refine Touch.step (pageIgnored_touch ..) rfl ?_
      exact Touch.refl _ _
    · refine Touch.ite ?_ ?_
      · exact Touch.refl _ _
      · refine Touch.step (sliceResetStart_touch ..) rfl ?_
        exact Touch.refl _ _
  · exact Touch.refl _ _

theorem execSliceResetComplete_touch {n : Nat} {s : State} : TouchOut 6189700196426901374631412352 s (execSliceResetComplete n s) := by
  unfold execSliceResetComplete
  refine TouchOut.step (whenOn_touch rfl (fun x0 => ?_)) (Within.refl _) ?_
  · refine Touch.ite ?_ ?_
    · extract_lets -merge +onlyGivenNames x1
      have h2 : Touch 6189700196426901374631412352 x0 x1 := by
        unfold x1
        refine Touch.step (quarantineReads_touch ..) rfl ?_
        exact Touch.refl _ _
      clear_value x1
      extract_lets -merge +onlyGivenNames x3
      have h4 : Touch 6189700196426901374631412352 x0 x3 := by
        unfold x3
        refine Touch.step (bump_touch ..) rfl ?_
        refine Touch.step (setFld_touch ..) rfl ?_
        exact h2
      clear_value x3
      refine Touch.step (mbxEvent_touch ..) rfl ?_
      refine Touch.step (sliceResetEnd_touch ..) rfl ?_
      exact h4
    · exact Touch.refl _ _
  · exact Touch.refl _ _

theorem irqEntryReq_touch {q : IrqEntryReq} {s : State} : TouchP 134218240 s (irqEntryReq q s) := by
  unfold irqEntryReq
  extract_lets -merge +onlyGivenNames x0
  clear_value x0
  extract_lets -merge +onlyGivenNames x1
  clear_value x1
  extract_lets -merge +onlyGivenNames x2
  clear_value x2
  extract_lets -merge +onlyGivenNames x3
  clear_value x3
  refine TouchP.ite ?_ ?_
  · refine TouchP.step (refuseAt_touch ..) rfl ?_
    exact Touch.refl _ _
  · refine TouchP.ite ?_ ?_
    · refine TouchP.step (refuse_touch ..) rfl ?_
      exact Touch.refl _ _
    · refine TouchP.ite ?_ ?_
      · refine TouchP.step (refuseAt_touch ..) rfl ?_
        exact Touch.refl _ _
      · refine TouchP.ite ?_ ?_
        · refine TouchP.step (refuseAt_touch ..) rfl ?_
          exact Touch.refl _ _
        · refine TouchP.ite ?_ ?_
          · refine TouchP.step (refuseAt_touch ..) rfl ?_
            exact Touch.refl _ _
          · refine TouchP.ite ?_ ?_
            · refine TouchP.step (refuseAt_touch ..) rfl ?_
              exact Touch.refl _ _
            · extract_lets -merge +onlyGivenNames x4
              clear_value x4
              extract_lets -merge +onlyGivenNames x5
              clear_value x5
              extract_lets -merge +onlyGivenNames x6
              clear_value x6
              extract_lets -merge +onlyGivenNames x7
              clear_value x7
              extract_lets -merge +onlyGivenNames x8
              clear_value x8
              extract_lets -merge +onlyGivenNames x9
              subst x9
              extract_lets -merge +onlyGivenNames x10
              have h11 : Touch 134218240 s x10 := by
                unfold x10
                refine Touch.step (t := s) (Touch.upd (F := 512) rfl (Or.inr rfl)) rfl ?_
                exact Touch.refl _ _
              clear_value x10
              refine TouchP.step (accept_touch ..) rfl ?_
              refine Touch.ite ?_ ?_
              · refine Touch.step (irqSend_touch ..) rfl ?_
                exact h11
              · exact h11

theorem execIrqEntrySet_touch {c : Caller} {q : IrqEntryReq} {s : State} : TouchOut 134218368 s (execIrqEntrySet c q s) := by
  unfold execIrqEntrySet
  refine TouchOut.step (whenOn_touch rfl (fun x0 => ?_)) (Within.refl _) ?_
  · refine Touch.step (mbxServe_touch rfl (fun x1 x2 => ?_)) (Within.refl _) ?_
    · refine TouchP.step (irqEntryReq_touch ..) rfl ?_
      exact Touch.refl _ _
    · exact Touch.refl _ _
  · exact Touch.refl _ _

theorem hostWindowReq_touch {c : Caller} {q : HostWindowReq} {s : State} : TouchP 2097152 s (hostWindowReq c q s) := by
  unfold hostWindowReq
  extract_lets -merge +onlyGivenNames x0
  clear_value x0
  refine TouchP.ite ?_ ?_
  · refine TouchP.step (refuse_touch ..) rfl ?_
    exact Touch.refl _ _
  · refine TouchP.ite ?_ ?_
    · refine TouchP.step (refuseAt_touch ..) rfl ?_
      exact Touch.refl _ _
    · refine TouchP.ite ?_ ?_
      · refine TouchP.step (refuseAt_touch ..) rfl ?_
        exact Touch.refl _ _
      · refine TouchP.ite ?_ ?_
        · refine TouchP.step (refuseAt_touch ..) rfl ?_
          exact Touch.refl _ _
        · refine TouchP.ite ?_ ?_
          · refine TouchP.step (refuseAt_touch ..) rfl ?_
            exact Touch.refl _ _
          · refine TouchP.step (accept_touch ..) rfl ?_
            refine Touch.step (t := s) (Touch.upd (F := 2097152) rfl (Or.inr rfl)) rfl ?_
            exact Touch.refl _ _

theorem execHostWindowMap_touch {c : Caller} {q : HostWindowReq} {s : State} : TouchOut 136315520 s (execHostWindowMap c q s) := by
  unfold execHostWindowMap
  refine TouchOut.step (whenOn_touch rfl (fun x0 => ?_)) (Within.refl _) ?_
  · refine Touch.step (mbxServe_touch rfl (fun x1 x2 => ?_)) (Within.refl _) ?_
    · refine TouchP.step (hostWindowReq_touch ..) rfl ?_
      exact Touch.refl _ _
    · exact Touch.refl _ _
  · exact Touch.refl _ _

theorem execHostWindowUnmap_touch {c : Caller} {array : Nat} {s : State} : TouchOut 136315520 s (execHostWindowUnmap c array s) := by
  unfold execHostWindowUnmap
  refine TouchOut.step (whenOn_touch rfl (fun x0 => ?_)) (Within.refl _) ?_
  · refine Touch.step (mbxServe_touch rfl (fun x1 x2 => ?_)) (Within.refl _) ?_
    · extract_lets -merge +onlyGivenNames x3
      clear_value x3
      refine TouchP.ite ?_ ?_
      · refine TouchP.step (refuse_touch ..) rfl ?_
        exact Touch.refl _ _
      · refine TouchP.ite ?_ ?_
        · refine TouchP.step (accept_touch ..) rfl ?_
          refine Touch.step (t := x2) (Touch.upd (F := 2097152) rfl (Or.inr rfl)) rfl ?_
          exact Touch.refl _ _
        · refine TouchP.step (refuseAt_touch ..) rfl ?_
          exact Touch.refl _ _
    · exact Touch.refl _ _
  · exact Touch.refl _ _

theorem aerLog_touch {f : Pf} {bit : Nat} {s : State} : Touch 524288 s (aerLog f bit s) := by
  unfold aerLog
  refine Touch.step (t := s) (Touch.upd (F := 524288) rfl (Or.inr rfl)) rfl ?_
  exact Touch.refl _ _

theorem loadDone_touch {id : Nat} {k : LoadCont} {data : List Byte} {s : State} : Touch 16384 s (loadDone id k data s) := by
  unfold loadDone
  extract_lets -merge +onlyGivenNames x0
  clear_value x0
  extract_lets -merge +onlyGivenNames x1
  clear_value x1
  refine Touch.step (modCore_touch ..) rfl ?_
  exact Touch.refl _ _

theorem endUse_touch {r : BusRead} {st : Status} {data : List Byte} {s : State} : Touch 24519928653854221733733552434404946937899825951046099560 s (endUse r st data s) := by
  unfold endUse
  refine Touch.ite ?_ ?_
  · exact Touch.refl _ _
  · split
    · rename_i x0 x1 x2 h3
      extract_lets -merge +onlyGivenNames x4
      clear_value x4
      refine Touch.ite ?_ ?_
      · refine Touch.ite ?_ ?_
        · refine Touch.step (loadDone_touch ..) rfl ?_
          exact Touch.refl _ _
        · refine Touch.step (excEnter_touch ..) rfl ?_
          exact Touch.refl _ _
      · exact Touch.refl _ _
    · rename_i x5 x6 x7 h8
      refine Touch.step (dmaFinishRead_touch ..) rfl ?_
      exact Touch.refl _ _

theorem dropRead_touch {r : BusRead} {s : State} : Touch 524288 s (dropRead r s) := by
  unfold dropRead
  refine Touch.step (t := s) (Touch.upd (F := 524288) rfl (Or.inr rfl)) rfl ?_
  exact Touch.refl _ _

theorem endReads_touch {p : BusRead → Bool} {st : Status} {keep : Bool} {s : State} : Touch 24519928653854221733733552434404946937899825951046099560 s (endReads p st keep s) := by
  unfold endReads
  extract_lets -merge +onlyGivenNames x0
  clear_value x0
  extract_lets -merge +onlyGivenNames x1
  subst x1
  extract_lets -merge +onlyGivenNames x2
  have h3 : Touch 24519928653854221733733552434404946937899825951046099560 s x2 := by
    unfold x2
    refine Touch.step (t := s) (Touch.upd (F := 524288) rfl (Or.inr rfl)) rfl ?_
    exact Touch.refl _ _
  clear_value x2
  refine Touch.foldl ?_ (fun x4 x5 h6 => ?_)
  · exact h3
  · refine Touch.step (endUse_touch ..) rfl ?_
    exact h6

theorem execCompletionTimeout_touch {l : Link} {tag : Nat} {s : State} : TouchOut 24519928653854221733733552434404946937899825951046099560 s (execCompletionTimeout l tag s) := by
  unfold execCompletionTimeout
  refine TouchOut.step (whenMain_touch rfl (fun x0 => ?_)) (Within.refl _) ?_
  · split
    · rename_i x1 h2
      exact Touch.refl _ _
    · rename_i x3 x4 h5
      extract_lets -merge +onlyGivenNames x6
      clear_value x6
      extract_lets -merge +onlyGivenNames x7
      have h8 : Touch 24519928653854221733733552434404946937899825951046099560 x0 x7 := by
        unfold x7
        refine Touch.step (bump_touch ..) rfl ?_
        refine Touch.step (dropRead_touch ..) rfl ?_
        exact Touch.refl _ _
      clear_value x7
      extract_lets -merge +onlyGivenNames x9
      have h10 : Touch 24519928653854221733733552434404946937899825951046099560 x0 x9 := by
        unfold x9
        refine Touch.ite ?_ ?_
        · exact h8
        · refine Touch.step (aerLog_touch ..) rfl ?_
          exact h8
      clear_value x9
      extract_lets -merge +onlyGivenNames x11
      subst x11
      extract_lets -merge +onlyGivenNames x12
      have h13 : Touch 24519928653854221733733552434404946937899825951046099560 x0 x12 := by
        unfold x12
        refine Touch.step (t := x9) (Touch.upd (F := 524288) rfl (Or.inr rfl)) rfl ?_
        exact h10
      clear_value x12
      refine Touch.step (endUse_touch ..) rfl ?_
      exact h13
  · exact Touch.refl _ _

theorem lateCompletion_touch {l : Link} {s : State} : Touch 5992156713056701964635107968879265291261857789124704 s (lateCompletion l s) := by
  unfold lateCompletion
  refine Touch.step (log_touch ..) rfl ?_
  refine Touch.step (aerLog_touch ..) rfl ?_
  refine Touch.step (bump_touch ..) rfl ?_
  exact Touch.refl _ _

theorem execLateCompletion_touch {l : Link} {tag : Nat} {s : State} : TouchOut 5992156713056701964635107968879265291261857789124704 s (execLateCompletion l tag s) := by
  unfold execLateCompletion
  refine TouchOut.step (whenMain_touch rfl (fun x0 => ?_)) (Within.refl _) ?_
  · refine Touch.ite ?_ ?_
    · exact Touch.refl _ _
    · refine Touch.step (lateCompletion_touch ..) rfl ?_
      exact Touch.refl _ _
  · exact Touch.refl _ _

theorem execReadCompletionReceived_touch {l : Link} {tag : Nat} {st : CplStatus} {last : Bool} {data : List Byte} {s : State} : TouchOut 24519928653854221733733552434404946937899825951046099560 s (execReadCompletionReceived l tag st last data s) := by
  unfold execReadCompletionReceived
  refine TouchOut.step (whenMain_touch rfl (fun x0 => ?_)) (Within.refl _) ?_
  · split
    · rename_i x1 h2
      refine Touch.step (lateCompletion_touch ..) rfl ?_
      exact Touch.refl _ _
    · rename_i x3 x4 h5
      refine Touch.ite ?_ ?_
      · refine Touch.step (endUse_touch ..) rfl ?_
        refine Touch.step (dropRead_touch ..) rfl ?_
        exact Touch.refl _ _
      · extract_lets -merge +onlyGivenNames x6
        clear_value x6
        refine Touch.ite ?_ ?_
        · refine Touch.step (endUse_touch ..) rfl ?_
          refine Touch.step (dropRead_touch ..) rfl ?_
          exact Touch.refl _ _
        · refine Touch.step (t := x0) (Touch.upd (F := 524288) rfl (Or.inr rfl)) rfl ?_
          exact Touch.refl _ _
  · exact Touch.refl _ _

theorem execTagQuarantineExpiry_touch {l : Link} {tag : Nat} {s : State} : TouchOut 524288 s (execTagQuarantineExpiry l tag s) := by
  unfold execTagQuarantineExpiry
  refine TouchOut.step (whenMain_touch rfl (fun x0 => ?_)) (Within.refl _) ?_
  · refine Touch.step (t := x0) (Touch.upd (F := 524288) rfl (Or.inr rfl)) rfl ?_
    exact Touch.refl _ _
  · exact Touch.refl _ _

theorem execPoisonedTlpReceived_touch {l : Link} {what : Poisoned} {s : State} : TouchOut 24519928653854221733733552434404946937899825951046099560 s (execPoisonedTlpReceived l what s) := by
  unfold execPoisonedTlpReceived
  refine TouchOut.step (whenMain_touch rfl (fun x0 => ?_)) (Within.refl _) ?_
  · extract_lets -merge +onlyGivenNames x1
    have h2 : Touch 24519928653854221733733552434404946937899825951046099560 x0 x1 := by
      unfold x1
      refine Touch.step (aerLog_touch ..) rfl ?_
      refine Touch.step (bump_touch ..) rfl ?_
      exact Touch.refl _ _
    clear_value x1
    split
    · rename_i x3
      exact h2
    · rename_i x4 x5
      split
      · rename_i x6 x7 h8
        refine Touch.step (endUse_touch ..) rfl ?_
        refine Touch.step (dropRead_touch ..) rfl ?_
        exact h2
      · rename_i x9 h10
        exact h2
  · exact Touch.refl _ _

theorem resumeHost_touch {f : Pf} {s : State} : Touch 201851400 s (resumeHost f s) := by
  unfold resumeHost
  extract_lets -merge +onlyGivenNames x0
  clear_value x0
  extract_lets -merge +onlyGivenNames x1
  clear_value x1
  extract_lets -merge +onlyGivenNames x2
  subst x2
  extract_lets -merge +onlyGivenNames x3
  have h4 : Touch 201851400 s x3 := by
    unfold x3
    refine Touch.step (t := s) (Touch.upd (F := 524288) rfl (Or.inr rfl)) rfl ?_
    exact Touch.refl _ _
  clear_value x3
  extract_lets -merge +onlyGivenNames x5
  have h6 : Touch 201851400 s x5 := by
    unfold x5
    refine Touch.foldl ?_ (fun x7 x8 h9 => ?_)
    · exact h4
    · refine Touch.step (store_touch ..) rfl ?_
      exact h9
  clear_value x5
  extract_lets -merge +onlyGivenNames x10
  have h11 : Touch 201851400 s x10 := by
    unfold x10
    refine Touch.foldl ?_ (fun x12 x13 h14 => ?_)
    · exact h6
    · refine Touch.ite ?_ ?_
      · refine Touch.step (irqSend_touch ..) rfl ?_
        exact h14
      · exact h14
  clear_value x10
  refine Touch.foldl ?_ (fun x15 x16 h17 => ?_)
  · exact h11
  · refine Touch.ite ?_ ?_
    · refine Touch.foldl ?_ (fun x18 x19 h20 => ?_)
      · exact h17
      · refine Touch.step (cqFlush_touch ..) rfl ?_
        exact h20
    · exact h17

theorem stopHost_touch {f : Pf} {s : State} : Touch 24519928653854221733733552434404946937899825951046099560 s (stopHost f s) := by
  unfold stopHost
  refine Touch.step (endReads_touch ..) rfl ?_
  exact Touch.refl _ _

theorem execBusMasterEnableClear_touch {f : Pf} {s : State} : TouchOut 24519928653854221733733552434404946937899825951046099560 s (execBusMasterEnableClear f s) := by
  unfold execBusMasterEnableClear
  refine TouchOut.step (whenMain_touch rfl (fun x0 => ?_)) (Within.refl _) ?_
  · refine Touch.step (stopHost_touch ..) rfl ?_
    refine Touch.step (t := x0) (Touch.upd (F := 524288) rfl (Or.inr rfl)) rfl ?_
    exact Touch.refl _ _
  · exact Touch.refl _ _

theorem execBusMasterEnableSet_touch {f : Pf} {s : State} : TouchOut 201851400 s (execBusMasterEnableSet f s) := by
  unfold execBusMasterEnableSet
  refine TouchOut.step (whenMain_touch rfl (fun x0 => ?_)) (Within.refl _) ?_
  · refine Touch.step (resumeHost_touch ..) rfl ?_
    refine Touch.step (t := x0) (Touch.upd (F := 524288) rfl (Or.inr rfl)) rfl ?_
    exact Touch.refl _ _
  · exact Touch.refl _ _

theorem execPowerStateChange_touch {f : Pf} {state : BitVec 2} {s : State} : TouchOut 24519928653854221733733552434404946937899825951113208424 s (execPowerStateChange f state s) := by
  unfold execPowerStateChange
  refine TouchOut.step (whenMain_touch rfl (fun x0 => ?_)) (Within.refl _) ?_
  · extract_lets -merge +onlyGivenNames x1
    clear_value x1
    refine Touch.ite ?_ ?_
    · refine Touch.step (stopHost_touch ..) rfl ?_
      refine Touch.step (setFld_touch ..) rfl ?_
      exact Touch.refl _ _
    · refine Touch.ite ?_ ?_
      · refine Touch.step (resumeHost_touch ..) rfl ?_
        refine Touch.step (setFld_touch ..) rfl ?_
        exact Touch.refl _ _
      · exact Touch.refl _ _
  · exact Touch.refl _ _

theorem flrBegin_touch {f : Pf} {s : State} : Touch 24519928653854221733733552434404946937899825951171932904 s (flrBegin f s) := by
  unfold flrBegin
  extract_lets -merge +onlyGivenNames x0
  clear_value x0
  extract_lets -merge +onlyGivenNames x1
  subst x1
  extract_lets -merge +onlyGivenNames x2
  have h3 : Touch 24519928653854221733733552434404946937899825951171932904 s x2 := by
    unfold x2
    refine Touch.step (t := s) (Touch.upd (F := 524288) rfl (Or.inr rfl)) rfl ?_
    exact Touch.refl _ _
  clear_value x2
  extract_lets -merge +onlyGivenNames x4
  have h5 : Touch 24519928653854221733733552434404946937899825951171932904 s x4 := by
    unfold x4
    refine Touch.foldl ?_ (fun x6 x7 h8 => ?_)
    · exact h3
    · refine Touch.step (sliceUnits_touch ..) rfl ?_
      exact h8
  clear_value x4
  extract_lets -merge +onlyGivenNames x9
  have h10 : Touch 24519928653854221733733552434404946937899825951171932904 s x9 := by
    unfold x9
    refine Touch.foldl ?_ (fun x11 x12 h13 => ?_)
    · exact h5
    · refine Touch.step (mbxForget_touch ..) rfl ?_
      refine Touch.step (mbxRetry_touch ..) rfl ?_
      exact h13
  clear_value x9
  extract_lets -merge +onlyGivenNames x14
  have h15 : Touch 24519928653854221733733552434404946937899825951171932904 s x14 := by
    unfold x14
    refine Touch.ite ?_ ?_
    · refine Touch.step (dropPktQueues_touch ..) rfl ?_
      exact h10
    · refine Touch.step (cmpRelease_touch ..) rfl ?_
      exact h10
  clear_value x14
  refine Touch.step (irqDiscard_touch ..) rfl ?_
  exact h15

theorem stagingReset_touch {f : Pf} {s : State} : Touch 18395938647103723002264799433617846963805458789629436016 s (stagingReset f s) := by
  unfold stagingReset
  extract_lets -merge +onlyGivenNames x0
  clear_value x0
  refine Touch.ite ?_ ?_
  · refine Touch.step (setKw_touch ..) rfl ?_
    exact Touch.refl _ _
  · exact Touch.refl _ _

theorem flrEnd_touch {f : Pf} {s : State} : Touch 18395938647103723002264799433637189776919292856560526064 s (flrEnd f s) := by
  unfold flrEnd
  extract_lets -merge +onlyGivenNames x0
  clear_value x0
  extract_lets -merge +onlyGivenNames x1
  have h2 : Touch 18395938647103723002264799433637189776919292856560526064 s x1 := by
    unfold x1
    refine Touch.step (quarantineReads_touch ..) rfl ?_
    exact Touch.refl _ _
  clear_value x1
  extract_lets -merge +onlyGivenNames x3
  subst x3
  extract_lets -merge +onlyGivenNames x4
  subst x4
  extract_lets -merge +onlyGivenNames x5
  have h6 : Touch 18395938647103723002264799433637189776919292856560526064 s x5 := by
    unfold x5
    refine Touch.step (t := x1) (Touch.upd (F := 524800) rfl (Or.inr rfl)) rfl ?_
    exact h2
  clear_value x5
  extract_lets -merge +onlyGivenNames x7
  have h8 : Touch 18395938647103723002264799433637189776919292856560526064 s x7 := by
    unfold x7
    refine Touch.step (setFld_touch ..) rfl ?_
    exact h6
  clear_value x7
  extract_lets -merge +onlyGivenNames x9
  have h10 : Touch 18395938647103723002264799433637189776919292856560526064 s x9 := by
    unfold x9
    refine Touch.step (mbxForget_touch ..) rfl ?_
    refine Touch.step (mbxRetry_touch ..) rfl ?_
    exact h8
  clear_value x9
  extract_lets -merge +onlyGivenNames x11
  have h12 : Touch 18395938647103723002264799433637189776919292856560526064 s x11 := by
    unfold x11
    refine Touch.step (stagingReset_touch ..) rfl ?_
    exact h10
  clear_value x11
  refine Touch.foldl ?_ (fun x13 x14 h15 => ?_)
  · exact h12
  · refine Touch.ite ?_ ?_
    · refine Touch.step (sliceResetEnd_touch ..) rfl ?_
      exact h15
    · exact h15

theorem execFunctionLevelReset_touch {f : Pf} {s : State} : TouchOut 24519928653854221733733552434404946937899825951171932904 s (execFunctionLevelReset f s) := by
  unfold execFunctionLevelReset
  refine TouchOut.step (whenMain_touch rfl (fun x0 => ?_)) (Within.refl _) ?_
  · refine Touch.ite ?_ ?_
    · exact Touch.refl _ _
    · refine Touch.step (flrBegin_touch ..) rfl ?_
      exact Touch.refl _ _
  · exact Touch.refl _ _

theorem execFlrComplete_touch {f : Pf} {s : State} : TouchOut 18395938647103723002264799433637189776919292856560526064 s (execFlrComplete f s) := by
  unfold execFlrComplete
  refine TouchOut.step (whenMain_touch rfl (fun x0 => ?_)) (Within.refl _) ?_
  · refine Touch.ite ?_ ?_
    · refine Touch.step (flrEnd_touch ..) rfl ?_
      exact Touch.refl _ _
    · exact Touch.refl _ _
  · exact Touch.refl _ _

theorem hostDomainReset_touch {s : State} : Touch 24519928653854221733733552434404946937899825951177175800 s (hostDomainReset s) := by
  unfold hostDomainReset
  extract_lets -merge +onlyGivenNames x0
  have h1 : Touch 24519928653854221733733552434404946937899825951177175800 s x0 := by
    unfold x0
    refine Touch.step (setFld_touch ..) rfl ?_
    exact Touch.refl _ _
  clear_value x0
  extract_lets -merge +onlyGivenNames x2
  subst x2
  extract_lets -merge +onlyGivenNames x3
  have h4 : Touch 24519928653854221733733552434404946937899825951177175800 s x3 := by
    unfold x3
    refine Touch.step (t := x0) (Touch.upd (F := 524288) rfl (Or.inr rfl)) rfl ?_
    exact h1
  clear_value x3
  extract_lets -merge +onlyGivenNames x5
  have h6 : Touch 24519928653854221733733552434404946937899825951177175800 s x5 := by
    unfold x5
    refine Touch.step (flrEnd_touch ..) rfl ?_
    refine Touch.step (flrEnd_touch ..) rfl ?_
    refine Touch.step (flrBegin_touch ..) rfl ?_
    refine Touch.step (flrBegin_touch ..) rfl ?_
    exact h4
  clear_value x5
  extract_lets -merge +onlyGivenNames x7
  subst x7
  extract_lets -merge +onlyGivenNames x8
  have h9 : Touch 24519928653854221733733552434404946937899825951177175800 s x8 := by
    unfold x8
    refine Touch.step (t := x5) (Touch.upd (F := 4718592) rfl (Or.inr rfl)) rfl ?_
    exact h6
  clear_value x8
  refine Touch.foldl ?_ (fun x10 x11 h12 => ?_)
  · exact h9
  · refine Touch.step (clearReg_touch ..) rfl ?_
    refine Touch.step (clearReg_touch ..) rfl ?_
    refine Touch.step (clearReg_touch ..) rfl ?_
    exact h12

theorem execPerstNAssert_touch {ns : Nat} {s : State} : TouchOut 24519928653854221733733552434404946937899825951177176824 s (execPerstNAssert ns s) := by
  unfold execPerstNAssert
  refine TouchOut.step (whenMain_touch rfl (fun x0 => ?_)) (Within.refl _) ?_
  · refine Touch.ite ?_ ?_
    · exact Touch.refl _ _
    · extract_lets -merge +onlyGivenNames x1
      have h2 : Touch 24519928653854221733733552434404946937899825951177176824 x0 x1 := by
        unfold x1
        refine Touch.step (hostDomainReset_touch ..) rfl ?_
        exact Touch.refl _ _
      clear_value x1
      refine Touch.step (t := x1) (Touch.upd (F := 1024) rfl (Or.inr rfl)) rfl ?_
      exact h2
  · exact Touch.refl _ _

theorem execPerstNDeassert_touch {s : State} : TouchOut 1024 s (execPerstNDeassert s) := by
  unfold execPerstNDeassert
  refine TouchOut.step (whenMain_touch rfl (fun x0 => ?_)) (Within.refl _) ?_
  · extract_lets -merge +onlyGivenNames x1
    subst x1
    extract_lets -merge +onlyGivenNames x2
    have h3 : Touch 1024 x0 x2 := by
      unfold x2
      refine Touch.step (t := x0) (Touch.upd (F := 1024) rfl (Or.inr rfl)) rfl ?_
      exact Touch.refl _ _
    clear_value x2
    refine Touch.step (t := x2) (Touch.upd (F := 1024) rfl (Or.inr rfl)) rfl ?_
    exact h3
  · exact Touch.refl _ _

theorem execHostHotReset_touch {s : State} : TouchOut 24519928653854221733733552434404946937899825951177175800 s (execHostHotReset s) := by
  unfold execHostHotReset
  refine TouchOut.step (whenMain_touch rfl (fun x0 => ?_)) (Within.refl _) ?_
  · refine Touch.ite ?_ ?_
    · refine Touch.foldl ?_ (fun x1 x2 h3 => ?_)
      · refine Touch.step (hostDomainReset_touch ..) rfl ?_
        exact Touch.refl _ _
      · refine Touch.step (emit_touch ..) rfl ?_
        exact h3
    · exact Touch.refl _ _
  · exact Touch.refl _ _

theorem hostLinkDown_touch {s : State} : Touch 24519928653854221733733552434404946937899825951177175800 s (hostLinkDown s) := by
  unfold hostLinkDown
  refine Touch.ite ?_ ?_
  · extract_lets -merge +onlyGivenNames x0
    have h1 : Touch 24519928653854221733733552434404946937899825951177175800 s x0 := by
      unfold x0
      refine Touch.step (endReads_touch ..) rfl ?_
      exact Touch.refl _ _
    clear_value x0
    refine Touch.foldl ?_ (fun x2 x3 h4 => ?_)
    · refine Touch.step (hostDomainReset_touch ..) rfl ?_
      exact h1
    · refine Touch.step (emit_touch ..) rfl ?_
      exact h4
  · exact Touch.refl _ _

theorem execHostLinkDown_touch {s : State} : TouchOut 24519928653854221733733552434404946937899825951177175800 s (execHostLinkDown s) := by
  unfold execHostLinkDown
  refine TouchOut.step (whenMain_touch rfl (fun x0 => ?_)) (Within.refl _) ?_
  · refine Touch.step (hostLinkDown_touch ..) rfl ?_
    exact Touch.refl _ _
  · exact Touch.refl _ _

theorem execSecondaryBusReset_touch {sub : Nat} {s : State} : TouchOut 134217728 s (execSecondaryBusReset sub s) := by
  unfold execSecondaryBusReset
  refine TouchOut.step (whenMain_touch rfl (fun x0 => ?_)) (Within.refl _) ?_
  · refine Touch.ite ?_ ?_
    · refine Touch.step (emit_touch ..) rfl ?_
      exact Touch.refl _ _
    · exact Touch.refl _ _
  · exact Touch.refl _ _

theorem execHostLinkUp_touch {speed : BitVec 3} {width : BitVec 3} {flit : Bool} {s : State} : TouchOut 5992156713056701964635107833479573494423390423360104 s (execHostLinkUp speed width flit s) := by
  unfold execHostLinkUp
  refine TouchOut.step (whenMain_touch rfl (fun x0 => ?_)) (Within.refl _) ?_
  · refine Touch.ite ?_ ?_
    · exact Touch.refl _ _
    · extract_lets -merge +onlyGivenNames x1
      clear_value x1
      extract_lets -merge +onlyGivenNames x2
      have h3 : Touch 5992156713056701964635107833479573494423390423360104 x0 x2 := by
        unfold x2
        refine Touch.step (setFld_touch ..) rfl ?_
        exact Touch.refl _ _
      clear_value x2
      extract_lets -merge +onlyGivenNames x4
      subst x4
      extract_lets -merge +onlyGivenNames x5
      have h6 : Touch 5992156713056701964635107833479573494423390423360104 x0 x5 := by
        unfold x5
        refine Touch.step (t := x2) (Touch.upd (F := 524288) rfl (Or.inr rfl)) rfl ?_
        exact h3
      clear_value x5
      extract_lets -merge +onlyGivenNames x7
      have h8 : Touch 5992156713056701964635107833479573494423390423360104 x0 x7 := by
        unfold x7
        refine Touch.ite ?_ ?_
        · refine Touch.step (log_touch ..) rfl ?_
          exact h6
        · exact h6
      clear_value x7
      refine Touch.step (resumeHost_touch ..) rfl ?_
      refine Touch.step (resumeHost_touch ..) rfl ?_
      exact h8
  · exact Touch.refl _ _

theorem configReady_touch {s : State} : TouchP 268959744 s (configReady s) := by
  unfold configReady
  split
  · rename_i x0 h1
    refine TouchP.mk' ?_
    exact Touch.refl _ _
  · rename_i x2 x3 h4
    refine TouchP.ite ?_ ?_
    · refine TouchP.mk' ?_
      refine Touch.step (t := s) (Touch.upd (F := 524288) rfl (Or.inr rfl)) rfl ?_
      exact Touch.refl _ _
    · split
      · rename_i x5 x6 x7 h8
        have h9 : Touch 268959744 s x7 := by
          refine TouchP.eq ?_ h8
          refine TouchP.step (draw_touch ..) rfl ?_
          exact Touch.refl _ _
        refine TouchP.mk' ?_
        refine Touch.step (t := x7) (Touch.upd (F := 524288) rfl (Or.inr rfl)) rfl ?_
        exact h9

theorem mapPassed_touch {sub : Nat} {s : State} : Touch 4194304 s (mapPassed sub s) := by
  unfold mapPassed
  extract_lets -merge +onlyGivenNames x0
  clear_value x0
  split
  · rename_i x1 x2 x3 h4
    refine Touch.ite ?_ ?_
    · refine Touch.step (t := s) (Touch.upd (F := 4194304) rfl (Or.inr rfl)) rfl ?_
      exact Touch.refl _ _
    · refine Touch.step (t := s) (Touch.upd (F := 4194304) rfl (Or.inr rfl)) rfl ?_
      exact Touch.refl _ _
  · rename_i x5 h6
    refine Touch.step (t := s) (Touch.upd (F := 4194304) rfl (Or.inr rfl)) rfl ?_
    exact Touch.refl _ _

theorem configEffect_touch {f : CfgFn} {w : CfgWrite} {s : State} : Touch 138936832 s (configEffect f w s) := by
  unfold configEffect
  extract_lets -merge +onlyGivenNames x0
  clear_value x0
  split
  · rename_i x1 x2 x3 x4
    refine Touch.ite ?_ ?_
    · refine Touch.step (t := s) (Touch.upd (F := 524288) rfl (Or.inr rfl)) rfl ?_
      exact Touch.refl _ _
    · exact Touch.refl _ _
  · rename_i x5 x6 x7 x8 x9 x10
    refine Touch.step (mapPassed_touch ..) rfl ?_
    refine Touch.step (t := s) (Touch.upd (F := 524288) rfl (Or.inr rfl)) rfl ?_
    exact Touch.refl _ _
  · rename_i x11 x12 x13 x14 x15
    extract_lets -merge +onlyGivenNames x16
    clear_value x16
    refine Touch.step (t := s) (Touch.upd (F := 524288) rfl (Or.inr rfl)) rfl ?_
    exact Touch.refl _ _
  · rename_i x17 x18 x19 x20 x21 x22
    extract_lets -merge +onlyGivenNames x23
    subst x23
    extract_lets -merge +onlyGivenNames x24
    have h25 : Touch 138936832 s x24 := by
      unfold x24
      refine Touch.step (t := s) (Touch.upd (F := 512) rfl (Or.inr rfl)) rfl ?_
      exact Touch.refl _ _
    clear_value x24
    refine Touch.foldl ?_ (fun x26 x27 h28 => ?_)
    · exact h25
    · refine Touch.ite ?_ ?_
      · refine Touch.step (irqSend_touch ..) rfl ?_
        exact h28
      · exact h28
  · rename_i x29 x30 x31 x32 x33
    extract_lets -merge +onlyGivenNames x34
    clear_value x34
    refine Touch.step (t := s) (Touch.upd (F := 524288) rfl (Or.inr rfl)) rfl ?_
    exact Touch.refl _ _
  · rename_i x35 x36 x37 h38 h39 h40 h41 h42
    exact Touch.refl _ _

theorem execConfigRequest_touch {f : CfgFn} {w : CfgWrite} {s : State} : TouchOut 407372288 s (execConfigRequest f w s) := by
  unfold execConfigRequest
  refine TouchOut.step (whenMain_touch rfl (fun x0 => ?_)) (Within.refl _) ?_
  · refine Touch.ite ?_ ?_
    · exact Touch.refl _ _
    · split
      · rename_i x1 x2 x3 h4
        have h5 : Touch 407372288 x0 x3 := by
          refine TouchP.eq ?_ h4
          refine TouchP.step (configReady_touch ..) rfl ?_
          exact Touch.refl _ _
        extract_lets -merge +onlyGivenNames x6
        clear_value x6
        extract_lets -merge +onlyGivenNames x7
        clear_value x7
        refine Touch.ite ?_ ?_
        · refine Touch.step (emit_touch ..) rfl ?_
          exact h5
        · refine Touch.step (emit_touch ..) rfl ?_
          refine Touch.ite ?_ ?_
          · refine Touch.step (configEffect_touch ..) rfl ?_
            exact h5
          · exact h5
  · exact Touch.refl _ _

theorem ccWrite_touch {k : Nat} {v : Word} {s : State} : Touch 17524541896430806748442363043303510819336 s (ccWrite k v s) := by
  unfold ccWrite
  extract_lets -merge +onlyGivenNames x0
  clear_value x0
  refine Touch.ite ?_ ?_
  · unfold nextOr
    split
    · rename_i x1 x2 h3
      have h4 : Touch 17524541896430806748442363043303510819336 s x2 := by
        refine TouchOut.eq ?_ h3
        refine TouchOut.step (execNvmeCcEnable_touch) rfl ?_
        exact Touch.refl _ _
      exact h4
    · rename_i x5 h6
      exact Touch.refl _ _
  · refine Touch.ite ?_ ?_
    · unfold nextOr
      split
      · rename_i x7 x8 h9
        have h10 : Touch 17524541896430806748442363043303510819336 s x8 := by
          refine TouchOut.eq ?_ h9
          refine TouchOut.step (execNvmeCcDisable_touch) rfl ?_
          exact Touch.refl _ _
        exact h10
      · rename_i x11 h12
        exact Touch.refl _ _
    · unfold nextOr
      split
      · rename_i x13 x14 h15
        have h16 : Touch 17524541896430806748442363043303510819336 s x14 := by
          refine TouchOut.eq ?_ h15
          refine TouchOut.step (execNvmeCcShutdown_touch) rfl ?_
          exact Touch.refl _ _
        exact h16
      · rename_i x17 h18
        exact Touch.refl _ _

theorem doorbellAt_touch {k : Nat} {y : Nat} {v : Word} {s : State} : Touch 2475880078570760567179444744 s (doorbellAt k y v s) := by
  unfold doorbellAt
  unfold nextOr
  split
  · rename_i x0 x1 h2
    have h3 : Touch 2475880078570760567179444744 s x1 := by
      refine TouchOut.eq ?_ h2
      refine TouchOut.ite ?_ ?_
      · refine TouchOut.step (execNvmeSqTailDoorbell_touch) rfl ?_
        exact Touch.refl _ _
      · refine TouchOut.step (execNvmeCqHeadDoorbell_touch) rfl ?_
        exact Touch.refl _ _
    exact h3
  · rename_i x4 h5
    exact Touch.refl _ _

theorem ctrlPageWrite_touch {k : Nat} {off : Nat} {v : Word} {s : State} : Touch 24519928653854221733733552434404946937899825951112479240 s (ctrlPageWrite k off v s) := by
  unfold ctrlPageWrite
  refine Touch.ite ?_ ?_
  · refine Touch.step (ccWrite_touch ..) rfl ?_
    exact Touch.refl _ _
  · refine Touch.ite ?_ ?_
    · refine Touch.step (setReg_touch ..) rfl ?_
      exact Touch.refl _ _
    · refine Touch.ite ?_ ?_
      · refine Touch.step (regPut_touch ..) rfl ?_
        exact Touch.refl _ _
      · refine Touch.ite ?_ ?_
        · refine Touch.step (regPut_touch ..) rfl ?_
          exact Touch.refl _ _
        · refine Touch.ite ?_ ?_
          · refine Touch.step (doorbellAt_touch ..) rfl ?_
            exact Touch.refl _ _
          · exact Touch.refl _ _

theorem windowWrite_touch {sub : Nat} {off : Nat} {data : List Byte} {s : State} : Touch 24519928653854221733733552434404946937899825951112622824 s (windowWrite sub off data s) := by
  unfold windowWrite
  split
  · rename_i x0 x1 h2
    refine Touch.step (memStore_touch ..) rfl ?_
    exact Touch.refl _ _
  · rename_i x3 h4
    extract_lets -merge +onlyGivenNames x5
    clear_value x5
    refine Touch.ite ?_ ?_
    · exact Touch.refl _ _
    · split
      · rename_i x6 x7 h8
        unfold nextOr
        split
        · rename_i x9 x10 h11
          have h12 : Touch 24519928653854221733733552434404946937899825951112622824 s x10 := by
            refine TouchOut.eq ?_ h11
            refine TouchOut.step (execIntakeDoorbell_touch) rfl ?_
            exact Touch.refl _ _
          exact h12
        · rename_i x13 h14
          exact Touch.refl _ _
      · rename_i x15 h16
        split
        · rename_i x17 x18 h19
          unfold nextOr
          split
          · rename_i x20 x21 h22
            have h23 : Touch 24519928653854221733733552434404946937899825951112622824 s x21 := by
              refine TouchOut.eq ?_ h22
              refine TouchOut.step (execSteepDoorbell_touch) rfl ?_
              exact Touch.refl _ _
            exact h23
          · rename_i x24 h25
            exact Touch.refl _ _
        · rename_i x26 h27
          split
          · rename_i x28 x29 x30 h31
            unfold nextOr
            split
            · rename_i x32 x33 h34
              have h35 : Touch 24519928653854221733733552434404946937899825951112622824 s x33 := by
                refine TouchOut.eq ?_ h34
                refine TouchOut.step (execPageDoorbell_touch) rfl ?_
                exact Touch.refl _ _
              exact h35
            · rename_i x36 h37
              exact Touch.refl _ _
          · rename_i x38 h39
            split
            · rename_i x40 x41 h42
              refine Touch.ite ?_ ?_
              · refine Touch.step (ctrlPageWrite_touch ..) rfl ?_
                exact Touch.refl _ _
              · exact Touch.refl _ _
            · rename_i x43 h44
              exact Touch.refl _ _

theorem windowAccess_touch {sub : Nat} {off : Nat} {q : MemReq} {s : State} : Touch 24519928653854221733733552434404946937899825951112622824 s (windowAccess sub off q s) := by
  unfold windowAccess
  split
  · rename_i x0 x1
    refine Touch.step (windowWrite_touch ..) rfl ?_
    exact Touch.refl _ _
  · rename_i x2 x3
    split
    · rename_i x4 x5 h6
      split
      · rename_i x7 x8 h9
        refine Touch.step (emit_touch ..) rfl ?_
        refine Touch.step (eccReport_touch ..) rfl ?_
        exact Touch.refl _ _
      · rename_i x10 h11
        refine Touch.step (emit_touch ..) rfl ?_
        exact Touch.refl _ _
    · rename_i x12 h13
      refine Touch.step (emit_touch ..) rfl ?_
      exact Touch.refl _ _

theorem execApertureRequest_touch {sub : Nat} {addr : Nat} {q : MemReq} {s : State} : TouchOut 24519928653854221733733552434404946937899825951112622824 s (execApertureRequest sub addr q s) := by
  unfold execApertureRequest
  refine TouchOut.step (whenMain_touch rfl (fun x0 => ?_)) (Within.refl _) ?_
  · refine Touch.ite ?_ ?_
    · exact Touch.refl _ _
    · split
      · rename_i x1 x2 x3 h4
        refine Touch.ite ?_ ?_
        · refine Touch.step (windowAccess_touch ..) rfl ?_
          exact Touch.refl _ _
        · refine Touch.step (emit_touch ..) rfl ?_
          exact Touch.refl _ _
      · rename_i x5 h6
        refine Touch.step (emit_touch ..) rfl ?_
        exact Touch.refl _ _
  · exact Touch.refl _ _

theorem execOwnedDeviceHostRequest_touch {sub : Nat} {addr : Nat} {q : MemReq} {s : State} : TouchOut 24519928653854221733733552434404946937899825951112622824 s (execOwnedDeviceHostRequest sub addr q s) := by
  unfold execOwnedDeviceHostRequest
  refine TouchOut.step (whenOn_touch rfl (fun x0 => ?_)) (Within.refl _) ?_
  · extract_lets -merge +onlyGivenNames x1
    clear_value x1
    refine Touch.ite ?_ ?_
    · exact Touch.refl _ _
    · refine Touch.ite ?_ ?_
      · refine Touch.step (windowAccess_touch ..) rfl ?_
        exact Touch.refl _ _
      · extract_lets -merge +onlyGivenNames x2
        subst x2
        split
        · rename_i x3 h4
          beta_reduce
          split
          · rename_i x5 x6
            refine Touch.step (emit_touch ..) rfl ?_
            exact Touch.refl _ _
          · rename_i x7 x8
            exact Touch.refl _ _
        · rename_i x9 x10 h11
          refine Touch.ite ?_ ?_
          · beta_reduce
            split
            · rename_i x12 x13
              refine Touch.step (emit_touch ..) rfl ?_
              exact Touch.refl _ _
            · rename_i x14 x15
              exact Touch.refl _ _
          · extract_lets -merge +onlyGivenNames x16
            clear_value x16
            split
            · rename_i x17 x18
              refine Touch.step (store_touch ..) rfl ?_
              exact Touch.refl _ _
            · rename_i x19 x20
              refine Touch.step (emit_touch ..) rfl ?_
              exact Touch.refl _ _
  · exact Touch.refl _ _

theorem rootDown_touch {sub : Nat} {s : State} : Touch 24519928653854221733733552434404946937899825951050293992 s (rootDown sub s) := by
  unfold rootDown
  extract_lets -merge +onlyGivenNames x0
  have h1 : Touch 24519928653854221733733552434404946937899825951050293992 s x0 := by
    unfold x0
    refine Touch.step (setReg_touch ..) rfl ?_
    exact Touch.refl _ _
  clear_value x0
  extract_lets -merge +onlyGivenNames x2
  have h3 : Touch 24519928653854221733733552434404946937899825951050293992 s x2 := by
    unfold x2
    refine Touch.step (endReads_touch ..) rfl ?_
    exact h1
  clear_value x2
  extract_lets -merge +onlyGivenNames x4
  subst x4
  extract_lets -merge +onlyGivenNames x5
  have h6 : Touch 24519928653854221733733552434404946937899825951050293992 s x5 := by
    unfold x5
    refine Touch.step (t := x2) (Touch.upd (F := 4718592) rfl (Or.inr rfl)) rfl ?_
    exact h3
  clear_value x5
  extract_lets -merge +onlyGivenNames x7
  have h8 : Touch 24519928653854221733733552434404946937899825951050293992 s x7 := by
    unfold x7
    refine Touch.ite ?_ ?_
    · refine Touch.step (mbxEvent_touch ..) rfl ?_
      refine Touch.step (setFld_touch ..) rfl ?_
      exact h6
    · exact h6
  clear_value x7
  refine Touch.step (log_touch ..) rfl ?_
  exact h8

theorem execRootPortLinkDown_touch {sub : Nat} {s : State} : TouchOut 24519928653854221733733552434404946937899825951050293992 s (execRootPortLinkDown sub s) := by
  unfold execRootPortLinkDown
  refine TouchOut.step (whenMain_touch rfl (fun x0 => ?_)) (Within.refl _) ?_
  · refine Touch.ite ?_ ?_
    · refine Touch.step (rootDown_touch ..) rfl ?_
      exact Touch.refl _ _
    · exact Touch.refl _ _
  · exact Touch.refl _ _

theorem execDevicePresent_touch {sub : Nat} {speed : BitVec 3} {width : BitVec 3} {flit : Bool} {s : State} : TouchOut 5992156713056701964635107852822386608257457021001824 s (execDevicePresent sub speed width flit s) := by
  unfold execDevicePresent
  refine TouchOut.step (whenMain_touch rfl (fun x0 => ?_)) (Within.refl _) ?_
  · refine Touch.ite ?_ ?_
    · exact Touch.refl _ _
    · extract_lets -merge +onlyGivenNames x1
      clear_value x1
      extract_lets -merge +onlyGivenNames x2
      clear_value x2
      refine Touch.ite ?_ ?_
      · refine Touch.step (log_touch ..) rfl ?_
        refine Touch.step (setReg_touch ..) rfl ?_
        exact Touch.refl _ _
      · extract_lets -merge +onlyGivenNames x3
        have h4 : Touch 5992156713056701964635107852822386608257457021001824 x0 x3 := by
          unfold x3
          refine Touch.step (setReg_touch ..) rfl ?_
          exact Touch.refl _ _
        clear_value x3
        refine Touch.ite ?_ ?_
        · refine Touch.step (mapPassed_touch ..) rfl ?_
          exact h4
        · exact h4
  · exact Touch.refl _ _

theorem execLinkLaneFault_touch {l : Link} {a1 : Nat} {s : State} : TouchOut 24519928653854221733733552434404946937899825950642675808 s (execLinkLaneFault l a1 s) := by
  unfold execLinkLaneFault
  refine TouchOut.step (whenMain_touch rfl (fun x0 => ?_)) (Within.refl _) ?_
  · split
    · rename_i x1 x2 x3 h4
      extract_lets -merge +onlyGivenNames x5
      clear_value x5
      extract_lets -merge +onlyGivenNames x6
      clear_value x6
      refine Touch.ite ?_ ?_
      · exact Touch.refl _ _
      · refine Touch.step (log_touch ..) rfl ?_
        refine Touch.step (setFld_touch ..) (.trans (regFoot_within _) rfl) ?_
        exact Touch.refl _ _
  · exact Touch.refl _ _

theorem execApertureSet_touch {c : Caller} {sub : Nat} {base : Nat} {len : Nat} {s : State} : TouchOut 134742656 s (execApertureSet c sub base len s) := by
  unfold execApertureSet
  refine TouchOut.step (whenOn_touch rfl (fun x0 => ?_)) (Within.refl _) ?_
  · refine Touch.step (mbxServe_touch rfl (fun x1 x2 => ?_)) (Within.refl _) ?_
    · refine TouchP.ite ?_ ?_
      · refine TouchP.step (refuseAt_touch ..) rfl ?_
        exact Touch.refl _ _
      · refine TouchP.ite ?_ ?_
        · refine TouchP.step (refuseAt_touch ..) rfl ?_
          exact Touch.refl _ _
        · refine TouchP.ite ?_ ?_
          · refine TouchP.step (refuseAt_touch ..) rfl ?_
            exact Touch.refl _ _
          · refine TouchP.step (accept_touch ..) rfl ?_
            refine Touch.step (t := x2) (Touch.upd (F := 524288) rfl (Or.inr rfl)) rfl ?_
            exact Touch.refl _ _
    · exact Touch.refl _ _
  · exact Touch.refl _ _

theorem execOwnedReset_touch {c : Caller} {sub : Nat} {s : State} : TouchOut 134218368 s (execOwnedReset c sub s) := by
  unfold execOwnedReset
  refine TouchOut.step (whenOn_touch rfl (fun x0 => ?_)) (Within.refl _) ?_
  · refine Touch.step (mbxServe_touch rfl (fun x1 x2 => ?_)) (Within.refl _) ?_
    · refine TouchP.ite ?_ ?_
      · refine TouchP.step (refuseAt_touch ..) rfl ?_
        exact Touch.refl _ _
      · refine TouchP.ite ?_ ?_
        · refine TouchP.step (refuse_touch ..) rfl ?_
          exact Touch.refl _ _
        · refine TouchP.step (accept_touch ..) rfl ?_
          refine Touch.step (emit_touch ..) rfl ?_
          exact Touch.refl _ _
    · exact Touch.refl _ _
  · exact Touch.refl _ _

theorem execOwnedEnumerate_touch {c : Caller} {sub : Nat} {s : State} : TouchOut 407372416 s (execOwnedEnumerate c sub s) := by
  unfold execOwnedEnumerate
  refine TouchOut.step (whenOn_touch rfl (fun x0 => ?_)) (Within.refl _) ?_
  · refine Touch.step (mbxServe_touch rfl (fun x1 x2 => ?_)) (Within.refl _) ?_
    · refine TouchP.ite ?_ ?_
      · refine TouchP.step (refuseAt_touch ..) rfl ?_
        exact Touch.refl _ _
      · refine TouchP.ite ?_ ?_
        · refine TouchP.step (refuse_touch ..) rfl ?_
          exact Touch.refl _ _
        · split
          · rename_i x3 x4 x5 h6
            have h7 : Touch 407372416 x2 x5 := by
              refine TouchP.eq ?_ h6
              refine TouchP.step (draw_touch ..) rfl ?_
              exact Touch.refl _ _
            extract_lets -merge +onlyGivenNames x8
            clear_value x8
            refine TouchP.step (accept_touch ..) rfl ?_
            refine Touch.step (t := x5) (Touch.upd (F := 4718592) rfl (Or.inr rfl)) rfl ?_
            exact h7
    · exact Touch.refl _ _
  · exact Touch.refl _ _

theorem execRpCtoSet_touch {c : Caller} {port : Nat} {cto : BitVec 4} {s : State} : TouchOut 134742656 s (execRpCtoSet c port cto s) := by
  unfold execRpCtoSet
  refine TouchOut.step (whenOn_touch rfl (fun x0 => ?_)) (Within.refl _) ?_
  · refine Touch.step (mbxServe_touch rfl (fun x1 x2 => ?_)) (Within.refl _) ?_
    · refine TouchP.ite ?_ ?_
      · refine TouchP.step (refuseAt_touch ..) rfl ?_
        exact Touch.refl _ _
      · refine TouchP.ite ?_ ?_
        · refine TouchP.step (refuseAt_touch ..) rfl ?_
          exact Touch.refl _ _
        · refine TouchP.step (accept_touch ..) rfl ?_
          refine Touch.step (t := x2) (Touch.upd (F := 524288) rfl (Or.inr rfl)) rfl ?_
          exact Touch.refl _ _
    · exact Touch.refl _ _
  · exact Touch.refl _ _

theorem execEmbeddedSwitchForward_touch {t : SwitchTlp} {addr : Nat} {s : State} : TouchOut 134217728 s (execEmbeddedSwitchForward t addr s) := by
  unfold execEmbeddedSwitchForward
  refine TouchOut.step (whenMain_touch rfl (fun x0 => ?_)) (Within.refl _) ?_
  · extract_lets -merge +onlyGivenNames x1
    clear_value x1
    split
    · rename_i x2 x3
      refine Touch.ite ?_ ?_
      · refine Touch.step (emit_touch ..) rfl ?_
        exact Touch.refl _ _
      · exact Touch.refl _ _
    · rename_i x4 x5
      refine Touch.ite ?_ ?_
      · refine Touch.step (emit_touch ..) rfl ?_
        exact Touch.refl _ _
      · exact Touch.refl _ _
    · rename_i x6 x7 x8
      refine Touch.ite ?_ ?_
      · exact Touch.refl _ _
      · refine Touch.ite ?_ ?_
        · refine Touch.ite ?_ ?_
          · refine Touch.step (emit_touch ..) rfl ?_
            exact Touch.refl _ _
          · exact Touch.refl _ _
        · refine Touch.step (emit_touch ..) rfl ?_
          exact Touch.refl _ _
  · exact Touch.refl _ _

end Sys2Proof.Machine
end

