-- ==== Sys2Proof/Laws/TouchDevice.lean ====
section
/-! SUPPORT. What each function of the model may touch (Laws/Touch.lean): security, bring-up, power, firmware, comparators, register access and debug. One lemma for each function; the footprint is the union of what its body writes. -/

namespace Sys2Proof.Machine

open Sys2Proof

theorem setAlert_touch {bit : Nat} {s : State} : Touch 191561942608236107294793378393788647952342390407168640 s (setAlert bit s) := by
  unfold setAlert
  refine Touch.ite ?_ ?_
  · exact Touch.refl _ _
  · refine Touch.step (mbxEvent_touch ..) rfl ?_
    refine Touch.step (setFld_touch ..) rfl ?_
    exact Touch.refl _ _

theorem setEmerg_touch {bit : Nat} {s : State} : Touch 18395938647103723002264799433617846963805458789629436016 s (setEmerg bit s) := by
  unfold setEmerg
  refine Touch.step (setKw_touch ..) rfl ?_
  exact Touch.refl _ _

theorem mbxServiceDown_touch {c : Caller} {s : State} : Touch 128 s (mbxServiceDown c s) := by
  unfold mbxServiceDown
  extract_lets -merge +onlyGivenNames x0
  clear_value x0
  split
  · rename_i x1 x2 h3
    refine Touch.ite ?_ ?_
    · refine Touch.step (setMailbox_touch ..) rfl ?_
      exact Touch.refl _ _
    · exact Touch.refl _ _
  · rename_i x4 h5
    exact Touch.refl _ _

theorem stopArray_touch {s : State} : Touch 638976 s (stopArray s) := by
  unfold stopArray
  refine Touch.step (t := s) (Touch.upd (F := 638976) rfl (Or.inr rfl)) rfl ?_
  exact Touch.refl _ _

theorem stopServices_touch {s : State} : Touch 274877907200 s (stopServices s) := by
  unfold stopServices
  extract_lets -merge +onlyGivenNames x0
  have h1 : Touch 274877907200 s x0 := by
    unfold x0
    refine Touch.step (setReg_touch ..) rfl ?_
    exact Touch.refl _ _
  clear_value x0
  refine Touch.step (t := x0) (Touch.upd (F := 256) rfl (Or.inr rfl)) rfl ?_
  exact h1

theorem enterHardpan_touch {code : Status} {s : State} {a32 : Nat} : Touch 580677984543351099184393171763518699883743379014281192 s (enterHardpan code s a32) := by
  unfold enterHardpan
  extract_lets -merge +onlyGivenNames x0
  have h1 : Touch 580677984543351099184393171763518699883743379014281192 s x0 := by
    unfold x0
    refine Touch.step (log_touch ..) rfl ?_
    exact Touch.refl _ _
  clear_value x0
  refine Touch.ite ?_ ?_
  · exact h1
  · extract_lets -merge +onlyGivenNames x2
    have h3 : Touch 580677984543351099184393171763518699883743379014281192 s x2 := by
      unfold x2
      refine Touch.step (stopServices_touch ..) rfl ?_
      refine Touch.step (stopArray_touch ..) rfl ?_
      exact h1
    clear_value x2
    extract_lets -merge +onlyGivenNames x4
    have h5 : Touch 580677984543351099184393171763518699883743379014281192 s x4 := by
      unfold x4
      refine Touch.foldl ?_ (fun x6 x7 h8 => ?_)
      · exact h3
      · refine Touch.step (portDown_touch ..) rfl ?_
        exact h8
    clear_value x4
    extract_lets -merge +onlyGivenNames x9
    have h10 : Touch 580677984543351099184393171763518699883743379014281192 s x9 := by
      unfold x9
      refine Touch.step (modPwr_touch rfl) rfl ?_
      exact h5
    clear_value x9
    extract_lets -merge +onlyGivenNames x11
    have h12 : Touch 580677984543351099184393171763518699883743379014281192 s x11 := by
      unfold x11
      refine Touch.foldl ?_ (fun x13 x14 h15 => ?_)
      · exact h10
      · refine Touch.step (setFld_touch ..) rfl ?_
        exact h15
    clear_value x11
    extract_lets -merge +onlyGivenNames x16
    have h17 : Touch 580677984543351099184393171763518699883743379014281192 s x16 := by
      unfold x16
      refine Touch.foldl ?_ (fun x18 x19 h20 => ?_)
      · exact h12
      · refine Touch.step (mbxServiceDown_touch ..) rfl ?_
        exact h20
    clear_value x16
    extract_lets -merge +onlyGivenNames x21
    have h22 : Touch 580677984543351099184393171763518699883743379014281192 s x21 := by
      unfold x21
      refine Touch.step (setAlert_touch ..) rfl ?_
      refine Touch.step (setReg_touch ..) rfl ?_
      exact h17
    clear_value x21
    extract_lets -merge +onlyGivenNames x23
    have h24 : Touch 580677984543351099184393171763518699883743379014281192 s x23 := by
      unfold x23
      refine Touch.step (irqSend_touch ..) rfl ?_
      refine Touch.step (irqSend_touch ..) rfl ?_
      exact h22
    clear_value x23
    refine Touch.step (modPwr_touch_all ..) rfl ?_
    exact h24

theorem execHwFatal_touch {cause : HwFatal} {s : State} : TouchOut 580677984543351099184393171763518699883743379014281192 s (execHwFatal cause s) := by
  unfold execHwFatal
  refine TouchOut.step (whenMain_touch rfl (fun x0 => ?_)) (Within.refl _) ?_
  · refine Touch.step (enterHardpan_touch ..) rfl ?_
    exact Touch.refl _ _
  · exact Touch.refl _ _

theorem execOvertempTimeout_touch {s : State} : TouchOut 18970624474934017399484557497567228903308612845217507320 s (execOvertempTimeout s) := by
  unfold execOvertempTimeout
  refine TouchOut.step (whenMain_touch rfl (fun x0 => ?_)) (Within.refl _) ?_
  · refine Touch.ite ?_ ?_
    · refine Touch.step (enterHardpan_touch ..) rfl ?_
      refine Touch.step (setEmerg_touch ..) rfl ?_
      exact Touch.refl _ _
    · exact Touch.refl _ _
  · exact Touch.refl _ _

theorem clearKeys_touch {keepStore : Bool} {s : State} : Touch 553402322211715072520 s (clearKeys keepStore s) := by
  unfold clearKeys
  extract_lets -merge +onlyGivenNames x0
  have h1 : Touch 553402322211715072520 s x0 := by
    unfold x0
    refine Touch.foldl ?_ (fun x2 x3 h4 => ?_)
    · exact Touch.refl _ _
    · refine Touch.step (slotConnsSpent_touch ..) rfl ?_
      refine Touch.step (slotZeroize_touch ..) rfl ?_
      exact h4
  clear_value x0
  refine Touch.step (modSec_touch ..) rfl ?_
  exact h1

theorem emptyJournal_touch {s : State} : Touch 12080024025693315452949798563828241318408 s (emptyJournal s) := by
  unfold emptyJournal
  extract_lets -merge +onlyGivenNames x0
  clear_value x0
  extract_lets -merge +onlyGivenNames x1
  clear_value x1
  extract_lets -merge +onlyGivenNames x2
  have h3 : Touch 12080024025693315452949798563828241318408 s x2 := by
    unfold x2
    refine Touch.step (modSto_touch ..) rfl ?_
    exact Touch.refl _ _
  clear_value x2
  refine Touch.step (stoAdvance_touch ..) rfl ?_
  exact h3

theorem drbgFresh_touch {s : State} : Touch 174224571863520493293247799005065332654080 s (drbgFresh s) := by
  unfold drbgFresh
  refine Touch.ite ?_ ?_
  · refine Touch.step (setFld_touch ..) rfl ?_
    refine Touch.step (modSec_touch ..) rfl ?_
    exact Touch.refl _ _
  · exact Touch.refl _ _

theorem disarmAll_touch {s : State} : Touch 114505858842816519000072 s (disarmAll s) := by
  unfold disarmAll
  refine Touch.foldl ?_ (fun x0 x1 h2 => ?_)
  · exact Touch.refl _ _
  · refine Touch.step (cadCtlWrite_touch ..) rfl ?_
    exact h2

theorem deviceZeroize_touch {retire : Bool} {force : Bool} {who : Nat} {s : State} : TouchP 18395938647103909306860688647426707667261870499269898872 s (deviceZeroize retire force who s) := by
  unfold deviceZeroize
  refine TouchP.ite ?_ ?_
  · refine TouchP.mk' ?_
    exact Touch.refl _ _
  · extract_lets -merge +onlyGivenNames x0
    have h1 : Touch 18395938647103909306860688647426707667261870499269898872 s x0 := by
      unfold x0
      refine Touch.step (drbgFresh_touch ..) rfl ?_
      refine Touch.step (emptyJournal_touch ..) rfl ?_
      refine Touch.step (clearKeys_touch ..) rfl ?_
      refine Touch.step (disarmAll_touch ..) rfl ?_
      exact Touch.refl _ _
    clear_value x0
    extract_lets -merge +onlyGivenNames x2
    have h3 : Touch 18395938647103909306860688647426707667261870499269898872 s x2 := by
      unfold x2
      refine Touch.ite ?_ ?_
      · refine Touch.step (setKw_touch ..) rfl ?_
        refine Touch.step (modSec_touch ..) rfl ?_
        exact h1
      · exact h1
    clear_value x2
    refine TouchP.mk' ?_
    refine Touch.step (zeroRecord_touch ..) rfl ?_
    exact h3

theorem islandError_touch {test : Nat} {s : State} : Touch 580677984543525323756256692256811947682748444338546664 s (islandError test s) := by
  unfold islandError
  extract_lets -merge +onlyGivenNames x0
  have h1 : Touch 580677984543525323756256692256811947682748444338546664 s x0 := by
    unfold x0
    refine Touch.step (setFld_touch ..) rfl ?_
    refine Touch.step (setFld_touch ..) rfl ?_
    refine Touch.step (clearKeys_touch ..) rfl ?_
    exact Touch.refl _ _
  clear_value x0
  refine Touch.step (enterHardpan_touch ..) rfl ?_
  exact h1

theorem engineFail_touch {e : Nat} {s : State} : Touch 1219572003044643453052734593035457269858304 s (engineFail e s) := by
  unfold engineFail
  extract_lets -merge +onlyGivenNames x0
  clear_value x0
  refine Touch.ite ?_ ?_
  · exact Touch.refl _ _
  · extract_lets -merge +onlyGivenNames x1
    have h2 : Touch 1219572003044643453052734593035457269858304 s x1 := by
      unfold x1
      refine Touch.step (bumpFld_touch ..) rfl ?_
      exact Touch.refl _ _
    clear_value x1
    refine Touch.ite ?_ ?_
    · extract_lets -merge +onlyGivenNames x3
      have h4 : Touch 1219572003044643453052734593035457269858304 s x3 := by
        unfold x3
        refine Touch.step (setFld_touch ..) rfl ?_
        exact h2
      clear_value x3
      refine Touch.ite ?_ ?_
      · refine Touch.step (setFld_touch ..) rfl ?_
        refine Touch.step (setFld_touch ..) rfl ?_
        exact h4
      · exact h4
    · refine Touch.step (setFld_touch ..) rfl ?_
      refine Touch.step (setFld_touch ..) rfl ?_
      exact h2

theorem bootActions_touch {s : State} : Touch 18395938647103723002264799433617846963805458789629437040 s (bootActions s) := by
  unfold bootActions
  extract_lets -merge +onlyGivenNames x0
  have h1 : Touch 18395938647103723002264799433617846963805458789629437040 s x0 := by
    unfold x0
    refine Touch.step (bootRecord_touch ..) rfl ?_
    refine Touch.step (setKw_touch ..) rfl ?_
    exact Touch.refl _ _
  clear_value x0
  refine Touch.ite ?_ ?_
  · refine Touch.step (log_touch ..) rfl ?_
    refine Touch.step (modPwr_touch rfl) rfl ?_
    exact h1
  · exact h1

theorem selftestPassed_touch {s : State} : Touch 174224571863520493293247799005065332654080 s (selftestPassed s) := by
  unfold selftestPassed
  extract_lets -merge +onlyGivenNames x0
  have h1 : Touch 174224571863520493293247799005065332654080 s x0 := by
    unfold x0
    refine Touch.step (setFld_touch ..) rfl ?_
    refine Touch.step (setFld_touch ..) rfl ?_
    refine Touch.step (setFld_touch ..) rfl ?_
    exact Touch.refl _ _
  clear_value x0
  refine Touch.step (modSec_touch ..) rfl ?_
  exact h1

theorem execIslandSelftestComplete_touch {r : SelfTest} {s : State} : TouchOut 18970624474935236971487602141020281637901648302487365624 s (execIslandSelftestComplete r s) := by
  unfold execIslandSelftestComplete
  split
  · rename_i x0 x1
    refine TouchOut.ite ?_ ?_
    · exact TouchOut.fault _ _ _
    · refine TouchOut.step (whenOn_touch rfl (fun x2 => ?_)) (Within.refl _) ?_
      · refine Touch.ite ?_ ?_
        · refine Touch.step (engineFail_touch ..) rfl ?_
          refine Touch.step (selftestPassed_touch ..) rfl ?_
          refine Touch.ite ?_ ?_
          · refine Touch.step (bootActions_touch ..) rfl ?_
            exact Touch.refl _ _
          · exact Touch.refl _ _
        · exact Touch.refl _ _
      · exact Touch.refl _ _
  · rename_i x3
    refine TouchOut.step (whenOn_touch rfl (fun x4 => ?_)) (Within.refl _) ?_
    · refine Touch.ite ?_ ?_
      · refine Touch.step (selftestPassed_touch ..) rfl ?_
        refine Touch.ite ?_ ?_
        · refine Touch.step (bootActions_touch ..) rfl ?_
          exact Touch.refl _ _
        · exact Touch.refl _ _
      · exact Touch.refl _ _
    · exact Touch.refl _ _
  · rename_i x5 x6
    refine TouchOut.step (whenOn_touch rfl (fun x7 => ?_)) (Within.refl _) ?_
    · refine Touch.ite ?_ ?_
      · refine Touch.step (islandError_touch ..) rfl ?_
        refine Touch.ite ?_ ?_
        · refine Touch.step (bootActions_touch ..) rfl ?_
          exact Touch.refl _ _
        · exact Touch.refl _ _
      · exact Touch.refl _ _
    · exact Touch.refl _ _
  · rename_i x8
    refine TouchOut.step (whenOn_touch rfl (fun x9 => ?_)) (Within.refl _) ?_
    · refine Touch.ite ?_ ?_
      · refine Touch.step (islandError_touch ..) rfl ?_
        refine Touch.step (modSec_touch ..) rfl ?_
        refine Touch.ite ?_ ?_
        · refine Touch.step (bootActions_touch ..) rfl ?_
          exact Touch.refl _ _
        · exact Touch.refl _ _
      · exact Touch.refl _ _
    · exact Touch.refl _ _

theorem setFwState_touch {a0 : Nat} {lo : Nat} {v : Nat} {s : State} : Touch 18395938647103723002264799433617846963805458789629436016 s (setFwState a0 lo v s) := by
  unfold setFwState
  refine Touch.step (setKw_touch ..) rfl ?_
  exact Touch.refl _ _

theorem bundleDone_touch {l : List Component} {s : State} : Touch 18395938647103723002264799433617846963805458789629436016 s (bundleDone l s) := by
  unfold bundleDone
  extract_lets -merge +onlyGivenNames x0
  have h1 : Touch 18395938647103723002264799433617846963805458789629436016 s x0 := by
    unfold x0
    refine Touch.step (setFwState_touch ..) rfl ?_
    exact Touch.refl _ _
  clear_value x0
  extract_lets -merge +onlyGivenNames x2
  have h3 : Touch 18395938647103723002264799433617846963805458789629436016 s x2 := by
    unfold x2
    refine Touch.foldl ?_ (fun x4 x5 h6 => ?_)
    · exact h1
    · refine Touch.ite ?_ ?_
      · refine Touch.step (setKw_touch ..) rfl ?_
        exact h6
      · exact h6
  clear_value x2
  refine Touch.step (setFwState_touch ..) rfl ?_
  refine Touch.step (setFwState_touch ..) rfl ?_
  refine Touch.step (setFwState_touch ..) rfl ?_
  exact h3

theorem bundleCopy_touch : ∀ {l : List Component} {n : Nat} {x : Bool × State}, TouchP 18970624474934017399484557497567228903308612845217507320 x.2 (bundleCopy l n x) := by
  intro l n
  induction n with
  | zero => intro x; exact Touch.refl _ _
  | succ n ih =>
    intro x
    obtain ⟨b, s⟩ := x
    cases b with
    | false => exact Touch.refl _ _
    | true =>
      rw [bundleCopy]
      split
      · exact ih (x := (true, s))
      · extract_lets s1 s2
        have h1 : Touch 18970624474934017399484557497567228903308612845217507320 s s1 := Touch.step setFwState_touch rfl (Touch.refl _ _)
        clear_value s1
        refine TouchP.ite ?_ ?_
        · exact Touch.step enterHardpan_touch rfl (Touch.step setFwState_touch rfl h1)
        · have h2 : Touch 18970624474934017399484557497567228903308612845217507320 s s2 := Touch.step (copy_touch ..) rfl h1
          refine TouchP.step (ih (x := (true, _))) (Within.refl _) ?_
          exact Touch.step (Touch.upd (F := 256) rfl (Or.inr rfl)) rfl h2

theorem bundleApply_touch {orderly : Bool} {bundle : Option (List Component)} {s : State} : TouchP 18970624474934017399484557497567228903308612845217507320 s (bundleApply orderly bundle s) := by
  unfold bundleApply
  extract_lets -merge +onlyGivenNames x0
  clear_value x0
  extract_lets -merge +onlyGivenNames x1
  clear_value x1
  refine TouchP.ite ?_ ?_
  · split
    · rename_i x2 x3 x4 h5
      have h6 : Touch 18970624474934017399484557497567228903308612845217507320 s x4 := by
        refine TouchP.eq ?_ h5
        refine TouchP.ite ?_ ?_
        · refine TouchP.mk' ?_
          exact Touch.refl _ _
        · refine TouchP.step (bundleCopy_touch ..) rfl ?_
          dsimp only
          exact Touch.refl _ _
      refine TouchP.mk' ?_
      refine Touch.ite ?_ ?_
      · refine Touch.step (bundleDone_touch ..) rfl ?_
        exact h6
      · exact h6
  · refine TouchP.ite ?_ ?_
    · split
      · rename_i x7 x8 x9 h10
        refine TouchP.mk' ?_
        refine Touch.step (log_touch ..) rfl ?_
        refine Touch.step (setFwState_touch ..) rfl ?_
        refine Touch.step (setFwState_touch ..) rfl ?_
        exact Touch.refl _ _
      · rename_i x11 h12
        split
        · rename_i x13 x14 x15 h16
          have h17 : Touch 18970624474934017399484557497567228903308612845217507320 s x15 := by
            refine TouchP.eq ?_ h16
            refine TouchP.step (bundleCopy_touch ..) rfl ?_
            dsimp only
            exact Touch.refl _ _
          refine TouchP.mk' ?_
          refine Touch.ite ?_ ?_
          · refine Touch.step (bundleDone_touch ..) rfl ?_
            exact h17
          · exact h17
    · refine TouchP.mk' ?_
      refine Touch.ite ?_ ?_
      · refine Touch.step (setFwState_touch ..) rfl ?_
        exact Touch.refl _ _
      · exact Touch.refl _ _

theorem measure_touch {n : Nat} {s : State} : Touch 8388608 s (measure n s) := by
  unfold measure
  extract_lets -merge +onlyGivenNames x0
  clear_value x0
  refine Touch.step (modSec_touch ..) rfl ?_
  exact Touch.refl _ _

theorem imageFrom_touch {results : List VerifyResult} {a : Nat} {a2 : Nat} {s : State} : TouchP 8388608 s (imageFrom results a a2 s) := by
  induction a2 generalizing a s
  · rw [imageFrom]
    refine TouchP.mk' ?_
    exact Touch.refl _ _
  · rename_i w0 ih
    rw [imageFrom]
    split
    · rename_i x0 x1 h2
      refine TouchP.mk' ?_
      refine Touch.step (measure_touch ..) rfl ?_
      exact Touch.refl _ _
    · rename_i x3 h4
      refine TouchP.step (ih ..) (Within.refl _) ?_
      refine Touch.step (measure_touch ..) rfl ?_
      exact Touch.refl _ _

theorem firmwareVerify_touch {results : List VerifyResult} {bundle : Option (List Component)} {s : State} : Touch 18970624474934191624056421018060522151107617910541772792 s (firmwareVerify results bundle s) := by
  unfold firmwareVerify
  extract_lets -merge +onlyGivenNames x0
  clear_value x0
  extract_lets -merge +onlyGivenNames x1
  have h2 : Touch 18970624474934191624056421018060522151107617910541772792 s x1 := by
    unfold x1
    refine Touch.step (setKw_touch ..) rfl ?_
    exact Touch.refl _ _
  clear_value x1
  refine Touch.ite ?_ ?_
  · refine Touch.step (islandError_touch ..) rfl ?_
    exact h2
  · split
    · rename_i x3 x4 h5
      have h6 : Touch 18970624474934191624056421018060522151107617910541772792 s x4 := by
        refine TouchP.eq ?_ h5
        refine TouchP.step (bundleApply_touch ..) rfl ?_
        exact h2
      exact h6
    · rename_i x7 x8 h9
      have h10 : Touch 18970624474934191624056421018060522151107617910541772792 s x8 := by
        refine TouchP.eq ?_ h9
        refine TouchP.step (bundleApply_touch ..) rfl ?_
        exact h2
      split
      · rename_i x11 x12 x13 x14 h15
        have h16 : Touch 18970624474934191624056421018060522151107617910541772792 s x14 := by
          refine TouchP.eq ?_ h15
          refine TouchP.step (imageFrom_touch ..) rfl ?_
          refine Touch.step (measure_touch ..) rfl ?_
          exact h10
        refine Touch.step (enterHardpan_touch ..) rfl ?_
        exact h16
      · rename_i x17 x18 h19
        have h20 : Touch 18970624474934191624056421018060522151107617910541772792 s x18 := by
          refine TouchP.eq ?_ h19
          refine TouchP.step (imageFrom_touch ..) rfl ?_
          refine Touch.step (measure_touch ..) rfl ?_
          exact h10
        extract_lets -merge +onlyGivenNames x21
        have h22 : Touch 18970624474934191624056421018060522151107617910541772792 s x21 := by
          unfold x21
          refine Touch.step (setFld_touch ..) rfl ?_
          refine Touch.step (setFld_touch ..) rfl ?_
          exact h20
        clear_value x21
        extract_lets -merge +onlyGivenNames x23
        have h24 : Touch 18970624474934191624056421018060522151107617910541772792 s x23 := by
          unfold x23
          refine Touch.foldl ?_ (fun x25 x26 h27 => ?_)
          · exact h22
          · refine Touch.step (setSlot_touch ..) rfl ?_
            exact h27
        clear_value x23
        refine Touch.step (t := x23) (Touch.upd (F := 256) rfl (Or.inr rfl)) rfl ?_
        exact h24

theorem execFirmwareVerify_touch {results : List VerifyResult} {bundle : Option (List Component)} {s : State} : TouchOut 18970624474934191624056421018060522151107617910541772792 s (execFirmwareVerify results bundle s) := by
  unfold execFirmwareVerify
  refine TouchOut.step (whenOn_touch rfl (fun x0 => ?_)) (Within.refl _) ?_
  · refine Touch.ite ?_ ?_
    · refine Touch.step (firmwareVerify_touch ..) rfl ?_
      exact Touch.refl _ _
    · exact Touch.refl _ _
  · exact Touch.refl _ _

theorem execDrbgReseed_touch {s : State} : TouchOut 174224571863520493293247799005065332654080 s (execDrbgReseed s) := by
  unfold execDrbgReseed
  refine TouchOut.step (whenMain_touch rfl (fun x0 => ?_)) (Within.refl _) ?_
  · refine Touch.ite ?_ ?_
    · exact Touch.refl _ _
    · refine Touch.step (drbgFresh_touch ..) rfl ?_
      exact Touch.refl _ _
  · exact Touch.refl _ _

theorem execEntropyHealthFail_touch {s : State} : TouchOut 11324597171128832064061106935329246085644288 s (execEntropyHealthFail s) := by
  unfold execEntropyHealthFail
  refine TouchOut.step (whenMain_touch rfl (fun x0 => ?_)) (Within.refl _) ?_
  · refine Touch.ite ?_ ?_
    · exact Touch.refl _ _
    · extract_lets -merge +onlyGivenNames x1
      have h2 : Touch 11324597171128832064061106935329246085644288 x0 x1 := by
        unfold x1
        refine Touch.step (setFld_touch ..) rfl ?_
        refine Touch.step (bump_touch ..) rfl ?_
        exact Touch.refl _ _
      clear_value x1
      extract_lets -merge +onlyGivenNames x3
      have h4 : Touch 11324597171128832064061106935329246085644288 x0 x3 := by
        unfold x3
        refine Touch.ite ?_ ?_
        · refine Touch.step (setFld_touch ..) rfl ?_
          exact h2
        · exact h2
      clear_value x3
      refine Touch.step (modSec_touch ..) rfl ?_
      exact h4
  · exact Touch.refl _ _

theorem execEntropyStartupTestDone_touch {pass : Bool} {s : State} : TouchOut 580677984543525323756256692256811947682748444338546664 s (execEntropyStartupTestDone pass s) := by
  unfold execEntropyStartupTestDone
  refine TouchOut.step (whenMain_touch rfl (fun x0 => ?_)) (Within.refl _) ?_
  · refine Touch.ite ?_ ?_
    · exact Touch.refl _ _
    · refine Touch.ite ?_ ?_
      · extract_lets -merge +onlyGivenNames x1
        have h2 : Touch 580677984543525323756256692256811947682748444338546664 x0 x1 := by
          unfold x1
          refine Touch.step (setFld_touch ..) rfl ?_
          refine Touch.step (modSec_touch ..) rfl ?_
          exact Touch.refl _ _
        clear_value x1
        refine Touch.ite ?_ ?_
        · refine Touch.step (drbgFresh_touch ..) rfl ?_
          exact h2
        · exact h2
      · split
        · rename_i x3 x4 h5
          refine Touch.ite ?_ ?_
          · refine Touch.step (islandError_touch ..) rfl ?_
            refine Touch.step (modSec_touch ..) rfl ?_
            exact Touch.refl _ _
          · refine Touch.step (modSec_touch ..) rfl ?_
            exact Touch.refl _ _
        · rename_i x6 h7
          refine Touch.step (modSec_touch ..) rfl ?_
          exact Touch.refl _ _
  · exact Touch.refl _ _

theorem keyReq_touch {c : Caller} {op : Nat} {s : State} {body : Nat → State → Option Reply × State} {F : Nat} (hF : Within 134218368 F) (hbody : ∀ (y0 : Nat) (y1 : State), TouchP F y1 (body y0 y1)) : TouchOut F s (keyReq c op s body) := by
  unfold keyReq
  refine TouchOut.step (whenOn_touch (.trans rfl hF) (fun x0 => ?_)) (Within.refl _) ?_
  · refine Touch.step (mbxServe_touch (.trans rfl hF) (fun x1 x2 => ?_)) (Within.refl _) ?_
    · refine TouchP.ite ?_ ?_
      · refine TouchP.step (refuse_touch ..) (.trans rfl hF) ?_
        exact Touch.refl _ _
      · refine TouchP.step (hbody ..) (Within.refl _) ?_
        exact Touch.refl _ _
    · exact Touch.refl _ _
  · exact Touch.refl _ _

theorem execKeyAlloc_touch {c : Caller} {count : Nat} {s : State} : TouchOut 142606976 s (execKeyAlloc c count s) := by
  unfold execKeyAlloc
  refine TouchOut.step (keyReq_touch rfl (fun x0 x1 => ?_)) (Within.refl _) ?_
  · refine TouchP.ite ?_ ?_
    · refine TouchP.step (refuseAt_touch ..) rfl ?_
      exact Touch.refl _ _
    · refine TouchP.ite ?_ ?_
      · refine TouchP.step (refuseAt_touch ..) rfl ?_
        exact Touch.refl _ _
      · refine TouchP.ite ?_ ?_
        · refine TouchP.step (refuse_touch ..) rfl ?_
          exact Touch.refl _ _
        · split
          · rename_i x2 h3
            refine TouchP.step (refuse_touch ..) rfl ?_
            exact Touch.refl _ _
          · rename_i x4 x5 h6
            refine TouchP.step (accept_touch ..) rfl ?_
            refine Touch.foldl ?_ (fun x7 x8 h9 => ?_)
            · exact Touch.refl _ _
            · refine Touch.step (setSlot_touch ..) rfl ?_
              exact h9
  · exact Touch.refl _ _

theorem execKeyGenerate_touch {c : Caller} {slot : Nat} {mode : KeyMode} {limit : BitVec 48} {exportable : Bool} {persistent : Bool} {s : State} : TouchOut 174224571863520493293247799005065735307904 s (execKeyGenerate c slot mode limit exportable persistent s) := by
  unfold execKeyGenerate
  refine TouchOut.step (keyReq_touch rfl (fun x0 x1 => ?_)) (Within.refl _) ?_
  · refine TouchP.ite ?_ ?_
    · refine TouchP.step (refuse_touch ..) rfl ?_
      exact Touch.refl _ _
    · refine TouchP.ite ?_ ?_
      · refine TouchP.step (refuseAt_touch ..) rfl ?_
        exact Touch.refl _ _
      · refine TouchP.ite ?_ ?_
        · refine TouchP.step (refuse_touch ..) rfl ?_
          exact Touch.refl _ _
        · split
          · rename_i x2 x3 x4 h5
            have h6 : Touch 174224571863520493293247799005065735307904 x1 x4 := by
              refine TouchP.eq ?_ h5
              refine TouchP.step (newKey_touch ..) rfl ?_
              exact Touch.refl _ _
            refine TouchP.step (accept_touch ..) rfl ?_
            refine Touch.step (slotLoad_touch ..) rfl ?_
            exact h6
  · exact Touch.refl _ _

theorem execKeyAgree_touch {c : Caller} {pub : List Byte} {s : State} : TouchOut 174224571863520493293247799005065735307904 s (execKeyAgree c pub s) := by
  unfold execKeyAgree
  refine TouchOut.step (keyReq_touch rfl (fun x0 x1 => ?_)) (Within.refl _) ?_
  · refine TouchP.ite ?_ ?_
    · refine TouchP.step (refuse_touch ..) rfl ?_
      exact Touch.refl _ _
    · extract_lets -merge +onlyGivenNames x2
      subst x2
      split
      · rename_i x3 x4 x5 h6
        have h7 : Touch 174224571863520493293247799005065735307904 x1 x5 := by
          refine TouchP.eq ?_ h6
          refine TouchP.step (drbg_touch ..) rfl ?_
          exact Touch.refl _ _
        extract_lets -merge +onlyGivenNames x8
        clear_value x8
        extract_lets -merge +onlyGivenNames x9
        clear_value x9
        extract_lets -merge +onlyGivenNames x10
        clear_value x10
        extract_lets -merge +onlyGivenNames x11
        clear_value x11
        extract_lets -merge +onlyGivenNames x12
        have h13 : Touch 174224571863520493293247799005065735307904 x1 x12 := by
          unfold x12
          refine Touch.step (modSec_touch ..) rfl ?_
          exact h7
        clear_value x12
        refine TouchP.step (accept_touch ..) rfl ?_
        exact h13
  · exact Touch.refl _ _

theorem execKeyImport_touch {c : Caller} {slot : Nat} {mode : KeyMode} {limit : BitVec 48} {transport : Nat} {blob : Blob} {s : State} : TouchOut 22300745198530623141535718272648361648587392 s (execKeyImport c slot mode limit transport blob s) := by
  unfold execKeyImport
  refine TouchOut.step (keyReq_touch rfl (fun x0 x1 => ?_)) (Within.refl _) ?_
  · extract_lets -merge +onlyGivenNames x2
    clear_value x2
    refine TouchP.ite ?_ ?_
    · refine TouchP.step (refuse_touch ..) rfl ?_
      exact Touch.refl _ _
    · split
      · rename_i x3 h4
        refine TouchP.step (refuseAt_touch ..) rfl ?_
        exact Touch.refl _ _
      · rename_i x5 x6 h7
        refine TouchP.ite ?_ ?_
        · refine TouchP.step (refuseAt_touch ..) rfl ?_
          exact Touch.refl _ _
        · refine TouchP.ite ?_ ?_
          · refine TouchP.step (refuseAt_touch ..) rfl ?_
            exact Touch.refl _ _
          · split
            · rename_i x8 h9
              refine TouchP.step (refuse_touch ..) rfl ?_
              refine Touch.step (bump_touch ..) rfl ?_
              exact Touch.refl _ _
            · rename_i x10 x11 h12
              refine TouchP.ite ?_ ?_
              · refine TouchP.step (refuseAt_touch ..) rfl ?_
                exact Touch.refl _ _
              · refine TouchP.ite ?_ ?_
                · refine TouchP.step (refuse_touch ..) rfl ?_
                  exact Touch.refl _ _
                · refine TouchP.step (accept_touch ..) rfl ?_
                  refine Touch.step (slotLoad_touch ..) rfl ?_
                  exact Touch.refl _ _
  · exact Touch.refl _ _

theorem execKeyExport_touch {c : Caller} {slot : Nat} {transport : Nat} {s : State} : TouchOut 134218368 s (execKeyExport c slot transport s) := by
  unfold execKeyExport
  refine TouchOut.step (keyReq_touch rfl (fun x0 x1 => ?_)) (Within.refl _) ?_
  · refine TouchP.ite ?_ ?_
    · refine TouchP.step (refuse_touch ..) rfl ?_
      exact Touch.refl _ _
    · split
      · rename_i x2 h3
        refine TouchP.step (refuse_touch ..) rfl ?_
        exact Touch.refl _ _
      · rename_i x4 x5 h6
        refine TouchP.ite ?_ ?_
        · refine TouchP.step (refuse_touch ..) rfl ?_
          exact Touch.refl _ _
        · refine TouchP.ite ?_ ?_
          · refine TouchP.step (refuse_touch ..) rfl ?_
            exact Touch.refl _ _
          · split
            · rename_i x7 h8
              refine TouchP.step (refuseAt_touch ..) rfl ?_
              exact Touch.refl _ _
            · rename_i x9 x10 h11
              refine TouchP.step (accept_touch ..) rfl ?_
              exact Touch.refl _ _
  · exact Touch.refl _ _

theorem zeroizeSlot_touch {c : Caller} {k : Nat} {s : State} : Touch 5992156713056701964635107814137313782911535141282408 s (zeroizeSlot c k s) := by
  unfold zeroizeSlot
  refine Touch.step (zeroRecord_touch ..) rfl ?_
  refine Touch.step (slotConnsSpent_touch ..) rfl ?_
  refine Touch.step (slotZeroize_touch ..) rfl ?_
  exact Touch.refl _ _

theorem execKeyZeroize_touch {c : Caller} {slot : Nat} {s : State} : TouchOut 5992156713056701964635107814137313782911535141282536 s (execKeyZeroize c slot s) := by
  unfold execKeyZeroize
  refine TouchOut.step (keyReq_touch rfl (fun x0 x1 => ?_)) (Within.refl _) ?_
  · refine TouchP.ite ?_ ?_
    · refine TouchP.step (accept_touch ..) rfl ?_
      refine Touch.step (zeroizeSlot_touch ..) rfl ?_
      exact Touch.refl _ _
    · refine TouchP.step (refuse_touch ..) rfl ?_
      exact Touch.refl _ _
  · exact Touch.refl _ _

theorem execKeyQuery_touch {c : Caller} {slot : Nat} {s : State} : TouchOut 134218368 s (execKeyQuery c slot s) := by
  unfold execKeyQuery
  refine TouchOut.step (keyReq_touch rfl (fun x0 x1 => ?_)) (Within.refl _) ?_
  · refine TouchP.ite ?_ ?_
    · refine TouchP.step (refuse_touch ..) rfl ?_
      exact Touch.refl _ _
    · split
      · rename_i x2 h3
        refine TouchP.step (refuse_touch ..) rfl ?_
        exact Touch.refl _ _
      · rename_i x4 x5 h6
        refine TouchP.step (accept_touch ..) rfl ?_
        exact Touch.refl _ _
  · exact Touch.refl _ _

theorem execKeyFree_touch {c : Caller} {slot : Nat} {count : Nat} {s : State} : TouchOut 5992156713056701964635107814137313782911535141282536 s (execKeyFree c slot count s) := by
  unfold execKeyFree
  refine TouchOut.step (keyReq_touch rfl (fun x0 x1 => ?_)) (Within.refl _) ?_
  · refine TouchP.ite ?_ ?_
    · refine TouchP.step (refuseAt_touch ..) rfl ?_
      exact Touch.refl _ _
    · refine TouchP.ite ?_ ?_
      · refine TouchP.step (refuseAt_touch ..) rfl ?_
        exact Touch.refl _ _
      · refine TouchP.ite ?_ ?_
        · refine TouchP.step (refuse_touch ..) rfl ?_
          exact Touch.refl _ _
        · refine TouchP.step (accept_touch ..) rfl ?_
          refine Touch.foldl ?_ (fun x2 x3 h4 => ?_)
          · exact Touch.refl _ _
          · refine Touch.step (modSec_touch ..) rfl ?_
            refine Touch.step (zeroizeSlot_touch ..) rfl ?_
            exact h4
  · exact Touch.refl _ _

theorem execContextRestore_touch {serial : Nat} {generation : Nat} {macOk : Bool} {s : State} : TouchOut 22300745198530623141535718272648361514369024 s (execContextRestore serial generation macOk s) := by
  unfold execContextRestore
  refine TouchOut.step (whenEngine_touch rfl (fun x0 => ?_)) (Within.refl _) ?_
  · refine Touch.ite ?_ ?_
    · refine Touch.step (bump_touch ..) rfl ?_
      refine Touch.step (modSec_touch ..) rfl ?_
      exact Touch.refl _ _
    · refine Touch.ite ?_ ?_
      · refine Touch.step (modSec_touch ..) rfl ?_
        exact Touch.refl _ _
      · refine Touch.step (modSec_touch ..) rfl ?_
        exact Touch.refl _ _
  · exact Touch.refl _ _

theorem execCipherShadowMismatch_touch {engine : Nat} {s : State} : TouchOut 5992156715670070542587915213535477365665303290191968 s (execCipherShadowMismatch engine s) := by
  unfold execCipherShadowMismatch
  refine TouchOut.ite ?_ ?_
  · exact TouchOut.fault _ _ _
  · refine TouchOut.step (whenEngine_touch rfl (fun x0 => ?_)) (Within.refl _) ?_
    · refine Touch.step (log_touch ..) rfl ?_
      refine Touch.step (engineFail_touch ..) rfl ?_
      refine Touch.step (bump_touch ..) rfl ?_
      exact Touch.refl _ _
    · exact Touch.refl _ _

theorem spdmError_touch {code : Nat} {s : State} : Touch 134217728 s (spdmError code s) := by
  unfold spdmError
  refine Touch.step (emit_touch ..) rfl ?_
  exact Touch.refl _ _

theorem spdmGate_touch {rom : Bool} {stage : Nat} {s : State} {f : State → State} {F : Nat} (hF : Within 134217728 F) (hf : ∀ (y0 : State), Touch F y0 (f y0)) : TouchOut F s (spdmGate rom stage s f) := by
  unfold spdmGate
  refine TouchOut.step (whenMain_touch (.trans rfl hF) (fun x0 => ?_)) (Within.refl _) ?_
  · refine Touch.ite ?_ ?_
    · refine Touch.step (spdmError_touch ..) (.trans rfl hF) ?_
      exact Touch.refl _ _
    · refine Touch.ite ?_ ?_
      · refine Touch.step (spdmError_touch ..) (.trans rfl hF) ?_
        exact Touch.refl _ _
      · refine Touch.step (hf ..) (Within.refl _) ?_
        exact Touch.refl _ _
  · exact Touch.refl _ _

theorem spdmStageTo_touch {n : Nat} {s : State} : Touch 8388608 s (spdmStageTo n s) := by
  unfold spdmStageTo
  refine Touch.step (modSec_touch ..) rfl ?_
  exact Touch.refl _ _

theorem execSpdmGetVersion_touch {s : State} : TouchOut 142606336 s (execSpdmGetVersion s) := by
  unfold execSpdmGetVersion
  refine TouchOut.step (spdmGate_touch rfl (fun x0 => ?_)) (Within.refl _) ?_
  · refine Touch.step (emit_touch ..) rfl ?_
    refine Touch.step (spdmStageTo_touch ..) rfl ?_
    exact Touch.refl _ _
  · exact Touch.refl _ _

theorem execSpdmGetCapabilities_touch {s : State} : TouchOut 142606336 s (execSpdmGetCapabilities s) := by
  unfold execSpdmGetCapabilities
  refine TouchOut.step (spdmGate_touch rfl (fun x0 => ?_)) (Within.refl _) ?_
  · refine Touch.step (emit_touch ..) rfl ?_
    refine Touch.step (spdmStageTo_touch ..) rfl ?_
    exact Touch.refl _ _
  · exact Touch.refl _ _

theorem execSpdmNegotiateAlgorithms_touch {supported : Bool} {s : State} : TouchOut 142606336 s (execSpdmNegotiateAlgorithms supported s) := by
  unfold execSpdmNegotiateAlgorithms
  refine TouchOut.step (spdmGate_touch rfl (fun x0 => ?_)) (Within.refl _) ?_
  · refine Touch.ite ?_ ?_
    · refine Touch.step (emit_touch ..) rfl ?_
      refine Touch.step (spdmStageTo_touch ..) rfl ?_
      exact Touch.refl _ _
    · refine Touch.step (spdmError_touch ..) rfl ?_
      exact Touch.refl _ _
  · exact Touch.refl _ _

theorem execSpdmGetDigests_touch {s : State} : TouchOut 134217728 s (execSpdmGetDigests s) := by
  unfold execSpdmGetDigests
  refine TouchOut.step (spdmGate_touch rfl (fun x0 => ?_)) (Within.refl _) ?_
  · extract_lets -merge +onlyGivenNames x1
    clear_value x1
    refine Touch.step (emit_touch ..) rfl ?_
    exact Touch.refl _ _
  · exact Touch.refl _ _

theorem execSpdmGetCertificate_touch {slot : Nat} {off : Nat} {len : Nat} {s : State} : TouchOut 134217728 s (execSpdmGetCertificate slot off len s) := by
  unfold execSpdmGetCertificate
  refine TouchOut.step (spdmGate_touch rfl (fun x0 => ?_)) (Within.refl _) ?_
  · split
    · rename_i x1 h2
      refine Touch.step (spdmError_touch ..) rfl ?_
      exact Touch.refl _ _
    · rename_i x3 x4 h5
      refine Touch.ite ?_ ?_
      · refine Touch.step (spdmError_touch ..) rfl ?_
        exact Touch.refl _ _
      · extract_lets -merge +onlyGivenNames x6
        clear_value x6
        refine Touch.step (emit_touch ..) rfl ?_
        exact Touch.refl _ _
  · exact Touch.refl _ _

theorem spdmSigned_touch {code : Nat} {fields : List Nat} {body : List Byte} {a3 : List Byte} {s : State} : Touch 174224571863520493293247799005065735307264 s (spdmSigned code fields body a3 s) := by
  unfold spdmSigned
  refine Touch.ite ?_ ?_
  · refine Touch.step (spdmError_touch ..) rfl ?_
    exact Touch.refl _ _
  · split
    · rename_i x0 x1 x2 h3
      have h4 : Touch 174224571863520493293247799005065735307264 s x2 := by
        refine TouchP.eq ?_ h3
        refine TouchP.step (drbg_touch ..) rfl ?_
        exact Touch.refl _ _
      extract_lets -merge +onlyGivenNames x5
      clear_value x5
      refine Touch.step (emit_touch ..) rfl ?_
      exact h4

theorem execSpdmChallenge_touch {slot : Nat} {nonce : List Byte} {s : State} : TouchOut 174224571863520493293247799005065735307264 s (execSpdmChallenge slot nonce s) := by
  unfold execSpdmChallenge
  refine TouchOut.step (spdmGate_touch rfl (fun x0 => ?_)) (Within.refl _) ?_
  · split
    · rename_i x1 h2
      refine Touch.step (spdmError_touch ..) rfl ?_
      exact Touch.refl _ _
    · rename_i x3 x4 h5
      refine Touch.step (spdmSigned_touch ..) rfl ?_
      exact Touch.refl _ _
  · exact Touch.refl _ _

theorem execSpdmGetMeasurements_touch {index : Nat} {signed : Bool} {nonce : List Byte} {s : State} : TouchOut 174224571863520493293247799005065735307264 s (execSpdmGetMeasurements index signed nonce s) := by
  unfold execSpdmGetMeasurements
  refine TouchOut.step (spdmGate_touch rfl (fun x0 => ?_)) (Within.refl _) ?_
  · refine Touch.ite ?_ ?_
    · refine Touch.step (spdmError_touch ..) rfl ?_
      exact Touch.refl _ _
    · extract_lets -merge +onlyGivenNames x1
      clear_value x1
      extract_lets -merge +onlyGivenNames x2
      clear_value x2
      refine Touch.ite ?_ ?_
      · refine Touch.step (spdmSigned_touch ..) rfl ?_
        exact Touch.refl _ _
      · refine Touch.step (emit_touch ..) rfl ?_
        exact Touch.refl _ _
  · exact Touch.refl _ _

theorem execSpdmKeyExchange_touch {slot : Nat} {pub : List Byte} {s : State} : TouchOut 174224571863520493293247799005065735307264 s (execSpdmKeyExchange slot pub s) := by
  unfold execSpdmKeyExchange
  refine TouchOut.step (spdmGate_touch rfl (fun x0 => ?_)) (Within.refl _) ?_
  · refine Touch.ite ?_ ?_
    · refine Touch.step (spdmError_touch ..) rfl ?_
      exact Touch.refl _ _
    · refine Touch.ite ?_ ?_
      · refine Touch.step (spdmError_touch ..) rfl ?_
        exact Touch.refl _ _
      · refine Touch.ite ?_ ?_
        · refine Touch.step (spdmError_touch ..) rfl ?_
          exact Touch.refl _ _
        · extract_lets -merge +onlyGivenNames x1
          subst x1
          split
          · rename_i x2 x3 x4 h5
            have h6 : Touch 174224571863520493293247799005065735307264 x0 x4 := by
              refine TouchP.eq ?_ h5
              refine TouchP.step (drbg_touch ..) rfl ?_
              exact Touch.refl _ _
            extract_lets -merge +onlyGivenNames x7
            clear_value x7
            extract_lets -merge +onlyGivenNames x8
            have h9 : Touch 174224571863520493293247799005065735307264 x0 x8 := by
              unfold x8
              refine Touch.step (modSec_touch ..) rfl ?_
              exact h6
            clear_value x8
            refine Touch.step (spdmSigned_touch ..) rfl ?_
            exact h9
  · exact Touch.refl _ _

theorem endSession_touch {id : Nat} {s : State} : Touch 8388608 s (endSession id s) := by
  unfold endSession
  refine Touch.step (modSec_touch ..) rfl ?_
  exact Touch.refl _ _

theorem execSpdmFinish_touch {session : Nat} {ok : Bool} {s : State} : TouchOut 142606336 s (execSpdmFinish session ok s) := by
  unfold execSpdmFinish
  refine TouchOut.step (spdmGate_touch rfl (fun x0 => ?_)) (Within.refl _) ?_
  · split
    · rename_i x1 h2
      refine Touch.step (spdmError_touch ..) rfl ?_
      exact Touch.refl _ _
    · rename_i x3 x4 h5
      refine Touch.ite ?_ ?_
      · refine Touch.step (spdmError_touch ..) rfl ?_
        exact Touch.refl _ _
      · refine Touch.ite ?_ ?_
        · refine Touch.step (emit_touch ..) rfl ?_
          refine Touch.step (modSec_touch ..) rfl ?_
          exact Touch.refl _ _
        · refine Touch.step (spdmError_touch ..) rfl ?_
          refine Touch.step (endSession_touch ..) rfl ?_
          exact Touch.refl _ _
  · exact Touch.refl _ _

theorem inSession_touch {session : Nat} {s : State} {f : State → State} {F : Nat} (hF : Within 134217728 F) (hf : ∀ (y0 : State), Touch F y0 (f y0)) : TouchOut F s (inSession session s f) := by
  unfold inSession
  refine TouchOut.step (spdmGate_touch (.trans rfl hF) (fun x0 => ?_)) (Within.refl _) ?_
  · split
    · rename_i x1 x2 h3
      refine Touch.ite ?_ ?_
      · refine Touch.step (hf ..) (Within.refl _) ?_
        exact Touch.refl _ _
      · refine Touch.step (spdmError_touch ..) (.trans rfl hF) ?_
        exact Touch.refl _ _
    · rename_i x4 h5
      refine Touch.step (spdmError_touch ..) (.trans rfl hF) ?_
      exact Touch.refl _ _
  · exact Touch.refl _ _

theorem execSpdmHeartbeat_touch {session : Nat} {s : State} : TouchOut 134217728 s (execSpdmHeartbeat session s) := by
  unfold execSpdmHeartbeat
  refine TouchOut.step (inSession_touch rfl (fun x0 => ?_)) (Within.refl _) ?_
  · refine Touch.step (emit_touch ..) rfl ?_
    exact Touch.refl _ _
  · exact Touch.refl _ _

theorem execSpdmKeyUpdate_touch {session : Nat} {s : State} : TouchOut 134217728 s (execSpdmKeyUpdate session s) := by
  unfold execSpdmKeyUpdate
  refine TouchOut.step (inSession_touch rfl (fun x0 => ?_)) (Within.refl _) ?_
  · refine Touch.step (emit_touch ..) rfl ?_
    exact Touch.refl _ _
  · exact Touch.refl _ _

theorem execSpdmEndSession_touch {session : Nat} {s : State} : TouchOut 142606336 s (execSpdmEndSession session s) := by
  unfold execSpdmEndSession
  refine TouchOut.step (inSession_touch rfl (fun x0 => ?_)) (Within.refl _) ?_
  · refine Touch.step (emit_touch ..) rfl ?_
    refine Touch.step (endSession_touch ..) rfl ?_
    exact Touch.refl _ _
  · exact Touch.refl _ _

theorem execSpdmSetCertificate_touch {session : Nat} {slot : Nat} {chain : List Byte} {s : State} : TouchOut 18395938647103723002264799433617846963805458789772042352 s (execSpdmSetCertificate session slot chain s) := by
  unfold execSpdmSetCertificate
  refine TouchOut.step (inSession_touch rfl (fun x0 => ?_)) (Within.refl _) ?_
  · refine Touch.ite ?_ ?_
    · refine Touch.step (spdmError_touch ..) rfl ?_
      exact Touch.refl _ _
    · refine Touch.ite ?_ ?_
      · refine Touch.step (spdmError_touch ..) rfl ?_
        exact Touch.refl _ _
      · refine Touch.step (emit_touch ..) rfl ?_
        refine Touch.step (setKw_touch ..) rfl ?_
        refine Touch.step (modSec_touch ..) rfl ?_
        exact Touch.refl _ _
  · exact Touch.refl _ _

theorem spdmZeroize_touch {retire : Bool} {force : Bool} {s : State} : Touch 18395938647103909306860688647426707667261870499269898872 s (spdmZeroize retire force s) := by
  unfold spdmZeroize
  split
  · rename_i x0 x1 x2 h3
    have h4 : Touch 18395938647103909306860688647426707667261870499269898872 s x2 := by
      refine TouchP.eq ?_ h3
      refine TouchP.step (deviceZeroize_touch ..) rfl ?_
      exact Touch.refl _ _
    refine Touch.step (emit_touch ..) rfl ?_
    exact h4

theorem execSpdmVendorDefinedRequest_touch {session : Nat} {retire : Bool} {force : Bool} {s : State} : TouchOut 18395938647103909306860688647426707667261870499269898872 s (execSpdmVendorDefinedRequest session retire force s) := by
  unfold execSpdmVendorDefinedRequest
  refine TouchOut.step (inSession_touch rfl (fun x0 => ?_)) (Within.refl _) ?_
  · refine Touch.step (spdmZeroize_touch ..) rfl ?_
    exact Touch.refl _ _
  · exact Touch.refl _ _

theorem zeroizeBy_touch {a : Agent} {op : Nat} {retire : Bool} {force : Bool} {s : State} : TouchOut 18395938647103909306860688647426707667261870499269899000 s (zeroizeBy a op retire force s) := by
  unfold zeroizeBy
  split
  · rename_i x0
    refine TouchOut.step (whenOn_touch rfl (fun x1 => ?_)) (Within.refl _) ?_
    · refine Touch.step (mbxServe_touch rfl (fun x2 x3 => ?_)) (Within.refl _) ?_
      · refine TouchP.ite ?_ ?_
        · refine TouchP.step (refuse_touch ..) rfl ?_
          exact Touch.refl _ _
        · split
          · rename_i x4 x5 x6 h7
            have h8 : Touch 18395938647103909306860688647426707667261870499269899000 x3 x6 := by
              refine TouchP.eq ?_ h7
              refine TouchP.step (deviceZeroize_touch ..) rfl ?_
              exact Touch.refl _ _
            refine TouchP.ite ?_ ?_
            · refine TouchP.step (accept_touch ..) rfl ?_
              exact h8
            · refine TouchP.step (refuse_touch ..) rfl ?_
              exact h8
      · exact Touch.refl _ _
    · exact Touch.refl _ _
  · rename_i x9
    refine TouchOut.step (spdmGate_touch rfl (fun x10 => ?_)) (Within.refl _) ?_
    · refine Touch.ite ?_ ?_
      · refine Touch.step (spdmZeroize_touch ..) rfl ?_
        exact Touch.refl _ _
      · refine Touch.step (spdmError_touch ..) rfl ?_
        exact Touch.refl _ _
    · exact Touch.refl _ _
  · rename_i x11 h12 h13
    refine TouchOut.next ?_
    exact Touch.refl _ _

theorem execZeroize_touch {a : Agent} {force : Bool} {s : State} : TouchOut 18395938647103909306860688647426707667261870499269899000 s (execZeroize a force s) := by
  unfold execZeroize
  refine TouchOut.step (zeroizeBy_touch) rfl ?_
  exact Touch.refl _ _

theorem execLifecycleRetire_touch {a : Agent} {s : State} : TouchOut 18395938647103909306860688647426707667261870499269899000 s (execLifecycleRetire a s) := by
  unfold execLifecycleRetire
  refine TouchOut.step (zeroizeBy_touch) rfl ?_
  exact Touch.refl _ _

theorem modJob_touch {s : State} {f : Job → Job} : Touch 262144 s (State.modJob s f) := by
  unfold State.modJob
  refine Touch.step (t := s) (Touch.upd (F := 262144) rfl (Or.inr rfl)) rfl ?_
  exact Touch.refl _ _

theorem setBootPhase_touch {p : Nat} {s : State} : Touch 1208925819614629174706176 s (setBootPhase p s) := by
  unfold setBootPhase
  refine Touch.step (setFld_touch ..) rfl ?_
  exact Touch.refl _ _

theorem bringStatus_touch {st : Status} {s : State} : Touch 1208925819614629174706176 s (bringStatus st s) := by
  unfold bringStatus
  refine Touch.step (setFld_touch ..) rfl ?_
  exact Touch.refl _ _

theorem askChunk_touch {i : Nat} {tries : Nat} {s : State} : Touch 134479872 s (askChunk i tries s) := by
  unfold askChunk
  refine Touch.step (emit_touch ..) rfl ?_
  refine Touch.step (modJob_touch ..) rfl ?_
  exact Touch.refl _ _

theorem askService_touch {n : Nat} {s : State} : Touch 1208925819614629309186048 s (askService n s) := by
  unfold askService
  split
  · rename_i x0 x1 h2
    refine Touch.step (askChunk_touch ..) rfl ?_
    refine Touch.step (modJob_touch ..) rfl ?_
    exact Touch.refl _ _
  · rename_i x3 h4
    refine Touch.step (bringStatus_touch ..) rfl ?_
    refine Touch.step (modJob_touch ..) rfl ?_
    exact Touch.refl _ _

theorem passService_touch {s : State} : Touch 1208925819614629309186048 s (passService s) := by
  unfold passService
  refine Touch.step (askService_touch ..) rfl ?_
  exact Touch.refl _ _

theorem showRole_touch {s : State} : Touch 3626777458843887524118528 s (showRole s) := by
  unfold showRole
  extract_lets -merge +onlyGivenNames x0
  have h1 : Touch 3626777458843887524118528 s x0 := by
    unfold x0
    refine Touch.step (setFld_touch ..) rfl ?_
    exact Touch.refl _ _
  clear_value x0
  refine Touch.step (setFld_touch ..) rfl ?_
  refine Touch.step (setFld_touch ..) rfl ?_
  exact h1

theorem receiveBring_touch {m : Msg} {s : State} {f : State → State} {F : Nat} (hF : Within 262144 F) (hf : ∀ (y0 : State), Touch F y0 (f y0)) : TouchOut F s (receiveBring m s f) := by
  unfold receiveBring
  refine TouchOut.step (whenOn_touch (.trans rfl hF) (fun x0 => ?_)) (Within.refl _) ?_
  · extract_lets -merge +onlyGivenNames x1
    clear_value x1
    refine Touch.ite ?_ ?_
    · refine Touch.step (discard_touch ..) (.trans rfl hF) ?_
      exact Touch.refl _ _
    · refine Touch.step (hf ..) (Within.refl _) ?_
      refine Touch.step (modJob_touch ..) (.trans rfl hF) ?_
      exact Touch.refl _ _
  · exact Touch.refl _ _

theorem toBoth_touch {m : Msg} {s : State} : Touch 134479872 s (toBoth m s) := by
  unfold toBoth
  refine Touch.ite ?_ ?_
  · refine Touch.ite ?_ ?_
    · refine Touch.step (sendMsg_touch ..) rfl ?_
      exact Touch.refl _ _
    · exact Touch.refl _ _
  · refine Touch.step (sendMsg_touch ..) rfl ?_
    exact Touch.refl _ _

theorem atPair_touch {m : Msg} {act : State → State} {s : State} {F : Nat} (hF : Within 134479872 F) (hact : ∀ (y0 : State), Touch F y0 (act y0)) : Touch F s (atPair m act s) := by
  unfold atPair
  extract_lets -merge +onlyGivenNames x0
  clear_value x0
  refine Touch.ite ?_ ?_
  · refine Touch.step (hact ..) (Within.refl _) ?_
    refine Touch.ite ?_ ?_
    · refine Touch.step (sendMsg_touch ..) (.trans rfl hF) ?_
      exact Touch.refl _ _
    · exact Touch.refl _ _
  · refine Touch.ite ?_ ?_
    · refine Touch.step (hact ..) (Within.refl _) ?_
      refine Touch.ite ?_ ?_
      · refine Touch.step (sendMsg_touch ..) (.trans rfl hF) ?_
        exact Touch.refl _ _
      · exact Touch.refl _ _
    · refine Touch.step (sendMsg_touch ..) (.trans rfl hF) ?_
      exact Touch.refl _ _

theorem bringDown_touch {a0 : Bool} {m : Msg} {s : State} : Touch 134479872 s (bringDown a0 m s) := by
  unfold bringDown
  extract_lets -merge +onlyGivenNames x0
  clear_value x0
  refine Touch.foldl ?_ (fun x1 x2 h3 => ?_)
  · exact Touch.refl _ _
  · refine Touch.step (sendMsg_touch ..) rfl ?_
    exact h3

theorem bringFailed_touch {st : Status} {idx : Nat} {s : State} : Touch 5992156713056701964635107815345686200203952600916064 s (bringFailed st idx s) := by
  unfold bringFailed
  refine Touch.step (log_touch ..) rfl ?_
  refine Touch.step (setBootPhase_touch ..) rfl ?_
  refine Touch.step (bringStatus_touch ..) rfl ?_
  exact Touch.refl _ _

theorem bringFail_touch {st : Status} {idx : Nat} {s : State} : Touch 5992156713056701964635107815345686200203952735395936 s (bringFail st idx s) := by
  unfold bringFail
  refine Touch.step (bringFailed_touch ..) rfl ?_
  refine Touch.step (bringDown_touch ..) rfl ?_
  exact Touch.refl _ _

theorem sendHello_touch {p : Nat} {s : State} : Touch 134479872 s (sendHello p s) := by
  unfold sendHello
  refine Touch.step (sendMsg_touch ..) rfl ?_
  exact Touch.refl _ _

theorem checkBarrier_touch {s : State} : Touch 1208925819614629309186048 s (checkBarrier s) := by
  unfold checkBarrier
  split
  · rename_i x0 h1
    exact Touch.refl _ _
  · rename_i x2 x3 h4
    refine Touch.ite ?_ ?_
    · exact Touch.refl _ _
    · extract_lets -merge +onlyGivenNames x5
      have h6 : Touch 1208925819614629309186048 s x5 := by
        unfold x5
        refine Touch.step (setBootPhase_touch ..) rfl ?_
        exact Touch.refl _ _
      clear_value x5
      extract_lets -merge +onlyGivenNames x7
      clear_value x7
      extract_lets -merge +onlyGivenNames x8
      clear_value x8
      refine Touch.ite ?_ ?_
      · exact h6
      · refine Touch.ite ?_ ?_
        · refine Touch.ite ?_ ?_
          · exact h6
          · refine Touch.step (sendMsg_touch ..) rfl ?_
            refine Touch.step (modJob_touch ..) rfl ?_
            exact h6
        · refine Touch.ite ?_ ?_
          · exact h6
          · extract_lets -merge +onlyGivenNames x9
            clear_value x9
            refine Touch.step (bringDown_touch ..) rfl ?_
            refine Touch.step (modJob_touch ..) rfl ?_
            exact h6

theorem applyFinal_touch {l : List (Nat × Nat × Nat)} {payload : List Byte} {s : State} : Touch 5992156713056701964635107817763537839433211084808288 s (applyFinal l payload s) := by
  unfold applyFinal
  split
  · rename_i x0 h1
    exact Touch.refl _ _
  · rename_i x2 x3 h4
    extract_lets -merge +onlyGivenNames x5
    clear_value x5
    extract_lets -merge +onlyGivenNames x6
    clear_value x6
    extract_lets -merge +onlyGivenNames x7
    clear_value x7
    split
    · rename_i x8 x9 x10 h11
      extract_lets -merge +onlyGivenNames x12
      clear_value x12
      extract_lets -merge +onlyGivenNames x13
      have h14 : Touch 5992156713056701964635107817763537839433211084808288 s x13 := by
        unfold x13
        refine Touch.step (modJob_touch ..) rfl ?_
        exact Touch.refl _ _
      clear_value x13
      extract_lets -merge +onlyGivenNames x15
      have h16 : Touch 5992156713056701964635107817763537839433211084808288 s x15 := by
        unfold x15
        refine Touch.step (showRole_touch ..) rfl ?_
        exact h14
      clear_value x15
      extract_lets -merge +onlyGivenNames x17
      have h18 : Touch 5992156713056701964635107817763537839433211084808288 s x17 := by
        unfold x17
        refine Touch.ite ?_ ?_
        · refine Touch.step (setBootPhase_touch ..) rfl ?_
          exact h16
        · exact h16
      clear_value x17
      extract_lets -merge +onlyGivenNames x19
      have h20 : Touch 5992156713056701964635107817763537839433211084808288 s x19 := by
        unfold x19
        refine Touch.foldl ?_ (fun x21 x22 h23 => ?_)
        · exact h18
        · refine Touch.ite ?_ ?_
          · exact h23
          · refine Touch.step (sendHello_touch ..) rfl ?_
            refine Touch.step (modJob_touch ..) rfl ?_
            exact h23
      clear_value x19
      extract_lets -merge +onlyGivenNames x24
      have h25 : Touch 5992156713056701964635107817763537839433211084808288 s x24 := by
        unfold x24
        split
        · rename_i x26
          exact h20
        · rename_i x27 x28
          extract_lets -merge +onlyGivenNames x29
          clear_value x29
          split
          · rename_i x30 x31 x32 x33 h34 h35
            refine Touch.ite ?_ ?_
            · refine Touch.step (log_touch ..) rfl ?_
              exact h20
            · exact h20
          · rename_i x36 x37 h38
            exact h20
      clear_value x24
      refine Touch.step (checkBarrier_touch ..) rfl ?_
      exact h25

theorem sendFinal_touch {gone : List Nat} {s : State} : Touch 5992156713056701964635107817763537839433211084808288 s (sendFinal gone s) := by
  unfold sendFinal
  extract_lets -merge +onlyGivenNames x0
  clear_value x0
  extract_lets -merge +onlyGivenNames x1
  clear_value x1
  extract_lets -merge +onlyGivenNames x2
  clear_value x2
  extract_lets -merge +onlyGivenNames x3
  clear_value x3
  split
  · rename_i x4 x5 h6
    refine Touch.step (bringFail_touch ..) rfl ?_
    exact Touch.refl _ _
  · rename_i x7 x8 h9
    extract_lets -merge +onlyGivenNames x10
    clear_value x10
    extract_lets -merge +onlyGivenNames x11
    clear_value x11
    refine Touch.step (applyFinal_touch ..) rfl ?_
    refine Touch.step (bringDown_touch ..) rfl ?_
    exact Touch.refl _ _

theorem checkinAt_touch {id : Nat} {late : Bool} {s : State} : Touch 5992156713056701964635107817763537839433211084808288 s (checkinAt id late s) := by
  unfold checkinAt
  refine Touch.ite ?_ ?_
  · exact Touch.refl _ _
  · extract_lets -merge +onlyGivenNames x0
    clear_value x0
    extract_lets -merge +onlyGivenNames x1
    have h2 : Touch 5992156713056701964635107817763537839433211084808288 s x1 := by
      unfold x1
      refine Touch.step (modJob_touch ..) rfl ?_
      exact Touch.refl _ _
    clear_value x1
    refine Touch.ite ?_ ?_
    · refine Touch.step (sendFinal_touch ..) rfl ?_
      exact h2
    · exact h2

theorem sendCheckin_touch {s : State} : Touch 5992156713056701964635107817763537839433211084808288 s (sendCheckin s) := by
  unfold sendCheckin
  extract_lets -merge +onlyGivenNames x0
  clear_value x0
  extract_lets -merge +onlyGivenNames x1
  have h2 : Touch 5992156713056701964635107817763537839433211084808288 s x1 := by
    unfold x1
    refine Touch.ite ?_ ?_
    · refine Touch.step (checkinAt_touch ..) rfl ?_
      exact Touch.refl _ _
    · exact Touch.refl _ _
  clear_value x1
  refine Touch.step (toBoth_touch ..) rfl ?_
  exact h2

theorem loadRoster_touch {s : State} : Touch 5992156713056701964635107817763537839433211084808288 s (loadRoster s) := by
  unfold loadRoster
  extract_lets -merge +onlyGivenNames x0
  clear_value x0
  split
  · rename_i x1 h2
    refine Touch.step (passService_touch ..) rfl ?_
    refine Touch.step (bringStatus_touch ..) rfl ?_
    exact Touch.refl _ _
  · rename_i x3 x4 h5
    extract_lets -merge +onlyGivenNames x6
    have h7 : Touch 5992156713056701964635107817763537839433211084808288 s x6 := by
      unfold x6
      refine Touch.step (modJob_touch ..) rfl ?_
      exact Touch.refl _ _
    clear_value x6
    extract_lets -merge +onlyGivenNames x8
    have h9 : Touch 5992156713056701964635107817763537839433211084808288 s x8 := by
      unfold x8
      refine Touch.step (showRole_touch ..) rfl ?_
      exact h7
    clear_value x8
    refine Touch.ite ?_ ?_
    · refine Touch.step (bringStatus_touch ..) rfl ?_
      exact h9
    · refine Touch.step (sendCheckin_touch ..) rfl ?_
      refine Touch.step (bringStatus_touch ..) rfl ?_
      exact h9

theorem startFetch_touch {s : State} : Touch 1208925819614629309186048 s (startFetch s) := by
  unfold startFetch
  refine Touch.step (askService_touch ..) rfl ?_
  refine Touch.step (setBootPhase_touch ..) rfl ?_
  exact Touch.refl _ _

theorem linkPhase_touch {s : State} : Touch 1208925819614629309186048 s (linkPhase s) := by
  unfold linkPhase
  refine Touch.ite ?_ ?_
  · refine Touch.step (startFetch_touch ..) rfl ?_
    refine Touch.step (modJob_touch ..) rfl ?_
    exact Touch.refl _ _
  · exact Touch.refl _ _

theorem execEthPortUp_touch {port : Nat} {s : State} : TouchOut 1208925819614629342740480 s (execEthPortUp port s) := by
  unfold execEthPortUp
  refine TouchOut.ite ?_ ?_
  · exact TouchOut.fault _ _ _
  · refine TouchOut.step (whenOn_touch rfl (fun x0 => ?_)) (Within.refl _) ?_
    · refine Touch.step (linkPhase_touch ..) rfl ?_
      refine Touch.step (portUp_touch ..) rfl ?_
      exact Touch.refl _ _
    · exact Touch.refl _ _

theorem askMore_touch {a : Nat} {s : State} : Touch 134479872 s (askMore a s) := by
  induction a generalizing s
  · rw [askMore]
    exact Touch.refl _ _
  · rename_i w0 ih
    rw [askMore]
    refine Touch.ite ?_ ?_
    · exact Touch.refl _ _
    · split
      · rename_i x0 x1 h2
        refine Touch.step (ih ..) (Within.refl _) ?_
        refine Touch.step (askChunk_touch ..) rfl ?_
        exact Touch.refl _ _
      · rename_i x3 h4
        exact Touch.refl _ _

theorem execRosterGetReply_touch {svc : Nat} {chunk : Nat} {total : Nat} {data : List Byte} {s : State} : TouchOut 5992156713056701964635107817763537839433211084808288 s (execRosterGetReply svc chunk total data s) := by
  unfold execRosterGetReply
  refine TouchOut.step (whenOn_touch rfl (fun x0 => ?_)) (Within.refl _) ?_
  · extract_lets -merge +onlyGivenNames x1
    subst x1
    refine Touch.ite ?_ ?_
    · exact Touch.refl _ _
    · refine Touch.ite ?_ ?_
      · refine Touch.step (passService_touch ..) rfl ?_
        refine Touch.step (bringStatus_touch ..) rfl ?_
        exact Touch.refl _ _
      · refine Touch.ite ?_ ?_
        · exact Touch.refl _ _
        · extract_lets -merge +onlyGivenNames x2
          have h3 : Touch 5992156713056701964635107817763537839433211084808288 x0 x2 := by
            unfold x2
            refine Touch.step (modJob_touch ..) rfl ?_
            exact Touch.refl _ _
          clear_value x2
          refine Touch.ite ?_ ?_
          · refine Touch.step (loadRoster_touch ..) rfl ?_
            exact h3
          · refine Touch.step (askMore_touch ..) rfl ?_
            exact h3
  · exact Touch.refl _ _

theorem execRosterChunkTimeout_touch {chunk : Nat} {s : State} : TouchOut 1208925819614629309186048 s (execRosterChunkTimeout chunk s) := by
  unfold execRosterChunkTimeout
  refine TouchOut.step (whenOn_touch rfl (fun x0 => ?_)) (Within.refl _) ?_
  · split
    · rename_i x1 h2
      exact Touch.refl _ _
    · rename_i x3 x4 h5
      refine Touch.ite ?_ ?_
      · exact Touch.refl _ _
      · refine Touch.ite ?_ ?_
        · refine Touch.step (passService_touch ..) rfl ?_
          exact Touch.refl _ _
        · refine Touch.step (askChunk_touch ..) rfl ?_
          exact Touch.refl _ _
  · exact Touch.refl _ _

theorem execRosterRetryTimer_touch {s : State} : TouchOut 1208925819614629309186048 s (execRosterRetryTimer s) := by
  unfold execRosterRetryTimer
  refine TouchOut.step (whenOn_touch rfl (fun x0 => ?_)) (Within.refl _) ?_
  · refine Touch.ite ?_ ?_
    · refine Touch.step (askService_touch ..) rfl ?_
      exact Touch.refl _ _
    · exact Touch.refl _ _
  · exact Touch.refl _ _

theorem execRosterRefetch_touch {s : State} : TouchOut 1208925819614629309186048 s (execRosterRefetch s) := by
  unfold execRosterRefetch
  refine TouchOut.step (whenOn_touch rfl (fun x0 => ?_)) (Within.refl _) ?_
  · refine Touch.ite ?_ ?_
    · refine Touch.step (askService_touch ..) rfl ?_
      exact Touch.refl _ _
    · exact Touch.refl _ _
  · exact Touch.refl _ _

theorem execBringupPhaseDeadline_touch {s : State} : TouchOut 5992156713056701964635107815345686200203952601178208 s (execBringupPhaseDeadline s) := by
  unfold execBringupPhaseDeadline
  refine TouchOut.step (whenOn_touch rfl (fun x0 => ?_)) (Within.refl _) ?_
  · refine Touch.ite ?_ ?_
    · exact Touch.refl _ _
    · refine Touch.step (log_touch ..) rfl ?_
      refine Touch.step (bringStatus_touch ..) rfl ?_
      refine Touch.step (modJob_touch ..) rfl ?_
      exact Touch.refl _ _
  · exact Touch.refl _ _

theorem execCheckin_touch {m : Msg} {s : State} : TouchOut 5992156713056701964635107817763537839433211084808288 s (execCheckin m s) := by
  unfold execCheckin
  refine TouchOut.step (receiveBring_touch rfl (fun x0 => ?_)) (Within.refl _) ?_
  · refine Touch.step (atPair_touch rfl (fun x1 => ?_)) (Within.refl _) ?_
    · refine Touch.ite ?_ ?_
      · refine Touch.step (checkinAt_touch ..) rfl ?_
        exact Touch.refl _ _
      · exact Touch.refl _ _
    · exact Touch.refl _ _
  · exact Touch.refl _ _

theorem execRosterFinalDeadline_touch {s : State} : TouchOut 5992156713056701964635107817763537839433211084810336 s (execRosterFinalDeadline s) := by
  unfold execRosterFinalDeadline
  refine TouchOut.step (whenOn_touch rfl (fun x0 => ?_)) (Within.refl _) ?_
  · split
    · rename_i x1 h2
      exact Touch.refl _ _
    · rename_i x3 x4 h5
      refine Touch.ite ?_ ?_
      · refine Touch.step (sendFinal_touch ..) rfl ?_
        refine Touch.step (ftReach_touch ..) rfl ?_
        exact Touch.refl _ _
      · exact Touch.refl _ _
  · exact Touch.refl _ _

theorem execRosterFinalMissing_touch {s : State} : TouchOut 5992156713056701964635107815345686200203952600918112 s (execRosterFinalMissing s) := by
  unfold execRosterFinalMissing
  refine TouchOut.step (whenOn_touch rfl (fun x0 => ?_)) (Within.refl _) ?_
  · split
    · rename_i x1 h2
      exact Touch.refl _ _
    · rename_i x3 x4 h5
      refine Touch.ite ?_ ?_
      · refine Touch.step (bringFailed_touch ..) rfl ?_
        refine Touch.step (ftReach_touch ..) rfl ?_
        exact Touch.refl _ _
      · exact Touch.refl _ _
  · exact Touch.refl _ _

theorem execRosterFinal_touch {m : Msg} {s : State} : TouchOut 5992156713056701964635107817763537839433211084808288 s (execRosterFinal m s) := by
  unfold execRosterFinal
  refine TouchOut.step (receiveBring_touch rfl (fun x0 => ?_)) (Within.refl _) ?_
  · extract_lets -merge +onlyGivenNames x1
    have h2 : Touch 5992156713056701964635107817763537839433211084808288 x0 x1 := by
      unfold x1
      refine Touch.step (bringDown_touch ..) rfl ?_
      exact Touch.refl _ _
    clear_value x1
    refine Touch.ite ?_ ?_
    · refine Touch.step (bringFailed_touch ..) rfl ?_
      exact h2
    · refine Touch.ite ?_ ?_
      · exact h2
      · refine Touch.step (applyFinal_touch ..) rfl ?_
        exact h2
  · exact Touch.refl _ _

theorem execHello_touch {m : Msg} {s : State} : TouchOut 5992156713056701964635107815345686200203952735395936 s (execHello m s) := by
  unfold execHello
  refine TouchOut.step (receiveBring_touch rfl (fun x0 => ?_)) (Within.refl _) ?_
  · refine Touch.ite ?_ ?_
    · exact Touch.refl _ _
    · refine Touch.ite ?_ ?_
      · refine Touch.step (sendMsg_touch ..) rfl ?_
        exact Touch.refl _ _
      · extract_lets -merge +onlyGivenNames x1
        have h2 : Touch 5992156713056701964635107815345686200203952735395936 x0 x1 := by
          unfold x1
          refine Touch.step (sendMsg_touch ..) rfl ?_
          exact Touch.refl _ _
        clear_value x1
        refine Touch.ite ?_ ?_
        · refine Touch.step (bringFail_touch ..) rfl ?_
          exact h2
        · exact h2
  · exact Touch.refl _ _

theorem execHelloAck_touch {m : Msg} {s : State} : TouchOut 5992156713056701964635107815345686200203952735395936 s (execHelloAck m s) := by
  unfold execHelloAck
  refine TouchOut.step (receiveBring_touch rfl (fun x0 => ?_)) (Within.refl _) ?_
  · extract_lets -merge +onlyGivenNames x1
    clear_value x1
    refine Touch.ite ?_ ?_
    · exact Touch.refl _ _
    · refine Touch.ite ?_ ?_
      · refine Touch.step (checkBarrier_touch ..) rfl ?_
        refine Touch.step (modJob_touch ..) rfl ?_
        exact Touch.refl _ _
      · extract_lets -merge +onlyGivenNames x2
        have h3 : Touch 5992156713056701964635107815345686200203952735395936 x0 x2 := by
          unfold x2
          refine Touch.step (sendMsg_touch ..) rfl ?_
          exact Touch.refl _ _
        clear_value x2
        refine Touch.ite ?_ ?_
        · refine Touch.step (bringFail_touch ..) rfl ?_
          exact h3
        · exact h3
  · exact Touch.refl _ _

theorem noAnswerAt_touch {idx : Nat} {who : Nat} {s : State} : Touch 5992156713056701964635107817763537839433211084808288 s (noAnswerAt idx who s) := by
  unfold noAnswerAt
  split
  · rename_i x0 h1
    exact Touch.refl _ _
  · rename_i x2 x3 h4
    extract_lets -merge +onlyGivenNames x5
    clear_value x5
    extract_lets -merge +onlyGivenNames x6
    have h7 : Touch 5992156713056701964635107817763537839433211084808288 s x6 := by
      unfold x6
      refine Touch.step (modJob_touch ..) rfl ?_
      exact Touch.refl _ _
    clear_value x6
    extract_lets -merge +onlyGivenNames x8
    clear_value x8
    extract_lets -merge +onlyGivenNames x9
    clear_value x9
    extract_lets -merge +onlyGivenNames x10
    clear_value x10
    extract_lets -merge +onlyGivenNames x11
    clear_value x11
    extract_lets -merge +onlyGivenNames x12
    clear_value x12
    extract_lets -merge +onlyGivenNames x13
    clear_value x13
    refine Touch.ite ?_ ?_
    · exact h7
    · refine Touch.step (sendFinal_touch ..) rfl ?_
      refine Touch.step (modJob_touch ..) rfl ?_
      exact h7

theorem reportNoAnswer_touch {idx : Nat} {s : State} : Touch 5992156713056701964635107817763537839433211084808288 s (reportNoAnswer idx s) := by
  unfold reportNoAnswer
  extract_lets -merge +onlyGivenNames x0
  have h1 : Touch 5992156713056701964635107817763537839433211084808288 s x0 := by
    unfold x0
    refine Touch.step (toBoth_touch ..) rfl ?_
    exact Touch.refl _ _
  clear_value x0
  refine Touch.ite ?_ ?_
  · refine Touch.step (noAnswerAt_touch ..) rfl ?_
    exact h1
  · exact h1

theorem execHelloTimeout_touch {index : Nat} {s : State} : TouchOut 5992156713056701964635107817763537839433211084808288 s (execHelloTimeout index s) := by
  unfold execHelloTimeout
  refine TouchOut.step (whenOn_touch rfl (fun x0 => ?_)) (Within.refl _) ?_
  · split
    · rename_i x1 h2
      exact Touch.refl _ _
    · rename_i x3 x4 h5
      refine Touch.ite ?_ ?_
      · exact Touch.refl _ _
      · refine Touch.ite ?_ ?_
        · refine Touch.step (sendHello_touch ..) rfl ?_
          refine Touch.step (modJob_touch ..) rfl ?_
          exact Touch.refl _ _
        · refine Touch.step (reportNoAnswer_touch ..) rfl ?_
          refine Touch.step (modJob_touch ..) rfl ?_
          exact Touch.refl _ _
  · exact Touch.refl _ _

theorem execNoAnswer_touch {m : Msg} {s : State} : TouchOut 5992156713056701964635107817763537839433211084808288 s (execNoAnswer m s) := by
  unfold execNoAnswer
  refine TouchOut.step (receiveBring_touch rfl (fun x0 => ?_)) (Within.refl _) ?_
  · refine Touch.step (atPair_touch rfl (fun x1 => ?_)) (Within.refl _) ?_
    · refine Touch.step (noAnswerAt_touch ..) rfl ?_
      exact Touch.refl _ _
    · exact Touch.refl _ _
  · exact Touch.refl _ _

theorem execBarrier_touch {m : Msg} {s : State} : TouchOut 5992156713056701964635107815345686200203952735395936 s (execBarrier m s) := by
  unfold execBarrier
  refine TouchOut.step (receiveBring_touch rfl (fun x0 => ?_)) (Within.refl _) ?_
  · refine Touch.ite ?_ ?_
    · refine Touch.ite ?_ ?_
      · refine Touch.step (bringFail_touch ..) rfl ?_
        exact Touch.refl _ _
      · refine Touch.step (sendMsg_touch ..) rfl ?_
        exact Touch.refl _ _
    · refine Touch.ite ?_ ?_
      · exact Touch.refl _ _
      · refine Touch.ite ?_ ?_
        · refine Touch.step (sendMsg_touch ..) rfl ?_
          exact Touch.refl _ _
        · refine Touch.step (checkBarrier_touch ..) rfl ?_
          refine Touch.step (modJob_touch ..) rfl ?_
          exact Touch.refl _ _
  · exact Touch.refl _ _

theorem execBarrierChildDeadline_touch {child : Nat} {s : State} : TouchOut 5992156713056701964635107817763537839433211084810336 s (execBarrierChildDeadline child s) := by
  unfold execBarrierChildDeadline
  refine TouchOut.step (whenOn_touch rfl (fun x0 => ?_)) (Within.refl _) ?_
  · split
    · rename_i x1 h2
      exact Touch.refl _ _
    · rename_i x3 x4 h5
      refine Touch.ite ?_ ?_
      · exact Touch.refl _ _
      · extract_lets -merge +onlyGivenNames x6
        have h7 : Touch 5992156713056701964635107817763537839433211084810336 x0 x6 := by
          unfold x6
          refine Touch.step (ftReach_touch ..) rfl ?_
          exact Touch.refl _ _
        clear_value x6
        extract_lets -merge +onlyGivenNames x8
        have h9 : Touch 5992156713056701964635107817763537839433211084810336 x0 x8 := by
          unfold x8
          refine Touch.step (reportNoAnswer_touch ..) rfl ?_
          exact h7
        clear_value x8
        refine Touch.ite ?_ ?_
        · exact h9
        · refine Touch.step (checkBarrier_touch ..) rfl ?_
          refine Touch.step (modJob_touch ..) rfl ?_
          exact h9
  · exact Touch.refl _ _

theorem execBringupTimeout_touch {s : State} : TouchOut 5992156713056701964635107815345686200203952735397984 s (execBringupTimeout s) := by
  unfold execBringupTimeout
  refine TouchOut.step (whenOn_touch rfl (fun x0 => ?_)) (Within.refl _) ?_
  · split
    · rename_i x1 h2
      exact Touch.refl _ _
    · rename_i x3 x4 h5
      refine Touch.ite ?_ ?_
      · exact Touch.refl _ _
      · refine Touch.step (bringFail_touch ..) rfl ?_
        refine Touch.step (ftReach_touch ..) rfl ?_
        exact Touch.refl _ _
  · exact Touch.refl _ _

theorem execJobReady_touch {m : Msg} {s : State} : TouchOut 134479872 s (execJobReady m s) := by
  unfold execJobReady
  refine TouchOut.step (receiveBring_touch rfl (fun x0 => ?_)) (Within.refl _) ?_
  · extract_lets -merge +onlyGivenNames x1
    have h2 : Touch 134479872 x0 x1 := by
      unfold x1
      refine Touch.step (bringDown_touch ..) rfl ?_
      exact Touch.refl _ _
    clear_value x1
    refine Touch.ite ?_ ?_
    · exact h2
    · refine Touch.step (modJob_touch ..) rfl ?_
      exact h2
  · exact Touch.refl _ _

theorem execJobReadyTime_touch {s : State} : TouchOut 85070591730240660494941725003882956800 s (execJobReadyTime s) := by
  unfold execJobReadyTime
  refine TouchOut.step (whenOn_touch rfl (fun x0 => ?_)) (Within.refl _) ?_
  · split
    · rename_i x1 h2
      exact Touch.refl _ _
    · rename_i x3 x4 h5
      refine Touch.ite ?_ ?_
      · exact Touch.refl _ _
      · extract_lets -merge +onlyGivenNames x6
        have h7 : Touch 85070591730240660494941725003882956800 x0 x6 := by
          unfold x6
          refine Touch.step (setBootPhase_touch ..) rfl ?_
          refine Touch.step (bringStatus_touch ..) rfl ?_
          refine Touch.step (ftReach_touch ..) rfl ?_
          exact Touch.refl _ _
        clear_value x6
        refine Touch.step (stoMode_touch ..) rfl ?_
        refine Touch.step (modJob_touch ..) rfl ?_
        refine Touch.step (setReg_touch ..) rfl ?_
        exact h7
  · exact Touch.refl _ _

theorem execBringupFail_touch {m : Msg} {s : State} : TouchOut 5992156713056701964635107815345686200203952735395936 s (execBringupFail m s) := by
  unfold execBringupFail
  refine TouchOut.step (receiveBring_touch rfl (fun x0 => ?_)) (Within.refl _) ?_
  · extract_lets -merge +onlyGivenNames x1
    have h2 : Touch 5992156713056701964635107815345686200203952735395936 x0 x1 := by
      unfold x1
      refine Touch.step (bringDown_touch ..) rfl ?_
      exact Touch.refl _ _
    clear_value x1
    refine Touch.ite ?_ ?_
    · exact h2
    · refine Touch.step (bringFailed_touch ..) rfl ?_
      exact h2
  · exact Touch.refl _ _

theorem execBringupRestart_touch {c : Caller} {s : State} : TouchOut 8462480737302404357423744 s (execBringupRestart c s) := by
  unfold execBringupRestart
  refine TouchOut.step (whenOn_touch rfl (fun x0 => ?_)) (Within.refl _) ?_
  · refine Touch.step (mbxServe_touch rfl (fun x1 x2 => ?_)) (Within.refl _) ?_
    · refine TouchP.ite ?_ ?_
      · refine TouchP.step (refuse_touch ..) rfl ?_
        exact Touch.refl _ _
      · refine TouchP.ite ?_ ?_
        · refine TouchP.step (refuse_touch ..) rfl ?_
          exact Touch.refl _ _
        · extract_lets -merge +onlyGivenNames x3
          have h4 : Touch 8462480737302404357423744 x2 x3 := by
            unfold x3
            refine Touch.step (modJob_touch ..) rfl ?_
            exact Touch.refl _ _
          clear_value x3
          refine TouchP.step (accept_touch ..) rfl ?_
          refine Touch.step (startFetch_touch ..) rfl ?_
          refine Touch.step (showRole_touch ..) rfl ?_
          refine Touch.step (setReg_touch ..) rfl ?_
          exact h4
    · exact Touch.refl _ _
  · exact Touch.refl _ _

theorem execPairKeyExchange_touch {peer : Nat} {jobId : Nat} {peerPub : List Byte} {ephPub : List Byte} {sigOk : Bool} {s : State} : TouchOut 5992156713230926536498628311056785638438276685897824 s (execPairKeyExchange peer jobId peerPub ephPub sigOk s) := by
  unfold execPairKeyExchange
  refine TouchOut.step (whenOn_touch rfl (fun x0 => ?_)) (Within.refl _) ?_
  · split
    · rename_i x1 x2 x3 x4 h5 h6
      refine Touch.ite ?_ ?_
      · exact Touch.refl _ _
      · refine Touch.ite ?_ ?_
        · extract_lets -merge +onlyGivenNames x7
          have h8 : Touch 5992156713230926536498628311056785638438276685897824 x0 x7 := by
            unfold x7
            refine Touch.step (log_touch ..) rfl ?_
            exact Touch.refl _ _
          clear_value x7
          refine Touch.ite ?_ ?_
          · refine Touch.step (reportNoAnswer_touch ..) rfl ?_
            exact h8
          · exact h8
        · extract_lets -merge +onlyGivenNames x9
          subst x9
          split
          · rename_i x10 x11 x12 h13
            have h14 : Touch 5992156713230926536498628311056785638438276685897824 x0 x12 := by
              refine TouchP.eq ?_ h13
              refine TouchP.step (drbg_touch ..) rfl ?_
              exact Touch.refl _ _
            extract_lets -merge +onlyGivenNames x15
            clear_value x15
            split
            · rename_i x16 h17
              exact h14
            · rename_i x18 x19 h20
              extract_lets -merge +onlyGivenNames x21
              clear_value x21
              split
              · rename_i x22 x23 x24 h25
                extract_lets -merge +onlyGivenNames x26
                clear_value x26
                extract_lets -merge +onlyGivenNames x27
                clear_value x27
                extract_lets -merge +onlyGivenNames x28
                have h29 : Touch 5992156713230926536498628311056785638438276685897824 x0 x28 := by
                  unfold x28
                  refine Touch.step (slotLoad_touch ..) rfl ?_
                  refine Touch.step (setSlot_touch ..) rfl ?_
                  exact h14
                clear_value x28
                extract_lets -merge +onlyGivenNames x30
                have h31 : Touch 5992156713230926536498628311056785638438276685897824 x0 x30 := by
                  unfold x30
                  refine Touch.step (modSec_touch ..) rfl ?_
                  exact h29
                clear_value x30
                extract_lets -merge +onlyGivenNames x32
                have h33 : Touch 5992156713230926536498628311056785638438276685897824 x0 x32 := by
                  unfold x32
                  refine Touch.step (modJob_touch ..) rfl ?_
                  exact h31
                clear_value x32
                extract_lets -merge +onlyGivenNames x34
                clear_value x34
                refine Touch.step (emit_touch ..) rfl ?_
                exact h33
    · rename_i x35 x36 h37
      exact Touch.refl _ _
  · exact Touch.refl _ _

theorem execPowerAverageInterval_touch {average : Nat} {others : Nat} {s : State} : TouchOut 1024 s (execPowerAverageInterval average others s) := by
  unfold execPowerAverageInterval
  refine TouchOut.step (whenOn_touch rfl (fun x0 => ?_)) (Within.refl _) ?_
  · extract_lets -merge +onlyGivenNames x1
    clear_value x1
    extract_lets -merge +onlyGivenNames x2
    clear_value x2
    extract_lets -merge +onlyGivenNames x3
    clear_value x3
    extract_lets -merge +onlyGivenNames x4
    clear_value x4
    refine Touch.step (modPwr_touch rfl) rfl ?_
    exact Touch.refl _ _
  · exact Touch.refl _ _

theorem thermtripNow_touch {s : State} : Touch 18395938647103723002264799433617846963805458790737290352 s (thermtripNow s) := by
  unfold thermtripNow
  extract_lets -merge +onlyGivenNames x0
  have h1 : Touch 18395938647103723002264799433617846963805458790737290352 s x0 := by
    unfold x0
    refine Touch.step (setEmerg_touch ..) rfl ?_
    exact Touch.refl _ _
  clear_value x0
  refine Touch.step (t := x0) (Touch.upd (F := 1107854336) rfl (Or.inl rfl)) rfl ?_
  exact h1

theorem thermalAct_touch {tj : Nat} {s : State} : Touch 18587500589711959109559592812011635611757801181144458992 s (thermalAct tj s) := by
  unfold thermalAct
  extract_lets -merge +onlyGivenNames x0
  have h1 : Touch 18587500589711959109559592812011635611757801181144458992 s x0 := by
    unfold x0
    refine Touch.ite ?_ ?_
    · refine Touch.step (setAlert_touch ..) rfl ?_
      refine Touch.step (modPwr_touch rfl) rfl ?_
      exact Touch.refl _ _
    · refine Touch.ite ?_ ?_
      · refine Touch.step (modPwr_touch rfl) rfl ?_
        exact Touch.refl _ _
      · exact Touch.refl _ _
  clear_value x0
  extract_lets -merge +onlyGivenNames x2
  have h3 : Touch 18587500589711959109559592812011635611757801181144458992 s x2 := by
    unfold x2
    refine Touch.ite ?_ ?_
    · exact h1
    · refine Touch.step (setAlert_touch ..) rfl ?_
      exact h1
  clear_value x2
  extract_lets -merge +onlyGivenNames x4
  have h5 : Touch 18587500589711959109559592812011635611757801181144458992 s x4 := by
    unfold x4
    refine Touch.ite ?_ ?_
    · refine Touch.step (modPwr_touch rfl) rfl ?_
      exact h3
    · refine Touch.ite ?_ ?_
      · refine Touch.step (modPwr_touch rfl) rfl ?_
        exact h1
      · exact h1
  clear_value x4
  extract_lets -merge +onlyGivenNames x6
  have h7 : Touch 18587500589711959109559592812011635611757801181144458992 s x6 := by
    unfold x6
    refine Touch.step (modPwr_touch rfl) rfl ?_
    exact h5
  clear_value x6
  refine Touch.ite ?_ ?_
  · refine Touch.step (thermtripNow_touch ..) rfl ?_
    exact h7
  · exact h7

theorem execThermalSample_touch {a0 : List (Option Nat)} {t0 : List (Option Nat)} {t1 : List (Option Nat)} {silt0 : List (Option Nat)} {silt1 : List (Option Nat)} {s : State} : TouchOut 18683281561016077163206989501208529935733972376280934128 s (execThermalSample a0 t0 t1 silt0 silt1 s) := by
  unfold execThermalSample
  refine TouchOut.step (whenMain_touch rfl (fun x0 => ?_)) (Within.refl _) ?_
  · extract_lets -merge +onlyGivenNames x1
    clear_value x1
    extract_lets -merge +onlyGivenNames x2
    clear_value x2
    extract_lets -merge +onlyGivenNames x3
    have h4 : Touch 18683281561016077163206989501208529935733972376280934128 x0 x3 := by
      unfold x3
      refine Touch.foldl ?_ (fun x5 x6 h7 => ?_)
      · exact Touch.refl _ _
      · refine Touch.step (log_touch ..) rfl ?_
        exact h7
    clear_value x3
    extract_lets -merge +onlyGivenNames x8
    have h9 : Touch 18683281561016077163206989501208529935733972376280934128 x0 x8 := by
      unfold x8
      refine Touch.ite ?_ ?_
      · exact h4
      · refine Touch.step (setAlert_touch ..) rfl ?_
        exact h4
    clear_value x8
    extract_lets -merge +onlyGivenNames x10
    clear_value x10
    extract_lets -merge +onlyGivenNames x11
    clear_value x11
    extract_lets -merge +onlyGivenNames x12
    clear_value x12
    extract_lets -merge +onlyGivenNames x13
    clear_value x13
    extract_lets -merge +onlyGivenNames x14
    clear_value x14
    extract_lets -merge +onlyGivenNames x15
    have h16 : Touch 18683281561016077163206989501208529935733972376280934128 x0 x15 := by
      unfold x15
      refine Touch.step (modPwr_touch rfl) rfl ?_
      exact h9
    clear_value x15
    extract_lets -merge +onlyGivenNames x17
    have h18 : Touch 18683281561016077163206989501208529935733972376280934128 x0 x17 := by
      unfold x17
      refine Touch.step (setReg_touch ..) rfl ?_
      exact h16
    clear_value x17
    refine Touch.step (thermalAct_touch ..) rfl ?_
    exact h18
  · exact Touch.refl _ _

theorem execThrottleStep_touch {s : State} : TouchOut 1024 s (execThrottleStep s) := by
  unfold execThrottleStep
  refine TouchOut.step (whenMain_touch rfl (fun x0 => ?_)) (Within.refl _) ?_
  · refine Touch.ite ?_ ?_
    · exact Touch.refl _ _
    · split
      · rename_i x1 h2
        exact Touch.refl _ _
      · rename_i x3 x4 h5
        refine Touch.ite ?_ ?_
        · refine Touch.step (modPwr_touch rfl) rfl ?_
          exact Touch.refl _ _
        · refine Touch.ite ?_ ?_
          · refine Touch.step (modPwr_touch rfl) rfl ?_
            exact Touch.refl _ _
          · exact Touch.refl _ _
  · exact Touch.refl _ _

theorem execBrakeNAssert_touch {ns : Nat} {s : State} : TouchOut 191561942608236107294793378393788647952342390407169664 s (execBrakeNAssert ns s) := by
  unfold execBrakeNAssert
  refine TouchOut.step (whenMain_touch rfl (fun x0 => ?_)) (Within.refl _) ?_
  · refine Touch.ite ?_ ?_
    · exact Touch.refl _ _
    · refine Touch.step (setAlert_touch ..) rfl ?_
      refine Touch.step (modPwr_touch rfl) rfl ?_
      exact Touch.refl _ _
  · exact Touch.refl _ _

theorem execBrakeNDeassert_touch {s : State} : TouchOut 1024 s (execBrakeNDeassert s) := by
  unfold execBrakeNDeassert
  refine TouchOut.step (whenMain_touch rfl (fun x0 => ?_)) (Within.refl _) ?_
  · refine Touch.ite ?_ ?_
    · refine Touch.step (modPwr_touch rfl) rfl ?_
      exact Touch.refl _ _
    · exact Touch.refl _ _
  · exact Touch.refl _ _

theorem execBrakeLong_touch {s : State} : TouchOut 18395938647103723002264799433617846963805458789629436016 s (execBrakeLong s) := by
  unfold execBrakeLong
  refine TouchOut.step (whenMain_touch rfl (fun x0 => ?_)) (Within.refl _) ?_
  · refine Touch.ite ?_ ?_
    · refine Touch.step (setEmerg_touch ..) rfl ?_
      exact Touch.refl _ _
    · exact Touch.refl _ _
  · exact Touch.refl _ _

theorem coldFields_touch : ∀ {s : State}, Touch 24519928653854221733733552434404946937899825954937634815 s (coldFields s) := by
  intro s
  exact ⟨rfl, Memory.filter_wf s.mem _, List.suffix_rfl, le_refl _, touchAll (i := 30) (by decide),
    fun _ h => touchReg h,
    touchAll (i := 1) (by decide), touchAll (i := 2) (by decide), touchAll (i := 3) (by decide), touchAll (i := 4) (by decide), touchAll (i := 5) (by decide), touchAll (i := 6) (by decide), touchAll (i := 7) (by decide),
    touchAll (i := 8) (by decide), touchAll (i := 9) (by decide), touchAll (i := 10) (by decide), touchAll (i := 11) (by decide), touchAll (i := 12) (by decide), touchAll (i := 13) (by decide), touchAll (i := 14) (by decide),
    touchAll (i := 15) (by decide), touchAll (i := 16) (by decide), touchAll (i := 17) (by decide), touchAll (i := 18) (by decide), touchAll (i := 19) (by decide), touchAll (i := 20) (by decide), touchAll (i := 21) (by decide),
    touchAll (i := 22) (by decide), touchAll (i := 23) (by decide), touchAll (i := 24) (by decide), touchAll (i := 25) (by decide), touchAll (i := 26) (by decide), touchAll (i := 27) (by decide), touchAll (i := 28) (by decide)⟩

theorem portModes_touch {s : State} : Touch 33554432 s (portModes s) := by
  unfold portModes
  refine Touch.step (t := s) (Touch.upd (F := 33554432) rfl (Or.inr rfl)) rfl ?_
  exact Touch.refl _ _

theorem coldStart_touch : ∀ {s : State}, Touch 24519928653854221733733552434404946937899825954937634815 s (coldStart s) := by
  intro s
  unfold coldStart
  extract_lets s1 s2 s3 s4 s5 s6 s7
  have h2 : Touch 24519928653854221733733552434404946937899825954937634815 s s2 := Touch.step (setReg_touch ..) rfl coldFields_touch
  have h3 : Touch 24519928653854221733733552434404946937899825954937634815 s s3 := by
    refine Touch.foldl h2 (fun t x h => ?_)
    exact Touch.ite (Touch.step (setFld_touch ..) rfl h) h
  have h4 : Touch 24519928653854221733733552434404946937899825954937634815 s s4 := Touch.step portModes_touch rfl h3
  have h5 : Touch 24519928653854221733733552434404946937899825954937634815 s s5 := Touch.step (modPwr_touch_all ..) rfl h4
  have h6 : Touch 24519928653854221733733552434404946937899825954937634815 s s6 := Touch.step (setReg_touch ..) rfl h5
  have h7 : Touch 24519928653854221733733552434404946937899825954937634815 s s7 := Touch.step (setReg_touch ..) rfl h6
  exact Touch.ite h7 (Touch.step modFt_touch rfl h7)

theorem startUp_touch {s : State} : Touch 24519928653854221733733552434404946937899825954937634815 s (startUp s) := by
  unfold startUp
  refine Touch.step (bootActions_touch ..) rfl ?_
  refine Touch.step (setFld_touch ..) rfl ?_
  refine Touch.step (coldStart_touch ..) rfl ?_
  exact Touch.refl _ _

theorem persistAll_touch {s : State} : Touch 16 s (persistAll s) := by
  unfold persistAll
  refine Touch.step (t := s) (Touch.upd (F := 16) rfl (Or.inr rfl)) rfl ?_
  exact Touch.refl _ _

theorem mainStops_touch {st : PwrState} {s : State} : Touch 1107854384 s (mainStops st s) := by
  unfold mainStops
  extract_lets -merge +onlyGivenNames x0
  have h1 : Touch 1107854384 s x0 := by
    unfold x0
    refine Touch.step (persistAll_touch ..) rfl ?_
    exact Touch.refl _ _
  clear_value x0
  refine Touch.step (t := x0) (Touch.upd (F := 1107854368) rfl (Or.inl rfl)) rfl ?_
  exact h1

theorem watcherActive_touch {src : Nat} {s : State} : Touch 2854495385411919762116571938898990272900236800 s (watcherActive src s) := by
  unfold watcherActive
  extract_lets -merge +onlyGivenNames x0
  clear_value x0
  refine Touch.ite ?_ ?_
  · exact Touch.refl _ _
  · extract_lets -merge +onlyGivenNames x1
    have h2 : Touch 2854495385411919762116571938898990272900236800 s x1 := by
      unfold x1
      refine Touch.ite ?_ ?_
      · refine Touch.step (eicEvent_touch ..) rfl ?_
        exact Touch.refl _ _
      · exact Touch.refl _ _
    clear_value x1
    refine Touch.ite ?_ ?_
    · exact h2
    · refine Touch.ite ?_ ?_
      · refine Touch.foldl ?_ (fun x3 x4 h5 => ?_)
        · exact h2
        · refine Touch.ite ?_ ?_
          · refine Touch.step (emit_touch ..) rfl ?_
            refine Touch.step (t := x3) (Touch.upd (F := 524288) rfl (Or.inr rfl)) rfl ?_
            exact h5
          · exact h5
      · refine Touch.step (t := x1) (Touch.upd (F := 525312) rfl (Or.inr rfl)) rfl ?_
        exact h2

theorem execWatcherSource_touch {source : BitVec 16} {s : State} : TouchOut 2854495385411919762116571938898990272900236800 s (execWatcherSource source s) := by
  unfold execWatcherSource
  refine TouchOut.next ?_
  refine Touch.ite ?_ ?_
  · refine Touch.step (watcherActive_touch ..) rfl ?_
    exact Touch.refl _ _
  · exact Touch.refl _ _

theorem execAoTimerReached_touch {s : State} : TouchOut 2854495385411919762116571938898990272900236800 s (execAoTimerReached s) := by
  unfold execAoTimerReached
  refine TouchOut.next ?_
  refine Touch.ite ?_ ?_
  · refine Touch.step (watcherActive_touch ..) rfl ?_
    refine Touch.step (t := s) (Touch.upd (F := 512) rfl (Or.inr rfl)) rfl ?_
    exact Touch.refl _ _
  · exact Touch.refl _ _

theorem execI3cTransfer_touch {addr : BitVec 7} {s : State} : TouchOut 2854495385411919762116571938898990272900236800 s (execI3cTransfer addr s) := by
  unfold execI3cTransfer
  refine TouchOut.next ?_
  refine Touch.ite ?_ ?_
  · refine Touch.step (watcherActive_touch ..) rfl ?_
    exact Touch.refl _ _
  · exact Touch.refl _ _

theorem execAuxPgRise_touch {straps : Byte} {s : State} : TouchOut 1073742848 s (execAuxPgRise straps s) := by
  unfold execAuxPgRise
  refine TouchOut.next ?_
  refine Touch.ite ?_ ?_
  · exact Touch.refl _ _
  · refine Touch.step (modPwr_touch_all ..) rfl ?_
    exact Touch.refl _ _

theorem execAuxPgFall_touch {ns : Nat} {s : State} : TouchOut 24519928653854221733733552434404946937899825951750522416 s (execAuxPgFall ns s) := by
  unfold execAuxPgFall
  refine TouchOut.next ?_
  refine Touch.ite ?_ ?_
  · exact Touch.refl _ _
  · extract_lets -merge +onlyGivenNames x0
    have h1 : Touch 24519928653854221733733552434404946937899825951750522416 s x0 := by
      unfold x0
      refine Touch.ite ?_ ?_
      · refine Touch.step (mainStops_touch ..) rfl ?_
        exact Touch.refl _ _
      · exact Touch.refl _ _
    clear_value x0
    refine Touch.step (t := x0) (Touch.upd (F := 24519928653854221733733552434404946937899825951716410880) rfl (Or.inl rfl)) rfl ?_
    exact h1

theorem execMainPgRise_touch {s : State} : TouchOut 24519928653854221733733552434404946937899825954937634815 s (execMainPgRise s) := by
  unfold execMainPgRise
  refine TouchOut.next ?_
  refine Touch.ite ?_ ?_
  · exact Touch.refl _ _
  · refine Touch.step (startUp_touch ..) rfl ?_
    refine Touch.step (watcherActive_touch ..) rfl ?_
    exact Touch.refl _ _

theorem execMainPgFall_touch {ns : Nat} {s : State} : TouchOut 1107854384 s (execMainPgFall ns s) := by
  unfold execMainPgFall
  refine TouchOut.next ?_
  refine Touch.ite ?_ ?_
  · exact Touch.refl _ _
  · refine Touch.step (modPwr_touch rfl) rfl ?_
    refine Touch.step (mainStops_touch ..) rfl ?_
    exact Touch.refl _ _

theorem execRailFault_touch {r : Rail} {us : Nat} {s : State} : TouchOut 18970624474934017399484557497567228903308612845217507320 s (execRailFault r us s) := by
  unfold execRailFault
  refine TouchOut.step (whenMain_touch rfl (fun x0 => ?_)) (Within.refl _) ?_
  · refine Touch.ite ?_ ?_
    · exact Touch.refl _ _
    · extract_lets -merge +onlyGivenNames x1
      have h2 : Touch 18970624474934017399484557497567228903308612845217507320 x0 x1 := by
        unfold x1
        refine Touch.step (setAlert_touch ..) rfl ?_
        refine Touch.step (setEmerg_touch ..) rfl ?_
        exact Touch.refl _ _
      clear_value x1
      split
      · rename_i x3
        refine Touch.step (enterHardpan_touch ..) rfl ?_
        exact h2
      · rename_i x4
        refine Touch.step (enterHardpan_touch ..) rfl ?_
        exact h2
      · rename_i x5
        refine Touch.step (enterHardpan_touch ..) rfl ?_
        exact h2
      · rename_i x6
        refine Touch.step (enterHardpan_touch ..) rfl ?_
        exact h2
      · rename_i x7 h8 h9 h10 h11
        refine Touch.step (mainStops_touch ..) rfl ?_
        refine Touch.step (log_touch ..) rfl ?_
        exact h2
  · exact Touch.refl _ _

theorem execAccPwrEnTimer_touch {port : Nat} {s : State} : TouchOut 1024 s (execAccPwrEnTimer port s) := by
  unfold execAccPwrEnTimer
  refine TouchOut.ite ?_ ?_
  · exact TouchOut.fault _ _ _
  · refine TouchOut.step (whenMain_touch rfl (fun x0 => ?_)) (Within.refl _) ?_
    · refine Touch.ite ?_ ?_
      · exact Touch.refl _ _
      · refine Touch.step (modPwr_touch rfl) rfl ?_
        exact Touch.refl _ _
    · exact Touch.refl _ _

theorem execPerstOutRelease_touch {port : Nat} {s : State} : TouchOut 1024 s (execPerstOutRelease port s) := by
  unfold execPerstOutRelease
  refine TouchOut.ite ?_ ?_
  · exact TouchOut.fault _ _ _
  · refine TouchOut.step (whenMain_touch rfl (fun x0 => ?_)) (Within.refl _) ?_
    · extract_lets -merge +onlyGivenNames x1
      clear_value x1
      refine Touch.ite ?_ ?_
      · refine Touch.step (modPwr_touch rfl) rfl ?_
        exact Touch.refl _ _
      · exact Touch.refl _ _
    · exact Touch.refl _ _

theorem execClockLost_touch {clk : RefClk} {s : State} : TouchOut 24519928653854221733733552434404946937899825951177178872 s (execClockLost clk s) := by
  unfold execClockLost
  refine TouchOut.step (whenMain_touch rfl (fun x0 => ?_)) (Within.refl _) ?_
  · refine Touch.ite ?_ ?_
    · exact Touch.refl _ _
    · extract_lets -merge +onlyGivenNames x1
      have h2 : Touch 24519928653854221733733552434404946937899825951177178872 x0 x1 := by
        unfold x1
        refine Touch.step (log_touch ..) rfl ?_
        refine Touch.step (modPwr_touch rfl) rfl ?_
        exact Touch.refl _ _
      clear_value x1
      split
      · rename_i x3
        refine Touch.step (hostLinkDown_touch ..) rfl ?_
        exact h2
      · rename_i x4
        refine Touch.foldl ?_ (fun x5 x6 h7 => ?_)
        · exact h2
        · refine Touch.ite ?_ ?_
          · refine Touch.step (rootDown_touch ..) rfl ?_
            exact h7
          · exact h7
      · rename_i x8
        extract_lets -merge +onlyGivenNames x9
        have h10 : Touch 24519928653854221733733552434404946937899825951177178872 x0 x9 := by
          unfold x9
          refine Touch.foldl ?_ (fun x11 x12 h13 => ?_)
          · exact h2
          · refine Touch.step (portDown_touch ..) rfl ?_
            exact h13
        clear_value x9
        refine Touch.ite ?_ ?_
        · refine Touch.step (ftHoldover_touch ..) rfl ?_
          exact h10
        · exact h10
  · exact Touch.refl _ _

theorem execClockStable_touch {clk : RefClk} {s : State} : TouchOut 1024 s (execClockStable clk s) := by
  unfold execClockStable
  refine TouchOut.step (whenMain_touch rfl (fun x0 => ?_)) (Within.refl _) ?_
  · refine Touch.step (modPwr_touch rfl) rfl ?_
    exact Touch.refl _ _
  · exact Touch.refl _ _

theorem execBootPhaseComplete_touch {s : State} : TouchOut 1208925819614904187094272 s (execBootPhaseComplete s) := by
  unfold execBootPhaseComplete
  refine TouchOut.step (whenOn_touch rfl (fun x0 => ?_)) (Within.refl _) ?_
  · refine Touch.ite ?_ ?_
    · exact Touch.refl _ _
    · extract_lets -merge +onlyGivenNames x1
      subst x1
      extract_lets -merge +onlyGivenNames x2
      have h3 : Touch 1208925819614904187094272 x0 x2 := by
        unfold x2
        refine Touch.step (t := x0) (Touch.upd (F := 256) rfl (Or.inr rfl)) rfl ?_
        exact Touch.refl _ _
      clear_value x2
      extract_lets -merge +onlyGivenNames x4
      have h5 : Touch 1208925819614904187094272 x0 x4 := by
        unfold x4
        refine Touch.step (modPwr_touch rfl) rfl ?_
        refine Touch.step (setReg_touch ..) rfl ?_
        exact h3
      clear_value x4
      refine Touch.step (linkPhase_touch ..) rfl ?_
      refine Touch.step (setBootPhase_touch ..) rfl ?_
      refine Touch.step (modJob_touch ..) rfl ?_
      exact h5
  · exact Touch.refl _ _

theorem tapCapture_touch {s : State} : TouchP 268435456 s (tapCapture s) := by
  unfold tapCapture
  refine TouchP.ite ?_ ?_
  · refine TouchP.mk' ?_
    exact Touch.refl _ _
  · refine TouchP.ite ?_ ?_
    · split
      · rename_i x0 x1 x2 h3
        have h4 : Touch 268435456 s x2 := by
          refine TouchP.eq ?_ h3
          refine TouchP.step (draw_touch ..) rfl ?_
          exact Touch.refl _ _
        refine TouchP.mk' ?_
        exact h4
    · refine TouchP.mk' ?_
      exact Touch.refl _ _

theorem tapAct_touch {tdi : Bool} {s : State} : Touch 268436480 s (tapAct tdi s) := by
  unfold tapAct
  split
  · rename_i x0 h1
    refine Touch.step (modPwr_touch rfl) rfl ?_
    exact Touch.refl _ _
  · rename_i x2 h3
    split
    · rename_i x4 x5 x6 h7
      have h8 : Touch 268436480 s x6 := by
        refine TouchP.eq ?_ h7
        refine TouchP.step (tapCapture_touch ..) rfl ?_
        exact Touch.refl _ _
      refine Touch.step (modPwr_touch rfl) rfl ?_
      exact h8
  · rename_i x9 h10
    split
    · rename_i x11 x12 x13 h14
      have h15 : Touch 268436480 s x13 := by
        refine TouchP.eq ?_ h14
        refine TouchP.step (draw_touch ..) rfl ?_
        exact Touch.refl _ _
      refine Touch.step (modPwr_touch rfl) rfl ?_
      exact h15
  · rename_i x16 h17
    refine Touch.step (modPwr_touch rfl) rfl ?_
    exact Touch.refl _ _
  · rename_i x18 h19
    refine Touch.step (modPwr_touch rfl) rfl ?_
    exact Touch.refl _ _
  · rename_i x20 h21
    refine Touch.step (modPwr_touch rfl) rfl ?_
    exact Touch.refl _ _
  · rename_i x22 h23
    refine Touch.step (modPwr_touch rfl) rfl ?_
    exact Touch.refl _ _
  · rename_i x24 h25 h26 h27 h28 h29 h30 h31
    exact Touch.refl _ _

theorem execTapTckEdge_touch {tms : Bool} {tdi : Bool} {s : State} : TouchOut 268436480 s (execTapTckEdge tms tdi s) := by
  unfold execTapTckEdge
  refine TouchOut.next ?_
  refine Touch.ite ?_ ?_
  · refine Touch.step (modPwr_touch rfl) rfl ?_
    refine Touch.step (tapAct_touch ..) rfl ?_
    exact Touch.refl _ _
  · exact Touch.refl _ _

theorem modFw_touch {s : State} {f : Firmware → Firmware} : Touch 256 s (State.modFw s f) := by
  unfold State.modFw
  refine Touch.step (t := s) (Touch.upd (F := 256) rfl (Or.inr rfl)) rfl ?_
  exact Touch.refl _ _

theorem hardpanRefuses_touch {c : Caller} {s : State} : Touch 134218368 s (hardpanRefuses c s) := by
  unfold hardpanRefuses
  split
  · rename_i x0 x1 h2
    refine Touch.ite ?_ ?_
    · refine Touch.step (mbxReply_touch ..) rfl ?_
      exact Touch.refl _ _
    · exact Touch.refl _ _
  · rename_i x3 h4
    exact Touch.refl _ _

theorem execMbxDoorbell_touch {c : Caller} {v : Word} {opcode : BitVec 16} {seq : BitVec 16} {length : BitVec 16} {flags : Byte} {s : State} : TouchOut 2475880078570760567112336000 s (execMbxDoorbell c v opcode seq length flags s) := by
  unfold execMbxDoorbell
  extract_lets -merge +onlyGivenNames x0
  clear_value x0
  extract_lets -merge +onlyGivenNames x1
  subst x1
  split
  · rename_i x2 x3
    refine TouchOut.step (whenPage_touch rfl (fun x4 => ?_)) (Within.refl _) ?_
    · split
      · rename_i x5 x6 h7
        refine Touch.step (hardpanRefuses_touch ..) rfl ?_
        refine Touch.step (mbxDoorbell_touch ..) rfl ?_
        exact Touch.refl _ _
      · rename_i x8 x9 x10 h11 h12
        refine Touch.step (pageIgnored_touch ..) rfl ?_
        exact Touch.refl _ _
      · rename_i x13 x14 h15 h16
        refine Touch.step (pageIgnored_touch ..) rfl ?_
        exact Touch.refl _ _
    · exact Touch.refl _ _
  · rename_i x17 h18
    refine TouchOut.step (whenMain_touch rfl (fun x19 => ?_)) (Within.refl _) ?_
    · split
      · rename_i x20 x21 x22 h23
        refine Touch.step (hardpanRefuses_touch ..) rfl ?_
        refine Touch.step (mbxDoorbell_touch ..) rfl ?_
        exact Touch.refl _ _
      · rename_i x24 x25 x26 h27
        refine Touch.step (pageIgnored_touch ..) rfl ?_
        exact Touch.refl _ _
      · rename_i x28 x29 x30 h31 h32
        exact Touch.refl _ _
    · exact Touch.refl _ _

theorem execMailboxHeldRequest_touch {c : Caller} {s : State} : TouchOut 134218368 s (execMailboxHeldRequest c s) := by
  unfold execMailboxHeldRequest
  refine TouchOut.step (whenMain_touch rfl (fun x0 => ?_)) (Within.refl _) ?_
  · refine Touch.step (hardpanRefuses_touch ..) rfl ?_
    refine Touch.step (mbxTakeHeld_touch ..) rfl ?_
    exact Touch.refl _ _
  · exact Touch.refl _ _

theorem execMbxEvtPop_touch {c : Caller} {s : State} : TouchOut 2475880078570760566978117760 s (execMbxEvtPop c s) := by
  unfold execMbxEvtPop
  split
  · rename_i x0 x1
    refine TouchOut.step (whenPage_touch rfl (fun x2 => ?_)) (Within.refl _) ?_
    · refine Touch.ite ?_ ?_
      · refine Touch.step (mbxEvtPop_touch ..) rfl ?_
        exact Touch.refl _ _
      · refine Touch.step (pageIgnored_touch ..) rfl ?_
        exact Touch.refl _ _
    · exact Touch.refl _ _
  · rename_i x3 h4
    refine TouchOut.step (whenMain_touch rfl (fun x5 => ?_)) (Within.refl _) ?_
    · refine Touch.ite ?_ ?_
      · refine Touch.step (mbxEvtPop_touch ..) rfl ?_
        exact Touch.refl _ _
      · exact Touch.refl _ _
    · exact Touch.refl _ _

theorem execNegotiate_touch {c : Caller} {major : Byte} {minor : Byte} {features : BitVec 256} {s : State} : TouchOut 134218368 s (execNegotiate c major minor features s) := by
  unfold execNegotiate
  refine TouchOut.step (whenOn_touch rfl (fun x0 => ?_)) (Within.refl _) ?_
  · refine Touch.step (mbxServe_touch rfl (fun x1 x2 => ?_)) (Within.refl _) ?_
    · refine TouchP.step (negotiateReq_touch ..) rfl ?_
      exact Touch.refl _ _
    · exact Touch.refl _ _
  · exact Touch.refl _ _

theorem fwStatusReq_touch {s : State} : TouchP 0 s (fwStatusReq s) := by
  unfold fwStatusReq
  extract_lets -merge +onlyGivenNames x0
  clear_value x0
  refine TouchP.step (accept_touch ..) rfl ?_
  exact Touch.refl _ _

theorem fwOpenReq_touch {c : Caller} {s : State} : TouchP 18395938647103723002264799433617846963805458789629436272 s (fwOpenReq c s) := by
  unfold fwOpenReq
  refine TouchP.ite ?_ ?_
  · refine TouchP.step (refuse_touch ..) rfl ?_
    exact Touch.refl _ _
  · refine TouchP.ite ?_ ?_
    · refine TouchP.step (refuse_touch ..) rfl ?_
      exact Touch.refl _ _
    · refine TouchP.step (accept_touch ..) rfl ?_
      refine Touch.step (modFw_touch ..) rfl ?_
      refine Touch.step (setFwState_touch ..) rfl ?_
      refine Touch.step (setFwState_touch ..) rfl ?_
      exact Touch.refl _ _

theorem fwWriteReq_touch {c : Caller} {offset : Nat} {length : Nat} {source : Nat} {f : Frame} {s : State} : TouchP 8 s (fwWriteReq c offset length source f s) := by
  unfold fwWriteReq
  refine TouchP.ite ?_ ?_
  · refine TouchP.step (refuse_touch ..) rfl ?_
    exact Touch.refl _ _
  · refine TouchP.ite ?_ ?_
    · refine TouchP.step (refuse_touch ..) rfl ?_
      exact Touch.refl _ _
    · split
      · rename_i x0 x1 x2 h3
        refine TouchP.step (refuse_touch ..) rfl ?_
        exact Touch.refl _ _
      · rename_i x4 h5
        refine TouchP.ite ?_ ?_
        · refine TouchP.step (refuseAt_touch ..) rfl ?_
          exact Touch.refl _ _
        · refine TouchP.ite ?_ ?_
          · refine TouchP.step (refuseAt_touch ..) rfl ?_
            exact Touch.refl _ _
          · refine TouchP.ite ?_ ?_
            · refine TouchP.step (refuseAt_touch ..) rfl ?_
              exact Touch.refl _ _
            · split
              · rename_i x6 x7 h8
                refine TouchP.ite ?_ ?_
                · refine TouchP.step (refuse_touch ..) rfl ?_
                  exact Touch.refl _ _
                · refine TouchP.step (refuse_touch ..) rfl ?_
                  exact Touch.refl _ _
              · rename_i x9 h10
                refine TouchP.step (accept_touch ..) rfl ?_
                refine Touch.step (copy_touch ..) rfl ?_
                exact Touch.refl _ _

theorem fwCloseReq_touch {c : Caller} {total : Nat} {s : State} : TouchP 18395938647103723002264799433617846963805458789629436272 s (fwCloseReq c total s) := by
  unfold fwCloseReq
  refine TouchP.ite ?_ ?_
  · refine TouchP.step (refuse_touch ..) rfl ?_
    exact Touch.refl _ _
  · refine TouchP.ite ?_ ?_
    · refine TouchP.step (refuse_touch ..) rfl ?_
      exact Touch.refl _ _
    · refine TouchP.ite ?_ ?_
      · refine TouchP.step (refuseAt_touch ..) rfl ?_
        exact Touch.refl _ _
      · refine TouchP.step (accept_touch ..) rfl ?_
        refine Touch.step (modFw_touch ..) rfl ?_
        refine Touch.step (setFwState_touch ..) rfl ?_
        exact Touch.refl _ _

theorem fwActivateReq_touch {c : Caller} {s : State} : TouchP 18395938647103723002264799433617846963805458789629436016 s (fwActivateReq c s) := by
  unfold fwActivateReq
  refine TouchP.ite ?_ ?_
  · refine TouchP.step (refuse_touch ..) rfl ?_
    exact Touch.refl _ _
  · refine TouchP.ite ?_ ?_
    · refine TouchP.step (refuse_touch ..) rfl ?_
      exact Touch.refl _ _
    · refine TouchP.mk' ?_
      refine Touch.step (setFwState_touch ..) rfl ?_
      exact Touch.refl _ _

theorem fwDisarmReq_touch {c : Caller} {s : State} : TouchP 18395938647103723002264799433617846963805458789629436016 s (fwDisarmReq c s) := by
  unfold fwDisarmReq
  refine TouchP.ite ?_ ?_
  · refine TouchP.step (refuse_touch ..) rfl ?_
    exact Touch.refl _ _
  · refine TouchP.ite ?_ ?_
    · refine TouchP.step (refuse_touch ..) rfl ?_
      exact Touch.refl _ _
    · refine TouchP.step (accept_touch ..) rfl ?_
      refine Touch.step (setFwState_touch ..) rfl ?_
      exact Touch.refl _ _

theorem fwDiscardReq_touch {c : Caller} {s : State} : TouchP 18395938647103723002264799433617846963805458789629436016 s (fwDiscardReq c s) := by
  unfold fwDiscardReq
  refine TouchP.ite ?_ ?_
  · refine TouchP.step (refuse_touch ..) rfl ?_
    exact Touch.refl _ _
  · refine TouchP.ite ?_ ?_
    · refine TouchP.step (refuse_touch ..) rfl ?_
      exact Touch.refl _ _
    · refine TouchP.step (accept_touch ..) rfl ?_
      refine Touch.step (setFwState_touch ..) rfl ?_
      exact Touch.refl _ _

theorem execFwStatus_touch {c : Caller} {s : State} : TouchOut 134218368 s (execFwStatus c s) := by
  unfold execFwStatus
  refine TouchOut.step (whenMain_touch rfl (fun x0 => ?_)) (Within.refl _) ?_
  · refine Touch.step (mbxServe_touch rfl (fun x1 x2 => ?_)) (Within.refl _) ?_
    · refine TouchP.step (fwStatusReq_touch ..) rfl ?_
      exact Touch.refl _ _
    · exact Touch.refl _ _
  · exact Touch.refl _ _

theorem execFwStageOpen_touch {c : Caller} {s : State} : TouchOut 18395938647103723002264799433617846963805458789763654640 s (execFwStageOpen c s) := by
  unfold execFwStageOpen
  refine TouchOut.step (whenMain_touch rfl (fun x0 => ?_)) (Within.refl _) ?_
  · refine Touch.step (mbxServe_touch rfl (fun x1 x2 => ?_)) (Within.refl _) ?_
    · refine TouchP.step (fwOpenReq_touch ..) rfl ?_
      exact Touch.refl _ _
    · exact Touch.refl _ _
  · exact Touch.refl _ _

theorem execFwStageWrite_touch {c : Caller} {offset : Nat} {length : Nat} {source : Nat} {s : State} : TouchOut 134218376 s (execFwStageWrite c offset length source s) := by
  unfold execFwStageWrite
  refine TouchOut.step (whenMain_touch rfl (fun x0 => ?_)) (Within.refl _) ?_
  · refine Touch.step (mbxServe_touch rfl (fun x1 x2 => ?_)) (Within.refl _) ?_
    · refine TouchP.step (fwWriteReq_touch ..) rfl ?_
      exact Touch.refl _ _
    · exact Touch.refl _ _
  · exact Touch.refl _ _

theorem execFwStageClose_touch {c : Caller} {total : Nat} {s : State} : TouchOut 18395938647103723002264799433617846963805458789763654640 s (execFwStageClose c total s) := by
  unfold execFwStageClose
  refine TouchOut.step (whenMain_touch rfl (fun x0 => ?_)) (Within.refl _) ?_
  · refine Touch.step (mbxServe_touch rfl (fun x1 x2 => ?_)) (Within.refl _) ?_
    · refine TouchP.step (fwCloseReq_touch ..) rfl ?_
      exact Touch.refl _ _
    · exact Touch.refl _ _
  · exact Touch.refl _ _

theorem execFwActivate_touch {c : Caller} {s : State} : TouchOut 18395938647103723002264799433617846963805458789763654384 s (execFwActivate c s) := by
  unfold execFwActivate
  refine TouchOut.step (whenMain_touch rfl (fun x0 => ?_)) (Within.refl _) ?_
  · refine Touch.step (mbxServe_touch rfl (fun x1 x2 => ?_)) (Within.refl _) ?_
    · refine TouchP.step (fwActivateReq_touch ..) rfl ?_
      exact Touch.refl _ _
    · exact Touch.refl _ _
  · exact Touch.refl _ _

theorem execFwDisarm_touch {c : Caller} {s : State} : TouchOut 18395938647103723002264799433617846963805458789763654384 s (execFwDisarm c s) := by
  unfold execFwDisarm
  refine TouchOut.step (whenMain_touch rfl (fun x0 => ?_)) (Within.refl _) ?_
  · refine Touch.step (mbxServe_touch rfl (fun x1 x2 => ?_)) (Within.refl _) ?_
    · refine TouchP.step (fwDisarmReq_touch ..) rfl ?_
      exact Touch.refl _ _
    · exact Touch.refl _ _
  · exact Touch.refl _ _

theorem execFwDiscard_touch {c : Caller} {s : State} : TouchOut 18395938647103723002264799433617846963805458789763654384 s (execFwDiscard c s) := by
  unfold execFwDiscard
  refine TouchOut.step (whenMain_touch rfl (fun x0 => ?_)) (Within.refl _) ?_
  · refine Touch.step (mbxServe_touch rfl (fun x1 x2 => ?_)) (Within.refl _) ?_
    · refine TouchP.step (fwDiscardReq_touch ..) rfl ?_
      exact Touch.refl _ _
    · exact Touch.refl _ _
  · exact Touch.refl _ _

theorem logReadReq_touch {c : Caller} {start : Nat} {count : Nat} {buffer : Nat} {f : Frame} {s : State} : TouchP 268435464 s (logReadReq c start count buffer f s) := by
  unfold logReadReq
  split
  · rename_i x0 x1 x2 h3
    refine TouchP.step (refuse_touch ..) rfl ?_
    exact Touch.refl _ _
  · rename_i x4 h5
    refine TouchP.ite ?_ ?_
    · refine TouchP.step (refuseAt_touch ..) rfl ?_
      exact Touch.refl _ _
    · refine TouchP.ite ?_ ?_
      · refine TouchP.step (refuseAt_touch ..) rfl ?_
        exact Touch.refl _ _
      · extract_lets -merge +onlyGivenNames x6
        clear_value x6
        split
        · rename_i x7 x8 h9
          refine TouchP.ite ?_ ?_
          · refine TouchP.step (refuse_touch ..) rfl ?_
            exact Touch.refl _ _
          · refine TouchP.step (refuse_touch ..) rfl ?_
            exact Touch.refl _ _
        · rename_i x10 h11
          split
          · rename_i x12
            split
            · rename_i x13 x14 x15 h16
              have h17 : Touch 268435464 s x15 := by
                refine TouchP.eq ?_ h16
                refine TouchP.step (draw_touch ..) rfl ?_
                exact Touch.refl _ _
              refine TouchP.step (accept_touch ..) rfl ?_
              exact h17
          · rename_i x18 x19 x20
            refine TouchP.step (accept_touch ..) rfl ?_
            refine Touch.step (store_touch ..) rfl ?_
            exact Touch.refl _ _

theorem execLogRead_touch {c : Caller} {start : Nat} {count : Nat} {buffer : Nat} {s : State} : TouchOut 402653832 s (execLogRead c start count buffer s) := by
  unfold execLogRead
  refine TouchOut.step (whenOn_touch rfl (fun x0 => ?_)) (Within.refl _) ?_
  · refine Touch.step (mbxServe_touch rfl (fun x1 x2 => ?_)) (Within.refl _) ?_
    · refine TouchP.step (logReadReq_touch ..) rfl ?_
      exact Touch.refl _ _
    · exact Touch.refl _ _
  · exact Touch.refl _ _

theorem setService_touch {n : Nat} {v : Service} {s : State} : Touch 256 s (setService n v s) := by
  unfold setService
  refine Touch.step (modFw_touch ..) rfl ?_
  exact Touch.refl _ _

theorem setStale_touch {n : Nat} {b : Bool} {s : State} : Touch 274877906944 s (setStale n b s) := by
  unfold setStale
  extract_lets -merge +onlyGivenNames x0
  clear_value x0
  extract_lets -merge +onlyGivenNames x1
  have h2 : Touch 274877906944 s x1 := by
    unfold x1
    refine Touch.step (setFld_touch ..) rfl ?_
    exact Touch.refl _ _
  clear_value x1
  refine Touch.ite ?_ ?_
  · refine Touch.step (setFld_touch ..) rfl ?_
    exact h2
  · exact h2

theorem retryRequests_touch {n : Nat} {s : State} : Touch 134218368 s (retryRequests n s) := by
  unfold retryRequests
  refine Touch.foldl ?_ (fun x0 x1 h2 => ?_)
  · exact Touch.refl _ _
  · split
    · rename_i x3 x4 h5
      extract_lets -merge +onlyGivenNames x6
      clear_value x6
      refine Touch.ite ?_ ?_
      · refine Touch.step (mbxRetry_touch ..) rfl ?_
        exact h2
      · exact h2
    · rename_i x7 h8
      exact h2

theorem holdDown_touch {n : Nat} {s : State} : Touch 580677984543351099184393171763518699883743379014281192 s (holdDown n s) := by
  unfold holdDown
  extract_lets -merge +onlyGivenNames x0
  clear_value x0
  extract_lets -merge +onlyGivenNames x1
  have h2 : Touch 580677984543351099184393171763518699883743379014281192 s x1 := by
    unfold x1
    refine Touch.step (setService_touch ..) rfl ?_
    exact Touch.refl _ _
  clear_value x1
  refine Touch.ite ?_ ?_
  · refine Touch.step (enterHardpan_touch ..) rfl ?_
    exact h2
  · refine Touch.foldl ?_ (fun x3 x4 h5 => ?_)
    · exact h2
    · split
      · rename_i x6 x7 h8
        refine Touch.ite ?_ ?_
        · refine Touch.step (mbxReply_touch ..) rfl ?_
          exact h5
        · exact h5
      · rename_i x9 h10
        exact h5

theorem watchdogFire_touch {n : Nat} {cause : CrashCause} {pc : Word} {spareCore : Bool} {s : State} : Touch 580677984543351099184393171763518699883743379014281192 s (watchdogFire n cause pc spareCore s) := by
  unfold watchdogFire
  extract_lets -merge +onlyGivenNames x0
  clear_value x0
  refine Touch.ite ?_ ?_
  · exact Touch.refl _ _
  · extract_lets -merge +onlyGivenNames x1
    have h2 : Touch 580677984543351099184393171763518699883743379014281192 s x1 := by
      unfold x1
      refine Touch.step (logRec_touch ..) rfl ?_
      exact Touch.refl _ _
    clear_value x1
    extract_lets -merge +onlyGivenNames x3
    clear_value x3
    extract_lets -merge +onlyGivenNames x4
    clear_value x4
    extract_lets -merge +onlyGivenNames x5
    clear_value x5
    extract_lets -merge +onlyGivenNames x6
    have h7 : Touch 580677984543351099184393171763518699883743379014281192 s x6 := by
      unfold x6
      refine Touch.step (modCore_touch ..) rfl ?_
      exact h2
    clear_value x6
    extract_lets -merge +onlyGivenNames x8
    have h9 : Touch 580677984543351099184393171763518699883743379014281192 s x8 := by
      unfold x8
      refine Touch.step (setStale_touch ..) rfl ?_
      refine Touch.step (setService_touch ..) rfl ?_
      exact h7
    clear_value x8
    extract_lets -merge +onlyGivenNames x10
    have h11 : Touch 580677984543351099184393171763518699883743379014281192 s x10 := by
      unfold x10
      refine Touch.ite ?_ ?_
      · refine Touch.step (modPwr_touch rfl) rfl ?_
        exact h9
      · exact h9
    clear_value x10
    refine Touch.ite ?_ ?_
    · refine Touch.step (holdDown_touch ..) rfl ?_
      exact h11
    · extract_lets -merge +onlyGivenNames x12
      have h13 : Touch 580677984543351099184393171763518699883743379014281192 s x12 := by
        unfold x12
        refine Touch.ite ?_ ?_
        · exact h11
        · refine Touch.step (retryRequests_touch ..) rfl ?_
          exact h11
      clear_value x12
      refine Touch.ite ?_ ?_
      · split
        · rename_i x14 x15 h16
          refine Touch.step (setService_touch ..) rfl ?_
          refine Touch.step (modFw_touch ..) rfl ?_
          exact h13
        · rename_i x17 h18
          refine Touch.step (holdDown_touch ..) rfl ?_
          exact h13
      · exact h13

theorem execWatchdogFire_touch {service : Nat} {cause : CrashCause} {pc : Word} {spareCore : Bool} {s : State} : TouchOut 580677984543351099184393171763518699883743379014281192 s (execWatchdogFire service cause pc spareCore s) := by
  unfold execWatchdogFire
  refine TouchOut.ite ?_ ?_
  · exact TouchOut.fault _ _ _
  · refine TouchOut.step (whenOn_touch rfl (fun x0 => ?_)) (Within.refl _) ?_
    · refine Touch.step (watchdogFire_touch ..) rfl ?_
      exact Touch.refl _ _
    · exact Touch.refl _ _

theorem serviceStarts_touch {n : Nat} {s : State} : Touch 275012142976 s (serviceStarts n s) := by
  unfold serviceStarts
  extract_lets -merge +onlyGivenNames x0
  clear_value x0
  extract_lets -merge +onlyGivenNames x1
  have h2 : Touch 275012142976 s x1 := by
    unfold x1
    refine Touch.step (setStale_touch ..) rfl ?_
    refine Touch.step (setService_touch ..) rfl ?_
    exact Touch.refl _ _
  clear_value x1
  extract_lets -merge +onlyGivenNames x3
  have h4 : Touch 275012142976 s x3 := by
    unfold x3
    refine Touch.step (modCore_touch ..) rfl ?_
    exact h2
  clear_value x3
  extract_lets -merge +onlyGivenNames x5
  have h6 : Touch 275012142976 s x5 := by
    unfold x5
    refine Touch.ite ?_ ?_
    · refine Touch.step (modPwr_touch rfl) rfl ?_
      exact h4
    · exact h4
  clear_value x5
  refine Touch.ite ?_ ?_
  · refine Touch.step (retryRequests_touch ..) rfl ?_
    exact h6
  · exact h6

theorem execServiceRestartComplete_touch {service : Nat} {s : State} : TouchOut 275012142976 s (execServiceRestartComplete service s) := by
  unfold execServiceRestartComplete
  refine TouchOut.ite ?_ ?_
  · exact TouchOut.fault _ _ _
  · refine TouchOut.step (whenOn_touch rfl (fun x0 => ?_)) (Within.refl _) ?_
    · refine Touch.ite ?_ ?_
      · refine Touch.step (serviceStarts_touch ..) rfl ?_
        exact Touch.refl _ _
      · exact Touch.refl _ _
    · exact Touch.refl _ _

theorem serviceRestartReq_touch {n : Nat} {s : State} : TouchP 275012142976 s (serviceRestartReq n s) := by
  unfold serviceRestartReq
  refine TouchP.ite ?_ ?_
  · refine TouchP.step (refuseAt_touch ..) rfl ?_
    exact Touch.refl _ _
  · refine TouchP.ite ?_ ?_
    · refine TouchP.step (accept_touch ..) rfl ?_
      refine Touch.step (serviceStarts_touch ..) rfl ?_
      refine Touch.step (setService_touch ..) rfl ?_
      exact Touch.refl _ _
    · refine TouchP.step (accept_touch ..) rfl ?_
      exact Touch.refl _ _

theorem execServiceRestart_touch {c : Caller} {service : Nat} {s : State} : TouchOut 275012142976 s (execServiceRestart c service s) := by
  unfold execServiceRestart
  refine TouchOut.step (whenOn_touch rfl (fun x0 => ?_)) (Within.refl _) ?_
  · refine Touch.step (mbxServe_touch rfl (fun x1 x2 => ?_)) (Within.refl _) ?_
    · refine TouchP.step (serviceRestartReq_touch ..) rfl ?_
      exact Touch.refl _ _
    · exact Touch.refl _ _
  · exact Touch.refl _ _

theorem journalAll_touch {s : State} : Touch 12080024025693315452949798563828241318408 s (journalAll s) := by
  unfold journalAll
  refine Touch.step (stoAdvance_touch ..) rfl ?_
  refine Touch.step (modSto_touch ..) rfl ?_
  exact Touch.refl _ _

theorem orderlyShutdown_touch {s : State} : Touch 18395938647103735082288825126933299913604022617870754680 s (orderlyShutdown s) := by
  unfold orderlyShutdown
  extract_lets -merge +onlyGivenNames x0
  have h1 : Touch 18395938647103735082288825126933299913604022617870754680 s x0 := by
    unfold x0
    refine Touch.step (modFw_touch ..) rfl ?_
    exact Touch.refl _ _
  clear_value x0
  extract_lets -merge +onlyGivenNames x2
  have h3 : Touch 18395938647103735082288825126933299913604022617870754680 s x2 := by
    unfold x2
    refine Touch.ite ?_ ?_
    · refine Touch.step (journalAll_touch ..) rfl ?_
      refine Touch.step (t := x0) (Touch.upd (F := 8192) rfl (Or.inr rfl)) rfl ?_
      exact h1
    · exact h1
  clear_value x2
  extract_lets -merge +onlyGivenNames x4
  have h5 : Touch 18395938647103735082288825126933299913604022617870754680 s x4 := by
    unfold x4
    refine Touch.step (strataSync_touch ..) rfl ?_
    exact h3
  clear_value x4
  extract_lets -merge +onlyGivenNames x6
  have h7 : Touch 18395938647103735082288825126933299913604022617870754680 s x6 := by
    unfold x6
    refine Touch.ite ?_ ?_
    · refine Touch.step (setKw_touch ..) rfl ?_
      exact h5
    · exact h5
  clear_value x6
  refine Touch.step (setKw_touch ..) rfl ?_
  exact h7

theorem execShutdown_touch {c : Caller} {s : State} : TouchOut 18395938647103735082288825126933299913604022617870754808 s (execShutdown c s) := by
  unfold execShutdown
  refine TouchOut.step (whenMain_touch rfl (fun x0 => ?_)) (Within.refl _) ?_
  · refine Touch.step (mbxServe_touch rfl (fun x1 x2 => ?_)) (Within.refl _) ?_
    · refine TouchP.step (accept_touch ..) rfl ?_
      refine Touch.step (orderlyShutdown_touch ..) rfl ?_
      exact Touch.refl _ _
    · exact Touch.refl _ _
  · exact Touch.refl _ _

theorem strataFlush_touch {s : State} : Touch 32 s (strataFlush s) := by
  unfold strataFlush
  refine Touch.foldl ?_ (fun x0 x1 h2 => ?_)
  · exact Touch.refl _ _
  · refine Touch.step (strataWrite_touch ..) rfl ?_
    exact h2

theorem restart_touch {s : State} : Touch 24519928653854221733733552434404946937899825954937634815 s (restart s) := by
  unfold restart
  extract_lets -merge +onlyGivenNames x0
  subst x0
  refine Touch.step (modPwr_touch rfl) rfl ?_
  refine Touch.step (startUp_touch ..) rfl ?_
  refine Touch.step (persistAll_touch ..) rfl ?_
  refine Touch.step (strataFlush_touch ..) rfl ?_
  exact Touch.refl _ _

theorem deviceRestart_touch {c : Caller} {force : Bool} {s : State} : Touch 24519928653854221733733552434404946937899825954937634815 s (deviceRestart c force s) := by
  unfold deviceRestart
  extract_lets -merge +onlyGivenNames x0
  have h1 : Touch 24519928653854221733733552434404946937899825954937634815 s x0 := by
    unfold x0
    refine Touch.step (mbxServe_touch rfl (fun x2 x3 => ?_)) (Within.refl _) ?_
    · refine TouchP.ite ?_ ?_
      · refine TouchP.step (refuse_touch ..) rfl ?_
        exact Touch.refl _ _
      · refine TouchP.step (accept_touch ..) rfl ?_
        refine Touch.step (orderlyShutdown_touch ..) rfl ?_
        refine Touch.step (disarmAll_touch ..) rfl ?_
        exact Touch.refl _ _
    · exact Touch.refl _ _
  clear_value x0
  refine Touch.ite ?_ ?_
  · refine Touch.step (restart_touch ..) rfl ?_
    exact h1
  · exact h1

theorem execDeviceRestart_touch {c : Caller} {force : Bool} {s : State} : TouchOut 24519928653854221733733552434404946937899825954937634815 s (execDeviceRestart c force s) := by
  unfold execDeviceRestart
  refine TouchOut.step (whenOn_touch rfl (fun x0 => ?_)) (Within.refl _) ?_
  · refine Touch.step (deviceRestart_touch ..) rfl ?_
    exact Touch.refl _ _
  · exact Touch.refl _ _

theorem execFtSourceWrite_touch {a : Agent} {v : Word} {s : State} : TouchOut 22993425269701389577339840515068774514661676173494332016 s (execFtSourceWrite a v s) := by
  unfold execFtSourceWrite
  refine TouchOut.step (whenMain_touch rfl (fun x0 => ?_)) (Within.refl _) ?_
  · extract_lets -merge +onlyGivenNames x1
    subst x1
    refine Touch.step (ftSourceChanged_touch ..) rfl ?_
    refine Touch.step (keepWrite_touch ..) rfl ?_
    exact Touch.refl _ _
  · exact Touch.refl _ _

theorem execPtpSyncMessage_touch {offset : ℤ} {s : State} : TouchOut 5992156713056701964635107815345686200204502491216480 s (execPtpSyncMessage offset s) := by
  unfold execPtpSyncMessage
  refine TouchOut.step (whenOn_touch rfl (fun x0 => ?_)) (Within.refl _) ?_
  · refine Touch.ite ?_ ?_
    · exact Touch.refl _ _
    · refine Touch.step (linkPhase_touch ..) rfl ?_
      refine Touch.step (ptpSync_touch ..) rfl ?_
      exact Touch.refl _ _
  · exact Touch.refl _ _

theorem execPpsInEdge_touch {s : State} : TouchOut 5992159567552087376554869931917625099194775257235168 s (execPpsInEdge s) := by
  unfold execPpsInEdge
  extract_lets -merge +onlyGivenNames x0
  have h1 : Touch 5992159567552087376554869931917625099194775257235168 s x0 := by
    unfold x0
    refine Touch.step (watcherActive_touch ..) rfl ?_
    exact Touch.refl _ _
  clear_value x0
  refine TouchOut.step (whenOn_touch rfl (fun x2 => ?_)) (Within.refl _) ?_
  · refine Touch.step (linkPhase_touch ..) rfl ?_
    refine Touch.step (ppsEdge_touch ..) rfl ?_
    exact Touch.refl _ _
  · exact h1

theorem execFtSyncLoss_touch {s : State} : TouchOut 5992156713056701964635107814136760380589323560430176 s (execFtSyncLoss s) := by
  unfold execFtSyncLoss
  refine TouchOut.step (whenOn_touch rfl (fun x0 => ?_)) (Within.refl _) ?_
  · refine Touch.step (ftLoss_touch ..) rfl ?_
    exact Touch.refl _ _
  · exact Touch.refl _ _

theorem execFtSlewComplete_touch {s : State} : TouchOut 549755820032 s (execFtSlewComplete s) := by
  unfold execFtSlewComplete
  refine TouchOut.step (whenOn_touch rfl (fun x0 => ?_)) (Within.refl _) ?_
  · refine Touch.step (cmpTimePassed_touch ..) rfl ?_
    refine Touch.step (modFt_touch ..) rfl ?_
    exact Touch.refl _ _
  · exact Touch.refl _ _

theorem execPpsOutSecond_touch {s : State} : TouchOut 3072 s (execPpsOutSecond s) := by
  unfold execPpsOutSecond
  refine TouchOut.step (whenOn_touch rfl (fun x0 => ?_)) (Within.refl _) ?_
  · refine Touch.ite ?_ ?_
    · extract_lets -merge +onlyGivenNames x1
      clear_value x1
      refine Touch.step (modPwr_touch rfl) rfl ?_
      refine Touch.step (ftReach_touch ..) rfl ?_
      exact Touch.refl _ _
    · exact Touch.refl _ _
  · exact Touch.refl _ _

theorem ftSecondsReq_touch {c : Caller} {seconds : Nat} {s : State} : TouchP 2048 s (ftSecondsReq c seconds s) := by
  unfold ftSecondsReq
  refine TouchP.ite ?_ ?_
  · refine TouchP.step (refuse_touch ..) rfl ?_
    exact Touch.refl _ _
  · refine TouchP.mk' ?_
    refine Touch.step (modFt_touch ..) rfl ?_
    exact Touch.refl _ _

theorem execFtSetSeconds_touch {c : Caller} {seconds : Nat} {s : State} : TouchOut 134220416 s (execFtSetSeconds c seconds s) := by
  unfold execFtSetSeconds
  refine TouchOut.step (whenOn_touch rfl (fun x0 => ?_)) (Within.refl _) ?_
  · refine Touch.step (mbxServe_touch rfl (fun x1 x2 => ?_)) (Within.refl _) ?_
    · refine TouchP.step (ftSecondsReq_touch ..) rfl ?_
      exact Touch.refl _ _
    · exact Touch.refl _ _
  · exact Touch.refl _ _

theorem execFtSetSecondsTimeout_touch {s : State} : TouchOut 134220416 s (execFtSetSecondsTimeout s) := by
  unfold execFtSetSecondsTimeout
  refine TouchOut.step (whenOn_touch rfl (fun x0 => ?_)) (Within.refl _) ?_
  · split
    · rename_i x1 x2 x3 h4
      refine Touch.step (mbxReply_touch ..) rfl ?_
      refine Touch.step (modFt_touch ..) rfl ?_
      exact Touch.refl _ _
    · rename_i x5 h6
      exact Touch.refl _ _
  · exact Touch.refl _ _

theorem execPtpAnnounce_touch {m : PtpAnnounce} {s : State} : TouchOut 2048 s (execPtpAnnounce m s) := by
  unfold execPtpAnnounce
  refine TouchOut.step (whenOn_touch rfl (fun x0 => ?_)) (Within.refl _) ?_
  · refine Touch.ite ?_ ?_
    · exact Touch.refl _ _
    · extract_lets -merge +onlyGivenNames x1
      clear_value x1
      extract_lets -merge +onlyGivenNames x2
      clear_value x2
      refine Touch.ite ?_ ?_
      · refine Touch.step (modFt_touch ..) rfl ?_
        exact Touch.refl _ _
      · refine Touch.ite ?_ ?_
        · refine Touch.step (modFt_touch ..) rfl ?_
          exact Touch.refl _ _
        · exact Touch.refl _ _
  · exact Touch.refl _ _

theorem execPtpDelayMessage_touch {delay : Nat} {s : State} : TouchOut 2048 s (execPtpDelayMessage delay s) := by
  unfold execPtpDelayMessage
  refine TouchOut.step (whenOn_touch rfl (fun x0 => ?_)) (Within.refl _) ?_
  · refine Touch.ite ?_ ?_
    · exact Touch.refl _ _
    · refine Touch.step (modFt_touch ..) rfl ?_
      exact Touch.refl _ _
  · exact Touch.refl _ _

theorem execSteepCountSet_touch {c : Caller} {domain : Nat} {count : BitVec 48} {s : State} : TouchOut 1125900041065088 s (execSteepCountSet c domain count s) := by
  unfold execSteepCountSet
  refine TouchOut.step (whenOn_touch rfl (fun x0 => ?_)) (Within.refl _) ?_
  · refine Touch.step (mbxServe_touch rfl (fun x1 x2 => ?_)) (Within.refl _) ?_
    · refine TouchP.step (withOwnDom_touch rfl (fun x3 x4 => ?_)) (Within.refl _) ?_
      · refine TouchP.step (accept_touch ..) rfl ?_
        refine Touch.step (cmpCountSet_touch ..) rfl ?_
        refine Touch.step (setReg_touch ..) rfl ?_
        exact Touch.refl _ _
      · exact Touch.refl _ _
    · exact Touch.refl _ _
  · exact Touch.refl _ _

theorem sieveDirect_touch {die : Nat} {p : SievePayload} {s : State} : Touch 1502423683176168199913388008032338944206298922614848 s (sieveDirect die p s) := by
  unfold sieveDirect
  refine Touch.ite ?_ ?_
  · split
    · rename_i x0 x1 x2 h3
      have h4 : Touch 1502423683176168199913388008032338944206298922614848 s x2 := by
        refine TouchP.eq ?_ h3
        refine TouchP.step (draw_touch ..) rfl ?_
        exact Touch.refl _ _
      refine Touch.step (sieveStore_touch ..) rfl ?_
      exact h4
  · exact Touch.refl _ _

theorem sieveSample_touch {die : Nat} {s : State} : Touch 1502423683176168199913388008032338944206298922614848 s (sieveSample die s) := by
  unfold sieveSample
  refine Touch.foldl ?_ (fun x0 x1 h2 => ?_)
  · exact Touch.refl _ _
  · refine Touch.ite ?_ ?_
    · refine Touch.step (sieveDirect_touch ..) rfl ?_
      exact h2
    · exact h2

theorem sieveEnable_touch {die : Nat} {en : Bool} {s : State} : Touch 8769009823985417509222108996297698117935595257856 s (sieveEnable die en s) := by
  unfold sieveEnable
  extract_lets -merge +onlyGivenNames x0
  clear_value x0
  extract_lets -merge +onlyGivenNames x1
  have h2 : Touch 8769009823985417509222108996297698117935595257856 s x1 := by
    unfold x1
    refine Touch.step (setFld_touch ..) rfl ?_
    exact Touch.refl _ _
  clear_value x1
  refine Touch.ite ?_ ?_
  · refine Touch.step (setFld_touch ..) rfl ?_
    exact h2
  · refine Touch.ite ?_ ?_
    · refine Touch.step (setFld_touch ..) rfl ?_
      exact h2
    · exact h2

theorem sieveWindow_touch {die : Nat} {start : Bool} {s : State} : Touch 7491657392958208358712088452503666758756310483738688 s (sieveWindow die start s) := by
  unfold sieveWindow
  extract_lets -merge +onlyGivenNames x0
  clear_value x0
  refine Touch.ite ?_ ?_
  · extract_lets -merge +onlyGivenNames x1
    have h2 : Touch 7491657392958208358712088452503666758756310483738688 s x1 := by
      unfold x1
      refine Touch.ite ?_ ?_
      · refine Touch.step (sieveEnable_touch ..) rfl ?_
        exact Touch.refl _ _
      · exact Touch.refl _ _
    clear_value x1
    refine Touch.step (sieveTrigger_touch ..) rfl ?_
    refine Touch.step (sieveDirect_touch ..) rfl ?_
    exact h2
  · extract_lets -merge +onlyGivenNames x3
    have h4 : Touch 7491657392958208358712088452503666758756310483738688 s x3 := by
      unfold x3
      refine Touch.step (sieveDirect_touch ..) rfl ?_
      exact Touch.refl _ _
    clear_value x3
    refine Touch.ite ?_ ?_
    · refine Touch.step (sieveEnable_touch ..) rfl ?_
      exact h4
    · exact h4

theorem cmpAction_touch {k : Nat} {a : Armed} {s : State} : Touch 7491660247453593775824147427611613877897797157937728 s (cmpAction k a s) := by
  unfold cmpAction
  extract_lets -merge +onlyGivenNames x0
  clear_value x0
  split
  · rename_i x1 h2
    refine Touch.ite ?_ ?_
    · exact Touch.refl _ _
    · refine Touch.foldl ?_ (fun x3 x4 h5 => ?_)
      · exact Touch.refl _ _
      · refine Touch.step (eicEvent_touch ..) rfl ?_
        exact h5
  · rename_i x6 h7
    refine Touch.step (caddyTrigger_touch ..) rfl ?_
    exact Touch.refl _ _
  · rename_i x8 h9
    refine Touch.step (sieveSample_touch ..) rfl ?_
    exact Touch.refl _ _
  · rename_i x10 h11
    refine Touch.step (refillAll_touch ..) rfl ?_
    exact Touch.refl _ _
  · rename_i x12 h13
    refine Touch.step (sendHeartbeat_touch ..) rfl ?_
    exact Touch.refl _ _
  · rename_i x14 h15
    refine Touch.step (sieveWindow_touch ..) rfl ?_
    exact Touch.refl _ _
  · rename_i x16 h17
    refine Touch.step (sieveWindow_touch ..) rfl ?_
    exact Touch.refl _ _
  · rename_i x18 h19
    split
    · rename_i x20 x21 h22
      refine Touch.step (modCore_touch ..) rfl ?_
      exact Touch.refl _ _
    · rename_i x23 h24
      exact Touch.refl _ _
  · rename_i x25 h26 h27 h28 h29 h30 h31 h32 h33
    exact Touch.refl _ _

theorem cmpFire_touch {k : Nat} {a : Armed} {s : State} : Touch 7491660247453593775824147427611613877898346913751616 s (cmpFire k a s) := by
  unfold cmpFire
  extract_lets -merge +onlyGivenNames x0
  have h1 : Touch 7491660247453593775824147427611613877898346913751616 s x0 := by
    unfold x0
    refine Touch.ite ?_ ?_
    · refine Touch.step (setFld_touch ..) rfl ?_
      exact Touch.refl _ _
    · exact Touch.refl _ _
  clear_value x0
  refine Touch.ite ?_ ?_
  · refine Touch.step (bumpFld_touch ..) rfl ?_
    exact h1
  · refine Touch.ite ?_ ?_
    · refine Touch.step (setFld_touch ..) rfl ?_
      exact h1
    · refine Touch.step (cmpAction_touch ..) rfl ?_
      exact h1

theorem execComparatorFire_touch {die : Nat} {idx : Nat} {s : State} : TouchOut 7491660247453593775824147427611613877898346913757760 s (execComparatorFire die idx s) := by
  unfold execComparatorFire
  refine TouchOut.ite ?_ ?_
  · exact TouchOut.fault _ _ _
  · refine TouchOut.step (whenOn_touch rfl (fun x0 => ?_)) (Within.refl _) ?_
    · extract_lets -merge +onlyGivenNames x1
      clear_value x1
      split
      · rename_i x2 h3
        exact Touch.refl _ _
      · rename_i x4 x5 h6
        split
        · rename_i x7 h8
          exact Touch.refl _ _
        · rename_i x9 x10 h11
          extract_lets -merge +onlyGivenNames x12
          have h13 : Touch 7491660247453593775824147427611613877898346913757760 x0 x12 := by
            unfold x12
            split
            · rename_i x14 x15
              refine Touch.step (ftReach_touch ..) rfl ?_
              exact Touch.refl _ _
            · rename_i x16
              exact Touch.refl _ _
          clear_value x12
          refine Touch.step (cmpFire_touch ..) rfl ?_
          refine Touch.step (setArmed_touch ..) rfl ?_
          exact h13
    · exact Touch.refl _ _

theorem execTcmpCtlWrite_touch {a : Agent} {die : Nat} {idx : Nat} {v : Word} {s : State} : TouchOut 566935687168 s (execTcmpCtlWrite a die idx v s) := by
  unfold execTcmpCtlWrite
  refine TouchOut.ite ?_ ?_
  · exact TouchOut.fault _ _ _
  · refine TouchOut.step (whenMain_touch rfl (fun x0 => ?_)) (Within.refl _) ?_
    · extract_lets -merge +onlyGivenNames x1
      clear_value x1
      refine Touch.ite ?_ ?_
      · refine Touch.step (tcmpWrite_touch ..) rfl ?_
        exact Touch.refl _ _
      · refine Touch.step (ignored_touch ..) rfl ?_
        exact Touch.refl _ _
    · exact Touch.refl _ _

theorem cmpAllocReq_touch {c : Caller} {die : Nat} {count : Nat} {s : State} : TouchP 4096 s (cmpAllocReq c die count s) := by
  unfold cmpAllocReq
  refine TouchP.ite ?_ ?_
  · refine TouchP.step (refuseAt_touch ..) rfl ?_
    exact Touch.refl _ _
  · refine TouchP.ite ?_ ?_
    · refine TouchP.step (refuseAt_touch ..) rfl ?_
      exact Touch.refl _ _
    · refine TouchP.ite ?_ ?_
      · refine TouchP.step (refuseAt_touch ..) rfl ?_
        exact Touch.refl _ _
      · refine TouchP.ite ?_ ?_
        · refine TouchP.step (refuse_touch ..) rfl ?_
          exact Touch.refl _ _
        · split
          · rename_i x0 h1
            refine TouchP.step (refuse_touch ..) rfl ?_
            exact Touch.refl _ _
          · rename_i x2 x3 h4
            refine TouchP.step (accept_touch ..) rfl ?_
            refine Touch.step (cmpTake_touch ..) rfl ?_
            exact Touch.refl _ _

theorem cmpFreeReq_touch {c : Caller} {die : Nat} {idx : Nat} {s : State} : TouchP 549755817984 s (cmpFreeReq c die idx s) := by
  unfold cmpFreeReq
  extract_lets -merge +onlyGivenNames x0
  clear_value x0
  refine TouchP.ite ?_ ?_
  · refine TouchP.step (refuseAt_touch ..) rfl ?_
    exact Touch.refl _ _
  · refine TouchP.ite ?_ ?_
    · refine TouchP.step (refuseAt_touch ..) rfl ?_
      exact Touch.refl _ _
    · extract_lets -merge +onlyGivenNames x1
      have h2 : Touch 549755817984 s x1 := by
        unfold x1
        refine Touch.step (cmpDisarm_touch ..) rfl ?_
        exact Touch.refl _ _
      clear_value x1
      refine TouchP.step (accept_touch ..) rfl ?_
      refine Touch.step (t := x1) (Touch.upd (F := 4096) rfl (Or.inr rfl)) rfl ?_
      exact h2

theorem execComparatorAlloc_touch {c : Caller} {die : Byte} {count : Byte} {s : State} : TouchOut 134222464 s (execComparatorAlloc c die count s) := by
  unfold execComparatorAlloc
  refine TouchOut.step (whenOn_touch rfl (fun x0 => ?_)) (Within.refl _) ?_
  · refine Touch.step (mbxServe_touch rfl (fun x1 x2 => ?_)) (Within.refl _) ?_
    · refine TouchP.step (cmpAllocReq_touch ..) rfl ?_
      exact Touch.refl _ _
    · exact Touch.refl _ _
  · exact Touch.refl _ _

theorem execComparatorFree_touch {c : Caller} {die : Byte} {idx : Byte} {s : State} : TouchOut 549890036352 s (execComparatorFree c die idx s) := by
  unfold execComparatorFree
  refine TouchOut.step (whenOn_touch rfl (fun x0 => ?_)) (Within.refl _) ?_
  · refine Touch.step (mbxServe_touch rfl (fun x1 x2 => ?_)) (Within.refl _) ?_
    · refine TouchP.step (cmpFreeReq_touch ..) rfl ?_
      exact Touch.refl _ _
    · exact Touch.refl _ _
  · exact Touch.refl _ _

theorem freezeStart_touch {s : State} : Touch 8192 s (freezeStart s) := by
  unfold freezeStart
  refine Touch.step (t := s) (Touch.upd (F := 8192) rfl (Or.inr rfl)) rfl ?_
  exact Touch.refl _ _

theorem freezeEnd_touch {s : State} : Touch 7491660247453593775824147427611613877898346913751616 s (freezeEnd s) := by
  unfold freezeEnd
  refine Touch.ite ?_ ?_
  · exact Touch.refl _ _
  · extract_lets -merge +onlyGivenNames x0
    have h1 : Touch 7491660247453593775824147427611613877898346913751616 s x0 := by
      unfold x0
      refine Touch.step (t := s) (Touch.upd (F := 8192) rfl (Or.inr rfl)) rfl ?_
      exact Touch.refl _ _
    clear_value x0
    refine Touch.foldl ?_ (fun x2 x3 h4 => ?_)
    · exact h1
    · refine Touch.ite ?_ ?_
      · extract_lets -merge +onlyGivenNames x5
        have h6 : Touch 7491660247453593775824147427611613877898346913751616 s x5 := by
          unfold x5
          refine Touch.step (setFld_touch ..) rfl ?_
          exact h4
        clear_value x5
        split
        · rename_i x7 x8 h9
          refine Touch.step (cmpAction_touch ..) rfl ?_
          exact h6
        · rename_i x10 h11
          exact h6
      · exact h4

theorem execDebugFreezeStart_touch {a : Agent} {s : State} : TouchOut 8192 s (execDebugFreezeStart a s) := by
  unfold execDebugFreezeStart
  refine TouchOut.step (whenMain_touch rfl (fun x0 => ?_)) (Within.refl _) ?_
  · refine Touch.ite ?_ ?_
    · refine Touch.step (freezeStart_touch ..) rfl ?_
      exact Touch.refl _ _
    · exact Touch.refl _ _
  · exact Touch.refl _ _

theorem execDebugFreezeEnd_touch {a : Agent} {s : State} : TouchOut 7491660247453593775824147427611613877898346913751616 s (execDebugFreezeEnd a s) := by
  unfold execDebugFreezeEnd
  refine TouchOut.step (whenMain_touch rfl (fun x0 => ?_)) (Within.refl _) ?_
  · refine Touch.ite ?_ ?_
    · refine Touch.step (freezeEnd_touch ..) rfl ?_
      exact Touch.refl _ _
    · exact Touch.refl _ _
  · exact Touch.refl _ _

theorem regRead_touch {a : Agent} {r : Reg} {a2 : Bool} {s : State} : TouchP 2 s (regRead a r a2 s) := by
  unfold regRead
  extract_lets -merge +onlyGivenNames x0
  clear_value x0
  refine TouchP.ite ?_ ?_
  · refine TouchP.mk' ?_
    exact Touch.refl _ _
  · refine TouchP.ite ?_ ?_
    · split
      · rename_i x1 x2 x3 h4
        refine TouchP.ite ?_ ?_
        · refine TouchP.mk' ?_
          refine Touch.step (t := s) (Touch.upd (F := 2) rfl (Or.inr rfl)) rfl ?_
          exact Touch.refl _ _
        · refine TouchP.mk' ?_
          exact Touch.refl _ _
      · rename_i x5 h6
        refine TouchP.mk' ?_
        exact Touch.refl _ _
    · refine TouchP.mk' ?_
      refine Touch.step (t := s) (Touch.upd (F := 2) rfl (Or.inr rfl)) rfl ?_
      exact Touch.refl _ _

theorem sivCtlWrite_touch {die : Nat} {v : Nat} {s : State} : Touch 8769009823985417509222108996297698117935595257856 s (sivCtlWrite die v s) := by
  unfold sivCtlWrite
  extract_lets -merge +onlyGivenNames x0
  clear_value x0
  extract_lets -merge +onlyGivenNames x1
  have h2 : Touch 8769009823985417509222108996297698117935595257856 s x1 := by
    unfold x1
    refine Touch.step (setFld_touch ..) rfl ?_
    exact Touch.refl _ _
  clear_value x1
  extract_lets -merge +onlyGivenNames x3
  have h4 : Touch 8769009823985417509222108996297698117935595257856 s x3 := by
    unfold x3
    refine Touch.step (setFld_touch ..) rfl ?_
    refine Touch.step (setReg_touch ..) rfl ?_
    exact h2
  clear_value x3
  extract_lets -merge +onlyGivenNames x5
  have h6 : Touch 8769009823985417509222108996297698117935595257856 s x5 := by
    unfold x5
    refine Touch.step (sieveEnable_touch ..) rfl ?_
    exact h4
  clear_value x5
  refine Touch.ite ?_ ?_
  · refine Touch.step (setFld_touch ..) rfl ?_
    exact h6
  · exact h6

theorem msixWrite_touch {k : Nat} {v : Nat} {s : State} : Touch 134218240 s (msixWrite k v s) := by
  unfold msixWrite
  extract_lets -merge +onlyGivenNames x0
  clear_value x0
  extract_lets -merge +onlyGivenNames x1
  clear_value x1
  extract_lets -merge +onlyGivenNames x2
  clear_value x2
  extract_lets -merge +onlyGivenNames x3
  clear_value x3
  extract_lets -merge +onlyGivenNames x4
  subst x4
  extract_lets -merge +onlyGivenNames x5
  have h6 : Touch 134218240 s x5 := by
    unfold x5
    refine Touch.step (t := s) (Touch.upd (F := 512) rfl (Or.inr rfl)) rfl ?_
    exact Touch.refl _ _
  clear_value x5
  refine Touch.ite ?_ ?_
  · refine Touch.step (irqSend_touch ..) rfl ?_
    exact h6
  · exact h6

theorem regWrite_touch {a : Agent} {r : Reg} {a2 : Bool} {v : Nat} {s : State} : Touch 24519928653854221733733552434404946937899825951112876680 s (regWrite a r a2 v s) := by
  unfold regWrite
  extract_lets -merge +onlyGivenNames x0
  clear_value x0
  refine Touch.ite ?_ ?_
  · exact Touch.refl _ _
  · split
    · rename_i x1 h2
      refine Touch.ite ?_ ?_
      · refine Touch.step (tcmpWrite_touch ..) rfl ?_
        exact Touch.refl _ _
      · refine Touch.step (ignored_touch ..) rfl ?_
        exact Touch.refl _ _
    · rename_i x3 h4
      refine Touch.ite ?_ ?_
      · refine Touch.step (regPut_touch ..) rfl ?_
        exact Touch.refl _ _
      · refine Touch.step (ignored_touch ..) rfl ?_
        exact Touch.refl _ _
    · rename_i x5 h6
      refine Touch.ite ?_ ?_
      · refine Touch.step (regPut_touch ..) rfl ?_
        exact Touch.refl _ _
      · refine Touch.step (ignored_touch ..) rfl ?_
        exact Touch.refl _ _
    · rename_i x7 h8
      refine Touch.ite ?_ ?_
      · exact Touch.refl _ _
      · refine Touch.step (reachWrite_touch ..) rfl ?_
        exact Touch.refl _ _
    · rename_i x9 h10
      refine Touch.ite ?_ ?_
      · refine Touch.step (srSeedLoad_touch ..) rfl ?_
        exact Touch.refl _ _
      · refine Touch.step (regPut_touch ..) rfl ?_
        exact Touch.refl _ _
    · rename_i x11 h12
      refine Touch.step (cadWrite_touch ..) rfl ?_
      exact Touch.refl _ _
    · rename_i x13 h14
      refine Touch.step (cadWrite_touch ..) rfl ?_
      exact Touch.refl _ _
    · rename_i x15 h16
      refine Touch.step (cadWrite_touch ..) rfl ?_
      exact Touch.refl _ _
    · rename_i x17 h18
      refine Touch.step (cadWrite_touch ..) rfl ?_
      exact Touch.refl _ _
    · rename_i x19 h20
      refine Touch.step (cadWrite_touch ..) rfl ?_
      exact Touch.refl _ _
    · rename_i x21 h22
      refine Touch.step (cadWrite_touch ..) rfl ?_
      exact Touch.refl _ _
    · rename_i x23 h24
      refine Touch.step (cadWrite_touch ..) rfl ?_
      exact Touch.refl _ _
    · rename_i x25 h26
      refine Touch.step (cadWrite_touch ..) rfl ?_
      exact Touch.refl _ _
    · rename_i x27 h28
      extract_lets -merge +onlyGivenNames x29
      clear_value x29
      refine Touch.ite ?_ ?_
      · refine Touch.step (setMailbox_touch ..) rfl ?_
        exact Touch.refl _ _
      · exact Touch.refl _ _
    · rename_i x30 h31
      refine Touch.step (ccWrite_touch ..) rfl ?_
      exact Touch.refl _ _
    · rename_i x32 h33
      refine Touch.step (msixWrite_touch ..) rfl ?_
      exact Touch.refl _ _
    · rename_i x34 h35
      refine Touch.step (sivCtlWrite_touch ..) rfl ?_
      exact Touch.refl _ _
    · rename_i x36 h37 h38 h39 h40 h41 h42 h43 h44 h45 h46 h47 h48 h49 h50 h51 h52 h53
      refine Touch.step (regPut_touch ..) rfl ?_
      exact Touch.refl _ _

theorem pageGate_touch {n : Nat} {s : State} {f : State → State} {F : Nat} (hF : Within 2475880078570760566978117632 F) (hf : ∀ (y0 : State), Touch F y0 (f y0)) : Touch F s (pageGate n s f) := by
  unfold pageGate
  refine Touch.ite ?_ ?_
  · refine Touch.step (hf ..) (Within.refl _) ?_
    exact Touch.refl _ _
  · refine Touch.step (pageIgnored_touch ..) (.trans rfl hF) ?_
    exact Touch.refl _ _

theorem regGate_touch {a : Agent} {p : RegPlace} {s : State} {f : State → State} {F : Nat} (hF : Within 2475880078570760566978117632 F) (hf : ∀ (y0 : State), Touch F y0 (f y0)) : Touch F s (regGate a p s f) := by
  unfold regGate
  split
  · rename_i x0
    refine Touch.step (hf ..) (Within.refl _) ?_
    exact Touch.refl _ _
  · rename_i x1
    refine Touch.ite ?_ ?_
    · exact Touch.refl _ _
    · split
      · rename_i x2 x3
        refine Touch.ite ?_ ?_
        · refine Touch.step (hf ..) (Within.refl _) ?_
          exact Touch.refl _ _
        · refine Touch.ite ?_ ?_
          · refine Touch.step (pageGate_touch (.trans rfl hF) (fun x4 => ?_)) (Within.refl _) ?_
            · refine Touch.step (hf ..) (Within.refl _) ?_
              exact Touch.refl _ _
            · exact Touch.refl _ _
          · exact Touch.refl _ _
      · rename_i x5 x6
        refine Touch.ite ?_ ?_
        · refine Touch.step (hf ..) (Within.refl _) ?_
          exact Touch.refl _ _
        · exact Touch.refl _ _
      · rename_i x7 x8
        refine Touch.ite ?_ ?_
        · refine Touch.step (hf ..) (Within.refl _) ?_
          exact Touch.refl _ _
        · exact Touch.refl _ _
      · rename_i x9 x10
        refine Touch.ite ?_ ?_
        · refine Touch.step (pageGate_touch (.trans rfl hF) (fun x11 => ?_)) (Within.refl _) ?_
          · refine Touch.step (hf ..) (Within.refl _) ?_
            exact Touch.refl _ _
          · exact Touch.refl _ _
        · exact Touch.refl _ _
      · rename_i x12 x13
        refine Touch.ite ?_ ?_
        · refine Touch.step (pageGate_touch (.trans rfl hF) (fun x14 => ?_)) (Within.refl _) ?_
          · refine Touch.step (hf ..) (Within.refl _) ?_
            exact Touch.refl _ _
          · exact Touch.refl _ _
        · exact Touch.refl _ _
      · rename_i x15 h16 h17 h18 h19 h20
        refine Touch.step (hf ..) (Within.refl _) ?_
        exact Touch.refl _ _
  · rename_i x21
    refine Touch.ite ?_ ?_
    · exact Touch.refl _ _
    · split
      · rename_i x22 x23
        refine Touch.ite ?_ ?_
        · refine Touch.step (hf ..) (Within.refl _) ?_
          exact Touch.refl _ _
        · exact Touch.refl _ _
      · rename_i x24 x25
        refine Touch.ite ?_ ?_
        · refine Touch.step (hf ..) (Within.refl _) ?_
          exact Touch.refl _ _
        · exact Touch.refl _ _
      · rename_i x26 x27
        refine Touch.ite ?_ ?_
        · refine Touch.step (hf ..) (Within.refl _) ?_
          exact Touch.refl _ _
        · exact Touch.refl _ _
      · rename_i x28
        refine Touch.step (ignored_touch ..) (.trans rfl hF) ?_
        exact Touch.refl _ _
      · rename_i x29 x30
        refine Touch.step (ignored_touch ..) (.trans rfl hF) ?_
        exact Touch.refl _ _
      · rename_i x31 h32 h33 h34 h35 h36
        exact Touch.refl _ _
  · rename_i x37
    split
    · rename_i x38
      refine Touch.step (hf ..) (Within.refl _) ?_
      exact Touch.refl _ _
    · rename_i x39 x40
      refine Touch.step (hf ..) (Within.refl _) ?_
      exact Touch.refl _ _
    · rename_i x41 x42
      refine Touch.step (hf ..) (Within.refl _) ?_
      exact Touch.refl _ _
    · rename_i x43
      refine Touch.step (hf ..) (Within.refl _) ?_
      exact Touch.refl _ _
    · rename_i x44 x45
      refine Touch.step (hf ..) (Within.refl _) ?_
      exact Touch.refl _ _
    · rename_i x46 h47 h48 h49 h50 h51
      exact Touch.refl _ _
  · rename_i x52 x53
    split
    · rename_i x54 x55
      refine Touch.ite ?_ ?_
      · refine Touch.step (pageGate_touch (.trans rfl hF) (fun x56 => ?_)) (Within.refl _) ?_
        · refine Touch.step (hf ..) (Within.refl _) ?_
          exact Touch.refl _ _
        · exact Touch.refl _ _
      · exact Touch.refl _ _
    · rename_i x57 x58
      refine Touch.ite ?_ ?_
      · refine Touch.step (pageGate_touch (.trans rfl hF) (fun x59 => ?_)) (Within.refl _) ?_
        · refine Touch.step (hf ..) (Within.refl _) ?_
          exact Touch.refl _ _
        · exact Touch.refl _ _
      · exact Touch.refl _ _
    · rename_i x60 x61
      refine Touch.ite ?_ ?_
      · refine Touch.step (pageGate_touch (.trans rfl hF) (fun x62 => ?_)) (Within.refl _) ?_
        · refine Touch.step (hf ..) (Within.refl _) ?_
          exact Touch.refl _ _
        · exact Touch.refl _ _
      · exact Touch.refl _ _
    · rename_i x63 h64 h65 h66
      exact Touch.refl _ _
  · rename_i x67 x68
    split
    · rename_i x69 x70
      refine Touch.step (cadGate_touch (.trans rfl hF) (fun x71 => ?_)) (Within.refl _) ?_
      · refine Touch.step (hf ..) (Within.refl _) ?_
        exact Touch.refl _ _
      · exact Touch.refl _ _
    · rename_i x72 h73
      refine Touch.ite ?_ ?_
      · refine Touch.step (hf ..) (Within.refl _) ?_
        exact Touch.refl _ _
      · exact Touch.refl _ _
  · rename_i x74 x75
    split
    · rename_i x76 x77
      refine Touch.ite ?_ ?_
      · refine Touch.step (hf ..) (Within.refl _) ?_
        exact Touch.refl _ _
      · exact Touch.refl _ _
    · rename_i x78 h79
      exact Touch.refl _ _
  · rename_i x80 h81 h82 h83 h84 h85 h86 h87
    exact Touch.refl _ _

theorem execRegisterWrite_touch {a : Agent} {r : Reg} {a2 : Bool} {v : Word} {s : State} : TouchOut 24519928653854221733733552434404946937899825951112876680 s (execRegisterWrite a r a2 v s) := by
  unfold execRegisterWrite
  refine TouchOut.ite ?_ ?_
  · exact TouchOut.fault _ _ _
  · refine TouchOut.step (whenMain_touch rfl (fun x0 => ?_)) (Within.refl _) ?_
    · refine Touch.step (regGate_touch rfl (fun x1 => ?_)) (Within.refl _) ?_
      · refine Touch.step (regWrite_touch ..) rfl ?_
        exact Touch.refl _ _
      · exact Touch.refl _ _
    · exact Touch.refl _ _

theorem execMisalignedRegisterAccess_touch {a0 : Agent} {write : Bool} {s : State} : TouchOut 8589934596 s (execMisalignedRegisterAccess a0 write s) := by
  unfold execMisalignedRegisterAccess
  refine TouchOut.step (whenMain_touch rfl (fun x0 => ?_)) (Within.refl _) ?_
  · extract_lets -merge +onlyGivenNames x1
    have h2 : Touch 8589934596 x0 x1 := by
      unfold x1
      refine Touch.step (bump_touch ..) rfl ?_
      exact Touch.refl _ _
    clear_value x1
    refine Touch.ite ?_ ?_
    · exact h2
    · refine Touch.step (t := x1) (Touch.upd (F := 4) rfl (Or.inr rfl)) rfl ?_
      exact h2
  · exact Touch.refl _ _

theorem execReg64LowWordRead_touch {a : Agent} {r : Reg} {s : State} : TouchOut 6 s (execReg64LowWordRead a r s) := by
  unfold execReg64LowWordRead
  refine TouchOut.ite ?_ ?_
  · exact TouchOut.fault _ _ _
  · refine TouchOut.step (whenMain_touch rfl (fun x0 => ?_)) (Within.refl _) ?_
    · refine Touch.ite ?_ ?_
      · exact Touch.refl _ _
      · split
        · rename_i x1 x2 x3 h4
          have h5 : Touch 6 x0 x3 := by
            refine TouchP.eq ?_ h4
            refine TouchP.step (regRead_touch ..) rfl ?_
            exact Touch.refl _ _
          refine Touch.step (t := x3) (Touch.upd (F := 4) rfl (Or.inr rfl)) rfl ?_
          exact h5
    · exact Touch.refl _ _

theorem keepStore_touch {a : Agent} {w : Nat} {v : Nat} {s : State} : Touch 22993425269701389577339840515068774514661676173494332016 s (keepStore a w v s) := by
  unfold keepStore
  extract_lets -merge +onlyGivenNames x0
  subst x0
  extract_lets -merge +onlyGivenNames x1
  have h2 : Touch 22993425269701389577339840515068774514661676173494332016 s x1 := by
    unfold x1
    refine Touch.step (keepWrite_touch ..) rfl ?_
    exact Touch.refl _ _
  clear_value x1
  refine Touch.ite ?_ ?_
  · refine Touch.step (ftSourceChanged_touch ..) rfl ?_
    exact h2
  · exact h2

theorem execKeepWrite_touch {a : Agent} {word : Nat} {v : Word} {s : State} : TouchOut 22993425269701389577339840515068774514661676173494332016 s (execKeepWrite a word v s) := by
  unfold execKeepWrite
  refine TouchOut.step (whenMain_touch rfl (fun x0 => ?_)) (Within.refl _) ?_
  · split
    · rename_i x1
      refine Touch.ite ?_ ?_
      · refine Touch.step (keepStore_touch ..) rfl ?_
        exact Touch.refl _ _
      · exact Touch.refl _ _
    · rename_i x2
      refine Touch.ite ?_ ?_
      · refine Touch.step (keepStore_touch ..) rfl ?_
        exact Touch.refl _ _
      · exact Touch.refl _ _
    · rename_i x3
      refine Touch.ite ?_ ?_
      · refine Touch.step (keepStore_touch ..) rfl ?_
        exact Touch.refl _ _
      · exact Touch.refl _ _
    · rename_i x4 h5 h6 h7
      refine Touch.step (keepStore_touch ..) rfl ?_
      exact Touch.refl _ _
  · exact Touch.refl _ _

theorem execKeepPersist_touch {word : Nat} {s : State} : TouchOut 16 s (execKeepPersist word s) := by
  unfold execKeepPersist
  refine TouchOut.step (whenMain_touch rfl (fun x0 => ?_)) (Within.refl _) ?_
  · refine Touch.step (keepPersist_touch ..) rfl ?_
    exact Touch.refl _ _
  · exact Touch.refl _ _

theorem localWrite_touch {id : Nat} {off : Nat} {v : Nat} {s : State} : TouchO 24519928653854221733733552434404946937899825950911225920 s (localWrite id off v s) := by
  unfold localWrite
  refine TouchO.ite ?_ ?_
  · refine TouchO.some' ?_
    refine Touch.step (reachWrite_touch ..) rfl ?_
    exact Touch.refl _ _
  · refine TouchO.ite ?_ ?_
    · refine TouchO.some' ?_
      refine Touch.step (regPut_touch ..) rfl ?_
      exact Touch.refl _ _
    · refine TouchO.ite ?_ ?_
      · refine TouchO.some' ?_
        refine Touch.step (srSeedLoad_touch ..) rfl ?_
        exact Touch.refl _ _
      · refine TouchO.ite ?_ ?_
        · refine TouchO.some' ?_
          refine Touch.step (kernelEnd_touch ..) rfl ?_
          exact Touch.refl _ _
        · refine TouchO.ite ?_ ?_
          · refine TouchO.some' ?_
            refine Touch.step (traceStore_touch ..) rfl ?_
            exact Touch.refl _ _
          · refine TouchO.ite ?_ ?_
            · refine TouchO.some' ?_
              refine Touch.step (setReg_touch ..) rfl ?_
              exact Touch.refl _ _
            · refine TouchO.ite ?_ ?_
              · refine TouchO.some' ?_
                refine Touch.step (setReg_touch ..) rfl ?_
                exact Touch.refl _ _
              · refine TouchO.ite ?_ ?_
                · refine TouchO.step (dmaSubmit_touch) rfl ?_
                  exact Touch.refl _ _
                · refine TouchO.ite ?_ ?_
                  · refine TouchO.some' ?_
                    refine Touch.step (setReg_touch ..) rfl ?_
                    exact Touch.refl _ _
                  · refine TouchO.ite ?_ ?_
                    · refine TouchO.step (meSubmit_touch) rfl ?_
                      exact Touch.refl _ _
                    · refine TouchO.ite ?_ ?_
                      · refine TouchO.some' ?_
                        refine Touch.step (mePop_touch ..) rfl ?_
                        exact Touch.refl _ _
                      · refine TouchO.some' ?_
                        exact Touch.refl _ _

theorem eicSwi_touch {cl : Nat} {v : Nat} {s : State} : Touch 2854495385411919762116571938898990272765493760 s (eicSwi cl v s) := by
  unfold eicSwi
  refine Touch.step (eicEvent_touch ..) rfl ?_
  exact Touch.refl _ _

theorem tnsWrite_touch {a : Agent} {off : Nat} {v : Nat} {s : State} : TouchOO 24519928653854221733733552434404946937899825951112950520 s (tnsWrite a off v s) := by
  unfold tnsWrite
  refine TouchOO.ite ?_ ?_
  · refine TouchOO.ite ?_ ?_
    · refine TouchOO.some' ?_
      refine TouchO.step (localWrite_touch) rfl ?_
      exact Touch.refl _ _
    · exact TouchOO.none' _ _
  · refine TouchOO.ite ?_ ?_
    · extract_lets -merge +onlyGivenNames x0
      clear_value x0
      extract_lets -merge +onlyGivenNames x1
      clear_value x1
      refine TouchOO.ite ?_ ?_
      · refine TouchOO.some' ?_
        refine TouchO.some' ?_
        refine Touch.ite ?_ ?_
        · refine Touch.step (eicComplete_touch ..) rfl ?_
          exact Touch.refl _ _
        · refine Touch.ite ?_ ?_
          · refine Touch.step (eicSwi_touch ..) rfl ?_
            exact Touch.refl _ _
          · split
            · rename_i x2 x3 h4
              refine Touch.step (regWrite_touch ..) rfl ?_
              exact Touch.refl _ _
            · rename_i x5 h6
              exact Touch.refl _ _
      · refine TouchOO.ite ?_ ?_
        · refine TouchOO.some' ?_
          refine TouchO.some' ?_
          exact Touch.refl _ _
        · refine TouchOO.ite ?_ ?_
          · refine TouchOO.some' ?_
            refine TouchO.some' ?_
            refine Touch.step (keepWrite_touch ..) rfl ?_
            exact Touch.refl _ _
          · refine TouchOO.ite ?_ ?_
            · refine TouchOO.some' ?_
              refine TouchO.some' ?_
              refine Touch.step (keepWrite_touch ..) rfl ?_
              exact Touch.refl _ _
            · exact TouchOO.none' _ _
    · refine TouchOO.ite ?_ ?_
      · extract_lets -merge +onlyGivenNames x7
        clear_value x7
        extract_lets -merge +onlyGivenNames x8
        clear_value x8
        split
        · rename_i x9 x10 x11 h12
          refine TouchOO.some' ?_
          refine TouchO.some' ?_
          refine Touch.ite ?_ ?_
          · refine Touch.step (regWrite_touch ..) rfl ?_
            exact Touch.refl _ _
          · refine Touch.ite ?_ ?_
            · refine Touch.step (regWrite_touch ..) rfl ?_
              exact Touch.refl _ _
            · refine Touch.ite ?_ ?_
              · refine Touch.step (regWrite_touch ..) rfl ?_
                exact Touch.refl _ _
              · exact Touch.refl _ _
        · rename_i x13 h14
          refine TouchOO.ite ?_ ?_
          · refine TouchOO.some' ?_
            refine TouchO.some' ?_
            exact Touch.refl _ _
          · refine TouchOO.ite ?_ ?_
            · refine TouchOO.some' ?_
              refine TouchO.some' ?_
              refine Touch.step (keepWrite_touch ..) rfl ?_
              exact Touch.refl _ _
            · exact TouchOO.none' _ _
      · refine TouchOO.ite ?_ ?_
        · split
          · rename_i x15 x16 x17 h18
            refine TouchOO.some' ?_
            refine TouchO.some' ?_
            refine Touch.step (regWrite_touch ..) rfl ?_
            exact Touch.refl _ _
          · rename_i x19 h20
            refine TouchOO.some' ?_
            refine TouchO.some' ?_
            exact Touch.refl _ _
        · exact TouchOO.none' _ _

theorem sieveWord_touch {die : Nat} {o : Nat} {s : State} : TouchP 268435456 s (sieveWord die o s) := by
  unfold sieveWord
  extract_lets -merge +onlyGivenNames x0
  clear_value x0
  refine TouchP.ite ?_ ?_
  · refine TouchP.step (draw_touch ..) rfl ?_
    exact Touch.refl _ _
  · extract_lets -merge +onlyGivenNames x1
    clear_value x1
    split
    · rename_i x2 x3 h4
      refine TouchP.mk' ?_
      exact Touch.refl _ _
    · rename_i x5 h6
      refine TouchP.mk' ?_
      exact Touch.refl _ _

theorem spillWord_touch {die : Nat} {o : Nat} {s : State} : TouchP 268435456 s (spillWord die o s) := by
  unfold spillWord
  extract_lets -merge +onlyGivenNames x0
  clear_value x0
  extract_lets -merge +onlyGivenNames x1
  clear_value x1
  extract_lets -merge +onlyGivenNames x2
  clear_value x2
  refine TouchP.ite ?_ ?_
  · refine TouchP.mk' ?_
    exact Touch.refl _ _
  · refine TouchP.ite ?_ ?_
    · refine TouchP.step (draw_touch ..) rfl ?_
      exact Touch.refl _ _
    · split
      · rename_i x3 x4 h5
        refine TouchP.mk' ?_
        exact Touch.refl _ _
      · rename_i x6 h7
        refine TouchP.mk' ?_
        exact Touch.refl _ _

theorem debugRead_touch {a : Agent} {off : Nat} {s : State} : TouchP 8858370050 s (debugRead a off s) := by
  unfold debugRead
  refine TouchP.ite ?_ ?_
  · refine TouchP.mk' ?_
    refine Touch.step (bump_touch ..) rfl ?_
    exact Touch.refl _ _
  · split
    · rename_i x0 x1 x2 h3
      refine TouchP.step (regRead_touch ..) rfl ?_
      exact Touch.refl _ _
    · rename_i x4 h5
      refine TouchP.mk' ?_
      exact Touch.refl _ _
    · rename_i x6 h7
      refine TouchP.ite ?_ ?_
      · extract_lets -merge +onlyGivenNames x8
        clear_value x8
        split
        · rename_i x9 x10 h11
          refine TouchP.mk' ?_
          exact Touch.refl _ _
        · rename_i x12 h13
          refine TouchP.mk' ?_
          exact Touch.refl _ _
      · refine TouchP.ite ?_ ?_
        · refine TouchP.mk' ?_
          exact Touch.refl _ _
        · refine TouchP.ite ?_ ?_
          · split
            · rename_i x14 x15 h16
              refine TouchP.mk' ?_
              exact Touch.refl _ _
            · rename_i x17 h18
              refine TouchP.mk' ?_
              exact Touch.refl _ _
          · refine TouchP.ite ?_ ?_
            · refine TouchP.step (sieveWord_touch ..) rfl ?_
              exact Touch.refl _ _
            · refine TouchP.ite ?_ ?_
              · refine TouchP.step (spillWord_touch ..) rfl ?_
                exact Touch.refl _ _
              · refine TouchP.ite ?_ ?_
                · refine TouchP.mk' ?_
                  exact Touch.refl _ _
                · refine TouchP.mk' ?_
                  exact Touch.refl _ _

theorem trigNow_touch {die : Nat} {s : State} : Touch 5992156713056701964635107814136760380589323426209856 s (trigNow die s) := by
  unfold trigNow
  refine Touch.step (sieveTrigger_touch ..) rfl ?_
  exact Touch.refl _ _

theorem debugWrite_touch {a : Agent} {off : Nat} {v : Nat} {s : State} : Touch 24519928653854221733733552434404946937899825951146504952 s (debugWrite a off v s) := by
  unfold debugWrite
  refine Touch.ite ?_ ?_
  · refine Touch.step (bump_touch ..) rfl ?_
    exact Touch.refl _ _
  · refine Touch.ite ?_ ?_
    · refine Touch.ite ?_ ?_
      · refine Touch.step (freezeStart_touch ..) rfl ?_
        exact Touch.refl _ _
      · refine Touch.ite ?_ ?_
        · refine Touch.step (freezeEnd_touch ..) rfl ?_
          exact Touch.refl _ _
        · exact Touch.refl _ _
    · split
      · rename_i x0 x1 x2 h3
        refine Touch.step (regWrite_touch ..) rfl ?_
        exact Touch.refl _ _
      · rename_i x4 h5
        refine Touch.step (trigNow_touch ..) rfl ?_
        exact Touch.refl _ _
      · rename_i x6 h7
        refine Touch.ite ?_ ?_
        · refine Touch.step (bump_touch ..) rfl ?_
          exact Touch.refl _ _
        · refine Touch.ite ?_ ?_
          · split
            · rename_i x8 x9 h10
              have h11 : Touch 24519928653854221733733552434404946937899825951146504952 s x9 := by
                refine TouchOO.eq ?_ h10
                refine TouchOO.step (tnsWrite_touch) rfl ?_
                exact Touch.refl _ _
              exact h11
            · rename_i x12 h13
              refine Touch.step (ignored_touch ..) rfl ?_
              exact Touch.refl _ _
            · rename_i x14 h15
              exact Touch.refl _ _
          · exact Touch.refl _ _

theorem execDebugUdpRequest_touch {op : DebugOp} {offset : Nat} {v : Word} {s : State} : TouchOut 24519928653854221733733552434404946937899825951146504954 s (execDebugUdpRequest op offset v s) := by
  unfold execDebugUdpRequest
  refine TouchOut.step (whenMain_touch rfl (fun x0 => ?_)) (Within.refl _) ?_
  · split
    · rename_i x1
      split
      · rename_i x2 x3 x4 h5
        have h6 : Touch 24519928653854221733733552434404946937899825951146504954 x0 x4 := by
          refine TouchP.eq ?_ h5
          refine TouchP.step (debugRead_touch ..) rfl ?_
          exact Touch.refl _ _
        refine Touch.step (emit_touch ..) rfl ?_
        exact h6
    · rename_i x7
      refine Touch.step (emit_touch ..) rfl ?_
      refine Touch.step (debugWrite_touch ..) rfl ?_
      exact Touch.refl _ _
    · rename_i x8
      refine Touch.step (emit_touch ..) rfl ?_
      exact Touch.refl _ _
  · exact Touch.refl _ _

theorem execStrataRecordWrite_touch {s : State} : TouchOut 32 s (execStrataRecordWrite s) := by
  unfold execStrataRecordWrite
  refine TouchOut.step (whenMain_touch rfl (fun x0 => ?_)) (Within.refl _) ?_
  · refine Touch.step (strataWrite_touch ..) rfl ?_
    exact Touch.refl _ _
  · exact Touch.refl _ _

theorem execStrataLossRecord_touch {s : State} : TouchOut 1056 s (execStrataLossRecord s) := by
  unfold execStrataLossRecord
  refine TouchOut.step (whenMain_touch rfl (fun x0 => ?_)) (Within.refl _) ?_
  · refine Touch.ite ?_ ?_
    · exact Touch.refl _ _
    · refine Touch.step (strataLoss_touch ..) rfl ?_
      refine Touch.ite ?_ ?_
      · exact Touch.refl _ _
      · refine Touch.step (modPwr_touch rfl) rfl ?_
        exact Touch.refl _ _
  · exact Touch.refl _ _

theorem execTimeMark_touch {s : State} : TouchOut 5992156713056701964635107814136760380589323426209888 s (execTimeMark s) := by
  unfold execTimeMark
  refine TouchOut.step (whenMain_touch rfl (fun x0 => ?_)) (Within.refl _) ?_
  · refine Touch.step (timeMark_touch ..) rfl ?_
    exact Touch.refl _ _
  · exact Touch.refl _ _

theorem execSivTrigNow_touch {die : Nat} {a1 : Word} {s : State} : TouchOut 5992156713056701964635107814136760380589323426209856 s (execSivTrigNow die a1 s) := by
  unfold execSivTrigNow
  refine TouchOut.ite ?_ ?_
  · exact TouchOut.fault _ _ _
  · refine TouchOut.step (whenMain_touch rfl (fun x0 => ?_)) (Within.refl _) ?_
    · refine Touch.step (trigNow_touch ..) rfl ?_
      exact Touch.refl _ _
    · exact Touch.refl _ _

theorem execCrossTrigger_touch {die : Nat} {a1 : Nat} {s : State} : TouchOut 5992156713056701964635107814136760380589323426209856 s (execCrossTrigger die a1 s) := by
  unfold execCrossTrigger
  refine TouchOut.ite ?_ ?_
  · exact TouchOut.fault _ _ _
  · refine TouchOut.step (whenOn_touch rfl (fun x0 => ?_)) (Within.refl _) ?_
    · refine Touch.ite ?_ ?_
      · exact Touch.refl _ _
      · refine Touch.step (sieveTrigger_touch ..) rfl ?_
        exact Touch.refl _ _
    · exact Touch.refl _ _

theorem execEicComplete_touch {cluster : Nat} {v : Word} {s : State} : TouchOut 17126972312471518572699431633393941636592959488 s (execEicComplete cluster v s) := by
  unfold execEicComplete
  refine TouchOut.ite ?_ ?_
  · exact TouchOut.fault _ _ _
  · refine TouchOut.step (whenOn_touch rfl (fun x0 => ?_)) (Within.refl _) ?_
    · refine Touch.step (eicComplete_touch ..) rfl ?_
      exact Touch.refl _ _
    · exact Touch.refl _ _

theorem execEicSwi_touch {cluster : Nat} {v : Word} {s : State} : TouchOut 2854495385411919762116571938898990272765493760 s (execEicSwi cluster v s) := by
  unfold execEicSwi
  refine TouchOut.ite ?_ ?_
  · exact TouchOut.fault _ _ _
  · refine TouchOut.step (whenOn_touch rfl (fun x0 => ?_)) (Within.refl _) ?_
    · refine Touch.step (eicSwi_touch ..) rfl ?_
      exact Touch.refl _ _
    · exact Touch.refl _ _

theorem execEicModerationExpiry_touch {cluster : Nat} {source : Nat} {s : State} : TouchOut 512 s (execEicModerationExpiry cluster source s) := by
  unfold execEicModerationExpiry
  refine TouchOut.ite ?_ ?_
  · exact TouchOut.fault _ _ _
  · refine TouchOut.step (whenOn_touch rfl (fun x0 => ?_)) (Within.refl _) ?_
    · refine Touch.step (t := x0) (Touch.upd (F := 512) rfl (Or.inr rfl)) rfl ?_
      exact Touch.refl _ _
    · exact Touch.refl _ _

theorem execIrqModerationInterval_touch {owner : Caller} {entry : Nat} {s : State} : TouchOut 134218240 s (execIrqModerationInterval owner entry s) := by
  unfold execIrqModerationInterval
  refine TouchOut.step (whenOn_touch rfl (fun x0 => ?_)) (Within.refl _) ?_
  · extract_lets -merge +onlyGivenNames x1
    clear_value x1
    refine Touch.ite ?_ ?_
    · exact Touch.refl _ _
    · refine Touch.step (irqSend_touch ..) rfl ?_
      exact Touch.refl _ _
  · exact Touch.refl _ _

end Sys2Proof.Machine
end

