-- ==== Sys2Proof/Laws/TouchCore.lean ====
section
/-! SUPPORT. What each function of the model may touch (Laws/Touch.lean): the Tilth-32 cores and the tick. One lemma for each function; the footprint is the union of what its body writes. -/

namespace Sys2Proof.Machine

open Sys2Proof

theorem tnsLoad_touch {id : Nat} {off : Nat} {s : State} : TouchP 2 s (tnsLoad id off s) := by
  unfold tnsLoad
  refine TouchP.ite ?_ ?_
  · split
    · rename_i x0 x1 x2 h3
      refine TouchP.step (regRead_touch ..) rfl ?_
      exact Touch.refl _ _
    · rename_i x4 h5
      refine TouchP.mk' ?_
      exact Touch.refl _ _
  · split
    · rename_i x6 x7 x8 h9
      refine TouchP.ite ?_ ?_
      · refine TouchP.step (regRead_touch ..) rfl ?_
        exact Touch.refl _ _
      · refine TouchP.ite ?_ ?_
        · refine TouchP.step (regRead_touch ..) rfl ?_
          exact Touch.refl _ _
        · refine TouchP.mk' ?_
          exact Touch.refl _ _
    · rename_i x10 h11
      refine TouchP.mk' ?_
      exact Touch.refl _ _

theorem loadValue_touch {id : Nat} {r : Reached} {size : Nat} {s : State} : TouchP 8589934594 s (loadValue id r size s) := by
  unfold loadValue
  split
  · rename_i x0 x1
    refine TouchP.mk' ?_
    exact Touch.refl _ _
  · rename_i x2 x3
    refine TouchP.ite ?_ ?_
    · refine TouchP.mk' ?_
      exact Touch.refl _ _
    · refine TouchP.mk' ?_
      refine Touch.step (bump_touch ..) rfl ?_
      exact Touch.refl _ _
  · rename_i x4 x5
    refine TouchP.ite ?_ ?_
    · refine TouchP.step (tnsLoad_touch ..) rfl ?_
      exact Touch.refl _ _
    · refine TouchP.mk' ?_
      refine Touch.step (bump_touch ..) rfl ?_
      exact Touch.refl _ _
  · rename_i x6 x7
    refine TouchP.mk' ?_
    exact Touch.refl _ _

theorem storeValue_touch {id : Nat} {r : Reached} {size : Nat} {v : Word} {s : State} : Touch 24519928653854221733733552434404946937899825951112950520 s (storeValue id r size v s) := by
  unfold storeValue
  split
  · rename_i x0 x1
    refine Touch.step (memStore_touch ..) rfl ?_
    exact Touch.refl _ _
  · rename_i x2 x3
    refine Touch.ite ?_ ?_
    · refine TouchO.getD ?_ ?_
      · refine TouchO.step (localWrite_touch) rfl ?_
        exact Touch.refl _ _
      · exact Touch.refl _ _
    · refine Touch.step (bump_touch ..) rfl ?_
      exact Touch.refl _ _
  · rename_i x4 x5
    refine Touch.ite ?_ ?_
    · split
      · rename_i x6 x7 h8
        have h9 : Touch 24519928653854221733733552434404946937899825951112950520 s x7 := by
          refine TouchOO.eq ?_ h8
          refine TouchOO.step (tnsWrite_touch) rfl ?_
          exact Touch.refl _ _
        exact h9
      · rename_i x10 h11
        refine Touch.step (ignored_touch ..) rfl ?_
        exact Touch.refl _ _
      · rename_i x12 h13
        exact Touch.refl _ _
    · refine Touch.step (bump_touch ..) rfl ?_
      exact Touch.refl _ _
  · rename_i x14 x15
    extract_lets -merge +onlyGivenNames x16
    have h17 : Touch 24519928653854221733733552434404946937899825951112950520 s x16 := by
      unfold x16
      refine Touch.step (store_touch ..) rfl ?_
      exact Touch.refl _ _
    clear_value x16
    refine Touch.step (modCore_touch ..) rfl ?_
    exact h17

theorem raise_touch {id : Nat} {e : Exc} {s : State} : Touch 24519928653854221733733552434404946937899825950911750752 s (raise id e s) := by
  unfold raise
  extract_lets -merge +onlyGivenNames x0
  have h1 : Touch 24519928653854221733733552434404946937899825950911750752 s x0 := by
    unfold x0
    split
    · rename_i x2 x3 h4
      refine Touch.step (eccReport_touch ..) rfl ?_
      exact Touch.refl _ _
    · rename_i x5 h6
      exact Touch.refl _ _
  clear_value x0
  split
  · rename_i x7 x8 x9 h10
    have h11 : Touch 24519928653854221733733552434404946937899825950911750752 s x9 := by
      refine TouchP.eq ?_ h10
      split
      · rename_i x12 x13 h14
        refine TouchP.mk' ?_
        exact h1
      · rename_i x15 h16
        refine TouchP.step (draw_touch ..) rfl ?_
        exact h1
    refine Touch.step (excEnter_touch ..) rfl ?_
    exact h11

theorem retired1_touch {id : Nat} {s : State} : Touch 23945242826029513411849172299223580994042798784135232 s (retired1 id s) := by
  unfold retired1
  extract_lets -merge +onlyGivenNames x0
  have h1 : Touch 23945242826029513411849172299223580994042798784135232 s x0 := by
    unfold x0
    refine Touch.step (modCore_touch ..) rfl ?_
    exact Touch.refl _ _
  clear_value x0
  refine Touch.ite ?_ ?_
  · refine Touch.step (pmcAdd_touch ..) rfl ?_
    exact h1
  · exact h1

theorem commit_touch {id : Nat} {e : Eff} {s : State} : Touch 24519928653854221733733552434404946937899825951113474810 s (commit id e s) := by
  unfold commit
  extract_lets -merge +onlyGivenNames x0
  clear_value x0
  extract_lets -merge +onlyGivenNames x1
  clear_value x1
  extract_lets -merge +onlyGivenNames x2
  clear_value x2
  split
  · rename_i x3 h4
    refine Touch.step (retired1_touch ..) rfl ?_
    refine Touch.step (setCore_touch ..) rfl ?_
    exact Touch.refl _ _
  · rename_i x5 x6 h7
    split
    · rename_i x8 x9 h10
      exact Touch.refl _ _
    · rename_i x11 x12 h13
      refine Touch.ite ?_ ?_
      · extract_lets -merge +onlyGivenNames x14
        have h15 : Touch 24519928653854221733733552434404946937899825951113474810 s x14 := by
          unfold x14
          refine Touch.step (setCore_touch ..) rfl ?_
          exact Touch.refl _ _
        clear_value x14
        refine Touch.step (storeValue_touch ..) rfl ?_
        refine Touch.step (retired1_touch ..) rfl ?_
        exact h15
      · extract_lets -merge +onlyGivenNames x16
        clear_value x16
        split
        · rename_i x17 x18 x19
          extract_lets -merge +onlyGivenNames x20
          clear_value x20
          split
          · rename_i x21 x22 x23 h24
            have h25 : Touch 24519928653854221733733552434404946937899825951113474810 s x23 := by
              refine TouchOP.eq ?_ h24
              refine TouchOP.step (issueRead_touch) rfl ?_
              exact Touch.refl _ _
            refine Touch.step (modCore_touch ..) rfl ?_
            refine Touch.ite ?_ ?_
            · refine Touch.step (pmcAdd_touch ..) rfl ?_
              exact h25
            · exact h25
          · rename_i x26 h27
            exact Touch.refl _ _
        · rename_i x28
          split
          · rename_i x29 x30 x31 h32
            have h33 : Touch 24519928653854221733733552434404946937899825951113474810 s x31 := by
              refine TouchP.eq ?_ h32
              refine TouchP.step (loadValue_touch ..) rfl ?_
              exact Touch.refl _ _
            extract_lets -merge +onlyGivenNames x34
            clear_value x34
            extract_lets -merge +onlyGivenNames x35
            clear_value x35
            refine Touch.step (retired1_touch ..) rfl ?_
            refine Touch.step (setCore_touch ..) rfl ?_
            exact h33

theorem runWord_touch {id : Nat} {e : Eff} {s : State} : Touch 24519928653854221733733552434404946937899825951113474810 s (runWord id e s) := by
  unfold runWord
  extract_lets -merge +onlyGivenNames x0
  clear_value x0
  split
  · rename_i x1 x2 h3
    refine Touch.step (raise_touch ..) rfl ?_
    split
    · rename_i x4 x5 h6
      refine Touch.ite ?_ ?_
      · show TouchP _ _ _
        refine TouchP.step (draw_touch ..) rfl ?_
        exact Touch.refl _ _
      · exact Touch.refl _ _
    · rename_i x7 h8
      exact Touch.refl _ _
  · rename_i x9 h10
    refine Touch.step (commit_touch ..) rfl ?_
    exact Touch.refl _ _

theorem whenCore_touch {id : Nat} {s : State} {f : State → State} {F : Nat} (hF : Within 0 F) (hf : ∀ (y0 : State), Touch F y0 (f y0)) : TouchOut F s (whenCore id s f) := by
  unfold whenCore
  refine TouchOut.ite ?_ ?_
  · exact TouchOut.fault _ _ _
  · refine TouchOut.ite ?_ ?_
    · refine TouchOut.step (whenArray_touch (.trans rfl hF) (fun x0 => ?_)) (Within.refl _) ?_
      · refine Touch.step (hf ..) (Within.refl _) ?_
        exact Touch.refl _ _
      · exact Touch.refl _ _
    · refine TouchOut.step (whenOn_touch (.trans rfl hF) (fun x1 => ?_)) (Within.refl _) ?_
      · refine Touch.step (hf ..) (Within.refl _) ?_
        exact Touch.refl _ _
      · exact Touch.refl _ _

theorem atWord_touch {id : Nat} {s : State} {f : State → State} {F : Nat} (hF : Within 24519928653854221733733552434404946937899825950911750752 F) (hf : ∀ (y0 : State), Touch F y0 (f y0)) : TouchOut F s (atWord id s f) := by
  unfold atWord
  refine TouchOut.step (whenCore_touch (.trans rfl hF) (fun x0 => ?_)) (Within.refl _) ?_
  · refine Touch.ite ?_ ?_
    · exact Touch.refl _ _
    · split
      · rename_i x1 x2 h3
        refine Touch.step (raise_touch ..) (.trans rfl hF) ?_
        exact Touch.refl _ _
      · rename_i x4 h5
        refine Touch.step (hf ..) (Within.refl _) ?_
        exact Touch.refl _ _
  · exact Touch.refl _ _

theorem execEff_touch {id : Nat} {s : State} {f : State → Core → Eff} : TouchOut 24519928653854221733733552434404946937899825951113474810 s (execEff id s f) := by
  unfold execEff
  refine TouchOut.step (atWord_touch rfl (fun x0 => ?_)) (Within.refl _) ?_
  · refine Touch.step (runWord_touch ..) rfl ?_
    exact Touch.refl _ _
  · exact Touch.refl _ _

theorem opImm_touch {c : Nat} {rd : BitVec 5} {rs1 : BitVec 5} {imm : BitVec 15} {f : Word → Word → Word} {signed : Bool} {s : State} : TouchOut 24519928653854221733733552434404946937899825951113474810 s (opImm c rd rs1 imm f signed s) := by
  unfold opImm
  refine TouchOut.step (execEff_touch) rfl ?_
  exact Touch.refl _ _

theorem execAddi_touch {c : Nat} {rd : BitVec 5} {rs1 : BitVec 5} {imm : BitVec 15} {s : State} : TouchOut 24519928653854221733733552434404946937899825951113474810 s (execAddi c rd rs1 imm s) := by
  unfold execAddi
  refine TouchOut.step (opImm_touch) rfl ?_
  exact Touch.refl _ _

theorem execAndi_touch {c : Nat} {rd : BitVec 5} {rs1 : BitVec 5} {imm : BitVec 15} {s : State} : TouchOut 24519928653854221733733552434404946937899825951113474810 s (execAndi c rd rs1 imm s) := by
  unfold execAndi
  refine TouchOut.step (opImm_touch) rfl ?_
  exact Touch.refl _ _

theorem execOri_touch {c : Nat} {rd : BitVec 5} {rs1 : BitVec 5} {imm : BitVec 15} {s : State} : TouchOut 24519928653854221733733552434404946937899825951113474810 s (execOri c rd rs1 imm s) := by
  unfold execOri
  refine TouchOut.step (opImm_touch) rfl ?_
  exact Touch.refl _ _

theorem execXori_touch {c : Nat} {rd : BitVec 5} {rs1 : BitVec 5} {imm : BitVec 15} {s : State} : TouchOut 24519928653854221733733552434404946937899825951113474810 s (execXori c rd rs1 imm s) := by
  unfold execXori
  refine TouchOut.step (opImm_touch) rfl ?_
  exact Touch.refl _ _

theorem execSlti_touch {c : Nat} {rd : BitVec 5} {rs1 : BitVec 5} {imm : BitVec 15} {s : State} : TouchOut 24519928653854221733733552434404946937899825951113474810 s (execSlti c rd rs1 imm s) := by
  unfold execSlti
  refine TouchOut.step (opImm_touch) rfl ?_
  exact Touch.refl _ _

theorem execSltiu_touch {c : Nat} {rd : BitVec 5} {rs1 : BitVec 5} {imm : BitVec 15} {s : State} : TouchOut 24519928653854221733733552434404946937899825951113474810 s (execSltiu c rd rs1 imm s) := by
  unfold execSltiu
  refine TouchOut.step (opImm_touch) rfl ?_
  exact Touch.refl _ _

theorem shiftImm_touch {kind : Nat} {c : Nat} {rd : BitVec 5} {rs1 : BitVec 5} {zero : BitVec 8} {sh : BitVec 5} {f : Word → Nat → Word} {s : State} : TouchOut 24519928653854221733733552434404946937899825951113474810 s (shiftImm kind c rd rs1 zero sh f s) := by
  unfold shiftImm
  refine TouchOut.step (execEff_touch) rfl ?_
  exact Touch.refl _ _

theorem execSlli_touch {c : Nat} {rd : BitVec 5} {rs1 : BitVec 5} {zero : BitVec 8} {sh : BitVec 5} {s : State} : TouchOut 24519928653854221733733552434404946937899825951113474810 s (execSlli c rd rs1 zero sh s) := by
  unfold execSlli
  refine TouchOut.step (shiftImm_touch) rfl ?_
  exact Touch.refl _ _

theorem execSrli_touch {c : Nat} {rd : BitVec 5} {rs1 : BitVec 5} {zero : BitVec 8} {sh : BitVec 5} {s : State} : TouchOut 24519928653854221733733552434404946937899825951113474810 s (execSrli c rd rs1 zero sh s) := by
  unfold execSrli
  refine TouchOut.step (shiftImm_touch) rfl ?_
  exact Touch.refl _ _

theorem execSrai_touch {c : Nat} {rd : BitVec 5} {rs1 : BitVec 5} {zero : BitVec 8} {sh : BitVec 5} {s : State} : TouchOut 24519928653854221733733552434404946937899825951113474810 s (execSrai c rd rs1 zero sh s) := by
  unfold execSrai
  refine TouchOut.step (shiftImm_touch) rfl ?_
  exact Touch.refl _ _

theorem execLui_touch {c : Nat} {rd : BitVec 5} {imm : BitVec 20} {s : State} : TouchOut 24519928653854221733733552434404946937899825951113474810 s (execLui c rd imm s) := by
  unfold execLui
  refine TouchOut.step (execEff_touch) rfl ?_
  exact Touch.refl _ _

theorem execAuipc_touch {c : Nat} {rd : BitVec 5} {imm : BitVec 20} {s : State} : TouchOut 24519928653854221733733552434404946937899825951113474810 s (execAuipc c rd imm s) := by
  unfold execAuipc
  refine TouchOut.step (execEff_touch) rfl ?_
  exact Touch.refl _ _

theorem opReg_touch {c : Nat} {rd : BitVec 5} {rs1 : BitVec 5} {rs2 : BitVec 5} {f : Word → Word → Word} {s : State} : TouchOut 24519928653854221733733552434404946937899825951113474810 s (opReg c rd rs1 rs2 f s) := by
  unfold opReg
  refine TouchOut.step (execEff_touch) rfl ?_
  exact Touch.refl _ _

theorem execAdd_touch {c : Nat} {rd : BitVec 5} {rs1 : BitVec 5} {rs2 : BitVec 5} {s : State} : TouchOut 24519928653854221733733552434404946937899825951113474810 s (execAdd c rd rs1 rs2 s) := by
  unfold execAdd
  refine TouchOut.step (opReg_touch) rfl ?_
  exact Touch.refl _ _

theorem execSub_touch {c : Nat} {rd : BitVec 5} {rs1 : BitVec 5} {rs2 : BitVec 5} {s : State} : TouchOut 24519928653854221733733552434404946937899825951113474810 s (execSub c rd rs1 rs2 s) := by
  unfold execSub
  refine TouchOut.step (opReg_touch) rfl ?_
  exact Touch.refl _ _

theorem execAnd_touch {c : Nat} {rd : BitVec 5} {rs1 : BitVec 5} {rs2 : BitVec 5} {s : State} : TouchOut 24519928653854221733733552434404946937899825951113474810 s (execAnd c rd rs1 rs2 s) := by
  unfold execAnd
  refine TouchOut.step (opReg_touch) rfl ?_
  exact Touch.refl _ _

theorem execOr_touch {c : Nat} {rd : BitVec 5} {rs1 : BitVec 5} {rs2 : BitVec 5} {s : State} : TouchOut 24519928653854221733733552434404946937899825951113474810 s (execOr c rd rs1 rs2 s) := by
  unfold execOr
  refine TouchOut.step (opReg_touch) rfl ?_
  exact Touch.refl _ _

theorem execXor_touch {c : Nat} {rd : BitVec 5} {rs1 : BitVec 5} {rs2 : BitVec 5} {s : State} : TouchOut 24519928653854221733733552434404946937899825951113474810 s (execXor c rd rs1 rs2 s) := by
  unfold execXor
  refine TouchOut.step (opReg_touch) rfl ?_
  exact Touch.refl _ _

theorem execSll_touch {c : Nat} {rd : BitVec 5} {rs1 : BitVec 5} {rs2 : BitVec 5} {s : State} : TouchOut 24519928653854221733733552434404946937899825951113474810 s (execSll c rd rs1 rs2 s) := by
  unfold execSll
  refine TouchOut.step (opReg_touch) rfl ?_
  exact Touch.refl _ _

theorem execSrl_touch {c : Nat} {rd : BitVec 5} {rs1 : BitVec 5} {rs2 : BitVec 5} {s : State} : TouchOut 24519928653854221733733552434404946937899825951113474810 s (execSrl c rd rs1 rs2 s) := by
  unfold execSrl
  refine TouchOut.step (opReg_touch) rfl ?_
  exact Touch.refl _ _

theorem execSra_touch {c : Nat} {rd : BitVec 5} {rs1 : BitVec 5} {rs2 : BitVec 5} {s : State} : TouchOut 24519928653854221733733552434404946937899825951113474810 s (execSra c rd rs1 rs2 s) := by
  unfold execSra
  refine TouchOut.step (opReg_touch) rfl ?_
  exact Touch.refl _ _

theorem execSlt_touch {c : Nat} {rd : BitVec 5} {rs1 : BitVec 5} {rs2 : BitVec 5} {s : State} : TouchOut 24519928653854221733733552434404946937899825951113474810 s (execSlt c rd rs1 rs2 s) := by
  unfold execSlt
  refine TouchOut.step (opReg_touch) rfl ?_
  exact Touch.refl _ _

theorem execSltu_touch {c : Nat} {rd : BitVec 5} {rs1 : BitVec 5} {rs2 : BitVec 5} {s : State} : TouchOut 24519928653854221733733552434404946937899825951113474810 s (execSltu c rd rs1 rs2 s) := by
  unfold execSltu
  refine TouchOut.step (opReg_touch) rfl ?_
  exact Touch.refl _ _

theorem execMin_touch {c : Nat} {rd : BitVec 5} {rs1 : BitVec 5} {rs2 : BitVec 5} {s : State} : TouchOut 24519928653854221733733552434404946937899825951113474810 s (execMin c rd rs1 rs2 s) := by
  unfold execMin
  refine TouchOut.step (opReg_touch) rfl ?_
  exact Touch.refl _ _

theorem execMax_touch {c : Nat} {rd : BitVec 5} {rs1 : BitVec 5} {rs2 : BitVec 5} {s : State} : TouchOut 24519928653854221733733552434404946937899825951113474810 s (execMax c rd rs1 rs2 s) := by
  unfold execMax
  refine TouchOut.step (opReg_touch) rfl ?_
  exact Touch.refl _ _

theorem execMinu_touch {c : Nat} {rd : BitVec 5} {rs1 : BitVec 5} {rs2 : BitVec 5} {s : State} : TouchOut 24519928653854221733733552434404946937899825951113474810 s (execMinu c rd rs1 rs2 s) := by
  unfold execMinu
  refine TouchOut.step (opReg_touch) rfl ?_
  exact Touch.refl _ _

theorem execMaxu_touch {c : Nat} {rd : BitVec 5} {rs1 : BitVec 5} {rs2 : BitVec 5} {s : State} : TouchOut 24519928653854221733733552434404946937899825951113474810 s (execMaxu c rd rs1 rs2 s) := by
  unfold execMaxu
  refine TouchOut.step (opReg_touch) rfl ?_
  exact Touch.refl _ _

theorem execMul_touch {c : Nat} {rd : BitVec 5} {rs1 : BitVec 5} {rs2 : BitVec 5} {s : State} : TouchOut 24519928653854221733733552434404946937899825951113474810 s (execMul c rd rs1 rs2 s) := by
  unfold execMul
  refine TouchOut.step (opReg_touch) rfl ?_
  exact Touch.refl _ _

theorem execMulh_touch {c : Nat} {rd : BitVec 5} {rs1 : BitVec 5} {rs2 : BitVec 5} {s : State} : TouchOut 24519928653854221733733552434404946937899825951113474810 s (execMulh c rd rs1 rs2 s) := by
  unfold execMulh
  refine TouchOut.step (opReg_touch) rfl ?_
  exact Touch.refl _ _

theorem execMulhu_touch {c : Nat} {rd : BitVec 5} {rs1 : BitVec 5} {rs2 : BitVec 5} {s : State} : TouchOut 24519928653854221733733552434404946937899825951113474810 s (execMulhu c rd rs1 rs2 s) := by
  unfold execMulhu
  refine TouchOut.step (opReg_touch) rfl ?_
  exact Touch.refl _ _

theorem execMulhsu_touch {c : Nat} {rd : BitVec 5} {rs1 : BitVec 5} {rs2 : BitVec 5} {s : State} : TouchOut 24519928653854221733733552434404946937899825951113474810 s (execMulhsu c rd rs1 rs2 s) := by
  unfold execMulhsu
  refine TouchOut.step (opReg_touch) rfl ?_
  exact Touch.refl _ _

theorem execDiv_touch {c : Nat} {rd : BitVec 5} {rs1 : BitVec 5} {rs2 : BitVec 5} {s : State} : TouchOut 24519928653854221733733552434404946937899825951113474810 s (execDiv c rd rs1 rs2 s) := by
  unfold execDiv
  refine TouchOut.step (opReg_touch) rfl ?_
  exact Touch.refl _ _

theorem execDivu_touch {c : Nat} {rd : BitVec 5} {rs1 : BitVec 5} {rs2 : BitVec 5} {s : State} : TouchOut 24519928653854221733733552434404946937899825951113474810 s (execDivu c rd rs1 rs2 s) := by
  unfold execDivu
  refine TouchOut.step (opReg_touch) rfl ?_
  exact Touch.refl _ _

theorem execRem_touch {c : Nat} {rd : BitVec 5} {rs1 : BitVec 5} {rs2 : BitVec 5} {s : State} : TouchOut 24519928653854221733733552434404946937899825951113474810 s (execRem c rd rs1 rs2 s) := by
  unfold execRem
  refine TouchOut.step (opReg_touch) rfl ?_
  exact Touch.refl _ _

theorem execRemu_touch {c : Nat} {rd : BitVec 5} {rs1 : BitVec 5} {rs2 : BitVec 5} {s : State} : TouchOut 24519928653854221733733552434404946937899825951113474810 s (execRemu c rd rs1 rs2 s) := by
  unfold execRemu
  refine TouchOut.step (opReg_touch) rfl ?_
  exact Touch.refl _ _

theorem opOne_touch {funct : Nat} {c : Nat} {rd : BitVec 5} {rs1 : BitVec 5} {rs2 : BitVec 5} {f : Word → Word} {s : State} : TouchOut 24519928653854221733733552434404946937899825951113474810 s (opOne funct c rd rs1 rs2 f s) := by
  unfold opOne
  refine TouchOut.step (execEff_touch) rfl ?_
  exact Touch.refl _ _

theorem execClz_touch {c : Nat} {rd : BitVec 5} {rs1 : BitVec 5} {rs2 : BitVec 5} {s : State} : TouchOut 24519928653854221733733552434404946937899825951113474810 s (execClz c rd rs1 rs2 s) := by
  unfold execClz
  refine TouchOut.step (opOne_touch) rfl ?_
  exact Touch.refl _ _

theorem execCtz_touch {c : Nat} {rd : BitVec 5} {rs1 : BitVec 5} {rs2 : BitVec 5} {s : State} : TouchOut 24519928653854221733733552434404946937899825951113474810 s (execCtz c rd rs1 rs2 s) := by
  unfold execCtz
  refine TouchOut.step (opOne_touch) rfl ?_
  exact Touch.refl _ _

theorem execPopc_touch {c : Nat} {rd : BitVec 5} {rs1 : BitVec 5} {rs2 : BitVec 5} {s : State} : TouchOut 24519928653854221733733552434404946937899825951113474810 s (execPopc c rd rs1 rs2 s) := by
  unfold execPopc
  refine TouchOut.step (opOne_touch) rfl ?_
  exact Touch.refl _ _

theorem execBrev_touch {c : Nat} {rd : BitVec 5} {rs1 : BitVec 5} {rs2 : BitVec 5} {s : State} : TouchOut 24519928653854221733733552434404946937899825951113474810 s (execBrev c rd rs1 rs2 s) := by
  unfold execBrev
  refine TouchOut.step (opOne_touch) rfl ?_
  exact Touch.refl _ _

theorem execBswap_touch {c : Nat} {rd : BitVec 5} {rs1 : BitVec 5} {rs2 : BitVec 5} {s : State} : TouchOut 24519928653854221733733552434404946937899825951113474810 s (execBswap c rd rs1 rs2 s) := by
  unfold execBswap
  refine TouchOut.step (opOne_touch) rfl ?_
  exact Touch.refl _ _

theorem execLb_touch {c : Nat} {rd : BitVec 5} {rs1 : BitVec 5} {imm : BitVec 15} {s : State} : TouchOut 24519928653854221733733552434404946937899825951113474810 s (execLb c rd rs1 imm s) := by
  unfold execLb
  refine TouchOut.step (execEff_touch) rfl ?_
  exact Touch.refl _ _

theorem execLbu_touch {c : Nat} {rd : BitVec 5} {rs1 : BitVec 5} {imm : BitVec 15} {s : State} : TouchOut 24519928653854221733733552434404946937899825951113474810 s (execLbu c rd rs1 imm s) := by
  unfold execLbu
  refine TouchOut.step (execEff_touch) rfl ?_
  exact Touch.refl _ _

theorem execLh_touch {c : Nat} {rd : BitVec 5} {rs1 : BitVec 5} {imm : BitVec 15} {s : State} : TouchOut 24519928653854221733733552434404946937899825951113474810 s (execLh c rd rs1 imm s) := by
  unfold execLh
  refine TouchOut.step (execEff_touch) rfl ?_
  exact Touch.refl _ _

theorem execLhu_touch {c : Nat} {rd : BitVec 5} {rs1 : BitVec 5} {imm : BitVec 15} {s : State} : TouchOut 24519928653854221733733552434404946937899825951113474810 s (execLhu c rd rs1 imm s) := by
  unfold execLhu
  refine TouchOut.step (execEff_touch) rfl ?_
  exact Touch.refl _ _

theorem execLw_touch {c : Nat} {rd : BitVec 5} {rs1 : BitVec 5} {imm : BitVec 15} {s : State} : TouchOut 24519928653854221733733552434404946937899825951113474810 s (execLw c rd rs1 imm s) := by
  unfold execLw
  refine TouchOut.step (execEff_touch) rfl ?_
  exact Touch.refl _ _

theorem execSb_touch {c : Nat} {rs2 : BitVec 5} {rs1 : BitVec 5} {imm : BitVec 15} {s : State} : TouchOut 24519928653854221733733552434404946937899825951113474810 s (execSb c rs2 rs1 imm s) := by
  unfold execSb
  refine TouchOut.step (execEff_touch) rfl ?_
  exact Touch.refl _ _

theorem execSh_touch {c : Nat} {rs2 : BitVec 5} {rs1 : BitVec 5} {imm : BitVec 15} {s : State} : TouchOut 24519928653854221733733552434404946937899825951113474810 s (execSh c rs2 rs1 imm s) := by
  unfold execSh
  refine TouchOut.step (execEff_touch) rfl ?_
  exact Touch.refl _ _

theorem execSw_touch {c : Nat} {rs2 : BitVec 5} {rs1 : BitVec 5} {imm : BitVec 15} {s : State} : TouchOut 24519928653854221733733552434404946937899825951113474810 s (execSw c rs2 rs1 imm s) := by
  unfold execSw
  refine TouchOut.step (execEff_touch) rfl ?_
  exact Touch.refl _ _

theorem memx_touch {mode : Nat} {c : Nat} {rd : BitVec 5} {rs1 : BitVec 5} {r2 : BitVec 5} {f : BitVec 8} {inc : Core → ℤ} {s : State} : TouchOut 24519928653854221733733552434404946937899825951113474810 s (memx mode c rd rs1 r2 f inc s) := by
  unfold memx
  extract_lets -merge +onlyGivenNames x0
  clear_value x0
  extract_lets -merge +onlyGivenNames x1
  clear_value x1
  extract_lets -merge +onlyGivenNames x2
  clear_value x2
  extract_lets -merge +onlyGivenNames x3
  clear_value x3
  extract_lets -merge +onlyGivenNames x4
  clear_value x4
  extract_lets -merge +onlyGivenNames x5
  clear_value x5
  refine TouchOut.step (execEff_touch) rfl ?_
  exact Touch.refl _ _

theorem execMemxPostincReg_touch {c : Nat} {rd : BitVec 5} {rs1 : BitVec 5} {rs2 : BitVec 5} {f : BitVec 8} {s : State} : TouchOut 24519928653854221733733552434404946937899825951113474810 s (execMemxPostincReg c rd rs1 rs2 f s) := by
  unfold execMemxPostincReg
  refine TouchOut.step (memx_touch) rfl ?_
  exact Touch.refl _ _

theorem execMemxPostincImm_touch {c : Nat} {rd : BitVec 5} {rs1 : BitVec 5} {imm : BitVec 5} {f : BitVec 8} {s : State} : TouchOut 24519928653854221733733552434404946937899825951113474810 s (execMemxPostincImm c rd rs1 imm f s) := by
  unfold execMemxPostincImm
  refine TouchOut.step (memx_touch) rfl ?_
  exact Touch.refl _ _

theorem execMemxModulo_touch {c : Nat} {rd : BitVec 5} {rs1 : BitVec 5} {rs2 : BitVec 5} {f : BitVec 8} {s : State} : TouchOut 24519928653854221733733552434404946937899825951113474810 s (execMemxModulo c rd rs1 rs2 f s) := by
  unfold execMemxModulo
  refine TouchOut.step (memx_touch) rfl ?_
  exact Touch.refl _ _

theorem execMemxBitrev_touch {c : Nat} {rd : BitVec 5} {rs1 : BitVec 5} {rs2 : BitVec 5} {f : BitVec 8} {s : State} : TouchOut 24519928653854221733733552434404946937899825951113474810 s (execMemxBitrev c rd rs1 rs2 f s) := by
  unfold execMemxBitrev
  refine TouchOut.step (memx_touch) rfl ?_
  exact Touch.refl _ _

theorem branch_touch {c : Nat} {rs1 : BitVec 5} {rs2 : BitVec 5} {off : BitVec 15} {p : Word → Word → Bool} {s : State} : TouchOut 24519928653854221733733552434404946937899825951113474810 s (branch c rs1 rs2 off p s) := by
  unfold branch
  refine TouchOut.step (execEff_touch) rfl ?_
  exact Touch.refl _ _

theorem execBeq_touch {c : Nat} {rs1 : BitVec 5} {rs2 : BitVec 5} {off : BitVec 15} {s : State} : TouchOut 24519928653854221733733552434404946937899825951113474810 s (execBeq c rs1 rs2 off s) := by
  unfold execBeq
  refine TouchOut.step (branch_touch) rfl ?_
  exact Touch.refl _ _

theorem execBne_touch {c : Nat} {rs1 : BitVec 5} {rs2 : BitVec 5} {off : BitVec 15} {s : State} : TouchOut 24519928653854221733733552434404946937899825951113474810 s (execBne c rs1 rs2 off s) := by
  unfold execBne
  refine TouchOut.step (branch_touch) rfl ?_
  exact Touch.refl _ _

theorem execBlt_touch {c : Nat} {rs1 : BitVec 5} {rs2 : BitVec 5} {off : BitVec 15} {s : State} : TouchOut 24519928653854221733733552434404946937899825951113474810 s (execBlt c rs1 rs2 off s) := by
  unfold execBlt
  refine TouchOut.step (branch_touch) rfl ?_
  exact Touch.refl _ _

theorem execBge_touch {c : Nat} {rs1 : BitVec 5} {rs2 : BitVec 5} {off : BitVec 15} {s : State} : TouchOut 24519928653854221733733552434404946937899825951113474810 s (execBge c rs1 rs2 off s) := by
  unfold execBge
  refine TouchOut.step (branch_touch) rfl ?_
  exact Touch.refl _ _

theorem execBltu_touch {c : Nat} {rs1 : BitVec 5} {rs2 : BitVec 5} {off : BitVec 15} {s : State} : TouchOut 24519928653854221733733552434404946937899825951113474810 s (execBltu c rs1 rs2 off s) := by
  unfold execBltu
  refine TouchOut.step (branch_touch) rfl ?_
  exact Touch.refl _ _

theorem execBgeu_touch {c : Nat} {rs1 : BitVec 5} {rs2 : BitVec 5} {off : BitVec 15} {s : State} : TouchOut 24519928653854221733733552434404946937899825951113474810 s (execBgeu c rs1 rs2 off s) := by
  unfold execBgeu
  refine TouchOut.step (branch_touch) rfl ?_
  exact Touch.refl _ _

theorem execJ_touch {c : Nat} {off : BitVec 25} {s : State} : TouchOut 24519928653854221733733552434404946937899825951113474810 s (execJ c off s) := by
  unfold execJ
  refine TouchOut.step (execEff_touch) rfl ?_
  exact Touch.refl _ _

theorem execCall_touch {c : Nat} {off : BitVec 25} {s : State} : TouchOut 24519928653854221733733552434404946937899825951113474810 s (execCall c off s) := by
  unfold execCall
  refine TouchOut.step (execEff_touch) rfl ?_
  exact Touch.refl _ _

theorem jmpr_touch {funct : Nat} {c : Nat} {rd : BitVec 5} {rs1 : BitVec 5} {rs2 : BitVec 5} {f : Core → Eff} {s : State} : TouchOut 24519928653854221733733552434404946937899825951113474810 s (jmpr funct c rd rs1 rs2 f s) := by
  unfold jmpr
  refine TouchOut.step (execEff_touch) rfl ?_
  exact Touch.refl _ _

theorem execJr_touch {c : Nat} {rd : BitVec 5} {rs1 : BitVec 5} {rs2 : BitVec 5} {s : State} : TouchOut 24519928653854221733733552434404946937899825951113474810 s (execJr c rd rs1 rs2 s) := by
  unfold execJr
  refine TouchOut.step (jmpr_touch) rfl ?_
  exact Touch.refl _ _

theorem execCallr_touch {c : Nat} {rd : BitVec 5} {rs1 : BitVec 5} {rs2 : BitVec 5} {s : State} : TouchOut 24519928653854221733733552434404946937899825951113474810 s (execCallr c rd rs1 rs2 s) := by
  unfold execCallr
  refine TouchOut.step (jmpr_touch) rfl ?_
  exact Touch.refl _ _

theorem execRet_touch {c : Nat} {rd : BitVec 5} {rs1 : BitVec 5} {rs2 : BitVec 5} {s : State} : TouchOut 24519928653854221733733552434404946937899825951113474810 s (execRet c rd rs1 rs2 s) := by
  unfold execRet
  refine TouchOut.step (jmpr_touch) rfl ?_
  exact Touch.refl _ _

theorem execEret_touch {c : Nat} {rd : BitVec 5} {rs1 : BitVec 5} {rs2 : BitVec 5} {s : State} : TouchOut 24519928653854221733733552434404946937899825951113474810 s (execEret c rd rs1 rs2 s) := by
  unfold execEret
  refine TouchOut.step (jmpr_touch) rfl ?_
  exact Touch.refl _ _

theorem execRspush_touch {c : Nat} {rs1 : BitVec 5} {s : State} : TouchOut 24519928653854221733733552434404946937899825951113474810 s (execRspush c rs1 s) := by
  unfold execRspush
  refine TouchOut.step (execEff_touch) rfl ?_
  exact Touch.refl _ _

theorem execRspop_touch {c : Nat} {rd : BitVec 5} {s : State} : TouchOut 24519928653854221733733552434404946937899825951113474810 s (execRspop c rd s) := by
  unfold execRspop
  refine TouchOut.step (execEff_touch) rfl ?_
  exact Touch.refl _ _

theorem finishWord_touch {id : Nat} {rd : BitVec 5} {v : Word} {s : State} : Touch 23945242826029513411849172299223580994042798784135232 s (finishWord id rd v s) := by
  unfold finishWord
  refine Touch.step (retired1_touch ..) rfl ?_
  refine Touch.step (modCore_touch ..) rfl ?_
  exact Touch.refl _ _

theorem execLrW_touch {c : Nat} {rd : BitVec 5} {rs1 : BitVec 5} {a3 : BitVec 5} {s : State} : TouchOut 24519928653854221733733552434404946937899825950911750754 s (execLrW c rd rs1 a3 s) := by
  unfold execLrW
  refine TouchOut.step (atWord_touch rfl (fun x0 => ?_)) (Within.refl _) ?_
  · extract_lets -merge +onlyGivenNames x1
    clear_value x1
    split
    · rename_i x2 x3 h4
      refine Touch.step (raise_touch ..) rfl ?_
      exact Touch.refl _ _
    · rename_i x5 x6 h7
      split
      · rename_i x8 x9 h10
        refine Touch.step (raise_touch ..) rfl ?_
        exact Touch.refl _ _
      · rename_i x11 h12
        split
        · rename_i x13 x14 x15 h16
          have h17 : Touch 24519928653854221733733552434404946937899825950911750754 x0 x15 := by
            refine TouchP.eq ?_ h16
            refine TouchP.step (loadValue_touch ..) rfl ?_
            exact Touch.refl _ _
          refine Touch.step (finishWord_touch ..) rfl ?_
          refine Touch.step (modCore_touch ..) rfl ?_
          exact h17
  · exact Touch.refl _ _

theorem execScW_touch {c : Nat} {rd : BitVec 5} {rs1 : BitVec 5} {rs2 : BitVec 5} {s : State} : TouchOut 24519928653854221733733552434404946937899825951113474808 s (execScW c rd rs1 rs2 s) := by
  unfold execScW
  refine TouchOut.step (atWord_touch rfl (fun x0 => ?_)) (Within.refl _) ?_
  · extract_lets -merge +onlyGivenNames x1
    clear_value x1
    extract_lets -merge +onlyGivenNames x2
    clear_value x2
    extract_lets -merge +onlyGivenNames x3
    clear_value x3
    split
    · rename_i x4 x5 h6
      refine Touch.step (raise_touch ..) rfl ?_
      exact Touch.refl _ _
    · rename_i x7 x8 h9
      extract_lets -merge +onlyGivenNames x10
      clear_value x10
      refine Touch.ite ?_ ?_
      · refine Touch.step (finishWord_touch ..) rfl ?_
        refine Touch.step (modCore_touch ..) rfl ?_
        exact Touch.refl _ _
      · split
        · rename_i x11 x12 h13
          refine Touch.step (raise_touch ..) rfl ?_
          exact Touch.refl _ _
        · rename_i x14 h15
          refine Touch.step (finishWord_touch ..) rfl ?_
          refine Touch.step (storeValue_touch ..) rfl ?_
          refine Touch.step (modCore_touch ..) rfl ?_
          exact Touch.refl _ _
  · exact Touch.refl _ _

theorem tasWindow_touch {c : Nat} {rd : BitVec 5} {a : Nat} {arr : Nat} {l : Link} {link : List Word} {s : State} : Touch 24519928653854221733733552434404946937899825951046099560 s (tasWindow c rd a arr l link s) := by
  unfold tasWindow
  extract_lets -merge +onlyGivenNames x0
  clear_value x0
  refine Touch.ite ?_ ?_
  · refine Touch.step (raise_touch ..) rfl ?_
    exact Touch.refl _ _
  · refine Touch.ite ?_ ?_
    · refine Touch.step (raise_touch ..) rfl ?_
      exact Touch.refl _ _
    · split
      · rename_i x1 x2 x3 h4
        have h5 : Touch 24519928653854221733733552434404946937899825951046099560 s x3 := by
          refine TouchP.eq ?_ h4
          split
          · rename_i x6 x7 x8
            have h9 : Touch 24519928653854221733733552434404946937899825951046099560 s x3 := by
              refine TouchP.eq ?_ h4
              split
              · rename_i x10 x11 x12 h13
                refine TouchP.mk' ?_
                exact Touch.refl _ _
              · rename_i x14 h15
                refine TouchP.step (draw_touch ..) rfl ?_
                exact Touch.refl _ _
            refine TouchP.mk' ?_
            exact Touch.refl _ _
          · rename_i x16
            have h17 : Touch 24519928653854221733733552434404946937899825951046099560 s x3 := by
              refine TouchP.eq ?_ h4
              split
              · rename_i x18 x19 x20 h21
                refine TouchP.mk' ?_
                exact Touch.refl _ _
              · rename_i x22 h23
                refine TouchP.step (draw_touch ..) rfl ?_
                exact Touch.refl _ _
            refine TouchP.step (draw_touch ..) rfl ?_
            exact Touch.refl _ _
        split
        · rename_i x24 h25
          refine Touch.step (raise_touch ..) rfl ?_
          exact h5
        · rename_i x26 x27 x28 h29
          refine Touch.step (finishWord_touch ..) rfl ?_
          refine Touch.ite ?_ ?_
          · refine Touch.step (memStore_touch ..) rfl ?_
            exact h5
          · exact h5

theorem execTasB_touch {c : Nat} {rd : BitVec 5} {rs1 : BitVec 5} {a3 : BitVec 5} {link : List Word} {s : State} : TouchOut 24519928653854221733733552434404946937899825951113474810 s (execTasB c rd rs1 a3 link s) := by
  unfold execTasB
  refine TouchOut.step (atWord_touch rfl (fun x0 => ?_)) (Within.refl _) ?_
  · extract_lets -merge +onlyGivenNames x1
    clear_value x1
    split
    · rename_i x2 x3 h4
      refine Touch.step (raise_touch ..) rfl ?_
      exact Touch.refl _ _
    · rename_i x5 x6 h7
      split
      · rename_i x8 x9 x10 h11
        refine Touch.step (tasWindow_touch ..) rfl ?_
        exact Touch.refl _ _
      · rename_i x12 h13
        split
        · rename_i x14 x15 h16
          refine Touch.step (raise_touch ..) rfl ?_
          exact Touch.refl _ _
        · rename_i x17 h18
          split
          · rename_i x19 x20 x21 h22
            have h23 : Touch 24519928653854221733733552434404946937899825951113474810 x0 x21 := by
              refine TouchP.eq ?_ h22
              refine TouchP.step (loadValue_touch ..) rfl ?_
              exact Touch.refl _ _
            refine Touch.step (finishWord_touch ..) rfl ?_
            refine Touch.step (storeValue_touch ..) rfl ?_
            exact h23
  · exact Touch.refl _ _

theorem execReservationTimeout_touch {c : Nat} {s : State} : TouchOut 16384 s (execReservationTimeout c s) := by
  unfold execReservationTimeout
  refine TouchOut.step (whenCore_touch rfl (fun x0 => ?_)) (Within.refl _) ?_
  · refine Touch.step (modCore_touch ..) rfl ?_
    exact Touch.refl _ _
  · exact Touch.refl _ _

theorem execFence_touch {c : Nat} {s : State} : TouchOut 24519928653854221733733552434404946937899825951113474810 s (execFence c s) := by
  unfold execFence
  refine TouchOut.step (execEff_touch) rfl ?_
  exact Touch.refl _ _

theorem execFenceI_touch {c : Nat} {s : State} : TouchOut 24519928653854221733733552434404946937899825951113474810 s (execFenceI c s) := by
  unfold execFenceI
  refine TouchOut.step (execEff_touch) rfl ?_
  exact Touch.refl _ _

theorem execEcall_touch {c : Nat} {s : State} : TouchOut 24519928653854221733733552434404946937899825951113474810 s (execEcall c s) := by
  unfold execEcall
  refine TouchOut.step (execEff_touch) rfl ?_
  exact Touch.refl _ _

theorem execEbreak_touch {c : Nat} {s : State} : TouchOut 24519928653854221733733552434404946937899825951113474810 s (execEbreak c s) := by
  unfold execEbreak
  refine TouchOut.step (execEff_touch) rfl ?_
  exact Touch.refl _ _

theorem waiteReturn_touch {id : Nat} {rd : BitVec 5} {e : Word} {s : State} : Touch 23945242826029513411849172299223580994042798784135232 s (waiteReturn id rd e s) := by
  unfold waiteReturn
  refine Touch.step (finishWord_touch ..) rfl ?_
  refine Touch.step (modCore_touch ..) rfl ?_
  exact Touch.refl _ _

theorem execWaite_touch {c : Nat} {rd : BitVec 5} {rs1 : BitVec 5} {s : State} : TouchOut 24519928653854221733733552434404946937899825950911750752 s (execWaite c rd rs1 s) := by
  unfold execWaite
  refine TouchOut.step (atWord_touch rfl (fun x0 => ?_)) (Within.refl _) ?_
  · extract_lets -merge +onlyGivenNames x1
    clear_value x1
    refine Touch.ite ?_ ?_
    · refine Touch.step (raise_touch ..) rfl ?_
      exact Touch.refl _ _
    · extract_lets -merge +onlyGivenNames x2
      clear_value x2
      refine Touch.ite ?_ ?_
      · refine Touch.step (waiteReturn_touch ..) rfl ?_
        exact Touch.refl _ _
      · refine Touch.step (modCore_touch ..) rfl ?_
        exact Touch.refl _ _
  · exact Touch.refl _ _

theorem execWaiteWake_touch {c : Nat} {s : State} : TouchOut 23945242826029513411849172299223580994042798784135232 s (execWaiteWake c s) := by
  unfold execWaiteWake
  refine TouchOut.step (whenCore_touch rfl (fun x0 => ?_)) (Within.refl _) ?_
  · split
    · rename_i x1 x2 x3 x4 h5
      extract_lets -merge +onlyGivenNames x6
      clear_value x6
      refine Touch.ite ?_ ?_
      · refine Touch.step (waiteReturn_touch ..) rfl ?_
        exact Touch.refl _ _
      · exact Touch.refl _ _
    · rename_i x7 h8
      exact Touch.refl _ _
  · exact Touch.refl _ _

theorem takeInterrupt_touch {id : Nat} {src : Nat} {epc : Word} {s : State} : Touch 9990733848941719167408001786146465954947678720 s (takeInterrupt id src epc s) := by
  unfold takeInterrupt
  extract_lets -merge +onlyGivenNames x0
  clear_value x0
  extract_lets -merge +onlyGivenNames x1
  clear_value x1
  extract_lets -merge +onlyGivenNames x2
  have h3 : Touch 9990733848941719167408001786146465954947678720 s x2 := by
    unfold x2
    refine Touch.step (setEicBit_touch ..) rfl ?_
    refine Touch.step (setEicBit_touch ..) rfl ?_
    exact Touch.refl _ _
  clear_value x2
  extract_lets -merge +onlyGivenNames x4
  have h5 : Touch 9990733848941719167408001786146465954947678720 s x4 := by
    unfold x4
    refine Touch.ite ?_ ?_
    · refine Touch.step (setEicBit_touch ..) rfl ?_
      exact h3
    · exact h3
  clear_value x4
  extract_lets -merge +onlyGivenNames x6
  subst x6
  extract_lets -merge +onlyGivenNames x7
  have h8 : Touch 9990733848941719167408001786146465954947678720 s x7 := by
    unfold x7
    refine Touch.step (t := x4) (Touch.upd (F := 512) rfl (Or.inr rfl)) rfl ?_
    exact h5
  clear_value x7
  split
  · rename_i x9 x10 x11 h12
    have h13 : Touch 9990733848941719167408001786146465954947678720 s x11 := by
      refine TouchP.eq ?_ h12
      refine TouchP.step (draw_touch ..) rfl ?_
      exact h8
    refine Touch.step (modCore_touch ..) rfl ?_
    exact h13

theorem execInterruptTake_touch {c : Nat} {s : State} : TouchOut 23945252816763362353568339707225367140508753731797568 s (execInterruptTake c s) := by
  unfold execInterruptTake
  refine TouchOut.step (whenCore_touch rfl (fun x0 => ?_)) (Within.refl _) ?_
  · extract_lets -merge +onlyGivenNames x1
    clear_value x1
    split
    · rename_i x2 h3
      exact Touch.refl _ _
    · rename_i x4 x5 h6
      refine Touch.ite ?_ ?_
      · exact Touch.refl _ _
      · split
        · rename_i x7 h8
          refine Touch.step (takeInterrupt_touch ..) rfl ?_
          exact Touch.refl _ _
        · rename_i x9 x10 x11 x12 h13
          extract_lets -merge +onlyGivenNames x14
          have h15 : Touch 23945252816763362353568339707225367140508753731797568 x0 x14 := by
            unfold x14
            refine Touch.step (waiteReturn_touch ..) rfl ?_
            exact Touch.refl _ _
          clear_value x14
          refine Touch.step (takeInterrupt_touch ..) rfl ?_
          exact h15
        · rename_i x16 h17 h18
          exact Touch.refl _ _
  · exact Touch.refl _ _

theorem csrOp_touch {op : Nat} {c : Nat} {rd : BitVec 5} {rs1 : BitVec 5} {imm : BitVec 15} {nowrite : Bool} {f : Word → Word → Word} {s : State} : TouchOut 24519928653854221733733552434404946937899825951113474810 s (csrOp op c rd rs1 imm nowrite f s) := by
  unfold csrOp
  refine TouchOut.step (execEff_touch) rfl ?_
  exact Touch.refl _ _

theorem execCsrrw_touch {c : Nat} {rd : BitVec 5} {rs1 : BitVec 5} {imm : BitVec 15} {s : State} : TouchOut 24519928653854221733733552434404946937899825951113474810 s (execCsrrw c rd rs1 imm s) := by
  unfold execCsrrw
  refine TouchOut.step (csrOp_touch) rfl ?_
  exact Touch.refl _ _

theorem execCsrrs_touch {c : Nat} {rd : BitVec 5} {rs1 : BitVec 5} {imm : BitVec 15} {s : State} : TouchOut 24519928653854221733733552434404946937899825951113474810 s (execCsrrs c rd rs1 imm s) := by
  unfold execCsrrs
  refine TouchOut.step (csrOp_touch) rfl ?_
  exact Touch.refl _ _

theorem execCsrrc_touch {c : Nat} {rd : BitVec 5} {rs1 : BitVec 5} {imm : BitVec 15} {s : State} : TouchOut 24519928653854221733733552434404946937899825951113474810 s (execCsrrc c rd rs1 imm s) := by
  unfold execCsrrc
  refine TouchOut.step (csrOp_touch) rfl ?_
  exact Touch.refl _ _

theorem execKernelEndStore_touch {c : Nat} {code : BitVec 16} {s : State} : TouchOut 17179951104 s (execKernelEndStore c code s) := by
  unfold execKernelEndStore
  refine TouchOut.ite ?_ ?_
  · exact TouchOut.fault _ _ _
  · refine TouchOut.step (whenArray_touch rfl (fun x0 => ?_)) (Within.refl _) ?_
    · refine Touch.ite ?_ ?_
      · refine Touch.step (kernelEnd_touch ..) rfl ?_
        exact Touch.refl _ _
      · exact Touch.refl _ _
    · exact Touch.refl _ _

theorem execTidyTraceStore_touch {c : Nat} {v : Word} {s : State} : TouchOut 7488734389683546552875681082838234192716998618652736 s (execTidyTraceStore c v s) := by
  unfold execTidyTraceStore
  refine TouchOut.ite ?_ ?_
  · exact TouchOut.fault _ _ _
  · refine TouchOut.step (whenArray_touch rfl (fun x0 => ?_)) (Within.refl _) ?_
    · refine Touch.ite ?_ ?_
      · refine Touch.step (traceStore_touch ..) rfl ?_
        exact Touch.refl _ _
      · exact Touch.refl _ _
    · exact Touch.refl _ _

theorem execPair_touch {c : Nat} {sl : Slot} {own : ShortOp} {o : ShortOp} {s : State} : TouchOut 24519928653854221733733552434404946937899825951113474810 s (execPair c sl own o s) := by
  unfold execPair
  refine TouchOut.step (execEff_touch) rfl ?_
  exact Touch.refl _ _

theorem execMovS_touch {c : Nat} {sl : Slot} {ra : BitVec 4} {rb : BitVec 4} {o : ShortOp} {s : State} : TouchOut 24519928653854221733733552434404946937899825951113474810 s (execMovS c sl ra rb o s) := by
  unfold execMovS
  refine TouchOut.step (execPair_touch) rfl ?_
  exact Touch.refl _ _

theorem execAddS_touch {c : Nat} {sl : Slot} {ra : BitVec 4} {rb : BitVec 4} {o : ShortOp} {s : State} : TouchOut 24519928653854221733733552434404946937899825951113474810 s (execAddS c sl ra rb o s) := by
  unfold execAddS
  refine TouchOut.step (execPair_touch) rfl ?_
  exact Touch.refl _ _

theorem execSubS_touch {c : Nat} {sl : Slot} {ra : BitVec 4} {rb : BitVec 4} {o : ShortOp} {s : State} : TouchOut 24519928653854221733733552434404946937899825951113474810 s (execSubS c sl ra rb o s) := by
  unfold execSubS
  refine TouchOut.step (execPair_touch) rfl ?_
  exact Touch.refl _ _

theorem execAndS_touch {c : Nat} {sl : Slot} {ra : BitVec 4} {rb : BitVec 4} {o : ShortOp} {s : State} : TouchOut 24519928653854221733733552434404946937899825951113474810 s (execAndS c sl ra rb o s) := by
  unfold execAndS
  refine TouchOut.step (execPair_touch) rfl ?_
  exact Touch.refl _ _

theorem execOrS_touch {c : Nat} {sl : Slot} {ra : BitVec 4} {rb : BitVec 4} {o : ShortOp} {s : State} : TouchOut 24519928653854221733733552434404946937899825951113474810 s (execOrS c sl ra rb o s) := by
  unfold execOrS
  refine TouchOut.step (execPair_touch) rfl ?_
  exact Touch.refl _ _

theorem execXorS_touch {c : Nat} {sl : Slot} {ra : BitVec 4} {rb : BitVec 4} {o : ShortOp} {s : State} : TouchOut 24519928653854221733733552434404946937899825951113474810 s (execXorS c sl ra rb o s) := by
  unfold execXorS
  refine TouchOut.step (execPair_touch) rfl ?_
  exact Touch.refl _ _

theorem execSllS_touch {c : Nat} {sl : Slot} {ra : BitVec 4} {rb : BitVec 4} {o : ShortOp} {s : State} : TouchOut 24519928653854221733733552434404946937899825951113474810 s (execSllS c sl ra rb o s) := by
  unfold execSllS
  refine TouchOut.step (execPair_touch) rfl ?_
  exact Touch.refl _ _

theorem execSrlS_touch {c : Nat} {sl : Slot} {ra : BitVec 4} {rb : BitVec 4} {o : ShortOp} {s : State} : TouchOut 24519928653854221733733552434404946937899825951113474810 s (execSrlS c sl ra rb o s) := by
  unfold execSrlS
  refine TouchOut.step (execPair_touch) rfl ?_
  exact Touch.refl _ _

theorem execSraS_touch {c : Nat} {sl : Slot} {ra : BitVec 4} {rb : BitVec 4} {o : ShortOp} {s : State} : TouchOut 24519928653854221733733552434404946937899825951113474810 s (execSraS c sl ra rb o s) := by
  unfold execSraS
  refine TouchOut.step (execPair_touch) rfl ?_
  exact Touch.refl _ _

theorem execMulS_touch {c : Nat} {sl : Slot} {ra : BitVec 4} {rb : BitVec 4} {o : ShortOp} {s : State} : TouchOut 24519928653854221733733552434404946937899825951113474810 s (execMulS c sl ra rb o s) := by
  unfold execMulS
  refine TouchOut.step (execPair_touch) rfl ?_
  exact Touch.refl _ _

theorem execSltS_touch {c : Nat} {sl : Slot} {ra : BitVec 4} {rb : BitVec 4} {o : ShortOp} {s : State} : TouchOut 24519928653854221733733552434404946937899825951113474810 s (execSltS c sl ra rb o s) := by
  unfold execSltS
  refine TouchOut.step (execPair_touch) rfl ?_
  exact Touch.refl _ _

theorem execSltuS_touch {c : Nat} {sl : Slot} {ra : BitVec 4} {rb : BitVec 4} {o : ShortOp} {s : State} : TouchOut 24519928653854221733733552434404946937899825951113474810 s (execSltuS c sl ra rb o s) := by
  unfold execSltuS
  refine TouchOut.step (execPair_touch) rfl ?_
  exact Touch.refl _ _

theorem execNegS_touch {c : Nat} {sl : Slot} {ra : BitVec 4} {rb : BitVec 4} {o : ShortOp} {s : State} : TouchOut 24519928653854221733733552434404946937899825951113474810 s (execNegS c sl ra rb o s) := by
  unfold execNegS
  refine TouchOut.step (execPair_touch) rfl ?_
  exact Touch.refl _ _

theorem execNotS_touch {c : Nat} {sl : Slot} {ra : BitVec 4} {rb : BitVec 4} {o : ShortOp} {s : State} : TouchOut 24519928653854221733733552434404946937899825951113474810 s (execNotS c sl ra rb o s) := by
  unfold execNotS
  refine TouchOut.step (execPair_touch) rfl ?_
  exact Touch.refl _ _

theorem execMinS_touch {c : Nat} {sl : Slot} {ra : BitVec 4} {rb : BitVec 4} {o : ShortOp} {s : State} : TouchOut 24519928653854221733733552434404946937899825951113474810 s (execMinS c sl ra rb o s) := by
  unfold execMinS
  refine TouchOut.step (execPair_touch) rfl ?_
  exact Touch.refl _ _

theorem execMaxS_touch {c : Nat} {sl : Slot} {ra : BitVec 4} {rb : BitVec 4} {o : ShortOp} {s : State} : TouchOut 24519928653854221733733552434404946937899825951113474810 s (execMaxS c sl ra rb o s) := by
  unfold execMaxS
  refine TouchOut.step (execPair_touch) rfl ?_
  exact Touch.refl _ _

theorem execAddiS_touch {c : Nat} {sl : Slot} {ra : BitVec 4} {imm : BitVec 7} {o : ShortOp} {s : State} : TouchOut 24519928653854221733733552434404946937899825951113474810 s (execAddiS c sl ra imm o s) := by
  unfold execAddiS
  refine TouchOut.step (execPair_touch) rfl ?_
  exact Touch.refl _ _

theorem execLiS_touch {c : Nat} {sl : Slot} {ra : BitVec 4} {imm : BitVec 7} {o : ShortOp} {s : State} : TouchOut 24519928653854221733733552434404946937899825951113474810 s (execLiS c sl ra imm o s) := by
  unfold execLiS
  refine TouchOut.step (execPair_touch) rfl ?_
  exact Touch.refl _ _

theorem execBeqzS_touch {c : Nat} {sl : Slot} {ra : BitVec 4} {imm : BitVec 7} {o : ShortOp} {s : State} : TouchOut 24519928653854221733733552434404946937899825951113474810 s (execBeqzS c sl ra imm o s) := by
  unfold execBeqzS
  refine TouchOut.step (execPair_touch) rfl ?_
  exact Touch.refl _ _

theorem execBnezS_touch {c : Nat} {sl : Slot} {ra : BitVec 4} {imm : BitVec 7} {o : ShortOp} {s : State} : TouchOut 24519928653854221733733552434404946937899825951113474810 s (execBnezS c sl ra imm o s) := by
  unfold execBnezS
  refine TouchOut.step (execPair_touch) rfl ?_
  exact Touch.refl _ _

theorem execSlliS_touch {c : Nat} {sl : Slot} {ra : BitVec 4} {sh : BitVec 5} {o : ShortOp} {s : State} : TouchOut 24519928653854221733733552434404946937899825951113474810 s (execSlliS c sl ra sh o s) := by
  unfold execSlliS
  refine TouchOut.step (execPair_touch) rfl ?_
  exact Touch.refl _ _

theorem execSrliS_touch {c : Nat} {sl : Slot} {ra : BitVec 4} {sh : BitVec 5} {o : ShortOp} {s : State} : TouchOut 24519928653854221733733552434404946937899825951113474810 s (execSrliS c sl ra sh o s) := by
  unfold execSrliS
  refine TouchOut.step (execPair_touch) rfl ?_
  exact Touch.refl _ _

theorem execSraiS_touch {c : Nat} {sl : Slot} {ra : BitVec 4} {sh : BitVec 5} {o : ShortOp} {s : State} : TouchOut 24519928653854221733733552434404946937899825951113474810 s (execSraiS c sl ra sh o s) := by
  unfold execSraiS
  refine TouchOut.step (execPair_touch) rfl ?_
  exact Touch.refl _ _

theorem execLwS_touch {c : Nat} {sl : Slot} {ra : BitVec 4} {rb : BitVec 4} {sub : BitVec 3} {o : ShortOp} {s : State} : TouchOut 24519928653854221733733552434404946937899825951113474810 s (execLwS c sl ra rb sub o s) := by
  unfold execLwS
  refine TouchOut.step (execPair_touch) rfl ?_
  exact Touch.refl _ _

theorem execSwS_touch {c : Nat} {sl : Slot} {ra : BitVec 4} {rb : BitVec 4} {sub : BitVec 3} {o : ShortOp} {s : State} : TouchOut 24519928653854221733733552434404946937899825951113474810 s (execSwS c sl ra rb sub o s) := by
  unfold execSwS
  refine TouchOut.step (execPair_touch) rfl ?_
  exact Touch.refl _ _

theorem execLwpS_touch {c : Nat} {sl : Slot} {ra : BitVec 4} {rb : BitVec 4} {sub : BitVec 3} {o : ShortOp} {s : State} : TouchOut 24519928653854221733733552434404946937899825951113474810 s (execLwpS c sl ra rb sub o s) := by
  unfold execLwpS
  refine TouchOut.step (execPair_touch) rfl ?_
  exact Touch.refl _ _

theorem execSwpS_touch {c : Nat} {sl : Slot} {ra : BitVec 4} {rb : BitVec 4} {sub : BitVec 3} {o : ShortOp} {s : State} : TouchOut 24519928653854221733733552434404946937899825951113474810 s (execSwpS c sl ra rb sub o s) := by
  unfold execSwpS
  refine TouchOut.step (execPair_touch) rfl ?_
  exact Touch.refl _ _

theorem execLbS_touch {c : Nat} {sl : Slot} {ra : BitVec 4} {rb : BitVec 4} {o : ShortOp} {s : State} : TouchOut 24519928653854221733733552434404946937899825951113474810 s (execLbS c sl ra rb o s) := by
  unfold execLbS
  refine TouchOut.step (execPair_touch) rfl ?_
  exact Touch.refl _ _

theorem execLbuS_touch {c : Nat} {sl : Slot} {ra : BitVec 4} {rb : BitVec 4} {o : ShortOp} {s : State} : TouchOut 24519928653854221733733552434404946937899825951113474810 s (execLbuS c sl ra rb o s) := by
  unfold execLbuS
  refine TouchOut.step (execPair_touch) rfl ?_
  exact Touch.refl _ _

theorem execLhS_touch {c : Nat} {sl : Slot} {ra : BitVec 4} {rb : BitVec 4} {o : ShortOp} {s : State} : TouchOut 24519928653854221733733552434404946937899825951113474810 s (execLhS c sl ra rb o s) := by
  unfold execLhS
  refine TouchOut.step (execPair_touch) rfl ?_
  exact Touch.refl _ _

theorem execLhuS_touch {c : Nat} {sl : Slot} {ra : BitVec 4} {rb : BitVec 4} {o : ShortOp} {s : State} : TouchOut 24519928653854221733733552434404946937899825951113474810 s (execLhuS c sl ra rb o s) := by
  unfold execLhuS
  refine TouchOut.step (execPair_touch) rfl ?_
  exact Touch.refl _ _

theorem execSbS_touch {c : Nat} {sl : Slot} {ra : BitVec 4} {rb : BitVec 4} {o : ShortOp} {s : State} : TouchOut 24519928653854221733733552434404946937899825951113474810 s (execSbS c sl ra rb o s) := by
  unfold execSbS
  refine TouchOut.step (execPair_touch) rfl ?_
  exact Touch.refl _ _

theorem execShS_touch {c : Nat} {sl : Slot} {ra : BitVec 4} {rb : BitVec 4} {o : ShortOp} {s : State} : TouchOut 24519928653854221733733552434404946937899825951113474810 s (execShS c sl ra rb o s) := by
  unfold execShS
  refine TouchOut.step (execPair_touch) rfl ?_
  exact Touch.refl _ _

theorem execLwmS_touch {c : Nat} {sl : Slot} {ra : BitVec 4} {rb : BitVec 4} {m : BitVec 2} {o : ShortOp} {s : State} : TouchOut 24519928653854221733733552434404946937899825951113474810 s (execLwmS c sl ra rb m o s) := by
  unfold execLwmS
  refine TouchOut.step (execPair_touch) rfl ?_
  exact Touch.refl _ _

theorem execSwmS_touch {c : Nat} {sl : Slot} {ra : BitVec 4} {rb : BitVec 4} {m : BitVec 2} {o : ShortOp} {s : State} : TouchOut 24519928653854221733733552434404946937899825951113474810 s (execSwmS c sl ra rb m o s) := by
  unfold execSwmS
  refine TouchOut.step (execPair_touch) rfl ?_
  exact Touch.refl _ _

theorem tickFabric_touch {s : State} : Touch 2048 s (tickFabric s) := by
  unfold tickFabric
  extract_lets -merge +onlyGivenNames x0
  clear_value x0
  extract_lets -merge +onlyGivenNames x1
  have h2 : Touch 2048 s x1 := by
    unfold x1
    refine Touch.step (ftTick_touch ..) rfl ?_
    exact Touch.refl _ _
  clear_value x1
  refine Touch.ite ?_ ?_
  · refine Touch.step (modFt_touch ..) rfl ?_
    exact h2
  · exact h2

theorem tickCore_touch {id : Nat} {n : Nat} {s : State} : Touch 23945242826029513411849172299223580994042798784135232 s (tickCore id n s) := by
  unfold tickCore
  extract_lets -merge +onlyGivenNames x0
  clear_value x0
  refine Touch.ite ?_ ?_
  · exact Touch.refl _ _
  · extract_lets -merge +onlyGivenNames x1
    have h2 : Touch 23945242826029513411849172299223580994042798784135232 s x1 := by
      unfold x1
      refine Touch.step (setCore_touch ..) rfl ?_
      exact Touch.refl _ _
    clear_value x1
    refine Touch.ite ?_ ?_
    · exact h2
    · extract_lets -merge +onlyGivenNames x3
      have h4 : Touch 23945242826029513411849172299223580994042798784135232 s x3 := by
        unfold x3
        split
        · rename_i x5 x6 x7 x8 h9
          refine Touch.step (pmcAdd_touch ..) rfl ?_
          exact h2
        · rename_i x10 h11
          exact h2
      clear_value x3
      refine Touch.ite ?_ ?_
      · exact h4
      · refine Touch.step (pmcAdd_touch ..) rfl ?_
        exact h4

theorem tickArray_touch {s : State} : Touch 23945242826029513411849172299223580994042798784168000 s (tickArray s) := by
  unfold tickArray
  extract_lets -merge +onlyGivenNames x0
  clear_value x0
  extract_lets -merge +onlyGivenNames x1
  clear_value x1
  extract_lets -merge +onlyGivenNames x2
  clear_value x2
  extract_lets -merge +onlyGivenNames x3
  clear_value x3
  extract_lets -merge +onlyGivenNames x4
  subst x4
  extract_lets -merge +onlyGivenNames x5
  have h6 : Touch 23945242826029513411849172299223580994042798784168000 s x5 := by
    unfold x5
    refine Touch.step (t := s) (Touch.upd (F := 32768) rfl (Or.inr rfl)) rfl ?_
    exact Touch.refl _ _
  clear_value x5
  extract_lets -merge +onlyGivenNames x7
  have h8 : Touch 23945242826029513411849172299223580994042798784168000 s x7 := by
    unfold x7
    refine Touch.foldl ?_ (fun x9 x10 h11 => ?_)
    · exact h6
    · refine Touch.step (pmcAdd_touch ..) rfl ?_
      exact h11
  clear_value x7
  extract_lets -merge +onlyGivenNames x12
  have h13 : Touch 23945242826029513411849172299223580994042798784168000 s x12 := by
    unfold x12
    refine Touch.foldl ?_ (fun x14 x15 h16 => ?_)
    · exact h8
    · refine Touch.step (tickCore_touch ..) rfl ?_
      exact h16
  clear_value x12
  refine Touch.foldl ?_ (fun x17 x18 h19 => ?_)
  · exact h13
  · refine Touch.ite ?_ ?_
    · exact h19
    · refine Touch.step (tickCore_touch ..) rfl ?_
      exact h19

theorem tickCoalesce_touch {s : State} : Touch 201327104 s (tickCoalesce s) := by
  unfold tickCoalesce
  refine Touch.foldl ?_ (fun x0 x1 h2 => ?_)
  · exact Touch.refl _ _
  · refine Touch.foldl ?_ (fun x3 x4 h5 => ?_)
    · exact h2
    · refine Touch.ite ?_ ?_
      · split
        · rename_i x6 x7 h8
          refine Touch.step (cqSignal_touch ..) rfl ?_
          refine Touch.step (setNvme_touch ..) rfl ?_
          exact h5
        · rename_i x9 h10
          exact h5
      · exact h5

theorem idle_touch {s : State} : Touch 28440821862459455858835437079274733406156305429745216 s (idle s) := by
  unfold idle
  split
  · rename_i x0 h1
    extract_lets -merge +onlyGivenNames x2
    have h3 : Touch 28440821862459455858835437079274733406156305429745216 s x2 := by
      unfold x2
      refine Touch.step (sieveDrain_touch ..) rfl ?_
      refine Touch.step (tickArray_touch ..) rfl ?_
      refine Touch.step (tickFabric_touch ..) rfl ?_
      exact Touch.refl _ _
    clear_value x2
    refine Touch.step (stoMode_touch ..) rfl ?_
    refine Touch.step (tickCoalesce_touch ..) rfl ?_
    refine Touch.step (modPwr_touch rfl) rfl ?_
    exact h3
  · rename_i x4 h5
    refine Touch.step (modPwr_touch rfl) rfl ?_
    refine Touch.step (tickFabric_touch ..) rfl ?_
    exact Touch.refl _ _
  · rename_i x6 h7 h8
    exact Touch.refl _ _

end Sys2Proof.Machine
end

