-- ==== Sys2Proof/Laws/TouchExec.lean ====
section
/-! SUPPORT. What a command may touch: the footprints of Laws/Touch.lean as frames (`Changes`), and the facts that hold of every command and of every step. -/

namespace Sys2Proof.Machine

open Sys2Proof

/-- The bit of a part in a footprint. -/
def Part.bit : Part → Nat
  | .latch => 1
  | .readVal => 2
  | .mem => 3
  | .keep => 4
  | .strata => 5
  | .sieve => 6
  | .mbx => 7
  | .fw => 8
  | .irq => 9
  | .pwr => 10
  | .ft => 11
  | .cmp => 12
  | .frozen => 13
  | .cores => 14
  | .arr => 15
  | .work => 16
  | .doms => 17
  | .job => 18
  | .pci => 19
  | .slices => 20
  | .windows => 21
  | .accel => 22
  | .sec => 23
  | .vrm => 24
  | .net => 25
  | .sto => 26
  | .out => 27
  | .fresh => 28
  | .pwrState => 30

/-- Every part. -/
def Part.all : List Part := [.latch, .readVal, .mem, .keep, .strata, .sieve, .mbx, .fw, .irq, .pwr, .ft, .cmp, .frozen, .cores, .arr, .work, .doms, .job, .pci, .slices, .windows, .accel, .sec, .vrm, .net, .sto, .out, .fresh, .pwrState]

theorem Part.mem_all (p : Part) : p ∈ Part.all := by cases p <;> decide

/-- The parts `ps` and the registers `rs` hold everything that a footprint names. -/
def covers (F : Nat) (ps : List Part) (rs : List RegName) : Bool :=
  Part.all.all (fun p => !F.testBit p.bit || ps.contains p) && (List.range 152).all (fun k => !F.testBit (32 + k) || rs.contains (RegName.ofNat k))

/-- A footprint is a frame. -/
theorem Touch.changes {F : Nat} {s t : State} {ps : List Part} {rs : List RegName} (a : Touch F s t) (h : covers F ps rs = true) : Changes ps rs s t := by
  rw [covers, Bool.and_eq_true, List.all_eq_true, List.all_eq_true] at h
  refine ⟨a.pending, fun p hp => ?_, fun n i hn => ?_⟩
  · have k := h.1 p p.mem_all
    have k : F.testBit p.bit = false := by
      by_contra c
      rw [Bool.not_eq_false] at c
      rw [c] at k
      exact hp (List.contains_iff_mem.mp (by simpa using k))
    cases p
    · exact a.latch' k
    · exact a.readVal' k
    · exact a.mem' k
    · exact a.keep' k
    · exact a.strata' k
    · exact a.sieve' k
    · exact a.mbx' k
    · exact a.fw' k
    · exact a.irq' k
    · exact a.pwr' k
    · exact a.ft' k
    · exact a.cmp' k
    · exact a.frozen' k
    · exact a.cores' k
    · exact a.arr' k
    · exact a.work' k
    · exact a.doms' k
    · exact a.job' k
    · exact a.pci' k
    · exact a.slices' k
    · exact a.windows' k
    · exact a.accel' k
    · exact a.sec' k
    · exact a.vrm' k
    · exact a.net' k
    · exact a.sto' k
    · exact a.out' k
    · exact a.fresh' k
    · exact a.pwrState k
  · have k := h.2 (regNo n) (List.mem_range.mpr (regNo_lt n))
    have k : F.testBit (32 + regNo n) = false := by
      by_contra c
      rw [Bool.not_eq_false] at c
      rw [c, show RegName.ofNat (regNo n) = n from RegName.ofNat_ctorIdx n] at k
      exact hn (List.contains_iff_mem.mp (by simpa using k))
    exact congrArg (Option.getD · (Reg.reset ⟨n, i⟩)) (a.reg ⟨n, i⟩ k)

/-! Whatever a command does, it keeps the queue, the canonical form of memory, and what was sent. -/

theorem exec_touch_registerWrite {a r high v s} : TouchOut 24519928653854221733733552434404946937899825954937634815 s (exec (.registerWrite a r high v) s) :=
  fun u hu => Touch.mono (execRegisterWrite_touch u (show execRegisterWrite a r high v s = .next u from hu)) rfl

theorem exec_touch_misalignedRegisterAccess {a write s} : TouchOut 24519928653854221733733552434404946937899825954937634815 s (exec (.misalignedRegisterAccess a write) s) :=
  fun u hu => Touch.mono (execMisalignedRegisterAccess_touch u (show execMisalignedRegisterAccess a write s = .next u from hu)) rfl

theorem exec_touch_reg64LowWordRead {a r s} : TouchOut 24519928653854221733733552434404946937899825954937634815 s (exec (.reg64LowWordRead a r) s) :=
  fun u hu => Touch.mono (execReg64LowWordRead_touch u (show execReg64LowWordRead a r s = .next u from hu)) rfl

theorem exec_touch_keepWrite {a word v s} : TouchOut 24519928653854221733733552434404946937899825954937634815 s (exec (.keepWrite a word v) s) :=
  fun u hu => Touch.mono (execKeepWrite_touch u (show execKeepWrite a word v s = .next u from hu)) rfl

theorem exec_touch_keepPersist {word s} : TouchOut 24519928653854221733733552434404946937899825954937634815 s (exec (.keepPersist word) s) :=
  fun u hu => Touch.mono (execKeepPersist_touch u (show execKeepPersist word s = .next u from hu)) rfl

theorem exec_touch_powerAverageInterval {average others s} : TouchOut 24519928653854221733733552434404946937899825954937634815 s (exec (.powerAverageInterval average others) s) :=
  fun u hu => Touch.mono (execPowerAverageInterval_touch u (show execPowerAverageInterval average others s = .next u from hu)) rfl

theorem exec_touch_perstNAssert {ns s} : TouchOut 24519928653854221733733552434404946937899825954937634815 s (exec (.perstNAssert ns) s) :=
  fun u hu => Touch.mono (execPerstNAssert_touch u (show execPerstNAssert ns s = .next u from hu)) rfl

theorem exec_touch_perstNDeassert { s} : TouchOut 24519928653854221733733552434404946937899825954937634815 s (exec (.perstNDeassert) s) :=
  fun u hu => Touch.mono (execPerstNDeassert_touch u (show execPerstNDeassert s = .next u from hu)) rfl

theorem exec_touch_hostHotReset { s} : TouchOut 24519928653854221733733552434404946937899825954937634815 s (exec (.hostHotReset) s) :=
  fun u hu => Touch.mono (execHostHotReset_touch u (show execHostHotReset s = .next u from hu)) rfl

theorem exec_touch_hostLinkDown { s} : TouchOut 24519928653854221733733552434404946937899825954937634815 s (exec (.hostLinkDown) s) :=
  fun u hu => Touch.mono (execHostLinkDown_touch u (show execHostLinkDown s = .next u from hu)) rfl

theorem exec_touch_secondaryBusReset {sub s} : TouchOut 24519928653854221733733552434404946937899825954937634815 s (exec (.secondaryBusReset sub) s) :=
  fun u hu => Touch.mono (execSecondaryBusReset_touch u (show execSecondaryBusReset sub s = .next u from hu)) rfl

theorem exec_touch_functionLevelReset {f s} : TouchOut 24519928653854221733733552434404946937899825954937634815 s (exec (.functionLevelReset f) s) :=
  fun u hu => Touch.mono (execFunctionLevelReset_touch u (show execFunctionLevelReset f s = .next u from hu)) rfl

theorem exec_touch_flrComplete {f s} : TouchOut 24519928653854221733733552434404946937899825954937634815 s (exec (.flrComplete f) s) :=
  fun u hu => Touch.mono (execFlrComplete_touch u (show execFlrComplete f s = .next u from hu)) rfl

theorem exec_touch_busMasterEnableClear {f s} : TouchOut 24519928653854221733733552434404946937899825954937634815 s (exec (.busMasterEnableClear f) s) :=
  fun u hu => Touch.mono (execBusMasterEnableClear_touch u (show execBusMasterEnableClear f s = .next u from hu)) rfl

theorem exec_touch_busMasterEnableSet {f s} : TouchOut 24519928653854221733733552434404946937899825954937634815 s (exec (.busMasterEnableSet f) s) :=
  fun u hu => Touch.mono (execBusMasterEnableSet_touch u (show execBusMasterEnableSet f s = .next u from hu)) rfl

theorem exec_touch_powerStateChange {f state s} : TouchOut 24519928653854221733733552434404946937899825954937634815 s (exec (.powerStateChange f state) s) :=
  fun u hu => Touch.mono (execPowerStateChange_touch u (show execPowerStateChange f state s = .next u from hu)) rfl

theorem exec_touch_configRequest {f w s} : TouchOut 24519928653854221733733552434404946937899825954937634815 s (exec (.configRequest f w) s) :=
  fun u hu => Touch.mono (execConfigRequest_touch u (show execConfigRequest f w s = .next u from hu)) rfl

theorem exec_touch_completionTimeout {l tag s} : TouchOut 24519928653854221733733552434404946937899825954937634815 s (exec (.completionTimeout l tag) s) :=
  fun u hu => Touch.mono (execCompletionTimeout_touch u (show execCompletionTimeout l tag s = .next u from hu)) rfl

theorem exec_touch_readCompletionReceived {l tag st last data s} : TouchOut 24519928653854221733733552434404946937899825954937634815 s (exec (.readCompletionReceived l tag st last data) s) :=
  fun u hu => Touch.mono (execReadCompletionReceived_touch u (show execReadCompletionReceived l tag st last data s = .next u from hu)) rfl

theorem exec_touch_lateCompletion {l tag s} : TouchOut 24519928653854221733733552434404946937899825954937634815 s (exec (.lateCompletion l tag) s) :=
  fun u hu => Touch.mono (execLateCompletion_touch u (show execLateCompletion l tag s = .next u from hu)) rfl

theorem exec_touch_tagQuarantineExpiry {l tag s} : TouchOut 24519928653854221733733552434404946937899825954937634815 s (exec (.tagQuarantineExpiry l tag) s) :=
  fun u hu => Touch.mono (execTagQuarantineExpiry_touch u (show execTagQuarantineExpiry l tag s = .next u from hu)) rfl

theorem exec_touch_poisonedTlpReceived {l what s} : TouchOut 24519928653854221733733552434404946937899825954937634815 s (exec (.poisonedTlpReceived l what) s) :=
  fun u hu => Touch.mono (execPoisonedTlpReceived_touch u (show execPoisonedTlpReceived l what s = .next u from hu)) rfl

theorem exec_touch_apertureRequest {sub addr q s} : TouchOut 24519928653854221733733552434404946937899825954937634815 s (exec (.apertureRequest sub addr q) s) :=
  fun u hu => Touch.mono (execApertureRequest_touch u (show execApertureRequest sub addr q s = .next u from hu)) rfl

theorem exec_touch_ownedDeviceHostRequest {sub addr q s} : TouchOut 24519928653854221733733552434404946937899825954937634815 s (exec (.ownedDeviceHostRequest sub addr q) s) :=
  fun u hu => Touch.mono (execOwnedDeviceHostRequest_touch u (show execOwnedDeviceHostRequest sub addr q s = .next u from hu)) rfl

theorem exec_touch_rootPortLinkDown {sub s} : TouchOut 24519928653854221733733552434404946937899825954937634815 s (exec (.rootPortLinkDown sub) s) :=
  fun u hu => Touch.mono (execRootPortLinkDown_touch u (show execRootPortLinkDown sub s = .next u from hu)) rfl

theorem exec_touch_devicePresent {sub speed width flit s} : TouchOut 24519928653854221733733552434404946937899825954937634815 s (exec (.devicePresent sub speed width flit) s) :=
  fun u hu => Touch.mono (execDevicePresent_touch u (show execDevicePresent sub speed width flit s = .next u from hu)) rfl

theorem exec_touch_linkLaneFault {l lane s} : TouchOut 24519928653854221733733552434404946937899825954937634815 s (exec (.linkLaneFault l lane) s) :=
  fun u hu => Touch.mono (execLinkLaneFault_touch u (show execLinkLaneFault l lane s = .next u from hu)) rfl

theorem exec_touch_ftSourceWrite {a v s} : TouchOut 24519928653854221733733552434404946937899825954937634815 s (exec (.ftSourceWrite a v) s) :=
  fun u hu => Touch.mono (execFtSourceWrite_touch u (show execFtSourceWrite a v s = .next u from hu)) rfl

theorem exec_touch_ptpSyncMessage {offset s} : TouchOut 24519928653854221733733552434404946937899825954937634815 s (exec (.ptpSyncMessage offset) s) :=
  fun u hu => Touch.mono (execPtpSyncMessage_touch u (show execPtpSyncMessage offset s = .next u from hu)) rfl

theorem exec_touch_ppsInEdge { s} : TouchOut 24519928653854221733733552434404946937899825954937634815 s (exec (.ppsInEdge) s) :=
  fun u hu => Touch.mono (execPpsInEdge_touch u (show execPpsInEdge s = .next u from hu)) rfl

theorem exec_touch_ftSyncLoss { s} : TouchOut 24519928653854221733733552434404946937899825954937634815 s (exec (.ftSyncLoss) s) :=
  fun u hu => Touch.mono (execFtSyncLoss_touch u (show execFtSyncLoss s = .next u from hu)) rfl

theorem exec_touch_ftSlewComplete { s} : TouchOut 24519928653854221733733552434404946937899825954937634815 s (exec (.ftSlewComplete) s) :=
  fun u hu => Touch.mono (execFtSlewComplete_touch u (show execFtSlewComplete s = .next u from hu)) rfl

theorem exec_touch_ppsOutSecond { s} : TouchOut 24519928653854221733733552434404946937899825954937634815 s (exec (.ppsOutSecond) s) :=
  fun u hu => Touch.mono (execPpsOutSecond_touch u (show execPpsOutSecond s = .next u from hu)) rfl

theorem exec_touch_ftSetSeconds {c seconds s} : TouchOut 24519928653854221733733552434404946937899825954937634815 s (exec (.ftSetSeconds c seconds) s) :=
  fun u hu => Touch.mono (execFtSetSeconds_touch u (show execFtSetSeconds c seconds s = .next u from hu)) rfl

theorem exec_touch_ftSetSecondsTimeout { s} : TouchOut 24519928653854221733733552434404946937899825954937634815 s (exec (.ftSetSecondsTimeout) s) :=
  fun u hu => Touch.mono (execFtSetSecondsTimeout_touch u (show execFtSetSecondsTimeout s = .next u from hu)) rfl

theorem exec_touch_steepDoorbell {origin domain v s} : TouchOut 24519928653854221733733552434404946937899825954937634815 s (exec (.steepDoorbell origin domain v) s) :=
  fun u hu => Touch.mono (execSteepDoorbell_touch u (show execSteepDoorbell origin domain v s = .next u from hu)) rfl

theorem exec_touch_steepDoorbellForward {domain v s} : TouchOut 24519928653854221733733552434404946937899825954937634815 s (exec (.steepDoorbellForward domain v) s) :=
  fun u hu => Touch.mono (execSteepDoorbellForward_touch u (show execSteepDoorbellForward domain v s = .next u from hu)) rfl

theorem exec_touch_steepBoundary {domain count tb flag s} : TouchOut 24519928653854221733733552434404946937899825954937634815 s (exec (.steepBoundary domain count tb flag) s) :=
  fun u hu => Touch.mono (execSteepBoundary_touch u (show execSteepBoundary domain count tb flag s = .next u from hu)) rfl

theorem exec_touch_steepCountSet {c domain count s} : TouchOut 24519928653854221733733552434404946937899825954937634815 s (exec (.steepCountSet c domain count) s) :=
  fun u hu => Touch.mono (execSteepCountSet_touch u (show execSteepCountSet c domain count s = .next u from hu)) rfl

theorem exec_touch_tcmpCtlWrite {a die idx v s} : TouchOut 24519928653854221733733552434404946937899825954937634815 s (exec (.tcmpCtlWrite a die idx v) s) :=
  fun u hu => Touch.mono (execTcmpCtlWrite_touch u (show execTcmpCtlWrite a die idx v s = .next u from hu)) rfl

theorem exec_touch_comparatorFire {die idx s} : TouchOut 24519928653854221733733552434404946937899825954937634815 s (exec (.comparatorFire die idx) s) :=
  fun u hu => Touch.mono (execComparatorFire_touch u (show execComparatorFire die idx s = .next u from hu)) rfl

theorem exec_touch_comparatorAlloc {c die count s} : TouchOut 24519928653854221733733552434404946937899825954937634815 s (exec (.comparatorAlloc c die count) s) :=
  fun u hu => Touch.mono (execComparatorAlloc_touch u (show execComparatorAlloc c die count s = .next u from hu)) rfl

theorem exec_touch_comparatorFree {c die idx s} : TouchOut 24519928653854221733733552434404946937899825954937634815 s (exec (.comparatorFree c die idx) s) :=
  fun u hu => Touch.mono (execComparatorFree_touch u (show execComparatorFree c die idx s = .next u from hu)) rfl

theorem exec_touch_recoveryStopTime {domain s} : TouchOut 24519928653854221733733552434404946937899825954937634815 s (exec (.recoveryStopTime domain) s) :=
  fun u hu => Touch.mono (execRecoveryStopTime_touch u (show execRecoveryStopTime domain s = .next u from hu)) rfl

theorem exec_touch_recoveryStopKernelAbort {domain s} : TouchOut 24519928653854221733733552434404946937899825954937634815 s (exec (.recoveryStopKernelAbort domain) s) :=
  fun u hu => Touch.mono (execRecoveryStopKernelAbort_touch u (show execRecoveryStopKernelAbort domain s = .next u from hu)) rfl

theorem exec_touch_debugFreezeStart {a s} : TouchOut 24519928653854221733733552434404946937899825954937634815 s (exec (.debugFreezeStart a) s) :=
  fun u hu => Touch.mono (execDebugFreezeStart_touch u (show execDebugFreezeStart a s = .next u from hu)) rfl

theorem exec_touch_debugFreezeEnd {a s} : TouchOut 24519928653854221733733552434404946937899825954937634815 s (exec (.debugFreezeEnd a) s) :=
  fun u hu => Touch.mono (execDebugFreezeEnd_touch u (show execDebugFreezeEnd a s = .next u from hu)) rfl

theorem exec_touch_eccScrubRead {addr res s} : TouchOut 24519928653854221733733552434404946937899825954937634815 s (exec (.eccScrubRead addr res) s) :=
  fun u hu => Touch.mono (execEccScrubRead_touch u (show execEccScrubRead addr res s = .next u from hu)) rfl

theorem exec_touch_tnsReachWrite {core n v s} : TouchOut 24519928653854221733733552434404946937899825954937634815 s (exec (.tnsReachWrite core n v) s) :=
  fun u hu => Touch.mono (execTnsReachWrite_touch u (show execTnsReachWrite core n v s = .next u from hu)) rfl

theorem exec_touch_routeHopTimeout {link who channel s} : TouchOut 24519928653854221733733552434404946937899825954937634815 s (exec (.routeHopTimeout link who channel) s) :=
  fun u hu => Touch.mono (execRouteHopTimeout_touch u (show execRouteHopTimeout link who channel s = .next u from hu)) rfl

theorem exec_touch_tnsDmaSubmit {core v s} : TouchOut 24519928653854221733733552434404946937899825954937634815 s (exec (.tnsDmaSubmit core v) s) :=
  fun u hu => Touch.mono (execTnsDmaSubmit_touch u (show execTnsDmaSubmit core v s = .next u from hu)) rfl

theorem exec_touch_dmaCopy {cluster channel s} : TouchOut 24519928653854221733733552434404946937899825954937634815 s (exec (.dmaCopy cluster channel) s) :=
  fun u hu => Touch.mono (execDmaCopy_touch u (show execDmaCopy cluster channel s = .next u from hu)) rfl

theorem exec_touch_dmaFill {cluster channel s} : TouchOut 24519928653854221733733552434404946937899825954937634815 s (exec (.dmaFill cluster channel) s) :=
  fun u hu => Touch.mono (execDmaFill_touch u (show execDmaFill cluster channel s = .next u from hu)) rfl

theorem exec_touch_dmaCopyConvert {cluster channel s} : TouchOut 24519928653854221733733552434404946937899825954937634815 s (exec (.dmaCopyConvert cluster channel) s) :=
  fun u hu => Touch.mono (execDmaCopyConvert_touch u (show execDmaCopyConvert cluster channel s = .next u from hu)) rfl

theorem exec_touch_dmaTransferComplete {cluster channel s} : TouchOut 24519928653854221733733552434404946937899825954937634815 s (exec (.dmaTransferComplete cluster channel) s) :=
  fun u hu => Touch.mono (execDmaTransferComplete_touch u (show execDmaTransferComplete cluster channel s = .next u from hu)) rfl

theorem exec_touch_coreFaultDetected {core cause s} : TouchOut 24519928653854221733733552434404946937899825954937634815 s (exec (.coreFaultDetected core cause) s) :=
  fun u hu => Touch.mono (execCoreFaultDetected_touch u (show execCoreFaultDetected core cause s = .next u from hu)) rfl

theorem exec_touch_coreRemapRestart {core s} : TouchOut 24519928653854221733733552434404946937899825954937634815 s (exec (.coreRemapRestart core) s) :=
  fun u hu => Touch.mono (execCoreRemapRestart_touch u (show execCoreRemapRestart core s = .next u from hu)) rfl

theorem exec_touch_coreRemapAtKernelEnd {core s} : TouchOut 24519928653854221733733552434404946937899825954937634815 s (exec (.coreRemapAtKernelEnd core) s) :=
  fun u hu => Touch.mono (execCoreRemapAtKernelEnd_touch u (show execCoreRemapAtKernelEnd core s = .next u from hu)) rfl

theorem exec_touch_spareSelfTest {cluster pass s} : TouchOut 24519928653854221733733552434404946937899825954937634815 s (exec (.spareSelfTest cluster pass) s) :=
  fun u hu => Touch.mono (execSpareSelfTest_touch u (show execSpareSelfTest cluster pass s = .next u from hu)) rfl

theorem exec_touch_tnsMeSubmit {a core s} : TouchOut 24519928653854221733733552434404946937899825954937634815 s (exec (.tnsMeSubmit a core) s) :=
  fun u hu => Touch.mono (execTnsMeSubmit_touch u (show execTnsMeSubmit a core s = .next u from hu)) rfl

theorem exec_touch_tnsMePop {a core s} : TouchOut 24519928653854221733733552434404946937899825954937634815 s (exec (.tnsMePop a core) s) :=
  fun u hu => Touch.mono (execTnsMePop_touch u (show execTnsMePop a core s = .next u from hu)) rfl

theorem exec_touch_meTileOp {core s} : TouchOut 24519928653854221733733552434404946937899825954937634815 s (exec (.meTileOp core) s) :=
  fun u hu => Touch.mono (execMeTileOp_touch u (show execMeTileOp core s = .next u from hu)) rfl

theorem exec_touch_laneFma {core s} : TouchOut 24519928653854221733733552434404946937899825954937634815 s (exec (.laneFma core) s) :=
  fun u hu => Touch.mono (execLaneFma_touch u (show execLaneFma core s = .next u from hu)) rfl

theorem exec_touch_laneAxpby {core s} : TouchOut 24519928653854221733733552434404946937899825954937634815 s (exec (.laneAxpby core) s) :=
  fun u hu => Touch.mono (execLaneAxpby_touch u (show execLaneAxpby core s = .next u from hu)) rfl

theorem exec_touch_laneScaleAdd {core s} : TouchOut 24519928653854221733733552434404946937899825954937634815 s (exec (.laneScaleAdd core) s) :=
  fun u hu => Touch.mono (execLaneScaleAdd_touch u (show execLaneScaleAdd core s = .next u from hu)) rfl

theorem exec_touch_laneMul {core s} : TouchOut 24519928653854221733733552434404946937899825954937634815 s (exec (.laneMul core) s) :=
  fun u hu => Touch.mono (execLaneMul_touch u (show execLaneMul core s = .next u from hu)) rfl

theorem exec_touch_laneMin {core s} : TouchOut 24519928653854221733733552434404946937899825954937634815 s (exec (.laneMin core) s) :=
  fun u hu => Touch.mono (execLaneMin_touch u (show execLaneMin core s = .next u from hu)) rfl

theorem exec_touch_laneMax {core s} : TouchOut 24519928653854221733733552434404946937899825954937634815 s (exec (.laneMax core) s) :=
  fun u hu => Touch.mono (execLaneMax_touch u (show execLaneMax core s = .next u from hu)) rfl

theorem exec_touch_laneAbs {core s} : TouchOut 24519928653854221733733552434404946937899825954937634815 s (exec (.laneAbs core) s) :=
  fun u hu => Touch.mono (execLaneAbs_touch u (show execLaneAbs core s = .next u from hu)) rfl

theorem exec_touch_laneConvert {core s} : TouchOut 24519928653854221733733552434404946937899825954937634815 s (exec (.laneConvert core) s) :=
  fun u hu => Touch.mono (execLaneConvert_touch u (show execLaneConvert core s = .next u from hu)) rfl

theorem exec_touch_laneSqrt {core s} : TouchOut 24519928653854221733733552434404946937899825954937634815 s (exec (.laneSqrt core) s) :=
  fun u hu => Touch.mono (execLaneSqrt_touch u (show execLaneSqrt core s = .next u from hu)) rfl

theorem exec_touch_laneRsqrt {core s} : TouchOut 24519928653854221733733552434404946937899825954937634815 s (exec (.laneRsqrt core) s) :=
  fun u hu => Touch.mono (execLaneRsqrt_touch u (show execLaneRsqrt core s = .next u from hu)) rfl

theorem exec_touch_laneRecip {core s} : TouchOut 24519928653854221733733552434404946937899825954937634815 s (exec (.laneRecip core) s) :=
  fun u hu => Touch.mono (execLaneRecip_touch u (show execLaneRecip core s = .next u from hu)) rfl

theorem exec_touch_laneExp {core s} : TouchOut 24519928653854221733733552434404946937899825954937634815 s (exec (.laneExp core) s) :=
  fun u hu => Touch.mono (execLaneExp_touch u (show execLaneExp core s = .next u from hu)) rfl

theorem exec_touch_laneLog {core s} : TouchOut 24519928653854221733733552434404946937899825954937634815 s (exec (.laneLog core) s) :=
  fun u hu => Touch.mono (execLaneLog_touch u (show execLaneLog core s = .next u from hu)) rfl

theorem exec_touch_laneSum {core s} : TouchOut 24519928653854221733733552434404946937899825954937634815 s (exec (.laneSum core) s) :=
  fun u hu => Touch.mono (execLaneSum_touch u (show execLaneSum core s = .next u from hu)) rfl

theorem exec_touch_laneSumsq {core s} : TouchOut 24519928653854221733733552434404946937899825954937634815 s (exec (.laneSumsq core) s) :=
  fun u hu => Touch.mono (execLaneSumsq_touch u (show execLaneSumsq core s = .next u from hu)) rfl

theorem exec_touch_laneRmax {core s} : TouchOut 24519928653854221733733552434404946937899825954937634815 s (exec (.laneRmax core) s) :=
  fun u hu => Touch.mono (execLaneRmax_touch u (show execLaneRmax core s = .next u from hu)) rfl

theorem exec_touch_laneArgmax {core s} : TouchOut 24519928653854221733733552434404946937899825954937634815 s (exec (.laneArgmax core) s) :=
  fun u hu => Touch.mono (execLaneArgmax_touch u (show execLaneArgmax core s = .next u from hu)) rfl

theorem exec_touch_optAdamw {core s} : TouchOut 24519928653854221733733552434404946937899825954937634815 s (exec (.optAdamw core) s) :=
  fun u hu => Touch.mono (execOptAdamw_touch u (show execOptAdamw core s = .next u from hu)) rfl

theorem exec_touch_optSgdm {core s} : TouchOut 24519928653854221733733552434404946937899825954937634815 s (exec (.optSgdm core) s) :=
  fun u hu => Touch.mono (execOptSgdm_touch u (show execOptSgdm core s = .next u from hu)) rfl

theorem exec_touch_optLion {core s} : TouchOut 24519928653854221733733552434404946937899825954937634815 s (exec (.optLion core) s) :=
  fun u hu => Touch.mono (execOptLion_touch u (show execOptLion core s = .next u from hu)) rfl

theorem exec_touch_meCompletionPosted {core s} : TouchOut 24519928653854221733733552434404946937899825954937634815 s (exec (.meCompletionPosted core) s) :=
  fun u hu => Touch.mono (execMeCompletionPosted_touch u (show execMeCompletionPosted core s = .next u from hu)) rfl

theorem exec_touch_meDescriptorTimeout {core s} : TouchOut 24519928653854221733733552434404946937899825954937634815 s (exec (.meDescriptorTimeout core) s) :=
  fun u hu => Touch.mono (execMeDescriptorTimeout_touch u (show execMeDescriptorTimeout core s = .next u from hu)) rfl

theorem exec_touch_srSeedLoad {core high s} : TouchOut 24519928653854221733733552434404946937899825954937634815 s (exec (.srSeedLoad core high) s) :=
  fun u hu => Touch.mono (execSrSeedLoad_touch u (show execSrSeedLoad core high s = .next u from hu)) rfl

theorem exec_touch_addi {c rd rs1 imm s} : TouchOut 24519928653854221733733552434404946937899825954937634815 s (exec (.addi c rd rs1 imm) s) :=
  fun u hu => Touch.mono (execAddi_touch u (show execAddi c rd rs1 imm s = .next u from hu)) rfl

theorem exec_touch_andi {c rd rs1 imm s} : TouchOut 24519928653854221733733552434404946937899825954937634815 s (exec (.andi c rd rs1 imm) s) :=
  fun u hu => Touch.mono (execAndi_touch u (show execAndi c rd rs1 imm s = .next u from hu)) rfl

theorem exec_touch_ori {c rd rs1 imm s} : TouchOut 24519928653854221733733552434404946937899825954937634815 s (exec (.ori c rd rs1 imm) s) :=
  fun u hu => Touch.mono (execOri_touch u (show execOri c rd rs1 imm s = .next u from hu)) rfl

theorem exec_touch_xori {c rd rs1 imm s} : TouchOut 24519928653854221733733552434404946937899825954937634815 s (exec (.xori c rd rs1 imm) s) :=
  fun u hu => Touch.mono (execXori_touch u (show execXori c rd rs1 imm s = .next u from hu)) rfl

theorem exec_touch_slti {c rd rs1 imm s} : TouchOut 24519928653854221733733552434404946937899825954937634815 s (exec (.slti c rd rs1 imm) s) :=
  fun u hu => Touch.mono (execSlti_touch u (show execSlti c rd rs1 imm s = .next u from hu)) rfl

theorem exec_touch_sltiu {c rd rs1 imm s} : TouchOut 24519928653854221733733552434404946937899825954937634815 s (exec (.sltiu c rd rs1 imm) s) :=
  fun u hu => Touch.mono (execSltiu_touch u (show execSltiu c rd rs1 imm s = .next u from hu)) rfl

theorem exec_touch_slli {c rd rs1 zero sh s} : TouchOut 24519928653854221733733552434404946937899825954937634815 s (exec (.slli c rd rs1 zero sh) s) :=
  fun u hu => Touch.mono (execSlli_touch u (show execSlli c rd rs1 zero sh s = .next u from hu)) rfl

theorem exec_touch_srli {c rd rs1 zero sh s} : TouchOut 24519928653854221733733552434404946937899825954937634815 s (exec (.srli c rd rs1 zero sh) s) :=
  fun u hu => Touch.mono (execSrli_touch u (show execSrli c rd rs1 zero sh s = .next u from hu)) rfl

theorem exec_touch_srai {c rd rs1 zero sh s} : TouchOut 24519928653854221733733552434404946937899825954937634815 s (exec (.srai c rd rs1 zero sh) s) :=
  fun u hu => Touch.mono (execSrai_touch u (show execSrai c rd rs1 zero sh s = .next u from hu)) rfl

theorem exec_touch_lui {c rd imm s} : TouchOut 24519928653854221733733552434404946937899825954937634815 s (exec (.lui c rd imm) s) :=
  fun u hu => Touch.mono (execLui_touch u (show execLui c rd imm s = .next u from hu)) rfl

theorem exec_touch_auipc {c rd imm s} : TouchOut 24519928653854221733733552434404946937899825954937634815 s (exec (.auipc c rd imm) s) :=
  fun u hu => Touch.mono (execAuipc_touch u (show execAuipc c rd imm s = .next u from hu)) rfl

theorem exec_touch_lb {c rd rs1 imm s} : TouchOut 24519928653854221733733552434404946937899825954937634815 s (exec (.lb c rd rs1 imm) s) :=
  fun u hu => Touch.mono (execLb_touch u (show execLb c rd rs1 imm s = .next u from hu)) rfl

theorem exec_touch_lbu {c rd rs1 imm s} : TouchOut 24519928653854221733733552434404946937899825954937634815 s (exec (.lbu c rd rs1 imm) s) :=
  fun u hu => Touch.mono (execLbu_touch u (show execLbu c rd rs1 imm s = .next u from hu)) rfl

theorem exec_touch_lh {c rd rs1 imm s} : TouchOut 24519928653854221733733552434404946937899825954937634815 s (exec (.lh c rd rs1 imm) s) :=
  fun u hu => Touch.mono (execLh_touch u (show execLh c rd rs1 imm s = .next u from hu)) rfl

theorem exec_touch_lhu {c rd rs1 imm s} : TouchOut 24519928653854221733733552434404946937899825954937634815 s (exec (.lhu c rd rs1 imm) s) :=
  fun u hu => Touch.mono (execLhu_touch u (show execLhu c rd rs1 imm s = .next u from hu)) rfl

theorem exec_touch_lw {c rd rs1 imm s} : TouchOut 24519928653854221733733552434404946937899825954937634815 s (exec (.lw c rd rs1 imm) s) :=
  fun u hu => Touch.mono (execLw_touch u (show execLw c rd rs1 imm s = .next u from hu)) rfl

theorem exec_touch_sb {c rs2 rs1 imm s} : TouchOut 24519928653854221733733552434404946937899825954937634815 s (exec (.sb c rs2 rs1 imm) s) :=
  fun u hu => Touch.mono (execSb_touch u (show execSb c rs2 rs1 imm s = .next u from hu)) rfl

theorem exec_touch_sh {c rs2 rs1 imm s} : TouchOut 24519928653854221733733552434404946937899825954937634815 s (exec (.sh c rs2 rs1 imm) s) :=
  fun u hu => Touch.mono (execSh_touch u (show execSh c rs2 rs1 imm s = .next u from hu)) rfl

theorem exec_touch_sw {c rs2 rs1 imm s} : TouchOut 24519928653854221733733552434404946937899825954937634815 s (exec (.sw c rs2 rs1 imm) s) :=
  fun u hu => Touch.mono (execSw_touch u (show execSw c rs2 rs1 imm s = .next u from hu)) rfl

theorem exec_touch_memxPostincReg {c rd rs1 rs2 f s} : TouchOut 24519928653854221733733552434404946937899825954937634815 s (exec (.memxPostincReg c rd rs1 rs2 f) s) :=
  fun u hu => Touch.mono (execMemxPostincReg_touch u (show execMemxPostincReg c rd rs1 rs2 f s = .next u from hu)) rfl

theorem exec_touch_memxPostincImm {c rd rs1 imm f s} : TouchOut 24519928653854221733733552434404946937899825954937634815 s (exec (.memxPostincImm c rd rs1 imm f) s) :=
  fun u hu => Touch.mono (execMemxPostincImm_touch u (show execMemxPostincImm c rd rs1 imm f s = .next u from hu)) rfl

theorem exec_touch_memxModulo {c rd rs1 rs2 f s} : TouchOut 24519928653854221733733552434404946937899825954937634815 s (exec (.memxModulo c rd rs1 rs2 f) s) :=
  fun u hu => Touch.mono (execMemxModulo_touch u (show execMemxModulo c rd rs1 rs2 f s = .next u from hu)) rfl

theorem exec_touch_memxBitrev {c rd rs1 rs2 f s} : TouchOut 24519928653854221733733552434404946937899825954937634815 s (exec (.memxBitrev c rd rs1 rs2 f) s) :=
  fun u hu => Touch.mono (execMemxBitrev_touch u (show execMemxBitrev c rd rs1 rs2 f s = .next u from hu)) rfl

theorem exec_touch_beq {c rs1 rs2 off s} : TouchOut 24519928653854221733733552434404946937899825954937634815 s (exec (.beq c rs1 rs2 off) s) :=
  fun u hu => Touch.mono (execBeq_touch u (show execBeq c rs1 rs2 off s = .next u from hu)) rfl

theorem exec_touch_bne {c rs1 rs2 off s} : TouchOut 24519928653854221733733552434404946937899825954937634815 s (exec (.bne c rs1 rs2 off) s) :=
  fun u hu => Touch.mono (execBne_touch u (show execBne c rs1 rs2 off s = .next u from hu)) rfl

theorem exec_touch_blt {c rs1 rs2 off s} : TouchOut 24519928653854221733733552434404946937899825954937634815 s (exec (.blt c rs1 rs2 off) s) :=
  fun u hu => Touch.mono (execBlt_touch u (show execBlt c rs1 rs2 off s = .next u from hu)) rfl

theorem exec_touch_bge {c rs1 rs2 off s} : TouchOut 24519928653854221733733552434404946937899825954937634815 s (exec (.bge c rs1 rs2 off) s) :=
  fun u hu => Touch.mono (execBge_touch u (show execBge c rs1 rs2 off s = .next u from hu)) rfl

theorem exec_touch_bltu {c rs1 rs2 off s} : TouchOut 24519928653854221733733552434404946937899825954937634815 s (exec (.bltu c rs1 rs2 off) s) :=
  fun u hu => Touch.mono (execBltu_touch u (show execBltu c rs1 rs2 off s = .next u from hu)) rfl

theorem exec_touch_bgeu {c rs1 rs2 off s} : TouchOut 24519928653854221733733552434404946937899825954937634815 s (exec (.bgeu c rs1 rs2 off) s) :=
  fun u hu => Touch.mono (execBgeu_touch u (show execBgeu c rs1 rs2 off s = .next u from hu)) rfl

theorem exec_touch_j {c off s} : TouchOut 24519928653854221733733552434404946937899825954937634815 s (exec (.j c off) s) :=
  fun u hu => Touch.mono (execJ_touch u (show execJ c off s = .next u from hu)) rfl

theorem exec_touch_call {c off s} : TouchOut 24519928653854221733733552434404946937899825954937634815 s (exec (.call c off) s) :=
  fun u hu => Touch.mono (execCall_touch u (show execCall c off s = .next u from hu)) rfl

theorem exec_touch_jr {c rd rs1 rs2 s} : TouchOut 24519928653854221733733552434404946937899825954937634815 s (exec (.jr c rd rs1 rs2) s) :=
  fun u hu => Touch.mono (execJr_touch u (show execJr c rd rs1 rs2 s = .next u from hu)) rfl

theorem exec_touch_callr {c rd rs1 rs2 s} : TouchOut 24519928653854221733733552434404946937899825954937634815 s (exec (.callr c rd rs1 rs2) s) :=
  fun u hu => Touch.mono (execCallr_touch u (show execCallr c rd rs1 rs2 s = .next u from hu)) rfl

theorem exec_touch_ret {c rd rs1 rs2 s} : TouchOut 24519928653854221733733552434404946937899825954937634815 s (exec (.ret c rd rs1 rs2) s) :=
  fun u hu => Touch.mono (execRet_touch u (show execRet c rd rs1 rs2 s = .next u from hu)) rfl

theorem exec_touch_eret {c rd rs1 rs2 s} : TouchOut 24519928653854221733733552434404946937899825954937634815 s (exec (.eret c rd rs1 rs2) s) :=
  fun u hu => Touch.mono (execEret_touch u (show execEret c rd rs1 rs2 s = .next u from hu)) rfl

theorem exec_touch_lrW {c rd rs1 rs2 s} : TouchOut 24519928653854221733733552434404946937899825954937634815 s (exec (.lrW c rd rs1 rs2) s) :=
  fun u hu => Touch.mono (execLrW_touch u (show execLrW c rd rs1 rs2 s = .next u from hu)) rfl

theorem exec_touch_scW {c rd rs1 rs2 s} : TouchOut 24519928653854221733733552434404946937899825954937634815 s (exec (.scW c rd rs1 rs2) s) :=
  fun u hu => Touch.mono (execScW_touch u (show execScW c rd rs1 rs2 s = .next u from hu)) rfl

theorem exec_touch_tasB {c rd rs1 rs2 link s} : TouchOut 24519928653854221733733552434404946937899825954937634815 s (exec (.tasB c rd rs1 rs2 link) s) :=
  fun u hu => Touch.mono (execTasB_touch u (show execTasB c rd rs1 rs2 link s = .next u from hu)) rfl

theorem exec_touch_fence {c s} : TouchOut 24519928653854221733733552434404946937899825954937634815 s (exec (.fence c) s) :=
  fun u hu => Touch.mono (execFence_touch u (show execFence c s = .next u from hu)) rfl

theorem exec_touch_fenceI {c s} : TouchOut 24519928653854221733733552434404946937899825954937634815 s (exec (.fenceI c) s) :=
  fun u hu => Touch.mono (execFenceI_touch u (show execFenceI c s = .next u from hu)) rfl

theorem exec_touch_ecall {c s} : TouchOut 24519928653854221733733552434404946937899825954937634815 s (exec (.ecall c) s) :=
  fun u hu => Touch.mono (execEcall_touch u (show execEcall c s = .next u from hu)) rfl

theorem exec_touch_ebreak {c s} : TouchOut 24519928653854221733733552434404946937899825954937634815 s (exec (.ebreak c) s) :=
  fun u hu => Touch.mono (execEbreak_touch u (show execEbreak c s = .next u from hu)) rfl

theorem exec_touch_waite {c rd rs1 s} : TouchOut 24519928653854221733733552434404946937899825954937634815 s (exec (.waite c rd rs1) s) :=
  fun u hu => Touch.mono (execWaite_touch u (show execWaite c rd rs1 s = .next u from hu)) rfl

theorem exec_touch_waiteWake {c s} : TouchOut 24519928653854221733733552434404946937899825954937634815 s (exec (.waiteWake c) s) :=
  fun u hu => Touch.mono (execWaiteWake_touch u (show execWaiteWake c s = .next u from hu)) rfl

theorem exec_touch_rspush {c rs1 s} : TouchOut 24519928653854221733733552434404946937899825954937634815 s (exec (.rspush c rs1) s) :=
  fun u hu => Touch.mono (execRspush_touch u (show execRspush c rs1 s = .next u from hu)) rfl

theorem exec_touch_rspop {c rd s} : TouchOut 24519928653854221733733552434404946937899825954937634815 s (exec (.rspop c rd) s) :=
  fun u hu => Touch.mono (execRspop_touch u (show execRspop c rd s = .next u from hu)) rfl

theorem exec_touch_csrrw {c rd rs1 imm s} : TouchOut 24519928653854221733733552434404946937899825954937634815 s (exec (.csrrw c rd rs1 imm) s) :=
  fun u hu => Touch.mono (execCsrrw_touch u (show execCsrrw c rd rs1 imm s = .next u from hu)) rfl

theorem exec_touch_csrrs {c rd rs1 imm s} : TouchOut 24519928653854221733733552434404946937899825954937634815 s (exec (.csrrs c rd rs1 imm) s) :=
  fun u hu => Touch.mono (execCsrrs_touch u (show execCsrrs c rd rs1 imm s = .next u from hu)) rfl

theorem exec_touch_csrrc {c rd rs1 imm s} : TouchOut 24519928653854221733733552434404946937899825954937634815 s (exec (.csrrc c rd rs1 imm) s) :=
  fun u hu => Touch.mono (execCsrrc_touch u (show execCsrrc c rd rs1 imm s = .next u from hu)) rfl

theorem exec_touch_add {c rd rs1 rs2 s} : TouchOut 24519928653854221733733552434404946937899825954937634815 s (exec (.add c rd rs1 rs2) s) :=
  fun u hu => Touch.mono (execAdd_touch u (show execAdd c rd rs1 rs2 s = .next u from hu)) rfl

theorem exec_touch_sub {c rd rs1 rs2 s} : TouchOut 24519928653854221733733552434404946937899825954937634815 s (exec (.sub c rd rs1 rs2) s) :=
  fun u hu => Touch.mono (execSub_touch u (show execSub c rd rs1 rs2 s = .next u from hu)) rfl

theorem exec_touch_and {c rd rs1 rs2 s} : TouchOut 24519928653854221733733552434404946937899825954937634815 s (exec (.and c rd rs1 rs2) s) :=
  fun u hu => Touch.mono (execAnd_touch u (show execAnd c rd rs1 rs2 s = .next u from hu)) rfl

theorem exec_touch_or {c rd rs1 rs2 s} : TouchOut 24519928653854221733733552434404946937899825954937634815 s (exec (.or c rd rs1 rs2) s) :=
  fun u hu => Touch.mono (execOr_touch u (show execOr c rd rs1 rs2 s = .next u from hu)) rfl

theorem exec_touch_xor {c rd rs1 rs2 s} : TouchOut 24519928653854221733733552434404946937899825954937634815 s (exec (.xor c rd rs1 rs2) s) :=
  fun u hu => Touch.mono (execXor_touch u (show execXor c rd rs1 rs2 s = .next u from hu)) rfl

theorem exec_touch_sll {c rd rs1 rs2 s} : TouchOut 24519928653854221733733552434404946937899825954937634815 s (exec (.sll c rd rs1 rs2) s) :=
  fun u hu => Touch.mono (execSll_touch u (show execSll c rd rs1 rs2 s = .next u from hu)) rfl

theorem exec_touch_srl {c rd rs1 rs2 s} : TouchOut 24519928653854221733733552434404946937899825954937634815 s (exec (.srl c rd rs1 rs2) s) :=
  fun u hu => Touch.mono (execSrl_touch u (show execSrl c rd rs1 rs2 s = .next u from hu)) rfl

theorem exec_touch_sra {c rd rs1 rs2 s} : TouchOut 24519928653854221733733552434404946937899825954937634815 s (exec (.sra c rd rs1 rs2) s) :=
  fun u hu => Touch.mono (execSra_touch u (show execSra c rd rs1 rs2 s = .next u from hu)) rfl

theorem exec_touch_slt {c rd rs1 rs2 s} : TouchOut 24519928653854221733733552434404946937899825954937634815 s (exec (.slt c rd rs1 rs2) s) :=
  fun u hu => Touch.mono (execSlt_touch u (show execSlt c rd rs1 rs2 s = .next u from hu)) rfl

theorem exec_touch_sltu {c rd rs1 rs2 s} : TouchOut 24519928653854221733733552434404946937899825954937634815 s (exec (.sltu c rd rs1 rs2) s) :=
  fun u hu => Touch.mono (execSltu_touch u (show execSltu c rd rs1 rs2 s = .next u from hu)) rfl

theorem exec_touch_min {c rd rs1 rs2 s} : TouchOut 24519928653854221733733552434404946937899825954937634815 s (exec (.min c rd rs1 rs2) s) :=
  fun u hu => Touch.mono (execMin_touch u (show execMin c rd rs1 rs2 s = .next u from hu)) rfl

theorem exec_touch_max {c rd rs1 rs2 s} : TouchOut 24519928653854221733733552434404946937899825954937634815 s (exec (.max c rd rs1 rs2) s) :=
  fun u hu => Touch.mono (execMax_touch u (show execMax c rd rs1 rs2 s = .next u from hu)) rfl

theorem exec_touch_minu {c rd rs1 rs2 s} : TouchOut 24519928653854221733733552434404946937899825954937634815 s (exec (.minu c rd rs1 rs2) s) :=
  fun u hu => Touch.mono (execMinu_touch u (show execMinu c rd rs1 rs2 s = .next u from hu)) rfl

theorem exec_touch_maxu {c rd rs1 rs2 s} : TouchOut 24519928653854221733733552434404946937899825954937634815 s (exec (.maxu c rd rs1 rs2) s) :=
  fun u hu => Touch.mono (execMaxu_touch u (show execMaxu c rd rs1 rs2 s = .next u from hu)) rfl

theorem exec_touch_mul {c rd rs1 rs2 s} : TouchOut 24519928653854221733733552434404946937899825954937634815 s (exec (.mul c rd rs1 rs2) s) :=
  fun u hu => Touch.mono (execMul_touch u (show execMul c rd rs1 rs2 s = .next u from hu)) rfl

theorem exec_touch_mulh {c rd rs1 rs2 s} : TouchOut 24519928653854221733733552434404946937899825954937634815 s (exec (.mulh c rd rs1 rs2) s) :=
  fun u hu => Touch.mono (execMulh_touch u (show execMulh c rd rs1 rs2 s = .next u from hu)) rfl

theorem exec_touch_mulhu {c rd rs1 rs2 s} : TouchOut 24519928653854221733733552434404946937899825954937634815 s (exec (.mulhu c rd rs1 rs2) s) :=
  fun u hu => Touch.mono (execMulhu_touch u (show execMulhu c rd rs1 rs2 s = .next u from hu)) rfl

theorem exec_touch_mulhsu {c rd rs1 rs2 s} : TouchOut 24519928653854221733733552434404946937899825954937634815 s (exec (.mulhsu c rd rs1 rs2) s) :=
  fun u hu => Touch.mono (execMulhsu_touch u (show execMulhsu c rd rs1 rs2 s = .next u from hu)) rfl

theorem exec_touch_div {c rd rs1 rs2 s} : TouchOut 24519928653854221733733552434404946937899825954937634815 s (exec (.div c rd rs1 rs2) s) :=
  fun u hu => Touch.mono (execDiv_touch u (show execDiv c rd rs1 rs2 s = .next u from hu)) rfl

theorem exec_touch_divu {c rd rs1 rs2 s} : TouchOut 24519928653854221733733552434404946937899825954937634815 s (exec (.divu c rd rs1 rs2) s) :=
  fun u hu => Touch.mono (execDivu_touch u (show execDivu c rd rs1 rs2 s = .next u from hu)) rfl

theorem exec_touch_rem {c rd rs1 rs2 s} : TouchOut 24519928653854221733733552434404946937899825954937634815 s (exec (.rem c rd rs1 rs2) s) :=
  fun u hu => Touch.mono (execRem_touch u (show execRem c rd rs1 rs2 s = .next u from hu)) rfl

theorem exec_touch_remu {c rd rs1 rs2 s} : TouchOut 24519928653854221733733552434404946937899825954937634815 s (exec (.remu c rd rs1 rs2) s) :=
  fun u hu => Touch.mono (execRemu_touch u (show execRemu c rd rs1 rs2 s = .next u from hu)) rfl

theorem exec_touch_clz {c rd rs1 rs2 s} : TouchOut 24519928653854221733733552434404946937899825954937634815 s (exec (.clz c rd rs1 rs2) s) :=
  fun u hu => Touch.mono (execClz_touch u (show execClz c rd rs1 rs2 s = .next u from hu)) rfl

theorem exec_touch_ctz {c rd rs1 rs2 s} : TouchOut 24519928653854221733733552434404946937899825954937634815 s (exec (.ctz c rd rs1 rs2) s) :=
  fun u hu => Touch.mono (execCtz_touch u (show execCtz c rd rs1 rs2 s = .next u from hu)) rfl

theorem exec_touch_popc {c rd rs1 rs2 s} : TouchOut 24519928653854221733733552434404946937899825954937634815 s (exec (.popc c rd rs1 rs2) s) :=
  fun u hu => Touch.mono (execPopc_touch u (show execPopc c rd rs1 rs2 s = .next u from hu)) rfl

theorem exec_touch_brev {c rd rs1 rs2 s} : TouchOut 24519928653854221733733552434404946937899825954937634815 s (exec (.brev c rd rs1 rs2) s) :=
  fun u hu => Touch.mono (execBrev_touch u (show execBrev c rd rs1 rs2 s = .next u from hu)) rfl

theorem exec_touch_bswap {c rd rs1 rs2 s} : TouchOut 24519928653854221733733552434404946937899825954937634815 s (exec (.bswap c rd rs1 rs2) s) :=
  fun u hu => Touch.mono (execBswap_touch u (show execBswap c rd rs1 rs2 s = .next u from hu)) rfl

theorem exec_touch_movS {c sl ra rb o s} : TouchOut 24519928653854221733733552434404946937899825954937634815 s (exec (.movS c sl ra rb o) s) :=
  fun u hu => Touch.mono (execMovS_touch u (show execMovS c sl ra rb o s = .next u from hu)) rfl

theorem exec_touch_addS {c sl ra rb o s} : TouchOut 24519928653854221733733552434404946937899825954937634815 s (exec (.addS c sl ra rb o) s) :=
  fun u hu => Touch.mono (execAddS_touch u (show execAddS c sl ra rb o s = .next u from hu)) rfl

theorem exec_touch_subS {c sl ra rb o s} : TouchOut 24519928653854221733733552434404946937899825954937634815 s (exec (.subS c sl ra rb o) s) :=
  fun u hu => Touch.mono (execSubS_touch u (show execSubS c sl ra rb o s = .next u from hu)) rfl

theorem exec_touch_andS {c sl ra rb o s} : TouchOut 24519928653854221733733552434404946937899825954937634815 s (exec (.andS c sl ra rb o) s) :=
  fun u hu => Touch.mono (execAndS_touch u (show execAndS c sl ra rb o s = .next u from hu)) rfl

theorem exec_touch_orS {c sl ra rb o s} : TouchOut 24519928653854221733733552434404946937899825954937634815 s (exec (.orS c sl ra rb o) s) :=
  fun u hu => Touch.mono (execOrS_touch u (show execOrS c sl ra rb o s = .next u from hu)) rfl

theorem exec_touch_xorS {c sl ra rb o s} : TouchOut 24519928653854221733733552434404946937899825954937634815 s (exec (.xorS c sl ra rb o) s) :=
  fun u hu => Touch.mono (execXorS_touch u (show execXorS c sl ra rb o s = .next u from hu)) rfl

theorem exec_touch_sllS {c sl ra rb o s} : TouchOut 24519928653854221733733552434404946937899825954937634815 s (exec (.sllS c sl ra rb o) s) :=
  fun u hu => Touch.mono (execSllS_touch u (show execSllS c sl ra rb o s = .next u from hu)) rfl

theorem exec_touch_srlS {c sl ra rb o s} : TouchOut 24519928653854221733733552434404946937899825954937634815 s (exec (.srlS c sl ra rb o) s) :=
  fun u hu => Touch.mono (execSrlS_touch u (show execSrlS c sl ra rb o s = .next u from hu)) rfl

theorem exec_touch_sraS {c sl ra rb o s} : TouchOut 24519928653854221733733552434404946937899825954937634815 s (exec (.sraS c sl ra rb o) s) :=
  fun u hu => Touch.mono (execSraS_touch u (show execSraS c sl ra rb o s = .next u from hu)) rfl

theorem exec_touch_mulS {c sl ra rb o s} : TouchOut 24519928653854221733733552434404946937899825954937634815 s (exec (.mulS c sl ra rb o) s) :=
  fun u hu => Touch.mono (execMulS_touch u (show execMulS c sl ra rb o s = .next u from hu)) rfl

theorem exec_touch_sltS {c sl ra rb o s} : TouchOut 24519928653854221733733552434404946937899825954937634815 s (exec (.sltS c sl ra rb o) s) :=
  fun u hu => Touch.mono (execSltS_touch u (show execSltS c sl ra rb o s = .next u from hu)) rfl

theorem exec_touch_sltuS {c sl ra rb o s} : TouchOut 24519928653854221733733552434404946937899825954937634815 s (exec (.sltuS c sl ra rb o) s) :=
  fun u hu => Touch.mono (execSltuS_touch u (show execSltuS c sl ra rb o s = .next u from hu)) rfl

theorem exec_touch_negS {c sl ra rb o s} : TouchOut 24519928653854221733733552434404946937899825954937634815 s (exec (.negS c sl ra rb o) s) :=
  fun u hu => Touch.mono (execNegS_touch u (show execNegS c sl ra rb o s = .next u from hu)) rfl

theorem exec_touch_notS {c sl ra rb o s} : TouchOut 24519928653854221733733552434404946937899825954937634815 s (exec (.notS c sl ra rb o) s) :=
  fun u hu => Touch.mono (execNotS_touch u (show execNotS c sl ra rb o s = .next u from hu)) rfl

theorem exec_touch_minS {c sl ra rb o s} : TouchOut 24519928653854221733733552434404946937899825954937634815 s (exec (.minS c sl ra rb o) s) :=
  fun u hu => Touch.mono (execMinS_touch u (show execMinS c sl ra rb o s = .next u from hu)) rfl

theorem exec_touch_maxS {c sl ra rb o s} : TouchOut 24519928653854221733733552434404946937899825954937634815 s (exec (.maxS c sl ra rb o) s) :=
  fun u hu => Touch.mono (execMaxS_touch u (show execMaxS c sl ra rb o s = .next u from hu)) rfl

theorem exec_touch_addiS {c sl ra imm o s} : TouchOut 24519928653854221733733552434404946937899825954937634815 s (exec (.addiS c sl ra imm o) s) :=
  fun u hu => Touch.mono (execAddiS_touch u (show execAddiS c sl ra imm o s = .next u from hu)) rfl

theorem exec_touch_liS {c sl ra imm o s} : TouchOut 24519928653854221733733552434404946937899825954937634815 s (exec (.liS c sl ra imm o) s) :=
  fun u hu => Touch.mono (execLiS_touch u (show execLiS c sl ra imm o s = .next u from hu)) rfl

theorem exec_touch_slliS {c sl ra sh o s} : TouchOut 24519928653854221733733552434404946937899825954937634815 s (exec (.slliS c sl ra sh o) s) :=
  fun u hu => Touch.mono (execSlliS_touch u (show execSlliS c sl ra sh o s = .next u from hu)) rfl

theorem exec_touch_srliS {c sl ra sh o s} : TouchOut 24519928653854221733733552434404946937899825954937634815 s (exec (.srliS c sl ra sh o) s) :=
  fun u hu => Touch.mono (execSrliS_touch u (show execSrliS c sl ra sh o s = .next u from hu)) rfl

theorem exec_touch_sraiS {c sl ra sh o s} : TouchOut 24519928653854221733733552434404946937899825954937634815 s (exec (.sraiS c sl ra sh o) s) :=
  fun u hu => Touch.mono (execSraiS_touch u (show execSraiS c sl ra sh o s = .next u from hu)) rfl

theorem exec_touch_lwS {c sl ra rb sub o s} : TouchOut 24519928653854221733733552434404946937899825954937634815 s (exec (.lwS c sl ra rb sub o) s) :=
  fun u hu => Touch.mono (execLwS_touch u (show execLwS c sl ra rb sub o s = .next u from hu)) rfl

theorem exec_touch_swS {c sl ra rb sub o s} : TouchOut 24519928653854221733733552434404946937899825954937634815 s (exec (.swS c sl ra rb sub o) s) :=
  fun u hu => Touch.mono (execSwS_touch u (show execSwS c sl ra rb sub o s = .next u from hu)) rfl

theorem exec_touch_lwpS {c sl ra rb sub o s} : TouchOut 24519928653854221733733552434404946937899825954937634815 s (exec (.lwpS c sl ra rb sub o) s) :=
  fun u hu => Touch.mono (execLwpS_touch u (show execLwpS c sl ra rb sub o s = .next u from hu)) rfl

theorem exec_touch_swpS {c sl ra rb sub o s} : TouchOut 24519928653854221733733552434404946937899825954937634815 s (exec (.swpS c sl ra rb sub o) s) :=
  fun u hu => Touch.mono (execSwpS_touch u (show execSwpS c sl ra rb sub o s = .next u from hu)) rfl

theorem exec_touch_lbS {c sl ra rb o s} : TouchOut 24519928653854221733733552434404946937899825954937634815 s (exec (.lbS c sl ra rb o) s) :=
  fun u hu => Touch.mono (execLbS_touch u (show execLbS c sl ra rb o s = .next u from hu)) rfl

theorem exec_touch_lbuS {c sl ra rb o s} : TouchOut 24519928653854221733733552434404946937899825954937634815 s (exec (.lbuS c sl ra rb o) s) :=
  fun u hu => Touch.mono (execLbuS_touch u (show execLbuS c sl ra rb o s = .next u from hu)) rfl

theorem exec_touch_lhS {c sl ra rb o s} : TouchOut 24519928653854221733733552434404946937899825954937634815 s (exec (.lhS c sl ra rb o) s) :=
  fun u hu => Touch.mono (execLhS_touch u (show execLhS c sl ra rb o s = .next u from hu)) rfl

theorem exec_touch_lhuS {c sl ra rb o s} : TouchOut 24519928653854221733733552434404946937899825954937634815 s (exec (.lhuS c sl ra rb o) s) :=
  fun u hu => Touch.mono (execLhuS_touch u (show execLhuS c sl ra rb o s = .next u from hu)) rfl

theorem exec_touch_sbS {c sl ra rb o s} : TouchOut 24519928653854221733733552434404946937899825954937634815 s (exec (.sbS c sl ra rb o) s) :=
  fun u hu => Touch.mono (execSbS_touch u (show execSbS c sl ra rb o s = .next u from hu)) rfl

theorem exec_touch_shS {c sl ra rb o s} : TouchOut 24519928653854221733733552434404946937899825954937634815 s (exec (.shS c sl ra rb o) s) :=
  fun u hu => Touch.mono (execShS_touch u (show execShS c sl ra rb o s = .next u from hu)) rfl

theorem exec_touch_lwmS {c sl ra rb m o s} : TouchOut 24519928653854221733733552434404946937899825954937634815 s (exec (.lwmS c sl ra rb m o) s) :=
  fun u hu => Touch.mono (execLwmS_touch u (show execLwmS c sl ra rb m o s = .next u from hu)) rfl

theorem exec_touch_swmS {c sl ra rb m o s} : TouchOut 24519928653854221733733552434404946937899825954937634815 s (exec (.swmS c sl ra rb m o) s) :=
  fun u hu => Touch.mono (execSwmS_touch u (show execSwmS c sl ra rb m o s = .next u from hu)) rfl

theorem exec_touch_beqzS {c sl ra imm o s} : TouchOut 24519928653854221733733552434404946937899825954937634815 s (exec (.beqzS c sl ra imm o) s) :=
  fun u hu => Touch.mono (execBeqzS_touch u (show execBeqzS c sl ra imm o s = .next u from hu)) rfl

theorem exec_touch_bnezS {c sl ra imm o s} : TouchOut 24519928653854221733733552434404946937899825954937634815 s (exec (.bnezS c sl ra imm o) s) :=
  fun u hu => Touch.mono (execBnezS_touch u (show execBnezS c sl ra imm o s = .next u from hu)) rfl

theorem exec_touch_reservationTimeout {c s} : TouchOut 24519928653854221733733552434404946937899825954937634815 s (exec (.reservationTimeout c) s) :=
  fun u hu => Touch.mono (execReservationTimeout_touch u (show execReservationTimeout c s = .next u from hu)) rfl

theorem exec_touch_interruptTake {c s} : TouchOut 24519928653854221733733552434404946937899825954937634815 s (exec (.interruptTake c) s) :=
  fun u hu => Touch.mono (execInterruptTake_touch u (show execInterruptTake c s = .next u from hu)) rfl

theorem exec_touch_kernelEndStore {c code s} : TouchOut 24519928653854221733733552434404946937899825954937634815 s (exec (.kernelEndStore c code) s) :=
  fun u hu => Touch.mono (execKernelEndStore_touch u (show execKernelEndStore c code s = .next u from hu)) rfl

theorem exec_touch_tidyTraceStore {c v s} : TouchOut 24519928653854221733733552434404946937899825954937634815 s (exec (.tidyTraceStore c v) s) :=
  fun u hu => Touch.mono (execTidyTraceStore_touch u (show execTidyTraceStore c v s = .next u from hu)) rfl

theorem exec_touch_partitionCreate {c q s} : TouchOut 24519928653854221733733552434404946937899825954937634815 s (exec (.partitionCreate c q) s) :=
  fun u hu => Touch.mono (execPartitionCreate_touch u (show execPartitionCreate c q s = .next u from hu)) rfl

theorem exec_touch_partitionDestroy {c handle s} : TouchOut 24519928653854221733733552434404946937899825954937634815 s (exec (.partitionDestroy c handle) s) :=
  fun u hu => Touch.mono (execPartitionDestroy_touch u (show execPartitionDestroy c handle s = .next u from hu)) rfl

theorem exec_touch_workRingTailDoorbell {slice handle ring v s} : TouchOut 24519928653854221733733552434404946937899825954937634815 s (exec (.workRingTailDoorbell slice handle ring v) s) :=
  fun u hu => Touch.mono (execWorkRingTailDoorbell_touch u (show execWorkRingTailDoorbell slice handle ring v s = .next u from hu)) rfl

theorem exec_touch_workRingHeadDoorbell {slice handle ring v s} : TouchOut 24519928653854221733733552434404946937899825954937634815 s (exec (.workRingHeadDoorbell slice handle ring v) s) :=
  fun u hu => Touch.mono (execWorkRingHeadDoorbell_touch u (show execWorkRingHeadDoorbell slice handle ring v s = .next u from hu)) rfl

theorem exec_touch_dispatchDescriptor {part ring s} : TouchOut 24519928653854221733733552434404946937899825954937634815 s (exec (.dispatchDescriptor part ring) s) :=
  fun u hu => Touch.mono (execDispatchDescriptor_touch u (show execDispatchDescriptor part ring s = .next u from hu)) rfl

theorem exec_touch_workKernel {id s} : TouchOut 24519928653854221733733552434404946937899825954937634815 s (exec (.workKernel id) s) :=
  fun u hu => Touch.mono (execWorkKernel_touch u (show execWorkKernel id s = .next u from hu)) rfl

theorem exec_touch_workDma {id s} : TouchOut 24519928653854221733733552434404946937899825954937634815 s (exec (.workDma id) s) :=
  fun u hu => Touch.mono (execWorkDma_touch u (show execWorkDma id s = .next u from hu)) rfl

theorem exec_touch_workConvert {id s} : TouchOut 24519928653854221733733552434404946937899825954937634815 s (exec (.workConvert id) s) :=
  fun u hu => Touch.mono (execWorkConvert_touch u (show execWorkConvert id s = .next u from hu)) rfl

theorem exec_touch_workReside {id s} : TouchOut 24519928653854221733733552434404946937899825954937634815 s (exec (.workReside id) s) :=
  fun u hu => Touch.mono (execWorkReside_touch u (show execWorkReside id s = .next u from hu)) rfl

theorem exec_touch_workRelease {id s} : TouchOut 24519928653854221733733552434404946937899825954937634815 s (exec (.workRelease id) s) :=
  fun u hu => Touch.mono (execWorkRelease_touch u (show execWorkRelease id s = .next u from hu)) rfl

theorem exec_touch_workSample {id s} : TouchOut 24519928653854221733733552434404946937899825954937634815 s (exec (.workSample id) s) :=
  fun u hu => Touch.mono (execWorkSample_touch u (show execWorkSample id s = .next u from hu)) rfl

theorem exec_touch_workVerify {id s} : TouchOut 24519928653854221733733552434404946937899825954937634815 s (exec (.workVerify id) s) :=
  fun u hu => Touch.mono (execWorkVerify_touch u (show execWorkVerify id s = .next u from hu)) rfl

theorem exec_touch_workMarker {id s} : TouchOut 24519928653854221733733552434404946937899825954937634815 s (exec (.workMarker id) s) :=
  fun u hu => Touch.mono (execWorkMarker_touch u (show execWorkMarker id s = .next u from hu)) rfl

theorem exec_touch_workCompletionWrite {id s} : TouchOut 24519928653854221733733552434404946937899825954937634815 s (exec (.workCompletionWrite id) s) :=
  fun u hu => Touch.mono (execWorkCompletionWrite_touch u (show execWorkCompletionWrite id s = .next u from hu)) rfl

theorem exec_touch_kernelComplete {id s} : TouchOut 24519928653854221733733552434404946937899825954937634815 s (exec (.kernelComplete id) s) :=
  fun u hu => Touch.mono (execKernelComplete_touch u (show execKernelComplete id s = .next u from hu)) rfl

theorem exec_touch_kernelDeadline {id s} : TouchOut 24519928653854221733733552434404946937899825954937634815 s (exec (.kernelDeadline id) s) :=
  fun u hu => Touch.mono (execKernelDeadline_touch u (show execKernelDeadline id s = .next u from hu)) rfl

theorem exec_touch_siltLineUncorrectable {die line s} : TouchOut 24519928653854221733733552434404946937899825954937634815 s (exec (.siltLineUncorrectable die line) s) :=
  fun u hu => Touch.mono (execSiltLineUncorrectable_touch u (show execSiltLineUncorrectable die line s = .next u from hu)) rfl

theorem exec_touch_siltLineRepaired {die line s} : TouchOut 24519928653854221733733552434404946937899825954937634815 s (exec (.siltLineRepaired die line) s) :=
  fun u hu => Touch.mono (execSiltLineRepaired_touch u (show execSiltLineRepaired die line s = .next u from hu)) rfl

theorem exec_touch_domainCreate {c q s} : TouchOut 24519928653854221733733552434404946937899825954937634815 s (exec (.domainCreate c q) s) :=
  fun u hu => Touch.mono (execDomainCreate_touch u (show execDomainCreate c q s = .next u from hu)) rfl

theorem exec_touch_domainDestroy {c domain s} : TouchOut 24519928653854221733733552434404946937899825954937634815 s (exec (.domainDestroy c domain) s) :=
  fun u hu => Touch.mono (execDomainDestroy_touch u (show execDomainDestroy c domain s = .next u from hu)) rfl

theorem exec_touch_regionAdd {c q s} : TouchOut 24519928653854221733733552434404946937899825954937634815 s (exec (.regionAdd c q) s) :=
  fun u hu => Touch.mono (execRegionAdd_touch u (show execRegionAdd c q s = .next u from hu)) rfl

theorem exec_touch_regionRemove {c domain region s} : TouchOut 24519928653854221733733552434404946937899825954937634815 s (exec (.regionRemove c domain region) s) :=
  fun u hu => Touch.mono (execRegionRemove_touch u (show execRegionRemove c domain region s = .next u from hu)) rfl

theorem exec_touch_layerAdd {c domain q s} : TouchOut 24519928653854221733733552434404946937899825954937634815 s (exec (.layerAdd c domain q) s) :=
  fun u hu => Touch.mono (execLayerAdd_touch u (show execLayerAdd c domain q s = .next u from hu)) rfl

theorem exec_touch_layerRemove {c domain layer s} : TouchOut 24519928653854221733733552434404946937899825954937634815 s (exec (.layerRemove c domain layer) s) :=
  fun u hu => Touch.mono (execLayerRemove_touch u (show execLayerRemove c domain layer s = .next u from hu)) rfl

theorem exec_touch_deepTargetSet {c domain nsid offset s} : TouchOut 24519928653854221733733552434404946937899825954937634815 s (exec (.deepTargetSet c domain nsid offset) s) :=
  fun u hu => Touch.mono (execDeepTargetSet_touch u (show execDeepTargetSet c domain nsid offset s = .next u from hu)) rfl

theorem exec_touch_evictMailbox {c domain index s} : TouchOut 24519928653854221733733552434404946937899825954937634815 s (exec (.evictMailbox c domain index) s) :=
  fun u hu => Touch.mono (execEvictMailbox_touch u (show execEvictMailbox c domain index s = .next u from hu)) rfl

theorem exec_touch_broadcast {c domain source addr len s} : TouchOut 24519928653854221733733552434404946937899825954937634815 s (exec (.broadcast c domain source addr len) s) :=
  fun u hu => Touch.mono (execBroadcast_touch u (show execBroadcast c domain source addr len s = .next u from hu)) rfl

theorem exec_touch_domainArm {a domain v s} : TouchOut 24519928653854221733733552434404946937899825954937634815 s (exec (.domainArm a domain v) s) :=
  fun u hu => Touch.mono (execDomainArm_touch u (show execDomainArm a domain v s = .next u from hu)) rfl

theorem exec_touch_domainDisarm {a domain v s} : TouchOut 24519928653854221733733552434404946937899825954937634815 s (exec (.domainDisarm a domain v) s) :=
  fun u hu => Touch.mono (execDomainDisarm_touch u (show execDomainDisarm a domain v s = .next u from hu)) rfl

theorem exec_touch_domainLrWrite {a domain v s} : TouchOut 24519928653854221733733552434404946937899825954937634815 s (exec (.domainLrWrite a domain v) s) :=
  fun u hu => Touch.mono (execDomainLrWrite_touch u (show execDomainLrWrite a domain v s = .next u from hu)) rfl

theorem exec_touch_domainGscaleWrite {a domain v s} : TouchOut 24519928653854221733733552434404946937899825954937634815 s (exec (.domainGscaleWrite a domain v) s) :=
  fun u hu => Touch.mono (execDomainGscaleWrite_touch u (show execDomainGscaleWrite a domain v s = .next u from hu)) rfl

theorem exec_touch_protectedWrite {a offset data s} : TouchOut 24519928653854221733733552434404946937899825954937634815 s (exec (.protectedWrite a offset data) s) :=
  fun u hu => Touch.mono (execProtectedWrite_touch u (show execProtectedWrite a offset data s = .next u from hu)) rfl

theorem exec_touch_pageDoorbell {a domain region page s} : TouchOut 24519928653854221733733552434404946937899825954937634815 s (exec (.pageDoorbell a domain region page) s) :=
  fun u hu => Touch.mono (execPageDoorbell_touch u (show execPageDoorbell a domain region page s = .next u from hu)) rfl

theorem exec_touch_pageCopyComplete {domain region s} : TouchOut 24519928653854221733733552434404946937899825954937634815 s (exec (.pageCopyComplete domain region) s) :=
  fun u hu => Touch.mono (execPageCopyComplete_touch u (show execPageCopyComplete domain region s = .next u from hu)) rfl

theorem exec_touch_pauseDoorbell {a domain v s} : TouchOut 24519928653854221733733552434404946937899825954937634815 s (exec (.pauseDoorbell a domain v) s) :=
  fun u hu => Touch.mono (execPauseDoorbell_touch u (show execPauseDoorbell a domain v s = .next u from hu)) rfl

theorem exec_touch_pauseCopyComplete {domain s} : TouchOut 24519928653854221733733552434404946937899825954937634815 s (exec (.pauseCopyComplete domain) s) :=
  fun u hu => Touch.mono (execPauseCopyComplete_touch u (show execPauseCopyComplete domain s = .next u from hu)) rfl

theorem exec_touch_snapshotDeclare {domain s} : TouchOut 24519928653854221733733552434404946937899825954937634815 s (exec (.snapshotDeclare domain) s) :=
  fun u hu => Touch.mono (execSnapshotDeclare_touch u (show execSnapshotDeclare domain s = .next u from hu)) rfl

theorem exec_touch_boundaryPass {domain s} : TouchOut 24519928653854221733733552434404946937899825954937634815 s (exec (.boundaryPass domain) s) :=
  fun u hu => Touch.mono (execBoundaryPass_touch u (show execBoundaryPass domain s = .next u from hu)) rfl

theorem exec_touch_snapshotAbandon {domain s} : TouchOut 24519928653854221733733552434404946937899825954937634815 s (exec (.snapshotAbandon domain) s) :=
  fun u hu => Touch.mono (execSnapshotAbandon_touch u (show execSnapshotAbandon domain s = .next u from hu)) rfl

theorem exec_touch_intakeDoorbell {a domain contributor q s} : TouchOut 24519928653854221733733552434404946937899825954937634815 s (exec (.intakeDoorbell a domain contributor q) s) :=
  fun u hu => Touch.mono (execIntakeDoorbell_touch u (show execIntakeDoorbell a domain contributor q s = .next u from hu)) rfl

theorem exec_touch_layerGradientCombine {domain layer s} : TouchOut 24519928653854221733733552434404946937899825954937634815 s (exec (.layerGradientCombine domain layer) s) :=
  fun u hu => Touch.mono (execLayerGradientCombine_touch u (show execLayerGradientCombine domain layer s = .next u from hu)) rfl

theorem exec_touch_collectiveChunkReceive {domain layer gather offset final data s} : TouchOut 24519928653854221733733552434404946937899825954937634815 s (exec (.collectiveChunkReceive domain layer gather offset final data) s) :=
  fun u hu => Touch.mono (execCollectiveChunkReceive_touch u (show execCollectiveChunkReceive domain layer gather offset final data s = .next u from hu)) rfl

theorem exec_touch_collTimeout {domain layer s} : TouchOut 24519928653854221733733552434404946937899825954937634815 s (exec (.collTimeout domain layer) s) :=
  fun u hu => Touch.mono (execCollTimeout_touch u (show execCollTimeout domain layer s = .next u from hu)) rfl

theorem exec_touch_layerUpdate {domain layer s} : TouchOut 24519928653854221733733552434404946937899825954937634815 s (exec (.layerUpdate domain layer) s) :=
  fun u hu => Touch.mono (execLayerUpdate_touch u (show execLayerUpdate domain layer s = .next u from hu)) rfl

theorem exec_touch_pushHighPlane {domain layer contributor s} : TouchOut 24519928653854221733733552434404946937899825954937634815 s (exec (.pushHighPlane domain layer contributor) s) :=
  fun u hu => Touch.mono (execPushHighPlane_touch u (show execPushHighPlane domain layer contributor s = .next u from hu)) rfl

theorem exec_touch_pushFailed {domain layer contributor s} : TouchOut 24519928653854221733733552434404946937899825954937634815 s (exec (.pushFailed domain layer contributor) s) :=
  fun u hu => Touch.mono (execPushFailed_touch u (show execPushFailed domain layer contributor s = .next u from hu)) rfl

theorem exec_touch_copierSendGrain {domain s} : TouchOut 24519928653854221733733552434404946937899825954937634815 s (exec (.copierSendGrain domain) s) :=
  fun u hu => Touch.mono (execCopierSendGrain_touch u (show execCopierSendGrain domain s = .next u from hu)) rfl

theorem exec_touch_grain {m s} : TouchOut 24519928653854221733733552434404946937899825954937634815 s (exec (.grain m) s) :=
  fun u hu => Touch.mono (execGrain_touch u (show execGrain m s = .next u from hu)) rfl

theorem exec_touch_grainAckBatch {domain s} : TouchOut 24519928653854221733733552434404946937899825954937634815 s (exec (.grainAckBatch domain) s) :=
  fun u hu => Touch.mono (execGrainAckBatch_touch u (show execGrainAckBatch domain s = .next u from hu)) rfl

theorem exec_touch_grainAck {m s} : TouchOut 24519928653854221733733552434404946937899825954937634815 s (exec (.grainAck m) s) :=
  fun u hu => Touch.mono (execGrainAck_touch u (show execGrainAck m s = .next u from hu)) rfl

theorem exec_touch_grainNak {m s} : TouchOut 24519928653854221733733552434404946937899825954937634815 s (exec (.grainNak m) s) :=
  fun u hu => Touch.mono (execGrainNak_touch u (show execGrainNak m s = .next u from hu)) rfl

theorem exec_touch_sealMsg {m s} : TouchOut 24519928653854221733733552434404946937899825954937634815 s (exec (.sealMsg m) s) :=
  fun u hu => Touch.mono (execSealMsg_touch u (show execSealMsg m s = .next u from hu)) rfl

theorem exec_touch_held {m s} : TouchOut 24519928653854221733733552434404946937899825954937634815 s (exec (.held m) s) :=
  fun u hu => Touch.mono (execHeld_touch u (show execHeld m s = .next u from hu)) rfl

theorem exec_touch_abandon {m s} : TouchOut 24519928653854221733733552434404946937899825954937634815 s (exec (.abandon m) s) :=
  fun u hu => Touch.mono (execAbandon_touch u (show execAbandon m s = .next u from hu)) rfl

theorem exec_touch_decideMsg {m s} : TouchOut 24519928653854221733733552434404946937899825954937634815 s (exec (.decideMsg m) s) :=
  fun u hu => Touch.mono (execDecideMsg_touch u (show execDecideMsg m s = .next u from hu)) rfl

theorem exec_touch_decideAck {m s} : TouchOut 24519928653854221733733552434404946937899825954937634815 s (exec (.decideAck m) s) :=
  fun u hu => Touch.mono (execDecideAck_touch u (show execDecideAck m s = .next u from hu)) rfl

theorem exec_touch_decideResend {domain s} : TouchOut 24519928653854221733733552434404946937899825954937634815 s (exec (.decideResend domain) s) :=
  fun u hu => Touch.mono (execDecideResend_touch u (show execDecideResend domain s = .next u from hu)) rfl

theorem exec_touch_commitDeadline {domain s} : TouchOut 24519928653854221733733552434404946937899825954937634815 s (exec (.commitDeadline domain) s) :=
  fun u hu => Touch.mono (execCommitDeadline_touch u (show execCommitDeadline domain s = .next u from hu)) rfl

theorem exec_touch_commit {m s} : TouchOut 24519928653854221733733552434404946937899825954937634815 s (exec (.commit m) s) :=
  fun u hu => Touch.mono (execCommit_touch u (show execCommit m s = .next u from hu)) rfl

theorem exec_touch_abortMsg {m s} : TouchOut 24519928653854221733733552434404946937899825954937634815 s (exec (.abortMsg m) s) :=
  fun u hu => Touch.mono (execAbortMsg_touch u (show execAbortMsg m s = .next u from hu)) rfl

theorem exec_touch_repairReq {m s} : TouchOut 24519928653854221733733552434404946937899825954937634815 s (exec (.repairReq m) s) :=
  fun u hu => Touch.mono (execRepairReq_touch u (show execRepairReq m s = .next u from hu)) rfl

theorem exec_touch_buddyCrcScrub {domain region grain s} : TouchOut 24519928653854221733733552434404946937899825954937634815 s (exec (.buddyCrcScrub domain region grain) s) :=
  fun u hu => Touch.mono (execBuddyCrcScrub_touch u (show execBuddyCrcScrub domain region grain s = .next u from hu)) rfl

theorem exec_touch_deepWriteDone {domain ok s} : TouchOut 24519928653854221733733552434404946937899825954937634815 s (exec (.deepWriteDone domain ok) s) :=
  fun u hu => Touch.mono (execDeepWriteDone_touch u (show execDeepWriteDone domain ok s = .next u from hu)) rfl

theorem exec_touch_deepDone {m s} : TouchOut 24519928653854221733733552434404946937899825954937634815 s (exec (.deepDone m) s) :=
  fun u hu => Touch.mono (execDeepDone_touch u (show execDeepDone m s = .next u from hu)) rfl

theorem exec_touch_deepTimeout {domain s} : TouchOut 24519928653854221733733552434404946937899825954937634815 s (exec (.deepTimeout domain) s) :=
  fun u hu => Touch.mono (execDeepTimeout_touch u (show execDeepTimeout domain s = .next u from hu)) rfl

theorem exec_touch_deepCancel {m s} : TouchOut 24519928653854221733733552434404946937899825954937634815 s (exec (.deepCancel m) s) :=
  fun u hu => Touch.mono (execDeepCancel_touch u (show execDeepCancel m s = .next u from hu)) rfl

theorem exec_touch_relayFallback {domain hop s} : TouchOut 24519928653854221733733552434404946937899825954937634815 s (exec (.relayFallback domain hop) s) :=
  fun u hu => Touch.mono (execRelayFallback_touch u (show execRelayFallback domain hop s = .next u from hu)) rfl

theorem exec_touch_heartbeat {m s} : TouchOut 24519928653854221733733552434404946937899825954937634815 s (exec (.heartbeat m) s) :=
  fun u hu => Touch.mono (execHeartbeat_touch u (show execHeartbeat m s = .next u from hu)) rfl

theorem exec_touch_spareHeartbeatRelay {domain s} : TouchOut 24519928653854221733733552434404946937899825954937634815 s (exec (.spareHeartbeatRelay domain) s) :=
  fun u hu => Touch.mono (execSpareHeartbeatRelay_touch u (show execSpareHeartbeatRelay domain s = .next u from hu)) rfl

theorem exec_touch_silenceSuspect {domain index s} : TouchOut 24519928653854221733733552434404946937899825954937634815 s (exec (.silenceSuspect domain index) s) :=
  fun u hu => Touch.mono (execSilenceSuspect_touch u (show execSilenceSuspect domain index s = .next u from hu)) rfl

theorem exec_touch_silenceSilent {domain index s} : TouchOut 24519928653854221733733552434404946937899825954937634815 s (exec (.silenceSilent domain index) s) :=
  fun u hu => Touch.mono (execSilenceSilent_touch u (show execSilenceSilent domain index s = .next u from hu)) rfl

theorem exec_touch_fenceTimeout {domain s} : TouchOut 24519928653854221733733552434404946937899825954937634815 s (exec (.fenceTimeout domain) s) :=
  fun u hu => Touch.mono (execFenceTimeout_touch u (show execFenceTimeout domain s = .next u from hu)) rfl

theorem exec_touch_suspect {m s} : TouchOut 24519928653854221733733552434404946937899825954937634815 s (exec (.suspect m) s) :=
  fun u hu => Touch.mono (execSuspect_touch u (show execSuspect m s = .next u from hu)) rfl

theorem exec_touch_silent {m s} : TouchOut 24519928653854221733733552434404946937899825954937634815 s (exec (.silent m) s) :=
  fun u hu => Touch.mono (execSilent_touch u (show execSilent m s = .next u from hu)) rfl

theorem exec_touch_evict {m s} : TouchOut 24519928653854221733733552434404946937899825954937634815 s (exec (.evict m) s) :=
  fun u hu => Touch.mono (execEvict_touch u (show execEvict m s = .next u from hu)) rfl

theorem exec_touch_prepare {m t s} : TouchOut 24519928653854221733733552434404946937899825954937634815 s (exec (.prepare m t) s) :=
  fun u hu => Touch.mono (execPrepare_touch u (show execPrepare m t s = .next u from hu)) rfl

theorem exec_touch_prepareExpiry {domain s} : TouchOut 24519928653854221733733552434404946937899825954937634815 s (exec (.prepareExpiry domain) s) :=
  fun u hu => Touch.mono (execPrepareExpiry_touch u (show execPrepareExpiry domain s = .next u from hu)) rfl

theorem exec_touch_stop {m s} : TouchOut 24519928653854221733733552434404946937899825954937634815 s (exec (.stop m) s) :=
  fun u hu => Touch.mono (execStop_touch u (show execStop m s = .next u from hu)) rfl

theorem exec_touch_stopped {m s} : TouchOut 24519928653854221733733552434404946937899825954937634815 s (exec (.stopped m) s) :=
  fun u hu => Touch.mono (execStopped_touch u (show execStopped m s = .next u from hu)) rfl

theorem exec_touch_rollback {m t s} : TouchOut 24519928653854221733733552434404946937899825954937634815 s (exec (.rollback m t) s) :=
  fun u hu => Touch.mono (execRollback_touch u (show execRollback m t s = .next u from hu)) rfl

theorem exec_touch_restoreReq {m s} : TouchOut 24519928653854221733733552434404946937899825954937634815 s (exec (.restoreReq m) s) :=
  fun u hu => Touch.mono (execRestoreReq_touch u (show execRestoreReq m s = .next u from hu)) rfl

theorem exec_touch_restoreGrain {m s} : TouchOut 24519928653854221733733552434404946937899825954937634815 s (exec (.restoreGrain m) s) :=
  fun u hu => Touch.mono (execRestoreGrain_touch u (show execRestoreGrain m s = .next u from hu)) rfl

theorem exec_touch_restoreMissing {m s} : TouchOut 24519928653854221733733552434404946937899825954937634815 s (exec (.restoreMissing m) s) :=
  fun u hu => Touch.mono (execRestoreMissing_touch u (show execRestoreMissing m s = .next u from hu)) rfl

theorem exec_touch_ready {m s} : TouchOut 24519928653854221733733552434404946937899825954937634815 s (exec (.ready m) s) :=
  fun u hu => Touch.mono (execReady_touch u (show execReady m s = .next u from hu)) rfl

theorem exec_touch_resume {m s} : TouchOut 24519928653854221733733552434404946937899825954937634815 s (exec (.resume m) s) :=
  fun u hu => Touch.mono (execResume_touch u (show execResume m s = .next u from hu)) rfl

theorem exec_touch_resumeTime {domain s} : TouchOut 24519928653854221733733552434404946937899825954937634815 s (exec (.resumeTime domain) s) :=
  fun u hu => Touch.mono (execResumeTime_touch u (show execResumeTime domain s = .next u from hu)) rfl

theorem exec_touch_recoveryFail {m s} : TouchOut 24519928653854221733733552434404946937899825954937634815 s (exec (.recoveryFail m) s) :=
  fun u hu => Touch.mono (execRecoveryFail_touch u (show execRecoveryFail m s = .next u from hu)) rfl

theorem exec_touch_coordinatorLostTimeout {domain s} : TouchOut 24519928653854221733733552434404946937899825954937634815 s (exec (.coordinatorLostTimeout domain) s) :=
  fun u hu => Touch.mono (execCoordinatorLostTimeout_touch u (show execCoordinatorLostTimeout domain s = .next u from hu)) rfl

theorem exec_touch_spareWaitTimeout {domain s} : TouchOut 24519928653854221733733552434404946937899825954937634815 s (exec (.spareWaitTimeout domain) s) :=
  fun u hu => Touch.mono (execSpareWaitTimeout_touch u (show execSpareWaitTimeout domain s = .next u from hu)) rfl

theorem exec_touch_recoveryLimitTimeout {domain s} : TouchOut 24519928653854221733733552434404946937899825954937634815 s (exec (.recoveryLimitTimeout domain) s) :=
  fun u hu => Touch.mono (execRecoveryLimitTimeout_touch u (show execRecoveryLimitTimeout domain s = .next u from hu)) rfl

theorem exec_touch_watchdogFire {service cause pc spareCore s} : TouchOut 24519928653854221733733552434404946937899825954937634815 s (exec (.watchdogFire service cause pc spareCore) s) :=
  fun u hu => Touch.mono (execWatchdogFire_touch u (show execWatchdogFire service cause pc spareCore s = .next u from hu)) rfl

theorem exec_touch_serviceRestartComplete {service s} : TouchOut 24519928653854221733733552434404946937899825954937634815 s (exec (.serviceRestartComplete service) s) :=
  fun u hu => Touch.mono (execServiceRestartComplete_touch u (show execServiceRestartComplete service s = .next u from hu)) rfl

theorem exec_touch_ethPortDown {port s} : TouchOut 24519928653854221733733552434404946937899825954937634815 s (exec (.ethPortDown port) s) :=
  fun u hu => Touch.mono (execEthPortDown_touch u (show execEthPortDown port s = .next u from hu)) rfl

theorem exec_touch_ddrUncorrectable {offset s} : TouchOut 24519928653854221733733552434404946937899825954937634815 s (exec (.ddrUncorrectable offset) s) :=
  fun u hu => Touch.mono (execDdrUncorrectable_touch u (show execDdrUncorrectable offset s = .next u from hu)) rfl

theorem exec_touch_cipherShadowMismatch {engine s} : TouchOut 24519928653854221733733552434404946937899825954937634815 s (exec (.cipherShadowMismatch engine) s) :=
  fun u hu => Touch.mono (execCipherShadowMismatch_touch u (show execCipherShadowMismatch engine s = .next u from hu)) rfl

theorem exec_touch_rosterGetReply {svc chunk total data s} : TouchOut 24519928653854221733733552434404946937899825954937634815 s (exec (.rosterGetReply svc chunk total data) s) :=
  fun u hu => Touch.mono (execRosterGetReply_touch u (show execRosterGetReply svc chunk total data s = .next u from hu)) rfl

theorem exec_touch_rosterChunkTimeout {chunk s} : TouchOut 24519928653854221733733552434404946937899825954937634815 s (exec (.rosterChunkTimeout chunk) s) :=
  fun u hu => Touch.mono (execRosterChunkTimeout_touch u (show execRosterChunkTimeout chunk s = .next u from hu)) rfl

theorem exec_touch_rosterRetryTimer { s} : TouchOut 24519928653854221733733552434404946937899825954937634815 s (exec (.rosterRetryTimer) s) :=
  fun u hu => Touch.mono (execRosterRetryTimer_touch u (show execRosterRetryTimer s = .next u from hu)) rfl

theorem exec_touch_rosterRefetch { s} : TouchOut 24519928653854221733733552434404946937899825954937634815 s (exec (.rosterRefetch) s) :=
  fun u hu => Touch.mono (execRosterRefetch_touch u (show execRosterRefetch s = .next u from hu)) rfl

theorem exec_touch_bringupPhaseDeadline { s} : TouchOut 24519928653854221733733552434404946937899825954937634815 s (exec (.bringupPhaseDeadline) s) :=
  fun u hu => Touch.mono (execBringupPhaseDeadline_touch u (show execBringupPhaseDeadline s = .next u from hu)) rfl

theorem exec_touch_checkin {m s} : TouchOut 24519928653854221733733552434404946937899825954937634815 s (exec (.checkin m) s) :=
  fun u hu => Touch.mono (execCheckin_touch u (show execCheckin m s = .next u from hu)) rfl

theorem exec_touch_rosterFinalDeadline { s} : TouchOut 24519928653854221733733552434404946937899825954937634815 s (exec (.rosterFinalDeadline) s) :=
  fun u hu => Touch.mono (execRosterFinalDeadline_touch u (show execRosterFinalDeadline s = .next u from hu)) rfl

theorem exec_touch_rosterFinalMissing { s} : TouchOut 24519928653854221733733552434404946937899825954937634815 s (exec (.rosterFinalMissing) s) :=
  fun u hu => Touch.mono (execRosterFinalMissing_touch u (show execRosterFinalMissing s = .next u from hu)) rfl

theorem exec_touch_rosterFinal {m s} : TouchOut 24519928653854221733733552434404946937899825954937634815 s (exec (.rosterFinal m) s) :=
  fun u hu => Touch.mono (execRosterFinal_touch u (show execRosterFinal m s = .next u from hu)) rfl

theorem exec_touch_hello {m s} : TouchOut 24519928653854221733733552434404946937899825954937634815 s (exec (.hello m) s) :=
  fun u hu => Touch.mono (execHello_touch u (show execHello m s = .next u from hu)) rfl

theorem exec_touch_helloAck {m s} : TouchOut 24519928653854221733733552434404946937899825954937634815 s (exec (.helloAck m) s) :=
  fun u hu => Touch.mono (execHelloAck_touch u (show execHelloAck m s = .next u from hu)) rfl

theorem exec_touch_helloTimeout {index s} : TouchOut 24519928653854221733733552434404946937899825954937634815 s (exec (.helloTimeout index) s) :=
  fun u hu => Touch.mono (execHelloTimeout_touch u (show execHelloTimeout index s = .next u from hu)) rfl

theorem exec_touch_noAnswer {m s} : TouchOut 24519928653854221733733552434404946937899825954937634815 s (exec (.noAnswer m) s) :=
  fun u hu => Touch.mono (execNoAnswer_touch u (show execNoAnswer m s = .next u from hu)) rfl

theorem exec_touch_barrier {m s} : TouchOut 24519928653854221733733552434404946937899825954937634815 s (exec (.barrier m) s) :=
  fun u hu => Touch.mono (execBarrier_touch u (show execBarrier m s = .next u from hu)) rfl

theorem exec_touch_barrierChildDeadline {child s} : TouchOut 24519928653854221733733552434404946937899825954937634815 s (exec (.barrierChildDeadline child) s) :=
  fun u hu => Touch.mono (execBarrierChildDeadline_touch u (show execBarrierChildDeadline child s = .next u from hu)) rfl

theorem exec_touch_bringupTimeout { s} : TouchOut 24519928653854221733733552434404946937899825954937634815 s (exec (.bringupTimeout) s) :=
  fun u hu => Touch.mono (execBringupTimeout_touch u (show execBringupTimeout s = .next u from hu)) rfl

theorem exec_touch_jobReady {m s} : TouchOut 24519928653854221733733552434404946937899825954937634815 s (exec (.jobReady m) s) :=
  fun u hu => Touch.mono (execJobReady_touch u (show execJobReady m s = .next u from hu)) rfl

theorem exec_touch_jobReadyTime { s} : TouchOut 24519928653854221733733552434404946937899825954937634815 s (exec (.jobReadyTime) s) :=
  fun u hu => Touch.mono (execJobReadyTime_touch u (show execJobReadyTime s = .next u from hu)) rfl

theorem exec_touch_bringupFail {m s} : TouchOut 24519928653854221733733552434404946937899825954937634815 s (exec (.bringupFail m) s) :=
  fun u hu => Touch.mono (execBringupFail_touch u (show execBringupFail m s = .next u from hu)) rfl

theorem exec_touch_bringupRestart {c s} : TouchOut 24519928653854221733733552434404946937899825954937634815 s (exec (.bringupRestart c) s) :=
  fun u hu => Touch.mono (execBringupRestart_touch u (show execBringupRestart c s = .next u from hu)) rfl

theorem exec_touch_hostWindowMap {c q s} : TouchOut 24519928653854221733733552434404946937899825954937634815 s (exec (.hostWindowMap c q) s) :=
  fun u hu => Touch.mono (execHostWindowMap_touch u (show execHostWindowMap c q s = .next u from hu)) rfl

theorem exec_touch_hostWindowUnmap {c array s} : TouchOut 24519928653854221733733552434404946937899825954937634815 s (exec (.hostWindowUnmap c array) s) :=
  fun u hu => Touch.mono (execHostWindowUnmap_touch u (show execHostWindowUnmap c array s = .next u from hu)) rfl

theorem exec_touch_apertureSet {c sub base len s} : TouchOut 24519928653854221733733552434404946937899825954937634815 s (exec (.apertureSet c sub base len) s) :=
  fun u hu => Touch.mono (execApertureSet_touch u (show execApertureSet c sub base len s = .next u from hu)) rfl

theorem exec_touch_ownedReset {c sub s} : TouchOut 24519928653854221733733552434404946937899825954937634815 s (exec (.ownedReset c sub) s) :=
  fun u hu => Touch.mono (execOwnedReset_touch u (show execOwnedReset c sub s = .next u from hu)) rfl

theorem exec_touch_ownedEnumerate {c sub s} : TouchOut 24519928653854221733733552434404946937899825954937634815 s (exec (.ownedEnumerate c sub) s) :=
  fun u hu => Touch.mono (execOwnedEnumerate_touch u (show execOwnedEnumerate c sub s = .next u from hu)) rfl

theorem exec_touch_rpCtoSet {c port cto s} : TouchOut 24519928653854221733733552434404946937899825954937634815 s (exec (.rpCtoSet c port cto) s) :=
  fun u hu => Touch.mono (execRpCtoSet_touch u (show execRpCtoSet c port cto s = .next u from hu)) rfl

theorem exec_touch_sliceCreate {c q s} : TouchOut 24519928653854221733733552434404946937899825954937634815 s (exec (.sliceCreate c q) s) :=
  fun u hu => Touch.mono (execSliceCreate_touch u (show execSliceCreate c q s = .next u from hu)) rfl

theorem exec_touch_sliceDestroy {c n force s} : TouchOut 24519928653854221733733552434404946937899825954937634815 s (exec (.sliceDestroy c n force) s) :=
  fun u hu => Touch.mono (execSliceDestroy_touch u (show execSliceDestroy c n force s = .next u from hu)) rfl

theorem exec_touch_sliceDestroyComplete {n s} : TouchOut 24519928653854221733733552434404946937899825954937634815 s (exec (.sliceDestroyComplete n) s) :=
  fun u hu => Touch.mono (execSliceDestroyComplete_touch u (show execSliceDestroyComplete n s = .next u from hu)) rfl

theorem exec_touch_sliceReset {c n s} : TouchOut 24519928653854221733733552434404946937899825954937634815 s (exec (.sliceReset c n) s) :=
  fun u hu => Touch.mono (execSliceReset_touch u (show execSliceReset c n s = .next u from hu)) rfl

theorem exec_touch_slcReset {n v s} : TouchOut 24519928653854221733733552434404946937899825954937634815 s (exec (.slcReset n v) s) :=
  fun u hu => Touch.mono (execSlcReset_touch u (show execSlcReset n v s = .next u from hu)) rfl

theorem exec_touch_sliceResetComplete {n s} : TouchOut 24519928653854221733733552434404946937899825954937634815 s (exec (.sliceResetComplete n) s) :=
  fun u hu => Touch.mono (execSliceResetComplete_touch u (show execSliceResetComplete n s = .next u from hu)) rfl

theorem exec_touch_irqEntrySet {c q s} : TouchOut 24519928653854221733733552434404946937899825954937634815 s (exec (.irqEntrySet c q) s) :=
  fun u hu => Touch.mono (execIrqEntrySet_touch u (show execIrqEntrySet c q s = .next u from hu)) rfl

theorem exec_touch_vrmtInit {c q s} : TouchOut 24519928653854221733733552434404946937899825954937634815 s (exec (.vrmtInit c q) s) :=
  fun u hu => Touch.mono (execVrmtInit_touch u (show execVrmtInit c q s = .next u from hu)) rfl

theorem exec_touch_ownAddressSet {c addrs s} : TouchOut 24519928653854221733733552434404946937899825954937634815 s (exec (.ownAddressSet c addrs) s) :=
  fun u hu => Touch.mono (execOwnAddressSet_touch u (show execOwnAddressSet c addrs s = .next u from hu)) rfl

theorem exec_touch_sliceQueueSet {c slice queue s} : TouchOut 24519928653854221733733552434404946937899825954937634815 s (exec (.sliceQueueSet c slice queue) s) :=
  fun u hu => Touch.mono (execSliceQueueSet_touch u (show execSliceQueueSet c slice queue s = .next u from hu)) rfl

theorem exec_touch_vrmtCommandDoorbell {slice v s} : TouchOut 24519928653854221733733552434404946937899825954937634815 s (exec (.vrmtCommandDoorbell slice v) s) :=
  fun u hu => Touch.mono (execVrmtCommandDoorbell_touch u (show execVrmtCommandDoorbell slice v s = .next u from hu)) rfl

theorem exec_touch_cqCreate {slice cq ring space log2 irq tag s} : TouchOut 24519928653854221733733552434404946937899825954937634815 s (exec (.cqCreate slice cq ring space log2 irq tag) s) :=
  fun u hu => Touch.mono (execCqCreate_touch u (show execCqCreate slice cq ring space log2 irq tag s = .next u from hu)) rfl

theorem exec_touch_cqDestroy {slice cq tag s} : TouchOut 24519928653854221733733552434404946937899825954937634815 s (exec (.cqDestroy slice cq tag) s) :=
  fun u hu => Touch.mono (execCqDestroy_touch u (show execCqDestroy slice cq tag s = .next u from hu)) rfl

theorem exec_touch_connCreate {slice q tag s} : TouchOut 24519928653854221733733552434404946937899825954937634815 s (exec (.connCreate slice q tag) s) :=
  fun u hu => Touch.mono (execConnCreate_touch u (show execConnCreate slice q tag s = .next u from hu)) rfl

theorem exec_touch_connConnect {slice q tag s} : TouchOut 24519928653854221733733552434404946937899825954937634815 s (exec (.connConnect slice q tag) s) :=
  fun u hu => Touch.mono (execConnConnect_touch u (show execConnConnect slice q tag s = .next u from hu)) rfl

theorem exec_touch_connDestroy {slice cn tag s} : TouchOut 24519928653854221733733552434404946937899825954937634815 s (exec (.connDestroy slice cn tag) s) :=
  fun u hu => Touch.mono (execConnDestroy_touch u (show execConnDestroy slice cn tag s = .next u from hu)) rfl

theorem exec_touch_keyRegister {slice space rights tag s} : TouchOut 24519928653854221733733552434404946937899825954937634815 s (exec (.keyRegister slice space rights tag) s) :=
  fun u hu => Touch.mono (execKeyRegister_touch u (show execKeyRegister slice space rights tag s = .next u from hu)) rfl

theorem exec_touch_keyRevoke {slice key tag s} : TouchOut 24519928653854221733733552434404946937899825954937634815 s (exec (.keyRevoke slice key tag) s) :=
  fun u hu => Touch.mono (execKeyRevoke_touch u (show execKeyRevoke slice key tag s = .next u from hu)) rfl

theorem exec_touch_keyDrainLimit {key s} : TouchOut 24519928653854221733733552434404946937899825954937634815 s (exec (.keyDrainLimit key) s) :=
  fun u hu => Touch.mono (execKeyDrainLimit_touch u (show execKeyDrainLimit key s = .next u from hu)) rfl

theorem exec_touch_keyDead {key s} : TouchOut 24519928653854221733733552434404946937899825954937634815 s (exec (.keyDead key) s) :=
  fun u hu => Touch.mono (execKeyDead_touch u (show execKeyDead key s = .next u from hu)) rfl

theorem exec_touch_vrmtConnDoorbell {slice v s} : TouchOut 24519928653854221733733552434404946937899825954937634815 s (exec (.vrmtConnDoorbell slice v) s) :=
  fun u hu => Touch.mono (execVrmtConnDoorbell_touch u (show execVrmtConnDoorbell slice v s = .next u from hu)) rfl

theorem exec_touch_vrmtCqDoorbell {slice v s} : TouchOut 24519928653854221733733552434404946937899825954937634815 s (exec (.vrmtCqDoorbell slice v) s) :=
  fun u hu => Touch.mono (execVrmtCqDoorbell_touch u (show execVrmtCqDoorbell slice v s = .next u from hu)) rfl

theorem exec_touch_wrWrite {cn s} : TouchOut 24519928653854221733733552434404946937899825954937634815 s (exec (.wrWrite cn) s) :=
  fun u hu => Touch.mono (execWrWrite_touch u (show execWrWrite cn s = .next u from hu)) rfl

theorem exec_touch_wrWriteImm {cn s} : TouchOut 24519928653854221733733552434404946937899825954937634815 s (exec (.wrWriteImm cn) s) :=
  fun u hu => Touch.mono (execWrWriteImm_touch u (show execWrWriteImm cn s = .next u from hu)) rfl

theorem exec_touch_wrSend {cn s} : TouchOut 24519928653854221733733552434404946937899825954937634815 s (exec (.wrSend cn) s) :=
  fun u hu => Touch.mono (execWrSend_touch u (show execWrSend cn s = .next u from hu)) rfl

theorem exec_touch_wrSendImm {cn s} : TouchOut 24519928653854221733733552434404946937899825954937634815 s (exec (.wrSendImm cn) s) :=
  fun u hu => Touch.mono (execWrSendImm_touch u (show execWrSendImm cn s = .next u from hu)) rfl

theorem exec_touch_wrRead {cn s} : TouchOut 24519928653854221733733552434404946937899825954937634815 s (exec (.wrRead cn) s) :=
  fun u hu => Touch.mono (execWrRead_touch u (show execWrRead cn s = .next u from hu)) rfl

theorem exec_touch_vrmtWritePacket {p s} : TouchOut 24519928653854221733733552434404946937899825954937634815 s (exec (.vrmtWritePacket p) s) :=
  fun u hu => Touch.mono (execVrmtWritePacket_touch u (show execVrmtWritePacket p s = .next u from hu)) rfl

theorem exec_touch_vrmtSendPacket {p s} : TouchOut 24519928653854221733733552434404946937899825954937634815 s (exec (.vrmtSendPacket p) s) :=
  fun u hu => Touch.mono (execVrmtSendPacket_touch u (show execVrmtSendPacket p s = .next u from hu)) rfl

theorem exec_touch_vrmtReadReq {p s} : TouchOut 24519928653854221733733552434404946937899825954937634815 s (exec (.vrmtReadReq p) s) :=
  fun u hu => Touch.mono (execVrmtReadReq_touch u (show execVrmtReadReq p s = .next u from hu)) rfl

theorem exec_touch_vrmtReadResp {p s} : TouchOut 24519928653854221733733552434404946937899825954937634815 s (exec (.vrmtReadResp p) s) :=
  fun u hu => Touch.mono (execVrmtReadResp_touch u (show execVrmtReadResp p s = .next u from hu)) rfl

theorem exec_touch_vrmtAck {p s} : TouchOut 24519928653854221733733552434404946937899825954937634815 s (exec (.vrmtAck p) s) :=
  fun u hu => Touch.mono (execVrmtAck_touch u (show execVrmtAck p s = .next u from hu)) rfl

theorem exec_touch_vrmtNak {p s} : TouchOut 24519928653854221733733552434404946937899825954937634815 s (exec (.vrmtNak p) s) :=
  fun u hu => Touch.mono (execVrmtNak_touch u (show execVrmtNak p s = .next u from hu)) rfl

theorem exec_touch_vrmtMsgAbort {p status s} : TouchOut 24519928653854221733733552434404946937899825954937634815 s (exec (.vrmtMsgAbort p status) s) :=
  fun u hu => Touch.mono (execVrmtMsgAbort_touch u (show execVrmtMsgAbort p status s = .next u from hu)) rfl

theorem exec_touch_ackDelayTimer {cn s} : TouchOut 24519928653854221733733552434404946937899825954937634815 s (exec (.ackDelayTimer cn) s) :=
  fun u hu => Touch.mono (execAckDelayTimer_touch u (show execAckDelayTimer cn s = .next u from hu)) rfl

theorem exec_touch_retransmitTimeout {cn psn s} : TouchOut 24519928653854221733733552434404946937899825954937634815 s (exec (.retransmitTimeout cn psn) s) :=
  fun u hu => Touch.mono (execRetransmitTimeout_touch u (show execRetransmitTimeout cn psn s = .next u from hu)) rfl

theorem exec_touch_pathRestore {cn path s} : TouchOut 24519928653854221733733552434404946937899825954937634815 s (exec (.pathRestore cn path) s) :=
  fun u hu => Touch.mono (execPathRestore_touch u (show execPathRestore cn path s = .next u from hu)) rfl

theorem exec_touch_messageIncompleteNak {cn msn s} : TouchOut 24519928653854221733733552434404946937899825954937634815 s (exec (.messageIncompleteNak cn msn) s) :=
  fun u hu => Touch.mono (execMessageIncompleteNak_touch u (show execMessageIncompleteNak cn msn s = .next u from hu)) rfl

theorem exec_touch_connPeerTimeout {cn s} : TouchOut 24519928653854221733733552434404946937899825954937634815 s (exec (.connPeerTimeout cn) s) :=
  fun u hu => Touch.mono (execConnPeerTimeout_touch u (show execConnPeerTimeout cn s = .next u from hu)) rfl

theorem exec_touch_rnrRetry {cn msn s} : TouchOut 24519928653854221733733552434404946937899825954937634815 s (exec (.rnrRetry cn msn) s) :=
  fun u hu => Touch.mono (execRnrRetry_touch u (show execRnrRetry cn msn s = .next u from hu)) rfl

theorem exec_touch_ccCutTimer {cn s} : TouchOut 24519928653854221733733552434404946937899825954937634815 s (exec (.ccCutTimer cn) s) :=
  fun u hu => Touch.mono (execCcCutTimer_touch u (show execCcCutTimer cn s = .next u from hu)) rfl

theorem exec_touch_ccIncreaseTimer {cn s} : TouchOut 24519928653854221733733552434404946937899825954937634815 s (exec (.ccIncreaseTimer cn) s) :=
  fun u hu => Touch.mono (execCcIncreaseTimer_touch u (show execCcIncreaseTimer cn s = .next u from hu)) rfl

theorem exec_touch_contextFetchComplete {cn ok s} : TouchOut 24519928653854221733733552434404946937899825954937634815 s (exec (.contextFetchComplete cn ok) s) :=
  fun u hu => Touch.mono (execContextFetchComplete_touch u (show execContextFetchComplete cn ok s = .next u from hu)) rfl

theorem exec_touch_frameReceive {port bytes phyError fcsOk secured s} : TouchOut 24519928653854221733733552434404946937899825954937634815 s (exec (.frameReceive port bytes phyError fcsOk secured) s) :=
  fun u hu => Touch.mono (execFrameReceive_touch u (show execFrameReceive port bytes phyError fcsOk secured s = .next u from hu)) rfl

theorem exec_touch_secondPour { s} : TouchOut 24519928653854221733733552434404946937899825954937634815 s (exec (.secondPour) s) :=
  fun u hu => Touch.mono (execSecondPour_touch u (show execSecondPour s = .next u from hu)) rfl

theorem exec_touch_slowPathFrame { s} : TouchOut 24519928653854221733733552434404946937899825954937634815 s (exec (.slowPathFrame) s) :=
  fun u hu => Touch.mono (execSlowPathFrame_touch u (show execSlowPathFrame s = .next u from hu)) rfl

theorem exec_touch_ruleWrite {idx s} : TouchOut 24519928653854221733733552434404946937899825954937634815 s (exec (.ruleWrite idx) s) :=
  fun u hu => Touch.mono (execRuleWrite_touch u (show execRuleWrite idx s = .next u from hu)) rfl

theorem exec_touch_ruleInvalidate {idx s} : TouchOut 24519928653854221733733552434404946937899825954937634815 s (exec (.ruleInvalidate idx) s) :=
  fun u hu => Touch.mono (execRuleInvalidate_touch u (show execRuleInvalidate idx s = .next u from hu)) rfl

theorem exec_touch_ruleRead {idx s} : TouchOut 24519928653854221733733552434404946937899825954937634815 s (exec (.ruleRead idx) s) :=
  fun u hu => Touch.mono (execRuleRead_touch u (show execRuleRead idx s = .next u from hu)) rfl

theorem exec_touch_pktQueueCreate {c q s} : TouchOut 24519928653854221733733552434404946937899825954937634815 s (exec (.pktQueueCreate c q) s) :=
  fun u hu => Touch.mono (execPktQueueCreate_touch u (show execPktQueueCreate c q s = .next u from hu)) rfl

theorem exec_touch_pktQueueDestroy {c tx n s} : TouchOut 24519928653854221733733552434404946937899825954937634815 s (exec (.pktQueueDestroy c tx n) s) :=
  fun u hu => Touch.mono (execPktQueueDestroy_touch u (show execPktQueueDestroy c tx n s = .next u from hu)) rfl

theorem exec_touch_portRestart {c port s} : TouchOut 24519928653854221733733552434404946937899825954937634815 s (exec (.portRestart c port) s) :=
  fun u hu => Touch.mono (execPortRestart_touch u (show execPortRestart c port s = .next u from hu)) rfl

theorem exec_touch_pktRxqDoorbell {n head v s} : TouchOut 24519928653854221733733552434404946937899825954937634815 s (exec (.pktRxqDoorbell n head v) s) :=
  fun u hu => Touch.mono (execPktRxqDoorbell_touch u (show execPktRxqDoorbell n head v s = .next u from hu)) rfl

theorem exec_touch_pktTxqDoorbell {n head v s} : TouchOut 24519928653854221733733552434404946937899825954937634815 s (exec (.pktTxqDoorbell n head v) s) :=
  fun u hu => Touch.mono (execPktTxqDoorbell_touch u (show execPktTxqDoorbell n head v s = .next u from hu)) rfl

theorem exec_touch_txScheduleStart {port s} : TouchOut 24519928653854221733733552434404946937899825954937634815 s (exec (.txScheduleStart port) s) :=
  fun u hu => Touch.mono (execTxScheduleStart_touch u (show execTxScheduleStart port s = .next u from hu)) rfl

theorem exec_touch_txFrameComplete {port s} : TouchOut 24519928653854221733733552434404946937899825954937634815 s (exec (.txFrameComplete port) s) :=
  fun u hu => Touch.mono (execTxFrameComplete_touch u (show execTxFrameComplete port s = .next u from hu)) rfl

theorem exec_touch_shaperRefill { s} : TouchOut 24519928653854221733733552434404946937899825954937634815 s (exec (.shaperRefill) s) :=
  fun u hu => Touch.mono (execShaperRefill_touch u (show execShaperRefill s = .next u from hu)) rfl

theorem exec_touch_nvmeSqTailDoorbell {ctrl y v s} : TouchOut 24519928653854221733733552434404946937899825954937634815 s (exec (.nvmeSqTailDoorbell ctrl y v) s) :=
  fun u hu => Touch.mono (execNvmeSqTailDoorbell_touch u (show execNvmeSqTailDoorbell ctrl y v s = .next u from hu)) rfl

theorem exec_touch_nvmeCqHeadDoorbell {ctrl y v s} : TouchOut 24519928653854221733733552434404946937899825954937634815 s (exec (.nvmeCqHeadDoorbell ctrl y v) s) :=
  fun u hu => Touch.mono (execNvmeCqHeadDoorbell_touch u (show execNvmeCqHeadDoorbell ctrl y v s = .next u from hu)) rfl

theorem exec_touch_nvmeCcEnable {ctrl cc s} : TouchOut 24519928653854221733733552434404946937899825954937634815 s (exec (.nvmeCcEnable ctrl cc) s) :=
  fun u hu => Touch.mono (execNvmeCcEnable_touch u (show execNvmeCcEnable ctrl cc s = .next u from hu)) rfl

theorem exec_touch_nvmeCcDisable {ctrl cc s} : TouchOut 24519928653854221733733552434404946937899825954937634815 s (exec (.nvmeCcDisable ctrl cc) s) :=
  fun u hu => Touch.mono (execNvmeCcDisable_touch u (show execNvmeCcDisable ctrl cc s = .next u from hu)) rfl

theorem exec_touch_nvmeCcShutdown {ctrl cc s} : TouchOut 24519928653854221733733552434404946937899825954937634815 s (exec (.nvmeCcShutdown ctrl cc) s) :=
  fun u hu => Touch.mono (execNvmeCcShutdown_touch u (show execNvmeCcShutdown ctrl cc s = .next u from hu)) rfl

theorem exec_touch_nvmeCreateIoSq {ctrl cmd s} : TouchOut 24519928653854221733733552434404946937899825954937634815 s (exec (.nvmeCreateIoSq ctrl cmd) s) :=
  fun u hu => Touch.mono (execNvmeCreateIoSq_touch u (show execNvmeCreateIoSq ctrl cmd s = .next u from hu)) rfl

theorem exec_touch_nvmeDeleteIoSq {ctrl cmd s} : TouchOut 24519928653854221733733552434404946937899825954937634815 s (exec (.nvmeDeleteIoSq ctrl cmd) s) :=
  fun u hu => Touch.mono (execNvmeDeleteIoSq_touch u (show execNvmeDeleteIoSq ctrl cmd s = .next u from hu)) rfl

theorem exec_touch_nvmeCreateIoCq {ctrl cmd s} : TouchOut 24519928653854221733733552434404946937899825954937634815 s (exec (.nvmeCreateIoCq ctrl cmd) s) :=
  fun u hu => Touch.mono (execNvmeCreateIoCq_touch u (show execNvmeCreateIoCq ctrl cmd s = .next u from hu)) rfl

theorem exec_touch_nvmeDeleteIoCq {ctrl cmd s} : TouchOut 24519928653854221733733552434404946937899825954937634815 s (exec (.nvmeDeleteIoCq ctrl cmd) s) :=
  fun u hu => Touch.mono (execNvmeDeleteIoCq_touch u (show execNvmeDeleteIoCq ctrl cmd s = .next u from hu)) rfl

theorem exec_touch_nvmeGetLogPage {ctrl cmd s} : TouchOut 24519928653854221733733552434404946937899825954937634815 s (exec (.nvmeGetLogPage ctrl cmd) s) :=
  fun u hu => Touch.mono (execNvmeGetLogPage_touch u (show execNvmeGetLogPage ctrl cmd s = .next u from hu)) rfl

theorem exec_touch_nvmeIdentify {ctrl cmd s} : TouchOut 24519928653854221733733552434404946937899825954937634815 s (exec (.nvmeIdentify ctrl cmd) s) :=
  fun u hu => Touch.mono (execNvmeIdentify_touch u (show execNvmeIdentify ctrl cmd s = .next u from hu)) rfl

theorem exec_touch_nvmeAbort {ctrl cmd s} : TouchOut 24519928653854221733733552434404946937899825954937634815 s (exec (.nvmeAbort ctrl cmd) s) :=
  fun u hu => Touch.mono (execNvmeAbort_touch u (show execNvmeAbort ctrl cmd s = .next u from hu)) rfl

theorem exec_touch_nvmeSetFeatures {ctrl cmd s} : TouchOut 24519928653854221733733552434404946937899825954937634815 s (exec (.nvmeSetFeatures ctrl cmd) s) :=
  fun u hu => Touch.mono (execNvmeSetFeatures_touch u (show execNvmeSetFeatures ctrl cmd s = .next u from hu)) rfl

theorem exec_touch_nvmeGetFeatures {ctrl cmd s} : TouchOut 24519928653854221733733552434404946937899825954937634815 s (exec (.nvmeGetFeatures ctrl cmd) s) :=
  fun u hu => Touch.mono (execNvmeGetFeatures_touch u (show execNvmeGetFeatures ctrl cmd s = .next u from hu)) rfl

theorem exec_touch_nvmeAsyncEventRequest {ctrl cmd s} : TouchOut 24519928653854221733733552434404946937899825954937634815 s (exec (.nvmeAsyncEventRequest ctrl cmd) s) :=
  fun u hu => Touch.mono (execNvmeAsyncEventRequest_touch u (show execNvmeAsyncEventRequest ctrl cmd s = .next u from hu)) rfl

theorem exec_touch_nvmeRead {ctrl sq cmd s} : TouchOut 24519928653854221733733552434404946937899825954937634815 s (exec (.nvmeRead ctrl sq cmd) s) :=
  fun u hu => Touch.mono (execNvmeRead_touch u (show execNvmeRead ctrl sq cmd s = .next u from hu)) rfl

theorem exec_touch_nvmeWrite {ctrl sq cmd s} : TouchOut 24519928653854221733733552434404946937899825954937634815 s (exec (.nvmeWrite ctrl sq cmd) s) :=
  fun u hu => Touch.mono (execNvmeWrite_touch u (show execNvmeWrite ctrl sq cmd s = .next u from hu)) rfl

theorem exec_touch_nvmeWriteZeroes {ctrl sq cmd s} : TouchOut 24519928653854221733733552434404946937899825954937634815 s (exec (.nvmeWriteZeroes ctrl sq cmd) s) :=
  fun u hu => Touch.mono (execNvmeWriteZeroes_touch u (show execNvmeWriteZeroes ctrl sq cmd s = .next u from hu)) rfl

theorem exec_touch_nvmeDatasetManagement {ctrl sq cmd s} : TouchOut 24519928653854221733733552434404946937899825954937634815 s (exec (.nvmeDatasetManagement ctrl sq cmd) s) :=
  fun u hu => Touch.mono (execNvmeDatasetManagement_touch u (show execNvmeDatasetManagement ctrl sq cmd s = .next u from hu)) rfl

theorem exec_touch_nvmeFlush {ctrl sq cmd s} : TouchOut 24519928653854221733733552434404946937899825954937634815 s (exec (.nvmeFlush ctrl sq cmd) s) :=
  fun u hu => Touch.mono (execNvmeFlush_touch u (show execNvmeFlush ctrl sq cmd s = .next u from hu)) rfl

theorem exec_touch_journalEntrySealed {entry s} : TouchOut 24519928653854221733733552434404946937899825954937634815 s (exec (.journalEntrySealed entry) s) :=
  fun u hu => Touch.mono (execJournalEntrySealed_touch u (show execJournalEntrySealed entry s = .next u from hu)) rfl

theorem exec_touch_destageComplete {entry s} : TouchOut 24519928653854221733733552434404946937899825954937634815 s (exec (.destageComplete entry) s) :=
  fun u hu => Touch.mono (execDestageComplete_touch u (show execDestageComplete entry s = .next u from hu)) rfl

theorem exec_touch_backingTimeout {nsid s} : TouchOut 24519928653854221733733552434404946937899825954937634815 s (exec (.backingTimeout nsid) s) :=
  fun u hu => Touch.mono (execBackingTimeout_touch u (show execBackingTimeout nsid s = .next u from hu)) rfl

theorem exec_touch_backingRecovered {nsid s} : TouchOut 24519928653854221733733552434404946937899825954937634815 s (exec (.backingRecovered nsid) s) :=
  fun u hu => Touch.mono (execBackingRecovered_touch u (show execBackingRecovered nsid s = .next u from hu)) rfl

theorem exec_touch_journalReplay { s} : TouchOut 24519928653854221733733552434404946937899825954937634815 s (exec (.journalReplay) s) :=
  fun u hu => Touch.mono (execJournalReplay_touch u (show execJournalReplay s = .next u from hu)) rfl

theorem exec_touch_nsCreate {c q s} : TouchOut 24519928653854221733733552434404946937899825954937634815 s (exec (.nsCreate c q) s) :=
  fun u hu => Touch.mono (execNsCreate_touch u (show execNsCreate c q s = .next u from hu)) rfl

theorem exec_touch_nsDestroy {c nsid s} : TouchOut 24519928653854221733733552434404946937899825954937634815 s (exec (.nsDestroy c nsid) s) :=
  fun u hu => Touch.mono (execNsDestroy_touch u (show execNsDestroy c nsid s = .next u from hu)) rfl

theorem exec_touch_nsAttach {c nsid ctrl s} : TouchOut 24519928653854221733733552434404946937899825954937634815 s (exec (.nsAttach c nsid ctrl) s) :=
  fun u hu => Touch.mono (execNsAttach_touch u (show execNsAttach c nsid ctrl s = .next u from hu)) rfl

theorem exec_touch_nsDetach {c nsid ctrl s} : TouchOut 24519928653854221733733552434404946937899825954937634815 s (exec (.nsDetach c nsid ctrl) s) :=
  fun u hu => Touch.mono (execNsDetach_touch u (show execNsDetach c nsid ctrl s = .next u from hu)) rfl

theorem exec_touch_targetRegister {c entry addr s} : TouchOut 24519928653854221733733552434404946937899825954937634815 s (exec (.targetRegister c entry addr) s) :=
  fun u hu => Touch.mono (execTargetRegister_touch u (show execTargetRegister c entry addr s = .next u from hu)) rfl

theorem exec_touch_nsExport {c nsid peers s} : TouchOut 24519928653854221733733552434404946937899825954937634815 s (exec (.nsExport c nsid peers) s) :=
  fun u hu => Touch.mono (execNsExport_touch u (show execNsExport c nsid peers s = .next u from hu)) rfl

theorem exec_touch_accelCtrlCreate {c sub cplAddr cplData qpairs s} : TouchOut 24519928653854221733733552434404946937899825954937634815 s (exec (.accelCtrlCreate c sub cplAddr cplData qpairs) s) :=
  fun u hu => Touch.mono (execAccelCtrlCreate_touch u (show execAccelCtrlCreate c sub cplAddr cplData qpairs s = .next u from hu)) rfl

theorem exec_touch_islandSelftestComplete {r s} : TouchOut 24519928653854221733733552434404946937899825954937634815 s (exec (.islandSelftestComplete r) s) :=
  fun u hu => Touch.mono (execIslandSelftestComplete_touch u (show execIslandSelftestComplete r s = .next u from hu)) rfl

theorem exec_touch_firmwareVerify {results bundle s} : TouchOut 24519928653854221733733552434404946937899825954937634815 s (exec (.firmwareVerify results bundle) s) :=
  fun u hu => Touch.mono (execFirmwareVerify_touch u (show execFirmwareVerify results bundle s = .next u from hu)) rfl

theorem exec_touch_keyAlloc {c count s} : TouchOut 24519928653854221733733552434404946937899825954937634815 s (exec (.keyAlloc c count) s) :=
  fun u hu => Touch.mono (execKeyAlloc_touch u (show execKeyAlloc c count s = .next u from hu)) rfl

theorem exec_touch_keyGenerate {c slot mode limit exportable persistent s} : TouchOut 24519928653854221733733552434404946937899825954937634815 s (exec (.keyGenerate c slot mode limit exportable persistent) s) :=
  fun u hu => Touch.mono (execKeyGenerate_touch u (show execKeyGenerate c slot mode limit exportable persistent s = .next u from hu)) rfl

theorem exec_touch_keyAgree {c pub s} : TouchOut 24519928653854221733733552434404946937899825954937634815 s (exec (.keyAgree c pub) s) :=
  fun u hu => Touch.mono (execKeyAgree_touch u (show execKeyAgree c pub s = .next u from hu)) rfl

theorem exec_touch_keyImport {c slot mode limit transport blob s} : TouchOut 24519928653854221733733552434404946937899825954937634815 s (exec (.keyImport c slot mode limit transport blob) s) :=
  fun u hu => Touch.mono (execKeyImport_touch u (show execKeyImport c slot mode limit transport blob s = .next u from hu)) rfl

theorem exec_touch_keyExport {c slot transport s} : TouchOut 24519928653854221733733552434404946937899825954937634815 s (exec (.keyExport c slot transport) s) :=
  fun u hu => Touch.mono (execKeyExport_touch u (show execKeyExport c slot transport s = .next u from hu)) rfl

theorem exec_touch_keyZeroize {c slot s} : TouchOut 24519928653854221733733552434404946937899825954937634815 s (exec (.keyZeroize c slot) s) :=
  fun u hu => Touch.mono (execKeyZeroize_touch u (show execKeyZeroize c slot s = .next u from hu)) rfl

theorem exec_touch_keyQuery {c slot s} : TouchOut 24519928653854221733733552434404946937899825954937634815 s (exec (.keyQuery c slot) s) :=
  fun u hu => Touch.mono (execKeyQuery_touch u (show execKeyQuery c slot s = .next u from hu)) rfl

theorem exec_touch_keyFree {c slot count s} : TouchOut 24519928653854221733733552434404946937899825954937634815 s (exec (.keyFree c slot count) s) :=
  fun u hu => Touch.mono (execKeyFree_touch u (show execKeyFree c slot count s = .next u from hu)) rfl

theorem exec_touch_zeroize {a force s} : TouchOut 24519928653854221733733552434404946937899825954937634815 s (exec (.zeroize a force) s) :=
  fun u hu => Touch.mono (execZeroize_touch u (show execZeroize a force s = .next u from hu)) rfl

theorem exec_touch_lifecycleRetire {a s} : TouchOut 24519928653854221733733552434404946937899825954937634815 s (exec (.lifecycleRetire a) s) :=
  fun u hu => Touch.mono (execLifecycleRetire_touch u (show execLifecycleRetire a s = .next u from hu)) rfl

theorem exec_touch_spdmGetVersion { s} : TouchOut 24519928653854221733733552434404946937899825954937634815 s (exec (.spdmGetVersion) s) :=
  fun u hu => Touch.mono (execSpdmGetVersion_touch u (show execSpdmGetVersion s = .next u from hu)) rfl

theorem exec_touch_spdmGetCapabilities { s} : TouchOut 24519928653854221733733552434404946937899825954937634815 s (exec (.spdmGetCapabilities) s) :=
  fun u hu => Touch.mono (execSpdmGetCapabilities_touch u (show execSpdmGetCapabilities s = .next u from hu)) rfl

theorem exec_touch_spdmNegotiateAlgorithms {supported s} : TouchOut 24519928653854221733733552434404946937899825954937634815 s (exec (.spdmNegotiateAlgorithms supported) s) :=
  fun u hu => Touch.mono (execSpdmNegotiateAlgorithms_touch u (show execSpdmNegotiateAlgorithms supported s = .next u from hu)) rfl

theorem exec_touch_spdmGetDigests { s} : TouchOut 24519928653854221733733552434404946937899825954937634815 s (exec (.spdmGetDigests) s) :=
  fun u hu => Touch.mono (execSpdmGetDigests_touch u (show execSpdmGetDigests s = .next u from hu)) rfl

theorem exec_touch_spdmGetCertificate {slot off len s} : TouchOut 24519928653854221733733552434404946937899825954937634815 s (exec (.spdmGetCertificate slot off len) s) :=
  fun u hu => Touch.mono (execSpdmGetCertificate_touch u (show execSpdmGetCertificate slot off len s = .next u from hu)) rfl

theorem exec_touch_spdmChallenge {slot nonce s} : TouchOut 24519928653854221733733552434404946937899825954937634815 s (exec (.spdmChallenge slot nonce) s) :=
  fun u hu => Touch.mono (execSpdmChallenge_touch u (show execSpdmChallenge slot nonce s = .next u from hu)) rfl

theorem exec_touch_spdmGetMeasurements {index signed nonce s} : TouchOut 24519928653854221733733552434404946937899825954937634815 s (exec (.spdmGetMeasurements index signed nonce) s) :=
  fun u hu => Touch.mono (execSpdmGetMeasurements_touch u (show execSpdmGetMeasurements index signed nonce s = .next u from hu)) rfl

theorem exec_touch_spdmKeyExchange {slot pub s} : TouchOut 24519928653854221733733552434404946937899825954937634815 s (exec (.spdmKeyExchange slot pub) s) :=
  fun u hu => Touch.mono (execSpdmKeyExchange_touch u (show execSpdmKeyExchange slot pub s = .next u from hu)) rfl

theorem exec_touch_spdmFinish {session ok s} : TouchOut 24519928653854221733733552434404946937899825954937634815 s (exec (.spdmFinish session ok) s) :=
  fun u hu => Touch.mono (execSpdmFinish_touch u (show execSpdmFinish session ok s = .next u from hu)) rfl

theorem exec_touch_spdmHeartbeat {session s} : TouchOut 24519928653854221733733552434404946937899825954937634815 s (exec (.spdmHeartbeat session) s) :=
  fun u hu => Touch.mono (execSpdmHeartbeat_touch u (show execSpdmHeartbeat session s = .next u from hu)) rfl

theorem exec_touch_spdmKeyUpdate {session s} : TouchOut 24519928653854221733733552434404946937899825954937634815 s (exec (.spdmKeyUpdate session) s) :=
  fun u hu => Touch.mono (execSpdmKeyUpdate_touch u (show execSpdmKeyUpdate session s = .next u from hu)) rfl

theorem exec_touch_spdmEndSession {session s} : TouchOut 24519928653854221733733552434404946937899825954937634815 s (exec (.spdmEndSession session) s) :=
  fun u hu => Touch.mono (execSpdmEndSession_touch u (show execSpdmEndSession session s = .next u from hu)) rfl

theorem exec_touch_spdmSetCertificate {session slot chain s} : TouchOut 24519928653854221733733552434404946937899825954937634815 s (exec (.spdmSetCertificate session slot chain) s) :=
  fun u hu => Touch.mono (execSpdmSetCertificate_touch u (show execSpdmSetCertificate session slot chain s = .next u from hu)) rfl

theorem exec_touch_spdmVendorDefinedRequest {session retire force s} : TouchOut 24519928653854221733733552434404946937899825954937634815 s (exec (.spdmVendorDefinedRequest session retire force) s) :=
  fun u hu => Touch.mono (execSpdmVendorDefinedRequest_touch u (show execSpdmVendorDefinedRequest session retire force s = .next u from hu)) rfl

theorem exec_touch_drbgReseed { s} : TouchOut 24519928653854221733733552434404946937899825954937634815 s (exec (.drbgReseed) s) :=
  fun u hu => Touch.mono (execDrbgReseed_touch u (show execDrbgReseed s = .next u from hu)) rfl

theorem exec_touch_entropyHealthFail { s} : TouchOut 24519928653854221733733552434404946937899825954937634815 s (exec (.entropyHealthFail) s) :=
  fun u hu => Touch.mono (execEntropyHealthFail_touch u (show execEntropyHealthFail s = .next u from hu)) rfl

theorem exec_touch_pairKeyExchange {peer jobId peerPub ephPub sigOk s} : TouchOut 24519928653854221733733552434404946937899825954937634815 s (exec (.pairKeyExchange peer jobId peerPub ephPub sigOk) s) :=
  fun u hu => Touch.mono (execPairKeyExchange_touch u (show execPairKeyExchange peer jobId peerPub ephPub sigOk s = .next u from hu)) rfl

theorem exec_touch_contextRestore {serial generation macOk s} : TouchOut 24519928653854221733733552434404946937899825954937634815 s (exec (.contextRestore serial generation macOk) s) :=
  fun u hu => Touch.mono (execContextRestore_touch u (show execContextRestore serial generation macOk s = .next u from hu)) rfl

theorem exec_touch_mbxDoorbell {c v opcode seq length flags s} : TouchOut 24519928653854221733733552434404946937899825954937634815 s (exec (.mbxDoorbell c v opcode seq length flags) s) :=
  fun u hu => Touch.mono (execMbxDoorbell_touch u (show execMbxDoorbell c v opcode seq length flags s = .next u from hu)) rfl

theorem exec_touch_mailboxHeldRequest {c s} : TouchOut 24519928653854221733733552434404946937899825954937634815 s (exec (.mailboxHeldRequest c) s) :=
  fun u hu => Touch.mono (execMailboxHeldRequest_touch u (show execMailboxHeldRequest c s = .next u from hu)) rfl

theorem exec_touch_mbxEvtPop {c s} : TouchOut 24519928653854221733733552434404946937899825954937634815 s (exec (.mbxEvtPop c) s) :=
  fun u hu => Touch.mono (execMbxEvtPop_touch u (show execMbxEvtPop c s = .next u from hu)) rfl

theorem exec_touch_negotiate {c major minor features s} : TouchOut 24519928653854221733733552434404946937899825954937634815 s (exec (.negotiate c major minor features) s) :=
  fun u hu => Touch.mono (execNegotiate_touch u (show execNegotiate c major minor features s = .next u from hu)) rfl

theorem exec_touch_fwStatus {c s} : TouchOut 24519928653854221733733552434404946937899825954937634815 s (exec (.fwStatus c) s) :=
  fun u hu => Touch.mono (execFwStatus_touch u (show execFwStatus c s = .next u from hu)) rfl

theorem exec_touch_fwStageOpen {c s} : TouchOut 24519928653854221733733552434404946937899825954937634815 s (exec (.fwStageOpen c) s) :=
  fun u hu => Touch.mono (execFwStageOpen_touch u (show execFwStageOpen c s = .next u from hu)) rfl

theorem exec_touch_fwStageWrite {c offset length source s} : TouchOut 24519928653854221733733552434404946937899825954937634815 s (exec (.fwStageWrite c offset length source) s) :=
  fun u hu => Touch.mono (execFwStageWrite_touch u (show execFwStageWrite c offset length source s = .next u from hu)) rfl

theorem exec_touch_fwStageClose {c total s} : TouchOut 24519928653854221733733552434404946937899825954937634815 s (exec (.fwStageClose c total) s) :=
  fun u hu => Touch.mono (execFwStageClose_touch u (show execFwStageClose c total s = .next u from hu)) rfl

theorem exec_touch_fwActivate {c s} : TouchOut 24519928653854221733733552434404946937899825954937634815 s (exec (.fwActivate c) s) :=
  fun u hu => Touch.mono (execFwActivate_touch u (show execFwActivate c s = .next u from hu)) rfl

theorem exec_touch_fwDisarm {c s} : TouchOut 24519928653854221733733552434404946937899825954937634815 s (exec (.fwDisarm c) s) :=
  fun u hu => Touch.mono (execFwDisarm_touch u (show execFwDisarm c s = .next u from hu)) rfl

theorem exec_touch_fwDiscard {c s} : TouchOut 24519928653854221733733552434404946937899825954937634815 s (exec (.fwDiscard c) s) :=
  fun u hu => Touch.mono (execFwDiscard_touch u (show execFwDiscard c s = .next u from hu)) rfl

theorem exec_touch_logRead {c start count buffer s} : TouchOut 24519928653854221733733552434404946937899825954937634815 s (exec (.logRead c start count buffer) s) :=
  fun u hu => Touch.mono (execLogRead_touch u (show execLogRead c start count buffer s = .next u from hu)) rfl

theorem exec_touch_serviceRestart {c service s} : TouchOut 24519928653854221733733552434404946937899825954937634815 s (exec (.serviceRestart c service) s) :=
  fun u hu => Touch.mono (execServiceRestart_touch u (show execServiceRestart c service s = .next u from hu)) rfl

theorem exec_touch_shutdown {c s} : TouchOut 24519928653854221733733552434404946937899825954937634815 s (exec (.shutdown c) s) :=
  fun u hu => Touch.mono (execShutdown_touch u (show execShutdown c s = .next u from hu)) rfl

theorem exec_touch_deviceRestart {c force s} : TouchOut 24519928653854221733733552434404946937899825954937634815 s (exec (.deviceRestart c force) s) :=
  fun u hu => Touch.mono (execDeviceRestart_touch u (show execDeviceRestart c force s = .next u from hu)) rfl

theorem exec_touch_eicComplete {cluster v s} : TouchOut 24519928653854221733733552434404946937899825954937634815 s (exec (.eicComplete cluster v) s) :=
  fun u hu => Touch.mono (execEicComplete_touch u (show execEicComplete cluster v s = .next u from hu)) rfl

theorem exec_touch_eicSwi {cluster v s} : TouchOut 24519928653854221733733552434404946937899825954937634815 s (exec (.eicSwi cluster v) s) :=
  fun u hu => Touch.mono (execEicSwi_touch u (show execEicSwi cluster v s = .next u from hu)) rfl

theorem exec_touch_eicModerationExpiry {cluster source s} : TouchOut 24519928653854221733733552434404946937899825954937634815 s (exec (.eicModerationExpiry cluster source) s) :=
  fun u hu => Touch.mono (execEicModerationExpiry_touch u (show execEicModerationExpiry cluster source s = .next u from hu)) rfl

theorem exec_touch_watcherSource {source s} : TouchOut 24519928653854221733733552434404946937899825954937634815 s (exec (.watcherSource source) s) :=
  fun u hu => Touch.mono (execWatcherSource_touch u (show execWatcherSource source s = .next u from hu)) rfl

theorem exec_touch_aoTimerReached { s} : TouchOut 24519928653854221733733552434404946937899825954937634815 s (exec (.aoTimerReached) s) :=
  fun u hu => Touch.mono (execAoTimerReached_touch u (show execAoTimerReached s = .next u from hu)) rfl

theorem exec_touch_i3cTransfer {addr s} : TouchOut 24519928653854221733733552434404946937899825954937634815 s (exec (.i3cTransfer addr) s) :=
  fun u hu => Touch.mono (execI3cTransfer_touch u (show execI3cTransfer addr s = .next u from hu)) rfl

theorem exec_touch_irqModerationInterval {owner entry s} : TouchOut 24519928653854221733733552434404946937899825954937634815 s (exec (.irqModerationInterval owner entry) s) :=
  fun u hu => Touch.mono (execIrqModerationInterval_touch u (show execIrqModerationInterval owner entry s = .next u from hu)) rfl

theorem exec_touch_strataRecordWrite { s} : TouchOut 24519928653854221733733552434404946937899825954937634815 s (exec (.strataRecordWrite) s) :=
  fun u hu => Touch.mono (execStrataRecordWrite_touch u (show execStrataRecordWrite s = .next u from hu)) rfl

theorem exec_touch_strataLossRecord { s} : TouchOut 24519928653854221733733552434404946937899825954937634815 s (exec (.strataLossRecord) s) :=
  fun u hu => Touch.mono (execStrataLossRecord_touch u (show execStrataLossRecord s = .next u from hu)) rfl

theorem exec_touch_timeMark { s} : TouchOut 24519928653854221733733552434404946937899825954937634815 s (exec (.timeMark) s) :=
  fun u hu => Touch.mono (execTimeMark_touch u (show execTimeMark s = .next u from hu)) rfl

theorem exec_touch_sivTrigNow {die v s} : TouchOut 24519928653854221733733552434404946937899825954937634815 s (exec (.sivTrigNow die v) s) :=
  fun u hu => Touch.mono (execSivTrigNow_touch u (show execSivTrigNow die v s = .next u from hu)) rfl

theorem exec_touch_crossTrigger {die from_ s} : TouchOut 24519928653854221733733552434404946937899825954937634815 s (exec (.crossTrigger die from_) s) :=
  fun u hu => Touch.mono (execCrossTrigger_touch u (show execCrossTrigger die from_ s = .next u from hu)) rfl

theorem exec_touch_debugUdpRequest {op offset v s} : TouchOut 24519928653854221733733552434404946937899825954937634815 s (exec (.debugUdpRequest op offset v) s) :=
  fun u hu => Touch.mono (execDebugUdpRequest_touch u (show execDebugUdpRequest op offset v s = .next u from hu)) rfl

theorem exec_touch_auxPgRise {straps s} : TouchOut 24519928653854221733733552434404946937899825954937634815 s (exec (.auxPgRise straps) s) :=
  fun u hu => Touch.mono (execAuxPgRise_touch u (show execAuxPgRise straps s = .next u from hu)) rfl

theorem exec_touch_auxPgFall {ns s} : TouchOut 24519928653854221733733552434404946937899825954937634815 s (exec (.auxPgFall ns) s) :=
  fun u hu => Touch.mono (execAuxPgFall_touch u (show execAuxPgFall ns s = .next u from hu)) rfl

theorem exec_touch_mainPgRise { s} : TouchOut 24519928653854221733733552434404946937899825954937634815 s (exec (.mainPgRise) s) :=
  fun u hu => Touch.mono (execMainPgRise_touch u (show execMainPgRise s = .next u from hu)) rfl

theorem exec_touch_mainPgFall {ns s} : TouchOut 24519928653854221733733552434404946937899825954937634815 s (exec (.mainPgFall ns) s) :=
  fun u hu => Touch.mono (execMainPgFall_touch u (show execMainPgFall ns s = .next u from hu)) rfl

theorem exec_touch_railFault {r us s} : TouchOut 24519928653854221733733552434404946937899825954937634815 s (exec (.railFault r us) s) :=
  fun u hu => Touch.mono (execRailFault_touch u (show execRailFault r us s = .next u from hu)) rfl

theorem exec_touch_thermalSample {hub t0 t1 silt0 silt1 s} : TouchOut 24519928653854221733733552434404946937899825954937634815 s (exec (.thermalSample hub t0 t1 silt0 silt1) s) :=
  fun u hu => Touch.mono (execThermalSample_touch u (show execThermalSample hub t0 t1 silt0 silt1 s = .next u from hu)) rfl

theorem exec_touch_throttleStep { s} : TouchOut 24519928653854221733733552434404946937899825954937634815 s (exec (.throttleStep) s) :=
  fun u hu => Touch.mono (execThrottleStep_touch u (show execThrottleStep s = .next u from hu)) rfl

theorem exec_touch_overtempTimeout { s} : TouchOut 24519928653854221733733552434404946937899825954937634815 s (exec (.overtempTimeout) s) :=
  fun u hu => Touch.mono (execOvertempTimeout_touch u (show execOvertempTimeout s = .next u from hu)) rfl

theorem exec_touch_brakeNAssert {ns s} : TouchOut 24519928653854221733733552434404946937899825954937634815 s (exec (.brakeNAssert ns) s) :=
  fun u hu => Touch.mono (execBrakeNAssert_touch u (show execBrakeNAssert ns s = .next u from hu)) rfl

theorem exec_touch_brakeNDeassert { s} : TouchOut 24519928653854221733733552434404946937899825954937634815 s (exec (.brakeNDeassert) s) :=
  fun u hu => Touch.mono (execBrakeNDeassert_touch u (show execBrakeNDeassert s = .next u from hu)) rfl

theorem exec_touch_brakeLong { s} : TouchOut 24519928653854221733733552434404946937899825954937634815 s (exec (.brakeLong) s) :=
  fun u hu => Touch.mono (execBrakeLong_touch u (show execBrakeLong s = .next u from hu)) rfl

theorem exec_touch_accPwrEnTimer {port s} : TouchOut 24519928653854221733733552434404946937899825954937634815 s (exec (.accPwrEnTimer port) s) :=
  fun u hu => Touch.mono (execAccPwrEnTimer_touch u (show execAccPwrEnTimer port s = .next u from hu)) rfl

theorem exec_touch_perstOutRelease {port s} : TouchOut 24519928653854221733733552434404946937899825954937634815 s (exec (.perstOutRelease port) s) :=
  fun u hu => Touch.mono (execPerstOutRelease_touch u (show execPerstOutRelease port s = .next u from hu)) rfl

theorem exec_touch_clockLost {clk s} : TouchOut 24519928653854221733733552434404946937899825954937634815 s (exec (.clockLost clk) s) :=
  fun u hu => Touch.mono (execClockLost_touch u (show execClockLost clk s = .next u from hu)) rfl

theorem exec_touch_clockStable {clk s} : TouchOut 24519928653854221733733552434404946937899825954937634815 s (exec (.clockStable clk) s) :=
  fun u hu => Touch.mono (execClockStable_touch u (show execClockStable clk s = .next u from hu)) rfl

theorem exec_touch_ethPortUp {port s} : TouchOut 24519928653854221733733552434404946937899825954937634815 s (exec (.ethPortUp port) s) :=
  fun u hu => Touch.mono (execEthPortUp_touch u (show execEthPortUp port s = .next u from hu)) rfl

theorem exec_touch_hostLinkUp {speed width flit s} : TouchOut 24519928653854221733733552434404946937899825954937634815 s (exec (.hostLinkUp speed width flit) s) :=
  fun u hu => Touch.mono (execHostLinkUp_touch u (show execHostLinkUp speed width flit s = .next u from hu)) rfl

theorem exec_touch_bootPhaseComplete { s} : TouchOut 24519928653854221733733552434404946937899825954937634815 s (exec (.bootPhaseComplete) s) :=
  fun u hu => Touch.mono (execBootPhaseComplete_touch u (show execBootPhaseComplete s = .next u from hu)) rfl

theorem exec_touch_embeddedSwitchForward {t addr s} : TouchOut 24519928653854221733733552434404946937899825954937634815 s (exec (.embeddedSwitchForward t addr) s) :=
  fun u hu => Touch.mono (execEmbeddedSwitchForward_touch u (show execEmbeddedSwitchForward t addr s = .next u from hu)) rfl

theorem exec_touch_hwFatal {cause s} : TouchOut 24519928653854221733733552434404946937899825954937634815 s (exec (.hwFatal cause) s) :=
  fun u hu => Touch.mono (execHwFatal_touch u (show execHwFatal cause s = .next u from hu)) rfl

theorem exec_touch_ptpAnnounce {m s} : TouchOut 24519928653854221733733552434404946937899825954937634815 s (exec (.ptpAnnounce m) s) :=
  fun u hu => Touch.mono (execPtpAnnounce_touch u (show execPtpAnnounce m s = .next u from hu)) rfl

theorem exec_touch_ptpDelayMessage {delay s} : TouchOut 24519928653854221733733552434404946937899825954937634815 s (exec (.ptpDelayMessage delay) s) :=
  fun u hu => Touch.mono (execPtpDelayMessage_touch u (show execPtpDelayMessage delay s = .next u from hu)) rfl

theorem exec_touch_tapTckEdge {tms tdi s} : TouchOut 24519928653854221733733552434404946937899825954937634815 s (exec (.tapTckEdge tms tdi) s) :=
  fun u hu => Touch.mono (execTapTckEdge_touch u (show execTapTckEdge tms tdi s = .next u from hu)) rfl

theorem exec_touch_connectionNumberFree {cn s} : TouchOut 24519928653854221733733552434404946937899825954937634815 s (exec (.connectionNumberFree cn) s) :=
  fun u hu => Touch.mono (execConnectionNumberFree_touch u (show execConnectionNumberFree cn s = .next u from hu)) rfl

theorem exec_touch_entropyStartupTestDone {pass s} : TouchOut 24519928653854221733733552434404946937899825954937634815 s (exec (.entropyStartupTestDone pass) s) :=
  fun u hu => Touch.mono (execEntropyStartupTestDone_touch u (show execEntropyStartupTestDone pass s = .next u from hu)) rfl

theorem exec_touch_backingReadComplete {nsid s} : TouchOut 24519928653854221733733552434404946937899825954937634815 s (exec (.backingReadComplete nsid) s) :=
  fun u hu => Touch.mono (execBackingReadComplete_touch u (show execBackingReadComplete nsid s = .next u from hu)) rfl

theorem exec_touch (i : Instr) (s : State) : TouchOut 24519928653854221733733552434404946937899825954937634815 s (exec i s) :=
  match i with
  | .registerWrite _ _ _ _ => exec_touch_registerWrite
  | .misalignedRegisterAccess _ _ => exec_touch_misalignedRegisterAccess
  | .reg64LowWordRead _ _ => exec_touch_reg64LowWordRead
  | .keepWrite _ _ _ => exec_touch_keepWrite
  | .keepPersist _ => exec_touch_keepPersist
  | .powerAverageInterval _ _ => exec_touch_powerAverageInterval
  | .perstNAssert _ => exec_touch_perstNAssert
  | .perstNDeassert => exec_touch_perstNDeassert
  | .hostHotReset => exec_touch_hostHotReset
  | .hostLinkDown => exec_touch_hostLinkDown
  | .secondaryBusReset _ => exec_touch_secondaryBusReset
  | .functionLevelReset _ => exec_touch_functionLevelReset
  | .flrComplete _ => exec_touch_flrComplete
  | .busMasterEnableClear _ => exec_touch_busMasterEnableClear
  | .busMasterEnableSet _ => exec_touch_busMasterEnableSet
  | .powerStateChange _ _ => exec_touch_powerStateChange
  | .configRequest _ _ => exec_touch_configRequest
  | .completionTimeout _ _ => exec_touch_completionTimeout
  | .readCompletionReceived _ _ _ _ _ => exec_touch_readCompletionReceived
  | .lateCompletion _ _ => exec_touch_lateCompletion
  | .tagQuarantineExpiry _ _ => exec_touch_tagQuarantineExpiry
  | .poisonedTlpReceived _ _ => exec_touch_poisonedTlpReceived
  | .apertureRequest _ _ _ => exec_touch_apertureRequest
  | .ownedDeviceHostRequest _ _ _ => exec_touch_ownedDeviceHostRequest
  | .rootPortLinkDown _ => exec_touch_rootPortLinkDown
  | .devicePresent _ _ _ _ => exec_touch_devicePresent
  | .linkLaneFault _ _ => exec_touch_linkLaneFault
  | .ftSourceWrite _ _ => exec_touch_ftSourceWrite
  | .ptpSyncMessage _ => exec_touch_ptpSyncMessage
  | .ppsInEdge => exec_touch_ppsInEdge
  | .ftSyncLoss => exec_touch_ftSyncLoss
  | .ftSlewComplete => exec_touch_ftSlewComplete
  | .ppsOutSecond => exec_touch_ppsOutSecond
  | .ftSetSeconds _ _ => exec_touch_ftSetSeconds
  | .ftSetSecondsTimeout => exec_touch_ftSetSecondsTimeout
  | .steepDoorbell _ _ _ => exec_touch_steepDoorbell
  | .steepDoorbellForward _ _ => exec_touch_steepDoorbellForward
  | .steepBoundary _ _ _ _ => exec_touch_steepBoundary
  | .steepCountSet _ _ _ => exec_touch_steepCountSet
  | .tcmpCtlWrite _ _ _ _ => exec_touch_tcmpCtlWrite
  | .comparatorFire _ _ => exec_touch_comparatorFire
  | .comparatorAlloc _ _ _ => exec_touch_comparatorAlloc
  | .comparatorFree _ _ _ => exec_touch_comparatorFree
  | .recoveryStopTime _ => exec_touch_recoveryStopTime
  | .recoveryStopKernelAbort _ => exec_touch_recoveryStopKernelAbort
  | .debugFreezeStart _ => exec_touch_debugFreezeStart
  | .debugFreezeEnd _ => exec_touch_debugFreezeEnd
  | .eccScrubRead _ _ => exec_touch_eccScrubRead
  | .tnsReachWrite _ _ _ => exec_touch_tnsReachWrite
  | .routeHopTimeout _ _ _ => exec_touch_routeHopTimeout
  | .tnsDmaSubmit _ _ => exec_touch_tnsDmaSubmit
  | .dmaCopy _ _ => exec_touch_dmaCopy
  | .dmaFill _ _ => exec_touch_dmaFill
  | .dmaCopyConvert _ _ => exec_touch_dmaCopyConvert
  | .dmaTransferComplete _ _ => exec_touch_dmaTransferComplete
  | .coreFaultDetected _ _ => exec_touch_coreFaultDetected
  | .coreRemapRestart _ => exec_touch_coreRemapRestart
  | .coreRemapAtKernelEnd _ => exec_touch_coreRemapAtKernelEnd
  | .spareSelfTest _ _ => exec_touch_spareSelfTest
  | .tnsMeSubmit _ _ => exec_touch_tnsMeSubmit
  | .tnsMePop _ _ => exec_touch_tnsMePop
  | .meTileOp _ => exec_touch_meTileOp
  | .laneFma _ => exec_touch_laneFma
  | .laneAxpby _ => exec_touch_laneAxpby
  | .laneScaleAdd _ => exec_touch_laneScaleAdd
  | .laneMul _ => exec_touch_laneMul
  | .laneMin _ => exec_touch_laneMin
  | .laneMax _ => exec_touch_laneMax
  | .laneAbs _ => exec_touch_laneAbs
  | .laneConvert _ => exec_touch_laneConvert
  | .laneSqrt _ => exec_touch_laneSqrt
  | .laneRsqrt _ => exec_touch_laneRsqrt
  | .laneRecip _ => exec_touch_laneRecip
  | .laneExp _ => exec_touch_laneExp
  | .laneLog _ => exec_touch_laneLog
  | .laneSum _ => exec_touch_laneSum
  | .laneSumsq _ => exec_touch_laneSumsq
  | .laneRmax _ => exec_touch_laneRmax
  | .laneArgmax _ => exec_touch_laneArgmax
  | .optAdamw _ => exec_touch_optAdamw
  | .optSgdm _ => exec_touch_optSgdm
  | .optLion _ => exec_touch_optLion
  | .meCompletionPosted _ => exec_touch_meCompletionPosted
  | .meDescriptorTimeout _ => exec_touch_meDescriptorTimeout
  | .srSeedLoad _ _ => exec_touch_srSeedLoad
  | .addi _ _ _ _ => exec_touch_addi
  | .andi _ _ _ _ => exec_touch_andi
  | .ori _ _ _ _ => exec_touch_ori
  | .xori _ _ _ _ => exec_touch_xori
  | .slti _ _ _ _ => exec_touch_slti
  | .sltiu _ _ _ _ => exec_touch_sltiu
  | .slli _ _ _ _ _ => exec_touch_slli
  | .srli _ _ _ _ _ => exec_touch_srli
  | .srai _ _ _ _ _ => exec_touch_srai
  | .lui _ _ _ => exec_touch_lui
  | .auipc _ _ _ => exec_touch_auipc
  | .lb _ _ _ _ => exec_touch_lb
  | .lbu _ _ _ _ => exec_touch_lbu
  | .lh _ _ _ _ => exec_touch_lh
  | .lhu _ _ _ _ => exec_touch_lhu
  | .lw _ _ _ _ => exec_touch_lw
  | .sb _ _ _ _ => exec_touch_sb
  | .sh _ _ _ _ => exec_touch_sh
  | .sw _ _ _ _ => exec_touch_sw
  | .memxPostincReg _ _ _ _ _ => exec_touch_memxPostincReg
  | .memxPostincImm _ _ _ _ _ => exec_touch_memxPostincImm
  | .memxModulo _ _ _ _ _ => exec_touch_memxModulo
  | .memxBitrev _ _ _ _ _ => exec_touch_memxBitrev
  | .beq _ _ _ _ => exec_touch_beq
  | .bne _ _ _ _ => exec_touch_bne
  | .blt _ _ _ _ => exec_touch_blt
  | .bge _ _ _ _ => exec_touch_bge
  | .bltu _ _ _ _ => exec_touch_bltu
  | .bgeu _ _ _ _ => exec_touch_bgeu
  | .j _ _ => exec_touch_j
  | .call _ _ => exec_touch_call
  | .jr _ _ _ _ => exec_touch_jr
  | .callr _ _ _ _ => exec_touch_callr
  | .ret _ _ _ _ => exec_touch_ret
  | .eret _ _ _ _ => exec_touch_eret
  | .lrW _ _ _ _ => exec_touch_lrW
  | .scW _ _ _ _ => exec_touch_scW
  | .tasB _ _ _ _ _ => exec_touch_tasB
  | .fence _ => exec_touch_fence
  | .fenceI _ => exec_touch_fenceI
  | .ecall _ => exec_touch_ecall
  | .ebreak _ => exec_touch_ebreak
  | .waite _ _ _ => exec_touch_waite
  | .waiteWake _ => exec_touch_waiteWake
  | .rspush _ _ => exec_touch_rspush
  | .rspop _ _ => exec_touch_rspop
  | .csrrw _ _ _ _ => exec_touch_csrrw
  | .csrrs _ _ _ _ => exec_touch_csrrs
  | .csrrc _ _ _ _ => exec_touch_csrrc
  | .add _ _ _ _ => exec_touch_add
  | .sub _ _ _ _ => exec_touch_sub
  | .and _ _ _ _ => exec_touch_and
  | .or _ _ _ _ => exec_touch_or
  | .xor _ _ _ _ => exec_touch_xor
  | .sll _ _ _ _ => exec_touch_sll
  | .srl _ _ _ _ => exec_touch_srl
  | .sra _ _ _ _ => exec_touch_sra
  | .slt _ _ _ _ => exec_touch_slt
  | .sltu _ _ _ _ => exec_touch_sltu
  | .min _ _ _ _ => exec_touch_min
  | .max _ _ _ _ => exec_touch_max
  | .minu _ _ _ _ => exec_touch_minu
  | .maxu _ _ _ _ => exec_touch_maxu
  | .mul _ _ _ _ => exec_touch_mul
  | .mulh _ _ _ _ => exec_touch_mulh
  | .mulhu _ _ _ _ => exec_touch_mulhu
  | .mulhsu _ _ _ _ => exec_touch_mulhsu
  | .div _ _ _ _ => exec_touch_div
  | .divu _ _ _ _ => exec_touch_divu
  | .rem _ _ _ _ => exec_touch_rem
  | .remu _ _ _ _ => exec_touch_remu
  | .clz _ _ _ _ => exec_touch_clz
  | .ctz _ _ _ _ => exec_touch_ctz
  | .popc _ _ _ _ => exec_touch_popc
  | .brev _ _ _ _ => exec_touch_brev
  | .bswap _ _ _ _ => exec_touch_bswap
  | .movS _ _ _ _ _ => exec_touch_movS
  | .addS _ _ _ _ _ => exec_touch_addS
  | .subS _ _ _ _ _ => exec_touch_subS
  | .andS _ _ _ _ _ => exec_touch_andS
  | .orS _ _ _ _ _ => exec_touch_orS
  | .xorS _ _ _ _ _ => exec_touch_xorS
  | .sllS _ _ _ _ _ => exec_touch_sllS
  | .srlS _ _ _ _ _ => exec_touch_srlS
  | .sraS _ _ _ _ _ => exec_touch_sraS
  | .mulS _ _ _ _ _ => exec_touch_mulS
  | .sltS _ _ _ _ _ => exec_touch_sltS
  | .sltuS _ _ _ _ _ => exec_touch_sltuS
  | .negS _ _ _ _ _ => exec_touch_negS
  | .notS _ _ _ _ _ => exec_touch_notS
  | .minS _ _ _ _ _ => exec_touch_minS
  | .maxS _ _ _ _ _ => exec_touch_maxS
  | .addiS _ _ _ _ _ => exec_touch_addiS
  | .liS _ _ _ _ _ => exec_touch_liS
  | .slliS _ _ _ _ _ => exec_touch_slliS
  | .srliS _ _ _ _ _ => exec_touch_srliS
  | .sraiS _ _ _ _ _ => exec_touch_sraiS
  | .lwS _ _ _ _ _ _ => exec_touch_lwS
  | .swS _ _ _ _ _ _ => exec_touch_swS
  | .lwpS _ _ _ _ _ _ => exec_touch_lwpS
  | .swpS _ _ _ _ _ _ => exec_touch_swpS
  | .lbS _ _ _ _ _ => exec_touch_lbS
  | .lbuS _ _ _ _ _ => exec_touch_lbuS
  | .lhS _ _ _ _ _ => exec_touch_lhS
  | .lhuS _ _ _ _ _ => exec_touch_lhuS
  | .sbS _ _ _ _ _ => exec_touch_sbS
  | .shS _ _ _ _ _ => exec_touch_shS
  | .lwmS _ _ _ _ _ _ => exec_touch_lwmS
  | .swmS _ _ _ _ _ _ => exec_touch_swmS
  | .beqzS _ _ _ _ _ => exec_touch_beqzS
  | .bnezS _ _ _ _ _ => exec_touch_bnezS
  | .reservationTimeout _ => exec_touch_reservationTimeout
  | .interruptTake _ => exec_touch_interruptTake
  | .kernelEndStore _ _ => exec_touch_kernelEndStore
  | .tidyTraceStore _ _ => exec_touch_tidyTraceStore
  | .partitionCreate _ _ => exec_touch_partitionCreate
  | .partitionDestroy _ _ => exec_touch_partitionDestroy
  | .workRingTailDoorbell _ _ _ _ => exec_touch_workRingTailDoorbell
  | .workRingHeadDoorbell _ _ _ _ => exec_touch_workRingHeadDoorbell
  | .dispatchDescriptor _ _ => exec_touch_dispatchDescriptor
  | .workKernel _ => exec_touch_workKernel
  | .workDma _ => exec_touch_workDma
  | .workConvert _ => exec_touch_workConvert
  | .workReside _ => exec_touch_workReside
  | .workRelease _ => exec_touch_workRelease
  | .workSample _ => exec_touch_workSample
  | .workVerify _ => exec_touch_workVerify
  | .workMarker _ => exec_touch_workMarker
  | .workCompletionWrite _ => exec_touch_workCompletionWrite
  | .kernelComplete _ => exec_touch_kernelComplete
  | .kernelDeadline _ => exec_touch_kernelDeadline
  | .siltLineUncorrectable _ _ => exec_touch_siltLineUncorrectable
  | .siltLineRepaired _ _ => exec_touch_siltLineRepaired
  | .domainCreate _ _ => exec_touch_domainCreate
  | .domainDestroy _ _ => exec_touch_domainDestroy
  | .regionAdd _ _ => exec_touch_regionAdd
  | .regionRemove _ _ _ => exec_touch_regionRemove
  | .layerAdd _ _ _ => exec_touch_layerAdd
  | .layerRemove _ _ _ => exec_touch_layerRemove
  | .deepTargetSet _ _ _ _ => exec_touch_deepTargetSet
  | .evictMailbox _ _ _ => exec_touch_evictMailbox
  | .broadcast _ _ _ _ _ => exec_touch_broadcast
  | .domainArm _ _ _ => exec_touch_domainArm
  | .domainDisarm _ _ _ => exec_touch_domainDisarm
  | .domainLrWrite _ _ _ => exec_touch_domainLrWrite
  | .domainGscaleWrite _ _ _ => exec_touch_domainGscaleWrite
  | .protectedWrite _ _ _ => exec_touch_protectedWrite
  | .pageDoorbell _ _ _ _ => exec_touch_pageDoorbell
  | .pageCopyComplete _ _ => exec_touch_pageCopyComplete
  | .pauseDoorbell _ _ _ => exec_touch_pauseDoorbell
  | .pauseCopyComplete _ => exec_touch_pauseCopyComplete
  | .snapshotDeclare _ => exec_touch_snapshotDeclare
  | .boundaryPass _ => exec_touch_boundaryPass
  | .snapshotAbandon _ => exec_touch_snapshotAbandon
  | .intakeDoorbell _ _ _ _ => exec_touch_intakeDoorbell
  | .layerGradientCombine _ _ => exec_touch_layerGradientCombine
  | .collectiveChunkReceive _ _ _ _ _ _ => exec_touch_collectiveChunkReceive
  | .collTimeout _ _ => exec_touch_collTimeout
  | .layerUpdate _ _ => exec_touch_layerUpdate
  | .pushHighPlane _ _ _ => exec_touch_pushHighPlane
  | .pushFailed _ _ _ => exec_touch_pushFailed
  | .copierSendGrain _ => exec_touch_copierSendGrain
  | .grain _ => exec_touch_grain
  | .grainAckBatch _ => exec_touch_grainAckBatch
  | .grainAck _ => exec_touch_grainAck
  | .grainNak _ => exec_touch_grainNak
  | .sealMsg _ => exec_touch_sealMsg
  | .held _ => exec_touch_held
  | .abandon _ => exec_touch_abandon
  | .decideMsg _ => exec_touch_decideMsg
  | .decideAck _ => exec_touch_decideAck
  | .decideResend _ => exec_touch_decideResend
  | .commitDeadline _ => exec_touch_commitDeadline
  | .commit _ => exec_touch_commit
  | .abortMsg _ => exec_touch_abortMsg
  | .repairReq _ => exec_touch_repairReq
  | .buddyCrcScrub _ _ _ => exec_touch_buddyCrcScrub
  | .deepWriteDone _ _ => exec_touch_deepWriteDone
  | .deepDone _ => exec_touch_deepDone
  | .deepTimeout _ => exec_touch_deepTimeout
  | .deepCancel _ => exec_touch_deepCancel
  | .relayFallback _ _ => exec_touch_relayFallback
  | .heartbeat _ => exec_touch_heartbeat
  | .spareHeartbeatRelay _ => exec_touch_spareHeartbeatRelay
  | .silenceSuspect _ _ => exec_touch_silenceSuspect
  | .silenceSilent _ _ => exec_touch_silenceSilent
  | .fenceTimeout _ => exec_touch_fenceTimeout
  | .suspect _ => exec_touch_suspect
  | .silent _ => exec_touch_silent
  | .evict _ => exec_touch_evict
  | .prepare _ _ => exec_touch_prepare
  | .prepareExpiry _ => exec_touch_prepareExpiry
  | .stop _ => exec_touch_stop
  | .stopped _ => exec_touch_stopped
  | .rollback _ _ => exec_touch_rollback
  | .restoreReq _ => exec_touch_restoreReq
  | .restoreGrain _ => exec_touch_restoreGrain
  | .restoreMissing _ => exec_touch_restoreMissing
  | .ready _ => exec_touch_ready
  | .resume _ => exec_touch_resume
  | .resumeTime _ => exec_touch_resumeTime
  | .recoveryFail _ => exec_touch_recoveryFail
  | .coordinatorLostTimeout _ => exec_touch_coordinatorLostTimeout
  | .spareWaitTimeout _ => exec_touch_spareWaitTimeout
  | .recoveryLimitTimeout _ => exec_touch_recoveryLimitTimeout
  | .watchdogFire _ _ _ _ => exec_touch_watchdogFire
  | .serviceRestartComplete _ => exec_touch_serviceRestartComplete
  | .ethPortDown _ => exec_touch_ethPortDown
  | .ddrUncorrectable _ => exec_touch_ddrUncorrectable
  | .cipherShadowMismatch _ => exec_touch_cipherShadowMismatch
  | .rosterGetReply _ _ _ _ => exec_touch_rosterGetReply
  | .rosterChunkTimeout _ => exec_touch_rosterChunkTimeout
  | .rosterRetryTimer => exec_touch_rosterRetryTimer
  | .rosterRefetch => exec_touch_rosterRefetch
  | .bringupPhaseDeadline => exec_touch_bringupPhaseDeadline
  | .checkin _ => exec_touch_checkin
  | .rosterFinalDeadline => exec_touch_rosterFinalDeadline
  | .rosterFinalMissing => exec_touch_rosterFinalMissing
  | .rosterFinal _ => exec_touch_rosterFinal
  | .hello _ => exec_touch_hello
  | .helloAck _ => exec_touch_helloAck
  | .helloTimeout _ => exec_touch_helloTimeout
  | .noAnswer _ => exec_touch_noAnswer
  | .barrier _ => exec_touch_barrier
  | .barrierChildDeadline _ => exec_touch_barrierChildDeadline
  | .bringupTimeout => exec_touch_bringupTimeout
  | .jobReady _ => exec_touch_jobReady
  | .jobReadyTime => exec_touch_jobReadyTime
  | .bringupFail _ => exec_touch_bringupFail
  | .bringupRestart _ => exec_touch_bringupRestart
  | .hostWindowMap _ _ => exec_touch_hostWindowMap
  | .hostWindowUnmap _ _ => exec_touch_hostWindowUnmap
  | .apertureSet _ _ _ _ => exec_touch_apertureSet
  | .ownedReset _ _ => exec_touch_ownedReset
  | .ownedEnumerate _ _ => exec_touch_ownedEnumerate
  | .rpCtoSet _ _ _ => exec_touch_rpCtoSet
  | .sliceCreate _ _ => exec_touch_sliceCreate
  | .sliceDestroy _ _ _ => exec_touch_sliceDestroy
  | .sliceDestroyComplete _ => exec_touch_sliceDestroyComplete
  | .sliceReset _ _ => exec_touch_sliceReset
  | .slcReset _ _ => exec_touch_slcReset
  | .sliceResetComplete _ => exec_touch_sliceResetComplete
  | .irqEntrySet _ _ => exec_touch_irqEntrySet
  | .vrmtInit _ _ => exec_touch_vrmtInit
  | .ownAddressSet _ _ => exec_touch_ownAddressSet
  | .sliceQueueSet _ _ _ => exec_touch_sliceQueueSet
  | .vrmtCommandDoorbell _ _ => exec_touch_vrmtCommandDoorbell
  | .cqCreate _ _ _ _ _ _ _ => exec_touch_cqCreate
  | .cqDestroy _ _ _ => exec_touch_cqDestroy
  | .connCreate _ _ _ => exec_touch_connCreate
  | .connConnect _ _ _ => exec_touch_connConnect
  | .connDestroy _ _ _ => exec_touch_connDestroy
  | .keyRegister _ _ _ _ => exec_touch_keyRegister
  | .keyRevoke _ _ _ => exec_touch_keyRevoke
  | .keyDrainLimit _ => exec_touch_keyDrainLimit
  | .keyDead _ => exec_touch_keyDead
  | .vrmtConnDoorbell _ _ => exec_touch_vrmtConnDoorbell
  | .vrmtCqDoorbell _ _ => exec_touch_vrmtCqDoorbell
  | .wrWrite _ => exec_touch_wrWrite
  | .wrWriteImm _ => exec_touch_wrWriteImm
  | .wrSend _ => exec_touch_wrSend
  | .wrSendImm _ => exec_touch_wrSendImm
  | .wrRead _ => exec_touch_wrRead
  | .vrmtWritePacket _ => exec_touch_vrmtWritePacket
  | .vrmtSendPacket _ => exec_touch_vrmtSendPacket
  | .vrmtReadReq _ => exec_touch_vrmtReadReq
  | .vrmtReadResp _ => exec_touch_vrmtReadResp
  | .vrmtAck _ => exec_touch_vrmtAck
  | .vrmtNak _ => exec_touch_vrmtNak
  | .vrmtMsgAbort _ _ => exec_touch_vrmtMsgAbort
  | .ackDelayTimer _ => exec_touch_ackDelayTimer
  | .retransmitTimeout _ _ => exec_touch_retransmitTimeout
  | .pathRestore _ _ => exec_touch_pathRestore
  | .messageIncompleteNak _ _ => exec_touch_messageIncompleteNak
  | .connPeerTimeout _ => exec_touch_connPeerTimeout
  | .rnrRetry _ _ => exec_touch_rnrRetry
  | .ccCutTimer _ => exec_touch_ccCutTimer
  | .ccIncreaseTimer _ => exec_touch_ccIncreaseTimer
  | .contextFetchComplete _ _ => exec_touch_contextFetchComplete
  | .frameReceive _ _ _ _ _ => exec_touch_frameReceive
  | .secondPour => exec_touch_secondPour
  | .slowPathFrame => exec_touch_slowPathFrame
  | .ruleWrite _ => exec_touch_ruleWrite
  | .ruleInvalidate _ => exec_touch_ruleInvalidate
  | .ruleRead _ => exec_touch_ruleRead
  | .pktQueueCreate _ _ => exec_touch_pktQueueCreate
  | .pktQueueDestroy _ _ _ => exec_touch_pktQueueDestroy
  | .portRestart _ _ => exec_touch_portRestart
  | .pktRxqDoorbell _ _ _ => exec_touch_pktRxqDoorbell
  | .pktTxqDoorbell _ _ _ => exec_touch_pktTxqDoorbell
  | .txScheduleStart _ => exec_touch_txScheduleStart
  | .txFrameComplete _ => exec_touch_txFrameComplete
  | .shaperRefill => exec_touch_shaperRefill
  | .nvmeSqTailDoorbell _ _ _ => exec_touch_nvmeSqTailDoorbell
  | .nvmeCqHeadDoorbell _ _ _ => exec_touch_nvmeCqHeadDoorbell
  | .nvmeCcEnable _ _ => exec_touch_nvmeCcEnable
  | .nvmeCcDisable _ _ => exec_touch_nvmeCcDisable
  | .nvmeCcShutdown _ _ => exec_touch_nvmeCcShutdown
  | .nvmeCreateIoSq _ _ => exec_touch_nvmeCreateIoSq
  | .nvmeDeleteIoSq _ _ => exec_touch_nvmeDeleteIoSq
  | .nvmeCreateIoCq _ _ => exec_touch_nvmeCreateIoCq
  | .nvmeDeleteIoCq _ _ => exec_touch_nvmeDeleteIoCq
  | .nvmeGetLogPage _ _ => exec_touch_nvmeGetLogPage
  | .nvmeIdentify _ _ => exec_touch_nvmeIdentify
  | .nvmeAbort _ _ => exec_touch_nvmeAbort
  | .nvmeSetFeatures _ _ => exec_touch_nvmeSetFeatures
  | .nvmeGetFeatures _ _ => exec_touch_nvmeGetFeatures
  | .nvmeAsyncEventRequest _ _ => exec_touch_nvmeAsyncEventRequest
  | .nvmeRead _ _ _ => exec_touch_nvmeRead
  | .nvmeWrite _ _ _ => exec_touch_nvmeWrite
  | .nvmeWriteZeroes _ _ _ => exec_touch_nvmeWriteZeroes
  | .nvmeDatasetManagement _ _ _ => exec_touch_nvmeDatasetManagement
  | .nvmeFlush _ _ _ => exec_touch_nvmeFlush
  | .journalEntrySealed _ => exec_touch_journalEntrySealed
  | .destageComplete _ => exec_touch_destageComplete
  | .backingTimeout _ => exec_touch_backingTimeout
  | .backingRecovered _ => exec_touch_backingRecovered
  | .journalReplay => exec_touch_journalReplay
  | .nsCreate _ _ => exec_touch_nsCreate
  | .nsDestroy _ _ => exec_touch_nsDestroy
  | .nsAttach _ _ _ => exec_touch_nsAttach
  | .nsDetach _ _ _ => exec_touch_nsDetach
  | .targetRegister _ _ _ => exec_touch_targetRegister
  | .nsExport _ _ _ => exec_touch_nsExport
  | .accelCtrlCreate _ _ _ _ _ => exec_touch_accelCtrlCreate
  | .islandSelftestComplete _ => exec_touch_islandSelftestComplete
  | .firmwareVerify _ _ => exec_touch_firmwareVerify
  | .keyAlloc _ _ => exec_touch_keyAlloc
  | .keyGenerate _ _ _ _ _ _ => exec_touch_keyGenerate
  | .keyAgree _ _ => exec_touch_keyAgree
  | .keyImport _ _ _ _ _ _ => exec_touch_keyImport
  | .keyExport _ _ _ => exec_touch_keyExport
  | .keyZeroize _ _ => exec_touch_keyZeroize
  | .keyQuery _ _ => exec_touch_keyQuery
  | .keyFree _ _ _ => exec_touch_keyFree
  | .zeroize _ _ => exec_touch_zeroize
  | .lifecycleRetire _ => exec_touch_lifecycleRetire
  | .spdmGetVersion => exec_touch_spdmGetVersion
  | .spdmGetCapabilities => exec_touch_spdmGetCapabilities
  | .spdmNegotiateAlgorithms _ => exec_touch_spdmNegotiateAlgorithms
  | .spdmGetDigests => exec_touch_spdmGetDigests
  | .spdmGetCertificate _ _ _ => exec_touch_spdmGetCertificate
  | .spdmChallenge _ _ => exec_touch_spdmChallenge
  | .spdmGetMeasurements _ _ _ => exec_touch_spdmGetMeasurements
  | .spdmKeyExchange _ _ => exec_touch_spdmKeyExchange
  | .spdmFinish _ _ => exec_touch_spdmFinish
  | .spdmHeartbeat _ => exec_touch_spdmHeartbeat
  | .spdmKeyUpdate _ => exec_touch_spdmKeyUpdate
  | .spdmEndSession _ => exec_touch_spdmEndSession
  | .spdmSetCertificate _ _ _ => exec_touch_spdmSetCertificate
  | .spdmVendorDefinedRequest _ _ _ => exec_touch_spdmVendorDefinedRequest
  | .drbgReseed => exec_touch_drbgReseed
  | .entropyHealthFail => exec_touch_entropyHealthFail
  | .pairKeyExchange _ _ _ _ _ => exec_touch_pairKeyExchange
  | .contextRestore _ _ _ => exec_touch_contextRestore
  | .mbxDoorbell _ _ _ _ _ _ => exec_touch_mbxDoorbell
  | .mailboxHeldRequest _ => exec_touch_mailboxHeldRequest
  | .mbxEvtPop _ => exec_touch_mbxEvtPop
  | .negotiate _ _ _ _ => exec_touch_negotiate
  | .fwStatus _ => exec_touch_fwStatus
  | .fwStageOpen _ => exec_touch_fwStageOpen
  | .fwStageWrite _ _ _ _ => exec_touch_fwStageWrite
  | .fwStageClose _ _ => exec_touch_fwStageClose
  | .fwActivate _ => exec_touch_fwActivate
  | .fwDisarm _ => exec_touch_fwDisarm
  | .fwDiscard _ => exec_touch_fwDiscard
  | .logRead _ _ _ _ => exec_touch_logRead
  | .serviceRestart _ _ => exec_touch_serviceRestart
  | .shutdown _ => exec_touch_shutdown
  | .deviceRestart _ _ => exec_touch_deviceRestart
  | .eicComplete _ _ => exec_touch_eicComplete
  | .eicSwi _ _ => exec_touch_eicSwi
  | .eicModerationExpiry _ _ => exec_touch_eicModerationExpiry
  | .watcherSource _ => exec_touch_watcherSource
  | .aoTimerReached => exec_touch_aoTimerReached
  | .i3cTransfer _ => exec_touch_i3cTransfer
  | .irqModerationInterval _ _ => exec_touch_irqModerationInterval
  | .strataRecordWrite => exec_touch_strataRecordWrite
  | .strataLossRecord => exec_touch_strataLossRecord
  | .timeMark => exec_touch_timeMark
  | .sivTrigNow _ _ => exec_touch_sivTrigNow
  | .crossTrigger _ _ => exec_touch_crossTrigger
  | .debugUdpRequest _ _ _ => exec_touch_debugUdpRequest
  | .auxPgRise _ => exec_touch_auxPgRise
  | .auxPgFall _ => exec_touch_auxPgFall
  | .mainPgRise => exec_touch_mainPgRise
  | .mainPgFall _ => exec_touch_mainPgFall
  | .railFault _ _ => exec_touch_railFault
  | .thermalSample _ _ _ _ _ => exec_touch_thermalSample
  | .throttleStep => exec_touch_throttleStep
  | .overtempTimeout => exec_touch_overtempTimeout
  | .brakeNAssert _ => exec_touch_brakeNAssert
  | .brakeNDeassert => exec_touch_brakeNDeassert
  | .brakeLong => exec_touch_brakeLong
  | .accPwrEnTimer _ => exec_touch_accPwrEnTimer
  | .perstOutRelease _ => exec_touch_perstOutRelease
  | .clockLost _ => exec_touch_clockLost
  | .clockStable _ => exec_touch_clockStable
  | .ethPortUp _ => exec_touch_ethPortUp
  | .hostLinkUp _ _ _ => exec_touch_hostLinkUp
  | .bootPhaseComplete => exec_touch_bootPhaseComplete
  | .embeddedSwitchForward _ _ => exec_touch_embeddedSwitchForward
  | .hwFatal _ => exec_touch_hwFatal
  | .ptpAnnounce _ => exec_touch_ptpAnnounce
  | .ptpDelayMessage _ => exec_touch_ptpDelayMessage
  | .tapTckEdge _ _ => exec_touch_tapTckEdge
  | .connectionNumberFree _ => exec_touch_connectionNumberFree
  | .entropyStartupTestDone _ => exec_touch_entropyStartupTestDone
  | .backingReadComplete _ => exec_touch_backingReadComplete

/-- What a step keeps: the rest of the queue, the canonical form of memory, and what was sent. -/
theorem step_touch {s t : State} (h : step s = .next t) : Touch 24519928653854221733733552434404946937899825954937634815 { s with pending := s.pending.tail } t := by
  unfold step at h
  split at h
  · rename_i hp
    cases h
    have e : { s with pending := s.pending.tail } = s := by
      cases s
      cases hp
      rfl
    rw [e]
    exact Touch.mono idle_touch rfl
  · rename_i c rest hp
    rw [hp]
    exact exec_touch c _ t h

end Sys2Proof.Machine
end

