-- ==== Sys2Proof/Laws/Block.lean ====
section
/-! SUPPORT. What the guards of the commands come to where they are open, and what a mailbox request comes to where its service performs it. -/

namespace Sys2Proof.Machine

open Sys2Proof

theorem whenOn_of {s : State} {f : State → State} (h : On s) : whenOn s f = .next (f s) := congrArg _ (if_pos h)

theorem whenMain_of {s : State} {f : State → State} (h : MainUp s) : whenMain s f = .next (f s) := congrArg _ (if_pos h)

theorem On.mainUp {s : State} (h : On s) : MainUp s := .inl h

/-- A request that is served: its body's reply, or its commit point. -/
theorem mbxServe_of {c : Caller} {op : Nat} {f : Frame} {s : State} {body : Frame → State → Option Reply × State} (h : Serves c op f s) :
    mbxServe c op s body = match body f s with
      | (some r, t) => mbxReply c r t
      | (none, t) => t.setMailbox c { t.mailbox c with committed := true } := by
  unfold mbxServe
  rw [h.holds]
  simp only [h.passes, h.runs]
  all_goals rfl

/-- A request whose body replies at once. -/
theorem mbxServe_replies {c : Caller} {op : Nat} {f : Frame} {s t : State} {body : Frame → State → Option Reply × State} {r : Reply} (h : Serves c op f s)
    (hb : body f s = (some r, t)) : mbxServe c op s body = mbxReply c r t := by
  rw [mbxServe_of h, hb]

end Sys2Proof.Machine
end

