-- ==== Sys2Proof/Laws/Tilth.lean ====
section
/-! SUPPORT. Frames put together, and what a word of a Tilth-32 core does once it is issued: the facts with which the statements about single instructions are proved. -/

namespace Sys2Proof.Machine

open Sys2Proof

theorem execEff_of_issues {c : Nat} {s : State} (h : Issues c s) (f : State → Core → Eff) : execEff c s f = .next (runWord c (f s (s.core c)) s) := by
  obtain ⟨a, b, d, e, g⟩ := h
  have a' : ¬ 272 ≤ c := by omega
  by_cases hc : c < 256
  · simp [execEff, atWord, whenCore, whenArray, whenOn, a', hc, b, d hc, e, g]
  · simp [execEff, atWord, whenCore, whenOn, a', hc, b, e, g]

theorem Changes.trans {a b c : State} {ps rs} (h : Changes ps rs a b) (g : Changes ps rs b c) : Changes ps rs a c := by
  refine ⟨g.queue.trans h.queue, fun p hp => ?_, fun n i hn => (g.reg n i hn).trans (h.reg n i hn)⟩
  have := h.part p hp; have := g.part p hp
  cases p <;> simp only [Part.Same] at * <;> simp_all

theorem Changes.mono {a b : State} {ps ps' rs rs'} (h : Changes ps rs a b) (hp : ps ⊆ ps') (hr : rs ⊆ rs') : Changes ps' rs' a b :=
  ⟨h.queue, fun p k => h.part p (fun x => k (hp x)), fun n i k => h.reg n i (fun x => k (hr x))⟩

theorem pmcAdd_frame (cl ev n : Nat) (s : State) : (pmcAdd cl ev n s).cores = s.cores ∧ Changes [] [.sivPmc] s (pmcAdd cl ev n s) := by
  unfold pmcAdd
  generalize List.range 16 = l
  simp only [if_true]
  induction l generalizing s with
  | nil => exact ⟨rfl, Touch.changes (Touch.refl 0 s) (by decide)⟩
  | cons i l ih =>
    rw [List.foldl_cons]
    by_cases hc : s.fld .sivPmcCfg 31 31 (cl * 16 + i) = 1 ∧ s.fld .sivPmcCfg 15 0 (cl * 16 + i) = ev
    · rw [if_pos hc]
      obtain ⟨h1, h2⟩ := ih (s.bump .sivPmc (cl * 16 + i) n)
      refine ⟨h1.trans rfl, ?_⟩
      have h3 : Changes [] [.sivPmc] s (s.bump .sivPmc (cl * 16 + i) n) := Touch.changes (bump_touch ..) (by decide)
      refine ⟨h2.queue.trans h3.queue, fun p hp => ?_, fun n i hn => (h2.reg n i hn).trans (h3.reg n i hn)⟩
      have := h2.part p hp; have := h3.part p hp
      cases p <;> simp only [Part.Same] at * <;> simp_all
    · rw [if_neg hc]; exact ih s

theorem core_setCore (s : State) (c d : Nat) (k : Core) : (s.setCore c k).core d = if d = c then k else s.core d := by
  unfold State.setCore State.core
  exact Tab.get_set _ _ _ _ _

theorem core_of_cores {s t : State} (h : t.cores = s.cores) (d : Nat) : t.core d = s.core d := by unfold State.core; rw [h]

theorem retires_setCore {c : Nat} {k : Core} {s : State} : Retires c { k with words := k.words + 1 } s (retired1 c (s.setCore c k)) := by
  have e : (s.setCore c k).modCore c (fun c => { c with words := c.words + 1 }) = (s.setCore c k).setCore c { k with words := k.words + 1 } := by
    unfold State.modCore; rw [core_setCore, if_pos rfl]
  have hm : Changes [.cores] [] s ((s.setCore c k).setCore c { k with words := k.words + 1 }) :=
    Touch.changes (F := 16384) (Touch.step (setCore_touch ..) rfl (setCore_touch ..)) (by decide)
  have hc : ∀ d, ((s.setCore c k).setCore c { k with words := k.words + 1 }).core d = if d = c then { k with words := k.words + 1 } else s.core d := by
    intro d; rw [core_setCore]; split
    · rfl
    · rw [core_setCore, if_neg ‹_›]
  unfold retired1
  rw [e]
  by_cases h : c < 256
  · simp only [h, if_true]
    obtain ⟨p, q⟩ := pmcAdd_frame (coreCluster c) 5 1 ((s.setCore c k).setCore c { k with words := k.words + 1 })
    refine ⟨?_, fun d hd => ?_, ?_⟩
    · rw [core_of_cores p, hc, if_pos rfl]
    · rw [core_of_cores p, hc, if_neg hd]
    · exact (hm.mono (by simp) (by simp)).trans (q.mono (by simp) (by simp))
  · simp only [h, if_false]
    exact ⟨by rw [hc, if_pos rfl], fun d hd => by rw [hc, if_neg hd], hm.mono (by simp) (by simp)⟩

theorem gives_of {i : Instr} {c : Nat} {rd : BitVec 5} {v : Core → Word} (h : ∀ s, exec i s = execEff c s (fun _ k => result rd (v k))) : Gives i c rd v := by
  intro s hs
  rw [h, execEff_of_issues hs]
  refine ⟨_, rfl, ?_⟩
  have := retires_setCore (c := c) (k := { (s.core c).setG rd (v (s.core c)) with pc := (s.core c).pc + 4 }) (s := s)
  unfold runWord result
  simpa [firstExc, commit, Core.after] using this

theorem goesTo_of {i : Instr} {c : Nat} {v : Core → Word} (h : ∀ s, exec i s = execEff c s (fun _ k => { target := some (v k) })) : GoesTo i c v := by
  intro s hs
  rw [h, execEff_of_issues hs]
  refine ⟨_, rfl, ?_⟩
  have := retires_setCore (c := c) (k := { (s.core c) with pc := v (s.core c) }) (s := s)
  unfold runWord
  simpa [firstExc, commit, Core.after] using this

theorem Gives.cast {i c rd} {v w : Core → Word} (h : Gives i c rd v) (e : ∀ k, v k = w k) : Gives i c rd w := (funext e : v = w) ▸ h

end Sys2Proof.Machine
end

