-- ==== Sys2Proof/Tests/Slice0.lean ====
section
/-! SUPPORT. Tests of the model: an ill-formed command for each check of WellFormed.lean, worked examples of the spec, and single steps on small states. -/

namespace Sys2Proof.Tests

open Sys2Proof Sys2Proof.Machine

/-! Ill-formed commands, one for each check. -/

theorem test_wf_tidyCore : (Instr.meTileOp 256).wf = false := by decide
theorem test_wf_core : (Instr.addi 272 0 0 0).wf = false := by decide
theorem test_wf_cluster : (Instr.eicComplete 16 0).wf = false := by decide
theorem test_wf_channel : (Instr.dmaCopy 15 8).wf = false := by decide
theorem test_wf_source : (Instr.eicModerationExpiry 0 256).wf = false := by decide
theorem test_wf_die : (Instr.sivTrigNow 3 0).wf = false := by decide
theorem test_wf_comparator : (Instr.comparatorFire 0 64).wf = false := by decide
theorem test_wf_service : (Instr.serviceRestartComplete 14).wf = false := by decide
theorem test_wf_ethPort : (Instr.txScheduleStart 33).wf = false := by decide
theorem test_wf_rootPort : (Instr.perstOutRelease 8).wf = false := by decide
theorem test_wf_engine : (Instr.cipherShadowMismatch 33).wf = false := by decide
theorem test_wf_selfTest : (Instr.islandSelftestComplete (.wideEngineFails 33)).wf = false := by decide
theorem test_wf_siltLine : (Instr.siltLineRepaired 1 393216).wf = false := by decide
theorem test_wf_register : (Instr.registerWrite .pf0 ⟨.tnsReach, 0⟩ false 0).wf = false := by decide
theorem test_wf_accepts : (Instr.addi 271 0 0 0).wf = true := by decide

/-! Worked examples. -/

/-- R123: ADD.S g3, g4 paired with LWP.S g5, (g6)+4. -/
theorem test_pair_word : encPair (shortSR 0 1 3 4) (shortSR 7 0 5 6) = 0x80D0BAB0 := by decide

/-- R123: that pair is legal; with ADD.S g6, g4 or ADD.S g5, g4 in slot 0 it is not. -/
theorem test_pair_legal : illegalPair (shortSR 0 1 3 4) (shortSR 7 0 5 6) = false := by decide
theorem test_pair_raw : illegalPair (shortSR 0 1 6 4) (shortSR 7 0 5 6) = true := by decide
theorem test_pair_waw : illegalPair (shortSR 0 1 5 4) (shortSR 7 0 5 6) = true := by decide

/-- R123: ADDI g20, g21, -3. -/
theorem test_addi_word : encLI 2 20 21 0x7FFD = 0x054AFFFD := by decide

/-! Witnesses: states and operands that meet the hypotheses of the statements. -/

theorem wit_mainPower : State.reset.pwr.state = .on ∨ State.reset.pwr.state = .hardpan := by decide

/-- A device whose core 5 runs, alone in a partition of every cluster, with a control core released. -/
def tWith (f : Core → Core) : State := { State.reset with
  fw := { State.reset.fw with released := true }
  work := { State.reset.work with parts := [(0, { owner := 0, mask := 0xFFFF, silt := [], coreShare := 16, clusterShare := 16, grants := [], rings := [], streamCap := 0 })] }
  cores := [(5, f { pc := 0x400, run := .running })] }

def tCores : State := tWith id

theorem wit_issues : Issues 5 tCores := ⟨by decide, by decide, by decide, by decide, by decide⟩

theorem wit_issues_control : Issues 256 tCores := ⟨by decide, by decide, by decide, by decide, by decide⟩

theorem wit_issues_stack15 : Issues 5 (tWith (fun k => { k with rstack := List.replicate 15 0 })) := ⟨by decide, by decide, by decide, by decide, by decide⟩
theorem wit_issues_stack16 : Issues 5 (tWith (fun k => { k with rstack := List.replicate 16 0 })) := ⟨by decide, by decide, by decide, by decide, by decide⟩
theorem wit_issues_trap : Issues 5 (tWith (fun k => { k with rstack := List.replicate 16 0, ovfTrap := true })) := ⟨by decide, by decide, by decide, by decide, by decide⟩
theorem wit_issues_split : Issues 5 (tWith (fun k => { k with rstack := List.replicate 16 0, split := true, rsp := 3 })) := ⟨by decide, by decide, by decide, by decide, by decide⟩
theorem wit_issues_stack1 : Issues 5 (tWith (fun k => { k with rstack := [7] })) := ⟨by decide, by decide, by decide, by decide, by decide⟩

theorem wit_stack_limits : (List.replicate 15 (0 : Word)).length < 16 ∧ 16 ≤ (List.replicate 16 (0 : Word)).length ∧ (3 : Word).toNat < (0 : Word).toNat + 4 ∧ (0 : Word).toNat ≤ (0 : Word).toNat := by decide

theorem wit_reads : Reads tCores 5 0xFFFFC 4 0x0001005FFFFC := ⟨by decide, by decide, by decide⟩

theorem wit_writes : Writes tCores 5 0xFFFFC 4 0x0001005FFFFC := ⟨by decide, by decide, by decide, by decide⟩

theorem wit_reads_byte : Reads tCores 5 0 1 0x000100500000 := ⟨by decide, by decide, by decide⟩

theorem wit_atom_load : atomAt tCores 5 0 4 false true = .ok (.bytes 0x000100500000) ∧ eccHit tCores 0x000100500000 4 = none ∧ ownMemory tCores 0x000100500000 = true := by decide

theorem wit_atom_store : atomAt tCores 5 0 4 true true = .ok (.bytes 0x000100500000) ∧ eccPartial tCores 0x000100500000 4 = none := by decide

theorem wit_atom_byte : atomAt tCores 5 0 1 true false = .ok (.bytes 0x000100500000) ∧ eccPartial tCores 0x000100500000 1 = none := by decide

theorem wit_issues_reserved : Issues 5 (tWith (fun k => { k with resv := some { granule := 0x000100500000, since := 0 } })) := ⟨by decide, by decide, by decide, by decide, by decide⟩
theorem wit_issues_reserved_apart : Issues 5 (tWith (fun k => { k with resv := some { granule := 0x000100500040, since := 0 } })) := ⟨by decide, by decide, by decide, by decide, by decide⟩

theorem wit_pairs : Pairs .s0 (shortSR 0 1 3 4) (shortSR 0 0 0 0) ∧ Pairs .s1 (shortSR 7 0 5 6) (shortSR 0 1 3 4) := ⟨⟨by decide, by decide, by decide, by decide⟩, ⟨by decide, by decide, by decide, by decide⟩⟩

theorem wit_pairs_branch : Pairs .s1 (shortSI 11 1 5) (shortSR 0 0 2 1) ∧ Pairs .s1 (shortSI 12 1 5) (shortSR 0 0 2 1) ∧ shortReserved (shortSR 0 0 2 1) = false := ⟨⟨by decide, by decide, by decide, by decide⟩, ⟨by decide, by decide, by decide, by decide⟩, by decide⟩

theorem wit_pairs_modulo : Pairs .s0 (shortSR 10 3 1 2) (shortSR 0 0 0 0) ∧ Pairs .s0 (shortSR 10 7 1 2) (shortSR 0 0 0 0) := ⟨⟨by decide, by decide, by decide, by decide⟩, ⟨by decide, by decide, by decide, by decide⟩⟩

theorem wit_illegal_words : shortReserved ⟨13, 0, 0⟩ = true ∧ (3 : BitVec 5) ∈ shortReads (shortSR 0 1 4 3) ∧ (3 : BitVec 5) ∈ shortWrites (shortSR 0 1 3 4) ∧ shortMem (shortSR 5 0 1 2) = true := by decide

theorem wit_issues_modulo : Issues 5 (tWith (fun k => { k with amc := #v[20, 0, 0, 0] })) := ⟨by decide, by decide, by decide, by decide, by decide⟩
theorem wit_issues_bitrev : Issues 5 (tWith (fun k => { k with amc := #v[0x03000000, 0, 0, 0] })) := ⟨by decide, by decide, by decide, by decide, by decide⟩

theorem wit_inside : (16 : Nat) < 20 ∧ 16 + 2 ^ (2 : Nat) ≤ 20 ∧ ¬ (17 + 2 ^ (2 : Nat) ≤ 20) ∧ (28 : Nat) < 2 ^ 3 * 2 ^ 2 ∧ 28 % 2 ^ 2 = 0 := by decide

/-- A device whose control core 256 issues words. -/
def tControl (f : Core → Core) : State := { State.reset with fw := { State.reset.fw with released := true }, cores := [(256, f {})] }

theorem wit_issues_events : Issues 256 (tControl (fun k => { k with wake := true, gpr := k.gpr.set 1 2 })) := ⟨by decide, by decide, by decide, by decide, by decide⟩

theorem wit_events : events (tControl (fun k => { k with wake := true, gpr := k.gpr.set 1 2 })) 256 &&& 2 ≠ 0 ∧ events (tControl id) 256 &&& 2 = 0 := by decide

theorem wit_waiting : ((tControl (fun k => { k with wake := true, run := .waiting 2 3 1 })).core 256).run = .waiting 2 3 1 ∧ events (tControl (fun k => { k with wake := true, run := .waiting 2 3 1 })) 256 &&& 2 ≠ 0 := by decide

theorem wit_issues_in_handler : Issues 5 (tWith (fun k => { k with inx := true })) := ⟨by decide, by decide, by decide, by decide, by decide⟩
theorem wit_issues_latched : Issues 5 (tWith (fun k => { k with wordsHi := some 1 })) := ⟨by decide, by decide, by decide, by decide, by decide⟩

/-- Core 5 with source 3 of cluster 0 pending at priority 7 for it. -/
def tOffered : State := ((tWith (fun k => { k with ie := true })).setReg .eicSrcCfg 0x00750000 3).setEicBit .eicPending 0 3 true

theorem wit_running_kernel : ArrayRuns tCores ∧ coreIssues tCores 5 = true := by decide

theorem wit_offered : irqOffered tOffered 5 = some 3 ∧ (tOffered.core 5).ie = true ∧ (tOffered.core 5).inx = false ∧ (tOffered.core 5).run = .running := by decide +kernel

/-- Core 5 runs its part of kernel 9. -/
def tKernel : State := { tCores with work := { tCores.work with kernels := [(9, { part := 0, cores := [5], restart := false, started := 0, deadline := 0, desc := [] })] } }

theorem wit_kernel : (kernelOf tKernel 5).isSome = true ∧ coreIssues tKernel 5 = true ∧ ArrayRuns tKernel := by decide

/-- A request of opcode `op` in a mailbox frame, with an indirect buffer. -/
def reqOf (op : Nat) : Frame := { opcode := op, seq := 7, length := 0, flags := 1 }

/-- Every service runs, and mailbox `c` holds a request of opcode `op` that has been taken. -/
def asks (c : Caller) (op : Nat) (s : State := State.reset) : State := { s with
  mbx := s.mbx.set c { frame := some (reqOf op), taken := true, busy := true, negotiated := some (0, 0x1FFFF) }
  fw := { s.fw with released := true, services := (List.range 14).map (fun n => (n, { state := .running, core := n })) } }

theorem wit_asks : Serves (.slice 5) 0x3008 (reqOf 0x3008) (asks (.slice 5) 0x3008) := ⟨by decide, by decide, by decide⟩

/-- Domain of PF0 over partition 0, with one DDR region of two grains, at steep 7. -/
def tD : Domain := { owner := 0, partition := 0, clusters := 0xFFFF, lMax := 4, cowGib := 0, pauseMs := 0, t0 := 5, standby := false }

theorem wit_registerWrite : regExists ⟨.pktShapeRate, 560⟩ = true ∧ regPlace ⟨.pktShapeRate, 560⟩ = .bar0 ∧ pfServes State.reset .pf0 = true ∧
    regReserved .pktShapeRate 80001 = true ∧ regReserved .pktShapeRate 80000 = false ∧ RegName.pktShapeRate.info.width = 32 ∧
    regExists ⟨.eicAoTimer, 0⟩ = true ∧ regReserved .eicAoTimer 5 = false ∧ RegName.eicAoTimer.info.width = 64 := by decide

theorem wit_lowWordRead : regExists ⟨.cadSteepCount, 63⟩ = true ∧ RegName.cadSteepCount.info.width = 64 ∧ State.reset.latch.find .pf0 = none ∧ regExists ⟨.dbgCtl, 0⟩ = true ∧ RegName.dbgCtl.info.width = 32 := by decide

/-- TDP_ALLOW at its factory value, 600 W. -/
theorem wit_keepSame : keepInfo 20 = some ⟨.h, 600, 0x3FF, .none⟩ ∧ keepMayWrite .pf0 20 ⟨.h, 600, 0x3FF, .none⟩ = true ∧
    keepLocked State.reset .pf0 ⟨.h, 600, 0x3FF, .none⟩ = false ∧ keepReserved 20 (State.reset.kw 20) 600 = false ∧ Nat.land 0xFC000258 0x3FF = State.reset.kw 20 := by decide

theorem wit_keepWrite : keepInfo 49152 = some ⟨.h, 0, 0xFFFFFFFF, .none⟩ ∧ keepRefusal State.reset .pf0 49152 7 = none ∧ Nat.land 7 0xFFFFFFFF ≠ State.reset.kw 49152 ∧
    keepRefusal State.reset .pf0 1 7 = some St.keepProtected ∧ keepRefusal State.reset .pf0 20 449 = some St.invalidField := by decide

/-- A user word one change before it is worn, and one that is frozen. -/
theorem wit_keepWorn : (({ State.reset with keep := [(49152, { value := 5, kiln := 5, queued := true, changes := 179999999 })] } : State).keepWord 49152).changes + 1 = keepWornAt ∧
    keepRefusal { State.reset with keep := [(49152, { value := 5, kiln := 5, changes := 200000000 })] } .pf0 49152 7 = some St.keepFrozen ∧
    keepRefusal { State.reset with keep := [(49152, { value := 5, kiln := 5, changes := 199999999 })] } .pf0 49152 7 = none := by decide

/-- Fabric time from source `src`, with a master and its path delay. -/
def tTime (src : Nat) (f : FabricTime → FabricTime) : State := { State.reset with
  keep := [(21, { value := src, kiln := src })]
  ft := f { State.reset.ft with now := 5000000400, valid := true, state := .locked, master := some ⟨2, 3, 7, 0⟩, pathDelay := some 80, port := 2 } }

theorem wit_FabricTimeSources_0 : ∃ (a : Agent) (v : Word) (s : State), (MainUp s) ∧ ((a = .firmware ∨ a = .pf0)) ∧ (s.kw kFtCtl < 4) ∧ ((s.keepWord kFtCtl).changes < keepRated) ∧ (s.ftSource ≠ v.toNat % 4) :=
  ⟨.pf0, 2, State.reset, by decide, by decide, by decide, by decide, by decide⟩

theorem wit_FabricTimeSources_1 : ∃ (s : State), (On s) ∧ ((s.ft.master = none ∨ s.ft.pathDelay = none)) :=
  ⟨State.reset, by decide, by decide⟩

theorem wit_FabricTimeSources_2 : ∃ (off : Int) (s : State), (On s) ∧ (s.ft.master ≠ none) ∧ (s.ft.pathDelay ≠ none) ∧ (s.ftSource = 1) ∧ (s.ft.valid = true) ∧ (s.ft.state = .locked) ∧ (off ≠ 0) ∧ ((-1000 ≤ off ∧ off ≤ 1000)) :=
  ⟨(-1000), (tTime 1 id), by decide, by decide, by decide, by decide, by decide, by decide, by decide, by decide⟩

theorem wit_FabricTimeSources_3 : ∃ (off : Int) (s : State), (On s) ∧ (s.ft.master ≠ none) ∧ (s.ft.pathDelay ≠ none) ∧ (s.ftSource = 1) ∧ (s.ft.valid = true) ∧ (s.ft.state = .locked) ∧ ((off < -1000 ∨ 1000 < off)) :=
  ⟨1001, (tTime 1 id), by decide, by decide, by decide, by decide, by decide, by decide, by decide⟩

theorem wit_FabricTimeSources_4 : ∃ (off : Int) (s : State), (On s) ∧ (s.ft.master ≠ none) ∧ (s.ft.pathDelay ≠ none) ∧ (s.ftSource = 1) ∧ (s.ft.valid = true) ∧ (s.ft.state = .holdover) ∧ ((-10000 ≤ off ∧ off ≤ -25 ∨ 25 ≤ off)) :=
  ⟨25, (tTime 1 (fun f => { f with state := .holdover })), by decide, by decide, by decide, by decide, by decide, by decide, by decide⟩

theorem wit_FabricTimeSources_5 : ∃ (s : State), (On s) ∧ (s.ft.master ≠ none) ∧ (s.ft.pathDelay ≠ none) ∧ (s.ftSource = 2) ∧ (s.ft.valid = true) :=
  ⟨(tTime 2 id), by decide, by decide, by decide, by decide, by decide⟩

theorem wit_FabricTimeSources_6 : ∃ (s : State), (On s) ∧ (s.ft.master ≠ none) ∧ (s.ft.pathDelay ≠ none) ∧ ((s.ftSource = 0 ∨ s.ftSource = 3)) :=
  ⟨(tTime 3 id), by decide, by decide, by decide, by decide⟩

theorem wit_FabricTimeSources_7 : ∃ (s : State), (On s) ∧ (s.ft.state = .locked) :=
  ⟨(tTime 1 id), by decide, by decide⟩

theorem wit_FabricTimeSources_8 : ∃ (s : State), (On s) ∧ (s.ft.state ≠ .locked) :=
  ⟨State.reset, by decide, by decide⟩

theorem wit_FabricTimeSources_9 : ∃ (m : PtpAnnounce) (s : State), (On s) ∧ (m.port ≤ 8) ∧ ((s.ftSource = 1 ∨ s.ftSource = 2)) ∧ (s.ft.master = none) :=
  ⟨⟨8, 1, 1, 0⟩, (tTime 1 (fun f => { f with master := none })), by decide, by decide, by decide, by decide⟩

theorem wit_FabricTimeSources_10 : ∃ (m : PtpAnnounce) (o : PtpAnnounce) (s : State), (On s) ∧ (m.port ≤ 8) ∧ ((s.ftSource = 1 ∨ s.ftSource = 2)) ∧ (s.ft.master = some o) ∧ ((o.master ≠ m.master ∨ o.port ≠ m.port)) :=
  ⟨⟨8, 1, 1, 0⟩, ⟨2, 3, 7, 0⟩, (tTime 1 id), by decide, by decide, by decide, by decide, by decide⟩

theorem wit_FabricTimeSources_11 : ∃ (m : PtpAnnounce) (o : PtpAnnounce) (s : State), (On s) ∧ (m.port ≤ 8) ∧ ((s.ftSource = 1 ∨ s.ftSource = 2)) ∧ (s.ft.master = some o) ∧ (o.master = m.master) ∧ (o.port = m.port) :=
  ⟨⟨2, 3, 9, 0⟩, ⟨2, 3, 7, 0⟩, (tTime 1 id), by decide, by decide, by decide, by decide, by decide, by decide⟩

theorem wit_FabricTimeSources_12 : ∃ (s : State), (On s) :=
  ⟨(tTime 1 id), by decide⟩

theorem wit_FabricTimeSteps_0 : ∃ (s : State), (On s) ∧ ((s.ftSource = 2 ∨ s.ftSource = 3)) ∧ (s.ft.setSecs = none) ∧ (s.ft.valid = true) ∧ (s.ft.state = .locked) ∧ (secondOffset s.ft.now ≠ 0) ∧ ((secondOffset s.ft.now).natAbs ≤ 1000) :=
  ⟨(tTime 2 id), by decide, by decide, by decide, by decide, by decide, by decide, by decide⟩

theorem wit_FabricTimeSteps_1 : ∃ (s : State), (On s) ∧ ((s.ftSource = 2 ∨ s.ftSource = 3)) ∧ (s.ft.setSecs = none) ∧ (s.ft.valid = true) ∧ (s.ft.state = .locked) ∧ (1000 < (secondOffset s.ft.now).natAbs) :=
  ⟨(tTime 2 (fun f => { f with now := 5000001001 })), by decide, by decide, by decide, by decide, by decide, by decide⟩

theorem wit_FabricTimeSteps_2 : ∃ (s : State), (On s) ∧ ((s.ftSource = 0 ∨ s.ftSource = 1)) :=
  ⟨(tTime 1 id), by decide, by decide⟩

theorem wit_FabricTimeSteps_3 : ∃ (c : Caller) (n : Nat) (s : State), (On s) ∧ (s.ftSource = 3) ∧ (s.ft.setSecs = some (c, n)) ∧ ((s.mailbox c).busy = true) :=
  ⟨.pf0, 6, ({ asks .pf0 0x100C with ft := { State.reset.ft with setSecs := some (.pf0, 6) }, keep := [(21, { value := 3, kiln := 3 })] } : State), by decide, by decide, by decide, by decide⟩

theorem wit_FabricTimeSteps_4 : ∃ (s : State), (On s) :=
  ⟨(tTime 1 (fun f => { f with slew := 700 })), by decide⟩

theorem wit_FabricTimeSteps_5 : ∃ (s : State), (On s) :=
  ⟨(tTime 1 id), by decide⟩

theorem wit_FabricTimeSteps_6 : ∃ (c : Caller) (f : Frame) (s : State), (On s) ∧ (Serves c 0x100C f s) ∧ (s.ftSource = 3) :=
  ⟨.pf0, (reqOf 0x100C), ({ asks .pf0 0x100C with keep := [(21, { value := 3, kiln := 3 })] } : State), by decide, ⟨by decide, by decide, by decide⟩, by decide⟩

theorem wit_FabricTimeSteps_7 : ∃ (c : Caller) (f : Frame) (s : State), (On s) ∧ (Serves c 0x100C f s) ∧ (s.ftSource ≠ 3) :=
  ⟨.pf0, (reqOf 0x100C), (asks .pf0 0x100C), by decide, ⟨by decide, by decide, by decide⟩, by decide⟩

theorem wit_FabricTimeSteps_8 : ∃ (c : Caller) (n : Nat) (s : State), (On s) ∧ (s.ft.setSecs = some (c, n)) :=
  ⟨.pf0, 6, (tTime 3 (fun f => { f with setSecs := some (.pf0, 6) })), by decide, by decide⟩

theorem wit_FabricTimeSteps_9 : ∃ (s : State), (On s) ∧ (s.ft.setSecs = none) :=
  ⟨State.reset, by decide, by decide⟩

/-- Comparator 20 of T0, held by firmware of a released device, with target and argument. -/
def tCmp (target arg : Nat) (f : State → State := id) : State := f { State.reset with
  cmp := { owner := [(84, .firmware)], armed := [(84, { mode := .time, periodic := false, domain := 3, action := 8, written := target, target := target, arg := arg, armer := some 260 })] }
  regs := [(⟨.tcmpTarget, 84⟩, target), (⟨.tcmpArg, 84⟩, arg)]
  ft := { State.reset.ft with now := 1000, valid := true, state := .locked } }

def tArmed : Armed := { mode := .time, periodic := false, domain := 3, action := 8, written := 2000, target := 2000, arg := 30, armer := some 260 }

/-- Comparator 84 armed as `a`, at fabric time 1000. -/
def tFire (a : Armed) (f : State → State := id) : State := f { tCmp 0 0 with cmp := { armed := [(84, a)] } }

theorem wit_ComparatorArming_0 : ∃ (a : Agent) (die : Nat) (idx : Nat) (s : State), (die ≤ 2) ∧ (idx ≤ 63) ∧ (MainUp s) ∧ (cmpMayWrite s a (cmpKey die idx) = false) :=
  ⟨.pf0, 1, 20, (tCmp 2000 0), by decide, by decide, by decide, by decide⟩

theorem wit_ComparatorArming_1 : ∃ (a : Agent) (die : Nat) (idx : Nat) (v : Word) (s : State), (die ≤ 2) ∧ (idx ≤ 63) ∧ (MainUp s) ∧ (cmpMayWrite s a (cmpKey die idx) = true) ∧ ((natBits v.toNat 2 1 = 3 ∨ 8 < natBits v.toNat 15 12)) :=
  ⟨.firmware, 1, 20, 7, (tCmp 2000 0), by decide, by decide, by decide, by decide, by decide⟩

theorem wit_ComparatorArming_2 : ∃ (a : Agent) (die : Nat) (idx : Nat) (v : Word) (s : State), (die ≤ 2) ∧ (idx ≤ 63) ∧ (MainUp s) ∧ (cmpMayWrite s a (cmpKey die idx) = true) ∧ (natBits v.toNat 2 1 ≠ 3) ∧ (natBits v.toNat 15 12 ≤ 8) ∧ (natBit v.toNat 0 = true) ∧ (natBits v.toNat 2 1 ≠ 0) ∧ (2 ^ 48 ≤ s.reg .tcmpTarget (cmpKey die idx)) :=
  ⟨.firmware, 1, 20, 3, (tCmp 0x1000000000000 0), by decide, by decide, by decide, by decide, by decide, by decide, by decide, by decide, by decide⟩

theorem wit_ComparatorArming_3 : ∃ (a : Agent) (die : Nat) (idx : Nat) (v : Word) (s : State), (die ≤ 2) ∧ (idx ≤ 63) ∧ (MainUp s) ∧ (cmpMayWrite s a (cmpKey die idx) = true) ∧ (natBits v.toNat 2 1 ≠ 3) ∧ (natBits v.toNat 15 12 ≤ 8) ∧ (natBit v.toNat 0 = false) :=
  ⟨.firmware, 1, 20, 0x3000, (tCmp 2000 0), by decide, by decide, by decide, by decide, by decide, by decide, by decide⟩

theorem wit_ComparatorArming_4 : ∃ (a : Agent) (die : Nat) (idx : Nat) (v : Word) (s : State), (die ≤ 2) ∧ (idx ≤ 63) ∧ (MainUp s) ∧ (cmpMayWrite s a (cmpKey die idx) = true) ∧ (natBits v.toNat 2 1 ≠ 3) ∧ (natBits v.toNat 15 12 ≤ 8) ∧ (natBit v.toNat 0 = true) ∧ (natBits v.toNat 2 1 = 0) ∧ ((s.ft.valid = false ∨ s.ft.now ≤ s.reg .tcmpTarget (cmpKey die idx))) :=
  ⟨.firmware, 1, 20, 0x38009, (tCmp 1000 30), by decide, by decide, by decide, by decide, by decide, by decide, by decide, by decide, by decide⟩

theorem wit_ComparatorArming_5 : ∃ (a : Agent) (die : Nat) (idx : Nat) (v : Word) (s : State), (die ≤ 2) ∧ (idx ≤ 63) ∧ (MainUp s) ∧ (cmpMayWrite s a (cmpKey die idx) = true) ∧ (natBits v.toNat 2 1 ≠ 3) ∧ (natBits v.toNat 15 12 ≤ 8) ∧ (natBit v.toNat 0 = true) ∧ (natBits v.toNat 2 1 = 0) ∧ (natBit v.toNat 3 = false) ∧ (s.ft.valid = true) ∧ (s.reg .tcmpTarget (cmpKey die idx) < s.ft.now) :=
  ⟨.firmware, 1, 20, 0x38001, (tCmp 999 30), by decide, by decide, by decide, by decide, by decide, by decide, by decide, by decide, by decide, by decide, by decide⟩

theorem wit_ComparatorArming_6 : ∃ (a : Agent) (die : Nat) (idx : Nat) (v : Word) (s : State), (die ≤ 2) ∧ (idx ≤ 63) ∧ (MainUp s) ∧ (cmpMayWrite s a (cmpKey die idx) = true) ∧ (natBits v.toNat 2 1 ≠ 3) ∧ (natBits v.toNat 15 12 ≤ 8) ∧ (natBit v.toNat 0 = true) ∧ (natBits v.toNat 2 1 = 0) ∧ (natBit v.toNat 3 = true) ∧ (s.reg .tcmpArg (cmpKey die idx) ≠ 0) ∧ (s.ft.valid = true) ∧ (s.reg .tcmpTarget (cmpKey die idx) < s.ft.now) :=
  ⟨.firmware, 1, 20, 0x38009, (tCmp 900 30), by decide, by decide, by decide, by decide, by decide, by decide, by decide, by decide, by decide, by decide, by decide, by decide⟩

theorem wit_ComparatorArming_7 : ∃ (a : Agent) (die : Nat) (idx : Nat) (v : Word) (s : State), (die ≤ 2) ∧ (idx ≤ 63) ∧ (MainUp s) ∧ (cmpMayWrite s a (cmpKey die idx) = true) ∧ (natBits v.toNat 2 1 ≠ 3) ∧ (natBits v.toNat 15 12 ≤ 8) ∧ (natBit v.toNat 0 = true) ∧ (natBits v.toNat 2 1 = 1) ∧ (s.reg .tcmpTarget (cmpKey die idx) < 2 ^ 48) ∧ (s.reg .cadSteepCount (natBits v.toNat 21 16) ≤ s.reg .tcmpTarget (cmpKey die idx)) :=
  ⟨.firmware, 1, 20, 0x3800B, (tCmp 900 30), by decide, by decide, by decide, by decide, by decide, by decide, by decide, by decide, by decide, by decide⟩

theorem wit_ComparatorArming_8 : ∃ (a : Agent) (die : Nat) (idx : Nat) (v : Word) (s : State), (die ≤ 2) ∧ (idx ≤ 63) ∧ (MainUp s) ∧ (cmpMayWrite s a (cmpKey die idx) = true) ∧ (natBits v.toNat 2 1 ≠ 3) ∧ (natBits v.toNat 15 12 ≤ 8) ∧ (natBit v.toNat 0 = true) ∧ (natBits v.toNat 2 1 = 1) ∧ (natBit v.toNat 3 = true) ∧ (s.reg .tcmpArg (cmpKey die idx) ≠ 0) ∧ (s.reg .tcmpTarget (cmpKey die idx) < 2 ^ 48) ∧ (s.reg .tcmpTarget (cmpKey die idx) < s.reg .cadSteepCount (natBits v.toNat 21 16)) :=
  ⟨.firmware, 1, 20, 0x3800B, (tCmp 900 30 (fun s => s.setReg .cadSteepCount 1000 3)), by decide, by decide, by decide, by decide, by decide, by decide, by decide, by decide, by decide, by decide, by decide, by decide⟩

theorem wit_ComparatorArming_9 : ∃ (a : Agent) (die : Nat) (idx : Nat) (v : Word) (s : State), (die ≤ 2) ∧ (idx ≤ 63) ∧ (MainUp s) ∧ (cmpMayWrite s a (cmpKey die idx) = true) ∧ (natBits v.toNat 2 1 ≠ 3) ∧ (natBits v.toNat 15 12 ≤ 8) ∧ (natBit v.toNat 0 = true) ∧ (natBits v.toNat 2 1 = 2) ∧ (s.reg .tcmpTarget (cmpKey die idx) < 2 ^ 48) ∧ ((natBit v.toNat 3 = true ∨ s.dom (natBits v.toNat 21 16) = none)) :=
  ⟨.firmware, 1, 20, 0x38005, (tCmp 900 30), by decide, by decide, by decide, by decide, by decide, by decide, by decide, by decide, by decide, by decide⟩

theorem wit_ComparatorArming_10 : ∃ (a : Agent) (die : Nat) (idx : Nat) (v : Word) (D : Domain) (tb : Nat) (s : State), (die ≤ 2) ∧ (idx ≤ 63) ∧ (MainUp s) ∧ (cmpMayWrite s a (cmpKey die idx) = true) ∧ (natBits v.toNat 2 1 ≠ 3) ∧ (natBits v.toNat 15 12 ≤ 8) ∧ (natBit v.toNat 0 = true) ∧ (natBits v.toNat 2 1 = 2) ∧ (s.reg .tcmpTarget (cmpKey die idx) < 2 ^ 48) ∧ (natBit v.toNat 3 = false) ∧ (s.dom (natBits v.toNat 21 16) = some D) ∧ (D.lastTb.find (s.reg .tcmpTarget (cmpKey die idx)) = some tb) :=
  ⟨.firmware, 1, 20, 0x38005, { tD with lastTb := [(900, 990)] }, 990, (tCmp 900 9 (fun s => { s with doms := [(3, { tD with lastTb := [(900, 990)] })] })), by decide, by decide, by decide, by decide, by decide, by decide, by decide, by decide, by decide, by decide, by decide, by decide⟩

theorem wit_ComparatorFires_0 : ∃ (die : Nat) (idx : Nat) (s : State), (die ≤ 2) ∧ (idx ≤ 63) ∧ (On s) ∧ (s.cmp.armed.find (cmpKey die idx) = none) :=
  ⟨0, 63, State.reset, by decide, by decide, by decide, by decide⟩

theorem wit_ComparatorFires_1 : ∃ (die : Nat) (idx : Nat) (a : Armed) (s : State), (die ≤ 2) ∧ (idx ≤ 63) ∧ (On s) ∧ (s.cmp.armed.find (cmpKey die idx) = some a) ∧ ((a.fired = true ∨ a.mode = .time ∧ s.ft.valid = false ∨ a.mode = .steep ∧ a.owed = false ∧ s.reg .cadSteepCount a.domain < a.target ∨ a.mode = .phase ∧ a.due = none)) :=
  ⟨1, 20, { tArmed with fired := true }, (tFire { tArmed with fired := true }), by decide, by decide, by decide, by decide, by decide⟩

theorem wit_ComparatorFires_2 : ∃ (die : Nat) (idx : Nat) (id : Nat) (a : Armed) (s : State), (die ≤ 2) ∧ (idx ≤ 63) ∧ (On s) ∧ (s.cmp.armed.find (cmpKey die idx) = some a) ∧ (a.mode = .time) ∧ (s.ft.valid = true) ∧ (a.fired = false) ∧ (s.fld .tcmpCtl 22 22 (cmpKey die idx) = 0) ∧ (s.frozen = false) ∧ (a.owed = false) ∧ (a.periodic = false) ∧ (a.action = 8) ∧ (a.armer = some id) :=
  ⟨1, 20, 260, tArmed, (tFire tArmed), by decide, by decide, by decide, by decide, by decide, by decide, by decide, by decide, by decide, by decide, by decide, by decide, by decide⟩

theorem wit_ComparatorFires_3 : ∃ (die : Nat) (idx : Nat) (a : Armed) (s : State), (die ≤ 2) ∧ (idx ≤ 63) ∧ (On s) ∧ (s.cmp.armed.find (cmpKey die idx) = some a) ∧ (a.mode = .time) ∧ (s.ft.valid = true) ∧ (a.fired = false) ∧ (s.fld .tcmpCtl 22 22 (cmpKey die idx) = 0) ∧ (s.frozen = false) ∧ (a.owed = false) ∧ (a.periodic = true) ∧ (a.arg ≠ 0) ∧ (a.action = 5) :=
  ⟨1, 20, { tArmed with periodic := true, action := 5 }, (tFire { tArmed with periodic := true, action := 5 }), by decide, by decide, by decide, by decide, by decide, by decide, by decide, by decide, by decide, by decide, by decide, by decide, by decide⟩

theorem wit_ComparatorFires_4 : ∃ (die : Nat) (idx : Nat) (a : Armed) (s : State), (die ≤ 2) ∧ (idx ≤ 63) ∧ (On s) ∧ (s.cmp.armed.find (cmpKey die idx) = some a) ∧ (a.mode = .time) ∧ (s.ft.valid = true) ∧ (a.fired = false) ∧ (s.fld .tcmpCtl 22 22 (cmpKey die idx) = 0) ∧ (s.frozen = false) ∧ (a.owed = true) ∧ (a.periodic = true) ∧ (a.arg ≠ 0) ∧ (a.action = 5) :=
  ⟨1, 20, { tArmed with periodic := true, action := 5, owed := true }, (tFire { tArmed with periodic := true, action := 5, owed := true }), by decide, by decide, by decide, by decide, by decide, by decide, by decide, by decide, by decide, by decide, by decide, by decide, by decide⟩

theorem wit_ComparatorFires_5 : ∃ (die : Nat) (idx : Nat) (a : Armed) (s : State), (die ≤ 2) ∧ (idx ≤ 63) ∧ (On s) ∧ (s.cmp.armed.find (cmpKey die idx) = some a) ∧ (a.mode = .steep) ∧ (a.fired = false) ∧ (a.owed = false) ∧ (a.target ≤ s.reg .cadSteepCount a.domain) ∧ (a.periodic = true) ∧ (a.arg ≠ 0) ∧ (a.action = 5) ∧ (s.fld .tcmpCtl 22 22 (cmpKey die idx) = 0) ∧ (s.frozen = false) :=
  ⟨1, 20, { tArmed with mode := .steep, target := 0, periodic := true, action := 5 }, (tFire { tArmed with mode := .steep, target := 0, periodic := true, action := 5 }), by decide, by decide, by decide, by decide, by decide, by decide, by decide, by decide, by decide, by decide, by decide, by decide, by decide⟩

theorem wit_ComparatorFires_6 : ∃ (die : Nat) (idx : Nat) (a : Armed) (s : State), (die ≤ 2) ∧ (idx ≤ 63) ∧ (On s) ∧ (s.cmp.armed.find (cmpKey die idx) = some a) ∧ (a.mode = .time) ∧ (s.ft.valid = true) ∧ (a.fired = false) ∧ (s.fld .tcmpCtl 22 22 (cmpKey die idx) = 0) ∧ (s.frozen = false) ∧ (a.owed = false) ∧ (1 ≤ die) ∧ (a.action = 0) :=
  ⟨1, 20, { tArmed with action := 0 }, (tFire { tArmed with action := 0 }), by decide, by decide, by decide, by decide, by decide, by decide, by decide, by decide, by decide, by decide, by decide, by decide⟩

theorem wit_ComparatorFires_7 : ∃ (die : Nat) (idx : Nat) (a : Armed) (s : State), (die ≤ 2) ∧ (idx ≤ 63) ∧ (On s) ∧ (s.cmp.armed.find (cmpKey die idx) = some a) ∧ (a.mode = .time) ∧ (s.ft.valid = true) ∧ (a.fired = false) ∧ (a.owed = false) ∧ (a.periodic = false) ∧ (s.fld .tcmpCtl 22 22 (cmpKey die idx) = 0) ∧ (s.frozen = true) :=
  ⟨1, 20, tArmed, (tFire tArmed (fun s => { s with frozen := true })), by decide, by decide, by decide, by decide, by decide, by decide, by decide, by decide, by decide, by decide, by decide⟩

theorem wit_ComparatorFires_8 : ∃ (die : Nat) (idx : Nat) (a : Armed) (s : State), (die ≤ 2) ∧ (idx ≤ 63) ∧ (On s) ∧ (s.cmp.armed.find (cmpKey die idx) = some a) ∧ (a.mode = .time) ∧ (s.ft.valid = true) ∧ (a.fired = false) ∧ (a.owed = false) ∧ (a.periodic = true) ∧ (a.arg ≠ 0) ∧ (s.fld .tcmpCtl 22 22 (cmpKey die idx) = 1) :=
  ⟨1, 20, { tArmed with periodic := true }, (tFire { tArmed with periodic := true } (fun s => { s with frozen := true }.setFld .tcmpCtl 22 22 1 84)), by decide, by decide, by decide, by decide, by decide, by decide, by decide, by decide, by decide, by decide, by decide⟩

theorem wit_ComparatorFires_9 : ∃ (a : Agent) (s : State), (MainUp s) ∧ (reachesDebug s a = true) :=
  ⟨.mgmt, State.reset, by decide, by decide⟩

theorem wit_ComparatorFires_10 : ∃ (a : Agent) (s : State), (MainUp s) ∧ (reachesDebug s a = false) :=
  ⟨(.slice 3), State.reset, by decide, by decide⟩

theorem wit_ComparatorFires_11 : ∃ (a : Agent) (s : State), (MainUp s) ∧ (reachesDebug s a = true) ∧ (s.frozen = true) ∧ (s.fw.shutDown = false) ∧ (s.cmp.armed = []) :=
  ⟨.mgmt, ({ State.reset.setFld .tcmpCtl 22 22 1 84 with frozen := true } : State), by decide, by decide, by decide, by decide, by decide⟩

theorem wit_ComparatorFires_12 : ∃ (a : Agent) (id : Nat) (k : Nat) (x : Armed) (s : State), (MainUp s) ∧ (reachesDebug s a = true) ∧ (s.frozen = true) ∧ (s.fw.shutDown = false) ∧ (k < 192) ∧ (s.fld .tcmpCtl 22 22 k = 1) ∧ (s.cmp.armed = [(k, x)]) ∧ (x.action = 8) ∧ (x.armer = some id) :=
  ⟨.mgmt, 260, 84, tArmed, (tFire tArmed (fun s => { s.setFld .tcmpCtl 22 22 1 84 with frozen := true })), by decide, by decide, by decide, by decide, by decide, by decide, by decide, by decide, by decide⟩

theorem wit_ComparatorRequests_0 : ∃ (c : Caller) (die : Byte) (n : Byte) (l : List Nat) (f : Frame) (s : State), (On s) ∧ (Serves c 0x100D f s) ∧ (die.toNat ≤ 2) ∧ ((1 ≤ n.toNat ∧ n.toNat ≤ 16)) ∧ ((die ≠ 0 ∨ c = .pf0 ∨ c = .pf1)) ∧ (cmpLowest die.toNat n.toNat s = some l) :=
  ⟨.pf0, 0, 3, [16, 17, 18], (reqOf 0x100D), (asks .pf0 0x100D), by decide, ⟨by decide, by decide, by decide⟩, by decide, by decide, by decide, by decide⟩

theorem wit_ComparatorRequests_1 : ∃ (c : Caller) (die : Byte) (n : Byte) (f : Frame) (s : State), (On s) ∧ (Serves c 0x100D f s) ∧ ((1 ≤ n.toNat ∧ n.toNat ≤ 16)) ∧ (die.toNat ≤ 2) ∧ ((die ≠ 0 ∨ c = .pf0 ∨ c = .pf1)) ∧ (cmpLowest die.toNat n.toNat s = none) :=
  ⟨.pf0, 0, 3, (reqOf 0x100D), ({ asks .pf0 0x100D with cmp := { owner := (List.range 64).map (fun i => (i, .firmware)) } } : State), by decide, ⟨by decide, by decide, by decide⟩, by decide, by decide, by decide, by decide⟩

theorem wit_ComparatorRequests_2 : ∃ (c : Caller) (die : Byte) (f : Frame) (s : State), (On s) ∧ (Serves c 0x100D f s) ∧ (2 < die.toNat) :=
  ⟨.pf0, 3, (reqOf 0x100D), (asks .pf0 0x100D), by decide, ⟨by decide, by decide, by decide⟩, by decide⟩

theorem wit_ComparatorRequests_3 : ∃ (c : Caller) (die : Byte) (n : Byte) (f : Frame) (s : State), (On s) ∧ (Serves c 0x100D f s) ∧ (die.toNat ≤ 2) ∧ (n = 0) :=
  ⟨.pf0, 2, 0, (reqOf 0x100D), (asks .pf0 0x100D), by decide, ⟨by decide, by decide, by decide⟩, by decide, by decide⟩

theorem wit_ComparatorRequests_4 : ∃ (c : Caller) (die : Byte) (n : Byte) (f : Frame) (s : State), (On s) ∧ (Serves c 0x100D f s) ∧ (die.toNat ≤ 2) ∧ (16 < n.toNat) :=
  ⟨.pf0, 2, 17, (reqOf 0x100D), (asks .pf0 0x100D), by decide, ⟨by decide, by decide, by decide⟩, by decide, by decide⟩

theorem wit_ComparatorRequests_5 : ∃ (k : Nat) (die : Byte) (n : Byte) (f : Frame) (s : State), (On s) ∧ (Serves (.slice k) 0x100D f s) ∧ (die = 0) ∧ ((1 ≤ n.toNat ∧ n.toNat ≤ 16)) :=
  ⟨5, 0, 1, (reqOf 0x100D), (asks (.slice 5) 0x100D), by decide, ⟨by decide, by decide, by decide⟩, by decide, by decide⟩

theorem wit_ComparatorRequests_6 : ∃ (c : Caller) (die : Byte) (n : Byte) (f : Frame) (s : State), (On s) ∧ (Serves c 0x100F f s) ∧ (die.toNat ≤ 2) ∧ (n.toNat ≤ 63) ∧ (s.cmp.owner.get (cmpKey die.toNat n.toNat) .free = .caller c) :=
  ⟨.pf0, 0, 20, (reqOf 0x100F), ({ asks .pf0 0x100F with cmp := { owner := [(20, .caller .pf0)], armed := [(20, tArmed)] } } : State), by decide, ⟨by decide, by decide, by decide⟩, by decide, by decide, by decide⟩

theorem wit_ComparatorRequests_7 : ∃ (c : Caller) (die : Byte) (n : Byte) (f : Frame) (s : State), (On s) ∧ (Serves c 0x100F f s) ∧ (die.toNat ≤ 2) ∧ ((63 < n.toNat ∨ s.cmp.owner.get (cmpKey die.toNat n.toNat) .free ≠ .caller c)) :=
  ⟨.pf0, 0, 20, (reqOf 0x100F), (asks .pf0 0x100F), by decide, ⟨by decide, by decide, by decide⟩, by decide, by decide⟩

theorem wit_ComparatorRequests_8 : ∃ (c : Caller) (d : Nat) (D : Domain) (f : Frame) (s : State), (On s) ∧ (Serves c 0x3008 f s) ∧ (s.dom d = some D) ∧ (D.owner = ownerOf c) ∧ (isArmed s d = false) :=
  ⟨.pf0, 3, tD, (reqOf 0x3008), ({ asks .pf0 0x3008 with doms := [(3, tD)] } : State), by decide, ⟨by decide, by decide, by decide⟩, by decide, by decide, by decide⟩

theorem wit_ComparatorRequests_9 : ∃ (c : Caller) (d : Nat) (k : Nat) (D : Domain) (a : Armed) (f : Frame) (s : State), (On s) ∧ (Serves c 0x3008 f s) ∧ (s.dom d = some D) ∧ (D.owner = ownerOf c) ∧ (isArmed s d = false) ∧ (s.cmp.armed = [(k, a)]) ∧ (a.domain = d) ∧ (a.mode = .steep) ∧ (a.periodic = true) ∧ (a.arg ≠ 0) :=
  ⟨.pf0, 3, 84, tD, { tArmed with mode := .steep, periodic := true }, (reqOf 0x3008), ({ asks .pf0 0x3008 with doms := [(3, tD)], cmp := { armed := [(84, { tArmed with mode := .steep, periodic := true })] } } : State), by decide, ⟨by decide, by decide, by decide⟩, by decide, by decide, by decide, by decide, by decide, by decide, by decide, by decide⟩

theorem wit_ComparatorRequests_10 : ∃ (c : Caller) (d : Nat) (D : Domain) (f : Frame) (s : State), (On s) ∧ (Serves c 0x3008 f s) ∧ (s.dom d = some D) ∧ (D.owner = ownerOf c) ∧ (isArmed s d = true) :=
  ⟨.pf0, 3, tD, (reqOf 0x3008), ({ asks .pf0 0x3008 with doms := [(3, tD)], regs := [(⟨.cadDomainCtl, 3⟩, 1)] } : State), by decide, ⟨by decide, by decide, by decide⟩, by decide, by decide, by decide⟩

/-- A record waiting in the intake queue, and 3 records lost in second 0 while local time stands at 2 s. -/
def tRec : StrataRec := { code := St.keepWorn, sev := .warning, a32 := 7, seq := 8200, boot := 3 }

def tStrata (f : Strata → Strata) : State := { State.reset with strata := f { queue := [tRec], nextSeq := 8201, last := some tRec, used := 1 } }

/-- Die 1 with an enabled buffer, triggered mode armed for causes 2 and 4. -/
def tSieve (st : Nat) : State := { State.reset with regs := [(⟨.sivCtl, 1⟩, 0xA0000003), (⟨.sivTrigCause, 1⟩, 0x14), (⟨.sivStatus, 1⟩, st * 2 ^ 30), (⟨.sivStatus, 2⟩, 2 ^ 31)] }

theorem wit_StrataRecords_0 : ∃ (q : List StrataRec) (r : StrataRec) (s : State), (MainUp s) ∧ (s.strata.queue = r :: q) ∧ ((s.strata.last = none ∨ s.strata.last.map (fun l => l.seq) ≠ some r.seq)) :=
  ⟨[], tRec, (tStrata (fun x => { x with last := none })), by decide, by decide, by decide⟩

theorem wit_StrataRecords_1 : ∃ (q : List StrataRec) (r : StrataRec) (l : StrataRec) (s : State), (MainUp s) ∧ (s.strata.queue = r :: q) ∧ (s.strata.last = some l) ∧ (l.seq = r.seq) :=
  ⟨[], tRec, { tRec with repeats := 4 }, (tStrata (fun x => { x with last := some { tRec with repeats := 4 } })), by decide, by decide, by decide, by decide⟩

theorem wit_StrataRecords_2 : ∃ (s : State), (MainUp s) ∧ (s.strata.queue = []) :=
  ⟨State.reset, by decide, by decide⟩

theorem wit_StrataRecords_3 : ∃ (s : State), (MainUp s) ∧ (s.strata.lostNow = 0) :=
  ⟨State.reset, by decide, by decide⟩

theorem wit_StrataRecords_4 : ∃ (s : State), (MainUp s) ∧ (0 < s.strata.lostNow) ∧ (s.strata.lostNow < 2 ^ 32) ∧ (s.strata.second < s.localSec) ∧ (s.strata.last = none) :=
  ⟨({ tStrata (fun x => { x with last := none, lostNow := 3, lostFirst := St.clockLost }) with pwr := { State.reset.pwr with localNs := 2000000001 } } : State), by decide, by decide, by decide, by decide, by decide⟩

theorem wit_StrataRecords_5 : ∃ (s : State), (MainUp s) ∧ (0 < s.strata.lostNow) ∧ (s.strata.second = s.localSec) :=
  ⟨(tStrata (fun x => { x with lostNow := 3 })), by decide, by decide, by decide⟩

theorem wit_StrataRecords_6 : ∃ (l : StrataRec) (s : State), (MainUp s) ∧ (s.strata.second = s.localSec) ∧ (s.strata.last = some l) ∧ (l.kind = .timeMark) ∧ (l.repeats < 16777215) ∧ (s.strata.kiln.find (strataSlot l.seq) = none) :=
  ⟨{ tRec with kind := .timeMark }, (tStrata (fun x => { x with last := some { tRec with kind := .timeMark } })), by decide, by decide, by decide, by decide, by decide, by decide⟩

theorem wit_StrataRecords_7 : ∃ (l : StrataRec) (s : State), (MainUp s) ∧ (s.strata.second = s.localSec) ∧ (s.strata.last = some l) ∧ (l.kind ≠ .timeMark) ∧ (s.strata.kiln.find (strataSlot l.seq) = none) ∧ (s.strata.used < 16320) ∧ (s.strata.queue.length < 1024) :=
  ⟨tRec, (tStrata id), by decide, by decide, by decide, by decide, by decide, by decide, by decide⟩

theorem wit_TriggersAndInterrupts_0 : ∃ (die : Nat) (s : State), (die ≤ 2) ∧ (MainUp s) ∧ (natBit (s.reg .sivTrigCause die) 4 = false) :=
  ⟨0, State.reset, by decide, by decide, by decide⟩

theorem wit_TriggersAndInterrupts_1 : ∃ (die : Nat) (s : State), (die ≤ 2) ∧ (On s) ∧ (natBit (s.reg .sivTrigCause die) 4 = true) ∧ (s.fld .sivCtl 2 1 die = 1) ∧ (s.fld .sivCtl 31 31 die = 1) ∧ (s.fld .sivStatus 31 30 die = 1) :=
  ⟨1, (tSieve 1), by decide, by decide, by decide, by decide, by decide, by decide⟩

theorem wit_TriggersAndInterrupts_2 : ∃ (die : Nat) (s : State), (die ≤ 2) ∧ (MainUp s) ∧ (natBit (s.reg .sivTrigCause die) 4 = true) ∧ (s.fld .sivCtl 2 1 die = 1) ∧ ((s.fld .sivStatus 31 30 die = 2 ∨ s.fld .sivStatus 31 30 die = 3)) :=
  ⟨1, (tSieve 2), by decide, by decide, by decide, by decide, by decide⟩

theorem wit_TriggersAndInterrupts_3 : ∃ (die : Nat) (o : Nat) (s : State), (die ≤ 2) ∧ (o ≤ 2) ∧ (On s) ∧ ((die = o ∨ s.fld .sivStatus 31 30 o < 2 ∨ natBit (s.reg .sivTrigCause die) 2 = false)) :=
  ⟨1, 0, (tSieve 1), by decide, by decide, by decide, by decide⟩

theorem wit_TriggersAndInterrupts_4 : ∃ (die : Nat) (o : Nat) (s : State), (die ≤ 2) ∧ (o ≤ 2) ∧ (On s) ∧ (die ≠ o) ∧ (2 ≤ s.fld .sivStatus 31 30 o) ∧ (natBit (s.reg .sivTrigCause die) 2 = true) ∧ (s.fld .sivCtl 2 1 die = 1) ∧ (s.fld .sivCtl 31 31 die = 1) ∧ (s.fld .sivStatus 31 30 die = 1) :=
  ⟨1, 2, (tSieve 1), by decide, by decide, by decide, by decide, by decide, by decide, by decide, by decide, by decide⟩

theorem wit_TriggersAndInterrupts_5 : ∃ (s : State), (MainUp s) :=
  ⟨State.reset, by decide⟩

theorem wit_TriggersAndInterrupts_6 : ∃ (s : State), (MainUp s) :=
  ⟨(State.reset.bump .dbgAccessErr), by decide⟩

theorem wit_TriggersAndInterrupts_7 : ∃ (v : Word) (s : State), (MainUp s) ∧ (v = 1) :=
  ⟨1, State.reset, by decide, by decide⟩

theorem wit_TriggersAndInterrupts_8 : ∃ (off : Nat) (s : State), (MainUp s) ∧ ((0x400000 ≤ off ∧ off < 0xD00000)) ∧ (off % 4 = 0) :=
  ⟨0x400004, State.reset, by decide, by decide, by decide⟩

theorem wit_TriggersAndInterrupts_9 : ∃ (off : Nat) (s : State), (MainUp s) ∧ (off % 4 ≠ 0) :=
  ⟨5, State.reset, by decide, by decide⟩

theorem wit_TriggersAndInterrupts_10 : ∃ (cl : Nat) (v : Word) (s : State), (cl ≤ 15) ∧ (On s) ∧ (v.toNat % 1024 < 256) ∧ (s.eicBit .eicActive cl (v.toNat % 1024) = true) :=
  ⟨3, 0x421, (State.reset.setEicBit .eicActive 3 33 true), by decide, by decide, by decide, by decide⟩

theorem wit_TriggersAndInterrupts_11 : ∃ (cl : Nat) (v : Word) (s : State), (cl ≤ 15) ∧ (On s) ∧ ((256 ≤ v.toNat % 1024 ∨ s.eicBit .eicActive cl (v.toNat % 1024) = false)) :=
  ⟨3, 33, State.reset, by decide, by decide, by decide⟩

theorem wit_TriggersAndInterrupts_12 : ∃ (cl : Nat) (s : State), (cl ≤ 15) ∧ (On s) :=
  ⟨15, State.reset, by decide, by decide⟩

theorem wit_TriggersAndInterrupts_13 : ∃ (cl : Nat) (src : Nat) (s : State), (cl ≤ 15) ∧ (src ≤ 255) ∧ (On s) :=
  ⟨1, 2, ({ State.reset with irq := { lastTake := [(258, 9), (259, 3)] } } : State), by decide, by decide, by decide⟩

theorem wit_TriggersAndInterrupts_14 : ∃ (o : Caller) (e : Nat) (s : State), (On s) ∧ (((s.irqEntry o e).acc = 0 ∨ (s.irqEntry o e).interval = 0)) :=
  ⟨(.slice 4), 3, State.reset, by decide, by decide⟩

theorem wit_TriggersAndInterrupts_15 : ∃ (o : Caller) (e : Nat) (s : State), (On s) ∧ ((s.irqEntry o e).acc ≠ 0) ∧ ((s.irqEntry o e).interval ≠ 0) ∧ (msiBlocked s o (s.irqEntry o e) = true) :=
  ⟨(.slice 4), 3, ({ State.reset with irq := { entries := [((.slice 4, 3), { acc := 2, interval := 5, mask := true })] } } : State), by decide, by decide, by decide, by decide⟩

theorem wit_TriggersAndInterrupts_16 : ∃ (o : Caller) (e : Nat) (s : State), (On s) ∧ ((s.irqEntry o e).acc ≠ 0) ∧ ((s.irqEntry o e).interval ≠ 0) ∧ (msiBlocked s o (s.irqEntry o e) = false) :=
  ⟨(.slice 4), 3, ({ State.reset with irq := { entries := [((.slice 4, 3), { acc := 2, interval := 5 })] }, pci := { State.reset.pci with bme := [(0, true)], hostUp := true } } : State), by decide, by decide, by decide, by decide⟩

/-- The staging area open to PF0 at stage `st`, and PF0 asking for `op`. -/
def staging (st op : Nat) : State := { asks .pf0 op with keep := [(2, { value := st, kiln := st })] }

theorem wit_MailboxProtocol_0 : ∃ (c : Caller) (v : Word) (s : State), (On s) ∧ (mbxWritable s c = true) ∧ (v = 1) ∧ ((s.mailbox c).busy = false) :=
  ⟨.pf0, 1, State.reset, by decide, by decide, by decide, by decide⟩

theorem wit_MailboxProtocol_1 : ∃ (c : Caller) (v : Word) (s : State), (On s) ∧ (mbxWritable s c = true) ∧ (v = 1) ∧ ((s.mailbox c).busy = true) :=
  ⟨.pf0, 1, (asks .pf0 1), by decide, by decide, by decide, by decide⟩

theorem wit_MailboxProtocol_2 : ∃ (c : Caller) (v : Word) (s : State), (On s) ∧ (mbxWritable s c = true) ∧ (v ≠ 1) :=
  ⟨.pf0, 2, State.reset, by decide, by decide, by decide⟩

theorem wit_MailboxProtocol_3 : ∃ (k : Nat) (s : State), (On s) ∧ (mbxWritable s (.slice k) = false) :=
  ⟨5, State.reset, by decide, by decide⟩

theorem wit_MailboxProtocol_4 : ∃ (c : Caller) (s : State), (On s) ∧ ((c = .pf0 ∨ c = .pf1)) ∧ (mbxWritable s c = false) :=
  ⟨.pf1, ({ State.reset with pci := { State.reset.pci with flr := [.pf1] } } : State), by decide, by decide, by decide⟩

theorem wit_MailboxProtocol_5 : ∃ (c : Caller) (s : State), (On s) ∧ ((s.mailbox c).busy = true) ∧ ((s.mailbox c).taken = false) ∧ (svcRuns s svcMailbox = true) :=
  ⟨.pf1, ({ asks .pf0 1 with mbx := [(.pf1, { busy := true, frame := some (reqOf 1) })] } : State), by decide, by decide, by decide, by decide⟩

theorem wit_MailboxProtocol_6 : ∃ (c : Caller) (s : State), (On s) ∧ (((s.mailbox c).busy = false ∨ (s.mailbox c).taken = true ∨ svcRuns s svcMailbox = false)) :=
  ⟨.pf1, State.reset, by decide, by decide⟩

theorem wit_MailboxProtocol_7 : ∃ (c : Caller) (s : State), (On s) ∧ (mbxWritable s c = true) :=
  ⟨.pf0, ({ State.reset with mbx := [(.pf0, { events := [⟨1, 2⟩, ⟨3, 4⟩] })] } : State), by decide, by decide⟩

theorem wit_MailboxProtocol_8 : ∃ (c : Caller) (f : Frame) (s : State), (On s) ∧ (Serves c 0xA001 f s) :=
  ⟨.pf1, (reqOf 0xA001), (asks .pf1 0xA001), by decide, ⟨by decide, by decide, by decide⟩⟩

theorem wit_MailboxProtocol_9 : ∃ (c : Caller) (ma : Byte) (f : Frame) (s : State), (On s) ∧ (Serves c 0xA001 f s) ∧ (ma ≠ 1) :=
  ⟨.pf1, 2, (reqOf 0xA001), (asks .pf1 0xA001), by decide, ⟨by decide, by decide, by decide⟩, by decide⟩

theorem wit_FirmwareStaging_0 : ∃ (c : Caller) (f : Frame) (s : State), (On s) ∧ (Serves c 0x1002 f s) ∧ (fwStage s = 0) ∧ ((s.keepWord kFwState).changes + 2 < keepRated) :=
  ⟨.pf1, (reqOf 0x1002), (asks .pf1 0x1002), by decide, ⟨by decide, by decide, by decide⟩, by decide, by decide⟩

theorem wit_FirmwareStaging_1 : ∃ (c : Caller) (f : Frame) (s : State), (On s) ∧ (Serves c 0x1002 f s) ∧ ((fwStage s ≠ 1 ∨ natBits (s.kw kFwState) 15 8 = stagingOwner c)) ∧ (fwStage s ≠ 0) :=
  ⟨.pf0, (reqOf 0x1002), (staging 2 0x1002), by decide, ⟨by decide, by decide, by decide⟩, by decide, by decide⟩

theorem wit_FirmwareStaging_2 : ∃ (c : Caller) (f : Frame) (s : State), (On s) ∧ (Serves c 0x1002 f s) ∧ (fwStage s = 1) ∧ (natBits (s.kw kFwState) 15 8 ≠ stagingOwner c) :=
  ⟨.pf0, (reqOf 0x1002), (staging 0x101 0x1002), by decide, ⟨by decide, by decide, by decide⟩, by decide, by decide⟩

theorem wit_FirmwareStaging_3 : ∃ (c : Caller) (o : Nat) (n : Nat) (b : Nat) (f : Frame) (s : State), (On s) ∧ (Serves c 0x1003 f s) ∧ ((fwStage s ≠ 1 ∨ natBits (s.kw kFwState) 15 8 = stagingOwner c)) ∧ (fwStage s = 1) ∧ (indirectRefusal c f s = none) ∧ ((0 < n ∧ n ≤ 16777216)) ∧ (o + n ≤ 268435456) ∧ (bufferRefusal c b n true s = none) :=
  ⟨.pf0, 4, 2, 0x010000000000, (reqOf 0x1003), ((staging 1 0x1003).store .array 0x010000000000 [5, 6]), by decide, ⟨by decide, by decide, by decide⟩, by decide, by decide, by decide, by decide, by decide, by decide⟩

theorem wit_FirmwareStaging_4 : ∃ (c : Caller) (o : Nat) (n : Nat) (f : Frame) (s : State), (On s) ∧ (Serves c 0x1003 f s) ∧ ((fwStage s ≠ 1 ∨ natBits (s.kw kFwState) 15 8 = stagingOwner c)) ∧ (fwStage s = 1) ∧ (indirectRefusal c f s = none) ∧ ((0 < n ∧ n ≤ 16777216)) ∧ (268435456 < o + n) :=
  ⟨.pf0, 268435455, 2, (reqOf 0x1003), (staging 1 0x1003), by decide, ⟨by decide, by decide, by decide⟩, by decide, by decide, by decide, by decide, by decide⟩

theorem wit_FirmwareStaging_5 : ∃ (c : Caller) (n : Nat) (f : Frame) (s : State), (On s) ∧ (Serves c 0x1004 f s) ∧ ((fwStage s ≠ 1 ∨ natBits (s.kw kFwState) 15 8 = stagingOwner c)) ∧ (fwStage s = 1) ∧ (n ≤ 268435456) ∧ ((s.keepWord kFwState).changes + 2 < keepRated) :=
  ⟨.pf0, 268435456, (reqOf 0x1004), (staging 1 0x1004), by decide, ⟨by decide, by decide, by decide⟩, by decide, by decide, by decide, by decide⟩

theorem wit_FirmwareStaging_6 : ∃ (c : Caller) (n : Nat) (f : Frame) (s : State), (On s) ∧ (Serves c 0x1004 f s) ∧ ((fwStage s ≠ 1 ∨ natBits (s.kw kFwState) 15 8 = stagingOwner c)) ∧ (fwStage s = 1) ∧ (268435456 < n) :=
  ⟨.pf0, 268435457, (reqOf 0x1004), (staging 1 0x1004), by decide, ⟨by decide, by decide, by decide⟩, by decide, by decide, by decide⟩

theorem wit_FirmwareStaging_7 : ∃ (c : Caller) (f : Frame) (s : State), (On s) ∧ (Serves c 0x1005 f s) ∧ (2 ≤ fwStage s) ∧ ((s.keepWord kFwState).changes + 2 < keepRated) :=
  ⟨.pf0, (reqOf 0x1005), (staging 2 0x1005), by decide, ⟨by decide, by decide, by decide⟩, by decide, by decide⟩

theorem wit_FirmwareStaging_8 : ∃ (c : Caller) (f : Frame) (s : State), (On s) ∧ (Serves c 0x1005 f s) ∧ ((fwStage s ≠ 1 ∨ natBits (s.kw kFwState) 15 8 = stagingOwner c)) ∧ (fwStage s < 2) :=
  ⟨.pf0, (reqOf 0x1005), (staging 1 0x1005), by decide, ⟨by decide, by decide, by decide⟩, by decide, by decide⟩

theorem wit_FirmwareStaging_9 : ∃ (c : Caller) (f : Frame) (s : State), (On s) ∧ (Serves c 0x1006 f s) ∧ (fwStage s = 3) ∧ ((s.keepWord kFwState).changes + 2 < keepRated) :=
  ⟨.pf0, (reqOf 0x1006), (staging 3 0x1006), by decide, ⟨by decide, by decide, by decide⟩, by decide, by decide⟩

theorem wit_FirmwareStaging_10 : ∃ (c : Caller) (f : Frame) (s : State), (On s) ∧ (Serves c 0x1006 f s) ∧ ((fwStage s ≠ 1 ∨ natBits (s.kw kFwState) 15 8 = stagingOwner c)) ∧ (fwStage s ≠ 3) :=
  ⟨.pf0, (reqOf 0x1006), (staging 2 0x1006), by decide, ⟨by decide, by decide, by decide⟩, by decide, by decide⟩

theorem wit_FirmwareStaging_11 : ∃ (c : Caller) (f : Frame) (s : State), (On s) ∧ (Serves c 0x1007 f s) ∧ ((fwStage s ≠ 1 ∨ natBits (s.kw kFwState) 15 8 = stagingOwner c)) ∧ (fwStage s ≠ 3) ∧ ((s.keepWord kFwState).changes + 2 < keepRated) :=
  ⟨.pf0, (reqOf 0x1007), (staging 2 0x1007), by decide, ⟨by decide, by decide, by decide⟩, by decide, by decide, by decide⟩

theorem wit_FirmwareStaging_12 : ∃ (c : Caller) (f : Frame) (s : State), (On s) ∧ (Serves c 0x1007 f s) ∧ (fwStage s = 3) :=
  ⟨.pf0, (reqOf 0x1007), (staging 3 0x1007), by decide, ⟨by decide, by decide, by decide⟩, by decide⟩

theorem wit_FirmwareStaging_13 : ∃ (c : Caller) (f : Frame) (s : State), (On s) ∧ (Serves c 0x1001 f s) :=
  ⟨.pf0, (reqOf 0x1001), (staging 3 0x1001), by decide, ⟨by decide, by decide, by decide⟩⟩

theorem wit_ServicesAndShutdown_0 : ∃ (n : Nat) (s : State), (n ≤ 13) ∧ (On s) ∧ ((s.service (serviceOf n)).state ≠ .running) :=
  ⟨3, State.reset, by decide, by decide, by decide⟩

theorem wit_ServicesAndShutdown_1 : ∃ (n : Nat) (s : State), (n ≤ 13) ∧ (On s) ∧ ((s.service (serviceOf n)).state = .running) ∧ (((s.service (serviceOf n)).crashes.filter (fun t => decide (s.pwr.localNs ≤ t + 600000000000))).length < 3) :=
  ⟨7, (asks .pf0 1), by decide, by decide, by decide, by decide⟩

theorem wit_ServicesAndShutdown_2 : ∃ (n : Nat) (s : State), (n ≤ 13) ∧ (On s) ∧ ((s.service (serviceOf n)).state = .running) ∧ (5 ≤ serviceOf n) ∧ (3 ≤ ((s.service (serviceOf n)).crashes.filter (fun t => decide (s.pwr.localNs ≤ t + 600000000000))).length) :=
  ⟨9, ({ asks .pf0 1 with fw := { (asks .pf0 1).fw with services := [(9, { state := .running, core := 9, crashes := [0, 0, 0] })] } } : State), by decide, by decide, by decide, by decide, by decide⟩

theorem wit_ServicesAndShutdown_3 : ∃ (n : Nat) (s : State), (n < 5) ∧ (On s) ∧ ((s.service (serviceOf n)).state = .running) ∧ (3 ≤ ((s.service (serviceOf n)).crashes.filter (fun t => decide (s.pwr.localNs ≤ t + 600000000000))).length) :=
  ⟨2, ({ asks .pf0 1 with fw := { (asks .pf0 1).fw with services := [(2, { state := .running, core := 2, crashes := [0, 0, 0] })] } } : State), by decide, by decide, by decide, by decide⟩

theorem wit_ServicesAndShutdown_4 : ∃ (n : Nat) (s : State), (n ≤ 13) ∧ (On s) ∧ ((s.service (serviceOf n)).state ≠ .restarting) :=
  ⟨3, State.reset, by decide, by decide, by decide⟩

theorem wit_ServicesAndShutdown_5 : ∃ (n : Nat) (s : State), (n ≤ 13) ∧ (On s) ∧ ((s.service (serviceOf n)).state = .restarting) :=
  ⟨11, ({ State.reset with fw := { State.reset.fw with services := [(10, { state := .restarting, core := 10 })] } } : State), by decide, by decide, by decide⟩

theorem wit_ServicesAndShutdown_6 : ∃ (c : Caller) (n : Nat) (f : Frame) (s : State), (On s) ∧ (Serves c 0x1009 f s) ∧ ((13 < n ∨ n = 7 ∨ n = 11)) :=
  ⟨.pf0, 14, (reqOf 0x1009), (asks .pf0 0x1009), by decide, ⟨by decide, by decide, by decide⟩, by decide⟩

theorem wit_ServicesAndShutdown_7 : ∃ (c : Caller) (n : Nat) (f : Frame) (s : State), (On s) ∧ (Serves c 0x1009 f s) ∧ ((n ≤ 13 ∧ n ≠ 7 ∧ n ≠ 11)) ∧ ((s.service n).state ≠ .heldDown) :=
  ⟨.pf0, 13, (reqOf 0x1009), (asks .pf0 0x1009), by decide, ⟨by decide, by decide, by decide⟩, by decide, by decide⟩

theorem wit_ServicesAndShutdown_8 : ∃ (c : Caller) (n : Nat) (f : Frame) (s : State), (On s) ∧ (Serves c 0x1009 f s) ∧ ((n ≤ 13 ∧ n ≠ 7 ∧ n ≠ 11)) ∧ ((s.service n).state = .heldDown) :=
  ⟨.pf0, 9, (reqOf 0x1009), ({ asks .pf0 0x1009 with fw := { (asks .pf0 1).fw with services := [(0, { state := .running, core := 0 }), (9, { state := .heldDown, core := 9, crashes := [4] })] } } : State), by decide, ⟨by decide, by decide, by decide⟩, by decide, by decide⟩

theorem wit_ServicesAndShutdown_9 : ∃ (c : Caller) (a : Nat) (n : Nat) (b : Nat) (f : Frame) (r : LogRec) (l : List LogRec) (s : State), (On s) ∧ (Serves c 0x1008 f s) ∧ (indirectRefusal c f s = none) ∧ ((0 < n ∧ n ≤ 16384)) ∧ ((s.fw.log.filter (fun r => decide (a ≤ r.seq))).take n = r :: l) ∧ (bufferRefusal c b (64 * (r :: l).length) false s = none) :=
  ⟨.pf1, 1, 5, 0x010000000000, (reqOf 0x1008), { seq := 1, time := 5, service := 2, level := 1, message := 3 }, [], ({ asks .pf1 0x1008 with fw := { (asks .pf1 0x1008).fw with log := [{ seq := 0, time := 4, service := 2, level := 1, message := 3 }, { seq := 1, time := 5, service := 2, level := 1, message := 3 }] } } : State), by decide, ⟨by decide, by decide, by decide⟩, by decide, by decide, by decide, by decide⟩

theorem wit_ServicesAndShutdown_10 : ∃ (c : Caller) (n : Nat) (f : Frame) (s : State), (On s) ∧ (Serves c 0x1008 f s) ∧ (indirectRefusal c f s = none) ∧ (16384 < n) :=
  ⟨.pf1, 16385, (reqOf 0x1008), (asks .pf1 0x1008), by decide, ⟨by decide, by decide, by decide⟩, by decide, by decide⟩

theorem wit_ServicesAndShutdown_11 : ∃ (c : Caller) (f : Frame) (s : State), (On s) ∧ (Serves c 0x100A f s) ∧ ((s.keepWord kShutdown).changes < keepRated) :=
  ⟨.pf0, (reqOf 0x100A), (asks .pf0 0x100A), by decide, ⟨by decide, by decide, by decide⟩, by decide⟩

theorem wit_ServicesAndShutdown_12 : ∃ (c : Caller) (f : Frame) (s : State), (On s) ∧ (Serves c 0x100B f s) ∧ (armedDomains s ≠ []) :=
  ⟨.pf0, (reqOf 0x100B), ({ asks .pf0 0x100B with doms := [(3, tD)], regs := [(⟨.cadDomainCtl, 3⟩, 1)] } : State), by decide, ⟨by decide, by decide, by decide⟩, by decide⟩

theorem wit_ServicesAndShutdown_13 : ∃ (c : Caller) (b : Bool) (f : Frame) (s : State), (On s) ∧ (Serves c 0x100B f s) ∧ ((armedDomains s = [] ∨ b = true)) ∧ (s.fw.shutDown = false) :=
  ⟨.pf0, true, (reqOf 0x100B), (({ asks .pf0 0x100B with doms := [(3, tD)], regs := [(⟨.cadDomainCtl, 3⟩, 1)] } : State).store .array 0x010000000000 [5, 6]), by decide, ⟨by decide, by decide, by decide⟩, by decide, by decide⟩

/-- A running device whose hottest sensor stands at `tj`, with the power service running or not. -/
def tHot (tj : Nat) (svc : Bool) (f : Power → Power := id) : State := { State.reset with
  fw := { State.reset.fw with services := [(1, { state := if svc then .running else .restarting, core := 1 })] }
  regs := [(⟨.pwrTj, 0⟩, tj)], pwr := f State.reset.pwr }

theorem wit_PowerAndTemperature_0 : ∃ (v : Nat) (s : State), (On s) ∧ ((v ≤ s.pwr.tdpNow ∨ peakAllowed s = true)) :=
  ⟨500, State.reset, by decide, by decide⟩

theorem wit_PowerAndTemperature_1 : ∃ (v : Nat) (s : State), (On s) ∧ (s.pwr.tdpNow < v) ∧ (peakAllowed s = false) :=
  ⟨650, (tHot 40 true (fun p => { p with peakMs := 10 })), by decide, by decide, by decide⟩

theorem wit_PowerAndTemperature_2 : ∃ (h : List (Option Nat)) (a : List (Option Nat)) (b : List (Option Nat)) (ha : List (Option Nat)) (hb : List (Option Nat)) (s : State), (MainUp s) ∧ ((h.all (fun x => x.isSome) && a.all (fun x => x.isSome) && b.all (fun x => x.isSome) && ha.all (fun x => x.isSome) && hb.all (fun x => x.isSome)) = true) ∧ (max (hottest (readings h)) (max (hottest (readings a ++ readings ha)) (hottest (readings b ++ readings hb))) < 97) ∧ (s.pwr.excluded = []) :=
  ⟨[some 40, some 50], [some 96], [some 33], [some 20], [some 21], (tHot 99 true (fun p => { p with throttleDown := true, floor115 := true, tjMark := true, throttleClk := some 14 })), by decide, by decide, by decide, by decide⟩

theorem wit_PowerAndTemperature_3 : ∃ (h : List (Option Nat)) (a : List (Option Nat)) (b : List (Option Nat)) (ha : List (Option Nat)) (hb : List (Option Nat)) (s : State), (MainUp s) ∧ ((h.all (fun x => x.isSome) && a.all (fun x => x.isSome) && b.all (fun x => x.isSome) && ha.all (fun x => x.isSome) && hb.all (fun x => x.isSome)) = true) ∧ ((105 ≤ max (hottest (readings h)) (max (hottest (readings a ++ readings ha)) (hottest (readings b ++ readings hb))) ∧ max (hottest (readings h)) (max (hottest (readings a ++ readings ha)) (hottest (readings b ++ readings hb))) < 115)) ∧ (thermalService s = true) ∧ (s.pwr.excluded = []) :=
  ⟨[some 105], [], [], [], [], (tHot 99 true), by decide, by decide, by decide, by decide, by decide⟩

theorem wit_PowerAndTemperature_4 : ∃ (h : List (Option Nat)) (a : List (Option Nat)) (b : List (Option Nat)) (ha : List (Option Nat)) (hb : List (Option Nat)) (s : State), (MainUp s) ∧ ((h.all (fun x => x.isSome) && a.all (fun x => x.isSome) && b.all (fun x => x.isSome) && ha.all (fun x => x.isSome) && hb.all (fun x => x.isSome)) = true) ∧ ((105 ≤ max (hottest (readings h)) (max (hottest (readings a ++ readings ha)) (hottest (readings b ++ readings hb))) ∧ max (hottest (readings h)) (max (hottest (readings a ++ readings ha)) (hottest (readings b ++ readings hb))) < 115)) ∧ (thermalService s = false) ∧ (s.pwr.excluded = []) :=
  ⟨[some 114], [], [], [], [], (tHot 99 false), by decide, by decide, by decide, by decide, by decide⟩

theorem wit_PowerAndTemperature_5 : ∃ (h : List (Option Nat)) (a : List (Option Nat)) (b : List (Option Nat)) (ha : List (Option Nat)) (hb : List (Option Nat)) (s : State), (MainUp s) ∧ ((h.all (fun x => x.isSome) && a.all (fun x => x.isSome) && b.all (fun x => x.isSome) && ha.all (fun x => x.isSome) && hb.all (fun x => x.isSome)) = true) ∧ ((115 ≤ max (hottest (readings h)) (max (hottest (readings a ++ readings ha)) (hottest (readings b ++ readings hb))) ∧ max (hottest (readings h)) (max (hottest (readings a ++ readings ha)) (hottest (readings b ++ readings hb))) < 125)) ∧ (s.pwr.excluded = []) :=
  ⟨[], [], [], [], [some 124], (tHot 99 true), by decide, by decide, by decide, by decide⟩

theorem wit_PowerAndTemperature_6 : ∃ (h : List (Option Nat)) (a : List (Option Nat)) (b : List (Option Nat)) (ha : List (Option Nat)) (hb : List (Option Nat)) (s : State), (MainUp s) ∧ ((h.all (fun x => x.isSome) && a.all (fun x => x.isSome) && b.all (fun x => x.isSome) && ha.all (fun x => x.isSome) && hb.all (fun x => x.isSome)) = true) ∧ (125 ≤ max (hottest (readings h)) (max (hottest (readings a ++ readings ha)) (hottest (readings b ++ readings hb)))) ∧ (s.pwr.excluded = []) :=
  ⟨[], [], [], [], [some 125], (tHot 99 true), by decide, by decide, by decide, by decide⟩

theorem wit_PowerAndTemperature_7 : ∃ (c : Nat) (s : State), (MainUp s) ∧ (thermalService s = true) ∧ (s.pwr.throttleClk = some c) ∧ (s.pwr.throttleDown = true) :=
  ⟨12, (tHot 104 true (fun p => { p with throttleDown := true, throttleClk := some 12 })), by decide, by decide, by decide, by decide⟩

theorem wit_PowerAndTemperature_8 : ∃ (c : Nat) (s : State), (MainUp s) ∧ (thermalService s = true) ∧ (s.pwr.throttleClk = some c) ∧ (s.pwr.throttleDown = false) ∧ (s.fld .pwrTj 7 0 < 100) :=
  ⟨12, (tHot 99 true (fun p => { p with throttleClk := some 12 })), by decide, by decide, by decide, by decide, by decide⟩

theorem wit_PowerAndTemperature_9 : ∃ (s : State), (MainUp s) ∧ ((thermalService s = false ∨ s.pwr.throttleClk = none ∨ s.pwr.throttleDown = false ∧ 100 ≤ s.fld .pwrTj 7 0)) :=
  ⟨State.reset, by decide, by decide⟩

theorem wit_PowerAndTemperature_10 : ∃ (n : Nat) (s : State), (MainUp s) ∧ (n < 100) :=
  ⟨99, State.reset, by decide, by decide⟩

theorem wit_PowerAndTemperature_11 : ∃ (n : Nat) (s : State), (MainUp s) ∧ (100 ≤ n) :=
  ⟨100, State.reset, by decide, by decide⟩

theorem wit_PowerAndTemperature_12 : ∃ (s : State), (MainUp s) :=
  ⟨(tHot 9 true (fun p => { p with brake := true, localNs := 77 })), by decide⟩

theorem wit_PowerAndTemperature_13 : ∃ (s : State), (MainUp s) ∧ (s.pwr.brake = true) ∧ ((s.keepWord kEmerg).changes < keepRated) :=
  ⟨(tHot 9 true (fun p => { p with brake := true, localNs := 77 })), by decide, by decide, by decide⟩

theorem wit_PowerAndTemperature_14 : ∃ (s : State), (MainUp s) ∧ (s.pwr.brake = false) :=
  ⟨State.reset, by decide, by decide⟩

theorem wit_HardpanEntry_0 : ∃ (s : State), (On s) :=
  ⟨State.reset, by decide⟩

theorem wit_HardpanEntry_1 : ∃ (s : State), (s.pwr.state = .hardpan) :=
  ⟨(tHot 9 true (fun p => { p with state := .hardpan })), by decide⟩

theorem wit_HardpanEntry_2 : ∃ (s : State), (On s) ∧ (s.pwr.hot115.isSome = true) :=
  ⟨(tHot 116 true (fun p => { p with hot115 := some 0 })), by decide, by decide⟩

theorem wit_HardpanEntry_3 : ∃ (s : State), (MainUp s) ∧ (s.pwr.hot115 = none) :=
  ⟨State.reset, by decide, by decide⟩

theorem wit_HardpanEntry_4 : ∃ (u : Nat) (s : State), (MainUp s) ∧ (u ≤ 20) :=
  ⟨20, State.reset, by decide, by decide⟩

theorem wit_HardpanEntry_5 : ∃ (r : Rail) (u : Nat) (s : State), (On s) ∧ (20 < u) ∧ ((r = .vddT0 ∨ r = .vddT1 ∨ r = .vddSilt ∨ r = .vddqDdr)) :=
  ⟨.vddSilt, 21, State.reset, by decide, by decide, by decide⟩

theorem wit_HardpanEntry_6 : ∃ (r : Rail) (u : Nat) (s : State), (MainUp s) ∧ (20 < u) ∧ ((r ≠ .vddT0 ∧ r ≠ .vddT1 ∧ r ≠ .vddSilt ∧ r ≠ .vddqDdr)) :=
  ⟨.vddHub, 21, State.reset, by decide, by decide, by decide⟩

/-- Main power away, the board's straps 2 sampled, and watcher slot 0 on source `src` with wake. -/
def tAux (src : Nat) : State := { State.reset with
  pwr := { State.reset.pwr with state := .aux, mainPg := false, straps := 2 }, regs := [(⟨.eicWatch, 0⟩, 0xC0000000 + src)]
  pci := { State.reset.pci with pmeEn := [.pf0] } }

/-- The TAP in state `n` with instruction `ir` and a shift register. -/
def tTap (n ir : Nat) (l : List Bool) : State := { State.reset with pwr := { State.reset.pwr with tapState := n, tapIr := ir, tapShift := l } }

theorem wit_SuppliesClocksAndPins_0 : ∃ (src : BitVec 16) (s : State), (src.toNat / 1024 = 17) ∧ (s.pwr.mainPg = false) ∧ (s.pwr.state = .aux) ∧ (s.pwr.auxPg = true) ∧ ((s.fld .eicWatch 31 31 0 = 1 ∧ s.fld .eicWatch 15 0 0 = src.toNat ∧ s.fld .eicWatch 30 30 0 = 1)) :=
  ⟨17410, (tAux 17410), by decide, by decide, by decide, by decide, by decide⟩

theorem wit_SuppliesClocksAndPins_1 : ∃ (src : BitVec 16) (s : State), ((s.pwr.mainPg = false ∧ src.toNat / 1024 ≠ 17 ∨ ((List.range 64).all (fun n => s.fld .eicWatch 31 31 n != 1 || s.fld .eicWatch 15 0 n != src.toNat)) = true)) :=
  ⟨5, (tAux 17410), by decide⟩

theorem wit_SuppliesClocksAndPins_2 : ∃ (s : State), (s.pwr.mainPg = false) ∧ (s.pwr.state = .aux) ∧ (s.pwr.auxPg = true) ∧ ((s.fld .eicWatch 31 31 0 = 1 ∧ s.fld .eicWatch 15 0 0 = 17 * 1024 + 0 ∧ s.fld .eicWatch 30 30 0 = 1)) :=
  ⟨(tAux 17408), by decide, by decide, by decide, by decide⟩

theorem wit_SuppliesClocksAndPins_3 : ∃ (s : State), (s.pwr.auxPg = true) ∧ (((List.range 64).all (fun n => s.fld .eicWatch 31 31 n != 1 || s.fld .eicWatch 15 0 n != 17 * 1024 + 0)) = true) :=
  ⟨State.reset, by decide, by decide⟩

theorem wit_SuppliesClocksAndPins_4 : ∃ (x : BitVec 7) (s : State), (x.toNat = 0x30 + s.pwr.straps % 8) ∧ (s.pwr.mainPg = false) ∧ (s.pwr.state = .aux) ∧ (s.pwr.auxPg = true) ∧ ((s.fld .eicWatch 31 31 0 = 1 ∧ s.fld .eicWatch 15 0 0 = 17 * 1024 + 1 ∧ s.fld .eicWatch 30 30 0 = 1)) :=
  ⟨0x32, (tAux 17409), by decide, by decide, by decide, by decide, by decide⟩

theorem wit_SuppliesClocksAndPins_5 : ∃ (x : BitVec 7) (s : State), (x.toNat ≠ 0x30 + s.pwr.straps % 8) :=
  ⟨0x31, (tAux 17409), by decide⟩

theorem wit_SuppliesClocksAndPins_6 : ∃ (s : State), (s.pwr.auxPg = false) :=
  ⟨(tHot 9 true (fun p => { p with auxPg := false, mainPg := false, state := .off })), by decide⟩

theorem wit_SuppliesClocksAndPins_7 : ∃ (n : Nat) (s : State), ((n < 1000 ∨ s.pwr.auxPg = false)) :=
  ⟨999, State.reset, by decide⟩

theorem wit_SuppliesClocksAndPins_8 : ∃ (n : Nat) (s : State), (1000 ≤ n) ∧ (s.pwr.auxPg = true) :=
  ⟨1000, State.reset, by decide, by decide⟩

theorem wit_SuppliesClocksAndPins_9 : ∃ (s : State), ((s.pwr.auxPg = false ∨ s.pwr.mainPg = true)) :=
  ⟨State.reset, by decide⟩

theorem wit_SuppliesClocksAndPins_10 : ∃ (s : State), (s.pwr.auxPg = true) ∧ (s.pwr.mainPg = false) :=
  ⟨({ tAux 5 with keep := [(20, { value := 500, kiln := 550 })] } : State), by decide, by decide⟩

theorem wit_SuppliesClocksAndPins_11 : ∃ (n : Nat) (s : State), ((n < 1000 ∨ s.pwr.mainPg = false)) :=
  ⟨999, State.reset, by decide⟩

theorem wit_SuppliesClocksAndPins_12 : ∃ (n : Nat) (s : State), (1000 ≤ n) ∧ (s.pwr.mainPg = true) :=
  ⟨1000, ({ State.reset with keep := [(20, { value := 500, kiln := 550, queued := true })] } : State), by decide, by decide⟩

theorem wit_SuppliesClocksAndPins_13 : ∃ (port : Nat) (s : State), (port ≤ 7) ∧ (MainUp s) ∧ ((rpDisabled s port = true ∨ s.pwr.accEn.getD port false = true)) :=
  ⟨7, ({ State.reset with regs := [(⟨.pciRpActive, 0⟩, 0x80000000)] } : State), by decide, by decide, by decide⟩

theorem wit_SuppliesClocksAndPins_14 : ∃ (port : Nat) (s : State), (port ≤ 7) ∧ (MainUp s) ∧ (rpDisabled s port = false) ∧ (s.pwr.accEn.getD port false = false) :=
  ⟨7, State.reset, by decide, by decide, by decide, by decide⟩

theorem wit_SuppliesClocksAndPins_15 : ∃ (port : Nat) (s : State), (port ≤ 7) ∧ (MainUp s) ∧ (rpDisabled s port = false) ∧ (rpOwned s port = false) :=
  ⟨3, State.reset, by decide, by decide, by decide, by decide⟩

theorem wit_SuppliesClocksAndPins_16 : ∃ (port : Nat) (s : State), (port ≤ 7) ∧ (On s) ∧ (rpDisabled s port = false) ∧ (rpOwned s port = true) :=
  ⟨3, ({ tHot 9 true (fun p => { p with accEn := List.replicate 8 true }) with regs := [(⟨.pciRpActive, 0⟩, 0x4000)], fw := { State.reset.fw with released := true } } : State), by decide, by decide, by decide, by decide⟩

theorem wit_SuppliesClocksAndPins_17 : ∃ (k : RefClk) (s : State), (MainUp s) ∧ (k ∈ s.pwr.clkLost) :=
  ⟨.eth, (tHot 9 true (fun p => { p with clkLost := [.eth] })), by decide, by decide⟩

theorem wit_SuppliesClocksAndPins_18 : ∃ (k : RefClk) (s : State), (MainUp s) ∧ (k ∉ s.pwr.clkLost) :=
  ⟨.eth, ({ tTime 1 id with net := { State.reset.net with up := [(3, true)] } } : State), by decide, by decide⟩

theorem wit_SuppliesClocksAndPins_19 : ∃ (s : State), (MainUp s) :=
  ⟨(tHot 9 true (fun p => { p with clkLost := [.eth, .rp] })), by decide⟩

theorem wit_SuppliesClocksAndPins_20 : ∃ (s : State), (On s) ∧ ((s.fw.released = false ∨ s.fld .hubBringupStatus 2 0 ≠ 1)) :=
  ⟨State.reset, by decide, by decide⟩

theorem wit_SuppliesClocksAndPins_21 : ∃ (s : State), (On s) ∧ (s.fw.released = true) ∧ (s.fld .hubBringupStatus 2 0 = 1) :=
  ⟨({ State.reset with fw := { State.reset.fw with released := true } } : State), by decide, by decide, by decide⟩

theorem wit_SuppliesClocksAndPins_22 : ∃ (s : State), (s.pwr.mainPg = true) ∧ ((s.pwr.tapState = 4 ∨ s.pwr.tapState = 11)) :=
  ⟨(tTap 11 2 [true, false, true]), by decide, by decide⟩

theorem wit_SuppliesClocksAndPins_23 : ∃ (s : State), (s.pwr.mainPg = true) ∧ (s.pwr.tapState = 15) :=
  ⟨(tTap 15 2 [true, true]), by decide, by decide⟩

theorem wit_SuppliesClocksAndPins_24 : ∃ (s : State), (s.pwr.mainPg = true) ∧ (s.pwr.tapState = 8) :=
  ⟨(tTap 8 2 [true, true]), by decide, by decide⟩

theorem wit_SuppliesClocksAndPins_25 : ∃ (s : State), (s.pwr.mainPg = true) ∧ (s.pwr.tapState ∈ [1, 2, 5, 6, 7, 9, 12, 13, 14]) :=
  ⟨(tTap 6 2 [true, true]), by decide, by decide⟩

theorem wit_SuppliesClocksAndPins_26 : ∃ (s : State), (s.pwr.mainPg = false) :=
  ⟨(tAux 1), by decide⟩

/-- Core 3 with a descriptor of words `d` in its engine's queue, core memory words `l` by offset, and engine state changed by `f`. -/
def tEngine (d : List Word) (l : List (Nat × Nat)) (f : Me → Me) : State := l.foldl (fun s w => s.store .array (coreBase 3 + w.1) (leBytes 4 w.2))
  { State.reset with cores := [(3, { me := f { queue := [d], gens := [1] } })] }

/-- A lane-mode operation on 2 FP32 elements: x at 0, y at 8, z at 16, output at 24 in format `fo`, tag 7. -/
def tLane (op fo : Nat) : State := tEngine [BitVec.ofNat 32 (2 + op * 256), BitVec.ofNat 32 (fo * 256), 2, 0, 8, 16, 24, 0x40000000, 0x40400000, 0, 0, 0, 0, 0, 7, 0]
  [(0, 0x3F800000), (4, 0x40000000), (8, 0x3F800000), (12, 0xC0000000), (16, 0x40400000), (20, 0x3F000000)] id

/-- An optimizer operation on 2 parameters: split planes at 0 and 32, gradient at 8, moments at 16 and 24 in FP32. -/
def tOpt (op : Nat) : State := tEngine [BitVec.ofNat 32 (2 + op * 256 + 0x0F0000), 0, 2, 0, 8, 16, 24, 0x3F800000, 0x3F800000, 32, 0, 0, 0, 0, 7, 0, 0x3F666666, 0x3F7F0000, 0x322BCC77, 0, 0x3F800000, 0x3F800000]
  [(0, 0x40003F80), (8, 0x3F800000), (12, 0x3F000000), (16, 0), (20, 0x3F800000)] id

/-- A tile of 1 by 1 with K of 1 in FP32 operands' smallest class, BF16: a at 0, b at 64, c at 128. -/
def tTile (acc : Nat) : State := tEngine [0x00010101, BitVec.ofNat 32 (acc * 16777216), 0, 0, 64, 128, 256, 0, 4, 0, 0, 0, 0x3F800000, 0, 9, 0]
  [(0, 0x3F80), (64, 0x4000), (256, 0x40400000)] id

theorem wit_LaneOperations_0 : ∃ (id : Nat) (s : State), (LaneHead 1 id s) ∧ (SoundMemory id s) ∧ ((laneCheck (meBytes s id)).1 = none) :=
  ⟨3, (tLane 1 0), by decide, by decide, by decide⟩

theorem wit_LaneOperations_1 : ∃ (id : Nat) (s : State), (LaneHead 2 id s) ∧ (SoundMemory id s) ∧ ((laneCheck (meBytes s id)).1 = none) :=
  ⟨3, (tLane 2 0), by decide, by decide, by decide⟩

theorem wit_LaneOperations_2 : ∃ (id : Nat) (s : State), (LaneHead 3 id s) ∧ (SoundMemory id s) ∧ ((laneCheck (meBytes s id)).1 = none) :=
  ⟨3, (tLane 3 0), by decide, by decide, by decide⟩

theorem wit_LaneOperations_3 : ∃ (id : Nat) (s : State), (LaneHead 4 id s) ∧ (SoundMemory id s) ∧ ((laneCheck (meBytes s id)).1 = none) :=
  ⟨3, (tLane 4 0), by decide, by decide, by decide⟩

theorem wit_LaneOperations_4 : ∃ (id : Nat) (s : State), (LaneHead 5 id s) ∧ (SoundMemory id s) ∧ ((laneCheck (meBytes s id)).1 = none) :=
  ⟨3, (tLane 5 0), by decide, by decide, by decide⟩

theorem wit_LaneOperations_5 : ∃ (id : Nat) (s : State), (LaneHead 6 id s) ∧ (SoundMemory id s) ∧ ((laneCheck (meBytes s id)).1 = none) :=
  ⟨3, (tLane 6 0), by decide, by decide, by decide⟩

theorem wit_LaneOperations_6 : ∃ (id : Nat) (s : State), (LaneHead 7 id s) ∧ (SoundMemory id s) ∧ ((laneCheck (meBytes s id)).1 = none) :=
  ⟨3, (tLane 7 0), by decide, by decide, by decide⟩

theorem wit_LaneOperations_7 : ∃ (id : Nat) (s : State), (LaneHead 8 id s) ∧ (SoundMemory id s) ∧ ((laneCheck (meBytes s id)).1 = none) :=
  ⟨3, (tLane 8 0), by decide, by decide, by decide⟩

theorem wit_LaneOperations_8 : ∃ (id : Nat) (s : State), (LaneHead 9 id s) ∧ (SoundMemory id s) ∧ ((laneCheck (meBytes s id)).1 = none) :=
  ⟨3, (tLane 9 0), by decide, by decide, by decide⟩

theorem wit_LaneOperations_9 : ∃ (id : Nat) (s : State), (LaneHead 10 id s) ∧ (SoundMemory id s) ∧ ((laneCheck (meBytes s id)).1 = none) :=
  ⟨3, (tLane 10 0), by decide, by decide, by decide⟩

theorem wit_LaneOperations_10 : ∃ (id : Nat) (s : State), (LaneHead 11 id s) ∧ (SoundMemory id s) ∧ ((laneCheck (meBytes s id)).1 = none) :=
  ⟨3, (tLane 11 0), by decide, by decide, by decide⟩

theorem wit_LaneOperations_11 : ∃ (id : Nat) (s : State), (LaneHead 12 id s) ∧ (SoundMemory id s) ∧ ((laneCheck (meBytes s id)).1 = none) :=
  ⟨3, (tLane 12 0), by decide, by decide, by decide⟩

theorem wit_LaneOperations_12 : ∃ (id : Nat) (s : State), (LaneHead 13 id s) ∧ (SoundMemory id s) ∧ ((laneCheck (meBytes s id)).1 = none) :=
  ⟨3, (tLane 13 0), by decide, by decide, by decide⟩

theorem wit_LaneOperations_13 : ∃ (id : Nat) (s : State), (LaneHead 16 id s) ∧ (SoundMemory id s) ∧ ((laneCheck (meBytes s id)).1 = none) :=
  ⟨3, (tLane 16 0), by decide, by decide, by decide⟩

theorem wit_LaneOperations_14 : ∃ (id : Nat) (s : State), (LaneHead 17 id s) ∧ (SoundMemory id s) ∧ ((laneCheck (meBytes s id)).1 = none) :=
  ⟨3, (tLane 17 0), by decide, by decide, by decide⟩

theorem wit_LaneOperations_15 : ∃ (id : Nat) (s : State), (LaneHead 18 id s) ∧ (SoundMemory id s) ∧ ((laneCheck (meBytes s id)).1 = none) :=
  ⟨3, (tLane 18 0), by decide, by decide, by decide⟩

theorem wit_LaneOperations_16 : ∃ (id : Nat) (s : State), (LaneHead 19 id s) ∧ (SoundMemory id s) ∧ ((laneCheck (meBytes s id)).1 = none) :=
  ⟨3, (tLane 19 14), by decide, by decide, by decide⟩

theorem wit_EnginesAndArrayPorts_0 : ∃ (id : Nat) (s : State), (LaneHead 32 id s) ∧ (SoundMemory id s) ∧ ((laneCheck (meBytes s id)).1 = none) :=
  ⟨3, (tOpt 32), by decide, by decide, by decide⟩

theorem wit_EnginesAndArrayPorts_1 : ∃ (id : Nat) (s : State), (LaneHead 33 id s) ∧ (SoundMemory id s) ∧ ((laneCheck (meBytes s id)).1 = none) :=
  ⟨3, (tOpt 33), by decide, by decide, by decide⟩

theorem wit_EnginesAndArrayPorts_2 : ∃ (id : Nat) (s : State), (LaneHead 34 id s) ∧ (SoundMemory id s) ∧ ((laneCheck (meBytes s id)).1 = none) :=
  ⟨3, (tOpt 34), by decide, by decide, by decide⟩

theorem wit_EnginesAndArrayPorts_3 : ∃ (id : Nat) (s : State), (id < 256) ∧ (ArrayRuns s) ∧ ((meHead s id).map (·.1) = some 1) ∧ (SoundMemory id s) ∧ ((tileCheck (meBytes s id) (s.core id).me.acc).1 = none) :=
  ⟨3, (tTile 4), by decide, by decide, by decide, by decide, by decide⟩

theorem wit_EnginesAndArrayPorts_4 : ∃ (id : Nat) (op : Nat) (lane : Nat) (f : Nat) (st : Status) (s : State), (id < 256) ∧ (ArrayRuns s) ∧ (meHead s id = some (op, lane)) ∧ (op ≠ 2) ∧ ((tileCheck (meBytes s id) (s.core id).me.acc).1 = some (st, f)) :=
  ⟨3, 1, 1, 7, St.invalidField, (tTile 6), by decide, by decide, by decide, by decide, by decide⟩

theorem wit_EnginesAndArrayPorts_5 : ∃ (id : Nat) (lane : Nat) (s : State), (id < 256) ∧ (ArrayRuns s) ∧ (meHead s id = some (2, lane)) ∧ (laneUses lane = none) :=
  ⟨3, 14, (tLane 14 0), by decide, by decide, by decide, by decide⟩

theorem wit_EnginesAndArrayPorts_6 : ∃ (id : Nat) (s : State), (id < 256) ∧ (ArrayRuns s) ∧ (meHead s id = none) :=
  ⟨3, State.reset, by decide, by decide, by decide⟩

theorem wit_EnginesAndArrayPorts_7 : ∃ (id : Nat) (m : MeCpl) (r : List MeCpl) (s : State), (id < 256) ∧ (ArrayRuns s) ∧ ((s.core id).me.executed = m :: r) ∧ ((kernelOf s id = none ∨ runsKernel s id = true)) :=
  ⟨3, { tag := 7 }, [], (tEngine [] [] (fun m => { m with executed := [{ tag := 7 }], ready := [{ tag := 6 }] })), by decide, by decide, by decide, by decide⟩

theorem wit_EnginesAndArrayPorts_8 : ∃ (id : Nat) (m : MeCpl) (r : List MeCpl) (s : State), (id < 256) ∧ (ArrayRuns s) ∧ ((s.core id).me.executed = m :: r) ∧ ((kernelOf s id).isSome = true) ∧ (runsKernel s id = false) :=
  ⟨3, { tag := 7 }, [], ({ tEngine [] [] (fun m => { m with executed := [{ tag := 7 }] }) with work := { State.reset.work with kernels := [(9, { part := 0, cores := [3], ended := [(3, 0)], restart := false, started := 0, deadline := 0, desc := [] })] } } : State), by decide, by decide, by decide, by decide, by decide⟩

theorem wit_EnginesAndArrayPorts_9 : ∃ (id : Nat) (s : State), (id < 256) ∧ (ArrayRuns s) ∧ ((s.core id).me.executed = []) :=
  ⟨3, State.reset, by decide, by decide, by decide⟩

theorem wit_EnginesAndArrayPorts_10 : ∃ (id : Nat) (s : State), (id < 256) ∧ (ArrayRuns s) ∧ ((s.core id).me.queue.length + (s.core id).me.executed.length + (s.core id).me.ready.length < 8) :=
  ⟨3, ((tTile 0).setReg .tnsMeStage 5 50), by decide, by decide, by decide⟩

theorem wit_EnginesAndArrayPorts_11 : ∃ (id : Nat) (s : State), (id < 256) ∧ (ArrayRuns s) ∧ (8 ≤ (s.core id).me.queue.length + (s.core id).me.executed.length + (s.core id).me.ready.length) :=
  ⟨3, (tEngine [] [] (fun m => { m with ready := List.replicate 7 { tag := 0 } })), by decide, by decide, by decide⟩

theorem wit_EnginesAndArrayPorts_12 : ∃ (id : Nat) (s : State), (id < 256) ∧ (ArrayRuns s) :=
  ⟨3, (tEngine [] [] (fun m => { m with ready := [{ tag := 0 }, { tag := 1 }] })), by decide, by decide⟩

theorem wit_EnginesAndArrayPorts_13 : ∃ (id : Nat) (s : State), (id < 256) ∧ (ArrayRuns s) :=
  ⟨3, ((tTile 0).setReg .tnsSrSeed 9 3), by decide, by decide⟩

theorem wit_EnginesAndArrayPorts_14 : ∃ (id : Nat) (n : BitVec 4) (s : State), (id < 256) ∧ (ArrayRuns s) ∧ (n ≠ 0) :=
  ⟨3, 1, tCores, by decide, by decide, by decide⟩

theorem wit_EnginesAndArrayPorts_15 : ∃ (id : Nat) (s : State), (id < 256) ∧ (ArrayRuns s) :=
  ⟨3, tCores, by decide, by decide⟩

theorem wit_EnginesAndArrayPorts_16 : ∃ (id : Nat) (v : Word) (s : State), (id < 256) ∧ (ArrayRuns s) ∧ (v.toNat < 8) ∧ ((s.chan (coreCluster id) v.toNat).queue.length < 64) :=
  ⟨19, 7, (tCores.setReg .tnsDmaStage 5 305), by decide, by decide, by decide, by decide⟩

theorem wit_EnginesAndArrayPorts_17 : ∃ (id : Nat) (v : Word) (s : State), (id < 256) ∧ (ArrayRuns s) ∧ ((8 ≤ v.toNat ∨ 64 ≤ (s.chan (coreCluster id) v.toNat).queue.length)) :=
  ⟨3, 8, tCores, by decide, by decide, by decide⟩

theorem wit_EnginesAndArrayPorts_18 : ∃ (link : Nat) (a : Agent) (s : State), (On s) ∧ (((s.pwr.localNs :: (s.arr.linkTimes.get link []).filter (fun x => decide (s.pwr.localNs < x + 1000000))).length < 3 ∨ link ∈ s.arr.linkFailed)) ∧ (a = .hub) :=
  ⟨4, .hub, State.reset, by decide, by decide, by decide⟩

theorem wit_EnginesAndArrayPorts_19 : ∃ (link : Nat) (a : Agent) (s : State), (On s) ∧ (3 ≤ (s.pwr.localNs :: (s.arr.linkTimes.get link []).filter (fun x => decide (s.pwr.localNs < x + 1000000))).length) ∧ (link ∉ s.arr.linkFailed) ∧ (a = .hub) :=
  ⟨4, .hub, ({ State.reset with arr := { State.reset.arr with linkTimes := [(4, [0, 0])] } } : State), by decide, by decide, by decide, by decide⟩

theorem wit_EnginesAndArrayPorts_20 : ∃ (cl : Nat) (k : Nat) (e : DmaEntry) (r : List DmaEntry) (s : State), (On s) ∧ ((s.chan cl k).queue = e :: r) ∧ (e.result = none) :=
  ⟨2, 3, { desc := [1], origin := .core 33 }, [], (State.reset.setChan 2 3 { queue := [{ desc := [1], origin := .core 33 }] }), by decide, by decide, by decide⟩

theorem wit_EnginesAndArrayPorts_21 : ∃ (c : Nat) (s : State), (On s) ∧ (c < 256) ∧ ((s.core c).run = .running) ∧ ((s.core c).inx = false) :=
  ⟨5, tCores, by decide, by decide, by decide, by decide⟩

end Sys2Proof.Tests
end

section
/-! Loads of a Tilth-32 core from memory of the part (R126), and register accesses that R5 turns away. -/

namespace Sys2Proof.Machine

open Sys2Proof

/-! A load that meets no exception. -/

/-- The exceptions of a load do not depend on its destination, its extension or the data that a store would write. -/
theorem accFault_of_load {m : MemAcc} (h : m.store = false) (s : State) (c : Nat) :
    accFault s c m = accFault s c { store := false, size := m.size, addr := m.addr } := by
  obtain ⟨store, size, signed, addr, dest, data⟩ := m
  subst h
  simp [accFault]

theorem ctlPort_of_load {m : MemAcc} (h : m.store = false) (c : Nat) : ctlPort c m = false := by simp [ctlPort, h]

/-- A word that raises nothing itself and whose load meets no exception commits. -/
theorem runWord_of_load {s : State} {c arr : Nat} {e : Eff} {m : MemAcc} (hexc : e.exc = []) (hmem : e.mem = some m) (hload : m.store = false)
    (h : Reads s c m.addr m.size arr) : runWord c e s = commit c e s := by
  have clear : accFault s c m = none := (accFault_of_load hload s c).trans h.clear
  simp [runWord, hexc, hmem, ctlPort_of_load hload, clear, firstExc]

/-- A load of bytes of the array that no link stands before commits: the word's own register writes come first, then the value loaded. -/
theorem commit_of_load {s : State} {c arr : Nat} {e : Eff} {m : MemAcc} {rd : BitVec 5} (hmem : e.mem = some m) (hload : m.store = false)
    (hdest : m.dest = some rd) (h : Reads s c m.addr m.size arr) :
    commit c e s = retired1 c (s.setCore c
      { (e.upd ((s.core c).setAll e.writes)).setG rd (extendTo32 m.size m.signed (s.loadNum arr m.size)) with
        pc := e.target.getD ((s.core c).pc + 4) }) := by
  simp [commit, hmem, hload, hdest, h.reach, h.inside, loadValue, Core.setAll]

theorem retires_setCore_pc {c : Nat} {k : Core} {pc : Word} {s : State} : Retires c (k.after pc) s (retired1 c (s.setCore c { k with pc := pc })) :=
  retires_setCore (k := { k with pc := pc })

/-- What a word with a load leaves where it raises nothing itself and the load reads memory of the part. -/
theorem retires_of_load {s : State} {c arr : Nat} {e : Eff} {m : MemAcc} {rd : BitVec 5} (hexc : e.exc = []) (hmem : e.mem = some m)
    (hload : m.store = false) (hdest : m.dest = some rd) (h : Reads s c m.addr m.size arr) :
    Retires c (((e.upd ((s.core c).setAll e.writes)).setG rd (extendTo32 m.size m.signed (s.loadNum arr m.size))).after
      (e.target.getD ((s.core c).pc + 4))) s (runWord c e s) := by
  rw [runWord_of_load hexc hmem hload h, commit_of_load hmem hload hdest h]
  exact retires_setCore_pc

/-- A plain load changes its destination and nothing else. -/
theorem loadsTo_of {i : Instr} {c size : Nat} {rd : BitVec 5} {ea : Core → Int} {signed : Bool}
    (h : ∀ s, exec i s = execEff c s (fun _ k => accEff false signed size rd k (ea k))) : LoadsTo i c rd ea size signed id := by
  intro s arr issues reads
  rw [h, execEff_of_issues issues]
  exact ⟨_, rfl, retires_of_load (e := accEff false signed size rd (s.core c) (ea (s.core c))) rfl rfl rfl rfl reads⟩

/-- Settles O15: each of the five words is a plain load of its size and extension at the exact sum of base and offset. -/
theorem plainLoads : Obligations.PlainLoads := by
  intro c rd rs1 imm
  exact ⟨loadsTo_of fun _ => rfl, loadsTo_of fun _ => rfl, loadsTo_of fun _ => rfl, loadsTo_of fun _ => rfl, loadsTo_of fun _ => rfl⟩

/-! Register accesses that are not one aligned word (R5). -/

/-- A state that differs in the value last read alone. -/
theorem changes_readVal (s : State) (v : Nat) : Changes [.readVal] [] s { s with readVal := v } :=
  Touch.changes (F := 4) (Touch.upd rfl (.inr rfl)) (by decide)

/-- The count of the debug window that rises changes its own register alone. -/
theorem changes_bump_dbgAccessErr (s : State) : Changes [] [.dbgAccessErr] s (s.bump .dbgAccessErr) := Touch.changes (bump_touch ..) (by decide)

/-- Where main power is up the access is counted, and a read gives zero. -/
theorem exec_misalignedRegisterAccess {a : Agent} {write : Bool} {s : State} (up : MainUp s) :
    exec (.misalignedRegisterAccess a write) s = .next (if write then s.bump .dbgAccessErr else { s.bump .dbgAccessErr with readVal := 0 }) := by
  change execMisalignedRegisterAccess a write s = _
  rw [execMisalignedRegisterAccess, whenMain_of up]

/-- Settles O7: the counter is the register DBG_ACCESS_ERR, and a read gives zero besides. -/
theorem misalignedAccessCounted : Obligations.MisalignedAccessCounted := by
  intro a write s up
  have counted : (s.bump .dbgAccessErr).reg .dbgAccessErr = min (s.reg .dbgAccessErr + 1) (2 ^ 32 - 1) := State.reg_bump_same s .dbgAccessErr 0 1
  cases write with
  | true => exact ⟨s.bump .dbgAccessErr, exec_misalignedRegisterAccess up, counted, nofun, changes_bump_dbgAccessErr s⟩
  | false =>
    refine ⟨{ s.bump .dbgAccessErr with readVal := 0 }, exec_misalignedRegisterAccess up, counted, fun _ => rfl, ?_⟩
    exact ((changes_bump_dbgAccessErr s).mono (by simp) (by simp)).trans ((changes_readVal _ 0).mono (by simp) (by simp))

end Sys2Proof.Machine
end

section
/-! What a word of a Tilth-32 core does where it makes no access: it completes (R122, R125), or it raises one exception (R138 to R140). -/

namespace Sys2Proof.Machine

open Sys2Proof

/-! Completion. -/

/-- A word that raises nothing and makes no access leaves its register writes, its own change of the core and its target. -/
theorem retires_of_plain {c : Nat} {e : Eff} {s : State} (hexc : e.exc = []) (hmem : e.mem = none) :
    Retires c ((e.upd ((s.core c).setAll e.writes)).after (e.target.getD ((s.core c).pc + 4))) s (runWord c e s) := by
  have run : runWord c e s = commit c e s := by simp [runWord, hexc, hmem, firstExc]
  have com : commit c e s = retired1 c (s.setCore c
      { e.upd ((s.core c).setAll e.writes) with pc := e.target.getD ((s.core c).pc + 4) }) := by simp [commit, hmem, Core.setAll]
  rw [run, com]
  exact retires_setCore_pc

/-- The command `i` runs a word of core `c` with effect `e`. -/
abbrev Performs (i : Instr) (c : Nat) (e : Eff) (s : State) : Prop := exec i s = .next (runWord c e s)

theorem performs_of_issues {i : Instr} {c : Nat} {s : State} (f : State → Core → Eff) (issues : Issues c s) (hexec : exec i s = execEff c s f) :
    Performs i c (f s (s.core c)) s := hexec.trans (execEff_of_issues issues f)

/-- A command whose word raises nothing and makes no access. -/
theorem Performs.retires {i : Instr} {c : Nat} {e : Eff} {s : State} (h : Performs i c e s) (hexc : e.exc = []) (hmem : e.mem = none) :
    ∃ t, exec i s = .next t ∧ Retires c ((e.upd ((s.core c).setAll e.writes)).after (e.target.getD ((s.core c).pc + 4))) s t :=
  ⟨_, h, retires_of_plain hexc hmem⟩

theorem GoesTo.cast {i : Instr} {c : Nat} {v w : Core → Word} (h : GoesTo i c v) (e : ∀ k, v k = w k) : GoesTo i c w := (funext e : v = w) ▸ h

theorem Core.setAll_nil (k : Core) : k.setAll [] = k := rfl

theorem Core.setAll_append (k : Core) (l m : List (BitVec 5 × Word)) : k.setAll (l ++ m) = (k.setAll l).setAll m := List.foldl_append

/-! Changes of one core. -/

theorem changes_setCore (s : State) (c : Nat) (k : Core) : Changes [.cores] [] s (s.setCore c k) :=
  Touch.changes (F := 16384) (setCore_touch ..) (by decide)

theorem core_modCore (s : State) (c d : Nat) (f : Core → Core) : (s.modCore c f).core d = if d = c then f (s.core c) else s.core d :=
  core_setCore s c d _

/-- A change of the core that retires the word, made before it, is part of the word. -/
theorem Retires.of_setCore {c : Nat} {k k' : Core} {s t : State} (h : Retires c k (s.setCore c k') t) : Retires c k s t where
  core := h.core
  others d hd := by rw [h.others d hd, core_setCore, if_neg hd]
  frame := ((changes_setCore s c k').mono (by simp) (by simp)).trans h.frame

/-! Exceptions. -/

/-- The states in which core `c` is stopped. -/
def CoreStopped (c : Nat) (s : State) : Prop := (s.core c).run = .stopped

/-- What stops cores or leaves their run state alone keeps a core stopped. -/
theorem CoreStopped.modCore {c d : Nat} {s : State} {f : Core → Core} (h : CoreStopped c s) (hf : ∀ k : Core, k.run = .stopped → (f k).run = .stopped) :
    CoreStopped c (s.modCore d f) := by
  unfold CoreStopped at *
  rw [core_modCore]
  split
  case isTrue e => exact hf _ (e ▸ h)
  case isFalse => exact h

theorem CoreStopped.of_cores {c : Nat} {s t : State} (h : CoreStopped c s) (e : t.cores = s.cores) : CoreStopped c t := by
  rw [CoreStopped, core_of_cores e]; exact h

theorem finishItem_cores (i : Nat) (st : Status) (field who : Nat) (s : State) : (finishItem i st field who s).cores = s.cores := by
  unfold finishItem State.setItem
  split <;> rfl

theorem CoreStopped.emptyPort {c d : Nat} {s : State} (h : CoreStopped c s) : CoreStopped c (Machine.emptyPort d s) :=
  (h.of_cores (t := { s with regs := _ }) rfl).modCore (f := fun k => { k with me := { gens := k.me.gens, reload := k.me.reload } }) fun _ hk => hk

/-- The abort of a kernel starts no core. -/
theorem CoreStopped.abortKernel {c item who : Nat} {st : Status} {s : State} (h : CoreStopped c s) : CoreStopped c (abortKernel item st who s) := by
  have emptied (l : List Nat) : ∀ s : State, CoreStopped c s →
      CoreStopped c (l.foldl (fun s id => Machine.emptyPort id (s.modCore id (fun k => { k with run := .stopped }))) s) := by
    induction l with
    | nil => exact fun _ h => h
    | cons d l ih => exact fun s h => ih _ (h.modCore (f := fun k => { k with run := .stopped }) fun _ _ => rfl).emptyPort
  unfold Machine.abortKernel
  split
  case h_1 => exact h
  case h_2 k _ => exact (emptied k.cores s h).of_cores (finishItem_cores ..)

/-- Exception entry, and the double fault, which ends in a stopped core whether it ran a kernel or not. -/
theorem takes_excEnter {c code sub : Nat} {xval : Word} {s : State} : Takes c code sub xval s (excEnter c code sub xval (s.core c).pc s) where
  entry hx := by
    have entered : excEnter c code sub xval (s.core c).pc s = s.setCore c ((s.core c).entered code sub xval) := by simp [excEnter, hx, Core.entered]
    rw [entered]
    exact ⟨by rw [core_setCore, if_pos rfl], fun d hd => by rw [core_setCore, if_neg hd], changes_setCore ..⟩
  double hx := by
    have stopped : CoreStopped c (s.setCore c { s.core c with run := .stopped }) := by rw [CoreStopped, core_setCore, if_pos rfl]
    simp only [excEnter]
    rw [if_pos hx]
    split
    case h_1 => exact stopped.abortKernel
    case h_2 => exact stopped

/-- An exception whose value for TNS_XVAL a rule gives, and that met no uncorrectable word. -/
theorem takes_raise {c code sub x : Nat} {s : State} :
    Takes c code sub (BitVec.ofNat 32 x) s (raise c { code := code, sub := sub, xval := some x } s) := takes_excEnter

/-- A word that makes no access and raises one exception takes it. -/
theorem runWord_of_exc {c : Nat} {e : Eff} {x : Exc} {s : State} (hexc : e.exc = [x]) (hmem : e.mem = none) : runWord c e s = raise c x s := by
  simp [runWord, hexc, hmem, firstExc]

/-- A command whose word does nothing but raise an exception. -/
theorem Performs.takes {i : Instr} {c code sub x : Nat} {e : Eff} {s : State} (h : Performs i c e s)
    (he : e = { exc := [{ code := code, sub := sub, xval := some x }] }) : ∃ t, exec i s = .next t ∧ Takes c code sub (BitVec.ofNat 32 x) s t := by
  subst he
  refine ⟨_, h, ?_⟩
  rw [runWord_of_exc rfl rfl]
  exact takes_raise

end Sys2Proof.Machine
end

section
/-! Integer words of a Tilth-32 core: operations of two registers, of an immediate and of one register (R119, R125). -/

namespace Sys2Proof.Machine

open Sys2Proof

/-! The shapes of the words. -/

theorem gives_opReg {i : Instr} {c : Nat} {rd rs1 rs2 : BitVec 5} (f : Word → Word → Word) {v : Core → Word}
    (hexec : ∀ s, exec i s = opReg c rd rs1 rs2 f s) (hv : ∀ k, f (k.g rs1) (k.g rs2) = v k) : Gives i c rd v :=
  (gives_of (v := fun k => f (k.g rs1) (k.g rs2)) hexec).cast hv

theorem gives_opImm {i : Instr} {c : Nat} {rd rs1 : BitVec 5} {imm : BitVec 15} (f : Word → Word → Word) {signed : Bool} {v : Core → Word}
    (hexec : ∀ s, exec i s = opImm c rd rs1 imm f signed s)
    (hv : ∀ k, f (k.g rs1) (if signed then imm.signExtend 32 else imm.zeroExtend 32) = v k) : Gives i c rd v :=
  (gives_of (v := fun k => f (k.g rs1) (if signed then imm.signExtend 32 else imm.zeroExtend 32)) hexec).cast hv

/-- A shift whose reserved bits are zero is legal. -/
theorem gives_shiftImm {i : Instr} {kind c : Nat} {rd rs1 sh : BitVec 5} (f : Word → Nat → Word)
    (hexec : ∀ s, exec i s = shiftImm kind c rd rs1 0 sh f s) : Gives i c rd (fun k => f (k.g rs1) sh.toNat) :=
  gives_of hexec

/-- An operation of one register whose rs2 is g0 is legal. -/
theorem gives_opOne {i : Instr} {funct c : Nat} {rd rs1 : BitVec 5} (f : Word → Word) {v : Core → Word}
    (hexec : ∀ s, exec i s = opOne funct c rd rs1 0 f s) (hv : ∀ k, f (k.g rs1) = v k) : Gives i c rd v :=
  (gives_of (v := fun k => f (k.g rs1)) hexec).cast hv

/-! Comparisons. -/

theorem boolWord_slt (a b : Word) : boolWord (slt a b) = if a.toInt < b.toInt then 1 else 0 := by simp [boolWord, slt]

theorem boolWord_sltu (a b : Word) : boolWord (sltu a b) = if a.toNat < b.toNat then 1 else 0 := by simp [boolWord, sltu]

/-- The choice by "less" is the choice by "not less or equal", the other way round. -/
theorem ite_slt (a b x y : Word) : (if slt a b then x else y) = if b.toInt ≤ a.toInt then y else x := by
  rw [← ite_not]; simp [slt]

theorem ite_sltu (a b x y : Word) : (if sltu a b then x else y) = if b.toNat ≤ a.toNat then y else x := by
  rw [← ite_not]; simp [sltu]

/-- Settles O8: each word is an operation of two registers; comparisons and choices are read as orders of numbers. -/
theorem integerRegisterResults : Obligations.IntegerRegisterResults := by
  intro c rd rs1 rs2
  exact ⟨
    gives_opReg (fun a b => a + b) (fun _ => rfl) fun _ => rfl,
    gives_opReg (fun a b => a - b) (fun _ => rfl) fun _ => rfl,
    gives_opReg (fun a b => a &&& b) (fun _ => rfl) fun _ => rfl,
    gives_opReg (fun a b => a ||| b) (fun _ => rfl) fun _ => rfl,
    gives_opReg (fun a b => a ^^^ b) (fun _ => rfl) fun _ => rfl,
    gives_opReg (fun a b => a <<< (b.toNat % 32)) (fun _ => rfl) fun _ => rfl,
    gives_opReg (fun a b => a >>> (b.toNat % 32)) (fun _ => rfl) fun _ => rfl,
    gives_opReg (fun a b => a.sshiftRight (b.toNat % 32)) (fun _ => rfl) fun _ => rfl,
    gives_opReg (fun a b => boolWord (slt a b)) (fun _ => rfl) fun _ => boolWord_slt ..,
    gives_opReg (fun a b => boolWord (sltu a b)) (fun _ => rfl) fun _ => boolWord_sltu ..,
    gives_opReg (fun a b => if slt b a then b else a) (fun _ => rfl) fun _ => ite_slt ..,
    gives_opReg (fun a b => if slt a b then b else a) (fun _ => rfl) fun _ => ite_slt ..,
    gives_opReg (fun a b => if sltu b a then b else a) (fun _ => rfl) fun _ => ite_sltu ..,
    gives_opReg (fun a b => if sltu a b then b else a) (fun _ => rfl) fun _ => ite_sltu ..⟩

/-! Products and quotients. -/

theorem mulHigh_natCast (a b : Nat) : mulHigh a b = BitVec.ofNat 32 (a * b / 2 ^ 32) := by
  rw [mulHigh, ← BitVec.ofInt_natCast]; norm_cast

theorem divS_eq (a b : Word) : divS a b = if b = 0 then 0xFFFFFFFF else a.sdiv b := by
  have quotient : BitVec.ofInt 32 (a.toInt.tdiv b.toInt) = a.sdiv b := by
    apply BitVec.eq_of_toInt_eq
    rw [BitVec.toInt_ofInt, BitVec.toInt_sdiv]
  rw [divS, quotient]; rfl

theorem divU_eq (a b : Word) : divU a b = if b = 0 then 0xFFFFFFFF else a.udiv b := by
  rw [divU, BitVec.udiv_eq, BitVec.udiv_def]; rfl

theorem remS_eq (a b : Word) : remS a b = if b = 0 then a else a.srem b := by
  rw [remS, ← BitVec.toInt_srem, BitVec.ofInt_toInt]

theorem remU_eq (a b : Word) : remU a b = if b = 0 then a else a.umod b := by
  rw [remU, BitVec.umod_eq, BitVec.umod_def]

/-- Settles O9: none of the eight words raises anything, and each result is the library's, but for division by zero. -/
theorem multiplyDivideResults : Obligations.MultiplyDivideResults := by
  intro c rd rs1 rs2
  exact ⟨
    gives_opReg (fun a b => a * b) (fun _ => rfl) fun _ => rfl,
    gives_opReg (fun a b => mulHigh a.toInt b.toInt) (fun _ => rfl) fun _ => rfl,
    gives_opReg (fun a b => mulHigh a.toNat b.toNat) (fun _ => rfl) fun _ => mulHigh_natCast ..,
    gives_opReg (fun a b => mulHigh a.toInt b.toNat) (fun _ => rfl) fun _ => rfl,
    gives_opReg divS (fun _ => rfl) fun _ => divS_eq ..,
    gives_opReg divU (fun _ => rfl) fun _ => divU_eq ..,
    gives_opReg remS (fun _ => rfl) fun _ => remS_eq ..,
    gives_opReg remU (fun _ => rfl) fun _ => remU_eq ..,
    by decide,
    by decide⟩

/-! Immediates. -/

/-- The 20 bits of LUI and AUIPC stand at bit 12. -/
theorem ofNat_mul_4096 (imm : BitVec 20) : BitVec.ofNat 32 (imm.toNat * 4096) = imm.zeroExtend 32 <<< 12 := by
  have twoPow : (BitVec.ofNat 32 4096) = BitVec.twoPow 32 12 := by decide
  rw [BitVec.shiftLeft_eq_mul_twoPow, BitVec.ofNat_mul, twoPow, BitVec.ofNat_toNat]

/-- Settles O10: by the shapes of the words; the upper immediates are products by 4,096. -/
theorem immediateResults : Obligations.ImmediateResults := by
  refine ⟨fun c rd rs1 imm => ?_, fun c rd rs1 sh => ?_, fun c rd imm => ?_⟩
  · exact ⟨
      gives_opImm (fun a b => a + b) (fun _ => rfl) fun _ => rfl,
      gives_opImm (fun a b => a &&& b) (fun _ => rfl) fun _ => rfl,
      gives_opImm (fun a b => a ||| b) (fun _ => rfl) fun _ => rfl,
      gives_opImm (fun a b => a ^^^ b) (fun _ => rfl) fun _ => rfl,
      gives_opImm (fun a b => boolWord (slt a b)) (fun _ => rfl) fun _ => boolWord_slt ..,
      gives_opImm (fun a b => boolWord (sltu a b)) (fun _ => rfl) fun _ => boolWord_sltu ..⟩
  · exact ⟨
      gives_shiftImm (fun a n => a <<< n) fun _ => rfl,
      gives_shiftImm (fun a n => a >>> n) fun _ => rfl,
      gives_shiftImm (fun a n => a.sshiftRight n) fun _ => rfl⟩
  · have upper := ofNat_mul_4096 imm
    exact ⟨(gives_of (v := fun _ => BitVec.ofNat 32 (imm.toNat * 4096)) fun _ => rfl).cast fun _ => upper,
      (gives_of (v := fun k => k.pc + BitVec.ofNat 32 (imm.toNat * 4096)) fun _ => rfl).cast fun k => congrArg (k.pc + ·) upper⟩

/-! Counts and reversals of bits. -/

/-- The place of the first number of a run with `p`, or its end, counts the numbers before it. -/
theorem firstFrom_getD (p : Nat → Bool) (i n : Nat) :
    (firstFrom p i n).getD (i + n) = i + ((List.range' i n).takeWhile (fun j => !p j)).length := by
  induction n generalizing i with
  | zero => rfl
  | succ n ih =>
    rw [firstFrom, List.range'_succ, List.takeWhile_cons]
    by_cases h : p i = true
    · simp [h]
    · have step := ih (i + 1)
      rw [Nat.add_right_comm] at step
      simp only [h, Bool.false_eq_true, if_false, Bool.not_false, if_true, List.length_cons]
      rw [← Nat.add_assoc, step]; omega

theorem firstBelow_getD (p : Nat → Bool) (n : Nat) : (firstBelow n p).getD n = ((List.range n).takeWhile (fun j => !p j)).length := by
  have h := firstFrom_getD p 0 n
  rwa [Nat.zero_add, Nat.zero_add, ← List.range_eq_range'] at h

/-- Counting one by one from `n`. -/
theorem foldl_count (p : Nat → Bool) (l : List Nat) (n : Nat) : l.foldl (fun n i => if p i then n + 1 else n) n = n + l.countP p := by
  induction l generalizing n with
  | nil => rfl
  | cons i l ih =>
    rw [List.foldl_cons, ih, List.countP_cons]
    split <;> omega

theorem popc32_eq (a : Word) : popc32 a = (List.range 32).countP (fun i => a.getLsbD i) :=
  (foldl_count (fun i => a.getLsbD i) _ 0).trans (Nat.zero_add _)

theorem revBits_succ (n v : Nat) : revBits (n + 1) v = 2 * revBits n v + v / 2 ^ n % 2 := by
  simp [revBits, List.range_succ, List.foldl_append]

/-- Bit `i` of the reversal of the `n` low bits is the bit as far from the other end. -/
theorem revBits_testBit (n v i : Nat) : (revBits n v).testBit i = (decide (i < n) && v.testBit (n - 1 - i)) := by
  induction n generalizing i with
  | zero => simp [revBits]
  | succ n ih =>
    rw [revBits_succ]
    cases i with
    | zero => simp [Nat.testBit_eq_decide_div_mod_eq]
    | succ i =>
      have half : (2 * revBits n v + v / 2 ^ n % 2) / 2 = revBits n v := by omega
      have place : n + 1 - 1 - (i + 1) = n - 1 - i := by omega
      rw [Nat.testBit_succ, half, ih, place]
      simp

theorem ofNat_revBits (a : Word) : BitVec.ofNat 32 (revBits 32 a.toNat) = a.reverse := by
  apply BitVec.eq_of_getLsbD_eq
  intro i hi
  rw [BitVec.getLsbD_ofNat, revBits_testBit, BitVec.getLsbD_reverse, BitVec.getMsbD, BitVec.getLsbD]
  simp [hi]

/-- The four bytes of a word, the least significant first, spelled the other way round. -/
theorem bswap32_eq (a : Word) :
    bswap32 a = a.extractLsb' 0 8 ++ a.extractLsb' 8 8 ++ a.extractLsb' 16 8 ++ a.extractLsb' 24 8 := by
  apply BitVec.eq_of_toNat_eq
  have b : ∀ j, (a.extractLsb' j 8).toNat < 2 ^ 8 := fun j => (a.extractLsb' j 8).isLt
  rw [BitVec.toNat_append, ← Nat.shiftLeft_add_eq_or_of_lt (b 24), BitVec.toNat_append, ← Nat.shiftLeft_add_eq_or_of_lt (b 16),
    BitVec.toNat_append, ← Nat.shiftLeft_add_eq_or_of_lt (b 8)]
  simp only [bswap32, leBytes, beNat, List.foldl_cons, List.foldl_nil, BitVec.toNat_ofNat, BitVec.extractLsb'_toNat, Nat.shiftLeft_eq,
    Nat.shiftRight_eq_div_pow, Nat.reducePow, Nat.div_one, Nat.zero_mul, Nat.zero_add, Nat.div_div_eq_div_mul, Nat.reduceMul]
  omega

/-- Settles O11: the counts are the library's, and the reversals are read bit by bit and byte by byte. -/
theorem bitCountResults : Obligations.BitCountResults := by
  intro c rd rs1
  exact ⟨
    gives_opOne (fun a => BitVec.ofNat 32 (clz32 a)) (fun _ => rfl) fun _ => congrArg _ (firstBelow_getD _ 32),
    gives_opOne (fun a => BitVec.ofNat 32 (ctz32 a)) (fun _ => rfl) fun _ => congrArg _ (firstBelow_getD _ 32),
    gives_opOne (fun a => BitVec.ofNat 32 (popc32 a)) (fun _ => rfl) fun _ => congrArg _ (popc32_eq _),
    gives_opOne (fun a => BitVec.ofNat 32 (revBits 32 a.toNat)) (fun _ => rfl) fun _ => ofNat_revBits _,
    gives_opOne bswap32 (fun _ => rfl) fun _ => bswap32_eq _⟩

end Sys2Proof.Machine
end

section
/-! Branches, jumps, ERET and the return stack of a Tilth-32 core (R119, R130 to R132, R142). -/

namespace Sys2Proof.Machine

open Sys2Proof

/-! Branches and jumps. -/

/-- A signed offset in words from pc, as the shift of its extension. -/
theorem wordsFrom_toInt {w : Nat} (k : Core) (off : BitVec w) : wordsFrom k off.toInt = k.pc + (off.signExtend 32 <<< 2) := by
  have four : BitVec.ofInt 32 4 = BitVec.twoPow 32 2 := by decide
  rw [wordsFrom, BitVec.ofInt_mul, BitVec.shiftLeft_eq_mul_twoPow, four, BitVec.mul_comm]; rfl

/-- A branch whose condition `p` computes the relation `q` of its two registers. -/
theorem goesTo_branch {i : Instr} {c : Nat} {rs1 rs2 : BitVec 5} {off : BitVec 15} (p : Word → Word → Bool) (q : Word → Word → Prop)
    [∀ a b, Decidable (q a b)] (hexec : ∀ s, exec i s = branch c rs1 rs2 off p s) (hp : ∀ a b, p a b = true ↔ q a b) :
    GoesTo i c (fun k => if q (k.g rs1) (k.g rs2) then k.pc + (off.signExtend 32 <<< 2) else k.pc + 4) := by
  intro s issues
  have performs := performs_of_issues _ issues (hexec s)
  beta_reduce
  by_cases taken : q ((s.core c).g rs1) ((s.core c).g rs2)
  · rw [if_pos ((hp ..).mpr taken)] at performs
    rw [if_pos taken, ← wordsFrom_toInt]
    exact performs.retires rfl rfl
  · rw [if_neg (mt (hp ..).mp taken)] at performs
    rw [if_neg taken]
    exact performs.retires rfl rfl

/-- Settles O12: each branch computes its relation, and a jump goes where it says. -/
theorem branchesAndJumps : Obligations.BranchesAndJumps := by
  refine ⟨fun c rs1 rs2 off => ?_, fun c off => ?_, fun c rs1 => ?_⟩
  · exact ⟨
      goesTo_branch (fun a b => a == b) (fun a b => a = b) (fun _ => rfl) fun _ _ => beq_iff_eq,
      goesTo_branch (fun a b => a != b) (fun a b => a ≠ b) (fun _ => rfl) fun _ _ => bne_iff_ne,
      goesTo_branch slt (fun a b => a.toInt < b.toInt) (fun _ => rfl) fun _ _ => decide_eq_true_iff,
      goesTo_branch (fun a b => !slt a b) (fun a b => b.toInt ≤ a.toInt) (fun _ => rfl) fun a b => by simp [slt],
      goesTo_branch sltu (fun a b => a.toNat < b.toNat) (fun _ => rfl) fun _ _ => decide_eq_true_iff,
      goesTo_branch (fun a b => !sltu a b) (fun a b => b.toNat ≤ a.toNat) (fun _ => rfl) fun a b => by simp [sltu]⟩
  · exact (goesTo_of (v := fun k => wordsFrom k off.toInt) fun _ => rfl).cast fun k => wordsFrom_toInt k off
  · exact goesTo_of (v := fun k => k.g rs1) fun _ => rfl

/-- Settles O13: ERET makes no access and raises nothing. -/
theorem eretResumes : Obligations.EretResumes := by
  intro c s issues
  have performs : Performs (.eret c 0 0 0) c _ s :=
    performs_of_issues (fun _ k => { target := some k.epc, upd := fun c => { c with ie := k.pie, inx := false, resv := none } }) issues rfl
  exact performs.retires rfl rfl

/-! The return stack. -/

/-- A word that pushes `v` and goes to `target`, or to the next word where there is none. -/
abbrev Pushes (i : Instr) (c : Nat) (v : Word) (target : Option Word) (s : State) : Prop :=
  Performs i c (pushEff (s.core c) v { target := target }) s

/-- A word that pops into `dest`, or into pc where there is none. -/
abbrev Pops (i : Instr) (c : Nat) (dest : Option (BitVec 5)) (s : State) : Prop := Performs i c (popEff (s.core c) dest) s

theorem pushes_call {c : Nat} {s : State} (issues : Issues c s) (off : BitVec 25) :
    Pushes (.call c off) c ((s.core c).pc + 4) (some ((s.core c).pc + (off.signExtend 32 <<< 2))) s := by
  have performs : Pushes (.call c off) c ((s.core c).pc + 4) (some (wordsFrom (s.core c) off.toInt)) s :=
    performs_of_issues (fun _ k => pushEff k (k.pc + 4) { target := some (wordsFrom k off.toInt) }) issues rfl
  rwa [wordsFrom_toInt] at performs

theorem pushes_callr {c : Nat} {s : State} (issues : Issues c s) (rs1 : BitVec 5) :
    Pushes (.callr c 0 rs1 0) c ((s.core c).pc + 4) (some ((s.core c).g rs1)) s :=
  performs_of_issues (fun _ k => pushEff k (k.pc + 4) { target := some (k.g rs1) }) issues rfl

theorem pushes_rspush {c : Nat} {s : State} (issues : Issues c s) (rs1 : BitVec 5) : Pushes (.rspush c rs1) c ((s.core c).g rs1) none s :=
  performs_of_issues (fun _ k => pushEff k (k.g rs1) {}) issues rfl

theorem pops_ret {c : Nat} {s : State} (issues : Issues c s) : Pops (.ret c 0 0 0) c none s := performs_of_issues (fun _ k => popEff k none) issues rfl

theorem pops_rspop {c : Nat} {s : State} (issues : Issues c s) (rd : BitVec 5) : Pops (.rspop c rd) c (some rd) s :=
  performs_of_issues (fun _ k => popEff k (some rd)) issues rfl

/-- With room the value becomes the newest entry. -/
theorem Pushes.retires {i : Instr} {c : Nat} {v : Word} {target : Option Word} {s : State} (h : Pushes i c v target s)
    (room : (s.core c).rstack.length < 16) : ∃ t, exec i s = .next t ∧
      Retires c ({ s.core c with rstack := v :: (s.core c).rstack }.after (target.getD ((s.core c).pc + 4))) s t := by
  rw [Pushes, pushEff, if_pos room] at h
  exact h.retires rfl rfl

/-- On a full stack in joined mode, without ovf_trap, it takes the place of the oldest. -/
theorem Pushes.overwrites {i : Instr} {c : Nat} {v : Word} {target : Option Word} {s : State} (h : Pushes i c v target s)
    (full : 16 ≤ (s.core c).rstack.length) (joined : (s.core c).split = false) (untrapped : (s.core c).ovfTrap = false) :
    ∃ t, exec i s = .next t ∧ Retires c ({ s.core c with rstack := v :: (s.core c).rstack.dropLast }.after (target.getD ((s.core c).pc + 4))) s t := by
  rw [Pushes, pushEff, if_neg (Nat.not_lt.mpr full), joined, untrapped] at h
  exact h.retires rfl rfl

/-- The stack pointer of split mode, as TNS_XVAL takes it. -/
theorem ofNat_rsp (k : Core) : BitVec.ofNat 32 k.rsp.toNat = k.rsp := BitVec.ofNat_toNat .. |>.trans (BitVec.setWidth_eq _)

/-- The overflow exception of a full stack. -/
theorem Pushes.overflows {i : Instr} {c : Nat} {v : Word} {target : Option Word} {s : State} (h : Pushes i c v target s)
    (full : 16 ≤ (s.core c).rstack.length)
    (limit : (s.core c).split = false ∧ (s.core c).ovfTrap = true ∨ (s.core c).split = true ∧ (s.core c).rsp.toNat < (s.core c).rslo.toNat + 4) :
    ∃ t, exec i s = .next t ∧ Takes c 9 0 (if (s.core c).split then (s.core c).rsp else 0) s t := by
  rw [Pushes, pushEff, if_neg (Nat.not_lt.mpr full)] at h
  rcases limit with ⟨joined, trapped⟩ | ⟨split, low⟩
  case inl =>
    simp only [joined, trapped] at h ⊢
    exact h.takes rfl
  case inr =>
    rw [if_pos split, if_pos low] at h
    rw [if_pos split, ← ofNat_rsp]
    exact h.takes rfl

/-- The underflow exception of an empty stack. -/
theorem Pops.underflows {i : Instr} {c : Nat} {dest : Option (BitVec 5)} {s : State} (h : Pops i c dest s) (empty : (s.core c).rstack = [])
    (limit : (s.core c).split = false ∨ (s.core c).rshi.toNat ≤ (s.core c).rsp.toNat) :
    ∃ t, exec i s = .next t ∧ Takes c 10 0 (if (s.core c).split then (s.core c).rsp else 0) s t := by
  simp only [Pops, popEff, empty] at h
  cases split : (s.core c).split
  case false =>
    rw [if_pos split] at h
    exact h.takes rfl
  case true =>
    have high := limit.resolve_left (by simp [split])
    rw [if_neg (by simp [split]), if_pos high] at h
    rw [if_pos rfl, ← ofNat_rsp]
    exact h.takes rfl

/-- Settles O14: by the rules of a push and of a pop, for each word that makes one. -/
theorem returnStack : Obligations.ReturnStack := by
  intro c rd rs1 off s issues
  have call := pushes_call issues off
  have callr := pushes_callr issues rs1
  have rspush := pushes_rspush issues rs1
  have ret := pops_ret issues
  have rspop := pops_rspop issues rd
  refine ⟨fun room => ?_, fun full joined untrapped => ?_, fun full limit => ?_, fun v r entries => ?_, fun empty limit => ?_⟩
  · exact ⟨call.retires room, callr.retires room, rspush.retires room⟩
  · exact ⟨call.overwrites full joined untrapped, rspush.overwrites full joined untrapped⟩
  · exact ⟨call.overflows full limit, callr.overflows full limit, rspush.overflows full limit⟩
  · simp only [Pops, popEff, entries] at ret rspop
    exact ⟨ret.retires rfl rfl, rspop.retires rfl rfl⟩
  · exact ⟨ret.underflows empty limit, rspop.underflows empty limit⟩

end Sys2Proof.Machine
end

section
/-! Fences, system calls, breakpoints and waits of a Tilth-32 core (R137, R139, R143). -/

namespace Sys2Proof.Machine

open Sys2Proof

/-! Guards that are open. -/

/-- A core that exists acts where the device is ON and no debug freeze holds it (R49). -/
theorem whenCore_of {c : Nat} {s : State} (present : c < 272) (on : On s) (unheld : c < 256 → s.frozen = false) (f : State → State) :
    whenCore c s f = .next (f s) := by
  rw [whenCore, if_neg (by omega)]
  split
  case isTrue tidy => simp [whenArray, whenOn_of on, unheld tidy]
  case isFalse => exact whenOn_of on

theorem atWord_of_issues {c : Nat} {s : State} (h : Issues c s) (f : State → State) : atWord c s f = .next (f s) := by
  rw [atWord, whenCore_of h.present h.on h.held, h.issues, h.fetched]; rfl

/-! A word that leaves a value in a register after a change of its own. -/

theorem retires_finishWord {c : Nat} {rd : BitVec 5} {v : Word} {s : State} :
    Retires c (((s.core c).setG rd v).after ((s.core c).pc + 4)) s (finishWord c rd v s) :=
  retires_setCore_pc (k := (s.core c).setG rd v)

theorem retires_finishWord_modCore {c : Nat} {rd : BitVec 5} {v : Word} {f : Core → Core} {s : State} :
    Retires c (((f (s.core c)).setG rd v).after ((f (s.core c)).pc + 4)) s (finishWord c rd v (s.modCore c f)) := by
  have h : Retires c _ (s.modCore c f) _ := retires_finishWord (rd := rd) (v := v)
  rw [core_modCore, if_pos rfl] at h
  exact h.of_setCore

/-! System calls and waits. -/

/-- A word without any effect of its own. -/
theorem goesTo_next {i : Instr} {c : Nat} (hexec : ∀ s, exec i s = execEff c s (fun _ _ => {})) : GoesTo i c (fun k => k.pc + 4) :=
  fun s issues => (performs_of_issues _ issues (hexec s)).retires rfl rfl

/-- A word that raises one exception in every state. -/
theorem raises_of {i : Instr} {c code : Nat} (hexec : ∀ s, exec i s = execEff c s (fun _ _ => { exc := [{ code := code, xval := some 0 }] })) :
    Raises i c code 0 (fun _ => 0) :=
  fun s issues => (performs_of_issues _ issues (hexec s)).takes rfl

/-- WAITE with no event named. -/
theorem exec_waite_zero {c : Nat} {rd rs1 : BitVec 5} {s : State} (issues : Issues c s) (unmasked : (s.core c).g rs1 = 0) :
    exec (.waite c rd rs1) s = .next (raise c { code := 1, xval := some (encLR 0x1E rd.toNat rs1.toNat 0 0x020) } s) := by
  change execWaite c rd rs1 s = _
  rw [execWaite, atWord_of_issues issues]
  simp [unmasked]

/-- WAITE with an event present returns; with none it waits. -/
theorem exec_waite {c : Nat} {rd rs1 : BitVec 5} {s : State} (issues : Issues c s) (masked : (s.core c).g rs1 ≠ 0) :
    exec (.waite c rd rs1) s = .next (if events s c &&& (s.core c).g rs1 ≠ 0 then waiteReturn c rd (events s c &&& (s.core c).g rs1) s
      else s.modCore c (fun k => { k with run := .waiting ((s.core c).g rs1) rd rs1 })) := by
  change execWaite c rd rs1 s = _
  rw [execWaite, atWord_of_issues issues]
  simp only [if_neg masked]

/-- The wake of a core that waits. -/
theorem exec_waiteWake {c : Nat} {rd rs1 : BitVec 5} {m : Word} {s : State} (present : c < 272) (on : On s) (unheld : c < 256 → s.frozen = false)
    (waits : (s.core c).run = .waiting m rd rs1) (event : events s c &&& m ≠ 0) :
    exec (.waiteWake c) s = .next (waiteReturn c rd (events s c &&& m) s) := by
  change execWaiteWake c s = _
  rw [execWaiteWake, whenCore_of present on unheld]
  simp only [waits, if_pos event]

/-- A wait returns its events, and a wake that it returns is cleared. -/
theorem retires_waiteReturn {c : Nat} {rd : BitVec 5} {e : Word} {s : State} :
    Retires c (({ s.core c with wake := (s.core c).wake && !e.getLsbD 1, run := .running }.setG rd e).after ((s.core c).pc + 4)) s (waiteReturn c rd e s) :=
  retires_finishWord_modCore (f := fun k => { k with wake := k.wake && !e.getLsbD 1, run := .running })

/-- Settles O19: the fences and the exceptions as words without an access, the waits by their three cases. -/
theorem systemWords : Obligations.SystemWords := by
  intro c rd rs1
  refine ⟨goesTo_next fun _ => rfl, goesTo_next fun _ => rfl, raises_of fun _ => rfl, raises_of fun _ => rfl, fun s issues => ⟨?_, ?_, ?_⟩, ?_⟩
  · exact fun unmasked => ⟨_, exec_waite_zero issues unmasked, takes_raise⟩
  · intro event
    have masked : (s.core c).g rs1 ≠ 0 := fun zero => event (by simp [zero])
    rw [exec_waite issues masked, if_pos event]
    exact ⟨_, rfl, retires_waiteReturn⟩
  · intro masked quiet
    rw [exec_waite issues masked, if_neg (not_not.mpr quiet)]
    exact ⟨_, rfl, by rw [core_modCore, if_pos rfl], fun d hd => by rw [core_modCore, if_neg hd], changes_setCore ..⟩
  · intro s m on present unheld waits event
    exact ⟨_, exec_waiteWake present on unheld waits event, retires_waiteReturn⟩

end Sys2Proof.Machine
end

section
/-! Paired words of a Tilth-32 core whose operations are no loads or stores (R120 to R123). -/

namespace Sys2Proof.Machine

open Sys2Proof

/-! What a short operation can do by its kind. -/

/-- A short operation that is no load or store makes no access and raises nothing. -/
theorem shortEff_noAccess {o : ShortOp} (h : shortMem o = false) (k : Core) : (shortEff k o).exc = [] ∧ (shortEff k o).mem = none := by
  have range : ¬ (5 ≤ o.sop.toNat ∧ o.sop.toNat ≤ 10) := of_decide_eq_false h
  unfold shortEff
  split
  case h_6 | h_7 | h_8 | h_9 | h_10 | h_11 => omega
  case h_12 | h_13 => dsimp only; split <;> exact ⟨rfl, rfl⟩
  all_goals exact ⟨rfl, rfl⟩

/-- A short operation that is none of those, no branch and not reserved goes nowhere. -/
theorem shortEff_target_none {o : ShortOp} (access : shortMem o = false) (branch : shortBranch o = false) (whole : shortReserved o = false) (k : Core) :
    (shortEff k o).target = none := by
  have range : ¬ (5 ≤ o.sop.toNat ∧ o.sop.toNat ≤ 10) := of_decide_eq_false access
  have kind : ¬ (o.sop.toNat = 11 ∨ o.sop.toNat = 12) := of_decide_eq_false branch
  have below : ¬ 13 ≤ o.sop.toNat := by
    intro high
    unfold shortReserved at whole
    split at whole
    case h_5 => exact absurd high (of_decide_eq_false whole)
    all_goals omega
  have arithmetic : o.sop.toNat = 0 ∨ o.sop.toNat = 1 ∨ o.sop.toNat = 2 ∨ o.sop.toNat = 3 ∨ o.sop.toNat = 4 := by omega
  unfold shortEff
  rcases arithmetic with h | h | h | h | h <;> rw [h] <;> rfl

/-- A legal pair holds no branch in slot 0 (R121). -/
theorem shortBranch_of_legal {a b : ShortOp} (legal : illegalPair a b = false) : shortBranch a = false := by
  cases branch : shortBranch a
  case false => rfl
  case true =>
    have sop : a.sop ≠ 0 := fun zero => by simp [shortBranch, zero] at branch
    have apart : shortExchange a b = false := by rw [shortExchange, beq_false_of_ne sop]; rfl
    simp [illegalPair, apart, branch] at legal

/-! What a pair does. -/

/-- The word of a pair: the operation of the command in its slot, the other one in the other. -/
def slotted (k : Core) (sl : Slot) (own o : ShortOp) : Eff :=
  match sl with
  | .s0 => pairEff k own o
  | .s1 => pairEff k o own

theorem performs_execPair {i : Instr} {c : Nat} {sl : Slot} {own o : ShortOp} {s : State} (issues : Issues c s) (hexec : exec i s = execPair c sl own o s) :
    Performs i c (slotted (s.core c) sl own o) s := performs_of_issues (fun _ k => slotted k sl own o) issues hexec

/-- A legal pair of operations without an access: both read the registers before either writes, and slot 1 says where the word goes. -/
theorem pairEff_of_legal {a b : ShortOp} (k : Core) (ra : shortReserved a = false) (rb : shortReserved b = false) (legal : illegalPair a b = false)
    (ma : shortMem a = false) (mb : shortMem b = false) :
    pairEff k a b = { writes := (shortEff k a).writes ++ (shortEff k b).writes, target := (shortEff k b).target } := by
  obtain ⟨ea, na⟩ := shortEff_noAccess ma k
  obtain ⟨eb, nb⟩ := shortEff_noAccess mb k
  simp [pairEff, ra, rb, legal, ea, eb, na, nb]

/-- Where a pair goes: the target of the operation in slot 1. -/
def pairTarget (k : Core) (sl : Slot) (own o : ShortOp) : Option Word :=
  match sl with
  | .s0 => (shortEff k o).target
  | .s1 => (shortEff k own).target

/-- What a pair leaves where neither operation is a load or store: both operations' results, and the target of the one in slot 1. -/
theorem retires_pair {i : Instr} {c : Nat} {sl : Slot} {own o : ShortOp} {s : State} (issues : Issues c s) (hexec : exec i s = execPair c sl own o s)
    (pair : Pairs sl own o) (access : shortMem own = false) :
    ∃ t, exec i s = .next t ∧ Retires c (((s.core c).paired sl (shortEff (s.core c) own).writes o).after
      ((pairTarget (s.core c) sl own o).getD ((s.core c).pc + 4))) s t := by
  obtain ⟨whole, other, legal, noAccess⟩ := pair
  have performs := performs_execPair issues hexec
  cases sl with
  | s0 =>
    rw [slotted, pairEff_of_legal _ whole other legal access noAccess] at performs
    simpa only [Core.setAll_append, Core.paired, pairTarget] using performs.retires rfl rfl
  | s1 =>
    rw [slotted, pairEff_of_legal _ other whole legal noAccess access] at performs
    simpa only [Core.setAll_append, Core.paired, pairTarget] using performs.retires rfl rfl

/-- An operation that is no load, store or branch leaves its result, and the pair goes where a branch in the other slot goes. -/
theorem pairGives_of {i : Slot → ShortOp → Instr} {own : ShortOp} {c : Nat} {rd : BitVec 5} {v : Core → Word}
    (hexec : ∀ sl o s, exec (i sl o) s = execPair c sl own o s) (access : shortMem own = false)
    (heff : ∀ k, shortEff k own = result rd (v k)) : PairGives i own c rd v := by
  intro sl o s issues pair
  have retires := retires_pair issues (hexec sl o s) pair access
  have writes : (shortEff (s.core c) own).writes = [(rd, v (s.core c))] := by rw [heff]; rfl
  cases sl with
  | s0 => rwa [writes] at retires
  | s1 =>
    have target : (shortEff (s.core c) o).target = none :=
      shortEff_target_none pair.noAccess (shortBranch_of_legal pair.legal) pair.other _
    rw [writes] at retires
    rw [target]
    simpa [pairTarget, heff, result] using retires

/-! Operations of two registers. -/

theorem shortRb_shortSR {sop sub : Nat} {ra rb : BitVec 4} (h : sub < 8) : shortRb (shortSR sop sub ra rb) = rb.zeroExtend 5 := by
  apply BitVec.eq_of_toNat_eq
  have := rb.isLt
  simp [shortRb, shortSR]
  omega

theorem shortSub_shortSR {sop sub : Nat} {ra rb : BitVec 4} (h : sub < 8) : shortSub (shortSR sop sub ra rb) = sub := by
  have := rb.isLt
  simp [shortSub, shortSR]
  omega

/-- An SR form of sop 0 or 1 computes the operation of its number. -/
theorem shortEff_alu {sop sub : Nat} {ra rb : BitVec 4} (hsop : sop ≤ 1) (hsub : sub < 8) (k : Core) :
    shortEff k (shortSR sop sub ra rb) = result (ra.zeroExtend 5) (shortAlu sop sub (k.g (ra.zeroExtend 5)) (k.g (rb.zeroExtend 5))) := by
  have ra' : shortRa (shortSR sop sub ra rb) = ra.zeroExtend 5 := rfl
  have number : (shortSR sop sub ra rb).sop.toNat = sop := Nat.mod_eq_of_lt (by omega)
  unfold shortEff
  rw [number, ra', shortRb_shortSR hsub, shortSub_shortSR hsub]
  match sop, hsop with
  | 0, _ => rfl
  | 1, _ => rfl

/-- A pair with an SR form of sop 0 or 1 whose operation computes `f`. -/
theorem pairGives_alu {i : Slot → ShortOp → Instr} {c sop sub : Nat} {ra rb : BitVec 4} (f : Word → Word → Word)
    (hexec : ∀ sl o s, exec (i sl o) s = execPair c sl (shortSR sop sub ra rb) o s) (hf : ∀ a b, shortAlu sop sub a b = f a b)
    (hsop : sop ≤ 1 := by decide) (hsub : sub < 8 := by decide) :
    PairGives i (shortSR sop sub ra rb) c (ra.zeroExtend 5) (fun k => f (k.g (ra.zeroExtend 5)) (k.g (rb.zeroExtend 5))) := by
  have number : (shortSR sop sub ra rb).sop.toNat = sop := Nat.mod_eq_of_lt (by omega)
  have access : shortMem (shortSR sop sub ra rb) = false := by
    simp only [shortMem, number]; exact decide_eq_false (by omega)
  exact pairGives_of hexec access fun k => by rw [shortEff_alu hsop hsub, hf]

/-- Settles O22: each word is an operation of two registers, in either slot. -/
theorem shortResults : Obligations.ShortResults := by
  intro c ra rb
  exact ⟨
    pairGives_alu (fun _ b => b) (fun _ _ _ => rfl) fun _ _ => rfl,
    pairGives_alu (fun a b => a + b) (fun _ _ _ => rfl) fun _ _ => rfl,
    pairGives_alu (fun a b => a - b) (fun _ _ _ => rfl) fun _ _ => rfl,
    pairGives_alu (fun a b => a &&& b) (fun _ _ _ => rfl) fun _ _ => rfl,
    pairGives_alu (fun a b => a ||| b) (fun _ _ _ => rfl) fun _ _ => rfl,
    pairGives_alu (fun a b => a ^^^ b) (fun _ _ _ => rfl) fun _ _ => rfl,
    pairGives_alu (fun a b => a <<< (b.toNat % 32)) (fun _ _ _ => rfl) fun _ _ => rfl,
    pairGives_alu (fun a b => a >>> (b.toNat % 32)) (fun _ _ _ => rfl) fun _ _ => rfl,
    pairGives_alu (fun a b => a.sshiftRight (b.toNat % 32)) (fun _ _ _ => rfl) fun _ _ => rfl,
    pairGives_alu (fun a b => a * b) (fun _ _ _ => rfl) fun _ _ => rfl,
    pairGives_alu (fun a b => if a.toInt < b.toInt then 1 else 0) (fun _ _ _ => rfl) boolWord_slt,
    pairGives_alu (fun a b => if a.toNat < b.toNat then 1 else 0) (fun _ _ _ => rfl) boolWord_sltu,
    pairGives_alu (fun _ b => -b) (fun _ _ _ => rfl) fun _ b => BitVec.zero_sub b,
    pairGives_alu (fun _ b => ~~~b) (fun _ _ _ => rfl) fun _ _ => rfl,
    pairGives_alu (fun a b => if a.toInt ≤ b.toInt then a else b) (fun _ _ _ => rfl) fun a b => ite_slt b a b a,
    pairGives_alu (fun a b => if b.toInt ≤ a.toInt then a else b) (fun _ _ _ => rfl) fun a b => ite_slt a b b a⟩

/-! Immediates and branches. -/

theorem shortSI_low_toNat {sop n : Nat} {ra : BitVec 4} (h : n < 128) : (shortSI sop ra n).low.toNat = n := Nat.mod_eq_of_lt h

theorem shortSI_low_toInt {sop : Nat} {ra : BitVec 4} (imm : BitVec 7) : (shortSI sop ra imm.toNat).low.toInt = imm.toInt := by
  rw [shortSI, BitVec.ofNat_toNat, BitVec.setWidth_eq]

theorem shortEff_addi {ra : BitVec 4} (imm : BitVec 7) (k : Core) :
    shortEff k (shortSI 2 ra imm.toNat) = result (ra.zeroExtend 5) (k.g (ra.zeroExtend 5) + imm.signExtend 32) := by
  change result (ra.zeroExtend 5) (k.g (ra.zeroExtend 5) + BitVec.ofInt 32 (shortSI 2 ra imm.toNat).low.toInt) = _
  rw [shortSI_low_toInt]; rfl

theorem shortEff_li {ra : BitVec 4} (imm : BitVec 7) (k : Core) :
    shortEff k (shortSI 3 ra imm.toNat) = result (ra.zeroExtend 5) (imm.signExtend 32) := by
  change result (ra.zeroExtend 5) (BitVec.ofInt 32 (shortSI 3 ra imm.toNat).low.toInt) = _
  rw [shortSI_low_toInt]; rfl

/-- The shift that the two upper bits of a short shift's immediate name. -/
def shortShift (kind : Nat) (a : Word) (n : Nat) : Word :=
  match kind with
  | 0 => a <<< n
  | 1 => a >>> n
  | _ => a.sshiftRight n

/-- A short shift: the amount stands below the number of its kind. -/
theorem shortEff_shift {ra : BitVec 4} {n : Nat} (kind : Nat) (sh : BitVec 5) (k : Core) (hn : n = 32 * kind + sh.toNat) (hkind : kind < 3) :
    shortEff k (shortSI 4 ra n) = result (ra.zeroExtend 5) (shortShift kind (k.g (ra.zeroExtend 5)) sh.toNat) := by
  have low : (shortSI 4 ra n).low.toNat = n := shortSI_low_toNat (by omega)
  have upper : n / 32 = kind := by omega
  have amount : n % 32 = sh.toNat := by omega
  have effect : shortEff k (shortSI 4 ra n) = result (ra.zeroExtend 5)
      (shortShift ((shortSI 4 ra n).low.toNat / 32) (k.g (ra.zeroExtend 5)) ((shortSI 4 ra n).low.toNat % 32)) := rfl
  rw [effect, low, upper, amount]

/-- BEQZ.S and BNEZ.S write nothing and go to their target where their condition holds. -/
theorem shortEff_beqz {ra : BitVec 4} (imm : BitVec 7) (k : Core) :
    shortEff k (shortSI 11 ra imm.toNat) = { target := if k.g (ra.zeroExtend 5) = 0 then some (wordsFrom k imm.toInt) else none } := by
  change (if k.g (ra.zeroExtend 5) = 0 then ({ target := some (wordsFrom k (shortSI 11 ra imm.toNat).low.toInt) } : Eff) else {}) = _
  rw [shortSI_low_toInt]
  split <;> rfl

theorem shortEff_bnez {ra : BitVec 4} (imm : BitVec 7) (k : Core) :
    shortEff k (shortSI 12 ra imm.toNat) = { target := if k.g (ra.zeroExtend 5) ≠ 0 then some (wordsFrom k imm.toInt) else none } := by
  change (if k.g (ra.zeroExtend 5) ≠ 0 then ({ target := some (wordsFrom k (shortSI 12 ra imm.toNat).low.toInt) } : Eff) else {}) = _
  rw [shortSI_low_toInt]
  split <;> rfl

/-- A branch in slot 1 decides where the pair goes; the operation in slot 0 leaves its result. -/
theorem retires_pair_branch {i : Instr} {c : Nat} {own o : ShortOp} {imm : BitVec 7} {s : State} (taken : Prop) [Decidable taken] (issues : Issues c s)
    (hexec : exec i s = execPair c .s1 own o s) (pair : Pairs .s1 own o) (access : shortMem own = false)
    (heff : shortEff (s.core c) own = { target := if taken then some (wordsFrom (s.core c) imm.toInt) else none }) :
    ∃ t, exec i s = .next t ∧ Retires c (((s.core c).setAll (shortEff (s.core c) o).writes).after
      (if decide taken = true then (s.core c).pc + BitVec.ofInt 32 (4 * imm.toInt) else (s.core c).pc + 4)) s t := by
  have retires := retires_pair issues hexec pair access
  by_cases h : taken
  · simpa [pairTarget, heff, h, Core.paired, Core.setAll_nil, wordsFrom] using retires
  · simpa [pairTarget, heff, h, Core.paired, Core.setAll_nil] using retires

/-- A branch in slot 0 makes the pair illegal. -/
theorem takes_illegalPair {i : Instr} {c : Nat} {own o : ShortOp} {s : State} (issues : Issues c s) (hexec : exec i s = execPair c .s0 own o s)
    (branch : shortBranch own = true) (whole : shortReserved own = false) (other : shortReserved o = false) :
    ∃ t, exec i s = .next t ∧ Takes c 2 0 (BitVec.ofNat 32 (encPair own o)) s t := by
  have illegal : illegalPair own o = true := by
    cases legal : illegalPair own o
    case false => rw [shortBranch_of_legal legal] at branch; exact absurd branch (by decide)
    case true => rfl
  refine (performs_execPair issues hexec).takes ?_
  simp [slotted, pairEff, whole, other, illegal]

/-- Settles O23: each immediate form by its own effect, each branch by its place in the pair. -/
theorem shortImmediatesAndBranches : Obligations.ShortImmediatesAndBranches := by
  intro c ra imm sh
  refine ⟨
    pairGives_of (fun _ _ _ => rfl) rfl (shortEff_addi imm),
    pairGives_of (fun _ _ _ => rfl) rfl (shortEff_li imm),
    pairGives_of (fun sl o s => ?_) rfl fun k => shortEff_shift 0 sh k (by omega) (by decide),
    pairGives_of (fun _ _ _ => rfl) rfl fun k => shortEff_shift 1 sh k (by omega) (by decide),
    pairGives_of (fun _ _ _ => rfl) rfl fun k => shortEff_shift 2 sh k (by omega) (by decide),
    fun o s issues => ⟨fun pair => ?_, fun pair => ?_, fun other => ⟨?_, ?_⟩⟩⟩
  · change execPair c sl (shortSI 4 ra (0 + sh.toNat)) o s = _
    rw [Nat.zero_add]
  · exact retires_pair_branch _ issues rfl pair rfl (shortEff_beqz imm _)
  · exact retires_pair_branch _ issues rfl pair rfl (shortEff_bnez imm _)
  · exact takes_illegalPair issues rfl rfl rfl other
  · exact takes_illegalPair issues rfl rfl rfl other

end Sys2Proof.Machine
end

section
/-! Writes of keep words that leave the value unchanged (R517). -/

namespace Sys2Proof.Machine

open Sys2Proof

/-- PF1 is in no writer class (R521). -/
theorem keepMayWrite_pf1 (w : Nat) (i : KeepInfo) : keepMayWrite .pf1 w i = false := by
  obtain ⟨cls, dflt, mask, lock⟩ := i
  cases cls <;> rfl

/-- The value that a word holds is turned away by no direction (R520) and no freeze (R519). -/
theorem keepRefusal_of_same {a : Agent} {w v : Nat} {i : KeepInfo} {s : State} (word : keepInfo w = some i) (may : keepMayWrite a w i = true)
    (unlocked : keepLocked s a i = false) (whole : keepReserved w (s.kw w) (Nat.land v i.mask) = false) (same : Nat.land v i.mask = s.kw w) :
    keepRefusal s a w v = none := by
  rw [same] at whole
  simp only [keepRefusal, word, may, unlocked, same, whole, Bool.true_eq_false, Bool.false_eq_true, if_false, if_true]

/-- The value that a word holds is neither queued for the Kiln nor counted. -/
theorem keepAccept_same (w : Nat) (s : State) : keepAccept w (s.kw w) s = s := if_pos rfl

/-- Where a writer is refused nothing and its word holds the value, PF0's status is all that can change (R524). -/
theorem keepWrite_of_same {a : Agent} {w v : Nat} {i : KeepInfo} {s : State} (word : keepInfo w = some i) (may : keepMayWrite a w i = true)
    (accepted : keepRefusal s a w v = none) (same : Nat.land v i.mask = s.kw w) :
    keepWrite a w v s = if a = .pf0 then keepWinResult 0 w none s else s := by
  cases a with
  | pf1 => rw [keepMayWrite_pf1] at may; contradiction
  | _ => simp only [keepWrite, accepted, word, same, keepAccept_same, reduceCtorEq, if_true, if_false]

theorem ftSource_of_keep {s t : State} (h : t.keep = s.keep) : t.ftSource = s.ftSource := by
  simp [State.ftSource, State.kw, State.keepWord, h]

theorem ftSourceChanged_same (s : State) : ftSourceChanged s.ftSource s = s := if_pos rfl

/-- A write that changes no keep word does not change the source of fabric time. -/
theorem keepStore_of_keep {a : Agent} {w v : Nat} {s : State} (h : (keepWrite a w v s).keep = s.keep) : keepStore a w v s = keepWrite a w v s := by
  rw [keepStore, ← ftSource_of_keep h, ftSourceChanged_same, ite_self]

/-- The write of an agent that may write the word and is not locked out is performed. -/
theorem exec_keepWrite_of {a : Agent} {w : Nat} {v : Word} {i : KeepInfo} {s : State} (up : MainUp s) (pf0 : a = .pf0 → pfServes s .pf0 = true)
    (spdm : a = .spdm → spdmOpen s = true) (may : keepMayWrite a w i = true) : exec (.keepWrite a w v) s = .next (keepStore a w v.toNat s) := by
  change execKeepWrite a w v s = _
  rw [execKeepWrite, whenMain_of up]
  cases a with
  | pf0 => rw [if_pos (pf0 rfl)]
  | pf1 => rw [keepMayWrite_pf1] at may; contradiction
  | spdm => rw [if_pos (spdm rfl)]
  | _ => rfl

theorem Changes.refl (s : State) : Changes [] [] s s := Touch.changes (Touch.refl 0 s) (by decide)

/-- SUCCESS in a function's KEEP_WIN_STATUS changes that register alone. -/
theorem changes_keepWinResult_none (f w : Nat) (s : State) : Changes [] [.keepWinStatus] s (keepWinResult f w none s) :=
  Touch.changes (setFld_touch ..) (by decide)

theorem fld_keepWinResult_none (f w : Nat) (s : State) : (keepWinResult f w none s).fld .keepWinStatus 31 16 f = 0 :=
  State.fld_setFld_same s .keepWinStatus 31 16 0 f (by decide)

/-- Settles O29: the write is performed, no check refuses it, and the word holds its value already. -/
theorem keepSameValue : Obligations.KeepSameValue := by
  intro a w v i s up pf0 spdm word may unlocked whole same
  have written := keepWrite_of_same word may (keepRefusal_of_same word may unlocked whole same) same
  have kept : (keepWrite a w v.toNat s).keep = s.keep := by
    rw [written]
    split <;> rfl
  refine ⟨keepWrite a w v.toNat s, ?_, kept, ?_⟩
  · rw [exec_keepWrite_of up pf0 spdm may, keepStore_of_keep kept]
  · rw [written]
    by_cases h : a = .pf0
    · simp only [if_pos h]
      exact ⟨fun _ => fld_keepWinResult_none 0 w s, changes_keepWinResult_none 0 w s⟩
    · simp only [if_neg h]
      exact ⟨fun e => absurd e h, Changes.refl s⟩

end Sys2Proof.Machine
end

section
/-! The queue, the memory's form and what was sent, over every step; and the outcome of every command. -/

namespace Sys2Proof.Machine

open Sys2Proof

/-! What a step does with the queue, the memory and what was sent. -/

/-- Settles O1: the step takes the command from the front and runs it. -/
theorem stepRunsFront : Obligations.StepRunsFront := fun _ _ _ => rfl

/-- Settles O2: no command and no tick touches the queue that the step has taken its front from. -/
theorem queueFirstInFirstOut : Obligations.QueueFirstInFirstOut := fun _ _ h => (step_touch h).pending

/-- Settles O3: every change of memory is a store, a clearing or a copy, and each keeps the canonical form. -/
theorem memoryStaysCanonical : Obligations.MemoryStaysCanonical := fun _ _ h canonical => (step_touch h).canonical canonical

/-- Settles O5: what is sent is put in front of what was sent, and free values are drawn upward. -/
theorem sentStaysSent : Obligations.SentStaysSent := fun _ _ h => ⟨(step_touch h).sent, (step_touch h).drawn⟩

/-- Memory that nothing has written reads as blank bytes. -/
theorem Memory.readN_nil (a n : Nat) : Memory.readN [] a n = List.replicate n Memory.blank := by
  induction n generalizing a with
  | zero => rfl
  | succ n ih => rw [Memory.readN, ih, List.replicate_succ]; rfl

/-- Settles O4: State.reset lists no byte. -/
theorem resetMemoryCanonical : Obligations.ResetMemoryCanonical := ⟨rfl, rfl, fun _ _ n => Memory.readN_nil _ n⟩

/-! The outcome of a command. -/

/-- The outcome of a command whose units exist (`wf`) is a next state, and the fault noSuchUnit where they do not. -/
abbrev Answers (wf : Bool) (o : Out) : Prop := if wf = true then ∃ t, o = .next t else o = .fault .noSuchUnit

/-- A command that checks for its unit first. -/
theorem answers_unless {p q : Prop} [Decidable p] [Decidable q] {o : Out} (unit : q ↔ ¬ p) (next : ∃ t, o = .next t) :
    Answers (decide q) (if p then .fault .noSuchUnit else o) := by
  by_cases h : p
  · simp [Answers, unit, h]
  · simpa [Answers, unit, h] using next

/-- A command that checks for a unit named by two numbers. -/
theorem answers_of_pair {p q q' : Prop} [Decidable p] [Decidable q] [Decidable q'] {o : Out} (unit : (q ∧ q') ↔ ¬ p) (next : ∃ t, o = .next t) :
    Answers (decide q && decide q') (if p then .fault .noSuchUnit else o) :=
  Bool.decide_and q q' ▸ answers_unless unit next

/-- A command that checks that its register exists. -/
theorem answers_of_exists {r : Reg} {o : Out} (next : ∃ t, o = .next t) :
    Answers (regExists r) (if regExists r = false then .fault .noSuchUnit else o) := by
  cases h : regExists r
  · rfl
  · exact next

/-- A command of a core. -/
theorem whenCore_answers (c : Nat) (s : State) (f : State → State) : Answers (wfCore c) (whenCore c s f) := by
  refine answers_unless (by omega) ?_
  split <;> exact ⟨_, rfl⟩

theorem execIslandSelftestComplete_answers (r : SelfTest) (s : State) : Answers (wfSelfTest r) (execIslandSelftestComplete r s) := by
  cases r with
  | wideEngineFails e => exact answers_unless (by omega) ⟨_, rfl⟩
  | allPass | ownUnitFails | pufFails => exact ⟨_, rfl⟩

theorem whenDoor_next (a : Agent) (s : State) (f : State → State) : ∃ t, whenDoor a s f = .next t := by
  cases a <;> exact ⟨_, rfl⟩

theorem whenQueue_next (ctrl : Nat) (s : State) (f : State → State) : ∃ t, whenQueue ctrl s f = .next t := by
  unfold whenQueue
  split <;> exact ⟨_, rfl⟩

theorem zeroizeBy_next (a : Agent) (op : Nat) (retire force : Bool) (s : State) : ∃ t, zeroizeBy a op retire force s = .next t := by
  cases a <;> exact ⟨_, rfl⟩

theorem execMbxDoorbell_next (c : Caller) (v : Word) (op sq ln : BitVec 16) (fl : Byte) (s : State) :
    ∃ t, execMbxDoorbell c v op sq ln fl s = .next t := by
  cases c <;> exact ⟨_, rfl⟩

theorem execMbxEvtPop_next (c : Caller) (s : State) : ∃ t, execMbxEvtPop c s = .next t := by
  cases c <;> exact ⟨_, rfl⟩

/-- Settles O6: each command is one of those that check for their unit first, or answers a next state by the guard it begins with. -/
theorem everyCommandCompletes : Obligations.EveryCommandCompletes := by
  intro i s
  cases i with
  | registerWrite | reg64LowWordRead => exact answers_of_exists (whenMain_next ..)
  | tcmpCtlWrite | comparatorFire => exact answers_of_pair (by omega) ⟨_, rfl⟩
  | tnsReachWrite | tnsDmaSubmit | coreFaultDetected | coreRemapRestart | coreRemapAtKernelEnd | tnsMeSubmit | tnsMePop | meTileOp | laneFma | laneAxpby
  | laneScaleAdd | laneMul | laneMin | laneMax | laneAbs | laneConvert | laneSqrt | laneRsqrt | laneRecip | laneExp | laneLog | laneSum | laneSumsq |
  laneRmax | laneArgmax | optAdamw | optSgdm | optLion | meCompletionPosted | meDescriptorTimeout | srSeedLoad | kernelEndStore | tidyTraceStore => exact answers_unless (by omega) ⟨_, rfl⟩
  | dmaCopy | dmaFill | dmaCopyConvert | dmaTransferComplete => exact answers_of_pair (by omega) ⟨_, rfl⟩
  | spareSelfTest | eicComplete | eicSwi => exact answers_unless (by omega) ⟨_, rfl⟩
  | addi | andi | ori | xori | slti | sltiu | slli | srli | srai | lui | auipc | lb | lbu | lh | lhu | lw | sb | sh | sw | memxPostincReg |
  memxPostincImm | memxModulo | memxBitrev | beq | bne | blt | bge | bltu | bgeu | j | call | jr | callr | ret | eret | lrW | scW | tasB | fence |
  fenceI | ecall | ebreak | waite | waiteWake | rspush | rspop | csrrw | csrrs | csrrc | add | sub | and | or | xor | sll | srl | sra | slt | sltu | min
  | max | minu | maxu | mul | mulh | mulhu | mulhsu | div | divu | rem | remu | clz | ctz | popc | brev | bswap | movS | addS | subS | andS | orS | xorS
  | sllS | srlS | sraS | mulS | sltS | sltuS | negS | notS | minS | maxS | addiS | liS | slliS | srliS | sraiS | lwS | swS | lwpS | swpS | lbS | lbuS |
  lhS | lhuS | sbS | shS | lwmS | swmS | beqzS | bnezS | reservationTimeout | interruptTake => exact whenCore_answers ..
  | siltLineUncorrectable | siltLineRepaired => exact answers_of_pair (by omega) ⟨_, rfl⟩
  | eicModerationExpiry | crossTrigger => exact answers_of_pair (by omega) ⟨_, rfl⟩
  | watchdogFire | serviceRestartComplete | ethPortDown | frameReceive | txScheduleStart | txFrameComplete | ethPortUp | cipherShadowMismatch |
  sivTrigNow | accPwrEnTimer | perstOutRelease => exact answers_unless (by omega) ⟨_, rfl⟩
  | islandSelftestComplete => exact execIslandSelftestComplete_answers ..
  | steepDoorbell | pageDoorbell | pauseDoorbell => exact whenDoor_next ..
  | nvmeSqTailDoorbell | nvmeCqHeadDoorbell => exact whenQueue_next ..
  | zeroize | lifecycleRetire => exact zeroizeBy_next ..
  | mbxDoorbell => exact execMbxDoorbell_next ..
  | mbxEvtPop => exact execMbxEvtPop_next ..
  | misalignedRegisterAccess | keepWrite | keepPersist | powerAverageInterval | perstNAssert | perstNDeassert | hostHotReset | hostLinkDown |
  secondaryBusReset | functionLevelReset | flrComplete | busMasterEnableClear | busMasterEnableSet | powerStateChange | configRequest |
  completionTimeout | readCompletionReceived | lateCompletion | tagQuarantineExpiry | poisonedTlpReceived | apertureRequest | ownedDeviceHostRequest |
  rootPortLinkDown | devicePresent | linkLaneFault | ftSourceWrite | ptpSyncMessage | ppsInEdge | ftSyncLoss | ftSlewComplete | ppsOutSecond |
  ftSetSeconds | ftSetSecondsTimeout | steepDoorbellForward | steepBoundary | steepCountSet | comparatorAlloc | comparatorFree | recoveryStopTime |
  recoveryStopKernelAbort | debugFreezeStart | debugFreezeEnd | eccScrubRead | routeHopTimeout | partitionCreate | partitionDestroy |
  workRingTailDoorbell | workRingHeadDoorbell | dispatchDescriptor | workKernel | workDma | workConvert | workReside | workRelease | workSample |
  workVerify | workMarker | workCompletionWrite | kernelComplete | kernelDeadline | domainCreate | domainDestroy | regionAdd | regionRemove | layerAdd |
  layerRemove | deepTargetSet | evictMailbox | broadcast | domainArm | domainDisarm | domainLrWrite | domainGscaleWrite | protectedWrite |
  pageCopyComplete | pauseCopyComplete | snapshotDeclare | boundaryPass | snapshotAbandon | intakeDoorbell | layerGradientCombine |
  collectiveChunkReceive | collTimeout | layerUpdate | pushHighPlane | pushFailed | copierSendGrain | grain | grainAckBatch | grainAck | grainNak |
  sealMsg | held | abandon | decideMsg | decideAck | decideResend | commitDeadline | commit | abortMsg | repairReq | buddyCrcScrub | deepWriteDone |
  deepDone | deepTimeout | deepCancel | relayFallback | heartbeat | spareHeartbeatRelay | silenceSuspect | silenceSilent | fenceTimeout | suspect |
  silent | evict | prepare | prepareExpiry | stop | stopped | rollback | restoreReq | restoreGrain | restoreMissing | ready | resume | resumeTime |
  recoveryFail | coordinatorLostTimeout | spareWaitTimeout | recoveryLimitTimeout | ddrUncorrectable | rosterGetReply | rosterChunkTimeout |
  rosterRetryTimer | rosterRefetch | bringupPhaseDeadline | checkin | rosterFinalDeadline | rosterFinalMissing | rosterFinal | hello | helloAck |
  helloTimeout | noAnswer | barrier | barrierChildDeadline | bringupTimeout | jobReady | jobReadyTime | bringupFail | bringupRestart | hostWindowMap |
  hostWindowUnmap | apertureSet | ownedReset | ownedEnumerate | rpCtoSet | sliceCreate | sliceDestroy | sliceDestroyComplete | sliceReset | slcReset |
  sliceResetComplete | irqEntrySet | vrmtInit | ownAddressSet | sliceQueueSet | vrmtCommandDoorbell | cqCreate | cqDestroy | connCreate | connConnect |
  connDestroy | keyRegister | keyRevoke | keyDrainLimit | keyDead | vrmtConnDoorbell | vrmtCqDoorbell | wrWrite | wrWriteImm | wrSend | wrSendImm |
  wrRead | vrmtWritePacket | vrmtSendPacket | vrmtReadReq | vrmtReadResp | vrmtAck | vrmtNak | vrmtMsgAbort | ackDelayTimer | retransmitTimeout |
  pathRestore | messageIncompleteNak | connPeerTimeout | rnrRetry | ccCutTimer | ccIncreaseTimer | contextFetchComplete | secondPour | slowPathFrame |
  ruleWrite | ruleInvalidate | ruleRead | pktQueueCreate | pktQueueDestroy | portRestart | pktRxqDoorbell | pktTxqDoorbell | shaperRefill | nvmeCcEnable
  | nvmeCcDisable | nvmeCcShutdown | nvmeCreateIoSq | nvmeDeleteIoSq | nvmeCreateIoCq | nvmeDeleteIoCq | nvmeGetLogPage | nvmeIdentify | nvmeAbort |
  nvmeSetFeatures | nvmeGetFeatures | nvmeAsyncEventRequest | nvmeRead | nvmeWrite | nvmeWriteZeroes | nvmeDatasetManagement | nvmeFlush |
  journalEntrySealed | destageComplete | backingTimeout | backingRecovered | journalReplay | nsCreate | nsDestroy | nsAttach | nsDetach | targetRegister
  | nsExport | accelCtrlCreate | firmwareVerify | keyAlloc | keyGenerate | keyAgree | keyImport | keyExport | keyZeroize | keyQuery | keyFree |
  spdmGetVersion | spdmGetCapabilities | spdmNegotiateAlgorithms | spdmGetDigests | spdmGetCertificate | spdmChallenge | spdmGetMeasurements |
  spdmKeyExchange | spdmFinish | spdmHeartbeat | spdmKeyUpdate | spdmEndSession | spdmSetCertificate | spdmVendorDefinedRequest | drbgReseed |
  entropyHealthFail | pairKeyExchange | contextRestore | mailboxHeldRequest | negotiate | fwStatus | fwStageOpen | fwStageWrite | fwStageClose |
  fwActivate | fwDisarm | fwDiscard | logRead | serviceRestart | shutdown | deviceRestart | watcherSource | aoTimerReached | i3cTransfer |
  irqModerationInterval | strataRecordWrite | strataLossRecord | timeMark | debugUdpRequest | auxPgRise | auxPgFall | mainPgRise | mainPgFall |
  railFault | thermalSample | throttleStep | overtempTimeout | brakeNAssert | brakeNDeassert | brakeLong | clockLost | clockStable | hostLinkUp |
  bootPhaseComplete | embeddedSwitchForward | hwFatal | ptpAnnounce | ptpDelayMessage | tapTckEdge | connectionNumberFree | entropyStartupTestDone |
  backingReadComplete => exact ⟨_, rfl⟩

end Sys2Proof.Machine
end

section
/-! Register writes by the fields' access codes (R3, R4) and register reads with their latch (R6). -/

namespace Sys2Proof.Machine

open Sys2Proof

/-! Access codes. -/

theorem natBit_eq_testBit (v i : Nat) : natBit v i = v.testBit i := by
  rw [natBit, Nat.testBit_eq_decide_div_mod_eq]
  rfl

/-- No two fields share a bit, and every field's bounds are in order. -/
def FieldsApart (l : List Fld) : Prop := l.Pairwise (fun f g => f.hi < g.lo ∨ g.hi < f.lo) ∧ ∀ f ∈ l, f.lo ≤ f.hi + 1

theorem FieldsApart.tail {f : Fld} {l : List Fld} (h : FieldsApart (f :: l)) : FieldsApart l :=
  ⟨h.1.of_cons, fun g hg => h.2 g (List.mem_cons_of_mem f hg)⟩

theorem fieldsApart_info (n : RegName) : FieldsApart n.info.fields := by
  unfold FieldsApart
  cases n <;> decide

/-- What a write of `v` leaves in a field that held `old`, by the field's access code (R3). -/
def fieldPut (f : Fld) (old v : Nat) : Nat :=
  match f.acc with
  | .ro => natBits old f.hi f.lo
  | .rw => natBits v f.hi f.lo
  | .w1c => natBits old f.hi f.lo - Nat.land (natBits old f.hi f.lo) (natBits v f.hi f.lo)

theorem applyFields_cons (old v : Nat) (f : Fld) (l : List Fld) :
    applyFields old v (f :: l) = applyFields (natSetBits old f.hi f.lo (fieldPut f old v)) v l := by
  simp only [applyFields, fieldPut]
  cases f.acc <;> rfl

theorem fieldPut_lt (f : Fld) (old v : Nat) : fieldPut f old v < 2 ^ (f.hi + 1 - f.lo) := by
  have held := natBits_lt old f.hi f.lo
  have written := natBits_lt v f.hi f.lo
  cases h : f.acc <;> simp only [fieldPut, h] <;> omega

/-- A bit that no field covers. -/
theorem applyFields_testBit_uncovered (v i : Nat) {l : List Fld} (apart : FieldsApart l) (h : ∀ f ∈ l, i < f.lo ∨ f.hi < i) (old : Nat) :
    (applyFields old v l).testBit i = old.testBit i := by
  induction l generalizing old with
  | nil => rfl
  | cons f l ih =>
    have outside : ¬ (f.lo ≤ i ∧ i ≤ f.hi) := by have := h f List.mem_cons_self; omega
    rw [applyFields_cons, ih apart.tail (fun g hg => h g (List.mem_cons_of_mem f hg)),
      natSetBits_testBit _ _ _ _ _ (apart.2 f List.mem_cons_self), if_neg outside]

/-- A field apart from all those that are written. -/
theorem natBits_applyFields_apart (v : Nat) {f : Fld} {l : List Fld} (apart : FieldsApart (f :: l)) (old : Nat) :
    natBits (applyFields old v l) f.hi f.lo = natBits old f.hi f.lo := by
  have rel : ∀ g ∈ l, f.hi < g.lo ∨ g.hi < f.lo := fun g hg => List.rel_of_pairwise_cons apart.1 hg
  apply Nat.eq_of_testBit_eq
  intro i
  rw [natBits_testBit, natBits_testBit]
  by_cases hi : i < f.hi + 1 - f.lo
  · have uncovered : ∀ g ∈ l, i + f.lo < g.lo ∨ g.hi < i + f.lo := fun g hg => by have := rel g hg; omega
    rw [applyFields_testBit_uncovered v _ apart.tail uncovered]
  · simp [hi]

/-- A field that is apart from another is put as if the other had not been written. -/
theorem fieldPut_natSetBits {f g : Fld} (h : f.hi < g.lo ∨ g.hi < f.lo) (order : f.lo ≤ f.hi + 1) (old x v : Nat) :
    fieldPut g (natSetBits old f.hi f.lo x) v = fieldPut g old v := by
  simp only [fieldPut, natBits_natSetBits_of_disjoint old f.hi f.lo x g.hi g.lo order h]

theorem natBits_applyFields (v : Nat) {f : Fld} {l : List Fld} (apart : FieldsApart l) (hf : f ∈ l) (old : Nat) :
    natBits (applyFields old v l) f.hi f.lo = fieldPut f old v := by
  induction l generalizing old with
  | nil => cases hf
  | cons g l ih =>
    rw [applyFields_cons]
    rcases List.mem_cons.mp hf with rfl | hf
    · rw [natBits_applyFields_apart v apart, natBits_natSetBits_same, Nat.mod_eq_of_lt (fieldPut_lt f old v)]
    · rw [ih apart.tail hf, fieldPut_natSetBits (List.rel_of_pairwise_cons apart.1 hf) (apart.2 g List.mem_cons_self)]

/-- Settles O27: the fields of every register are apart, so each is written by its own access code alone. -/
theorem accessCodes : Obligations.AccessCodes := by
  intro n old v
  refine ⟨fun f hf => natBits_applyFields v (fieldsApart_info n) hf old, fun i h => ?_⟩
  rw [natBit_eq_testBit, natBit_eq_testBit, applyFields_testBit_uncovered v i (fieldsApart_info n) h]

/-! Writes. -/

/-- The registers whose write has an effect of its own. -/
abbrev effectRegs : List RegName :=
  [.tcmpCtl, .tcmpTarget, .tcmpArg, .tnsReach, .tnsSrSeed, .cadDomainCtl, .cadDomainLr, .cadDomainGscale, .cadCkptCtl, .cadCkptPeriod,
    .cadCkptDeadline, .cadDeepCtl, .cadRecoveryCtl, .mbxEvtStatus, .nvmeCc, .msixEntry, .sivCtl]

theorem regWrite_plain {r : Reg} (plain : r.name ∉ effectRegs) (a : Agent) (high : Bool) (v : Word) (s : State) :
    regWrite a r high v.toNat s = if regReserved r.name v.toNat then s else regPut r high v.toNat s := by
  have whole : v.toNat % 2 ^ 32 = v.toNat := Nat.mod_eq_of_lt v.isLt
  unfold regWrite
  simp only [whole]
  split
  · rfl
  · split
    case h_18 => rfl
    all_goals rename_i e; rw [e] at plain; exact absurd plain (by decide)

theorem exec_registerWrite_of {a : Agent} {r : Reg} {s : State} (exists_ : regExists r = true) (up : MainUp s)
    (may : a = .firmware ∨ a = .pf0 ∧ regPlace r = .bar0 ∧ pfServes s .pf0 = true) (plain : r.name ∉ effectRegs) (high : Bool) (v : Word) :
    exec (.registerWrite a r high v) s = .next (if regReserved r.name v.toNat then s else regPut r high v.toNat s) := by
  change execRegisterWrite a r high v s = _
  rw [execRegisterWrite, if_neg (by rw [exists_]; decide), whenMain_of up, ← regWrite_plain plain a]
  rcases may with rfl | ⟨rfl, place, serves⟩
  · rfl
  · simp [regGate, place, serves]

theorem regPut_of_width_32 {r : Reg} (w : r.name.info.width = 32) (v : Word) (s : State) :
    regPut r false v.toNat s = s.setReg r.name (applyFields (s.reg r.name r.idx) v.toNat r.name.info.fields) r.idx := by
  simp [regPut, w, Nat.mod_eq_of_lt v.isLt]

/-- Each word of a 64-bit register is written with the other word as it stands. -/
theorem regPut_of_width_64 {r : Reg} (w : r.name.info.width = 64) (high : Bool) (v : Word) (s : State) :
    regPut r high v.toNat s = s.setReg r.name (applyFields (s.reg r.name r.idx)
      (if high then s.reg r.name r.idx % 2 ^ 32 + v.toNat * 2 ^ 32 else s.reg r.name r.idx / 2 ^ 32 * 2 ^ 32 + v.toNat) r.name.info.fields) r.idx := by
  have low : s.reg r.name r.idx - s.reg r.name r.idx % 2 ^ 32 = s.reg r.name r.idx / 2 ^ 32 * 2 ^ 32 := by omega
  rw [regPut, if_neg (by omega), Nat.mod_eq_of_lt v.isLt, low]

/-- Settles O26: such a write reaches the register's fields by their access codes, or nothing where it carries a reserved encoding. -/
theorem registerWrites : Obligations.RegisterWrites := by
  intro a r s exists_ up may plain v
  have written := exec_registerWrite_of exists_ up may plain
  refine ⟨fun reserved high => by rw [written, if_pos reserved], fun whole => ?_⟩
  have unreserved : ¬ regReserved r.name v.toNat = true := by rw [whole]; decide
  simp only [written, if_neg unreserved]
  refine ⟨fun w => by rw [regPut_of_width_32 w], fun w => ⟨_, _, rfl, rfl, ?_⟩⟩
  exact ⟨by rw [regPut_of_width_64 w, if_neg (by decide)], by rw [regPut_of_width_64 w, if_pos rfl]⟩

/-! Reads. -/

theorem exec_reg64LowWordRead_of {r : Reg} {s : State} (exists_ : regExists r = true) (up : MainUp s) (a : Agent) :
    exec (.reg64LowWordRead a r) s =
      .next (if r.name.info.width = 32 then s else { (regRead a r false s).2 with readVal := (regRead a r false s).1 }) := by
  change execReg64LowWordRead a r s = _
  rw [execReg64LowWordRead, if_neg (by rw [exists_]; decide), whenMain_of up]

/-- The low word latches the high one (R6). -/
theorem regRead_low {r : Reg} (w : r.name.info.width = 64) (a : Agent) (s : State) :
    regRead a r false s = (regValue s r % 2 ^ 32, { s with latch := s.latch.set a (r, regValue s r / 2 ^ 32) }) := by
  simp [regRead, w]

/-- A latched high word is returned and used up. -/
theorem regRead_high_latched {r : Reg} {a : Agent} {x : Nat} {s : State} (w : r.name.info.width = 64) (h : s.latch.find a = some (r, x)) :
    regRead a r true s = (x, { s with latch := s.latch.del a }) := by
  simp [regRead, w, h]

theorem regRead_high_live {r : Reg} {a : Agent} {s : State} (w : r.name.info.width = 64) (h : ∀ x, s.latch.find a ≠ some (r, x)) :
    regRead a r true s = (regValue s r / 2 ^ 32, s) := by
  have live : ∀ q x, s.latch.find a = some (q, x) → q ≠ r := fun q x e e' => h x (e' ▸ e)
  cases held : s.latch.find a with
  | none => simp [regRead, w, held]
  | some p => simp [regRead, w, held, live p.1 p.2 held]

theorem changes_latch_readVal (s : State) (t : Tab Agent (Reg × Nat)) (v : Nat) : Changes [.readVal, .latch] [] s { s with latch := t, readVal := v } :=
  Touch.changes (F := 6) (Touch.upd rfl (.inr rfl)) (by decide)

/-- Settles O28: a low-word read puts the high word beside the reader, and that reader's next high-word read takes it from there. -/
theorem latchedReads : Obligations.LatchedReads := by
  intro a r s exists_ up
  have read := exec_reg64LowWordRead_of exists_ up a
  refine ⟨fun w => ?_, fun w live => regRead_high_live w live, fun w => by rw [read, if_pos w]⟩
  have narrow : ¬ r.name.info.width = 32 := by omega
  rw [read, if_neg narrow, regRead_low w]
  refine ⟨_, rfl, rfl, Tab.find_set_same .., fun b hb => Tab.find_set_ne _ _ hb, changes_latch_readVal .., fun u hu => ?_⟩
  rw [regRead_high_latched w (hu.trans (Tab.find_set_same ..))]
  exact ⟨rfl, Tab.find_del_same ..⟩

end Sys2Proof.Machine
end

section
/-! Writes of keep words that change them, that are refused, and the way of a word into the Kiln (R414, R516, R519 to R521). -/

namespace Sys2Proof.Machine

open Sys2Proof

/-! Keep words by themselves. -/

theorem keepWord_of_keep {s t : State} (h : t.keep = s.keep) (w : Nat) : t.keepWord w = s.keepWord w := by
  simp only [State.keepWord, h]

theorem keepWord_set {s t : State} {w : Nat} {k : KeepWord} (h : t.keep = s.keep.set w k) (x : Nat) :
    t.keepWord x = if x = w then k else s.keepWord x := by
  simp only [State.keepWord, h, Tab.get_set]

/-- Every word of the map has a number that KEEP_WIN_FAULT holds. -/
theorem keepInfo_lt {w : Nat} {i : KeepInfo} (word : keepInfo w = some i) : w < 2 ^ 18 := by
  by_contra far
  have unmapped : keepInfo w = none := by
    unfold keepInfo
    iterate 21 rw [if_neg (by omega)]
  rw [unmapped] at word
  contradiction

theorem changes_log (code : Status) (sev : Sev) (s : State) (a32 a0 a1 inst origin : Nat) :
    Changes [.strata, .sieve, .frozen] [.sivStatus, .sivTrigLate] s (log code sev s a32 a0 a1 inst origin) :=
  Touch.changes log_touch (by decide)

/-! A change that is accepted. -/

/-- The state in which word `w` has taken value `v`. -/
def keepTaken (w v : Nat) (s : State) : State :=
  { s with keep := s.keep.set w { s.keepWord w with value := v, queued := true, changes := (s.keepWord w).changes + 1 } }

theorem changes_keepTaken (w v : Nat) (s : State) : Changes [.keep] [] s (keepTaken w v s) :=
  Touch.changes (F := 16) (Touch.upd rfl (.inr rfl)) (by decide)

theorem keepAccept_of_change {w v : Nat} {s : State} (change : v ≠ s.kw w) :
    keepAccept w v s = if (s.keepWord w).changes + 1 = keepWornAt then (log St.keepWorn .warning (keepTaken w v s) (a32 := w)).bump .keepWorn
      else if (s.keepWord w).changes + 1 = keepRated then (log St.keepFrozen .error (keepTaken w v s) (a32 := w)).bump .keepFrozenWords
      else keepTaken w v s := if_neg change

/-- Reports of wear and freeze leave every keep word alone. -/
theorem keepAccept_keep {w v : Nat} {s : State} (change : v ≠ s.kw w) : (keepAccept w v s).keep = (keepTaken w v s).keep := by
  rw [keepAccept_of_change change]
  split
  · exact (changes_log ..).part .keep (by decide)
  · split
    · exact (changes_log ..).part .keep (by decide)
    · rfl

theorem keepAccept_keepWord {w v : Nat} {s : State} (change : v ≠ s.kw w) (x : Nat) :
    (keepAccept w v s).keepWord x = if x = w then { s.keepWord w with value := v, queued := true, changes := (s.keepWord w).changes + 1 }
      else s.keepWord x := keepWord_set (keepAccept_keep change) x

/-- A register that no record touches reads, after a report of word `w`, as before the change. -/
theorem reg_log_keepTaken {n : RegName} (h : n ∉ [RegName.sivStatus, .sivTrigLate]) (code : Status) (sev : Sev) (w v : Nat) (s : State) :
    (log code sev (keepTaken w v s) (a32 := w)).reg n = s.reg n :=
  ((changes_log ..).reg n 0 h).trans ((changes_keepTaken w v s).reg n 0 (by simp))

/-- The change that reaches the first limit counts a worn word (R519). -/
theorem keepAccept_worn {w v : Nat} {s : State} (change : v ≠ s.kw w) (worn : (s.keepWord w).changes + 1 = keepWornAt) :
    (keepAccept w v s).reg .keepWorn = min (s.reg .keepWorn + 1) (2 ^ 32 - 1) := by
  rw [keepAccept_of_change change, if_pos worn, State.reg_bump_same, reg_log_keepTaken (by decide)]
  rfl

/-- The change that reaches the rated number counts a frozen word (R519). -/
theorem keepAccept_frozen {w v : Nat} {s : State} (change : v ≠ s.kw w) (rated : (s.keepWord w).changes + 1 = keepRated) :
    (keepAccept w v s).reg .keepFrozenWords = min (s.reg .keepFrozenWords + 1) (2 ^ 32 - 1) := by
  have unworn : ¬ (s.keepWord w).changes + 1 = keepWornAt := by rw [rated]; decide
  rw [keepAccept_of_change change, if_neg unworn, if_pos rated, State.reg_bump_same, reg_log_keepTaken (by decide)]
  rfl

/-! PF0's writes. -/

theorem keepStore_of_plain {a : Agent} {w v : Nat} {s : State} (plain : w ≠ kFtCtl) : keepStore a w v s = keepWrite a w v s := if_neg plain

theorem exec_keepWrite_pf0 {w : Nat} {v : Word} {s : State} (up : MainUp s) (serves : pfServes s .pf0 = true) (plain : w ≠ kFtCtl) :
    exec (.keepWrite .pf0 w v) s = .next (keepWrite .pf0 w v.toNat s) := by
  change execKeepWrite .pf0 w v s = _
  rw [execKeepWrite, whenMain_of up, if_pos serves, keepStore_of_plain plain]

theorem keepWrite_pf0_accepted {w v : Nat} {i : KeepInfo} {s : State} (word : keepInfo w = some i) (accepted : keepRefusal s .pf0 w v = none) :
    keepWrite .pf0 w v s = keepWinResult 0 w none (keepAccept w (Nat.land v i.mask) s) := by
  simp only [keepWrite, accepted, word]

theorem keepWrite_pf0_refused {w v : Nat} {i : KeepInfo} {e : Status} {s : State} (word : keepInfo w = some i) (refused : keepRefusal s .pf0 w v = some e) :
    keepWrite .pf0 w v s = keepWinResult 0 w (some e) (if e = St.keepProtected then s.ignored else s) := by
  simp [keepWrite, refused, word]

theorem satAdd_lt (w a b : Nat) : satAdd w a b < 2 ^ w := by
  have : 0 < 2 ^ w := by positivity
  unfold satAdd
  omega

/-- A count held in a field reads one more until the field is full. -/
theorem fld_bumpFld_same (s : State) (n : RegName) (hi lo i : Nat) (hw : hi < n.info.width) :
    (s.bumpFld n hi lo i).fld n hi lo i = satAdd (hi + 1 - lo) (s.fld n hi lo i) 1 :=
  (State.fld_setFld_same s n hi lo _ i hw).trans (Nat.mod_eq_of_lt (satAdd_lt ..))

/-- A field of another register is as before. -/
theorem fld_setReg_name (s : State) {n m : RegName} (h : m ≠ n) (v i hi lo j : Nat) : (s.setReg n v i).fld m hi lo j = s.fld m hi lo j :=
  congrArg (natBits · hi lo) (State.reg_setReg_name s n m v i j h)

/-- A failure stands in the window's registers with its status, one failure more and the word's number (R524). -/
theorem keepWinResult_some {w : Nat} (hw : w < 2 ^ 18) (e : Status) (s : State) :
    (keepWinResult 0 w (some e) s).fld .keepWinStatus 31 16 0 = e.toNat ∧
    (keepWinResult 0 w (some e) s).fld .keepWinStatus 15 0 0 = min (s.fld .keepWinStatus 15 0 0 + 1) (2 ^ 16 - 1) ∧
    (keepWinResult 0 w (some e) s).reg .keepWinFault 0 = w := by
  have put := State.fld_setFld_same s .keepWinStatus 31 16 e.toNat 0 (by decide)
  have kept := State.fld_setFld_apart (s.setFld .keepWinStatus 31 16 e.toNat 0) .keepWinStatus 15 0
    (satAdd 16 ((s.setFld .keepWinStatus 31 16 e.toNat 0).fld .keepWinStatus 15 0 0) 1) 31 16 0 (by decide) (by decide) (by decide)
  have counted := fld_bumpFld_same (s.setFld .keepWinStatus 31 16 e.toNat 0) .keepWinStatus 15 0 0 (by decide)
  rw [State.fld_setFld_apart s .keepWinStatus 31 16 e.toNat 15 0 0 (by decide) (by decide) (by decide)] at counted
  have small : w < 2 ^ 32 := by omega
  refine ⟨?_, ?_, ?_⟩
  · exact (fld_setReg_name _ (by decide) ..).trans (kept.trans (put.trans (Nat.mod_eq_of_lt e.isLt)))
  · exact (fld_setReg_name _ (by decide) ..).trans counted
  · exact (State.reg_setReg_same _ .keepWinFault w 0).trans (Nat.mod_eq_of_lt small)

theorem changes_keepWinResult_some (w : Nat) (e : Status) (s : State) : Changes [] [.keepWinStatus, .keepWinFault] s (keepWinResult 0 w (some e) s) :=
  Touch.changes keepWinResult_touch (by decide)

theorem changes_ignored (s : State) : Changes [] [.dbgIgnored] s s.ignored := Touch.changes ignored_touch (by decide)

/-- An accepted change of a word. -/
theorem exec_keepWrite_accepted {w : Nat} {v : Word} {i : KeepInfo} {s : State} (up : MainUp s) (serves : pfServes s .pf0 = true) (plain : w ≠ kFtCtl)
    (word : keepInfo w = some i) (accepted : keepRefusal s .pf0 w v.toNat = none) (change : Nat.land v.toNat i.mask ≠ s.kw w) :
    ∃ t, exec (.keepWrite .pf0 w v) s = .next t ∧
      t.keepWord w = { s.keepWord w with value := Nat.land v.toNat i.mask, queued := true, changes := (s.keepWord w).changes + 1 } ∧
      (∀ x, x ≠ w → t.keepWord x = s.keepWord x) ∧ t.fld .keepWinStatus 31 16 0 = 0 ∧
      ((s.keepWord w).changes + 1 ≠ keepWornAt → (s.keepWord w).changes + 1 ≠ keepRated → Changes [.keep] [.keepWinStatus] s t) ∧
      ((s.keepWord w).changes + 1 = keepWornAt → t.reg .keepWorn = min (s.reg .keepWorn + 1) (2 ^ 32 - 1)) ∧
      ((s.keepWord w).changes + 1 = keepRated → t.reg .keepFrozenWords = min (s.reg .keepFrozenWords + 1) (2 ^ 32 - 1)) := by
  have status := changes_keepWinResult_none 0 w (keepAccept w (Nat.land v.toNat i.mask) s)
  have words (x : Nat) := (keepWord_of_keep (status.part .keep (by decide)) x).trans (keepAccept_keepWord change x)
  refine ⟨_, exec_keepWrite_pf0 up serves plain, ?_⟩
  rw [keepWrite_pf0_accepted word accepted]
  refine ⟨(words w).trans (if_pos rfl), fun x hx => (words x).trans (if_neg hx), fld_keepWinResult_none .., fun unworn unrated => ?_, fun worn => ?_,
    fun rated => ?_⟩
  · rw [keepAccept_of_change change, if_neg unworn, if_neg unrated]
    exact ((changes_keepTaken ..).mono (by simp) (by simp)).trans ((changes_keepWinResult_none ..).mono (by simp) (by simp))
  · exact (status.reg .keepWorn 0 (by decide)).trans (keepAccept_worn change worn)
  · exact (status.reg .keepFrozenWords 0 (by decide)).trans (keepAccept_frozen change rated)

/-- A change that a check refuses. -/
theorem exec_keepWrite_refused {w : Nat} {v : Word} {i : KeepInfo} {e : Status} {s : State} (up : MainUp s) (serves : pfServes s .pf0 = true)
    (plain : w ≠ kFtCtl) (word : keepInfo w = some i) (refused : keepRefusal s .pf0 w v.toNat = some e) :
    ∃ t, exec (.keepWrite .pf0 w v) s = .next t ∧ t.keep = s.keep ∧
      t.fld .keepWinStatus 31 16 0 = e.toNat ∧ t.fld .keepWinStatus 15 0 0 = min (s.fld .keepWinStatus 15 0 0 + 1) (2 ^ 16 - 1) ∧
      t.reg .keepWinFault 0 = w ∧
      Changes [] (if e = St.keepProtected then [.keepWinStatus, .keepWinFault, .dbgIgnored] else [.keepWinStatus, .keepWinFault]) s t := by
  refine ⟨_, exec_keepWrite_pf0 up serves plain, ?_⟩
  rw [keepWrite_pf0_refused word refused]
  obtain ⟨status, count, fault⟩ := keepWinResult_some (keepInfo_lt word) e (if e = St.keepProtected then s.ignored else s)
  have counted : (if e = St.keepProtected then s.ignored else s).fld .keepWinStatus 15 0 0 = s.fld .keepWinStatus 15 0 0 := by
    split
    · exact congrArg (natBits · 15 0) ((changes_ignored s).reg .keepWinStatus 0 (by decide))
    · rfl
  have frame := changes_keepWinResult_some w e (if e = St.keepProtected then s.ignored else s)
  refine ⟨?_, status, counted ▸ count, fault, ?_⟩
  · refine (frame.part .keep (by decide)).trans ?_
    split <;> rfl
  · by_cases h : e = St.keepProtected
    · simp only [if_pos h] at frame ⊢
      exact ((changes_ignored s).mono (by simp) (by simp)).trans (frame.mono (by simp) (by simp))
    · simpa only [if_neg h] using frame

/-- Of the checks of a change, the direction of a KM field comes before the freeze (log entry 4). -/
theorem keepRefusal_of_change {a : Agent} {w v : Nat} {i : KeepInfo} {s : State} (word : keepInfo w = some i) (may : keepMayWrite a w i = true)
    (unlocked : keepLocked s a i = false) (whole : keepReserved w (s.kw w) (Nat.land v i.mask) = false) (change : Nat.land v i.mask ≠ s.kw w) :
    keepRefusal s a w v = if keepMonotonic w (s.kw w) (Nat.land v i.mask) = true then some St.keepMonotonic
      else if keepRated ≤ (s.keepWord w).changes then some St.keepFrozen else none := by
  simp only [keepRefusal, word, may, unlocked, whole, change, Bool.true_eq_false, Bool.false_eq_true, if_false]

/-- A queued word reaches the Kiln (R516). -/
theorem exec_keepPersist_of (w : Nat) {s : State} (up : MainUp s) :
    ∃ t, exec (.keepPersist w) s = .next t ∧
      ((s.keepWord w).queued = true → t.keepWord w = { s.keepWord w with kiln := s.kw w, queued := false }) ∧
      ((s.keepWord w).queued = false → t = s) ∧ (∀ x, x ≠ w → t.keepWord x = s.keepWord x) ∧ Changes [.keep] [] s t := by
  refine ⟨keepPersist w s, whenMain_of up, ?_⟩
  cases queued : (s.keepWord w).queued with
  | true =>
    have written : keepPersist w s = { s with keep := s.keep.set w { s.keepWord w with kiln := s.kw w, queued := false } } := if_pos queued
    have words := keepWord_set (congrArg State.keep written)
    refine ⟨fun _ => (words w).trans (if_pos rfl), nofun, fun x hx => (words x).trans (if_neg hx), ?_⟩
    rw [written]
    exact Touch.changes (F := 16) (Touch.upd rfl (.inr rfl)) (by decide)
  | false =>
    have unchanged : keepPersist w s = s := if_neg (by rw [queued]; decide)
    rw [unchanged]
    exact ⟨nofun, fun _ => rfl, fun _ _ => rfl, (Changes.refl s).mono (by simp) (by simp)⟩

/-- Settles O30: PF0's write is taken or refused whole, and the Kiln takes a queued word. -/
theorem keepWordWrites : Obligations.KeepWordWrites := by
  refine ⟨fun w v i s up serves plain word => ⟨fun accepted change => exec_keepWrite_accepted up serves plain word accepted change,
    fun e refused => exec_keepWrite_refused up serves plain word refused⟩, fun s w v i word may unlocked whole change => ?_,
    fun w s up => exec_keepPersist_of w up⟩
  rw [keepRefusal_of_change word may unlocked whole change]
  exact ⟨fun against => if_pos against, fun along frozen => by rw [along, if_neg (by decide)]; exact if_pos frozen⟩

end Sys2Proof.Machine
end

section
/-! The mailbox: doorbells, held requests, replies, events and negotiation (R437 to R443). -/

namespace Sys2Proof.Machine

open Sys2Proof

/-! Mailboxes by themselves. -/

theorem mailbox_of_mbx {s t : State} (h : t.mbx = s.mbx) (c : Caller) : t.mailbox c = s.mailbox c := by
  simp only [State.mailbox, h]

theorem mailbox_setMailbox (s : State) (c : Caller) (m : Mailbox) (d : Caller) :
    (s.setMailbox c m).mailbox d = if d = c then m else s.mailbox d := Tab.get_set ..

/-! Replies. -/

/-- A mailbox once its request is answered with `r`. -/
def Mailbox.replied (m : Mailbox) (r : Reply) : Mailbox :=
  { m with
    reply := some { r with opcode := (m.frame.map Frame.opcode).getD 0, seq := (m.frame.map Frame.seq).getD 0 }
    done := true, busy := false, taken := false, committed := false, frame := none }

theorem mbxReply_mbx {c : Caller} {s : State} (busy : (s.mailbox c).busy = true) (r : Reply) :
    (mbxReply c r s).mbx = s.mbx.set c ((s.mailbox c).replied r) := by
  have busy' : ¬ (s.mailbox c).busy = false := by rw [busy]; decide
  have written (t : State) (p : Prop) [Decidable p] : (if p then mbxInterrupt c t else t).mbx = t.mbx := by
    split
    · exact mbxInterrupt_touch.mbx' (by decide)
    · rfl
  unfold mbxReply Mailbox.replied
  cases frame : (s.mailbox c).frame <;> simp only [if_neg busy', written, frame] <;> rfl

theorem mailbox_mbxReply {c : Caller} {s : State} (busy : (s.mailbox c).busy = true) (r : Reply) (d : Caller) :
    (mbxReply c r s).mailbox d = if d = c then (s.mailbox c).replied r else s.mailbox d :=
  (mailbox_of_mbx (s := s.setMailbox c _) (mbxReply_mbx busy r) d).trans (mailbox_setMailbox s c _ d)

theorem answered_mbxReply {c : Caller} {s : State} (busy : (s.mailbox c).busy = true) (r : Reply) :
    Answered c r.status r.results (mbxReply c r s) r.field := by
  rw [Answered, mailbox_mbxReply busy, if_pos rfl]
  exact ⟨rfl, rfl, rfl⟩

theorem changes_mbxReply (c : Caller) (r : Reply) (s : State) : Changes [.mbx, .irq, .out] [] s (mbxReply c r s) :=
  Touch.changes mbxReply_touch (by decide)

/-- A mailbox that holds a request is busy. -/
theorem Serves.busy {c : Caller} {op : Nat} {f : Frame} {s : State} (h : Serves c op f s) : (s.mailbox c).busy = true := by
  have holds := h.holds
  simp only [mbxHolds] at holds
  split at holds
  · split at holds
    · simp_all
    · contradiction
  · contradiction

/-- A request that is answered at once, after a change that leaves the mailboxes alone. -/
theorem Serves.answered {c : Caller} {op : Nat} {f : Frame} {s t : State} (h : Serves c op f s) (kept : t.mbx = s.mbx) (r : Reply) :
    Answered c r.status r.results (mbxReply c r t) r.field :=
  answered_mbxReply ((congrArg Mailbox.busy (mailbox_of_mbx kept c)).trans h.busy) r

/-! Doorbells. -/

/-- While the device is ON nobody is answered by the recovery handler. -/
theorem hardpanRefuses_on {c : Caller} {s : State} (on : On s) : hardpanRefuses c s = s := by
  unfold hardpanRefuses
  split
  · exact if_neg (by simp [on])
  · rfl

theorem mbxReady_on {s : State} (on : On s) (c : Caller) : mbxReady s c = svcRuns s svcMailbox := by simp [mbxReady, on]

theorem whenPage_on {s : State} (on : On s) (n : Nat) (f : State → State) : whenPage n s f = .next (f s) := congrArg _ (if_pos on)

theorem mbxDoorbell_on {c : Caller} {v : Word} {f : Frame} {s : State} (on : On s) : On (mbxDoorbell c v f s) :=
  (mbxDoorbell_touch.pwrState (by decide)).trans on

theorem exec_mbxDoorbell_writable {c : Caller} {v : Word} {op sq ln : BitVec 16} {fl : Byte} {s : State} (on : On s) (writable : mbxWritable s c = true) :
    exec (.mbxDoorbell c v op sq ln fl) s =
      .next (mbxDoorbell c v { opcode := op.toNat, seq := sq.toNat, length := ln.toNat, flags := fl.toNat } s) := by
  change execMbxDoorbell c v op sq ln fl s = _
  cases c <;>
    simp only [execMbxDoorbell, whenMain_of on.mainUp, whenPage_on on, writable, hardpanRefuses_on (mbxDoorbell_on on)]

theorem exec_mbxDoorbell_slice {k : Nat} {v : Word} {op sq ln : BitVec 16} {fl : Byte} {s : State} (on : On s)
    (closed : mbxWritable s (.slice k) = false) : exec (.mbxDoorbell (.slice k) v op sq ln fl) s = .next (pageIgnored k s) := by
  change execMbxDoorbell (.slice k) v op sq ln fl s = _
  simp only [execMbxDoorbell, whenPage_on on, closed]

theorem exec_mbxDoorbell_function {c : Caller} {v : Word} {op sq ln : BitVec 16} {fl : Byte} {s : State} (on : On s) (function : c = .pf0 ∨ c = .pf1)
    (closed : mbxWritable s c = false) : exec (.mbxDoorbell c v op sq ln fl) s = .next s := by
  change execMbxDoorbell c v op sq ln fl s = _
  rcases function with rfl | rfl <;> simp only [execMbxDoorbell, whenMain_of on.mainUp, closed]

theorem mbxDoorbell_free {c : Caller} {f : Frame} {s : State} (on : On s) (free : (s.mailbox c).busy = false) :
    mbxDoorbell c 1 f s = s.setMailbox c { s.mailbox c with frame := some f, busy := true, done := false, taken := svcRuns s svcMailbox } := by
  simp [mbxDoorbell, free, mbxReady_on on]

theorem mbxDoorbell_busy {c : Caller} {f : Frame} {s : State} (busy : (s.mailbox c).busy = true) :
    mbxDoorbell c 1 f s = s.setMailbox c { s.mailbox c with overrun := min ((s.mailbox c).overrun + 1) 65535 } := by
  simp [mbxDoorbell, busy, satAdd]

theorem mbxDoorbell_other {c : Caller} {v : Word} {f : Frame} {s : State} (other : v ≠ 1) : mbxDoorbell c v f s = s := if_pos other

/-! Held requests and events. -/

theorem exec_mailboxHeldRequest_of {c : Caller} {s : State} (on : On s) : exec (.mailboxHeldRequest c) s = .next (mbxTakeHeld c s) := by
  have on' : On (mbxTakeHeld c s) := (mbxTakeHeld_touch.pwrState (by decide)).trans on
  change execMailboxHeldRequest c s = _
  rw [execMailboxHeldRequest, whenMain_of on.mainUp, hardpanRefuses_on on']

theorem mbxTakeHeld_on {c : Caller} {s : State} (on : On s) :
    mbxTakeHeld c s = if (s.mailbox c).busy = true ∧ (s.mailbox c).taken = false ∧ svcRuns s svcMailbox = true then
      s.setMailbox c { s.mailbox c with taken := true } else s := by
  simp only [mbxTakeHeld, mbxReady_on on, Bool.not_eq_true']

theorem exec_mbxEvtPop_of {c : Caller} {s : State} (on : On s) (writable : mbxWritable s c = true) :
    exec (.mbxEvtPop c) s = .next (mbxEvtPop c s) := by
  change execMbxEvtPop c s = _
  cases c with
  | slice n =>
    have open_ : pageOpen s n = true := writable
    simp only [execMbxEvtPop, whenPage_on on, open_, if_true]
  | pf0 | pf1 => simp only [execMbxEvtPop, whenMain_of on.mainUp, writable, if_true]

/-! Negotiation. -/

theorem exec_negotiate_of {c : Caller} {ma mi : Byte} {ft : BitVec 256} {f : Frame} {s t : State} {r : Reply} (on : On s) (serves : Serves c 0xA001 f s)
    (h : negotiateReq c ma mi ft s = (some r, t)) : exec (.negotiate c ma mi ft) s = .next (mbxReply c r t) := by
  change execNegotiate c ma mi ft s = _
  rw [execNegotiate, whenOn_of on, mbxServe_replies serves h]

theorem negotiateReq_one (c : Caller) (mi : Byte) (ft : BitVec 256) (s : State) :
    negotiateReq c 1 mi ft s = (some { results := [1, 0, (ft &&& 0x1FFFF).toNat] },
      s.setMailbox c { s.mailbox c with negotiated := some (0, ft &&& 0x1FFFF) }) := by
  rw [negotiateReq, if_neg (by decide), Nat.min_zero]
  rfl

/-- Settles O38: each command comes to its operation on the mailbox, and a reply to `Mailbox.replied`. -/
theorem mailboxProtocol : Obligations.MailboxProtocol := by
  refine ⟨?free, ?busy, ?other, ?slice, ?function, ?take, ?wait, ?pop, ?negotiate, ?mismatch, ?reply⟩
  case free =>
    rintro c v op sq ln fl s on writable rfl free
    rw [exec_mbxDoorbell_writable on writable, mbxDoorbell_free on free]
    rfl
  case busy =>
    rintro c v op sq ln fl s on writable rfl busy
    rw [exec_mbxDoorbell_writable on writable, mbxDoorbell_busy busy]
    rfl
  case other =>
    intro c v op sq ln fl s on writable other
    rw [exec_mbxDoorbell_writable on writable, mbxDoorbell_other other]
  case slice => exact fun k v op sq ln fl s on closed => exec_mbxDoorbell_slice on closed
  case function => exact fun c v op sq ln fl s on function closed => exec_mbxDoorbell_function on function closed
  case take =>
    intro c s on busy held runs
    rw [exec_mailboxHeldRequest_of on, mbxTakeHeld_on on, if_pos ⟨busy, held, runs⟩]
    rfl
  case wait =>
    intro c s on waits
    have waits' : ¬ ((s.mailbox c).busy = true ∧ (s.mailbox c).taken = false ∧ svcRuns s svcMailbox = true) := by
      rintro ⟨busy, held, runs⟩
      rcases waits with h | h | h <;> simp_all
    rw [exec_mailboxHeldRequest_of on, mbxTakeHeld_on on, if_neg waits']
  case pop =>
    intro c s on writable
    rw [exec_mbxEvtPop_of on writable]
    rfl
  case negotiate =>
    intro c mi ft f s on serves
    rw [exec_negotiate_of on serves (negotiateReq_one c mi ft s)]
    rfl
  case mismatch =>
    intro c ma mi ft f s on serves major
    exact exec_negotiate_of on serves (if_pos major)
  case reply =>
    intro c r s busy
    have boxes := mailbox_mbxReply busy r
    refine ⟨answered_mbxReply busy r, ?_, ?_, fun f hf => ?_, fun d hd => by rw [boxes, if_neg hd], changes_mbxReply c r s⟩
    · rw [boxes, if_pos rfl]; rfl
    · rw [boxes, if_pos rfl]; rfl
    · rw [boxes, if_pos rfl, Mailbox.replied, hf]; rfl

end Sys2Proof.Machine
end

section
/-! Fabric time: its sources, its messages and its edges (R28 to R35). -/

namespace Sys2Proof.Machine

open Sys2Proof

/-! What leaves fabric time alone. -/

theorem linkPhase_ft (s : State) : (linkPhase s).ft = s.ft := linkPhase_touch.ft' (by decide)

theorem irqSource_ft (src : IrqSource) (s : State) : (irqSource src s).ft = s.ft := irqSource_touch.ft' (by decide)

theorem log_ft (code : Status) (sev : Sev) (s : State) : (log code sev s).ft = s.ft := log_touch.ft' (by decide)

theorem cmpTimePassed_ft (s : State) : (cmpTimePassed s).ft = s.ft := cmpTimePassed_touch.ft' (by decide)

theorem mbxReply_ft (c : Caller) (r : Reply) (s : State) : (mbxReply c r s).ft = s.ft := mbxReply_touch.ft' (by decide)

/-! One sync interval. -/

theorem ftHoldover_ft (s : State) : (ftHoldover s).ft = { s.ft with state := .holdover, good := 0, holdAcc := 0 } := by
  rw [ftHoldover, irqSource_ft, log_ft]
  rfl

/-- A correction that is no step forward slews (R35). -/
theorem ftCorrect_of_slew {delta : Int} (h : delta ≤ 10000) (s : State) : ftCorrect delta s = s.modFt (fun f => { f with slew := delta }) :=
  if_neg (by omega)

/-- In LOCKED an offset up to 1 us is corrected (R33). -/
theorem ftInterval_locked_near {off : Int} {s : State} (locked : s.ft.state = .locked) (some_ : off ≠ 0) (near : off.natAbs ≤ 1000) :
    (ftInterval off s).ft = { s.ft with slew := -off, errBound := 50 + off.natAbs } := by
  have small : ¬ 1000 < off.natAbs := by omega
  have slews : -off ≤ 10000 := by omega
  simp [ftInterval, locked, small, some_, ftCorrect_of_slew slews]

/-- In LOCKED an offset above 1 us holds over (R33). -/
theorem ftInterval_locked_far {off : Int} {s : State} (locked : s.ft.state = .locked) (far : 1000 < off.natAbs) : ftInterval off s = ftHoldover s := by
  simp [ftInterval, locked, far]

/-- In HOLDOVER an offset that is no good one acquires again, with a slew (R33). -/
theorem ftInterval_holdover {off : Int} {s : State} (holdover : s.ft.state = .holdover) (valid : s.ft.valid = true) (bad : 25 ≤ off.natAbs)
    (near : -10000 ≤ off) : (ftInterval off s).ft = { s.ft with state := .acquiring, good := 0, slew := -off } := by
  have slews : -off ≤ 10000 := by omega
  have some_ : off ≠ 0 := by omega
  have bad' : ¬ off.natAbs < 25 := by omega
  simp [ftInterval, holdover, valid, some_, bad', ftCorrect_of_slew slews]

/-! Sync messages. -/

theorem exec_ptpSyncMessage_unmeasured {off : Int} {s : State} (on : On s) (h : s.ft.master = none ∨ s.ft.pathDelay = none) :
    exec (.ptpSyncMessage off) s = .next s := by
  change execPtpSyncMessage off s = _
  simp only [execPtpSyncMessage, whenOn_of on, Option.isNone_iff_eq_none, if_pos h]

theorem exec_ptpSyncMessage_of {off : Int} {s : State} (on : On s) (master : s.ft.master ≠ none) (delay : s.ft.pathDelay ≠ none) :
    exec (.ptpSyncMessage off) s = .next (linkPhase (ptpSync off s)) := by
  have measured : ¬ (s.ft.master = none ∨ s.ft.pathDelay = none) := by simp [master, delay]
  change execPtpSyncMessage off s = _
  simp only [execPtpSyncMessage, whenOn_of on, Option.isNone_iff_eq_none, if_neg measured]

/-- With PTP as the source of a time that is valid, a Sync is a sync interval. -/
theorem ptpSync_of_ptp {off : Int} {s : State} (source : s.ftSource = 1) (valid : s.ft.valid = true) : ptpSync off s = ftInterval off s := by
  simp [ptpSync, source, valid]

/-- In PPS with PTP a Sync gives the time of day only. -/
theorem ptpSync_of_pps {off : Int} {s : State} (source : s.ftSource = 2) (valid : s.ft.valid = true) :
    (ptpSync off s).ft = { s.ft with todHeld := true } := by
  simp [ptpSync, source, valid]

theorem ptpSync_of_other {off : Int} {s : State} (source : s.ftSource = 0 ∨ s.ftSource = 3) : ptpSync off s = s := by
  rcases source with h | h <;> simp [ptpSync, h]

/-! The source's word. -/

theorem land_three (v : Nat) : Nat.land v 3 = v % 4 := Nat.and_two_pow_sub_one_eq_mod v 2

theorem keepInfo_ftCtl : keepInfo kFtCtl = some ⟨.h, 0, 3, .none⟩ := rfl

/-- A write of another source by firmware or PF0 is accepted while the word is not frozen. -/
theorem keepRefusal_ftCtl {a : Agent} {v : Nat} {s : State} (who : a = .firmware ∨ a = .pf0) (unfrozen : (s.keepWord kFtCtl).changes < keepRated) :
    keepRefusal s a kFtCtl v = none := by
  have room : ¬ keepRated ≤ (s.keepWord kFtCtl).changes := by omega
  have may : keepMayWrite a kFtCtl ⟨.h, 0, 3, .none⟩ = true := by rcases who with rfl | rfl <;> rfl
  have along (old new : Nat) : keepMonotonic kFtCtl old new = false := rfl
  have whole (old new : Nat) : keepReserved kFtCtl old new = false := rfl
  have unlocked : keepLocked s a ⟨.h, 0, 3, .none⟩ = false := rfl
  simp [keepRefusal, keepInfo_ftCtl, may, along, whole, unlocked, room]

/-- What such a write leaves: the new source, and fabric time as it was. -/
theorem keepWrite_ftCtl {a : Agent} {v : Nat} {s : State} (who : a = .firmware ∨ a = .pf0) (small : s.kw kFtCtl < 4)
    (unfrozen : (s.keepWord kFtCtl).changes < keepRated) (change : s.ftSource ≠ v % 4) :
    (keepWrite a kFtCtl v s).ftSource = v % 4 ∧ (keepWrite a kFtCtl v s).ft = s.ft := by
  have held : s.ftSource = s.kw kFtCtl := by simp only [State.ftSource, natBits]; omega
  have differs : Nat.land v 3 ≠ s.kw kFtCtl := by rw [land_three, ← held]; exact change.symm
  refine ⟨?_, keepWrite_touch.ft' (by decide)⟩
  have kept : (keepWrite a kFtCtl v s).keep = (keepAccept kFtCtl (Nat.land v 3) s).keep := by
    rcases who with rfl | rfl
    · simp only [keepWrite, keepRefusal_ftCtl (.inl rfl) unfrozen, keepInfo_ftCtl]
    · simp only [keepWrite, keepRefusal_ftCtl (.inr rfl) unfrozen, keepInfo_ftCtl]
      exact (changes_keepWinResult_none ..).part .keep (by decide)
  have word := (keepWord_of_keep kept kFtCtl).trans ((keepAccept_keepWord differs kFtCtl).trans (if_pos rfl))
  rw [State.ftSource, State.kw, word, land_three, natBits]
  simp

/-- The state that follows a change of the source (R33). -/
def ftStateAfter (source : Nat) (old : FtState) : FtState :=
  if source = 0 then .free else match old with
    | .free => .acquiring
    | .acquiring => .acquiring
    | .locked => .holdover
    | .holdover => .holdover

theorem ftSourceChanged_ft {old : Nat} {s : State} (change : s.ftSource ≠ old) :
    (ftSourceChanged old s).ftSource = s.ftSource ∧ (ftSourceChanged old s).ft.good = 0 ∧ (ftSourceChanged old s).ft.now = s.ft.now ∧
      (ftSourceChanged old s).ft.valid = s.ft.valid ∧ (ftSourceChanged old s).ft.state = ftStateAfter s.ftSource s.ft.state := by
  refine ⟨ftSource_of_keep (ftSourceChanged_touch.keep' (by decide)), ?_⟩
  unfold ftStateAfter
  rw [ftSourceChanged, if_neg change]
  by_cases none_ : s.ftSource = 0
  · rw [if_pos none_, if_pos none_]
    exact ⟨rfl, rfl, rfl, rfl⟩
  · rw [if_neg none_, if_neg none_]
    cases state : s.ft.state <;> simp [state, ftHoldover_ft]

/-- A change of HUB_FT_CTL.source. -/
theorem exec_ftSourceWrite_of {a : Agent} {v : Word} {s : State} (up : MainUp s) (who : a = .firmware ∨ a = .pf0) (small : s.kw kFtCtl < 4)
    (unfrozen : (s.keepWord kFtCtl).changes < keepRated) (change : s.ftSource ≠ v.toNat % 4) :
    ∃ t, exec (.ftSourceWrite a v) s = .next t ∧ t.ftSource = v.toNat % 4 ∧ t.ft.good = 0 ∧ t.ft.now = s.ft.now ∧ t.ft.valid = s.ft.valid ∧
      t.ft.state = ftStateAfter (v.toNat % 4) s.ft.state := by
  obtain ⟨source, kept⟩ := keepWrite_ftCtl who small unfrozen change
  have changed := ftSourceChanged_ft (old := s.ftSource) (s := keepWrite a kFtCtl v.toNat s) (by rw [source]; exact change.symm)
  rw [source, kept] at changed
  refine ⟨_, ?_, changed⟩
  change execFtSourceWrite a v s = _
  rw [execFtSourceWrite, whenMain_of up]

/-! The best master clock. -/

/-- The device follows the clock `m` from now on, and measures its path anew (R30). -/
def selects (m : PtpAnnounce) (s : State) : State := { s with ft := { s.ft with master := some m, port := m.port, pathDelay := none } }

theorem exec_ptpAnnounce_of {m : PtpAnnounce} {s : State} (on : On s) (port : m.port ≤ 8) (source : s.ftSource = 1 ∨ s.ftSource = 2) :
    exec (.ptpAnnounce m) s = .next (match s.ft.master with
      | none => selects m s
      | some o =>
        if o.master = m.master ∧ o.port = m.port then { s with ft := { s.ft with master := some m } }
        else if m.priority < o.priority then selects m s else s) := by
  have heard : ¬ (8 < m.port ∨ s.ftSource ≠ 1 ∧ s.ftSource ≠ 2) := by omega
  change execPtpAnnounce m s = _
  rw [execPtpAnnounce, whenOn_of on, if_neg heard]
  cases s.ft.master with
  | none => rfl
  | some o => simp only [Bool.and_eq_true, beq_iff_eq, decide_eq_true_eq]; rfl

/-- Settles O31: sources, Syncs, losses and Announces by the lemmas of each. -/
theorem fabricTimeSources : Obligations.FabricTimeSources := by
  refine ⟨fun a v s => exec_ftSourceWrite_of, fun off s => exec_ptpSyncMessage_unmeasured, ?near, ?far, ?holdover, ?pps, ?other, ?loss, ?unlocked,
    ?first, ?better, ?same, ?delay⟩
  case near =>
    intro off s on master delay source valid locked some_ near
    exact ⟨_, exec_ptpSyncMessage_of on master delay, by
      rw [linkPhase_ft, ptpSync_of_ptp source valid, ftInterval_locked_near locked some_ (by omega)]⟩
  case far =>
    intro off s on master delay source valid locked far
    exact ⟨_, exec_ptpSyncMessage_of on master delay, by
      rw [linkPhase_ft, ptpSync_of_ptp source valid, ftInterval_locked_far locked (by omega), ftHoldover_ft]⟩
  case holdover =>
    intro off s on master delay source valid holdover bad
    exact ⟨_, exec_ptpSyncMessage_of on master delay, by
      rw [linkPhase_ft, ptpSync_of_ptp source valid, ftInterval_holdover holdover valid (by omega) (by omega)]⟩
  case pps =>
    intro off s on master delay source valid
    exact ⟨_, exec_ptpSyncMessage_of on master delay, by rw [linkPhase_ft, ptpSync_of_pps source valid]⟩
  case other =>
    intro off s on master delay source
    exact ⟨_, exec_ptpSyncMessage_of on master delay, by rw [linkPhase_ft, ptpSync_of_other source]⟩
  case loss =>
    intro s on locked
    have loss : exec .ftSyncLoss s = .next (ftHoldover s) := (whenOn_of on).trans (congrArg _ (if_pos locked))
    exact ⟨_, loss, ftHoldover_ft s, Touch.changes ftHoldover_touch (by decide)⟩
  case unlocked =>
    intro s on unlocked
    exact (whenOn_of on).trans (congrArg _ (if_neg unlocked))
  case first =>
    intro m s on port source none_
    rw [exec_ptpAnnounce_of on port source, none_]
    rfl
  case better =>
    intro m o s on port source master differs
    have other : ¬ (o.master = m.master ∧ o.port = m.port) := fun h => differs.elim (· h.1) (· h.2)
    simp only [exec_ptpAnnounce_of on port source, master, if_neg other]
    rfl
  case same =>
    intro m o s on port source master same same'
    simp only [exec_ptpAnnounce_of on port source, master, if_pos (And.intro same same')]
  case delay =>
    intro d s on
    change execPtpDelayMessage d s = _
    simp only [execPtpDelayMessage, whenOn_of on, Option.isNone_iff_eq_none]
    rfl

/-! Edges of PPS_IN. -/

theorem exec_ppsInEdge_of {s : State} (on : On s) : exec .ppsInEdge s = .next (linkPhase (ppsEdge (watcherActive (watcherSrc 2) s))) := by
  have on' : On (watcherActive (watcherSrc 2) s) := (watcherActive_touch.pwrState (by decide)).trans on
  change execPpsInEdge s = _
  rw [execPpsInEdge, whenOn_of on']

theorem watcherActive_ft (src : Nat) (s : State) : (watcherActive src s).ft = s.ft := watcherActive_touch.ft' (by decide)

theorem watcherActive_ftSource (src : Nat) (s : State) : (watcherActive src s).ftSource = s.ftSource :=
  ftSource_of_keep (watcherActive_touch.keep' (by decide))

/-- With no seconds to set, an edge is a sync interval with the offset from the nearest whole second. -/
theorem ppsEdge_of_plain {s : State} (source : s.ftSource = 2 ∨ s.ftSource = 3) (plain : s.ft.setSecs = none) (valid : s.ft.valid = true) :
    ppsEdge s = ftInterval (secondOffset s.ft.now) s := by
  simp [ppsEdge, source, plain, valid]

theorem ppsEdge_of_other {s : State} (source : s.ftSource = 0 ∨ s.ftSource = 1) : ppsEdge s = s := if_neg (by omega)

theorem ftCorrect_setSecs (delta : Int) (s : State) : (ftCorrect delta s).ft.setSecs = s.ft.setSecs := by
  unfold ftCorrect
  split
  · rw [cmpTimePassed_ft, log_ft]; rfl
  · rfl

theorem ftLock_setSecs (s : State) : (ftLock s).ft.setSecs = s.ft.setSecs := by
  unfold ftLock
  rw [irqSource_ft, log_ft]
  change (State.ft (if _ then _ else _)).setSecs = _
  split
  · rfl
  · rw [cmpTimePassed_ft]; rfl

/-- A sync interval leaves the seconds that wait to be set. -/
theorem ftInterval_setSecs (off : Int) (s : State) : (ftInterval off s).ft.setSecs = s.ft.setSecs := by
  unfold ftInterval
  split
  · rfl
  · split
    · rw [ftHoldover_ft]
    · split <;> simp [ftCorrect_setSecs]
  · simp only [apply_ite (fun s : State => s.ft.setSecs), ftLock_setSecs, ftCorrect_setSecs, ite_self]
    rfl

/-- With seconds to set, the edge answers the request and uses it up. -/
theorem ppsEdge_of_set {c : Caller} {n : Nat} {s : State} (source : s.ftSource = 3) (waits : s.ft.setSecs = some (c, n)) :
    ∃ t, ppsEdge s = mbxReply c {} t ∧ t.ft.setSecs = none ∧ t.mbx = s.mbx := by
  simp only [ppsEdge, source, waits, or_true, if_true]
  refine ⟨_, rfl, ?_⟩
  split
  · refine ⟨by rw [ftInterval_setSecs, ftCorrect_setSecs]; rfl, ?_⟩
    exact (ftInterval_touch.mbx' (by decide)).trans (ftCorrect_touch.mbx' (by decide))
  · refine ⟨by rw [ftInterval_setSecs]; rfl, ?_⟩
    exact ftInterval_touch.mbx' (by decide)

/-! Steps of fabric time. -/

/-- PPS_OUT rises at a whole second (R30). -/
theorem exec_ppsOutSecond_of {s : State} (on : On s) : exec .ppsOutSecond s = .next (if s.ft.state = .locked ∨ s.ft.state = .holdover then
      { s with ft := { s.ft with now := max s.ft.now ((s.ft.now + 999999999) / 1000000000 * 1000000000) }, pwr := { s.pwr with ppsOut := s.pwr.ppsOut + 1 } }
    else s) := whenOn_of on

theorem exec_ftSlewComplete_of {s : State} (on : On s) : exec .ftSlewComplete s = .next (cmpTimePassed (s.modFt (fun f =>
    { f with now := f.now + f.slew.toNat, slew := 0, slewAcc := 0, errBound := if f.valid then 50 else f.errBound }))) := by
  change execFtSlewComplete s = _
  rw [execFtSlewComplete, whenOn_of on]

theorem changes_modFt (s : State) (f : FabricTime → FabricTime) : Changes [.ft] [] s (s.modFt f) :=
  Touch.changes (F := 2048) (Touch.upd rfl (.inr rfl)) (by decide)

/-- A request to set seconds in PPS with set time waits for its edge (R29). -/
theorem ftSecondsReq_waits {c : Caller} {n : Nat} {s : State} (source : s.ftSource = 3) :
    ftSecondsReq c n s = (none, s.modFt (fun f => { f with setSecs := some (c, n % 2 ^ 64) })) := if_neg (not_not_intro source)

theorem exec_ftSetSeconds_of {c : Caller} {n : Nat} {s : State} (on : On s) :
    exec (.ftSetSeconds c n) s = .next (mbxServe c 0x100C s (fun _ s => ftSecondsReq c n s)) := by
  change execFtSetSeconds c n s = _
  rw [execFtSetSeconds, whenOn_of on]

/-- Settles O32: the two edges, the slew's end, and the request to set seconds from its arrival to its edge or its timeout. -/
theorem fabricTimeSteps : Obligations.FabricTimeSteps := by
  refine ⟨?near, ?far, ?other, ?set, ?slew, fun s => exec_ppsOutSecond_of, ?waits, ?refused, ?timeout, ?nothing⟩
  case near =>
    intro s on source plain valid locked some_ near
    have ft := watcherActive_ft (watcherSrc 2) s
    have edge := ppsEdge_of_plain (s := watcherActive (watcherSrc 2) s) (by rwa [watcherActive_ftSource]) (by rwa [ft]) (by rwa [ft])
    refine ⟨_, exec_ppsInEdge_of on, ?_⟩
    rw [linkPhase_ft, edge, ft, ftInterval_locked_near (by rwa [ft]) some_ near, ft]
  case far =>
    intro s on source plain valid locked far
    have ft := watcherActive_ft (watcherSrc 2) s
    have edge := ppsEdge_of_plain (s := watcherActive (watcherSrc 2) s) (by rwa [watcherActive_ftSource]) (by rwa [ft]) (by rwa [ft])
    refine ⟨_, exec_ppsInEdge_of on, ?_⟩
    rw [linkPhase_ft, edge, ft, ftInterval_locked_far (by rwa [ft]) far, ftHoldover_ft, ft]
  case other =>
    intro s on source
    refine ⟨_, exec_ppsInEdge_of on, ?_⟩
    rw [linkPhase_ft, ppsEdge_of_other (by rwa [watcherActive_ftSource]), watcherActive_ft]
  case set =>
    intro c n s on source waits busy
    obtain ⟨t, edge, used, kept⟩ := ppsEdge_of_set (s := watcherActive (watcherSrc 2) s) (by rwa [watcherActive_ftSource]) (by rwa [watcherActive_ft])
    have kept' : t.mbx = s.mbx := kept.trans (watcherActive_touch.mbx' (by decide))
    have busy' : (t.mailbox c).busy = true := by rw [mailbox_of_mbx kept']; exact busy
    obtain ⟨done, free, -⟩ := answered_mbxReply busy' {}
    have box := mailbox_of_mbx (linkPhase_touch.mbx' (by decide) : (linkPhase (mbxReply c {} t)).mbx = _) c
    refine ⟨_, exec_ppsInEdge_of on, ?_⟩
    rw [edge, box, linkPhase_ft, mbxReply_ft]
    exact ⟨used, done, free⟩
  case slew =>
    intro s on
    refine ⟨_, exec_ftSlewComplete_of on, cmpTimePassed_ft _, ?_⟩
    exact ((changes_modFt s _).mono (by simp) (by simp)).trans (Touch.changes cmpTimePassed_touch (by decide))
  case waits =>
    intro c n f s on serves source
    rw [exec_ftSetSeconds_of on, mbxServe_of serves, ftSecondsReq_waits source]
    rfl
  case refused =>
    intro c n f s on serves source
    rw [exec_ftSetSeconds_of on, mbxServe_replies serves (if_pos source)]
  case timeout =>
    intro c n s on waits
    change execFtSetSecondsTimeout s = _
    simp only [execFtSetSecondsTimeout, whenOn_of on, waits]
    rfl
  case nothing =>
    intro s on nothing
    change execFtSetSecondsTimeout s = _
    simp only [execFtSetSecondsTimeout, whenOn_of on, nothing]

end Sys2Proof.Machine
end

section
/-! Comparators: what arms one, and a target that has passed by then (R41, R43, R46). -/

namespace Sys2Proof.Machine

open Sys2Proof

theorem setArmed_find_same (s : State) (k : Nat) (a : Armed) : (s.setArmed k a).cmp.armed.find k = some a := Tab.find_set_same ..

theorem reg_setArmed (s : State) (k : Nat) (a : Armed) (n : RegName) (i : Nat) : (s.setArmed k a).reg n i = s.reg n i := rfl

theorem fld_setArmed (s : State) (k : Nat) (a : Armed) (n : RegName) (hi lo i : Nat) : (s.setArmed k a).fld n hi lo i = s.fld n hi lo i := rfl

/-- The core that writes a comparator, if one does. -/
def armerOf : Agent → Option Nat
  | .core id => some id
  | _ => none

/-- What a write of `v` to TCMP_CTL arms comparator `k` with (R41). -/
def armedBy (k v : Nat) (who : Option Nat) (mode : CmpMode) (s : State) : Armed :=
  { mode := mode, periodic := natBit v 3, domain := natBits v 21 16, action := natBits v 15 12, written := s.reg .tcmpTarget k,
    target := s.reg .tcmpTarget k, arg := s.reg .tcmpArg k, armer := who }

/-- TCMP_CTL with the fields of a write that arms, and no overrun. -/
def tcmpTaken (k v : Nat) (s : State) : State :=
  (s.setReg .tcmpCtl (applyFields (s.reg .tcmpCtl k) v RegName.tcmpCtl.info.fields) k).setFld .tcmpCtl 31 24 0 k

theorem tcmpTaken_overrun (k v : Nat) (s : State) : (tcmpTaken k v s).fld .tcmpCtl 31 24 k = 0 :=
  State.fld_setFld_same _ .tcmpCtl 31 24 0 k (by decide)

theorem tcmpTaken_reg {n : RegName} (h : n ≠ .tcmpCtl) (k v i : Nat) (s : State) : (tcmpTaken k v s).reg n i = s.reg n i := by
  rw [tcmpTaken, State.reg_setFld_name _ _ _ _ _ _ _ _ h, State.reg_setReg_name _ _ _ _ _ _ h]

/-! The write of TCMP_CTL, by the mode that it names. -/

section
variable {k v : Nat} {s : State} {who : Option Nat}

theorem tcmpWrite_reserved (h : natBits v 2 1 = 3 ∨ 8 < natBits v 15 12) : tcmpWrite k v s who = s := if_pos h

theorem tcmpWrite_far (legal : ¬ (natBits v 2 1 = 3 ∨ 8 < natBits v 15 12)) (enable : natBit v 0 = true) (mode : natBits v 2 1 ≠ 0)
    (far : 2 ^ 48 ≤ s.reg .tcmpTarget k) : tcmpWrite k v s who = s := by
  have high : s.reg .tcmpTarget k / 2 ^ 48 ≠ 0 := by omega
  simp only [tcmpWrite, if_neg legal, enable, Bool.true_eq_false, if_false, if_pos (And.intro mode high)]

theorem tcmpWrite_disarm (legal : ¬ (natBits v 2 1 = 3 ∨ 8 < natBits v 15 12)) (disable : natBit v 0 = false) :
    (tcmpWrite k v s who).cmp.armed.find k = none ∧
    (tcmpWrite k v s who).reg .tcmpCtl k = applyFields (s.reg .tcmpCtl k) v RegName.tcmpCtl.info.fields % 2 ^ 32 := by
  simp only [tcmpWrite, if_neg legal, disable, if_true]
  exact ⟨Tab.find_del_same .., State.reg_setReg_same ..⟩

theorem tcmpWrite_time (legal : ¬ (natBits v 2 1 = 3 ∨ 8 < natBits v 15 12)) (enable : natBit v 0 = true) (mode : natBits v 2 1 = 0) :
    tcmpWrite k v s who = if s.ft.valid = true ∧ s.reg .tcmpTarget k < s.ft.now then
        cmpPassed k (armedBy k v who .time s) s.ft.now ((tcmpTaken k v s).setArmed k (armedBy k v who .time s))
      else (tcmpTaken k v s).setArmed k (armedBy k v who .time s) := by
  have near : ¬ (natBits v 2 1 ≠ 0 ∧ s.reg .tcmpTarget k / 2 ^ 48 ≠ 0) := by omega
  simp only [tcmpWrite, if_neg legal, enable, Bool.true_eq_false, if_false, if_neg near, if_pos mode, State.setArmed_ft, State.setFld_ft, State.setReg_ft]
  rfl

theorem tcmpWrite_steep (legal : ¬ (natBits v 2 1 = 3 ∨ 8 < natBits v 15 12)) (enable : natBit v 0 = true) (mode : natBits v 2 1 = 1)
    (near : s.reg .tcmpTarget k < 2 ^ 48) :
    tcmpWrite k v s who = if s.reg .tcmpTarget k < s.reg .cadSteepCount (natBits v 21 16) then
        cmpPassed k (armedBy k v who .steep s) (s.reg .cadSteepCount (natBits v 21 16)) ((tcmpTaken k v s).setArmed k (armedBy k v who .steep s))
      else (tcmpTaken k v s).setArmed k (armedBy k v who .steep s) := by
  have near : ¬ (natBits v 2 1 ≠ 0 ∧ s.reg .tcmpTarget k / 2 ^ 48 ≠ 0) := by omega
  have other : ¬ natBits v 2 1 = 0 := by omega
  have count : ((tcmpTaken k v s).setArmed k (armedBy k v who .steep s)).reg .cadSteepCount (natBits v 21 16) =
      s.reg .cadSteepCount (natBits v 21 16) := (reg_setArmed ..).trans (tcmpTaken_reg (by decide) ..)
  simp only [tcmpWrite, if_neg legal, enable, Bool.true_eq_false, if_false, if_neg near, if_neg other, if_pos mode]
  rw [← count]
  rfl

theorem tcmpWrite_phase (legal : ¬ (natBits v 2 1 = 3 ∨ 8 < natBits v 15 12)) (enable : natBit v 0 = true) (mode : natBits v 2 1 = 2)
    (near : s.reg .tcmpTarget k < 2 ^ 48) :
    tcmpWrite k v s who = if natBit v 3 = true then (tcmpTaken k v s).setArmed k (armedBy k v who .phase s)
      else match (s.dom (natBits v 21 16)).bind (fun D => D.lastTb.find (s.reg .tcmpTarget k)) with
        | some tb => ((tcmpTaken k v s).setArmed k (armedBy k v who .phase s)).setArmed k { armedBy k v who .phase s with
            due := some (tb + s.reg .tcmpArg k), owed := decide (tb + s.reg .tcmpArg k < s.ft.now) }
        | none => (tcmpTaken k v s).setArmed k (armedBy k v who .phase s) := by
  have near : ¬ (natBits v 2 1 ≠ 0 ∧ s.reg .tcmpTarget k / 2 ^ 48 ≠ 0) := by omega
  have other : ¬ natBits v 2 1 = 0 := by omega
  have other' : ¬ natBits v 2 1 = 1 := by omega
  have doms : ((tcmpTaken k v s).setArmed k (armedBy k v who .phase s)).dom (natBits v 21 16) = s.dom (natBits v 21 16) := rfl
  simp only [tcmpWrite, if_neg legal, enable, Bool.true_eq_false, if_false, if_neg near, if_neg other, if_neg other', State.setArmed_ft,
    State.setFld_ft, State.setReg_ft]
  rw [← doms, ← tcmpTaken]
  change (if _ then _ else match (match ((tcmpTaken k v s).setArmed k (armedBy k v who .phase s)).dom (natBits v 21 16) with
    | some D => D.lastTb.find (s.reg .tcmpTarget k) | none => none) with | some _ => _ | none => _) = _
  cases ((tcmpTaken k v s).setArmed k (armedBy k v who .phase s)).dom (natBits v 21 16) <;> rfl

end

/-! A target that has passed. -/

theorem cmpPassed_once {a : Armed} (h : a.periodic = false) (k now : Nat) (s : State) : cmpPassed k a now s = s.setArmed k { a with owed := true } := by
  simp [cmpPassed, h]

theorem cmpPassed_periodic {a : Armed} (h : a.periodic = true) (period : a.arg ≠ 0) (k now : Nat) (s : State) :
    cmpPassed k a now s = (s.setFld .tcmpCtl 31 24 (satAdd 8 (s.fld .tcmpCtl 31 24 k) ((now - a.target) / a.arg)) k).setArmed k
      { a with owed := true, target := a.target + ((now - a.target) / a.arg + 1) * a.arg } := by
  simp [cmpPassed, h, period, periodsPassed]

/-! Outcomes of a write by the comparator's holder. -/

/-- Comparator `k` stands armed with `a` and its overrun count at `n`, and nothing but it has changed. -/
abbrev ArmsWith (k : Nat) (a : Armed) (n : Nat) (s t : State) : Prop :=
  t.cmp.armed.find k = some a ∧ t.fld .tcmpCtl 31 24 k = n ∧ Changes [.cmp] [.tcmpCtl] s t

section
variable {k v : Nat} {s : State} {who : Option Nat} {a : Armed}

theorem changes_tcmpWrite : Changes [.cmp] [.tcmpCtl] s (tcmpWrite k v s who) := Touch.changes tcmpWrite_touch (by decide)

theorem armsWith_plain (h : tcmpWrite k v s who = (tcmpTaken k v s).setArmed k a) : ArmsWith k a 0 s (tcmpWrite k v s who) :=
  ⟨by rw [h, setArmed_find_same], by rw [h, fld_setArmed, tcmpTaken_overrun], changes_tcmpWrite⟩

/-- A one-shot target that has passed is owed. -/
theorem armsWith_once {now : Nat} (h : tcmpWrite k v s who = cmpPassed k a now ((tcmpTaken k v s).setArmed k a)) (once : a.periodic = false) :
    ArmsWith k { a with owed := true } 0 s (tcmpWrite k v s who) := by
  refine ⟨?_, ?_, changes_tcmpWrite⟩
  · rw [h, cmpPassed_once once, setArmed_find_same]
  · rw [h, cmpPassed_once once]
    rw [fld_setArmed, fld_setArmed, tcmpTaken_overrun]

/-- A periodic target that has passed is owed once, and the grid goes on above the present. -/
theorem armsWith_periodic {now : Nat} (h : tcmpWrite k v s who = cmpPassed k a now ((tcmpTaken k v s).setArmed k a)) (periodic : a.periodic = true)
    (period : a.arg ≠ 0) : ArmsWith k { a with owed := true, target := a.target + ((now - a.target) / a.arg + 1) * a.arg }
      (min ((now - a.target) / a.arg) 255) s (tcmpWrite k v s who) := by
  have none_ : ((tcmpTaken k v s).setArmed k a).fld .tcmpCtl 31 24 k = 0 := (fld_setArmed ..).trans (tcmpTaken_overrun k v s)
  refine ⟨?_, ?_, changes_tcmpWrite⟩
  · rw [h, cmpPassed_periodic periodic period, setArmed_find_same]
  · rw [h, cmpPassed_periodic periodic period, none_]
    rw [fld_setArmed, State.fld_setFld_same _ _ _ _ _ _ (by decide), Nat.mod_eq_of_lt (satAdd_lt ..), satAdd, Nat.zero_add]
    rfl

end

theorem exec_tcmpCtlWrite_of {die idx : Nat} {a : Agent} {v : Word} {s : State} (hdie : die ≤ 2) (hidx : idx ≤ 63) (up : MainUp s) :
    exec (.tcmpCtlWrite a die idx v) s =
      .next (if cmpMayWrite s a (cmpKey die idx) = true then tcmpWrite (cmpKey die idx) v.toNat s (armerOf a) else s.ignored) := by
  change execTcmpCtlWrite a die idx v s = _
  unfold execTcmpCtlWrite armerOf
  rw [if_neg (by omega), whenMain_of up] <;> rfl

/-- A write by the comparator's holder. -/
theorem exec_tcmpCtlWrite_held {die idx : Nat} {a : Agent} {v : Word} {s : State} (hdie : die ≤ 2) (hidx : idx ≤ 63) (up : MainUp s)
    (held : cmpMayWrite s a (cmpKey die idx) = true) :
    exec (.tcmpCtlWrite a die idx v) s = .next (tcmpWrite (cmpKey die idx) v.toNat s (armerOf a)) := by
  rw [exec_tcmpCtlWrite_of hdie hidx up, if_pos held]

/-- Settles O33: who may write, what the write carries and its mode select one lemma about `tcmpWrite`. -/
theorem comparatorArming : Obligations.ComparatorArming := by
  have lawful {v : Word} (m : natBits v.toNat 2 1 ≠ 3) (x : natBits v.toNat 15 12 ≤ 8) : ¬ (natBits v.toNat 2 1 = 3 ∨ 8 < natBits v.toNat 15 12) := by
    omega
  refine ⟨?other, ?reserved, ?far, ?disarm, ?timeAhead, ?timeOnce, ?timePeriodic, ?steepAhead, ?steepPeriodic, ?phase, ?phaseDue⟩
  case other =>
    intro a die idx v s hdie hidx up held
    rw [exec_tcmpCtlWrite_of hdie hidx up, held]
    rfl
  case reserved =>
    intro a die idx v s hdie hidx up held reserved
    rw [exec_tcmpCtlWrite_held hdie hidx up held, tcmpWrite_reserved reserved]
  case far =>
    intro a die idx v s hdie hidx up held m x enable mode far
    rw [exec_tcmpCtlWrite_held hdie hidx up held, tcmpWrite_far (lawful m x) enable mode far]
  case disarm =>
    intro a die idx v s hdie hidx up held m x disable
    obtain ⟨gone, ctl⟩ := tcmpWrite_disarm (k := cmpKey die idx) (s := s) (who := armerOf a) (lawful m x) disable
    exact ⟨_, exec_tcmpCtlWrite_held hdie hidx up held, gone, ctl, changes_tcmpWrite⟩
  case timeAhead =>
    intro a die idx v s hdie hidx up held m x enable mode ahead
    have ahead' : ¬ (s.ft.valid = true ∧ s.reg .tcmpTarget (cmpKey die idx) < s.ft.now) := by
      rintro ⟨valid, passed⟩
      rcases ahead with h | h
      · exact Bool.false_ne_true (h.symm.trans valid)
      · omega
    exact ⟨_, exec_tcmpCtlWrite_held hdie hidx up held, armsWith_plain ((tcmpWrite_time (lawful m x) enable mode).trans (if_neg ahead'))⟩
  case timeOnce =>
    intro a die idx v s hdie hidx up held m x enable mode once valid passed
    have written := (tcmpWrite_time (k := cmpKey die idx) (s := s) (who := armerOf a) (lawful m x) enable mode).trans (if_pos ⟨valid, passed⟩)
    exact ⟨_, exec_tcmpCtlWrite_held hdie hidx up held, armsWith_once written once⟩
  case timePeriodic =>
    intro a die idx v s hdie hidx up held m x enable mode periodic period valid passed
    exact ⟨_, exec_tcmpCtlWrite_held hdie hidx up held,
      armsWith_periodic ((tcmpWrite_time (lawful m x) enable mode).trans (if_pos ⟨valid, passed⟩)) periodic period⟩
  case steepAhead =>
    intro a die idx v s hdie hidx up held m x enable mode near ahead
    exact ⟨_, exec_tcmpCtlWrite_held hdie hidx up held,
      armsWith_plain ((tcmpWrite_steep (lawful m x) enable mode near).trans (if_neg (by omega)))⟩
  case steepPeriodic =>
    intro a die idx v s hdie hidx up held m x enable mode periodic period near passed
    exact ⟨_, exec_tcmpCtlWrite_held hdie hidx up held,
      armsWith_periodic ((tcmpWrite_steep (lawful m x) enable mode near).trans (if_pos passed)) periodic period⟩
  case phase =>
    intro a die idx v s hdie hidx up held m x enable mode near waits
    refine ⟨_, exec_tcmpCtlWrite_held hdie hidx up held, armsWith_plain ((tcmpWrite_phase (lawful m x) enable mode near).trans ?_)⟩
    rcases waits with periodic | unknown
    · exact if_pos periodic
    · rw [unknown]
      exact ite_self _
  case phaseDue =>
    intro a die idx v D tb s hdie hidx up held m x enable mode near once dom applied
    have once' : ¬ natBit v.toNat 3 = true := by rw [once]; decide
    have written := tcmpWrite_phase (k := cmpKey die idx) (s := s) (who := armerOf a) (lawful m x) enable mode near
    rw [if_neg once', dom, Option.bind_some, applied] at written
    exact ⟨_, exec_tcmpCtlWrite_held hdie hidx up held, written ▸ setArmed_find_same .., changes_tcmpWrite⟩

end Sys2Proof.Machine
end

section
/-! Fires of comparators, debug freezes and thaws (R41 to R44, R49). -/

namespace Sys2Proof.Machine

open Sys2Proof

/-- What each step of a fold establishes for its element and every step keeps holds of all elements afterwards. -/
theorem foldl_establishes {α : Type} {f : State → α → State} {I : State → Prop} {Q : α → State → Prop} (inv : ∀ s x, I s → I (f s x))
    (est : ∀ s x, I s → Q x (f s x)) (kept : ∀ s x y, I s → Q x s → Q x (f s y)) (l : List α) (s : State) (start : I s) :
    I (l.foldl f s) ∧ ∀ x, (x ∈ l ∨ Q x s) → Q x (l.foldl f s) := by
  induction l generalizing s with
  | nil => exact ⟨start, fun x h => h.elim (fun k => absurd k List.not_mem_nil) id⟩
  | cons y l ih =>
    obtain ⟨i, q⟩ := ih (f s y) (inv s y start)
    refine ⟨i, fun x h => q x ?_⟩
    rcases h with member | holds
    · rcases List.mem_cons.1 member with rfl | later
      · exact .inr (est s x start)
      · exact .inl later
    · exact .inr (kept s x y start holds)

/-! Bits of the interrupt controllers. -/

/-- A source's bit written: that bit reads the value, every other bit of the register set reads as before. -/
theorem eicBit_setEicBit {n : RegName} (word : n.info.width = 32) (s : State) (cl cl' src x : Nat) (v : Bool) (hsrc : src < 256) (hx : x < 256) :
    (s.setEicBit n cl src v).eicBit n cl' x = if cl' = cl ∧ x = src then v else s.eicBit n cl' x := by
  unfold State.eicBit State.setEicBit State.setFld
  rw [State.reg_setReg, word]
  by_cases here : 8 * cl' + x / 32 = 8 * cl + src / 32
  · have same : cl' = cl := by omega
    have bit : x % 32 < 32 := Nat.mod_lt _ (by omega)
    rw [if_pos ⟨rfl, here⟩, here, natBit_eq_testBit, natBit_eq_testBit, Nat.testBit_mod_two_pow, natSetBits_testBit _ _ _ _ _ (by omega)]
    by_cases this : x = src
    · subst this
      cases v <;> simp [bit, same]
    · have apart : ¬ (src % 32 ≤ x % 32 ∧ x % 32 ≤ src % 32) := by omega
      rw [if_neg apart, if_neg (fun h => this h.2)]
      simp [bit]
  · have apart : ¬ (cl' = cl ∧ x = src) := by
      rintro ⟨rfl, rfl⟩
      exact here rfl
    rw [if_neg (fun h => here h.2), if_neg apart]

/-- An event writes the pending registers as its pending bit does. -/
theorem reg_eicEvent (cl src : Nat) (s : State) (n : RegName) (i : Nat) :
    (eicEvent cl src s).reg n i = (s.setEicBit .eicPending cl src true).reg n i := by
  unfold eicEvent
  dsimp only
  split <;> rfl

theorem eicBit_eicEvent (s : State) (cl cl' src x : Nat) (hsrc : src < 256) (hx : x < 256) :
    (eicEvent cl src s).eicBit .eicPending cl' x = if cl' = cl ∧ x = src then true else s.eicBit .eicPending cl' x := by
  rw [← eicBit_setEicBit rfl s cl cl' src x true hsrc hx]
  unfold State.eicBit
  rw [reg_eicEvent]

/-- One event in each cluster of a list makes the source pending in all of them. -/
theorem eicBit_eicEvents {src : Nat} (hsrc : src < 256) (b : Nat) (l : List Nat) (s : State) (i : Nat) (member : i ∈ l) :
    (l.foldl (fun s i => eicEvent (b + i) src s) s).eicBit .eicPending (b + i) src = true := by
  refine (foldl_establishes (I := fun _ => True) (Q := fun i t => t.eicBit .eicPending (b + i) src = true) (fun _ _ _ => trivial) ?_ ?_ l s trivial).2 i
    (.inl member)
  · intro t i _
    rw [eicBit_eicEvent _ _ _ _ _ hsrc hsrc, if_pos ⟨rfl, rfl⟩]
  · intro t i j _ pending
    rw [eicBit_eicEvent _ _ _ _ _ hsrc hsrc, pending, ite_self]

/-! Reached targets. -/

section
variable {s : State} {a : Armed}

theorem cmpReached_time (mode : a.mode = .time) (valid : s.ft.valid = true) (fired : a.fired = false) (owed : a.owed = false) :
    cmpReached s a = some (some a.target) := by
  simp [cmpReached, mode, valid, fired, owed]

theorem cmpReached_time_owed (mode : a.mode = .time) (valid : s.ft.valid = true) (fired : a.fired = false) (owed : a.owed = true) :
    cmpReached s a = some none := by
  simp [cmpReached, mode, valid, fired, owed]

theorem cmpReached_steep (mode : a.mode = .steep) (fired : a.fired = false) (reached : a.target ≤ s.reg .cadSteepCount a.domain) :
    cmpReached s a = some none := by
  simp [cmpReached, mode, fired, reached]

theorem cmpReached_not (h : a.fired = true ∨ a.mode = .time ∧ s.ft.valid = false ∨
    a.mode = .steep ∧ a.owed = false ∧ s.reg .cadSteepCount a.domain < a.target ∨ a.mode = .phase ∧ a.due = none) : cmpReached s a = none := by
  rcases h with fired | ⟨mode, invalid⟩ | ⟨mode, owed, below⟩ | ⟨mode, due⟩
  · simp [cmpReached, fired]
  · simp [cmpReached, mode, invalid]
  · simp [cmpReached, mode, owed, below]
  · simp [cmpReached, mode, due]

/-! What stands armed after a fire. -/

theorem cmpNext_once (once : a.periodic = false) : cmpNext a = { a with owed := false, due := none, fired := true } := by
  simp [cmpNext, once]

theorem cmpNext_periodic (periodic : a.periodic = true) (mode : a.mode ≠ .phase) (period : a.arg ≠ 0) (owed : a.owed = false) :
    cmpNext a = { a with owed := false, due := none, target := a.target + a.arg } := by
  cases h : a.mode <;> simp_all [cmpNext]

theorem cmpNext_owed (periodic : a.periodic = true) (mode : a.mode ≠ .phase) (period : a.arg ≠ 0) (owed : a.owed = true) :
    cmpNext a = { a with owed := false, due := none } := by
  cases h : a.mode <;> simp_all [cmpNext]

/-! A fire, by what the comparator's control register and a freeze let it do. -/

variable {k : Nat}

theorem cmpFire_acts (owed : a.owed = false) (ready : s.fld .tcmpCtl 22 22 k = 0) (thawed : s.frozen = false) : cmpFire k a s = cmpAction k a s := by
  simp [cmpFire, owed, ready, thawed]

theorem cmpFire_held (owed : a.owed = false) (ready : s.fld .tcmpCtl 22 22 k = 0) (frozen : s.frozen = true) :
    cmpFire k a s = s.setFld .tcmpCtl 22 22 1 k := by
  simp [cmpFire, owed, ready, frozen]

theorem cmpFire_merges (owed : a.owed = false) (held : s.fld .tcmpCtl 22 22 k = 1) : cmpFire k a s = s.bumpFld .tcmpCtl 31 24 k := by
  simp [cmpFire, owed, held]

theorem cmpFire_late (owed : a.owed = true) (ready : s.fld .tcmpCtl 22 22 k = 0) (thawed : s.frozen = false) :
    cmpFire k a s = cmpAction k a (s.setFld .tcmpCtl 23 23 1 k) := by
  have ready' : (s.setFld .tcmpCtl 23 23 1 k).fld .tcmpCtl 22 22 k = 0 :=
    (State.fld_setFld_apart _ _ _ _ _ _ _ _ (by decide) (by decide) (by decide)).trans ready
  simp [cmpFire, owed, ready', thawed]

theorem cmpAction_nothing (action : a.action = 5) : cmpAction k a s = s := by simp [cmpAction, action]

theorem cmpAction_wakes {id : Nat} (action : a.action = 8) (armer : a.armer = some id) :
    cmpAction k a s = s.modCore id (fun c => { c with wake := true }) := by simp [cmpAction, action, armer]

/-- Action 0 on a tensor die raises source 64 + index in each of its eight clusters. -/
theorem cmpAction_raises {die idx : Nat} (action : a.action = 0) (hidx : idx ≤ 63) (tensor : 1 ≤ die) :
    cmpAction (cmpKey die idx) a s = (List.range 8).foldl (fun s i => eicEvent ((die - 1) * 8 + i) (64 + idx) s) s := by
  have hdie : cmpKey die idx / 64 = die := by unfold cmpKey; omega
  have index : cmpKey die idx % 64 = idx := by unfold cmpKey; omega
  simp only [cmpAction, action, hdie, index, if_neg (Nat.ne_of_gt tensor)]

end

/-! The command. -/

section
variable {die idx : Nat} {s : State} {a : Armed}

theorem exec_comparatorFire_idle (hdie : die ≤ 2) (hidx : idx ≤ 63) (on : On s) (unarmed : s.cmp.armed.find (cmpKey die idx) = none) :
    exec (.comparatorFire die idx) s = .next s := by
  change execComparatorFire die idx s = _
  rw [execComparatorFire, if_neg (by omega), whenOn_of on]
  simp only [unarmed]

theorem exec_comparatorFire_of (hdie : die ≤ 2) (hidx : idx ≤ 63) (on : On s) (armed : s.cmp.armed.find (cmpKey die idx) = some a) :
    exec (.comparatorFire die idx) s = .next (match cmpReached s a with
      | none => s
      | some none => cmpFire (cmpKey die idx) a (s.setArmed (cmpKey die idx) (cmpNext a))
      | some (some t) => cmpFire (cmpKey die idx) a ((ftReach t s).setArmed (cmpKey die idx) (cmpNext a))) := by
  change execComparatorFire die idx s = _
  rw [execComparatorFire, if_neg (by omega), whenOn_of on]
  simp only [armed]
  rcases cmpReached s a with _ | _ | t <;> rfl

/-- A fire in fabric-time mode brings fabric time to its target. -/
theorem exec_comparatorFire_time (hdie : die ≤ 2) (hidx : idx ≤ 63) (on : On s) (armed : s.cmp.armed.find (cmpKey die idx) = some a)
    (mode : a.mode = .time) (valid : s.ft.valid = true) (fired : a.fired = false) (owed : a.owed = false) :
    exec (.comparatorFire die idx) s =
      .next (cmpFire (cmpKey die idx) a ((ftReach a.target s).setArmed (cmpKey die idx) (cmpNext a))) := by
  rw [exec_comparatorFire_of hdie hidx on armed, cmpReached_time mode valid fired owed]

theorem exec_comparatorFire_now (hdie : die ≤ 2) (hidx : idx ≤ 63) (on : On s) (armed : s.cmp.armed.find (cmpKey die idx) = some a)
    (reached : cmpReached s a = some none) :
    exec (.comparatorFire die idx) s = .next (cmpFire (cmpKey die idx) a (s.setArmed (cmpKey die idx) (cmpNext a))) := by
  rw [exec_comparatorFire_of hdie hidx on armed, reached]

end

theorem changes_fireState (t k : Nat) (a : Armed) (s : State) : Changes [.cmp, .ft] [] s ((ftReach t s).setArmed k a) :=
  Touch.changes (F := 4096 + 2048) (Touch.upd rfl (.inr rfl)) (by decide)

theorem changes_setArmed (k : Nat) (a : Armed) (s : State) : Changes [.cmp] [] s (s.setArmed k a) :=
  Touch.changes (F := 4096) (Touch.upd rfl (.inr rfl)) (by decide)

theorem changes_setFld_tcmpCtl (hi lo v k : Nat) (s : State) : Changes [] [.tcmpCtl] s (s.setFld .tcmpCtl hi lo v k) :=
  Touch.changes (setFld_touch ..) (by decide)

theorem changes_eicEvents (b src : Nat) (l : List Nat) (s : State) :
    Changes [.irq] [.eicPending] s (l.foldl (fun s i => eicEvent (b + i) src s) s) :=
  Touch.changes (Touch.foldl (Touch.refl _ s) (fun _ _ h => h.trans eicEvent_touch)) (by decide)

theorem exec_debugFreezeEnd_of {a : Agent} {s : State} (up : MainUp s) (reaches : reachesDebug s a = true) :
    exec (.debugFreezeEnd a) s = .next (freezeEnd s) := by
  change execDebugFreezeEnd a s = _
  rw [execDebugFreezeEnd, whenMain_of up, if_pos reaches]

/-! Thaws. -/

/-- The thaw of one comparator: its held fire is taken. -/
def thawOne (s : State) (k : Nat) : State :=
  if s.fld .tcmpCtl 22 22 k = 1 then
    match s.cmp.armed.find k with
    | some a => cmpAction k a (s.setFld .tcmpCtl 22 22 0 k)
    | none => s.setFld .tcmpCtl 22 22 0 k
  else s

theorem freezeEnd_of {s : State} (frozen : s.frozen = true) (running : s.fw.shutDown = false) :
    freezeEnd s = (List.range 192).foldl thawOne { s with frozen := false } := by
  rw [freezeEnd, if_neg (by simp [frozen, running])]
  rfl

theorem thawOne_unarmed {s : State} {k : Nat} (unarmed : s.cmp.armed.find k = none) :
    thawOne s k = if s.fld .tcmpCtl 22 22 k = 1 then s.setFld .tcmpCtl 22 22 0 k else s := by
  simp only [thawOne, unarmed]

/-- A bit that is not 1 is 0. -/
theorem fld_bit_zero {s : State} {n : RegName} {b i : Nat} (h : s.fld n b b i ≠ 1) : s.fld n b b i = 0 := by
  have bound : s.fld n b b i < 2 ^ (b + 1 - b) := natBits_lt ..
  rw [Nat.add_sub_cancel_left] at bound
  omega

theorem fld_setFld_index {n : RegName} {j k : Nat} (h : j ≠ k) (s : State) (hi lo v hi' lo' : Nat) :
    (s.setFld n hi lo v k).fld n hi' lo' j = s.fld n hi' lo' j := by
  unfold State.fld State.setFld
  rw [State.reg_setReg, if_neg (fun g => h g.2)]

/-- A thaw of an unarmed comparator ends its pending bit, and touches nothing else. -/
theorem thawOne_unarmed_clears {s : State} {k : Nat} (unarmed : s.cmp.armed.find k = none) : (thawOne s k).fld .tcmpCtl 22 22 k = 0 := by
  rw [thawOne_unarmed unarmed]
  split
  · exact State.fld_setFld_same _ _ _ _ _ _ (by decide)
  · next other => exact fld_bit_zero other

theorem thawOne_unarmed_cmp {s : State} {k : Nat} (unarmed : s.cmp.armed.find k = none) : (thawOne s k).cmp = s.cmp := by
  rw [thawOne_unarmed unarmed]
  split <;> rfl

theorem changes_thawOne_unarmed {s : State} {k : Nat} (unarmed : s.cmp.armed.find k = none) : Changes [] [.tcmpCtl] s (thawOne s k) := by
  rw [thawOne_unarmed unarmed]
  split
  · exact changes_setFld_tcmpCtl ..
  · exact (Changes.refl s).mono (by simp) (by simp)

theorem thawOne_unarmed_index {s : State} {j k : Nat} (unarmed : s.cmp.armed.find k = none) (h : j ≠ k) :
    (thawOne s k).fld .tcmpCtl 22 22 j = s.fld .tcmpCtl 22 22 j := by
  rw [thawOne_unarmed unarmed]
  split
  · exact fld_setFld_index h ..
  · rfl

theorem changes_thaw (s : State) : Changes [.frozen] [] s { s with frozen := false } :=
  Touch.changes (F := 8192) (Touch.upd rfl (.inr rfl)) (by decide)

/-- A thaw with no comparator armed only ends the pending bits. -/
theorem freezeEnd_unarmed {s : State} (frozen : s.frozen = true) (running : s.fw.shutDown = false) (unarmed : s.cmp.armed = []) :
    (freezeEnd s).frozen = false ∧ (∀ k, k < 192 → (freezeEnd s).fld .tcmpCtl 22 22 k = 0) ∧ Changes [.frozen] [.tcmpCtl] s (freezeEnd s) := by
  have find (t : State) (h : t.cmp = s.cmp) (k : Nat) : t.cmp.armed.find k = none := by
    rw [h, unarmed]
    rfl
  rw [freezeEnd_of frozen running]
  obtain ⟨⟨-, frame⟩, clear⟩ := foldl_establishes (f := thawOne)
    (I := fun t => t.cmp = s.cmp ∧ Changes [] [.tcmpCtl] { s with frozen := false } t) (Q := fun k t => t.fld .tcmpCtl 22 22 k = 0)
    (fun t k ⟨cmp, frame⟩ => ⟨(thawOne_unarmed_cmp (find t cmp k)).trans cmp, frame.trans (changes_thawOne_unarmed (find t cmp k))⟩)
    (fun t k ⟨cmp, _⟩ => thawOne_unarmed_clears (find t cmp k))
    (fun t j k ⟨cmp, _⟩ clear => by
      by_cases here : j = k
      · rw [here, thawOne_unarmed_clears (find t cmp k)]
      · rw [thawOne_unarmed_index (find t cmp k) here, clear])
    (List.range 192) { s with frozen := false } ⟨rfl, (Changes.refl _).mono (by simp) (by simp)⟩
  exact ⟨frame.part .frozen (by decide), fun k bound => clear k (.inl (List.mem_range.2 bound)),
    ((changes_thaw s).mono (by simp) (by simp)).trans (frame.mono (by simp) (by simp))⟩

/-- During a thaw with comparator `k` armed alone: core `id` is awake, or the held fire that wakes it is still to be taken. -/
def ThawUnderWay (k id : Nat) (s t : State) : Prop :=
  t.cmp = s.cmp ∧ Changes [.cores] [.tcmpCtl] { s with frozen := false } t ∧ ((t.core id).wake = true ∨ t.fld .tcmpCtl 22 22 k = 1)

section
variable {s t : State} {k id : Nat} {a : Armed}

theorem thawOne_wakes (cmp : t.cmp = s.cmp) (armed : s.cmp.armed = [(k, a)]) (action : a.action = 8) (armer : a.armer = some id) :
    thawOne t k =
      if t.fld .tcmpCtl 22 22 k = 1 then (t.setFld .tcmpCtl 22 22 0 k).modCore id (fun c => { c with wake := true }) else t := by
  have found : t.cmp.armed.find k = some a := by rw [cmp, armed, Tab.find_cons, if_pos rfl]
  simp only [thawOne, found, cmpAction_wakes action armer]

theorem find_only (cmp : t.cmp = s.cmp) (armed : s.cmp.armed = [(k, a)]) {j : Nat} (apart : j ≠ k) : t.cmp.armed.find j = none := by
  rw [cmp, armed, Tab.find_cons, if_neg apart, Tab.find_nil]

theorem ThawUnderWay.thawOne (h : ThawUnderWay k id s t) (armed : s.cmp.armed = [(k, a)]) (action : a.action = 8) (armer : a.armer = some id)
    (j : Nat) : ThawUnderWay k id s (thawOne t j) := by
  obtain ⟨cmp, frame, pending⟩ := h
  by_cases here : j = k
  · subst here
    rw [thawOne_wakes cmp armed action armer]
    split
    · refine ⟨cmp, frame.trans ?_, .inl (by rw [core_modCore, if_pos rfl])⟩
      exact ((changes_setFld_tcmpCtl ..).mono (by simp) (by simp)).trans (Touch.changes (F := 16384) (Touch.upd rfl (.inr rfl)) (by decide))
    · exact ⟨cmp, frame, pending⟩
  · have unarmed := find_only cmp armed here
    refine ⟨(thawOne_unarmed_cmp unarmed).trans cmp, frame.trans ((changes_thawOne_unarmed unarmed).mono (by simp) (by simp)), ?_⟩
    rw [core_of_cores ((changes_thawOne_unarmed unarmed).part .cores (by decide)), thawOne_unarmed_index unarmed (Ne.symm here)]
    exact pending

theorem ThawUnderWay.wakes (h : ThawUnderWay k id s t) (armed : s.cmp.armed = [(k, a)]) (action : a.action = 8) (armer : a.armer = some id) :
    ((Machine.thawOne t k).core id).wake = true := by
  obtain ⟨cmp, -, pending⟩ := h
  rw [thawOne_wakes cmp armed action armer]
  split
  · rw [core_modCore, if_pos rfl]
  · next done => exact pending.resolve_right done

theorem ThawUnderWay.stays_awake (h : ThawUnderWay k id s t) (armed : s.cmp.armed = [(k, a)]) (action : a.action = 8) (armer : a.armer = some id)
    (awake : (t.core id).wake = true) (j : Nat) : ((Machine.thawOne t j).core id).wake = true := by
  by_cases here : j = k
  · exact here ▸ h.wakes armed action armer
  · rw [core_of_cores ((changes_thawOne_unarmed (find_only h.1 armed here)).part .cores (by decide))]
    exact awake

/-- A thaw with one comparator armed, whose held fire wakes a core: the core is awake. -/
theorem freezeEnd_wakes (frozen : s.frozen = true) (running : s.fw.shutDown = false) (bound : k < 192)
    (held : s.fld .tcmpCtl 22 22 k = 1) (armed : s.cmp.armed = [(k, a)]) (action : a.action = 8) (armer : a.armer = some id) :
    (freezeEnd s).frozen = false ∧ ((freezeEnd s).core id).wake = true ∧ Changes [.frozen, .cores] [.tcmpCtl] s (freezeEnd s) := by
  rw [freezeEnd_of frozen running]
  obtain ⟨⟨-, frame, -⟩, awake⟩ := foldl_establishes (f := thawOne) (I := ThawUnderWay k id s) (Q := fun j t => j = k → (t.core id).wake = true)
    (fun t j h => h.thawOne armed action armer j)
    (fun t j h here => here ▸ h.wakes armed action armer)
    (fun t j i h awake here => h.stays_awake armed action armer (awake here) i)
    (List.range 192) { s with frozen := false } ⟨rfl, (Changes.refl _).mono (by simp) (by simp), .inr held⟩
  exact ⟨frame.part .frozen (by decide), awake k (.inl (List.mem_range.2 bound)) rfl,
    ((changes_thaw s).mono (by simp) (by simp)).trans (frame.mono (by simp) (by simp))⟩

end

/-- Settles O34: whether the target is reached, what stays armed and what the fire does, each by its own lemma. -/
theorem comparatorFires : Obligations.ComparatorFires := by
  refine ⟨?idle, ?early, ?wakes, ?again, ?late, ?steep, ?raises, ?held, ?merges, ?start, ?startOther, ?thaw, ?thawTakes⟩
  case idle =>
    intro die idx s hdie hidx on unarmed
    exact exec_comparatorFire_idle hdie hidx on unarmed
  case early =>
    intro die idx a s hdie hidx on armed early
    rw [exec_comparatorFire_of hdie hidx on armed, cmpReached_not early]
  case wakes =>
    intro die idx id a s hdie hidx on armed mode valid fired ready thawed owed once action armer
    rw [exec_comparatorFire_time hdie hidx on armed mode valid fired owed, cmpNext_once once, cmpFire_acts (s := (ftReach _ s).setArmed _ _) owed ready thawed,
      cmpAction_wakes action armer]
    rfl
  case again =>
    intro die idx a s hdie hidx on armed mode valid fired ready thawed owed periodic period action
    rw [exec_comparatorFire_time hdie hidx on armed mode valid fired owed, cmpNext_periodic periodic (by rw [mode]; decide) period owed,
      cmpFire_acts (s := (ftReach _ s).setArmed _ _) owed ready thawed, cmpAction_nothing action]
    rfl
  case late =>
    intro die idx a s hdie hidx on armed mode valid fired ready thawed owed periodic period action
    refine ⟨_, exec_comparatorFire_now hdie hidx on armed (cmpReached_time_owed mode valid fired owed), ?_⟩
    rw [cmpFire_late (s := s.setArmed _ _) owed ready thawed, cmpAction_nothing action, cmpNext_owed periodic (by rw [mode]; decide) period owed]
    exact ⟨State.fld_setFld_same _ _ _ _ _ _ (by decide), setArmed_find_same ..,
      ((changes_setArmed ..).mono (by simp) (by simp)).trans ((changes_setFld_tcmpCtl ..).mono (by simp) (by simp))⟩
  case steep =>
    intro die idx a s hdie hidx on armed mode fired owed reached periodic period action ready thawed
    rw [exec_comparatorFire_now hdie hidx on armed (cmpReached_steep mode fired reached), cmpFire_acts (s := s.setArmed _ _) owed ready thawed,
      cmpAction_nothing action, cmpNext_periodic periodic (by rw [mode]; decide) period owed]
    rfl
  case raises =>
    intro die idx a s hdie hidx on armed mode valid fired ready thawed owed tensor action
    refine ⟨_, exec_comparatorFire_time hdie hidx on armed mode valid fired owed, ?_⟩
    rw [cmpFire_acts (s := (ftReach _ s).setArmed _ _) owed ready thawed, cmpAction_raises action hidx tensor]
    exact ⟨fun i bound => eicBit_eicEvents (by omega) _ _ _ i (List.mem_range.2 bound),
      ((changes_fireState ..).mono (by simp) (by simp)).trans ((changes_eicEvents ..).mono (by simp) (by simp))⟩
  case held =>
    intro die idx a s hdie hidx on armed mode valid fired owed once ready frozen
    refine ⟨_, exec_comparatorFire_time hdie hidx on armed mode valid fired owed, ?_⟩
    rw [cmpFire_held (s := (ftReach _ s).setArmed _ _) owed ready frozen, cmpNext_once once]
    exact ⟨State.fld_setFld_same _ _ _ _ _ _ (by decide), setArmed_find_same ..,
      ((changes_fireState ..).mono (by simp) (by simp)).trans ((changes_setFld_tcmpCtl ..).mono (by simp) (by simp))⟩
  case merges =>
    intro die idx a s hdie hidx on armed mode valid fired owed periodic period held
    refine ⟨_, exec_comparatorFire_time hdie hidx on armed mode valid fired owed, ?_⟩
    rw [cmpFire_merges (s := (ftReach _ s).setArmed _ _) owed held, cmpNext_periodic periodic (by rw [mode]; decide) period owed]
    refine ⟨?_, setArmed_find_same .., ((changes_fireState ..).mono (by simp) (by simp)).trans ((changes_setFld_tcmpCtl ..).mono (by simp) (by simp))⟩
    exact fld_bumpFld_same _ _ _ _ _ (by decide)
  case start =>
    intro a s up reaches
    change execDebugFreezeStart a s = _
    rw [execDebugFreezeStart, whenMain_of up, if_pos reaches]
    rfl
  case startOther =>
    intro a s up other
    change execDebugFreezeStart a s = _
    rw [execDebugFreezeStart, whenMain_of up, other]
    rfl
  case thaw =>
    intro a s up reaches frozen running unarmed
    exact ⟨_, exec_debugFreezeEnd_of up reaches, freezeEnd_unarmed frozen running unarmed⟩
  case thawTakes =>
    intro a id k x s up reaches frozen running bound held armed action armer
    exact ⟨_, exec_debugFreezeEnd_of up reaches, freezeEnd_wakes frozen running bound held armed action armer⟩

end Sys2Proof.Machine
end

section
/-! Requests about comparators: allocation and release, and the count of a domain's steeps (R45, R46). -/

namespace Sys2Proof.Machine

open Sys2Proof

/-! Allocation. -/

section
variable {c : Caller} {die n : Byte} {f : Frame} {s t : State} {r : Reply}

theorem exec_comparatorAlloc_of (on : On s) (serves : Serves c 0x100D f s) (h : cmpAllocReq c die.toNat n.toNat s = (some r, t)) :
    exec (.comparatorAlloc c die n) s = .next (mbxReply c r t) := by
  change execComparatorAlloc c die n s = _
  rw [execComparatorAlloc, whenOn_of on, mbxServe_replies serves h]

theorem exec_comparatorFree_of (on : On s) (serves : Serves c 0x100F f s) (h : cmpFreeReq c die.toNat n.toNat s = (some r, t)) :
    exec (.comparatorFree c die n) s = .next (mbxReply c r t) := by
  change execComparatorFree c die n s = _
  rw [execComparatorFree, whenOn_of on, mbxServe_replies serves h]

end

section
variable {c : Caller} {die n : Nat} {s : State}

theorem cmpAllocReq_die (h : 2 < die) : cmpAllocReq c die n s = refuseAt 0x100D 0 St.invalidField s := if_pos h

theorem cmpAllocReq_zero (hdie : die ≤ 2) : cmpAllocReq c die 0 s = refuseAt 0x100D 1 St.invalidField s := by
  unfold cmpAllocReq
  rw [if_neg (by omega), if_pos rfl]

theorem cmpAllocReq_many (hdie : die ≤ 2) (many : 16 < n) : cmpAllocReq c die n s = refuseAt 0x100D 1 St.lenTooLarge s := by
  unfold cmpAllocReq
  rw [if_neg (by omega), if_neg (by omega), if_pos many]

theorem cmpAllocReq_hub (k : Nat) (count : 1 ≤ n ∧ n ≤ 16) : cmpAllocReq (.slice k) 0 n s = refuse St.unsupported s := by
  unfold cmpAllocReq
  rw [if_neg (by omega), if_neg (by omega), if_neg (by omega), if_pos ⟨rfl, rfl⟩]

/-- A caller that may have comparators of the die gets the lowest free ones, if there are enough. -/
theorem cmpAllocReq_of (hdie : die ≤ 2) (count : 1 ≤ n ∧ n ≤ 16) (may : die ≠ 0 ∨ c = .pf0 ∨ c = .pf1) :
    cmpAllocReq c die n s = match cmpLowest die n s with
      | none => refuse St.noComparator s
      | some l => accept (cmpTake die l (.caller c) s) (die :: n :: l) := by
  unfold cmpAllocReq
  rw [if_neg (by omega), if_neg (by omega), if_neg (by omega)]
  rcases may with h | rfl | rfl
  · exact if_neg (fun hub => h hub.1)
  · exact if_neg (fun hub => Bool.false_ne_true hub.2)
  · exact if_neg (fun hub => Bool.false_ne_true hub.2)

theorem cmpFreeReq_own (hdie : die ≤ 2) (hidx : n ≤ 63) (own : s.cmp.owner.get (cmpKey die n) .free = .caller c) :
    cmpFreeReq c die n s = accept { (s.setFld .tcmpCtl 0 0 0 (cmpKey die n)).setFld .tcmpCtl 22 22 0 (cmpKey die n) with
      cmp := { s.cmp with armed := s.cmp.armed.del (cmpKey die n), owner := s.cmp.owner.del (cmpKey die n) } } := by
  have held : ¬ (63 < n ∨ s.cmp.owner.get (cmpKey die n) .free ≠ .caller c) := by
    rintro (far | other)
    · omega
    · exact other own
  unfold cmpFreeReq
  rw [if_neg (by omega), if_neg held]
  unfold cmpDisarm
  have cmp : ((s.setFld .tcmpCtl 0 0 0 (cmpKey die n)).setFld .tcmpCtl 22 22 0 (cmpKey die n)).cmp = s.cmp := rfl
  rw [← cmp]

theorem cmpFreeReq_other (hdie : die ≤ 2) (other : 63 < n ∨ s.cmp.owner.get (cmpKey die n) .free ≠ .caller c) :
    cmpFreeReq c die n s = refuseAt 0x100F 1 St.invalidField s := by
  unfold cmpFreeReq
  rw [if_neg (by omega), if_pos other]

end

/-! The count of a domain's steeps. -/

/-- A domain of the caller that is disarmed is acted on. -/
theorem withOwnDom_disarmed {c : Caller} {op d : Nat} {s : State} {f : Domain → State → Option Reply × State} {D : Domain} (dom : s.dom d = some D)
    (own : D.owner = ownerOf c) (disarmed : isArmed s d = false) : withOwnDom c op d s f = f D s := by
  simp [withOwnDom, dom, own, disarmed]

theorem withOwnDom_armed {c : Caller} {op d : Nat} {s : State} {f : Domain → State → Option Reply × State} {D : Domain} (dom : s.dom d = some D)
    (own : D.owner = ownerOf c) (armed : isArmed s d = true) : withOwnDom c op d s f = refuse St.domainArmed s := by
  simp [withOwnDom, dom, own, armed]

section
variable {c : Caller} {d : Nat} {n : BitVec 48} {D : Domain} {f : Frame} {s : State}

theorem exec_steepCountSet_disarmed (on : On s) (serves : Serves c 0x3008 f s) (dom : s.dom d = some D) (own : D.owner = ownerOf c)
    (disarmed : isArmed s d = false) :
    exec (.steepCountSet c d n) s = .next (mbxReply c {} (cmpCountSet d n.toNat (s.setReg .cadSteepCount n.toNat d))) := by
  change execSteepCountSet c d n s = _
  rw [execSteepCountSet, whenOn_of on, mbxServe_replies serves (withOwnDom_disarmed dom own disarmed)]

theorem exec_steepCountSet_armed (on : On s) (serves : Serves c 0x3008 f s) (dom : s.dom d = some D) (own : D.owner = ownerOf c)
    (armed : isArmed s d = true) : exec (.steepCountSet c d n) s = .next (mbxReply c { status := St.domainArmed } s) := by
  change execSteepCountSet c d n s = _
  rw [execSteepCountSet, whenOn_of on, mbxServe_replies serves (withOwnDom_armed dom own armed)]

end

/-- The count set is read from its register, and of the comparators only what stands armed may change. -/
theorem changes_steepCount (d n : Nat) (s : State) : Changes [.cmp] [.cadSteepCount] s (cmpCountSet d n (s.setReg .cadSteepCount n d)) :=
  Changes.trans (Touch.changes (setReg_touch s .cadSteepCount n d) (by decide)) (Touch.changes cmpCountSet_touch (by decide))

/-- The one armed comparator is a periodic one in steep mode of the domain: it takes the grid's first point above the count. -/
theorem cmpCountSet_only {d n k : Nat} {a : Armed} {s : State} (armed : s.cmp.armed = [(k, a)]) (dom : a.domain = d) (mode : a.mode = .steep)
    (periodic : a.periodic = true) (period : a.arg ≠ 0) :
    (cmpCountSet d n s).cmp.armed = [(k, { a with target := gridAbove a.written a.arg n })] := by
  simp [cmpCountSet, armed, dom, mode, periodic, period, State.setArmed, Tab.set, Tab.del]

/-- The grid's first point above `now`: above it, within a period, on the grid. -/
theorem gridAbove_spec (written period now : Nat) (h : 0 < period) :
    now < gridAbove written period now ∧ gridAbove written period now ≤ now + period ∧
      ∃ j : Int, (gridAbove written period now : Int) = written + j * period := by
  unfold gridAbove
  split
  · next ahead =>
    have split := Nat.div_add_mod (written - now - 1) period
    have rest := Nat.mod_lt (written - now - 1) h
    rw [Nat.mul_comm] at split
    refine ⟨by omega, by omega, -((written - now - 1) / period : Nat), ?_⟩
    rw [Nat.cast_sub (by omega)]
    push_cast
    ring
  · next reached =>
    have split := Nat.div_add_mod (now - written) period
    have rest := Nat.mod_lt (now - written) h
    rw [Nat.mul_comm] at split
    rw [Nat.add_mul, Nat.one_mul]
    refine ⟨by omega, by omega, ((now - written) / period : Nat) + 1, ?_⟩
    push_cast
    ring

/-- Settles O35: each request by the branch of its body that it takes. -/
theorem comparatorRequests : Obligations.ComparatorRequests := by
  refine ⟨?alloc, ?taken, ?die, ?zero, ?many, ?hub, ?free, ?freeOther, ?count, ?grid, ?armed, ?gridAbove⟩
  case alloc =>
    intro c die n l f s on serves hdie count may lowest
    have body := cmpAllocReq_of (c := c) (s := s) hdie count (may.imp_left (fun h e => h (BitVec.eq_of_toNat_eq e)))
    rw [lowest] at body
    exact exec_comparatorAlloc_of on serves body
  case taken =>
    intro c die n f s on serves count hdie may lowest
    have body := cmpAllocReq_of (c := c) (s := s) hdie count (may.imp_left (fun h e => h (BitVec.eq_of_toNat_eq e)))
    rw [lowest] at body
    exact exec_comparatorAlloc_of on serves body
  case die =>
    intro c die n f s on serves far
    exact exec_comparatorAlloc_of on serves (cmpAllocReq_die far)
  case zero =>
    rintro c die n f s on serves hdie rfl
    exact exec_comparatorAlloc_of on serves (cmpAllocReq_zero hdie)
  case many =>
    intro c die n f s on serves hdie many
    exact exec_comparatorAlloc_of on serves (cmpAllocReq_many hdie many)
  case hub =>
    rintro k die n f s on serves rfl count
    exact exec_comparatorAlloc_of on serves (cmpAllocReq_hub k count)
  case free =>
    intro c die n f s on serves hdie hidx own
    exact exec_comparatorFree_of on serves (cmpFreeReq_own hdie hidx own)
  case freeOther =>
    intro c die n f s on serves hdie other
    exact exec_comparatorFree_of on serves (cmpFreeReq_other hdie other)
  case count =>
    intro c d n D f s on serves dom own disarmed
    have frame := changes_steepCount d n.toNat s
    refine ⟨_, exec_steepCountSet_disarmed on serves dom own disarmed, serves.answered (frame.part .mbx (by decide)) {}, ?_,
      (frame.mono (by simp) (by simp)).trans ((changes_mbxReply ..).mono (by simp) (by simp))⟩
    rw [(changes_mbxReply ..).reg _ _ (by decide), Touch.changes cmpCountSet_touch (ps := [.cmp]) (rs := []) (by decide) |>.reg _ _ (by decide), State.reg_setReg_same]
    exact Nat.mod_eq_of_lt (n.isLt.trans (by decide))
  case grid =>
    intro c d k n D a f s on serves dom own disarmed armed domain mode periodic period
    refine ⟨_, exec_steepCountSet_disarmed on serves dom own disarmed, ?_⟩
    rw [mbxReply_touch.cmp' (by decide)]
    exact cmpCountSet_only armed domain mode periodic period
  case armed =>
    intro c d n D f s on serves dom own armed
    exact exec_steepCountSet_armed on serves dom own armed
  case gridAbove => exact gridAbove_spec

end Sys2Proof.Machine
end

section
/-! The Strata log: records on their way into the Kiln, lost ones, time marks and their merging (R474 to R478). -/

namespace Sys2Proof.Machine

open Sys2Proof

/-! The last record's copy in the Kiln, and a record's entry into the queue. -/

/-- Bringing the last record's copy up to date touches the Kiln's slots alone. -/
theorem strataSync_kiln (s : State) : ∃ k, strataSync s = { s with strata := { s.strata with kiln := k } } := by
  unfold strataSync
  split
  · exact ⟨_, rfl⟩
  · dsimp only
    split
    · split <;> exact ⟨_, rfl⟩
    · exact ⟨_, rfl⟩

theorem strataSync_first {s : State} (first : s.strata.last = none) : strataSync s = s := by simp only [strataSync, first]

theorem strataSync_unwritten {s : State} {l : StrataRec} (last : s.strata.last = some l) (unwritten : s.strata.kiln.find (strataSlot l.seq) = none) :
    strataSync s = s := by simp only [strataSync, last, unwritten]

/-- A record numbered as the next one, of this boot. -/
def StrataRec.numbered (r : StrataRec) (s : State) : StrataRec := { r with seq := s.strata.nextSeq, boot := s.bootCount % 65536 }

theorem strataIntake_spec (r : StrataRec) (s : State) : ∃ k, strataIntake r s = { s with strata := { s.strata with
    kiln := k, queue := s.strata.queue ++ [r.numbered s], last := some (r.numbered s), nextSeq := s.strata.nextSeq + 1, used := s.strata.used + 1 } } := by
  obtain ⟨k, hk⟩ := strataSync_kiln s
  refine ⟨k, ?_⟩
  rw [strataIntake, hk]
  rfl

theorem strataIntake_synced {r : StrataRec} {s : State} (synced : strataSync s = s) : strataIntake r s = { s with strata := { s.strata with
    queue := s.strata.queue ++ [r.numbered s], last := some (r.numbered s), nextSeq := s.strata.nextSeq + 1, used := s.strata.used + 1 } } := by
  rw [strataIntake, synced]
  rfl

/-! Records lost. -/

theorem strataLoss_same {s : State} (same : s.strata.second = s.localSec) : strataLoss s = s := if_pos same

/-- The record that tells of `n` lost records, the first of code `c`. -/
def lossRecord (n : Nat) (c : Status) : StrataRec := { kind := .loss, code := St.recordsLost, sev := .warning, a32 := n, a0 := c.toNat }

/-- The Strata log in a new whole second, with nothing lost. -/
def newSecond (s : State) : State := { s with strata := { s.strata with second := s.localSec, used := 0, lostNow := 0 } }

theorem strataLoss_new {s : State} (later : s.strata.second ≠ s.localSec) (lost : 0 < s.strata.lostNow) :
    strataLoss s = strataIntake (lossRecord (min s.strata.lostNow (2 ^ 32 - 1)) s.strata.lostFirst) (newSecond s) := by
  unfold strataLoss
  rw [if_neg later]
  exact if_neg (Nat.ne_of_gt lost)

/-! The commands. -/

theorem exec_strataRecordWrite_of {s : State} (up : MainUp s) : exec .strataRecordWrite s = .next (strataWrite s) := by
  change execStrataRecordWrite s = _
  rw [execStrataRecordWrite, whenMain_of up]

theorem exec_timeMark_of {s : State} (up : MainUp s) : exec .timeMark s = .next (timeMark s) := by
  change execTimeMark s = _
  rw [execTimeMark, whenMain_of up]

/-- The state with local time at the start of the next whole second of the log. -/
def atNextSecond (s : State) : State := s.modPwr (fun p => { p with localNs := max p.localNs ((s.strata.second + 1) * 1000000000) })

theorem exec_strataLossRecord_of {s : State} (up : MainUp s) : exec .strataLossRecord s = .next (if s.strata.lostNow = 0 then s else
    strataLoss (if s.strata.second < s.localSec then s else atNextSecond s)) := by
  change execStrataLossRecord s = _
  rw [execStrataLossRecord, whenMain_of up]
  rfl

/-- In the log's own second, local time before its end comes to that end. -/
theorem atNextSecond_localNs {s : State} (same : s.strata.second = s.localSec) :
    (atNextSecond s).pwr.localNs = (s.strata.second + 1) * 1000000000 := by
  have before : s.pwr.localNs < (s.strata.second + 1) * 1000000000 := by
    rw [same, State.localSec]
    omega
  exact Nat.max_eq_right before.le

theorem atNextSecond_localSec {s : State} (same : s.strata.second = s.localSec) : (atNextSecond s).localSec = s.strata.second + 1 := by
  rw [State.localSec, atNextSecond_localNs same, Nat.mul_div_cancel _ (by decide)]

theorem changes_atNextSecond (s : State) : Changes [.pwr] [] s (atNextSecond s) :=
  Touch.changes (F := 1024) (Touch.upd rfl (.inr rfl)) (by decide)

/-! Writes into the Kiln. -/

/-- What the front record `r` of the queue is written as: with the repeats it has gathered, if it is the last one. -/
def writtenRecord (r : StrataRec) (s : State) : StrataRec :=
  match s.strata.last with
  | some l => if l.seq = r.seq then l else r
  | none => r

theorem strataWrite_front {s : State} {r r' : StrataRec} {q : List StrataRec} (front : s.strata.queue = r :: q) (h : writtenRecord r s = r') :
    strataWrite s = { s with strata := { s.strata with queue := q, kiln := s.strata.kiln.set (strataSlot r'.seq) r' } } := by
  subst h
  unfold strataWrite
  rw [front]
  rfl

/-! New records. -/

/-- A record as it stands in the queue where the second's allowance and the queue have room for it. -/
def strataRoom (r : StrataRec) (s : State) : Prop :=
  s.strata.used < (if r.sev = .fatal ∨ r.sev = .error then 16384 else 16320) ∧ s.strata.queue.length < 1024

/-- A record that is not a repeat and finds room is taken, then Sieve's triggers look at it. -/
theorem logRec_taken {r : StrataRec} {s : State} (same : s.strata.second = s.localSec)
    (fresh : ∀ l, s.strata.last = some l → (decide (r.kind = .event) && l.same r) = false) (room : strataRoom r s) :
    logRec r s = if r.sev = .fatal ∨ r.sev = .error then
      sieveTrigger 2 3 (sieveTrigger 1 3 (sieveTrigger 0 3 (strataIntake r s))) else strataIntake r s := by
  unfold strataRoom at room
  unfold logRec
  rw [strataLoss_same same]
  rcases Option.eq_none_or_eq_some s.strata.last with last | ⟨l, last⟩
  · simp only [last, Bool.false_eq_true, if_false, if_pos room]
  · simp only [last, fresh l last, Bool.false_and, Bool.false_eq_true, if_false, if_pos room]

theorem changes_strataIntake (r : StrataRec) (s : State) : Changes [.strata] [] s (strataIntake r s) :=
  Touch.changes strataIntake_touch (by decide)

theorem sieveTriggers_strata (s : State) : (sieveTrigger 2 3 (sieveTrigger 1 3 (sieveTrigger 0 3 s))).strata = s.strata := by
  rw [sieveTrigger_touch.strata' (by decide), sieveTrigger_touch.strata' (by decide), sieveTrigger_touch.strata' (by decide)]

/-! Time marks. -/

/-- The time mark of a moment. -/
def markRecord (s : State) : StrataRec :=
  { kind := .timeMark, code := 0, sev := .advisory, a32 := ftStatus s, a0 := s.ft.now, a1 := s.ft.now, a2 := s.ft.errBound, a3 := s.localSec }

theorem timeMark_merges {s : State} {l : StrataRec} (same : s.strata.second = s.localSec) (last : s.strata.last = some l) (mark : l.kind = .timeMark)
    (room : l.repeats < 16777215) : timeMark s = strataSync { s with strata := { s.strata with
      last := some { l with a1 := s.ft.now, a3 := s.localSec, repeats := l.repeats + 1 } } } := by
  unfold timeMark
  simp only [strataLoss_same same, last, mark, room, decide_true, Bool.and_self, if_true, Option.map_some]

theorem timeMark_new {s : State} {l : StrataRec} (same : s.strata.second = s.localSec) (last : s.strata.last = some l) (other : l.kind ≠ .timeMark) :
    timeMark s = logRec (markRecord s) s := by
  unfold timeMark
  simp only [strataLoss_same same, last, other, decide_false, Bool.false_and, Bool.false_eq_true, if_false]
  rfl

/-- Settles O36: the log's operations by their equations above, and the slots by arithmetic. -/
theorem strataRecords : Obligations.StrataRecords := by
  refine ⟨?front, ?last, ?empty, ?nothing, ?loss, ?lossNow, ?merge, ?mark, ?event, ?bedrock, ?topsoil⟩
  case front =>
    intro q r s up front apart
    have taken : writtenRecord r s = r := by
      unfold writtenRecord
      cases last : s.strata.last with
      | none => rfl
      | some l =>
        rw [last] at apart
        exact if_neg (fun h => apart.elim (fun k => nomatch k) (fun k => k (congrArg some h)))
    rw [exec_strataRecordWrite_of up, strataWrite_front front taken]
  case last =>
    intro q r l s up front last number
    have taken : writtenRecord r s = l := by
      rw [writtenRecord, last]
      exact if_pos number
    rw [exec_strataRecordWrite_of up, strataWrite_front front taken, number]
  case empty =>
    intro s up empty
    rw [exec_strataRecordWrite_of up, strataWrite, empty]
  case nothing =>
    intro s up nothing
    rw [exec_strataLossRecord_of up, if_pos nothing]
  case loss =>
    intro s up lost bound later first
    rw [exec_strataLossRecord_of up, if_neg (Nat.ne_of_gt lost), if_pos later, strataLoss_new (Nat.ne_of_lt later) lost,
      strataIntake_synced (strataSync_first (s := newSecond s) first), Nat.min_eq_left (by omega)]
    rfl
  case lossNow =>
    intro s up lost same
    have later : (atNextSecond s).strata.second ≠ (atNextSecond s).localSec := by
      rw [atNextSecond_localSec same]
      exact Nat.ne_of_lt (Nat.lt_succ_self _)
    obtain ⟨k, taken⟩ := strataIntake_spec (lossRecord (min s.strata.lostNow (2 ^ 32 - 1)) s.strata.lostFirst) (newSecond (atNextSecond s))
    have loss : strataLoss (atNextSecond s) = _ := strataLoss_new later lost
    have frame : Changes [.strata, .pwr] [] s (strataLoss (atNextSecond s)) :=
      ((changes_atNextSecond s).mono (by simp) (by simp)).trans (Touch.changes strataLoss_touch (by decide))
    refine ⟨_, (exec_strataLossRecord_of up).trans (by rw [if_neg (Nat.ne_of_gt lost), if_neg (by omega)]), ?_, ?_, ?_, ?_, ?_, frame⟩
    · rw [strataLoss_touch.pwr' (by decide) , atNextSecond_localNs same]
    · rw [loss, ← atNextSecond_localSec same]
      exact congrArg (·.strata.second) taken
    · rw [loss]
      exact congrArg (·.strata.lostNow) taken
    · rw [loss]
      exact congrArg (·.strata.used) taken
    · rw [loss]
      exact congrArg (·.strata.nextSeq) taken
  case merge =>
    intro l s up same last mark room unwritten
    rw [exec_timeMark_of up, timeMark_merges same last mark room]
    exact congrArg _ (strataSync_unwritten rfl unwritten)
  case mark =>
    intro l s up same last other unwritten allowance queue
    have room : strataRoom (markRecord s) s := ⟨allowance, queue⟩
    have mild : ¬ (Sev.advisory = .fatal ∨ Sev.advisory = .error) := by decide
    have taken : logRec (markRecord s) s = strataIntake (markRecord s) s := (logRec_taken same (fun _ _ => rfl) room).trans (if_neg mild)
    have queued := strataIntake_synced (r := markRecord s) (strataSync_unwritten last unwritten)
    exact ⟨_, (exec_timeMark_of up).trans (by rw [timeMark_new same last other, taken]), congrArg (·.strata.queue) queued,
      congrArg (·.strata.nextSeq) queued, congrArg (·.strata.used) queued, changes_strataIntake ..⟩
  case event =>
    intro r s same fresh queue allowance
    obtain ⟨k, taken⟩ := strataIntake_spec r s
    have strata : (logRec r s).strata = (strataIntake r s).strata := by
      rw [logRec_taken same (fun l h => by rw [fresh l h, Bool.and_false]) ⟨allowance, queue⟩]
      split
      · exact sieveTriggers_strata _
      · rfl
    refine ⟨?_, ?_, Touch.changes logRec_touch (by decide)⟩
    · rw [strata]
      exact congrArg (·.strata.queue) taken
    · rw [strata]
      exact congrArg (·.strata.nextSeq) taken
  case bedrock => exact fun n bound => if_pos bound
  case topsoil =>
    intro n above
    rw [strataSlot, strataSlot, if_neg (by omega), if_neg (by omega)]
    omega

end Sys2Proof.Machine
end

section
/-! Sieve triggers, the debug port's requests, and the interrupt controllers' small commands (R461 to R466, R472, R486, R488). -/

namespace Sys2Proof.Machine

open Sys2Proof

/-! Triggers. -/

/-- The record of a trigger of cause `bit` that arose on die `orig` (R482). -/
def triggerRecord (bit orig : Nat) (s : State) : SieveRec :=
  { time := s.ft.now, source := 0, loc := !s.ft.valid, payload := .trigger (bit + 1) orig s.ft.now }

/-- The state in which die `die` has taken that trigger (R486). -/
def triggered (die bit orig : Nat) (s : State) : State :=
  { s with sieve := { s.sieve with trig := s.sieve.trig.set die (triggerRecord bit orig s) } }.setFld .sivStatus 31 30 2 die

section
variable {die bit orig : Nat} {s : State}

theorem sieveTrigger_disabled (disabled : natBit (s.reg .sivTrigCause die) bit = false) : sieveTrigger die bit s orig = s :=
  if_neg (fun h => Bool.false_ne_true (disabled.symm.trans h.1))

theorem sieveTrigger_armed (on : On s) (cause : natBit (s.reg .sivTrigCause die) bit = true) (mode : s.fld .sivCtl 2 1 die = 1)
    (arm : s.fld .sivCtl 31 31 die = 1) (runs : s.fld .sivStatus 31 30 die = 1) :
    sieveTrigger die bit s orig =
      if s.fld .sivCtl 30 30 die = 1 then { triggered die bit orig s with frozen := true } else triggered die bit orig s := by
  have ctl : (triggered die bit orig s).fld .sivCtl 30 30 die = s.fld .sivCtl 30 30 die :=
    congrArg (natBits · 30 30) (State.reg_setFld_name _ .sivStatus .sivCtl 31 30 2 die die (by decide))
  rw [sieveTrigger, if_pos ⟨cause, mode⟩, if_pos ⟨arm, runs, on⟩, ← ctl]
  rfl

theorem sieveTrigger_late (cause : natBit (s.reg .sivTrigCause die) bit = true) (mode : s.fld .sivCtl 2 1 die = 1)
    (done : s.fld .sivStatus 31 30 die = 2 ∨ s.fld .sivStatus 31 30 die = 3) : sieveTrigger die bit s orig = s.bump .sivTrigLate die := by
  rw [sieveTrigger, if_pos ⟨cause, mode⟩, if_neg (by omega), if_pos done]

theorem triggered_status : (triggered die bit orig s).fld .sivStatus 31 30 die = 2 := State.fld_setFld_same _ _ _ _ _ _ (by decide)

theorem triggered_wptr : (triggered die bit orig s).fld .sivStatus 18 0 die = s.fld .sivStatus 18 0 die :=
  State.fld_setFld_apart _ _ _ _ _ _ _ _ (by decide) (by decide) (by decide)

theorem triggered_trig : (triggered die bit orig s).sieve.trig.find die = some (triggerRecord bit orig s) := Tab.find_set_same ..

theorem changes_triggered : Changes [.sieve] [.sivStatus] s (triggered die bit orig s) := by
  unfold triggered
  refine Changes.trans ?_ (Touch.changes (setFld_touch ..) (by decide))
  exact Touch.changes (F := 64) (Touch.upd rfl (.inr rfl)) (by decide)

/-- What a trigger taken leaves: the state POST with its record, a freeze where the die asks for one. -/
theorem sieveTrigger_taken (on : On s) (cause : natBit (s.reg .sivTrigCause die) bit = true) (mode : s.fld .sivCtl 2 1 die = 1)
    (arm : s.fld .sivCtl 31 31 die = 1) (runs : s.fld .sivStatus 31 30 die = 1) {t : State} (ht : t = sieveTrigger die bit s orig) :
    t.fld .sivStatus 31 30 die = 2 ∧
    t.sieve.trig.find die = some (triggerRecord bit orig s) ∧
    t.frozen = (s.frozen || s.fld .sivCtl 30 30 die == 1) ∧ t.fld .sivStatus 18 0 die = s.fld .sivStatus 18 0 die ∧
    Changes [.sieve, .frozen] [.sivStatus] s t := by
  have frame := (changes_triggered (die := die) (bit := bit) (orig := orig) (s := s)).mono (ps' := [.sieve, .frozen]) (by simp) (List.Subset.refl _)
  rw [sieveTrigger_armed on cause mode arm runs] at ht
  subst ht
  by_cases freeze : s.fld .sivCtl 30 30 die = 1
  · rw [if_pos freeze, freeze, beq_self_eq_true, Bool.or_true]
    exact ⟨triggered_status, triggered_trig, rfl, triggered_wptr,
      frame.trans (Touch.changes (F := 8192) (Touch.upd rfl (.inr rfl)) (by decide))⟩
  · rw [if_neg freeze, beq_eq_false_iff_ne.2 freeze, Bool.or_false]
    exact ⟨triggered_status, triggered_trig, rfl, triggered_wptr, frame⟩

end

theorem exec_sivTrigNow_of {die : Nat} {v : Word} {s : State} (hdie : die ≤ 2) (up : MainUp s) :
    exec (.sivTrigNow die v) s = .next (sieveTrigger die 4 s) := by
  change execSivTrigNow die v s = _
  rw [execSivTrigNow, if_neg (by omega), whenMain_of up, trigNow]

theorem exec_crossTrigger_of {die o : Nat} {s : State} (hdie : die ≤ 2) (ho : o ≤ 2) (on : On s) :
    exec (.crossTrigger die o) s = .next (if die = o ∨ s.fld .sivStatus 31 30 o < 2 then s else sieveTrigger die 2 s o) := by
  change execCrossTrigger die o s = _
  rw [execCrossTrigger, if_neg (by omega), whenOn_of on]

/-! Requests of the debug port. -/

theorem exec_debugUdpRequest_read {off w : Nat} {v : Word} {s t : State} (up : MainUp s) (h : debugRead .mgmt off s = (w, t)) :
    exec (.debugUdpRequest .read off v) s = .next (t.emit (.debugReply .read off w St.success)) := by
  change execDebugUdpRequest .read off v s = _
  rw [execDebugUdpRequest, whenMain_of up, h]

theorem exec_debugUdpRequest_write {off : Nat} {v : Word} {s : State} (up : MainUp s) : exec (.debugUdpRequest .write off v) s =
    .next ((debugWrite .mgmt off v.toNat s).emit (.debugReply .write off v.toNat St.success)) := by
  change execDebugUdpRequest .write off v s = _
  rw [execDebugUdpRequest, whenMain_of up]

theorem exec_debugUdpRequest_other {off : Nat} {v : Word} {s : State} (up : MainUp s) : exec (.debugUdpRequest .other off v) s =
    .next (s.emit (.debugReply .other off v.toNat St.invalidField)) := by
  change execDebugUdpRequest .other off v s = _
  rw [execDebugUdpRequest, whenMain_of up]

theorem debugRead_accessErr (a : Agent) (s : State) : debugRead a 8 s = (s.reg .dbgAccessErr % 2 ^ 32, s) := rfl

theorem debugRead_misaligned {off : Nat} (h : off % 4 ≠ 0) (a : Agent) (s : State) : debugRead a off s = (0, s.bump .dbgAccessErr) := if_pos h

/-- No register lies in the view of the Kiln. -/
theorem debugReg_kilnView {off : Nat} (h : 0x400000 ≤ off) : debugReg off = none := by
  unfold debugReg
  iterate 6 rw [if_neg (by omega)]

theorem debugWrite_kilnView {off : Nat} (view : 0x400000 ≤ off ∧ off < 0xD00000) (aligned : off % 4 = 0) (a : Agent) (v : Nat) (s : State) :
    debugWrite a off v s = s.bump .strViewWrites := by
  rw [debugWrite, if_neg (by omega), if_neg (by omega), debugReg_kilnView view.1]
  exact if_pos view

/-! Interrupts. -/

theorem exec_eicComplete_of {cl : Nat} {v : Word} {s : State} (hcl : cl ≤ 15) (on : On s) :
    exec (.eicComplete cl v) s = .next (eicComplete cl (v.toNat % 1024) s) := by
  change execEicComplete cl v s = _
  rw [execEicComplete, if_neg (by omega), whenOn_of on]

theorem exec_eicSwi_of {cl : Nat} {v : Word} {s : State} (hcl : cl ≤ 15) (on : On s) :
    exec (.eicSwi cl v) s = .next (eicEvent cl (16 + v.toNat % 32) s) := by
  change execEicSwi cl v s = _
  rw [execEicSwi, if_neg (by omega), whenOn_of on, eicSwi]

theorem exec_irqModerationInterval_of {o : Caller} {e : Nat} {s : State} (on : On s) : exec (.irqModerationInterval o e) s =
    .next (if (s.irqEntry o e).acc = 0 ∨ (s.irqEntry o e).interval = 0 then s else irqSend o e s) := by
  change execIrqModerationInterval o e s = _
  rw [execIrqModerationInterval, whenOn_of on]

/-- The end of an interval with gathered events sends them. -/
theorem exec_irqModerationInterval_sends {o : Caller} {e : Nat} {s : State} (on : On s) (acc : (s.irqEntry o e).acc ≠ 0)
    (interval : (s.irqEntry o e).interval ≠ 0) : exec (.irqModerationInterval o e) s = .next (irqSend o e s) := by
  rw [exec_irqModerationInterval_of on, if_neg (not_or.2 ⟨acc, interval⟩)]

/-- Settles O37: the triggers by `sieveTrigger`'s three cases, the debug port by the register map, the controllers by their bits. -/
theorem triggersAndInterrupts : Obligations.TriggersAndInterrupts := by
  refine ⟨?disabled, ?first, ?late, ?crossIdle, ?cross, ?other, ?read, ?freeze, ?view, ?misaligned, ?complete, ?badComplete, ?swi, ?expiry, ?gathered,
    ?blocked, ?sent⟩
  case disabled =>
    intro die v s hdie up disabled
    rw [exec_sivTrigNow_of hdie up, sieveTrigger_disabled disabled]
  case first =>
    intro die v s hdie on cause mode arm runs
    exact ⟨_, exec_sivTrigNow_of hdie on.mainUp, sieveTrigger_taken on cause mode arm runs rfl⟩
  case late =>
    intro die v s hdie up cause mode done
    rw [exec_sivTrigNow_of hdie up, sieveTrigger_late cause mode done]
  case crossIdle =>
    intro die o s hdie ho on idle
    rw [exec_crossTrigger_of hdie ho on]
    by_cases untouched : die = o ∨ s.fld .sivStatus 31 30 o < 2
    · rw [if_pos untouched]
    · have disabled := (or_assoc.2 idle).resolve_left untouched
      rw [if_neg untouched, sieveTrigger_disabled disabled]
  case cross =>
    intro die o s hdie ho on apart triggered cause mode arm runs
    have done : exec (.crossTrigger die o) s = .next (sieveTrigger die 2 s o) := by
      rw [exec_crossTrigger_of hdie ho on, if_neg (not_or.2 ⟨apart, Nat.not_lt.2 triggered⟩)]
    obtain ⟨status, record, -, -, frame⟩ := sieveTrigger_taken (orig := o) on cause mode arm runs rfl
    exact ⟨_, done, status, record, frame⟩
  case other => exact fun off v s up => exec_debugUdpRequest_other up
  case read => exact fun v s up => exec_debugUdpRequest_read up (debugRead_accessErr .mgmt s)
  case freeze =>
    rintro v s up rfl
    exact exec_debugUdpRequest_write up
  case view =>
    intro off v s up view aligned
    rw [exec_debugUdpRequest_write up, debugWrite_kilnView view aligned]
  case misaligned =>
    intro off v s up misaligned
    exact exec_debugUdpRequest_read up (debugRead_misaligned misaligned .mgmt s)
  case complete =>
    intro cl v s hcl on source active
    have done : eicComplete cl (v.toNat % 1024) s = s.setEicBit .eicActive cl (v.toNat % 1024) false := if_pos ⟨source, active⟩
    refine ⟨_, exec_eicComplete_of hcl on, ?_, fun x hx apart => ?_, ?_⟩
    · rw [done, eicBit_setEicBit rfl _ _ _ _ _ _ source source, if_pos ⟨rfl, rfl⟩]
    · rw [done, eicBit_setEicBit rfl _ _ _ _ _ _ source hx, if_neg (fun h => apart h.2)]
    · rw [done]
      exact Touch.changes (setFld_touch ..) (by decide)
  case badComplete =>
    intro cl v s hcl on bad
    have bad' : ¬ (v.toNat % 1024 < 256 ∧ s.eicBit .eicActive cl (v.toNat % 1024) = true) := by
      rintro ⟨source, active⟩
      rcases bad with far | inactive
      · omega
      · exact Bool.false_ne_true (inactive.symm.trans active)
    rw [exec_eicComplete_of hcl on, eicComplete, if_neg bad']
  case swi =>
    intro cl v s hcl on
    refine ⟨_, exec_eicSwi_of hcl on, ?_, fun x hx apart => ?_, Touch.changes eicEvent_touch (by decide)⟩
    · rw [eicBit_eicEvent _ _ _ _ _ (by omega) (by omega), if_pos ⟨rfl, rfl⟩]
    · rw [eicBit_eicEvent _ _ _ _ _ (by omega) hx, if_neg (fun h => apart h.2)]
  case expiry =>
    intro cl src s hcl hsrc on
    change execEicModerationExpiry cl src s = _
    rw [execEicModerationExpiry, if_neg (by omega), whenOn_of on]
  case gathered =>
    intro o e s on nothing
    rw [exec_irqModerationInterval_of on, if_pos nothing]
  case blocked =>
    intro o e s on acc interval blocked
    rw [exec_irqModerationInterval_sends on acc interval]
    exact congrArg _ (if_pos blocked)
  case sent =>
    intro o e s on acc interval clear
    rw [exec_irqModerationInterval_sends on acc interval]
    exact congrArg _ (if_neg (by rw [clear]; exact Bool.false_ne_true))

end Sys2Proof.Machine
end

section
/-! The firmware's services: crashes, holding down, restarts, and the firmware's log (R266 to R269, R446, R447). -/

namespace Sys2Proof.Machine

open Sys2Proof

/-! Services by themselves. -/

theorem service_of_fw {s t : State} (h : t.fw = s.fw) (n : Nat) : t.service n = s.service n := by
  simp only [State.service, h]

theorem service_setService (s : State) (n : Nat) (v : Service) : (setService n v s).service n = v := Tab.get_set_same ..

theorem fld_of_changes {ps : List Part} {rs : List RegName} {s t : State} (h : Changes ps rs s t) {n : RegName} (other : n ∉ rs) (hi lo i : Nat) :
    t.fld n hi lo i = s.fld n hi lo i := congrArg (natBits · hi lo) (h.reg n i other)

/-- A service's bit of HUB_EMU_STATUS after it has been written. -/
theorem fld_setStale {n : Nat} (h : n ≤ 13) (b : Bool) (s : State) : (setStale n b s).fld .hubEmuStatus n n = if b = true then 1 else 0 := by
  have width : RegName.hubEmuStatus.info.width = 32 := rfl
  have small : (if b = true then 1 else 0) % 2 ^ (n + 1 - n) = if b = true then 1 else 0 := by
    rw [Nat.add_sub_cancel_left]
    cases b <;> rfl
  unfold setStale
  dsimp only
  split
  · rw [State.fld_setFld_apart _ _ _ _ _ _ _ _ (by omega) (by omega) (by omega), State.fld_setFld_same _ _ _ _ _ _ (by omega), small]
  · rw [State.fld_setFld_same _ _ _ _ _ _ (by omega), small]

theorem serviceOf_le {n : Nat} (h : n ≤ 13) : serviceOf n ≤ 13 := by
  unfold serviceOf
  split
  · omega
  · split <;> omega

/-! A crash. -/

/-- The crashes of the last ten minutes before `now`. -/
abbrev recentCrashes (v : Service) (now : Nat) : List Nat := v.crashes.filter (fun t => decide (now ≤ t + 600000000000))

/-- The service `n` that has crashed at `now`. -/
def crashed (n now : Nat) (s : State) : Service :=
  { s.service n with crashes := (now :: recentCrashes (s.service n) now).take 4, state := .restarting }

/-- The crash in the log. -/
def crashLogged (n : Nat) (cause : CrashCause) (pc : Word) (s : State) : State :=
  logRec { code := St.serviceCrash, sev := .error, inst := n, a32 := n, a0 := (s.service n).core, a1 := crashNum cause, a2 := pc.toNat } s

/-- The service's core stopped, its registers stale. -/
def crashStopped (n : Nat) (cause : CrashCause) (pc : Word) (s : State) : State :=
  setStale n true (setService n (crashed n (crashLogged n cause pc s).pwr.localNs s)
    ((crashLogged n cause pc s).modCore (256 + (s.service n).core) (fun c => { c with run := .stopped })))

/-- The crash as it stands before what follows from it: without its service, a hot package is held at the floor (R501). -/
def crashNoted (n : Nat) (cause : CrashCause) (pc : Word) (s : State) : State :=
  if n = svcPower ∧ 105 ≤ (crashStopped n cause pc s).fld .pwrTj 7 0 then (crashStopped n cause pc s).modPwr (fun p => { p with floorSvc := true })
  else crashStopped n cause pc s

section
variable {n : Nat} {cause : CrashCause} {pc : Word} {s : State}

theorem watchdogFire_idle (idle : (s.service n).state ≠ .running) (b : Bool) : watchdogFire n cause pc b s = s := if_pos idle

theorem crashLogged_localNs : (crashLogged n cause pc s).pwr.localNs = s.pwr.localNs := congrArg Power.localNs (logRec_touch.pwr' (by decide))

/-- The fourth crash within ten minutes. -/
theorem watchdogFire_holds (runs : (s.service n).state = .running) (often : 3 ≤ (recentCrashes (s.service n) s.pwr.localNs).length) (b : Bool) :
    watchdogFire n cause pc b s = holdDown n (crashNoted n cause pc s) := by
  rw [watchdogFire, if_neg (not_not.2 runs)]
  dsimp only
  rw [← crashLogged_localNs (n := n) (cause := cause) (pc := pc)] at often
  exact if_pos often

/-- An earlier crash, on the service's own core. -/
theorem watchdogFire_restarts (runs : (s.service n).state = .running) (rare : (recentCrashes (s.service n) s.pwr.localNs).length < 3) :
    watchdogFire n cause pc false s =
      if n = svcMailbox then crashNoted n cause pc s else retryRequests n (crashNoted n cause pc s) := by
  rw [watchdogFire, if_neg (not_not.2 runs)]
  dsimp only
  rw [← crashLogged_localNs (n := n) (cause := cause) (pc := pc)] at rare
  exact if_neg (Nat.not_le.2 rare)

theorem changes_crashNoted : Changes [.pwr] [] (crashStopped n cause pc s) (crashNoted n cause pc s) := by
  unfold crashNoted
  split
  · exact Touch.changes (F := 1024) (Touch.upd rfl (.inr rfl)) (by decide)
  · exact (Changes.refl _).mono (by simp) (by simp)

theorem crashNoted_service : (crashNoted n cause pc s).service n = crashed n s.pwr.localNs s := by
  rw [service_of_fw (changes_crashNoted.part .fw (by decide)), crashStopped, service_of_fw (setStale_touch.fw' (by decide)), service_setService,
    crashLogged_localNs]

theorem crashNoted_core : ((crashNoted n cause pc s).core (256 + (s.service n).core)).run = .stopped := by
  rw [core_of_cores (changes_crashNoted.part .cores (by decide)), crashStopped, core_of_cores (setStale_touch.cores' (by decide)),
    core_of_cores (setService_touch.cores' (by decide)), core_modCore, if_pos rfl]

theorem crashNoted_stale (h : n ≤ 13) : (crashNoted n cause pc s).fld .hubEmuStatus n n = 1 :=
  (fld_of_changes changes_crashNoted (by decide) ..).trans (fld_setStale h true _)

theorem crashNoted_on (on : On s) : On (crashNoted n cause pc s) := by
  have logged : (crashLogged n cause pc s).pwr.state = s.pwr.state := logRec_touch.pwrState (by decide)
  rw [On, changes_crashNoted.part .pwrState (by decide), crashStopped, setStale_touch.pwrState (by decide), setService_touch.pwrState (by decide)]
  exact logged.trans on

end

/-! Holding down. -/

theorem essential_iff (n : Nat) : essential n = true ↔ n < 5 := decide_eq_true_iff

/-- Any other service is held down, and its requests are answered. -/
theorem changes_holdDown {n : Nat} (other : 5 ≤ n) (s : State) :
    Changes [.mbx, .irq, .out] [] (setService n { s.service n with state := .heldDown } s) (holdDown n s) := by
  have dispensable : ¬ essential n = true := by
    rw [essential_iff]
    omega
  unfold holdDown
  dsimp only
  rw [if_neg dispensable]
  refine Touch.changes (F := 134218368) (Touch.foldl (Touch.refl _ _) (fun t p h => ?_)) (by decide)
  split
  · exact Touch.ite (h.trans mbxReply_touch) h
  · exact h

/-- The device ON enters Hardpan, with its cause in PWR_HARDPAN (R504). -/
theorem enterHardpan_of {code : Status} {s : State} (on : On s) (a32 : Nat) :
    ∃ u : State, enterHardpan code s a32 = (irqSend .pf1 0 (irqSend .pf0 0 (setAlert 4 (u.setReg .pwrHardpan (code.toNat * 65536 + 1))))).modPwr
      (fun p => { p with state := .hardpan }) := by
  have on' : On (log code .fatal s (a32 := a32)) := (log_touch.pwrState (by decide)).trans on
  unfold enterHardpan
  dsimp only
  rw [if_neg (not_not.2 on')]
  exact ⟨_, rfl⟩

theorem enterHardpan_hardpan {code : Status} {s : State} (on : On s) (a32 : Nat) : (enterHardpan code s a32).pwr.state = .hardpan ∧
    (enterHardpan code s a32).reg .pwrHardpan = code.toNat * 65536 + 1 := by
  obtain ⟨u, entered⟩ := enterHardpan_of (code := code) on a32
  have alert (v : State) : Changes [.mbx, .irq, .out] [.pwrAlert] v (irqSend .pf1 0 (irqSend .pf0 0 (setAlert 4 v))) :=
    Changes.trans (Touch.changes setAlert_touch (by decide)) (Changes.trans (Touch.changes irqSend_touch (by decide)) (Touch.changes irqSend_touch (by decide)))
  have bound := code.isLt
  rw [entered]
  refine ⟨rfl, ?_⟩
  refine ((alert _).reg .pwrHardpan 0 (by decide)).trans ((State.reg_setReg_same ..).trans (Nat.mod_eq_of_lt ?_))
  change _ < 2 ^ 32
  omega

/-- An essential service that cannot be kept up brings Hardpan (R269). -/
theorem holdDown_essential {n : Nat} (h : n < 5) (s : State) :
    holdDown n s = enterHardpan St.serviceDown (setService n { s.service n with state := .heldDown } s) (a32 := n) :=
  if_pos ((essential_iff n).2 h)

/-! A start. -/

/-- A service's state and registers as it runs again, before requests that it had taken are answered. -/
def serviceUp (n : Nat) (s : State) : State :=
  (setStale n false (setService n { s.service n with state := .running } s)).modCore (256 + (s.service n).core) (fun c => { c with run := .running })

theorem changes_serviceStarts (n : Nat) (s : State) : Changes [.mbx, .irq, .out, .pwr] [] (serviceUp n s) (serviceStarts n s) := by
  unfold serviceStarts serviceUp
  dsimp only
  refine Touch.changes (F := 134218368 + 1024) (Touch.ite ?_ ?_) (by decide)
  · refine Touch.step retryRequests_touch rfl ?_
    exact Touch.ite ((modPwr_touch rfl).mono rfl) (Touch.refl _ _)
  · exact Touch.ite ((modPwr_touch rfl).mono rfl) (Touch.refl _ _)

/-- A service that starts runs, its registers current, on a core that runs. -/
theorem serviceStarts_spec {n : Nat} (h : n ≤ 13) (s : State) :
    (serviceStarts n s).service n = { s.service n with state := .running } ∧ (serviceStarts n s).fld .hubEmuStatus n n = 0 ∧
      ((serviceStarts n s).core (256 + (s.service n).core)).run = .running := by
  have frame := changes_serviceStarts n s
  refine ⟨?_, (fld_of_changes frame (by decide) ..).trans (fld_setStale h false _), ?_⟩
  · rw [service_of_fw (frame.part .fw (by decide)), serviceUp, service_of_fw (modCore_touch.fw' (by decide)), service_of_fw (setStale_touch.fw' (by decide)),
      service_setService]
  · rw [core_of_cores (frame.part .cores (by decide)), serviceUp, core_modCore, if_pos rfl]

/-! The commands. -/

theorem exec_watchdogFire_of {n : Nat} {cause : CrashCause} {pc : Word} {b : Bool} {s : State} (h : n ≤ 13) (on : On s) :
    exec (.watchdogFire n cause pc b) s = .next (watchdogFire (serviceOf n) cause pc b s) := by
  change execWatchdogFire n cause pc b s = _
  rw [execWatchdogFire, if_neg (by omega), whenOn_of on]

theorem exec_serviceRestartComplete_of {n : Nat} {s : State} (h : n ≤ 13) (on : On s) : exec (.serviceRestartComplete n) s =
    .next (if (s.service (serviceOf n)).state = .restarting then serviceStarts (serviceOf n) s else s) := by
  change execServiceRestartComplete n s = _
  rw [execServiceRestartComplete, if_neg (by omega), whenOn_of on]

theorem exec_serviceRestart_of {c : Caller} {n : Nat} {f : Frame} {s t : State} {r : Reply} (on : On s) (serves : Serves c 0x1009 f s)
    (h : serviceRestartReq n s = (some r, t)) : exec (.serviceRestart c n) s = .next (mbxReply c r t) := by
  change execServiceRestart c n s = _
  rw [execServiceRestart, whenOn_of on, mbxServe_replies serves h]

theorem serviceRestartReq_none {n : Nat} (h : 13 < n ∨ n = 7 ∨ n = 11) (s : State) : serviceRestartReq n s = refuseAt 0x1009 0 St.invalidField s :=
  if_pos h

theorem serviceRestartReq_up {n : Nat} {s : State} (h : n ≤ 13 ∧ n ≠ 7 ∧ n ≠ 11) (up : (s.service n).state ≠ .heldDown) : serviceRestartReq n s = accept s := by
  rw [serviceRestartReq, if_neg (by omega), if_neg up]

theorem serviceRestartReq_down {n : Nat} {s : State} (h : n ≤ 13 ∧ n ≠ 7 ∧ n ≠ 11) (down : (s.service n).state = .heldDown) :
    serviceRestartReq n s = accept (serviceStarts n (setService n { s.service n with crashes := [] } s)) := by
  rw [serviceRestartReq, if_neg (by omega), if_pos down]

/-! The firmware's log. -/

theorem exec_logRead_of {c : Caller} {a n b : Nat} {f : Frame} {s t : State} {r : Reply} (on : On s) (serves : Serves c 0x1008 f s)
    (h : logReadReq c a n b f s = (some r, t)) : exec (.logRead c a n b) s = .next (mbxReply c r t) := by
  change execLogRead c a n b s = _
  rw [execLogRead, whenOn_of on, mbxServe_replies serves h]

section
variable {c : Caller} {a n b : Nat} {f : Frame} {s : State}

theorem logReadReq_many (indirect : indirectRefusal c f s = none) (many : 16384 < n) : logReadReq c a n b f s = refuseAt 0x1008 1 St.lenTooLarge s := by
  unfold logReadReq
  rw [indirect]
  dsimp only
  rw [if_neg (by omega), if_pos many]

/-- The records asked for, from the first of them on, are copied to the buffer. -/
theorem logReadReq_records {r : LogRec} {l : List LogRec} (indirect : indirectRefusal c f s = none) (count : 0 < n ∧ n ≤ 16384)
    (records : (s.fw.log.filter (fun r => decide (a ≤ r.seq))).take n = r :: l) (buffer : bufferRefusal c b (64 * (r :: l).length) false s = none) :
    logReadReq c a n b f s = accept (s.store (callerSpace c b) b ((r :: l).map LogRec.bytes).flatten) [r.seq, (r :: l).length] := by
  unfold logReadReq
  rw [indirect]
  dsimp only
  rw [if_neg (by omega), if_neg (by omega), records, buffer]

end

end Sys2Proof.Machine
end

section
/-! Orderly shutdown and the restart of the device, and what a service's crash, restart and log give together (R269, R453). -/

namespace Sys2Proof.Machine

open Sys2Proof

/-! The freeze of the array through reports. -/

theorem sieveTrigger_frozen {die bit orig : Nat} {s : State} (frozen : s.frozen = true) : (sieveTrigger die bit s orig).frozen = true := by
  unfold sieveTrigger
  split
  · split
    · dsimp only
      split
      · rfl
      · exact frozen
    · split <;> exact frozen
  · exact frozen

/-- A report changes the log, then Sieve's triggers may look at it. -/
theorem logRec_of (r : StrataRec) (s : State) : ∃ u, Changes [.strata] [] s u ∧ logRec r s =
    if r.sev = .fatal ∨ r.sev = .error then sieveTrigger 2 3 (sieveTrigger 1 3 (sieveTrigger 0 3 u)) else u := by
  unfold logRec
  refine ⟨_, ?_, rfl⟩
  have start : Touch 32 s (strataLoss s) := strataLoss_touch
  exact Touch.changes (Touch.ite (start.trans (Touch.upd rfl (.inr rfl)))
    (Touch.ite (start.trans strataIntake_touch) (start.trans (Touch.upd rfl (.inr rfl))))) (by decide)

theorem logRec_frozen {r : StrataRec} {s : State} (frozen : s.frozen = true) : (logRec r s).frozen = true := by
  obtain ⟨u, frame, logged⟩ := logRec_of r s
  have still : u.frozen = true := (frame.part .frozen (by decide)).trans frozen
  rw [logged]
  split
  · exact sieveTrigger_frozen (sieveTrigger_frozen (sieveTrigger_frozen still))
  · exact still

theorem setKw_frozen {s : State} (frozen : s.frozen = true) (w v : Nat) : (s.setKw w v).frozen = true := by
  unfold State.setKw
  split
  · exact frozen
  · by_cases change : v = s.kw w
    · rw [change, keepAccept_same]
      exact frozen
    · rw [keepAccept_of_change change]
      split
      · exact logRec_frozen frozen
      · split
        · exact logRec_frozen frozen
        · exact frozen

/-! Keep words that firmware writes. -/

theorem keepWord_setKw_other {x w : Nat} (h : x ≠ w) (s : State) (v : Nat) : (s.setKw w v).keepWord x = s.keepWord x := by
  unfold State.setKw
  split
  · rfl
  · by_cases change : v = s.kw w
    · rw [change, keepAccept_same]
    · rw [keepAccept_keepWord change, if_neg h]

theorem kw_setKw {s : State} {w : Nat} (fresh : (s.keepWord w).changes < keepRated) (v : Nat) : (s.setKw w v).kw w = v := by
  rw [State.setKw, if_neg (Nat.not_le.2 fresh)]
  by_cases change : v = s.kw w
  · rw [change, keepAccept_same]
  · rw [State.kw, keepAccept_keepWord change, if_pos rfl]

/-! Orderly shutdown. -/

/-- The device ON with new requests refused, its array frozen, what it has accepted journaled and the log's last record brought up to date. -/
def stoodStill (s : State) : State := strataSync (journalAll { s.modFw (fun w => { w with shutDown := true }) with frozen := true })

theorem orderlyShutdown_on {s : State} (on : On s) : orderlyShutdown s =
    (if calm (stoodStill s) = true then (stoodStill s).setKw kEmerg 0 else stoodStill s).setKw kShutdown
      (Nat.lor ((if calm (stoodStill s) = true then (stoodStill s).setKw kEmerg 0 else stoodStill s).kw kShutdown) 1) := by
  have on' : On (s.modFw (fun w => { w with shutDown := true })) := on
  unfold orderlyShutdown
  dsimp only
  rw [if_pos on']
  rfl

theorem orderlyShutdown_shutDown (s : State) : (orderlyShutdown s).fw.shutDown = true := by
  unfold orderlyShutdown
  dsimp only
  rw [setKw_touch.fw' (by decide)]
  have still (u : State) (h : u.fw.shutDown = true) : (if calm u = true then u.setKw kEmerg 0 else u).fw.shutDown = true := by
    split
    · rw [setKw_touch.fw' (by decide), h]
    · exact h
  apply still
  rw [strataSync_touch.fw' (by decide)]
  split
  · rw [journalAll_touch.fw' (by decide)]
    rfl
  · rfl

theorem stoodStill_frozen (s : State) : (stoodStill s).frozen = true := by
  rw [stoodStill, strataSync_touch.frozen' (by decide), journalAll_touch.frozen' (by decide)]

theorem keepWord_stoodStill (s : State) (w : Nat) : (stoodStill s).keepWord w = s.keepWord w := by
  rw [stoodStill, keepWord_of_keep (strataSync_touch.keep' (by decide)), keepWord_of_keep (journalAll_touch.keep' (by decide))]
  rfl

theorem orderlyShutdown_frozen {s : State} (on : On s) : (orderlyShutdown s).frozen = true := by
  rw [orderlyShutdown_on on]
  apply setKw_frozen
  split
  · exact setKw_frozen (stoodStill_frozen s) ..
  · exact stoodStill_frozen s

/-- KEEP_SHUTDOWN stands unless the word is worn out. -/
theorem orderlyShutdown_kept {s : State} (on : On s) (fresh : (s.keepWord kShutdown).changes < keepRated) :
    natBit ((orderlyShutdown s).kw kShutdown) 0 = true := by
  have word : (if calm (stoodStill s) = true then (stoodStill s).setKw kEmerg 0 else stoodStill s).keepWord kShutdown = s.keepWord kShutdown := by
    split
    · rw [keepWord_setKw_other (by decide), keepWord_stoodStill]
    · exact keepWord_stoodStill ..
  rw [orderlyShutdown_on on, kw_setKw (by rw [word]; exact fresh), natBit_eq_testBit]
  exact (Nat.testBit_or ..).trans (Bool.or_true _)

theorem exec_shutdown_of {c : Caller} {f : Frame} {s : State} (on : On s) (serves : Serves c 0x100A f s) :
    exec (.shutdown c) s = .next (mbxReply c {} (orderlyShutdown s)) := by
  change execShutdown c s = _
  rw [execShutdown, whenMain_of on.mainUp, mbxServe_replies serves rfl]

/-! Memory that a cold start leaves. -/

/-- A byte whose key is dropped from memory reads blank. -/
theorem Memory.read_filter_dropped (p : Nat → Bool) (m : Memory) (a : Nat) (h : p a = false) :
    Memory.read (m.filter (fun c => p c.1)) a = Memory.blank := by
  induction m with
  | nil => rfl
  | cons c r ih =>
    rw [List.filter_cons]
    split
    · next kept =>
      have apart : a ≠ c.1 := by
        rintro rfl
        exact Bool.false_ne_true (h.symm.trans kept)
      rw [Memory.read, if_neg apart, ih, ite_self]
    · exact ih

theorem Memory.readN_of_blank {m : Memory} {a n : Nat} (h : ∀ j, a ≤ j → j < a + n → Memory.read m j = Memory.blank) :
    Memory.readN m a n = List.replicate n Memory.blank := by
  induction n generalizing a with
  | zero => rfl
  | succ n ih =>
    rw [Memory.readN, h a (by omega) (by omega), ih (fun j low high => h j (by omega) (by omega)), List.replicate_succ]

/-- No cell of the array map survives. -/
theorem survives_array {k : Nat} (h : k < 2 ^ 72) : survives k = false := by
  unfold survives
  rw [Nat.div_eq_of_lt h]
  rfl

theorem bytes_of_survivors {s t : State} (h : t.mem = s.mem.filter (fun c => survives c.1)) {a n : Nat} (bound : a + n ≤ 2 ^ 72) :
    t.bytes .array a n = List.replicate n 0 := by
  rw [State.bytes, h, Space.key, Space.base, Nat.zero_add]
  exact Memory.readN_of_blank (fun j _ high => Memory.read_filter_dropped survives _ j (survives_array (by omega)))

/-! The start. -/

/-- What a cold start does not find again. -/
theorem coldFields_blank (s : State) : On (coldFields s) ∧ (coldFields s).cores = [] ∧ (coldFields s).doms = [] ∧ (coldFields s).mbx = [] ∧
    (coldFields s).slices = [] ∧ (coldFields s).fw.shutDown = false ∧ (coldFields s).fw.released = false :=
  ⟨rfl, rfl, rfl, rfl, rfl, rfl, rfl⟩

theorem coldFields_mem (s : State) : (coldFields s).mem = s.mem.filter (fun c => survives c.1) := rfl

/-- What a cold start sets after it has found the surviving fields. -/
abbrev coldFoot : Nat := 2 ^ 25 + 2 ^ 11 + 2 ^ 10 + regFoot .pciRpActive + regFoot .pciRpStatus + regFoot .keepWorn + regFoot .keepFrozenWords

theorem changes_coldStart (s : State) :
    Changes [.net, .ft, .pwr] [.pciRpActive, .pciRpStatus, .keepWorn, .keepFrozenWords] (coldFields s) (coldStart s) := by
  refine Touch.changes (F := coldFoot) ?_ (by decide)
  unfold coldStart
  extract_lets s1 s2 s3 s4 s5 s6 s7
  have active : Touch coldFoot s1 s2 := Touch.step (setReg_touch ..) rfl (Touch.refl _ _)
  have status : Touch coldFoot s1 s3 := Touch.foldl active (fun t x h => Touch.ite (Touch.step (setFld_touch ..) rfl h) h)
  have modes : Touch coldFoot s1 s4 := Touch.step portModes_touch rfl status
  have tdp : Touch coldFoot s1 s5 := Touch.step (modPwr_touch rfl) rfl modes
  have worn : Touch coldFoot s1 s6 := Touch.step (setReg_touch ..) rfl tdp
  have frozen : Touch coldFoot s1 s7 := Touch.step (setReg_touch ..) rfl worn
  exact Touch.ite frozen (Touch.step modFt_touch rfl frozen)

/-- From the surviving fields a start changes only what the keep words, the self-tests and the boot's records give. -/
theorem changes_startUp (s : State) : Changes [.net, .ft, .pwr, .keep, .strata, .sieve, .frozen]
    [.pciRpActive, .pciRpStatus, .keepWorn, .keepFrozenWords, .secStatus, .sivStatus, .sivTrigLate] (coldFields s) (startUp s) := by
  unfold startUp
  refine ((changes_coldStart s).mono (by simp) (by simp)).trans (Changes.trans ?_ (Touch.changes bootActions_touch (by decide)))
  exact Touch.changes (setFld_touch _ .secStatus 1 0 1 0) (by decide)

/-! The restart. -/

theorem changes_restart (s : State) : Changes [.net, .ft, .pwr, .keep, .strata, .sieve, .frozen]
    [.pciRpActive, .pciRpStatus, .keepWorn, .keepFrozenWords, .secStatus, .sivStatus, .sivTrigLate]
    (coldFields (persistAll (strataFlush s))) (restart s) := by
  unfold restart
  exact (changes_startUp _).trans (Touch.changes (F := 1024) (Touch.upd rfl (.inr rfl)) (by decide))

/-- Local time and the pins go on (R453). -/
theorem restart_pwr (s : State) : (restart s).pwr.localNs = s.pwr.localNs ∧ (restart s).pwr.perstN = s.pwr.perstN := ⟨rfl, rfl⟩

theorem restart_mem (s : State) : (restart s).mem = s.mem.filter (fun c => survives c.1) := by
  rw [(changes_restart s).part .mem (by decide), coldFields_mem, persistAll_touch.mem' (by decide), strataFlush_touch.mem' (by decide)]

/-- The state that a DEVICE_RESTART shuts down in order before it restarts. -/
def restartable (c : Caller) (s : State) : State := mbxReply c {} (orderlyShutdown (disarmAll s))

theorem restartable_shutDown (c : Caller) (s : State) : (restartable c s).fw.shutDown = true := by
  rw [restartable, mbxReply_touch.fw' (by decide), orderlyShutdown_shutDown]

theorem restartable_pwr (c : Caller) (s : State) : (restartable c s).pwr = s.pwr := by
  rw [restartable, mbxReply_touch.pwr' (by decide), orderlyShutdown_touch.pwr' (by decide), disarmAll_touch.pwr' (by decide)]

section
variable {c : Caller} {b : Bool} {f : Frame} {s : State}

theorem exec_deviceRestart_of (on : On s) : exec (.deviceRestart c b) s = .next (deviceRestart c b s) := by
  change execDeviceRestart c b s = _
  rw [execDeviceRestart, whenOn_of on]

/-- Armed domains refuse a restart that is not forced. -/
theorem deviceRestart_armed (serves : Serves c 0x100B f s) (armed : armedDomains s ≠ []) :
    deviceRestart c false s = mbxReply c { status := St.domainArmed } s := by
  have same : (mbxReply c { status := St.domainArmed } s).fw = s.fw := mbxReply_touch.fw' (by decide)
  have stays : ¬ ((mbxReply c { status := St.domainArmed } s).fw.shutDown = true ∧ ¬ s.fw.shutDown = true) := by
    rw [same]
    exact fun h => h.2 h.1
  unfold deviceRestart
  rw [mbxServe_replies serves (if_pos ⟨armed, rfl⟩)]
  exact if_neg stays

theorem deviceRestart_taken (serves : Serves c 0x100B f s) (may : armedDomains s = [] ∨ b = true) (running : s.fw.shutDown = false) :
    deviceRestart c b s = restart (restartable c s) := by
  have unrefused : ¬ (armedDomains s ≠ [] ∧ b = false) := by
    rintro ⟨armed, unforced⟩
    rcases may with none_ | forced
    · exact armed none_
    · exact Bool.false_ne_true (unforced.symm.trans forced)
  unfold deviceRestart
  rw [mbxServe_replies serves (if_neg unrefused)]
  exact if_pos ⟨restartable_shutDown c s, by rw [running]; exact Bool.false_ne_true⟩

end

/-- Settles O40: crashes by `watchdogFire`'s two cases, starts by `serviceStarts_spec`, the shutdown by its steps, the restart by the frame of a start. -/
theorem servicesAndShutdown : Obligations.ServicesAndShutdown := by
  refine ⟨?idle, ?restarts, ?heldDown, ?hardpan, ?notRestarting, ?complete, ?noService, ?up, ?down, ?log, ?logMany, ?shutdown, ?armed, ?restart⟩
  case idle =>
    intro n cz pc b s hn on idle
    rw [exec_watchdogFire_of hn on, watchdogFire_idle idle]
  case restarts =>
    intro n cz pc s hn on runs rare
    have frame : Changes [.mbx, .irq, .out] [] (crashNoted (serviceOf n) cz pc s) (watchdogFire (serviceOf n) cz pc false s) := by
      rw [watchdogFire_restarts runs rare]
      split
      · exact (Changes.refl _).mono (by simp) (by simp)
      · exact Touch.changes retryRequests_touch (by decide)
    have service := (service_of_fw (frame.part .fw (by decide)) (serviceOf n)).trans crashNoted_service
    refine ⟨_, exec_watchdogFire_of hn on, congrArg Service.state service, (congrArg Service.core service).trans rfl, ?_, ?_,
      (fld_of_changes frame (by decide) ..).trans (crashNoted_stale (serviceOf_le hn)), (frame.part .pwrState (by decide)).trans (crashNoted_on on)⟩
    · refine (congrArg Service.crashes service).trans (List.take_of_length_le ?_)
      exact Nat.succ_le_succ (Nat.le_of_lt rare)
    · rw [core_of_cores (frame.part .cores (by decide))]
      exact crashNoted_core
  case heldDown =>
    intro n cz pc b s hn on runs other often
    have frame := changes_holdDown other (crashNoted (serviceOf n) cz pc s)
    refine ⟨_, (exec_watchdogFire_of hn on).trans (by rw [watchdogFire_holds runs often]), ?_, ?_⟩
    · rw [service_of_fw (frame.part .fw (by decide)), service_setService]
    · exact (frame.part .pwrState (by decide)).trans (crashNoted_on on)
  case hardpan =>
    intro n cz pc b s hn on runs often
    have self : serviceOf n = n := by
      rw [serviceOf, if_neg (by omega), if_neg (by omega)]
    rw [self] at runs often
    have on' : On (setService n { (crashNoted n cz pc s).service n with state := .heldDown } (crashNoted n cz pc s)) := crashNoted_on on
    refine ⟨_, (exec_watchdogFire_of (by omega) on).trans (by rw [self, watchdogFire_holds runs often, holdDown_essential hn]), enterHardpan_hardpan on' n⟩
  case notRestarting =>
    intro n s hn on idle
    rw [exec_serviceRestartComplete_of hn on, if_neg idle]
  case complete =>
    intro n s hn on restarting
    exact ⟨_, (exec_serviceRestartComplete_of hn on).trans (by rw [if_pos restarting]), serviceStarts_spec (serviceOf_le hn) s⟩
  case noService =>
    intro c n f s on serves unknown
    exact exec_serviceRestart_of on serves (serviceRestartReq_none unknown s)
  case up =>
    intro c n f s on serves known up
    exact exec_serviceRestart_of on serves (serviceRestartReq_up known up)
  case down =>
    intro c n f s on serves known down
    obtain ⟨service, current, runs⟩ := serviceStarts_spec known.1 (setService n { s.service n with crashes := [] } s)
    rw [service_setService] at service runs
    refine ⟨_, exec_serviceRestart_of on serves (serviceRestartReq_down known down), ?_, ?_, ?_⟩
    · rw [service_of_fw (mbxReply_touch.fw' (by decide)), service]
    · rw [fld_of_changes (changes_mbxReply ..) (by decide), current]
    · rw [core_of_cores (mbxReply_touch.cores' (by decide))]
      exact runs
  case log =>
    intro c a n b f r l s on serves indirect count records buffer
    exact exec_logRead_of on serves (logReadReq_records indirect count records buffer)
  case logMany =>
    intro c a n b f s on serves indirect many
    exact exec_logRead_of on serves (logReadReq_many indirect many)
  case shutdown =>
    intro c f s on serves fresh
    have replied := changes_mbxReply c {} (orderlyShutdown s)
    refine ⟨_, exec_shutdown_of on serves, serves.answered (orderlyShutdown_touch.mbx' (by decide)) {}, ?_, ?_, ?_, ?_⟩
    · rw [replied.part .fw (by decide), orderlyShutdown_shutDown]
    · rw [replied.part .frozen (by decide), orderlyShutdown_frozen on]
    · rw [State.kw, keepWord_of_keep (replied.part .keep (by decide))]
      exact orderlyShutdown_kept on fresh
    · exact ((replied.part .pwrState (by decide)).trans (orderlyShutdown_touch.pwrState (by decide))).trans on
  case armed =>
    intro c f s on serves armed
    rw [exec_deviceRestart_of on, deviceRestart_armed serves armed]
  case restart =>
    intro c b f s on serves may running
    have frame := changes_restart (restartable c s)
    have firmware := frame.part .fw (by decide)
    obtain ⟨on', cores, doms, mbx, slices, shutDown, released⟩ := coldFields_blank (persistAll (strataFlush (restartable c s)))
    obtain ⟨localNs, perstN⟩ := restart_pwr (restartable c s)
    refine ⟨_, (exec_deviceRestart_of on).trans (by rw [deviceRestart_taken serves may running]), (frame.part .pwrState (by decide)).trans on',
      (frame.part .cores (by decide)).trans cores, (frame.part .doms (by decide)).trans doms, (frame.part .mbx (by decide)).trans mbx,
      (frame.part .slices (by decide)).trans slices, (congrArg Firmware.shutDown firmware).trans shutDown,
      (congrArg Firmware.released firmware).trans released, ?_, ?_, fun a n bound => bytes_of_survivors (restart_mem _) bound⟩
    · rw [localNs, restartable_pwr]
    · rw [perstN, restartable_pwr]

end Sys2Proof.Machine
end
